-- ==== Sys2Proof/Word.lean ====
section
/-! DEFINITION. The machine's words: bytes, 64-bit register words, and bytes that carry a poison mark (R124, R234). -/

namespace Sys2Proof

/-- One byte of memory. -/
abbrev Byte := BitVec 8

/-- A register word (R17). -/
abbrev Word := BitVec 64

/-- A byte on its way through the part, with the poison mark of R124 and R234. -/
structure PByte where
  val : Byte
  poison : Bool
  deriving DecidableEq, Repr, Inhabited

end Sys2Proof
end

