-- ==== Sys2Proof/Syntax.lean ====
section
/-! DEFINITION. The commands and events of the part: one constructor per row of spec/opcode_table.json, in the
table's order. The table gives its rows no bits; the operands are what each row needs from outside the machine's
state: the unit it concerns, the value written, the packet or message that arrives, a reading of a sensor, or the
outcome of a physical process (notes/assumptions/1.md). -/

namespace Sys2Proof

/-- Who makes a register access (R15, R546, R553). -/
inductive Origin where
  | pf
  | vf (c : BitVec 12)
  | mgmt (eid : BitVec 8)
  | jtag
  deriving DecidableEq, Repr

/-- The waiters of R198. -/
inductive Waiter where
  | tiller (s : Fin 12) (n : Fin 64)
  | command (ring : BitVec 14)
  | notify (c : BitVec 12)
  | barrier (slot : Fin 16)
  deriving DecidableEq, Repr

/-- An error of the matrix arrays that strikes during a step (R94): a weight parity error or an accumulator error,
with the first tile row that it touches. -/
inductive ArrayErr where
  | none
  | parity (row : Nat)
  | accSingle (row : Nat)
  | accDouble (row : Nat)
  deriving DecidableEq, Repr

/-- An error that stands in a word or a sector until a read finds it (R234, R248). -/
inductive EccErr where
  | clean | single | double
  deriving DecidableEq, Repr, Inhabited

/-- A host read that ends without good data: the line of the host window that it asked for, and the completion status of
R302 (1 UR, 2 CA, 3 poisoned, 4 timeout). -/
structure HostErr where
  addr : BitVec 47
  status : BitVec 3
  deriving DecidableEq, Repr

/-- Who waits for far memory (R255): an operation of a Sheaf transfer engine, or the link engine of a port. -/
inductive FarWaiter where
  | engine (s : Fin 12) (k : Nat)
  | link (p : Fin 8)
  deriving DecidableEq, Repr

/-- A thermal sensor of R500: of a die (Sheaf 0-11, then Rachis 12-14), of a stack or of an engine. -/
inductive Sensor where
  | die (d : Fin 15) (k : Fin 8)
  | stack (h : Fin 12)
  | engine (p : Fin 8)
  deriving DecidableEq, Repr

/-- A place of the die-to-die connections (R28): a 64-lane bundle of a Sheaf's vertical interface, a UCIe module of the
A-B (0-15) and B-C (16-31) crossings, or a UCIe module between a Rachis and the optical engine of a port. -/
inductive D2d where
  | vertical (s : Fin 12) (bundle : Nat)
  | crossing (m : Fin 32)
  | engine (p : Fin 8) (m : Fin 4)
  deriving DecidableEq, Repr

/-- What a start-up step of R488 finds wrong. -/
inductive StartFault where
  | stepFails
  | refclkAbsent
  | sheafLost (s : Fin 12)
  | crossingLost (m : Fin 32)
  | laneBad (d : D2d) (lane : Fin 64)
  | tillerBad (s : Fin 12) (p : Fin 68)
  | stackBad (h : Fin 12)
  | guestRefused (p : Fin 8) (step : Fin 6)
  | portFailed (p : Fin 8)
  deriving DecidableEq, Repr

/-- What a guest optical die shows at admission (R319, R358). -/
structure GuestInfo where
  sideband : Bool
  vendor : BitVec 16
  device : BitVec 16
  fw : BitVec 16
  params : Bool
  modules : BitVec 4
  rate : BitVec 2
  calibrated : Bool
  deriving DecidableEq, Repr

/-- What a port's receiver sees when the port may change state (R343). -/
structure PortView where
  lit : BitVec 45
  testDone : Bool
  testFailed : BitVec 45
  deskewed : Bool
  deriving DecidableEq, Repr

/-- A transport of management messages (R545). -/
inductive Transport where
  | vdm | i3c | smbus
  deriving DecidableEq, Repr

/-- A unit compared under R550, with its two views. -/
inductive ViewUnit where
  | sheaf (s : Fin 12)
  | stack (h : Fin 12)
  | port (p : Fin 8)
  deriving DecidableEq, Repr

/-- One margin reading of R472. -/
inductive MarginReading where
  | timing (s : Fin 12) (n : Fin 64) (ps : Nat)
  | voltage (s : Fin 12) (mv : Nat)
  | optical (p : Fin 8) (ch : Fin 45) (db10 : Nat)
  deriving DecidableEq, Repr

/-- A JTAG instruction (R560). -/
inductive JtagIr where
  | bypass | idcode | sample | extest | clamp
  | regAccess (off : BitVec 26) (val : Word)
  | priv (code : BitVec 8)
  deriving DecidableEq, Repr

/-- Every command and event of the opcode table. -/
inductive Instr where
  /-- REGISTER_WRITE (R20) -/
  | registerWrite (org : Origin) (off : BitVec 26) (width : Nat) (val : Word)
  /-- LATCHED_LOWER_WRITE (R18) -/
  | latchedLowerWrite (org : Origin) (off : BitVec 26) (val : BitVec 32)
  /-- NOP (R157) -/
  | nop (s : Fin 12) (n : Fin 64)
  /-- END (R157) -/
  | endReplay (s : Fin 12) (n : Fin 64)
  /-- REPLAY_COMPLETE (R168) -/
  | replayComplete (s : Fin 12) (n : Fin 64)
  /-- LOOP (R162) -/
  | loop (s : Fin 12) (n : Fin 64)
  /-- ENDL (R162) -/
  | endl (s : Fin 12) (n : Fin 64)
  /-- PSET (R157) -/
  | pset (s : Fin 12) (n : Fin 64)
  /-- PADD (R157) -/
  | padd (s : Fin 12) (n : Fin 64)
  /-- PCPY (R157) -/
  | pcpy (s : Fin 12) (n : Fin 64)
  /-- AGSET (R157) -/
  | agset (s : Fin 12) (n : Fin 64)
  /-- WAIT (R157) -/
  | wait (s : Fin 12) (n : Fin 64)
  /-- SIGNAL (R158) -/
  | signal (s : Fin 12) (n : Fin 64)
  /-- FENCE (R157) -/
  | fence (s : Fin 12) (n : Fin 64)
  /-- LD (R152) -/
  | ld (s : Fin 12) (n : Fin 64)
  /-- ST (R152) -/
  | st (s : Fin 12) (n : Fin 64)
  /-- LD_UNIT_MOVE (R141) -/
  | ldUnitMove (s : Fin 12) (n : Fin 64) (q : BitVec 5)
  /-- ST_UNIT_MOVE (R141) -/
  | stUnitMove (s : Fin 12) (n : Fin 64)
  /-- MM (R150) -/
  | mm (s : Fin 12) (n : Fin 64)
  /-- MM_PASS_ISSUE (R87) -/
  | mmPassIssue (s : Fin 12) (n : Fin 64) (arr : Fin 4) (err : ArrayErr)
  /-- PASS_ACCUMULATION_COMPLETE (R81) -/
  | passAccumulationComplete (s : Fin 12) (n : Fin 64) (arr : Fin 4) (err : ArrayErr)
  /-- TILE_DRAIN (R93) -/
  | tileDrain (s : Fin 12) (n : Fin 64) (arr : Fin 4) (err : ArrayErr)
  /-- GANG_CMP_WRITE (R100) -/
  | gangCmpWrite (s : Fin 12) (n : Fin 64) (org : Origin) (gang : BitVec 2) (cmp : Bool)
  /-- MA_STALL_CLR (R104) -/
  | maStallClr (s : Fin 12) (n : Fin 64)
  /-- FADD (R118) -/
  | fadd (s : Fin 12) (n : Fin 64)
  /-- FSUB (R118) -/
  | fsub (s : Fin 12) (n : Fin 64)
  /-- FMUL (R118) -/
  | fmul (s : Fin 12) (n : Fin 64)
  /-- FMA (R118) -/
  | fma (s : Fin 12) (n : Fin 64)
  /-- FMIN (R117) -/
  | fmin (s : Fin 12) (n : Fin 64)
  /-- FMAX (R117) -/
  | fmax (s : Fin 12) (n : Fin 64)
  /-- FABS (R117) -/
  | fabs (s : Fin 12) (n : Fin 64)
  /-- FNEG (R117) -/
  | fneg (s : Fin 12) (n : Fin 64)
  /-- FSGN (R117) -/
  | fsgn (s : Fin 12) (n : Fin 64)
  /-- FCMP (R117) -/
  | fcmp (s : Fin 12) (n : Fin 64)
  /-- SEL (R117) -/
  | sel (s : Fin 12) (n : Fin 64)
  /-- CVT (R117) -/
  | cvt (s : Fin 12) (n : Fin 64)
  /-- RCP (R119) -/
  | rcp (s : Fin 12) (n : Fin 64)
  /-- SQRT (R119) -/
  | sqrt (s : Fin 12) (n : Fin 64)
  /-- RSQRT (R119) -/
  | rsqrt (s : Fin 12) (n : Fin 64)
  /-- EXP (R119) -/
  | exp (s : Fin 12) (n : Fin 64)
  /-- EXP2 (R119) -/
  | exp2 (s : Fin 12) (n : Fin 64)
  /-- LOG (R119) -/
  | log (s : Fin 12) (n : Fin 64)
  /-- LOG2 (R119) -/
  | log2 (s : Fin 12) (n : Fin 64)
  /-- TANH (R119) -/
  | tanh (s : Fin 12) (n : Fin 64)
  /-- SIGM (R119) -/
  | sigm (s : Fin 12) (n : Fin 64)
  /-- IADD (R117) -/
  | iadd (s : Fin 12) (n : Fin 64)
  /-- ISUB (R117) -/
  | isub (s : Fin 12) (n : Fin 64)
  /-- IMIN (R117) -/
  | imin (s : Fin 12) (n : Fin 64)
  /-- IMAX (R117) -/
  | imax (s : Fin 12) (n : Fin 64)
  /-- AND (R117) -/
  | and (s : Fin 12) (n : Fin 64)
  /-- OR (R117) -/
  | or (s : Fin 12) (n : Fin 64)
  /-- XOR (R117) -/
  | xor (s : Fin 12) (n : Fin 64)
  /-- SHL (R117) -/
  | shl (s : Fin 12) (n : Fin 64)
  /-- SHR (R117) -/
  | shr (s : Fin 12) (n : Fin 64)
  /-- WADD (R117) -/
  | wadd (s : Fin 12) (n : Fin 64)
  /-- WCVT (R117) -/
  | wcvt (s : Fin 12) (n : Fin 64)
  /-- RSUM (R131) -/
  | rsum (s : Fin 12) (n : Fin 64)
  /-- RSUMSQ (R131) -/
  | rsumsq (s : Fin 12) (n : Fin 64)
  /-- RMAX (R131) -/
  | rmax (s : Fin 12) (n : Fin 64)
  /-- RMAXABS (R131) -/
  | rmaxabs (s : Fin 12) (n : Fin 64)
  /-- MAND (R117) -/
  | mand (s : Fin 12) (n : Fin 64)
  /-- MOR (R117) -/
  | mor (s : Fin 12) (n : Fin 64)
  /-- MXOR (R117) -/
  | mxor (s : Fin 12) (n : Fin 64)
  /-- MNOT (R117) -/
  | mnot (s : Fin 12) (n : Fin 64)
  /-- VGATH (R123) -/
  | vgath (s : Fin 12) (n : Fin 64)
  /-- VECTOR_CHUNK_ISSUE (R116) -/
  | vectorChunkIssue (s : Fin 12) (n : Fin 64)
  /-- STATISTIC_RECORD_WRITE (R128) -/
  | statisticRecordWrite (s : Fin 12) (n : Fin 64)
  /-- VE_STALL_CLR (R133) -/
  | veStallClr (s : Fin 12) (n : Fin 64)
  /-- WATCHDOG_EXPIRY (R174) -/
  | watchdogExpiry (s : Fin 12) (n : Fin 64)
  /-- HALT (R172) -/
  | halt (s : Fin 12) (n : Fin 64)
  /-- STEP (R172) -/
  | step (s : Fin 12) (n : Fin 64)
  /-- RESUME (R172) -/
  | resume (s : Fin 12) (n : Fin 64)
  /-- PARAM_WRITE (R178) -/
  | paramWrite (s : Fin 12) (n : Fin 64) (k : BitVec 8) (val : Word)
  /-- BREAK_REGISTER_WRITE (R172) -/
  | breakRegisterWrite (s : Fin 12) (n : Fin 64) (org : Origin) (reg : Fin 3) (val : Word)
  /-- GLUME_SIGNAL_APPLY (R188) -/
  | glumeSignalApply (pid : BitVec 16) (n : BitVec 16)
  /-- WAIT_SATISFIED (R200) -/
  | waitSatisfied (w : Waiter)
  /-- WAIT_TIMEOUT (R205) -/
  | waitTimeout (w : Waiter)
  /-- GLUME_ALLOCATE (R194) -/
  | glumeAllocate (org : Origin) (pid : BitVec 16) (ctx : BitVec 12)
  /-- GLUME_FREEZE (R194) -/
  | glumeFreeze (org : Origin) (pid : BitVec 16)
  /-- GLUME_FREE (R194) -/
  | glumeFree (org : Origin) (pid : BitVec 16)
  /-- GLUME_READ (R194) -/
  | glumeRead (org : Origin) (pid : BitVec 16)
  /-- XLAT_INVAL (R197) -/
  | xlatInval (org : Origin) (ctx : BitVec 12) (all : Bool) (vid : BitVec 16)
  /-- HOST_SIGNAL (R228) -/
  | hostSignal (c : BitVec 12) (vid : BitVec 16)
  /-- GLUME_VALUE_READ (R229) -/
  | glumeValueRead (c : BitVec 12)
  /-- NOTIFY_ARM (R230) -/
  | notifyArm (c : BitVec 12) (vid : BitVec 16)
  /-- NOTIFY_FIRE (R198) -/
  | notifyFire (c : BitVec 12)
  /-- BARRIER_SLOT_CONFIG (R211) -/
  | barrierSlotConfig (org : Origin) (slot : Fin 16) (reg : Fin 2) (val : Word)
  /-- BARRIER_ARRIVE (R212) -/
  | barrierArrive (slot : Fin 16)
  /-- ARRIVAL_TOKEN (R212) -/
  | arrivalToken (port : Fin 8) (hdr : BitVec 256) (slot : Fin 16) (round : BitVec 32) (stretch : BitVec 16)
  /-- RELEASE_TOKEN (R213) -/
  | releaseToken (port : Fin 8) (hdr : BitVec 256) (slot : Fin 16) (round : BitVec 32) (t : Word) (stretch : BitVec 16)
  /-- BARRIER_RELEASE (R214) -/
  | barrierRelease (slot : Fin 16)
  /-- BARRIER_ROUND_TIMEOUT (R215) -/
  | barrierRoundTimeout (slot : Fin 16)
  /-- COMMAND_FETCH (R286) -/
  | commandFetch (ring : BitVec 14) (hostErr : Option HostErr)
  /-- DOORBELL_SNOOP (R276) -/
  | doorbellSnoop (ring : BitVec 14) (hostErr : Option HostErr)
  /-- DOORBELL_POLL (R276) -/
  | doorbellPoll (ring : BitVec 14) (hostErr : Option HostErr)
  /-- RING_ENABLE (R277) -/
  | ringEnable (org : Origin) (ring : BitVec 14)
  /-- COMMAND_NOP (R280) -/
  | commandNop (ring : BitVec 14)
  /-- RUN (R280) -/
  | run (ring : BitVec 14) (hostErr : Option HostErr)
  /-- XFER (R280) -/
  | xfer (ring : BitVec 14) (hostErr : Option HostErr)
  /-- COMMAND_COMPLETE (R285) -/
  | commandComplete (ring : BitVec 14) (pos : Word)
  /-- RING_CANCEL (R289) -/
  | ringCancel (org : Origin) (ring : BitVec 14) (upto : Word)
  /-- CANCELLED_RETIRE (R208) -/
  | cancelledRetire (ring : BitVec 14)
  /-- RING_RESUME (R290) -/
  | ringResume (org : Origin) (ring : BitVec 14)
  /-- TRANSLATION_RESUME (R294) -/
  | translationResume (c : BitVec 12)
  /-- TLB_INVAL (R295) -/
  | tlbInval (c : BitVec 12) (all : Bool) (cva : Word)
  /-- CONTEXT_ENABLE (R274) -/
  | contextEnable (org : Origin) (c : BitVec 12) (en : Bool)
  /-- CONTEXT_RESET (R296) -/
  | contextReset (c : BitVec 12)
  /-- FUNCTION_LEVEL_RESET (R296) -/
  | functionLevelReset (c : BitVec 12)
  /-- CONTEXT_RESET_DONE (R296) -/
  | contextResetDone (c : BitVec 12)
  /-- MSIX_MESSAGE (R303) -/
  | msixMessage (c : BitVec 12) (vec : Fin 8)
  /-- COPY (R245) -/
  | copy (s : Fin 12) (k : Nat) (hostErr : Option HostErr)
  /-- FILL (R245) -/
  | fill (s : Fin 12) (k : Nat)
  /-- MILLET_READ (R241) -/
  | milletRead (s : Fin 12) (k : Nat) (hostErr : Option HostErr)
  /-- MILLET_WRITE (R241) -/
  | milletWrite (s : Fin 12) (k : Nat) (hostErr : Option HostErr)
  /-- MILLET_ADD32 (R241) -/
  | milletAdd32 (s : Fin 12) (k : Nat) (hostErr : Option HostErr)
  /-- MILLET_ADD64 (R241) -/
  | milletAdd64 (s : Fin 12) (k : Nat) (hostErr : Option HostErr)
  /-- DIGEST_PIECE (R439) -/
  | digestPiece (s : Fin 12) (k : Nat) (hostErr : Option HostErr)
  /-- DIGEST_PIECE_COPY (R439) -/
  | digestPieceCopy (s : Fin 12) (k : Nat) (hostErr : Option HostErr)
  /-- DIGEST_FINAL (R437) -/
  | digestFinal (s : Fin 12) (k : Nat) (hostErr : Option HostErr)
  /-- DIGEST_PROV (R440) -/
  | digestProv (s : Fin 12) (k : Nat) (hostErr : Option HostErr)
  /-- TRANSFER_OPERATION_COMPLETE (R247) -/
  | transferOperationComplete (s : Fin 12) (k : Nat)
  /-- FAR_MEMORY_TIMEOUT (R255) -/
  | farMemoryTimeout (w : FarWaiter)
  /-- FAR_LINK_DOWN (R255) -/
  | farLinkDown
  /-- SCRUB_READ (R249) -/
  | scrubRead (sector : BitVec 40) (found : EccErr) (newer : Bool)
  /-- GO_SOFT (R250) -/
  | goSoft (org : Origin) (val : Word)
  /-- GO_HARD (R250) -/
  | goHard (org : Origin) (val : Word)
  /-- HBM_REPAIR_DONE (R250) -/
  | hbmRepairDone (ok : Bool)
  /-- HBM_RETIRE (R265) -/
  | hbmRetire (org : Origin) (page : BitVec 19)
  /-- HBM_RETIRE_CLR (R265) -/
  | hbmRetireClr (org : Origin)
  /-- REGION_WRITE (R256) -/
  | regionWrite (org : Origin) (mirror : Bool) (val : Word)
  /-- UCIE_MODULE_LOST (R320) -/
  | ucieModuleLost (p : Fin 8) (m : Fin 4)
  /-- MARKER_RECEIVE (R327) -/
  | markerReceive (p : Fin 8) (ch : Fin 45) (word : Word) (gap : Nat) (corr : Fin 241) (uncorr : Fin 9)
  /-- SLOT_RECEIVE (R334) -/
  | slotReceive (p : Fin 8) (control : Bool) (seq : BitVec 48) (bad : Bool) (units : List (Option (BitVec 256)))
  /-- LCF_RECEIVE (R332) -/
  | lcfReceive (p : Fin 8) (bytes : List Byte)
  /-- CHANNEL_FAIL (R336) -/
  | channelFail (p : Fin 8) (ch : Fin 45) (lostLock : Bool)
  /-- CHANNEL_SYMBOL_RATE_FAIL (R336) -/
  | channelSymbolRateFail (p : Fin 8) (ch : Fin 45)
  /-- LASER_FAIL (R337) -/
  | laserFail (p : Fin 8) (ch : Fin 45)
  /-- PAUSE_GO (R340) -/
  | pauseGo (org : Origin) (p : Fin 8)
  /-- PAUSE_EXPIRE (R341) -/
  | pauseExpire (p : Fin 8)
  /-- PAUSE_LIMIT (R342) -/
  | pauseLimit (p : Fin 8)
  /-- PORT_STATE_ADVANCE (R343) -/
  | portStateAdvance (p : Fin 8) (view : PortView)
  /-- LCF_TIMEOUT (R348) -/
  | lcfTimeout (p : Fin 8)
  /-- AUTO_RETRAIN (R343) -/
  | autoRetrain (p : Fin 8) (g : GuestInfo)
  /-- RETRAIN (R352) -/
  | retrain (org : Origin) (p : Fin 8) (g : GuestInfo)
  /-- PORT_ENABLE_WRITE (R346) -/
  | portEnableWrite (org : Origin) (p : Fin 8) (en : Bool)
  /-- CHANNEL_FUSE (R317) -/
  | channelFuse (org : Origin) (p : Fin 8) (rx : Bool)
  /-- PACKET_INJECT (R373) -/
  | packetInject (flow : BitVec 14)
  /-- PACKET_FORWARD (R367) -/
  | packetForward (inp : Fin 9) (buf : Fin 7)
  /-- ESCAPE_MOVE (R369) -/
  | escapeMove (inp : Fin 9) (buf : Fin 7)
  /-- AGING_SERVE (R371) -/
  | agingServe (inp : Fin 9) (buf : Fin 7)
  /-- WRITE (R374) -/
  | write (p : Fin 8) (hdr : BitVec 256) (payload : List Byte)
  /-- STREAM (R374) -/
  | stream (p : Fin 8) (hdr : BitVec 256) (payload : List Byte)
  /-- READ_REQ (R362) -/
  | readReq (p : Fin 8) (hdr : BitVec 256) (payload : List Byte)
  /-- READ_RESP (R362) -/
  | readResp (p : Fin 8) (hdr : BitVec 256) (payload : List Byte)
  /-- REMOTE_SIGNAL (R201) -/
  | remoteSignal (p : Fin 8) (hdr : BitVec 256) (payload : List Byte)
  /-- REMOTE_SIGNAL_RELEASE (R202) -/
  | remoteSignalRelease (flow : BitVec 14)
  /-- ACK (R375) -/
  | ack (p : Fin 8) (hdr : BitVec 256) (payload : List Byte)
  /-- NAK (R375) -/
  | nak (p : Fin 8) (hdr : BitVec 256) (payload : List Byte)
  /-- UNREACH (R370) -/
  | unreach (p : Fin 8) (hdr : BitVec 256) (payload : List Byte)
  /-- LINE (R377) -/
  | line (p : Fin 8) (hdr : BitVec 256) (payload : List Byte)
  /-- ACK_TIMER (R375) -/
  | ackTimer (flow : BitVec 14)
  /-- GAP_TIMEOUT (R375) -/
  | gapTimeout (flow : BitVec 14)
  /-- RTO_EXPIRE (R375) -/
  | rtoExpire (flow : BitVec 14)
  /-- FLOW_READ (R389) -/
  | flowRead (org : Origin) (rx : Bool) (flow : BitVec 14)
  /-- FLOW_OPEN (R373) -/
  | flowOpen (org : Origin) (rx : Bool) (flow : BitVec 14)
  /-- FLOW_CLOSE (R389) -/
  | flowClose (org : Origin) (rx : Bool) (flow : BitVec 14)
  /-- GROUP_ARM (R393) -/
  | groupArm (org : Origin) (g : BitVec 8)
  /-- GROUP_DISARM (R465) -/
  | groupDisarm (org : Origin) (g : BitVec 8)
  /-- CHUNK_ENTER (R404) -/
  | chunkEnter (s : Fin 12) (n : Fin 64) (q : BitVec 5) (resid : Fin 5)
  /-- COL_PARTIAL (R398) -/
  | colPartial (p : Fin 8) (hdr : BitVec 256) (payload : List Byte) (resid : Fin 5)
  /-- COL_FINAL (R399) -/
  | colFinal (p : Fin 8) (hdr : BitVec 256) (payload : List Byte)
  /-- COL_EXP (R401) -/
  | colExp (p : Fin 8) (hdr : BitVec 256) (payload : List Byte)
  /-- COL_ROW (R407) -/
  | colRow (p : Fin 8) (hdr : BitVec 256) (payload : List Byte)
  /-- ROUTE_RECORD (R407) -/
  | routeRecord (s : Fin 12) (n : Fin 64) (q : BitVec 5)
  /-- LANE_END (R408) -/
  | laneEnd (s : Fin 12) (n : Fin 64) (q : BitVec 5)
  /-- MODE_WRITE (R427) -/
  | modeWrite (org : Origin) (strict : Bool) (portable : Bool)
  /-- EVT_CLR (R445) -/
  | evtClr (org : Origin)
  /-- STRETCH_APPLY (R502) -/
  | stretchApply
  /-- D2D_LANE_REPAIR (R451) -/
  | d2dLaneRepair (d : D2d) (lane : Fin 64)
  /-- MAP (R452) -/
  | map (org : Origin) (s : Fin 12) (n : Fin 64)
  /-- FUSE (R476) -/
  | fuse (org : Origin) (s : Fin 12)
  /-- RENUMBER (R453) -/
  | renumber (org : Origin) (s : Fin 12)
  /-- FENCE_SHEAF (R454) -/
  | fenceSheaf (org : Origin) (s : Fin 12)
  /-- MIRROR_ENABLE (R459) -/
  | mirrorEnable (org : Origin) (val : Word)
  /-- MIRROR_SYNC (R460) -/
  | mirrorSync
  /-- MIRROR_SYNC_COMPLETE (R460) -/
  | mirrorSyncComplete
  /-- MIRROR_BLOCK_COMMIT (R461) -/
  | mirrorBlockCommit (block : Nat)
  /-- NEIGHBOUR_LOST (R463) -/
  | neighbourLost
  /-- FLOW_TRIM (R466) -/
  | flowTrim (org : Origin) (flow : BitVec 14)
  /-- FLOW_SKIP (R467) -/
  | flowSkip (org : Origin) (flow : BitVec 14) (skip : BitVec 32)
  /-- LOG_REPLAY (R468) -/
  | logReplay (org : Origin) (flow : BitVec 14)
  /-- MARGIN_MEASURE (R472) -/
  | marginMeasure (readings : List MarginReading)
  /-- AUX_RISE (R483) -/
  | auxRise (addr : BitVec 3)
  /-- AUX_LOST (R483) -/
  | auxLost
  /-- AUX_RETURN (R483) -/
  | auxReturn
  /-- INPUT_OVERVOLTAGE (R483) -/
  | inputOvervoltage
  /-- HOLDUP_EXPIRE (R483) -/
  | holdupExpire
  /-- MAIN_RELEASE (R482) -/
  | mainRelease
  /-- STARTUP_STEP (R488) -/
  | startupStep (found : List StartFault) (guests : List GuestInfo)
  /-- BROWNOUT_HOLD (R485) -/
  | brownoutHold
  /-- BROWNOUT_RESUME (R484) -/
  | brownoutResume (lowest : BitVec 10)
  /-- HOLD_LIMIT (R484) -/
  | holdLimit
  /-- ORDERLY_SHUTDOWN (R487) -/
  | orderlyShutdown
  /-- MAIN_ON (R511) -/
  | mainOn (org : Origin)
  /-- OFF (R511) -/
  | off (org : Origin)
  /-- MODULE_RESET (R491) -/
  | moduleReset (org : Origin)
  /-- PERST_ASSERT (R491) -/
  | perstAssert
  /-- PERST_DEASSERT (R490) -/
  | perstDeassert (cxl : Bool) (bar2 : Option (Fin 10)) (hdmBase hdmSize : BitVec 40)
  /-- HOLDOVER_ENTER (R494) -/
  | holdoverEnter
  /-- HOLDOVER_EXIT (R494) -/
  | holdoverExit
  /-- MTIME_SET (R493) -/
  | mtimeSet (org : Origin) (val : Word)
  /-- CLOCK_PLAN_WRITE (R495) -/
  | clockPlanWrite (org : Origin) (mhz : BitVec 16)
  /-- CLOCK_CHANGE (R497) -/
  | clockChange
  /-- VLOOP_ADJUST (R498) -/
  | vloopAdjust (s : Fin 12) (slackPs : Nat)
  /-- POWER_CAP_CHECK (R499) -/
  | powerCapCheck (avg1ms : BitVec 16) (avg100us : BitVec 16)
  /-- THERMAL_CHECK (R500) -/
  | thermalCheck (readings : List (Sensor × Nat))
  /-- LASER_BIAS_ADJUST (R504) -/
  | laserBiasAdjust (p : Fin 8) (ch : Fin 45) (reaches : Bool)
  /-- ENTER (R505) -/
  | enter (org : Origin)
  /-- WAKE (R506) -/
  | wake (org : Origin)
  /-- DORMANT_WAKE (R506) -/
  | dormantWake (cause : BitVec 3)
  /-- AGEING_RECORD (R507) -/
  | ageingRecord (kind : BitVec 4) (unit : BitVec 12) (value : Nat)
  /-- TELEMETRY_SAMPLE (R524) -/
  | telemetrySample (source : Fin 13)
  /-- OBS_CLR (R543) -/
  | obsClr (s : Fin 12) (n : Fin 64)
  /-- SETTIME_BROADCAST (R547) -/
  | settimeBroadcast (tr : Transport) (body : List Byte)
  /-- SETTIME_DIRECTED (R549) -/
  | settimeDirected (tr : Transport) (body : List Byte)
  /-- PEER_QUERY (R548) -/
  | peerQuery (org : Origin) (node : BitVec 24)
  /-- PEER_QUERY_RESPONSE (R549) -/
  | peerQueryResponse (body : List Byte)
  /-- PEER_QUERY_TIMEOUT (R548) -/
  | peerQueryTimeout
  /-- PLDM_EFFECTER_WRITE (R546) -/
  | pldmEffecterWrite (eid : BitVec 8) (off : BitVec 26) (val : Word)
  /-- FIRMWARE_TRANSFER (R558) -/
  | firmwareTransfer (version : BitVec 31) (done : Bool) (sigOk : Bool)
  /-- VIEW_COMPARE (R550) -/
  | viewCompare (views : List (ViewUnit × Bool × Bool))
  /-- AUDIT_FLUSH (R554) -/
  | auditFlush
  /-- CLEAR (R555) -/
  | clear (org : Origin)
  /-- PRESENCE_OPEN (R556) -/
  | presenceOpen
  /-- PRESENCE_CLOSE (R556) -/
  | presenceClose
  /-- ACTIVATE (R559) -/
  | activate (org : Origin)
  /-- CONFIRM (R559) -/
  | confirm (org : Origin)
  /-- RAISE (R559) -/
  | raise (org : Origin)
  /-- FIRMWARE_REVERT (R559) -/
  | firmwareRevert
  /-- UNLOCK (R560) -/
  | unlock (org : Origin)
  /-- LOCK (R560) -/
  | lock (org : Origin)
  /-- JTAG_INSTRUCTION (R560) -/
  | jtagInstruction (ir : JtagIr)
  /-- SEATED_RELEASE (R568) -/
  | seatedRelease
  /-- BROWNOUT_BEFORE_READY (R484) -/
  | brownoutBeforeReady
  /-- GUEST_LOST (R348) -/
  | guestLost (p : Fin 8)
  /-- RACKREF_RETURN (R494) -/
  | rackrefReturn (count : Word)
  /-- LINK_FRAME (R321) -/
  | linkFrame (p : Fin 8)
  /-- BAR2_WRITE (R271) -/
  | bar2Write (viaCxl : Bool) (addr : BitVec 40) (bytes : List PByte)
  /-- GLUME_ADMIN_COMPLETE (R194) -/
  | glumeAdminComplete
  /-- XLAT_INVAL_COMPLETE (R197) -/
  | xlatInvalComplete
  /-- TLB_INVAL_COMPLETE (R295) -/
  | tlbInvalComplete (c : BitVec 12)
  /-- SPARE_MAP_COMPLETE (R452) -/
  | spareMapComplete (s : Fin 12)
  /-- LOG_REPLAY_COMPLETE (R468) -/
  | logReplayComplete
  /-- DORMANT_ENTRY_COMPLETE (R505) -/
  | dormantEntryComplete
  deriving DecidableEq, Repr

end Sys2Proof
end

