-- ==== Sys2Proof/Decode.lean ====
section
/-! DEFINITION. The opcode table gives bits to none of its rows, so no word spells a command. -/

namespace Sys2Proof

/-- The command that a word spells by the table's bits: none, since the table gives no row bits. -/
def decodeTableWord (_nbits _w : Nat) : Option Instr := none

end Sys2Proof
end

