-- ==== Sys2Proof/Machine/Arith.lean ====
section
/-! DEFINITION. Exact values and their types: what an element of a storage format stands for (R36-R51). Functions
over them are in Machine/Formats.lean and its neighbours. -/

namespace Sys2Proof.Machine

/-- An exact value: NaN, a signed infinity, or a signed dyadic number (-1)^neg * m * 2^e (R39, R45, R51). A zero
keeps its sign. -/
inductive FVal where
  | nan
  | inf (neg : Bool)
  | fin (neg : Bool) (m : Nat) (e : Int)
  deriving DecidableEq, Repr, Inhabited

/-- An operand element on its way to the arrays: its exact value and its poison mark (R581). -/
structure Operand where
  val : FVal
  poison : Bool
  deriving DecidableEq, Repr, Inhabited

end Sys2Proof.Machine
end

