-- ==== Sys2Proof/Config.lean ====
section
/-! DEFINITION. The values that the spec leaves open, as opaque constants with no body (notes/assumptions/2.md).
A statement about one holds for every value of it. -/

namespace Sys2Proof.Config

/-- A value that the spec leaves open, fresh for each use: applied to the counter `State.fresh`. -/
opaque freeWord : Nat → Word

/-- Whether an event that the spec leaves open happens, fresh for each use. -/
opaque freeBool : Nat → Bool

/-- Whether operand k of a 16-bit vector instruction is FP16 (or BF16), 0 to 2 the sources and 3 the destination, where no
conversion word says so: the encoding names neither (R120, R153). The first argument is the instruction's encoding. -/
opaque operandFp16 : List Nat → Nat → Bool

/-- Whether a SEL without a conversion word and without MODE16 selects W64 elements (or 32-bit ones): the encoding does not say
(R117, R153). -/
opaque selectW64 : List Nat → Bool

/-- The input voltage at a time, in units of 100 mV: no command says what it measures (R510;
notes/assumptions/160.md). -/
opaque inputVoltage : Nat → Nat

/-- The months of the end-of-life prediction of R507, from the daily records of an item: the spec gives the curve and
not how it is fitted. -/
opaque predictMonths : List (Nat × Nat × Nat) → Nat → Nat → Nat

/-- Word k of a READ_REQ's 32-byte payload, given as a number: 0 the reply flow, 1 the reply address, 2 the length. The
spec names the three and not where they lie (R362). -/
opaque readRequest (k : Nat) (payload : Nat) : Nat

/-- The TALLY_ADDR of the member of rank d of a group, as a DISPATCH unit of another member knows it: the spec says that
the unit writes there and not how it learns it (R408). -/
opaque peerTally (group : Nat) (rank : Nat) : Nat

/-- The number of the sync that an incoming mirror block belongs to, as the buddy knows it, fresh for each block: no
packet field carries it (R461). -/
opaque syncNumber : Nat → Nat

/-- The first byte of the buddy's mirror region, as the mirror writer of this module knows it (R460). -/
opaque buddyBase : Nat

/-- The ps-per-mV factor of a Sheaf's rail from assembly calibration, in 1/1000 ps per mV (R472). -/
opaque railFactor : Nat → Nat

/-- The spare lanes of a UCIe module: the spec gives lane repair and no number (R28, R451). -/
opaque ucieSpares : Nat

/-- Entry k of the guest allow list of the firmware bundle of a version, as SEC_ALLOW k shows it: a bundle's contents are not
in the spec (R558, R563). -/
opaque allowEntry (version : Nat) (k : Nat) : Word

/-- The payload of a BARRIER packet: its layout is not given (R212, R213, R361; notes/assumptions/162.md). -/
opaque tokenBody (release : Bool) (slot round t stretch : Nat) : BitVec 256

end Sys2Proof.Config
end

