-- ==== Sys2Proof/Machine/Formats.lean ====
section
/-! DEFINITION. The storage formats: decoding (R36-R51), rounding on a destination grid (R60-R66), and the
conversion of one element (R61-R64, R580). -/

namespace Sys2Proof.Machine

/-! ### Bit fields -/

/-- Bits [hi:lo] of a natural number. -/
def bitsOf (x hi lo : Nat) : Nat := (x / 2 ^ lo) % 2 ^ (hi + 1 - lo)

/-- One bit. -/
def bitAt (x k : Nat) : Bool := (x / 2 ^ k) % 2 == 1

/-- Two's complement value of the low `w` bits. -/
def signedOf (w x : Nat) : Int :=
  let y := x % 2 ^ w
  if y < 2 ^ (w - 1) then (y : Int) else (y : Int) - (2 ^ w : Nat)

/-- Two's complement encoding in `w` bits. -/
def wrapInt (w : Nat) (v : Int) : Nat := (v % ((2 ^ w : Nat) : Int)).toNat

/-- The number whose little-endian bytes these are (R7). -/
def leNat : List Byte → Nat
  | [] => 0
  | b :: t => b.toNat + 256 * leNat t

/-- The `n` little-endian bytes of a number. -/
def leBytes : Nat → Nat → List Byte
  | 0, _ => []
  | n + 1, x => BitVec.ofNat 8 x :: leBytes n (x / 256)

/-- Elements of `w` bits packed from bit 0 upward (R8). -/
def unpack (w : Nat) : Nat → Nat → List Nat
  | 0, _ => []
  | n + 1, x => x % 2 ^ w :: unpack w n (x / 2 ^ w)

/-- The inverse of `unpack`. -/
def packNat (w : Nat) : List Nat → Nat
  | [] => 0
  | x :: t => x % 2 ^ w + 2 ^ w * packNat w t

/-! ### Exact values -/

def FVal.isNan : FVal → Bool
  | .nan => true
  | _ => false

def FVal.isInf : FVal → Bool
  | .inf _ => true
  | _ => false

def FVal.isZero : FVal → Bool
  | .fin _ 0 _ => true
  | _ => false

def FVal.finite : FVal → Bool
  | .fin _ _ _ => true
  | _ => false

def FVal.sign : FVal → Bool
  | .nan => false
  | .inf n => n
  | .fin n _ _ => n

def FVal.abs : FVal → FVal
  | .nan => .nan
  | .inf _ => .inf false
  | .fin _ m e => .fin false m e

def FVal.negate : FVal → FVal
  | .nan => .nan
  | .inf n => .inf (!n)
  | .fin n m e => .fin (!n) m e

/-- The integer a signed magnitude stands for. -/
def sgnInt (neg : Bool) (m : Nat) : Int := if neg then -(m : Int) else (m : Int)

/-- A dyadic value from an integer and an exponent; zero is +0. -/
def FVal.ofInt (i : Int) (e : Int) : FVal := .fin (decide (i < 0)) i.natAbs e

/-- Magnitudes m1 * 2^e1 and m2 * 2^e2 on their common exponent. -/
def alignMag (m1 : Nat) (e1 : Int) (m2 : Nat) (e2 : Int) : Nat × Nat × Int :=
  let e := min e1 e2
  (m1 * 2 ^ (e1 - e).toNat, m2 * 2 ^ (e2 - e).toNat, e)

/-- Compare two magnitudes. -/
def magLt (m1 : Nat) (e1 : Int) (m2 : Nat) (e2 : Int) : Bool :=
  let a := alignMag m1 e1 m2 e2
  decide (a.1 < a.2.1)

/-- Exact sum of finite values. An exact zero from values of opposite sign takes the sign `zneg` (R118). -/
def FVal.addFin (zneg : Bool) (n1 : Bool) (m1 : Nat) (e1 : Int) (n2 : Bool) (m2 : Nat) (e2 : Int) : FVal :=
  let a := alignMag m1 e1 m2 e2
  let i := sgnInt n1 a.1 + sgnInt n2 a.2.1
  if i = 0 then .fin (if n1 == n2 then n1 else zneg) 0 0 else FVal.ofInt i a.2.2

/-- The sum of two values, exact where finite (R55, R118). -/
def FVal.add (zneg : Bool) : FVal → FVal → FVal
  | .nan, _ => .nan
  | _, .nan => .nan
  | .inf a, .inf b => if a == b then .inf a else .nan
  | .inf a, _ => .inf a
  | _, .inf b => .inf b
  | .fin n1 m1 e1, .fin n2 m2 e2 => FVal.addFin zneg n1 m1 e1 n2 m2 e2

/-- The product of two values, exact where finite (R53, R55). -/
def FVal.mul : FVal → FVal → FVal
  | .nan, _ => .nan
  | _, .nan => .nan
  | .inf a, .inf b => .inf (a != b)
  | .inf a, .fin n m _ => if m = 0 then .nan else .inf (a != n)
  | .fin n m _, .inf b => if m = 0 then .nan else .inf (n != b)
  | .fin n1 m1 e1, .fin n2 m2 e2 => .fin (n1 != n2) (m1 * m2) (e1 + e2)

/-- Order on values that are no NaN, with -0 below +0 (R117). -/
def FVal.ltTotal : FVal → FVal → Bool
  | .nan, _ => false
  | _, .nan => false
  | .inf a, .inf b => a && !b
  | .inf a, _ => a
  | _, .inf b => !b
  | .fin n1 m1 e1, .fin n2 m2 e2 =>
    if m1 = 0 && m2 = 0 then n1 && !n2
    else
      let a := alignMag m1 e1 m2 e2
      decide (sgnInt n1 a.1 < sgnInt n2 a.2.1)

/-- IEEE equality of values: zeros of either sign are equal, NaN equals nothing. -/
def FVal.eqVal : FVal → FVal → Bool
  | .nan, _ => false
  | _, .nan => false
  | .inf a, .inf b => a == b
  | .inf _, _ => false
  | _, .inf _ => false
  | .fin n1 m1 e1, .fin n2 m2 e2 =>
    let a := alignMag m1 e1 m2 e2
    decide (sgnInt n1 a.1 = sgnInt n2 a.2.1)

/-- IEEE less-than of values: zeros of either sign are equal. -/
def FVal.ltVal (a b : FVal) : Bool := a.ltTotal b && !(a.eqVal b)

/-- The larger of two values that are no NaN (R117: -0 lies below +0). -/
def FVal.max (a b : FVal) : FVal := if a.isNan || b.isNan then .nan else if a.ltTotal b then b else a

/-- The smaller of two values that are no NaN. -/
def FVal.min (a b : FVal) : FVal := if a.isNan || b.isNan then .nan else if b.ltTotal a then b else a

/-! ### Formats (R36, R37) -/

/-- A floating-point element format: exponent and mantissa widths, bias, and whether it has infinities and NaNs
(R36, R40). -/
structure FloatFmt where
  ebits : Nat
  mbits : Nat
  bias : Int
  hasInf : Bool
  hasNan : Bool
  deriving DecidableEq, Repr

def fp32 : FloatFmt := ⟨8, 23, 127, true, true⟩
def bf16 : FloatFmt := ⟨8, 7, 127, true, true⟩
def fp16 : FloatFmt := ⟨5, 10, 15, true, true⟩
def e4m3 : FloatFmt := ⟨4, 3, 7, false, true⟩
def e5m2 : FloatFmt := ⟨5, 2, 15, true, true⟩
def e3m2 : FloatFmt := ⟨3, 2, 3, false, false⟩
def e2m3 : FloatFmt := ⟨2, 3, 1, false, false⟩
def e2m1 : FloatFmt := ⟨2, 1, 1, false, false⟩
/-- binary64, which only the reduction unit uses (R127). -/
def fp64 : FloatFmt := ⟨11, 52, 1023, true, true⟩

/-- The element format of a format code: a float format, or an integer of some width with symmetric saturation. -/
inductive ElemFmt where
  | float (f : FloatFmt)
  | int (w : Nat)
  | husk
  deriving DecidableEq, Repr

/-- The element format of a code of R36 and R37; code 0xF names none (R38). -/
def elemFmt : Nat → Option ElemFmt
  | 0 => some (.float fp32)
  | 1 => some (.float bf16)
  | 2 => some (.float fp16)
  | 3 => some (.float e4m3)
  | 4 => some (.float e5m2)
  | 5 => some (.float e3m2)
  | 6 => some (.float e2m3)
  | 7 => some (.float e2m1)
  | 8 => some (.int 8)
  | 9 => some (.int 4)
  | 10 => some (.float e4m3)
  | 11 => some (.float e2m3)
  | 12 => some (.float e2m1)
  | 13 => some (.int 8)
  | 14 => some .husk
  | _ => none

/-- Bits of one element (R36, R37). -/
def elemBits : Nat → Nat
  | 0 => 32
  | 1 => 16
  | 2 => 16
  | 3 => 8
  | 4 => 8
  | 5 => 6
  | 6 => 6
  | 7 => 4
  | 8 => 8
  | 9 => 4
  | 10 => 8
  | 11 => 6
  | 12 => 4
  | 13 => 8
  | 14 => 6
  | _ => 0

/-- A block format (R37). -/
def isBlock (fmt : Nat) : Bool := decide (10 ≤ fmt) && decide (fmt ≤ 14)

/-- A plain integer format (R56). -/
def isPlainInt (fmt : Nat) : Bool := fmt == 8 || fmt == 9

/-- Elements of a block; 1 for a scalar format. -/
def blockElems (fmt : Nat) : Nat := if fmt = 14 then 64 else if isBlock fmt then 32 else 1

/-- Bytes of a block record (R37). -/
def blockBytes : Nat → Nat
  | 10 => 33
  | 11 => 25
  | 12 => 17
  | 13 => 33
  | 14 => 50
  | _ => 0

/-- Bytes that `count` elements take: packed bits for a scalar format (R8), whole records for a block format (R48). -/
def fmtBytes (fmt count : Nat) : Nat :=
  if isBlock fmt then ((count + blockElems fmt - 1) / blockElems fmt) * blockBytes fmt
  else (count * elemBits fmt + 7) / 8

/-! ### Decoding (R39-R43, R45-R51) -/

/-- The exponent of one unit of the smallest grid step: 1 - bias - mbits. -/
def FloatFmt.qmin (f : FloatFmt) : Int := 1 - f.bias - f.mbits

/-- Decode a floating-point element (R39, R40). -/
def FloatFmt.decode (f : FloatFmt) (x : Nat) : FVal :=
  let m := x % 2 ^ f.mbits
  let e := (x / 2 ^ f.mbits) % 2 ^ f.ebits
  let s := bitAt x (f.mbits + f.ebits)
  let top := 2 ^ f.ebits - 1
  if e = top && f.hasInf then (if m = 0 then .inf s else .nan)
  else if e = top && f.hasNan && m = 2 ^ f.mbits - 1 then .nan
  else if e = 0 then .fin s m f.qmin
  else .fin s (m + 2 ^ f.mbits) (f.qmin + (e : Int) - 1)

/-- Decode an element without its block scale. MXINT8's factor 2^-6 stands here (R47). -/
def decodeElem (fmt x : Nat) : FVal :=
  match elemFmt fmt with
  | some (.float f) => f.decode x
  | some (.int w) => FVal.ofInt (signedOf w x) (if fmt = 13 then -6 else 0)
  | some .husk => .fin (bitAt x 5) (x % 32) 0
  | none => .nan

/-- k(n) of R51 in eighths. -/
def huskK : Nat → Nat
  | 0 => 8
  | 1 => 6
  | 2 => 4
  | _ => 3

/-- Times 2^k. -/
def FVal.scale (k : Int) : FVal → FVal
  | .nan => .nan
  | .inf n => .inf n
  | .fin n m e => .fin n m (e + k)

/-- The number that `n` bytes of a record give from byte `off` (R7). -/
def recNat (rec : List Byte) (off n : Nat) : Nat := leNat ((rec.drop off).take n)

/-- Decode a block record into its elements (R45-R47, R51). -/
def decodeBlock (fmt : Nat) (rec : List Byte) : List FVal :=
  let x := recNat rec 0 1
  if fmt = 14 then
    let nud := recNat rec 1 1
    let es := unpack 6 64 (recNat rec 2 48)
    (es.zip (List.range 64)).map (fun p =>
      if x = 255 then .nan
      else .fin (bitAt p.1 5) (p.1 % 32 * huskK (bitsOf nud (2 * (p.2 / 16) + 1) (2 * (p.2 / 16)))) ((x : Int) - 134))
  else
    (unpack (elemBits fmt) 32 (recNat rec 1 (blockBytes fmt - 1))).map (fun b =>
      if x = 255 then .nan else (decodeElem fmt b).scale ((x : Int) - 127))

/-- Decode `count` elements of a storage format from packed bytes. -/
def decodeMany (fmt count : Nat) (bytes : List Byte) : List FVal :=
  if isBlock fmt then
    let nb := (count + blockElems fmt - 1) / blockElems fmt
    ((List.range nb).flatMap (fun k => decodeBlock fmt ((bytes.drop (k * blockBytes fmt)).take (blockBytes fmt)))).take count
  else (unpack (elemBits fmt) count (leNat bytes)).map (decodeElem fmt)

/-! ### Rounding (R60, R61, R66) -/

/-- Round num / den to an integer magnitude by a mode code of R60; `r` is the random word of R66. -/
def roundQuot (mode : Nat) (neg : Bool) (r num den : Nat) : Nat :=
  let n := num / den
  let rem := num % den
  let up :=
    match mode with
    | 0 => decide (2 * rem > den) || (decide (2 * rem = den) && n % 2 == 1)
    | 1 => false
    | 2 => neg && decide (rem ≠ 0)
    | 3 => !neg && decide (rem ≠ 0)
    | _ => decide (r < rem * 2 ^ 32 / den)
  if up then n + 1 else n

/-- Round m * 2^e to a multiple of 2^q. -/
def roundTo (mode : Nat) (neg : Bool) (r m : Nat) (e q : Int) : Nat :=
  if q ≤ e then m * 2 ^ (e - q).toNat else roundQuot mode neg r m (2 ^ (q - e).toNat)

/-- The largest finite magnitude of a float format as a count of units 2^q, with its q. -/
def FloatFmt.maxFin (f : FloatFmt) : Nat × Int :=
  let emax : Int := (2 ^ f.ebits - 1 : Nat) - (if f.hasInf then 1 else 0) - 1
  (2 ^ (f.mbits + 1) - 1 - (if f.hasNan && !f.hasInf then 1 else 0), f.qmin + emax)

/-- The encoding, without sign, of n units of 2^q on the format's grid. -/
def FloatFmt.encMag (f : FloatFmt) (n : Nat) (q : Int) : Nat := (q - f.qmin).toNat * 2 ^ f.mbits + n

/-- Encoding of the largest finite magnitude. -/
def FloatFmt.maxEnc (f : FloatFmt) : Nat := f.encMag f.maxFin.1 f.maxFin.2

def FloatFmt.signBit (f : FloatFmt) (neg : Bool) : Nat := if neg then 2 ^ (f.mbits + f.ebits) else 0

/-- The encoding of +Inf. -/
def FloatFmt.infEnc (f : FloatFmt) : Nat := (2 ^ f.ebits - 1) * 2 ^ f.mbits

/-- The NaN that the part produces (R40, R41); +0 for a format without NaN (R63). -/
def FloatFmt.nanEnc (f : FloatFmt) : Nat :=
  if f.hasInf then f.infEnc + 2 ^ (f.mbits - 1)
  else if f.hasNan then 2 ^ (f.mbits + f.ebits) - 1 else 0

/-- What a conversion of one element gives: the encoding, and whether a finite source overflowed and whether the
largest finite value was written for an overflow or an infinite source (R62, R70). -/
structure ElemConv where
  bits : Nat
  ovf : Bool
  sat : Bool
  deriving DecidableEq, Repr

/-- A finite overflow that R62's last paragraph sends to the largest finite value. -/
def towardZero (mode : Nat) (neg : Bool) : Bool := mode == 1 || (mode == 2 && !neg) || (mode == 3 && neg)

/-- The result of an overflow or an infinite source in a float format (R62). -/
def FloatFmt.overflow (f : FloatFmt) (satf neg : Bool) : ElemConv :=
  if satf || !f.hasNan then ⟨f.signBit neg + f.maxEnc, false, true⟩
  else if f.hasInf then ⟨f.signBit neg + f.infEnc, false, false⟩
  else ⟨f.nanEnc, false, false⟩

/-- Round a nonzero magnitude m * 2^e into a float format: none when the result lands on or above the extra point
of the extended grid (R61). -/
def FloatFmt.roundMag (f : FloatFmt) (mode : Nat) (neg : Bool) (r m : Nat) (e : Int) : Option Nat :=
  let mx := f.maxFin
  if !(magLt m e (mx.1 + 1) mx.2) then none
  else
    let l : Int := (Nat.log2 m : Int) + e
    let q := max (l - f.mbits) f.qmin
    let n := roundTo mode neg r m e q
    if magLt n q (mx.1 + 1) mx.2 then some (f.encMag n q) else none

/-- Convert an exact value into a float format (R61-R64). -/
def FloatFmt.conv (f : FloatFmt) (mode : Nat) (satf : Bool) (r : Nat) : FVal → ElemConv
  | .nan => ⟨f.nanEnc, false, false⟩
  | .inf n => f.overflow satf n
  | .fin n 0 _ => ⟨f.signBit n, false, false⟩
  | .fin n m e =>
    match f.roundMag mode n r m e with
    | some b => ⟨f.signBit n + b, false, false⟩
    | none => { f.overflow (satf || towardZero mode n) n with ovf := true }

/-- Convert an exact value into an integer of w bits with symmetric saturation (R43, R61, R62). -/
def convInt (w mode r : Nat) : FVal → ElemConv
  | .nan => ⟨0, false, false⟩
  | .inf n => ⟨wrapInt w (sgnInt n (2 ^ (w - 1) - 1)), false, true⟩
  | .fin n m e =>
    let top := 2 ^ (w - 1)
    let sat : ElemConv := ⟨wrapInt w (sgnInt n (top - 1)), true, true⟩
    if m = 0 then ⟨0, false, false⟩
    else if !(magLt m e top 0) then sat
    else
      let k := roundTo mode n r m e 0
      if k < top then ⟨wrapInt w (sgnInt n k), false, false⟩ else sat

/-- Convert an exact value into a scalar format code (R60-R64). -/
def convScalar (fmt mode : Nat) (satf : Bool) (r : Nat) (x : FVal) : ElemConv :=
  match elemFmt fmt with
  | some (.float f) => f.conv mode satf r x
  | some (.int w) => convInt w mode r x
  | _ => ⟨0, false, false⟩

/-- FP32 with round-to-nearest-even (R53, R117). -/
def toFp32 (x : FVal) : Nat := (fp32.conv 0 false 0 x).bits

/-- The value of an FP32 word. -/
def ofFp32 (x : Nat) : FVal := fp32.decode x

/-- binary64 with round-to-nearest-even. -/
def toFp64 (x : FVal) : Nat := (fp64.conv 0 false 0 x).bits

/-- A binary64 addition with round-to-nearest-even (R127, R128). -/
def addFp64 (a b : Word) : Word :=
  BitVec.ofNat 64 (toFp64 ((fp64.decode a.toNat).add false (fp64.decode b.toNat)))

/-- An FP32 addition with round-to-nearest-even (R53, R54). -/
def addFp32 (a b : Nat) : Nat := toFp32 ((ofFp32 a).add false (ofFp32 b))

/-- Beyond the FP32 range (R580). -/
def beyondFp32 : FVal → Bool
  | .fin _ m e => !(magLt m e (2 ^ 25 - 1) 103)
  | _ => false

/-! ### Blocks (R49, R52) -/

/-- What a conversion into a block gives: the record and, for each element, its own encoding and what R70 asks. -/
structure BlockConv where
  record : List Byte
  elems : List ElemConv
  nanBlock : Bool
  deriving DecidableEq, Repr

/-- The largest magnitude of a block's finite values as (m, e); (0, 0) when all are zero. -/
def amaxOf : List FVal → Nat × Int
  | [] => (0, 0)
  | x :: t =>
    let a := amaxOf t
    match x with
    | .fin _ m e => if magLt a.1 a.2 m e then (m, e) else a
    | _ => a

/-- E of R49. -/
def blockE : Nat → Int
  | 10 => 8
  | 11 => 2
  | 12 => 2
  | _ => 0

/-- The scale byte X of R49 for a block with no NaN and no infinity. -/
def blockScale (fmt : Nat) (xs : List FVal) : Nat :=
  let a := amaxOf xs
  if a.1 = 0 then 0 else (max 0 (min 254 ((Nat.log2 a.1 : Int) + a.2 - blockE fmt + 127))).toNat

/-- The nudge of a sub-block whose largest magnitude is (m, e), under scale byte X (R52). -/
def huskNudge (x m : Nat) (e : Int) : Nat :=
  let ok := fun n => magLt m e (63 * huskK n) ((x : Int) - 135)
  if ok 3 then 3 else if ok 2 then 2 else if ok 1 then 1 else 0

/-- A HUSK6 element on the integer grid 0 to 31 (R52). -/
def huskElem (mode r x n : Nat) : FVal → ElemConv
  | .fin neg m e =>
    let s := if neg then 32 else 0
    let a := alignMag m e (huskK n) ((x : Int) - 134)
    if a.1 ≥ 32 * a.2.1 then ⟨s + 31, true, true⟩
    else
      let k := roundQuot mode neg r a.1 a.2.1
      if k < 32 then ⟨s + k, false, false⟩ else ⟨s + 31, true, true⟩
  | _ => ⟨0, false, false⟩

/-- Convert one block's exact values into a block format; `rs` holds the elements' random words (R49, R52). The
element conversion always saturates. -/
def convBlock (fmt mode : Nat) (rs : List Nat) (xs : List FVal) : BlockConv :=
  let bad := xs.any (fun x => !x.finite)
  if bad then
    ⟨BitVec.ofNat 8 255 :: leBytes (blockBytes fmt - 1) 0, xs.map (fun _ => ⟨0, false, false⟩), true⟩
  else
    let x := blockScale fmt xs
    if fmt = 14 then
      let nuds := (List.range 4).map (fun j =>
        let a := amaxOf ((xs.drop (16 * j)).take 16)
        huskNudge x a.1 a.2)
      let es := (xs.zip (rs.zip (List.range 64))).map (fun p => huskElem mode p.2.1 x (nuds.getD (p.2.2 / 16) 0) p.1)
      ⟨BitVec.ofNat 8 x :: BitVec.ofNat 8 (packNat 2 nuds) :: leBytes 48 (packNat 6 (es.map (·.bits))), es, false⟩
    else
      let k : Int := 127 - (x : Int)
      let es := (xs.zip rs).map (fun p =>
        if fmt = 13 then convInt 8 mode p.2 (p.1.scale (k + 6)) else convScalar fmt mode true p.2 (p.1.scale k))
      ⟨BitVec.ofNat 8 x :: leBytes (blockBytes fmt - 1) (packNat (elemBits fmt) (es.map (·.bits))), es, false⟩

end Sys2Proof.Machine
end

