-- ==== Sys2Proof/Machine/Sha.lean ====
section
/-! DEFINITION. SHA-256 (R437, R552) and the CRCs of flits and headers (R332, R361). -/

namespace Sys2Proof.Machine

/-! ### SHA-256 (R437, R552)

The spec names the digest and does not print it. Its constants are worked out here from what defines them (the roots of
primes), not copied. -/

/-- The largest number below 2^b whose k-th power is at most x, found bit by bit. -/
def rootBits (k x : Nat) : Nat → Nat → Nat
  | 0, acc => acc
  | b + 1, acc => rootBits k x b (if (acc + 2 ^ b) ^ k ≤ x then acc + 2 ^ b else acc)

/-- The first 32 bits of the fraction of the k-th root of p. -/
def rootFraction (k p : Nat) : Nat := rootBits k (p * 2 ^ (32 * k)) 40 0 % 2 ^ 32

/-- The first 64 primes: those below 312, each without a divisor up to 17 but itself. -/
def shaPrimes : List Nat :=
  ((List.range 312).drop 2).filter (fun p => ((List.range 18).drop 2).all (fun d => p % d != 0 || p == d))

/-- Eight words start the digest, and one word goes into each of the 64 rounds. -/
def shaStart : List Nat := (shaPrimes.take 8).map (rootFraction 2)

def shaKeys : List Nat := shaPrimes.map (rootFraction 3)

def m32 (x : Nat) : Nat := x % 2 ^ 32

/-- A word turned right by each of some distances, the results added bit by bit without carry; `cut` is one more distance
by which it is shifted and not turned. -/
def shaMix (turns : List Nat) (cut : Option Nat) (x : Nat) : Nat :=
  turns.foldl (fun acc n => acc ^^^ (x * 2 ^ (32 - n) % 2 ^ 32 + x / 2 ^ n)) ((cut.map (fun n => x / 2 ^ n)).getD 0)

/-- The words of a block for the 64 rounds: the 16 of its bytes, and n more, each from the words 16, 15, 7 and 2 places before
it. `k` is the place of the oldest that still counts. -/
def shaStretch : Nat → Nat → List Nat → List Nat
  | 0, _, ws => ws
  | n + 1, k, ws =>
    let at' := fun d => ws.getD (k + d) 0
    shaStretch n (k + 1) (ws ++ [m32 (at' 0 + shaMix [7, 18] (some 3) (at' 1) + at' 9 + shaMix [17, 19] (some 10) (at' 14))])

/-- One round. The words are in two halves of four, newest first: each half takes a new first word, and loses its last. -/
def shaRound (x : List Nat × List Nat) (key : Nat) : List Nat × List Nat :=
  let lo := fun k => x.1.getD k 0
  let hi := fun k => x.2.getD k 0
  let pick := (hi 0 &&& hi 1) + (hi 2 - (hi 0 &&& hi 2))
  let vote := (lo 0 &&& (lo 1 ||| lo 2)) ||| (lo 1 &&& lo 2)
  let feed := hi 3 + shaMix [6, 11, 25] none (hi 0) + pick + key
  (m32 (feed + shaMix [2, 13, 22] none (lo 0) + vote) :: x.1.take 3, m32 (lo 3 + feed) :: x.2.take 3)

/-- The big-endian number of a byte list. -/
def beNat (l : List Byte) : Nat := l.foldl (fun a b => a * 256 + b.toNat) 0

/-- The n big-endian bytes of a number. -/
def beBytes (n x : Nat) : List Byte := (leBytes n x).reverse

/-- One 64-byte block. -/
def shaBlock (h : List Nat) (blk : List Byte) : List Nat :=
  let words := shaStretch 48 0 ((List.range 16).map (fun i => beNat ((blk.drop (4 * i)).take 4)))
  let r := (List.zipWith (· + ·) shaKeys words).foldl shaRound (h.take 4, h.drop 4)
  List.zipWith (fun a b => m32 (a + b)) h (r.1 ++ r.2)

/-- The padded message. -/
def shaPad (msg : List Byte) : List Byte :=
  let n := msg.length
  let z := (119 - n % 64) % 64
  msg ++ (0x80 : Byte) :: List.replicate z 0 ++ beBytes 8 (8 * n)

/-- SHA-256 of a message: 32 bytes. -/
def sha256 (msg : List Byte) : List Byte :=
  let p := shaPad msg
  let h := (List.range (p.length / 64)).foldl (fun h i => shaBlock h ((p.drop (64 * i)).take 64)) shaStart
  h.flatMap (beBytes 4)

/-! ### CRC, most significant bit first -/

/-- One bit of a CRC of width w with the given polynomial. -/
def crcBit (w poly acc : Nat) (b : Bool) : Nat :=
  let top := bitAt acc (w - 1) != b
  let sh := (acc * 2) % 2 ^ w
  if top then sh ^^^ poly else sh

/-- A CRC over bytes, each byte's most significant bit first. -/
def crcMsb (w poly init : Nat) (bytes : List Byte) : Nat :=
  bytes.foldl (fun a b => (List.range 8).foldl (fun a k => crcBit w poly a (b.getLsbD (7 - k))) a) init

/-- The CRC-8 of R325 over a list of bytes, from the most significant bit of the first. -/
def crc8 (bytes : List Byte) : Nat := crcMsb 8 0x07 0 bytes

/-- One byte of the reflected CRC-32 of IEEE 802.3. -/
def crc32Byte (acc : Nat) (b : Byte) : Nat :=
  (List.range 8).foldl (fun a _ => if a % 2 = 1 then (a / 2) ^^^ 0xEDB88320 else a / 2) (acc ^^^ b.toNat)

/-- The CRC-32 of IEEE 802.3 (R332). -/
def crc32 (bytes : List Byte) : Nat := (2 ^ 32 - 1) ^^^ bytes.foldl crc32Byte (2 ^ 32 - 1)

end Sys2Proof.Machine
end

