-- ==== Sys2Proof/Machine/Fields.lean ====
section
/-! DEFINITION. The names of the part's registers and of their fields, and the shapes of an entry of the
register table (R14, R16, R17, R20). The table itself, from the register tables of spec/, is in
Machine/RegTable.lean. -/

namespace Sys2Proof.Machine

/-- The access types of R20. -/
inductive Access where
  | RO | RW | WO | W1C | W1S | RWP
  deriving DecidableEq, Repr

/-- Where a register lies: PF BAR0 (R14), the window of a Tiller (R103), a context window (R272), or a ring slot
(R309), which is reached in PF BAR0 and in the owner's window. -/
inductive Space where
  | bar0 | til | ctx | ring
  deriving DecidableEq, Repr

/-- Every register the spec gives an offset. -/
inductive Reg where
  | TIL_MA_CTRL | TIL_MA_STATUS | TIL_MA_FRONT_STALL | TIL_VE_CTRL | TIL_VE_STATUS | TIL_VE_TQ_WAIT
  | TIL_VE_STAT_STALL | TIL_PARAM | TIL_PROG_CTRL | TIL_PROG_STATUS | TIL_PROG_IMAGE | TIL_CMD_COUNT
  | TIL_BRK_CTRL | TIL_BRK_CMD | TIL_BRK_TAG | TIL_WDOG | GLM_TIMEOUT_BASE | GLM_STATUS | GLM_ADMIN
  | GLM_ADMIN_VALUE | GLM_XLAT_INVAL | GLM_BAR_LEAD | GLM_BAR_CFG0 | GLM_BAR_CFG1 | GLM_BAR_STATUS
  | GLM_BAR_LAST | GLM_CTX_CFG | GLM_CTX_SIG_VALUE | GLM_CTX_SIG_ID | GLM_CTX_READ | GLM_CTX_VALUE
  | GLM_CTX_NOTIFY | GLM_CTX_NOTIFY_THRESH | HBM_CFG | HBM_STATUS | HBM_RETIRE | HBM_RETIRE_CLR | HBM_REPAIR
  | HBM_LOG_REGION | HBM_MIR_REGION | MIL_CFG | FAR_CFG | FAR_STATUS | CMD_CFG | CMD_DEVWIN | CTX_RING_BASE
  | CTX_RING_CFG | CTX_RING_HEAD | CTX_RING_CANCEL | CTX_CFG | CTX_PT_ROOT | CTX_CTRL | CTX_STATUS | CTX_EQ_CFG
  | CTX_CQ_CFG | CTX_EQ_POS | CTX_CQ_POS | CTX_TLB_INVAL | LNK_CFG | LNK_STATUS | LNK_PEER | LNK_CHFAIL_TX
  | LNK_CHFAIL_RX | LNK_CHFUSE_TX | LNK_CHFUSE_RX | LNK_MAP_TX | LNK_MAP_RX | LNK_CNT | LNK_CNT2 | LNK_GUEST
  | FAB_NODE | FAB_AXIS | FAB_ABSENT | FAB_CTRL | FAB_TIMER | FAB_POOL | FAB_FLOW_SEL | FAB_FLOW_DATA
  | FAB_FLOW_SEQ | FAB_CNT0 | FAB_CNT1 | COL_CFG | COL_CNT | COL_GRP_CFG0 | COL_GRP_CFG1 | COL_GRP_RES
  | COL_GRP_TALLY | COL_GRP_DISP | COL_GRP_STATUS | COL_MEMBER | MGT_DET_CTRL | MGT_DET_STATUS | MGT_DET_EVT
  | MGT_DET_FPRINT | MGT_DET_DUMAP_LO | MGT_DET_DUMAP_HI | SHF_SPARE | HBM_MIR_CTRL | HBM_MIR_STATUS
  | HBM_MIR_SRC | HBM_LOG_CTRL | HBM_LOG_STATUS | HBM_LOG_REPLAY | FAB_FLOW_TRIM | FAB_FLOW_SKIP | FAB_ALIAS
  | COL_GRP_PROXY | HLT_MARGIN_CFG | HLT_MARGIN_SHF | HLT_MARGIN_PORT | PWR_STATUS | PWR_CTRL | PWR_CFG
  | PWR_CLK_PLAN | PWR_CAP | PWR_STRETCH | PWR_DORMANT | PWR_WAKE_AT | PWR_LASER | PWR_MTIME | PWR_MTIME_SET
  | HLT_EOL | OBS_CAP | OBS_STATUS | OBS_SAMPLE | OBS_CMDREC | OBS_TRACE | OBS_TEL_RING | OBS_TRC_RING
  | OBS_TEL_POS | OBS_TRC_POS | OBS_EXPORT | OBS_CAPT_CTRL | OBS_CAPT_STEP | OBS_CAPT_BASE | OBS_CAPT_LEN
  | OBS_CAPT_STATUS | OBS_CAPT_COUNT | TIL_OBS_CYC | TIL_OBS_MAC | TIL_OBS_INST | TIL_OBS_CTRL | TIL_OBS_BANK
  | OBS_CTX_ANOM | MGT_PRESENCE | MGT_AUDIT_SEQ | MGT_AUDIT_STAT | MGT_FW | MGT_FW_VER | MGT_DEBUG | MGT_PEER
  | MGT_FENCED | SEC_KEYHASH | SEC_STATUS | SEC_ALLOW
  deriving DecidableEq, Repr

/-- Every named field of every register. -/
inductive Fld where
  | TIL_MA_CTRL_STALL_CLR | TIL_MA_CTRL_GANG | TIL_MA_CTRL_CMP | TIL_MA_STATUS_CMP_FAIL
  | TIL_MA_STATUS_PARITY_ERR | TIL_MA_STATUS_ACC_DUE | TIL_MA_STATUS_ACC_CE | TIL_MA_STATUS_GANG_REFUSED
  | TIL_MA_STATUS_BUSY | TIL_MA_FRONT_STALL_CYCLES | TIL_VE_CTRL_POISON_FAULT | TIL_VE_CTRL_STALL_CLR
  | TIL_VE_STATUS_POISON_IN | TIL_VE_STATUS_SHAPE_ERR | TIL_VE_STATUS_GATHER_BOUND | TIL_VE_STATUS_POISON_SEEN
  | TIL_VE_STATUS_BUSY | TIL_VE_TQ_WAIT_CYCLES | TIL_VE_STAT_STALL_CYCLES | TIL_PARAM_VALUE
  | TIL_PROG_CTRL_HALT | TIL_PROG_CTRL_STEP | TIL_PROG_CTRL_RESUME | TIL_PROG_STATUS_PC
  | TIL_PROG_STATUS_FAULT_CLASS | TIL_PROG_STATUS_INFLIGHT | TIL_PROG_STATUS_PWRITE_REFUSED
  | TIL_PROG_STATUS_STATE | TIL_PROG_IMAGE_IMAGE_ID | TIL_PROG_IMAGE_NINST | TIL_PROG_IMAGE_BASE16
  | TIL_CMD_COUNT_COUNT | TIL_BRK_CTRL_CTX | TIL_BRK_CTRL_ONCE | TIL_BRK_CTRL_CTX_ANY | TIL_BRK_CTRL_ON_TAG
  | TIL_BRK_CTRL_ON_CMD | TIL_BRK_CMD_COUNT | TIL_BRK_TAG_MASK | TIL_BRK_TAG_TAG | TIL_WDOG_LIMIT
  | GLM_TIMEOUT_BASE_UNIT_NS | GLM_STATUS_DROPPED | GLM_STATUS_ADMIN_CODE | GLM_STATUS_INVAL_BUSY
  | GLM_STATUS_ADMIN_BUSY | GLM_STATUS_ADMIN_ERR | GLM_ADMIN_OP | GLM_ADMIN_CTX | GLM_ADMIN_PID
  | GLM_ADMIN_VALUE_VALUE | GLM_XLAT_INVAL_CTX | GLM_XLAT_INVAL_ALL | GLM_XLAT_INVAL_VID
  | GLM_BAR_LEAD_ARR_TMO_US | GLM_BAR_LEAD_LEAD_NS | GLM_BAR_CFG0_ENABLE | GLM_BAR_CFG0_ROOT
  | GLM_BAR_CFG0_PARENT | GLM_BAR_CFG0_CHILDREN | GLM_BAR_CFG0_CTX | GLM_BAR_CFG0_ARRIVE | GLM_BAR_CFG0_RELEASE
  | GLM_BAR_CFG1_ARRIVE_STEP | GLM_BAR_STATUS_ROUND | GLM_BAR_STATUS_MISMATCH | GLM_BAR_STATUS_TIMEOUT
  | GLM_BAR_STATUS_LATE | GLM_BAR_STATUS_ARRIVED | GLM_BAR_LAST_MTIME | GLM_CTX_CFG_TBASE | GLM_CTX_CFG_TMULT
  | GLM_CTX_CFG_TCOUNT | GLM_CTX_SIG_VALUE_VALUE | GLM_CTX_SIG_ID_VID | GLM_CTX_READ_VID | GLM_CTX_VALUE_VALUE
  | GLM_CTX_NOTIFY_ARMED | GLM_CTX_NOTIFY_VID | GLM_CTX_NOTIFY_THRESH_THRESH | HBM_CFG_AUTO_SOFT
  | HBM_CFG_CE_THRESH | HBM_CFG_SCRUB_H | HBM_STATUS_FENCED | HBM_STATUS_UE_SEEN | HBM_STATUS_CE_SEEN
  | HBM_STATUS_REGION_ERR | HBM_STATUS_RETIRED | HBM_RETIRE_PAGE | HBM_RETIRE_CLR_CLEAR | HBM_REPAIR_GO_HARD
  | HBM_REPAIR_GO_SOFT | HBM_REPAIR_BUSY | HBM_REPAIR_FAIL | HBM_REPAIR_STACK | HBM_REPAIR_CHANNEL
  | HBM_REPAIR_PC | HBM_REPAIR_BANK | HBM_REPAIR_ROW | HBM_REPAIR_LEFT | HBM_LOG_REGION_ENABLE
  | HBM_MIR_REGION_ENABLE | HBM_LOG_REGION_BASE_PG | HBM_MIR_REGION_BASE_PG | HBM_LOG_REGION_SIZE_PG
  | HBM_MIR_REGION_SIZE_PG | MIL_CFG_CAP | FAR_CFG_WAYS | FAR_CFG_BIFUR | FAR_STATUS_CAP_GIB | FAR_STATUS_RATE
  | FAR_STATUS_POISON_SEEN | FAR_STATUS_LINK_DOWN | CMD_CFG_CXL | CMD_CFG_MIRROR | CMD_CFG_IRQ_NS
  | CMD_CFG_POLL_NS | CMD_DEVWIN_EN | CMD_DEVWIN_LIMIT_2M | CMD_DEVWIN_BASE_2M | CTX_RING_BASE_ENABLE
  | CTX_RING_BASE_RESUME | CTX_RING_BASE_SIZE | CTX_RING_BASE_DBMODE | CTX_RING_BASE_BASE | CTX_RING_CFG_STATE
  | CTX_RING_CFG_CTX | CTX_RING_CFG_HOME | CTX_RING_CFG_DB_ADDR | CTX_RING_HEAD_HEAD | CTX_RING_CANCEL_UPTO
  | CTX_CFG_ENABLE | CTX_CFG_EPOCH | CTX_PT_ROOT_ROOT | CTX_CTRL_RESET | CTX_CTRL_RESUME | CTX_STATUS_EPOCH
  | CTX_STATUS_FROZEN | CTX_STATUS_STATE | CTX_EQ_CFG_ENABLE | CTX_CQ_CFG_ENABLE | CTX_EQ_CFG_SIZE
  | CTX_CQ_CFG_SIZE | CTX_EQ_CFG_LOST | CTX_CQ_CFG_LOST | CTX_EQ_CFG_BASE | CTX_CQ_CFG_BASE | CTX_EQ_POS_PROD
  | CTX_CQ_POS_PROD | CTX_EQ_POS_CONS | CTX_CQ_POS_CONS | CTX_TLB_INVAL_BUSY | CTX_TLB_INVAL_ALL
  | CTX_TLB_INVAL_CVA | LNK_CFG_ENABLE | LNK_CFG_AUTO_RETRAIN | LNK_CFG_RETRAIN | LNK_CFG_PAUSE_GO
  | LNK_CFG_PAUSE_10NS | LNK_CFG_PAUSE_MAX_US | LNK_CFG_CTL_WAIT_NS | LNK_CFG_MIN_CH | LNK_STATUS_STATE
  | LNK_STATUS_NACT_TX | LNK_STATUS_NACT_RX | LNK_STATUS_GEN_TX | LNK_STATUS_GEN_RX | LNK_STATUS_PAUSED
  | LNK_STATUS_DOWN_EVT | LNK_STATUS_IDENT_ERR | LNK_STATUS_BYPASS_CHG | LNK_STATUS_SPARE_USED
  | LNK_STATUS_CH_REMOVED | LNK_STATUS_PAUSE_LONG | LNK_PEER_BOOT | LNK_PEER_BYPASS | LNK_PEER_TXPORT
  | LNK_PEER_NODE_ID | LNK_CHFAIL_TX_FAILED | LNK_CHFAIL_RX_FAILED | LNK_CHFUSE_TX_FUSE | LNK_CHFUSE_RX_FUSE
  | LNK_CHFUSE_TX_FUSED | LNK_CHFUSE_RX_FUSED | LNK_MAP_TX_VALID0 | LNK_MAP_TX_VALID1 | LNK_MAP_TX_VALID2
  | LNK_MAP_TX_VALID3 | LNK_MAP_TX_VALID4 | LNK_MAP_TX_VALID5 | LNK_MAP_TX_VALID6 | LNK_MAP_TX_VALID7
  | LNK_MAP_RX_VALID0 | LNK_MAP_RX_VALID1 | LNK_MAP_RX_VALID2 | LNK_MAP_RX_VALID3 | LNK_MAP_RX_VALID4
  | LNK_MAP_RX_VALID5 | LNK_MAP_RX_VALID6 | LNK_MAP_RX_VALID7 | LNK_MAP_TX_LAMBDA0 | LNK_MAP_TX_LAMBDA1
  | LNK_MAP_TX_LAMBDA2 | LNK_MAP_TX_LAMBDA3 | LNK_MAP_TX_LAMBDA4 | LNK_MAP_TX_LAMBDA5 | LNK_MAP_TX_LAMBDA6
  | LNK_MAP_TX_LAMBDA7 | LNK_MAP_RX_LAMBDA0 | LNK_MAP_RX_LAMBDA1 | LNK_MAP_RX_LAMBDA2 | LNK_MAP_RX_LAMBDA3
  | LNK_MAP_RX_LAMBDA4 | LNK_MAP_RX_LAMBDA5 | LNK_MAP_RX_LAMBDA6 | LNK_MAP_RX_LAMBDA7 | LNK_MAP_TX_FIBRE0
  | LNK_MAP_TX_FIBRE1 | LNK_MAP_TX_FIBRE2 | LNK_MAP_TX_FIBRE3 | LNK_MAP_TX_FIBRE4 | LNK_MAP_TX_FIBRE5
  | LNK_MAP_TX_FIBRE6 | LNK_MAP_TX_FIBRE7 | LNK_MAP_RX_FIBRE0 | LNK_MAP_RX_FIBRE1 | LNK_MAP_RX_FIBRE2
  | LNK_MAP_RX_FIBRE3 | LNK_MAP_RX_FIBRE4 | LNK_MAP_RX_FIBRE5 | LNK_MAP_RX_FIBRE6 | LNK_MAP_RX_FIBRE7
  | LNK_CNT_UNCORR | LNK_CNT_CORR_SYM | LNK_CNT2_REPLAYS | LNK_CNT2_REMAPS | LNK_GUEST_VENDOR
  | LNK_GUEST_DEVICE | LNK_GUEST_FW | LNK_GUEST_MOD_OK | LNK_GUEST_RATE | LNK_GUEST_ADMIT | LNK_GUEST_ADMITTED
  | FAB_NODE_PART | FAB_NODE_NODE_ID | FAB_AXIS_LINE | FAB_AXIS_AUTO | FAB_AXIS_BREAK | FAB_AXIS_DATELINE
  | FAB_AXIS_LEN_M1 | FAB_ABSENT_ABSENT | FAB_CTRL_INJ_HOLD | FAB_CTRL_DRAINED | FAB_CTRL_RT_REFUSED
  | FAB_CTRL_STRICT | FAB_CTRL_FENCE | FAB_CTRL_AGE_NS | FAB_CTRL_ESC_WAIT_NS | FAB_TIMER_GAP_US
  | FAB_TIMER_RTO_US | FAB_TIMER_RETRY_MAX | FAB_TIMER_ACK_US | FAB_POOL_REORD_MIB | FAB_POOL_RETAIN_MIB
  | FAB_FLOW_SEL_GO | FAB_FLOW_SEL_DIR | FAB_FLOW_SEL_OP | FAB_FLOW_SEL_BUSY | FAB_FLOW_SEL_REFUSED
  | FAB_FLOW_SEL_FLOW | FAB_FLOW_DATA_PEER_FLOW | FAB_FLOW_DATA_WIN_M1 | FAB_FLOW_DATA_CTX | FAB_FLOW_DATA_TILE
  | FAB_FLOW_DATA_PEER_NODE | FAB_FLOW_SEQ_NEXT | FAB_FLOW_SEQ_MARK | FAB_CNT0_RESENDS | FAB_CNT0_DUPS
  | FAB_CNT1_STRANDED | FAB_CNT1_DROPS | COL_CFG_POOL_MIB | COL_CNT_RESIDUE | COL_CNT_DROPS | COL_GRP_CFG0_ARM
  | COL_GRP_CFG0_OP | COL_GRP_CFG0_EXACT | COL_GRP_CFG0_AXIS | COL_GRP_CFG0_NRANK_M1 | COL_GRP_CFG0_CTX
  | COL_GRP_CFG0_DONE_VID | COL_GRP_CFG1_CHUNKS | COL_GRP_CFG1_FLOW_P | COL_GRP_CFG1_FLOW_M
  | COL_GRP_RES_RES_ADDR | COL_GRP_TALLY_TALLY_ADDR | COL_GRP_DISP_CAP | COL_GRP_DISP_ROW32
  | COL_GRP_STATUS_ROUND | COL_GRP_STATUS_LINE_PLAN | COL_GRP_STATUS_RESIDUE | COL_GRP_STATUS_FAILED
  | COL_GRP_STATUS_DROP | COL_GRP_STATUS_PUSH_ERR | COL_GRP_STATUS_REFUSED | COL_GRP_STATUS_BUSY
  | COL_MEMBER_NODE_ID | MGT_DET_CTRL_EVT_CLR | MGT_DET_CTRL_PORTABLE | MGT_DET_CTRL_STRICT
  | MGT_DET_STATUS_MIXED | MGT_DET_STATUS_REFUSED | MGT_DET_STATUS_STRETCH_SEEN | MGT_DET_STATUS_DUMAP_CHG
  | MGT_DET_STATUS_PORTABLE_HELD | MGT_DET_STATUS_STRICT_HELD | MGT_DET_EVT_STRETCHES | MGT_DET_EVT_HOLDS
  | MGT_DET_EVT_DUMAP_CHANGES | MGT_DET_EVT_PORT_CHANGES | MGT_DET_FPRINT_FPRINT | MGT_DET_DUMAP_LO_PT_LO
  | MGT_DET_DUMAP_HI_FENCED | MGT_DET_DUMAP_HI_PT_HI | SHF_SPARE_MAP | SHF_SPARE_FUSE | SHF_SPARE_RENUMBER
  | SHF_SPARE_FENCE | SHF_SPARE_BUSY | SHF_SPARE_N | SHF_SPARE_SPARES_LEFT | SHF_SPARE_ENABLED_M1
  | HBM_MIR_CTRL_ENABLE | HBM_MIR_CTRL_FLOW | HBM_MIR_CTRL_CTX | HBM_MIR_CTRL_SYNC_VID | HBM_MIR_CTRL_DONE_VID
  | HBM_MIR_STATUS_GEN | HBM_MIR_STATUS_DISCARD | HBM_MIR_STATUS_BUSY | HBM_MIR_SRC_EN | HBM_MIR_SRC_BASE_PG
  | HBM_MIR_SRC_SIZE_PG | HBM_LOG_CTRL_ENABLE | HBM_LOG_CTRL_SLOT | HBM_LOG_CTRL_CTX | HBM_LOG_STATUS_RECORDS
  | HBM_LOG_STATUS_OVF | HBM_LOG_REPLAY_GO | HBM_LOG_REPLAY_BUSY | HBM_LOG_REPLAY_FAIL | HBM_LOG_REPLAY_FLOW
  | FAB_FLOW_TRIM_GO | FAB_FLOW_TRIM_BUSY | FAB_FLOW_TRIM_FLOW | FAB_FLOW_TRIM_SIGS | FAB_FLOW_SKIP_GO
  | FAB_FLOW_SKIP_FLOW | FAB_FLOW_SKIP_SKIP | FAB_ALIAS_EN | FAB_ALIAS_TO_NODE | FAB_ALIAS_FROM_NODE
  | COL_GRP_PROXY_EN | COL_GRP_PROXY_ROUND_SET | COL_GRP_PROXY_PROXY_NODE | HLT_MARGIN_CFG_EN
  | HLT_MARGIN_CFG_PERIOD_S | HLT_MARGIN_SHF_V_MV | HLT_MARGIN_SHF_T_PS | HLT_MARGIN_SHF_T_TILLER
  | HLT_MARGIN_SHF_LIMIT | HLT_MARGIN_SHF_WARN | HLT_MARGIN_PORT_O_DB10 | HLT_MARGIN_PORT_O_CH
  | HLT_MARGIN_PORT_LIMIT | HLT_MARGIN_PORT_WARN | PWR_STATUS_POWER_W | PWR_STATUS_VIN | PWR_STATUS_TJ_MAX
  | PWR_STATUS_THERM | PWR_STATUS_STATE | PWR_STATUS_START_STEP | PWR_STATUS_HOLDOVER | PWR_STATUS_AUX_ON_MAIN
  | PWR_STATUS_CLAMPED | PWR_STATUS_HOLD_SEEN | PWR_STATUS_MAIN_GOOD | PWR_STATUS_READY | PWR_CTRL_MAIN_ON
  | PWR_CTRL_OFF | PWR_CTRL_RESET | PWR_CFG_AUTO_ON | PWR_CFG_VLOOP_EN | PWR_CFG_HOLD_MAX_MS
  | PWR_CFG_V_TARGET_MV | PWR_CLK_PLAN_FREQ_REQ_MHZ | PWR_CLK_PLAN_FREQ_NOW_MHZ | PWR_CLK_PLAN_FMAX_MHZ
  | PWR_CAP_CAP_W | PWR_CAP_EXCURSIONS | PWR_STRETCH_EN | PWR_STRETCH_SLOT | PWR_STRETCH_LEAD_US
  | PWR_STRETCH_LAST | PWR_STRETCH_REQ | PWR_DORMANT_ENTER | PWR_DORMANT_WAKE | PWR_DORMANT_REFUSED
  | PWR_DORMANT_CAUSE | PWR_WAKE_AT_MTIME | PWR_LASER_APPLIED | PWR_LASER_TARGET_DB10 | PWR_MTIME_MTIME
  | PWR_MTIME_SET_VALUE | HLT_EOL_MONTHS | HLT_EOL_KIND | HLT_EOL_UNIT | HLT_EOL_WARN_MONTHS | HLT_EOL_WARN
  | OBS_CAP_HBM_GBPS | OBS_CAP_LINK_MBPS | OBS_STATUS_TEL_LOST | OBS_STATUS_TRC_LOST | OBS_STATUS_REMOTE_ERR
  | OBS_STATUS_CAP_LINK | OBS_STATUS_CAP_HBM | OBS_SAMPLE_EN | OBS_SAMPLE_SOURCES | OBS_SAMPLE_PERIOD_NS
  | OBS_CMDREC_EN | OBS_CMDREC_ALL_CTX | OBS_CMDREC_CTX | OBS_TRACE_EN | OBS_TRACE_ALL_CTX | OBS_TRACE_SHIFT
  | OBS_TRACE_CTX | OBS_TRACE_KINDS | OBS_TEL_RING_ENABLE | OBS_TRC_RING_ENABLE | OBS_TEL_RING_WRAP
  | OBS_TRC_RING_WRAP | OBS_TEL_RING_REMOTE | OBS_TRC_RING_REMOTE | OBS_TEL_RING_SIZE | OBS_TRC_RING_SIZE
  | OBS_TEL_RING_BASE | OBS_TRC_RING_BASE | OBS_TEL_POS_PROD | OBS_TRC_POS_PROD | OBS_TEL_POS_CONS
  | OBS_TRC_POS_CONS | OBS_EXPORT_TEL_FLOW | OBS_EXPORT_TRC_FLOW | OBS_CAPT_CTRL_ARM | OBS_CAPT_CTRL_SALT_EN
  | OBS_CAPT_CTRL_CTX | OBS_CAPT_CTRL_SALT | OBS_CAPT_CTRL_TENSOR_ID | OBS_CAPT_STEP_STEP | OBS_CAPT_BASE_BASE
  | OBS_CAPT_LEN_LEN | OBS_CAPT_STATUS_MATCHES | OBS_CAPT_STATUS_FMT | OBS_CAPT_STATUS_FMT_MISMATCH
  | OBS_CAPT_STATUS_ALIGN | OBS_CAPT_STATUS_OVER | OBS_CAPT_STATUS_ACTIVE | OBS_CAPT_COUNT_ELEMENTS
  | TIL_OBS_CYC_CYCLES | TIL_OBS_MAC_MACS | TIL_OBS_INST_INSTR | TIL_OBS_CTRL_CLR | TIL_OBS_BANK_CYCLES
  | OBS_CTX_ANOM_COUNT | MGT_PRESENCE_OPEN | MGT_PRESENCE_REMAIN_S | MGT_AUDIT_SEQ_NEXT | MGT_AUDIT_STAT_LOST
  | MGT_AUDIT_STAT_UNFLUSHED | MGT_AUDIT_STAT_MTIME_UNSET | MGT_AUDIT_STAT_WRAP | MGT_AUDIT_STAT_CLEAR
  | MGT_FW_ACTIVATE | MGT_FW_CONFIRM | MGT_FW_TRIAL | MGT_FW_SLOT | MGT_FW_STAGE | MGT_FW_RUN_VER
  | MGT_FW_VER_RAISE | MGT_FW_VER_STAGED_VER | MGT_FW_VER_MIN_VER | MGT_DEBUG_UNLOCK | MGT_DEBUG_LOCK
  | MGT_DEBUG_UNLOCKED | MGT_PEER_GO | MGT_PEER_BUSY | MGT_PEER_RESULT | MGT_PEER_NODE | MGT_FENCED_SHEAF
  | MGT_FENCED_STACK | MGT_FENCED_PORT | MGT_FENCED_EVT | SEC_KEYHASH_HASH | SEC_STATUS_ALLOW_COUNT
  | SEC_STATUS_ALLOW_LOADED | SEC_STATUS_KEY_FUSED | SEC_ALLOW_VENDOR | SEC_ALLOW_DEVICE | SEC_ALLOW_MIN_FW
  | SEC_ALLOW_VALID
  deriving DecidableEq, Repr

/-- Placement of a register: `base + stride1 * i + stride2 * j` in its space, `i < count1`, `j < count2`; the
flat index of the pair is `i * count2 + j`. In a Tiller's or a context's window the unit comes first: the flat
index is `unit * count1 + i`. -/
structure RegInfo where
  reg : Reg
  space : Space
  base : Nat
  stride1 : Nat
  count1 : Nat
  stride2 : Nat
  count2 : Nat
  deriving DecidableEq, Repr

/-- One row of a register table: the register, the bits [hi:lo], the access type and the reset value. -/
structure FldInfo where
  reg : Reg
  hi : Nat
  lo : Nat
  access : Access
  reset : Nat
  deriving DecidableEq, Repr

end Sys2Proof.Machine
end

