-- ==== Sys2Proof/Machine/RegTable.lean ====
section
/-! DEFINITION. The register table, row by row from the register tables of spec/ (R104-R106, R133-R136, R178-R186,
R217-R230, R263-R269, R307-R313, R352-R358, R383-R390, R417-R424, R445-R449, R476-R481, R510-R519, R539-R544,
R562, R563). A field named '-' in the spec is reserved (R19) and has no row. Where the spec gives no reset value
('Fused', 'Read from the stack' or a dash) the value is the model's: notes/assumptions/3.md. -/

namespace Sys2Proof.Machine

/-- The field's row: register, bits, access type, reset value. -/
def Fld.info : Fld → FldInfo
  | .TIL_MA_CTRL_STALL_CLR => ⟨.TIL_MA_CTRL, 8, 8, .WO, 0⟩
  | .TIL_MA_CTRL_GANG => ⟨.TIL_MA_CTRL, 5, 4, .RW, 0⟩
  | .TIL_MA_CTRL_CMP => ⟨.TIL_MA_CTRL, 3, 3, .RW, 0⟩
  | .TIL_MA_STATUS_CMP_FAIL => ⟨.TIL_MA_STATUS, 31, 28, .W1C, 0⟩
  | .TIL_MA_STATUS_PARITY_ERR => ⟨.TIL_MA_STATUS, 27, 24, .W1C, 0⟩
  | .TIL_MA_STATUS_ACC_DUE => ⟨.TIL_MA_STATUS, 23, 20, .W1C, 0⟩
  | .TIL_MA_STATUS_ACC_CE => ⟨.TIL_MA_STATUS, 15, 8, .RO, 0⟩
  | .TIL_MA_STATUS_GANG_REFUSED => ⟨.TIL_MA_STATUS, 7, 7, .W1C, 0⟩
  | .TIL_MA_STATUS_BUSY => ⟨.TIL_MA_STATUS, 3, 0, .RO, 0⟩
  | .TIL_MA_FRONT_STALL_CYCLES => ⟨.TIL_MA_FRONT_STALL, 63, 0, .RO, 0⟩
  | .TIL_VE_CTRL_POISON_FAULT => ⟨.TIL_VE_CTRL, 1, 1, .RW, 0⟩
  | .TIL_VE_CTRL_STALL_CLR => ⟨.TIL_VE_CTRL, 0, 0, .WO, 0⟩
  | .TIL_VE_STATUS_POISON_IN => ⟨.TIL_VE_STATUS, 47, 32, .RO, 0⟩
  | .TIL_VE_STATUS_SHAPE_ERR => ⟨.TIL_VE_STATUS, 3, 3, .W1C, 0⟩
  | .TIL_VE_STATUS_GATHER_BOUND => ⟨.TIL_VE_STATUS, 2, 2, .W1C, 0⟩
  | .TIL_VE_STATUS_POISON_SEEN => ⟨.TIL_VE_STATUS, 1, 1, .W1C, 0⟩
  | .TIL_VE_STATUS_BUSY => ⟨.TIL_VE_STATUS, 0, 0, .RO, 0⟩
  | .TIL_VE_TQ_WAIT_CYCLES => ⟨.TIL_VE_TQ_WAIT, 63, 0, .RO, 0⟩
  | .TIL_VE_STAT_STALL_CYCLES => ⟨.TIL_VE_STAT_STALL, 63, 0, .RO, 0⟩
  | .TIL_PARAM_VALUE => ⟨.TIL_PARAM, 63, 0, .RW, 0⟩
  | .TIL_PROG_CTRL_HALT => ⟨.TIL_PROG_CTRL, 2, 2, .WO, 0⟩
  | .TIL_PROG_CTRL_STEP => ⟨.TIL_PROG_CTRL, 1, 1, .WO, 0⟩
  | .TIL_PROG_CTRL_RESUME => ⟨.TIL_PROG_CTRL, 0, 0, .WO, 0⟩
  | .TIL_PROG_STATUS_PC => ⟨.TIL_PROG_STATUS, 63, 48, .RO, 0⟩
  | .TIL_PROG_STATUS_FAULT_CLASS => ⟨.TIL_PROG_STATUS, 47, 40, .RO, 0⟩
  | .TIL_PROG_STATUS_INFLIGHT => ⟨.TIL_PROG_STATUS, 39, 32, .RO, 0⟩
  | .TIL_PROG_STATUS_PWRITE_REFUSED => ⟨.TIL_PROG_STATUS, 4, 4, .W1C, 0⟩
  | .TIL_PROG_STATUS_STATE => ⟨.TIL_PROG_STATUS, 2, 0, .RO, 0⟩
  | .TIL_PROG_IMAGE_IMAGE_ID => ⟨.TIL_PROG_IMAGE, 63, 32, .RO, 0⟩
  | .TIL_PROG_IMAGE_NINST => ⟨.TIL_PROG_IMAGE, 31, 17, .RO, 0⟩
  | .TIL_PROG_IMAGE_BASE16 => ⟨.TIL_PROG_IMAGE, 16, 0, .RO, 0⟩
  | .TIL_CMD_COUNT_COUNT => ⟨.TIL_CMD_COUNT, 63, 0, .RO, 0⟩
  | .TIL_BRK_CTRL_CTX => ⟨.TIL_BRK_CTRL, 63, 48, .RW, 0⟩
  | .TIL_BRK_CTRL_ONCE => ⟨.TIL_BRK_CTRL, 3, 3, .RW, 0⟩
  | .TIL_BRK_CTRL_CTX_ANY => ⟨.TIL_BRK_CTRL, 2, 2, .RW, 0⟩
  | .TIL_BRK_CTRL_ON_TAG => ⟨.TIL_BRK_CTRL, 1, 1, .RW, 0⟩
  | .TIL_BRK_CTRL_ON_CMD => ⟨.TIL_BRK_CTRL, 0, 0, .RW, 0⟩
  | .TIL_BRK_CMD_COUNT => ⟨.TIL_BRK_CMD, 63, 0, .RW, 0⟩
  | .TIL_BRK_TAG_MASK => ⟨.TIL_BRK_TAG, 63, 32, .RW, 0⟩
  | .TIL_BRK_TAG_TAG => ⟨.TIL_BRK_TAG, 31, 0, .RW, 0⟩
  | .TIL_WDOG_LIMIT => ⟨.TIL_WDOG, 31, 0, .RW, 0x4000⟩
  | .GLM_TIMEOUT_BASE_UNIT_NS => ⟨.GLM_TIMEOUT_BASE, 31, 0, .RW, 0xf4240⟩
  | .GLM_STATUS_DROPPED => ⟨.GLM_STATUS, 63, 32, .RO, 0⟩
  | .GLM_STATUS_ADMIN_CODE => ⟨.GLM_STATUS, 7, 4, .RO, 0⟩
  | .GLM_STATUS_INVAL_BUSY => ⟨.GLM_STATUS, 2, 2, .RO, 0⟩
  | .GLM_STATUS_ADMIN_BUSY => ⟨.GLM_STATUS, 1, 1, .RO, 0⟩
  | .GLM_STATUS_ADMIN_ERR => ⟨.GLM_STATUS, 0, 0, .W1C, 0⟩
  | .GLM_ADMIN_OP => ⟨.GLM_ADMIN, 63, 60, .WO, 0⟩
  | .GLM_ADMIN_CTX => ⟨.GLM_ADMIN, 43, 32, .WO, 0⟩
  | .GLM_ADMIN_PID => ⟨.GLM_ADMIN, 15, 0, .WO, 0⟩
  | .GLM_ADMIN_VALUE_VALUE => ⟨.GLM_ADMIN_VALUE, 63, 0, .RW, 0⟩
  | .GLM_XLAT_INVAL_CTX => ⟨.GLM_XLAT_INVAL, 43, 32, .WO, 0⟩
  | .GLM_XLAT_INVAL_ALL => ⟨.GLM_XLAT_INVAL, 16, 16, .WO, 0⟩
  | .GLM_XLAT_INVAL_VID => ⟨.GLM_XLAT_INVAL, 15, 0, .WO, 0⟩
  | .GLM_BAR_LEAD_ARR_TMO_US => ⟨.GLM_BAR_LEAD, 63, 32, .RW, 0x1c9c380⟩
  | .GLM_BAR_LEAD_LEAD_NS => ⟨.GLM_BAR_LEAD, 31, 0, .RW, 0x4e20⟩
  | .GLM_BAR_CFG0_ENABLE => ⟨.GLM_BAR_CFG0, 63, 63, .RW, 0⟩
  | .GLM_BAR_CFG0_ROOT => ⟨.GLM_BAR_CFG0, 62, 62, .RW, 0⟩
  | .GLM_BAR_CFG0_PARENT => ⟨.GLM_BAR_CFG0, 61, 59, .RW, 0⟩
  | .GLM_BAR_CFG0_CHILDREN => ⟨.GLM_BAR_CFG0, 55, 48, .RW, 0⟩
  | .GLM_BAR_CFG0_CTX => ⟨.GLM_BAR_CFG0, 43, 32, .RW, 0⟩
  | .GLM_BAR_CFG0_ARRIVE => ⟨.GLM_BAR_CFG0, 31, 16, .RW, 0⟩
  | .GLM_BAR_CFG0_RELEASE => ⟨.GLM_BAR_CFG0, 15, 0, .RW, 0⟩
  | .GLM_BAR_CFG1_ARRIVE_STEP => ⟨.GLM_BAR_CFG1, 31, 0, .RW, 0⟩
  | .GLM_BAR_STATUS_ROUND => ⟨.GLM_BAR_STATUS, 63, 32, .RO, 0⟩
  | .GLM_BAR_STATUS_MISMATCH => ⟨.GLM_BAR_STATUS, 3, 3, .W1C, 0⟩
  | .GLM_BAR_STATUS_TIMEOUT => ⟨.GLM_BAR_STATUS, 2, 2, .W1C, 0⟩
  | .GLM_BAR_STATUS_LATE => ⟨.GLM_BAR_STATUS, 1, 1, .W1C, 0⟩
  | .GLM_BAR_STATUS_ARRIVED => ⟨.GLM_BAR_STATUS, 0, 0, .RO, 0⟩
  | .GLM_BAR_LAST_MTIME => ⟨.GLM_BAR_LAST, 63, 0, .RO, 0⟩
  | .GLM_CTX_CFG_TBASE => ⟨.GLM_CTX_CFG, 63, 36, .RW, 0⟩
  | .GLM_CTX_CFG_TMULT => ⟨.GLM_CTX_CFG, 35, 20, .RW, 0x7530⟩
  | .GLM_CTX_CFG_TCOUNT => ⟨.GLM_CTX_CFG, 19, 3, .RW, 0⟩
  | .GLM_CTX_SIG_VALUE_VALUE => ⟨.GLM_CTX_SIG_VALUE, 63, 0, .RW, 0⟩
  | .GLM_CTX_SIG_ID_VID => ⟨.GLM_CTX_SIG_ID, 15, 0, .WO, 0⟩
  | .GLM_CTX_READ_VID => ⟨.GLM_CTX_READ, 15, 0, .RW, 0⟩
  | .GLM_CTX_VALUE_VALUE => ⟨.GLM_CTX_VALUE, 63, 0, .RO, 0⟩
  | .GLM_CTX_NOTIFY_ARMED => ⟨.GLM_CTX_NOTIFY, 16, 16, .RW, 0⟩
  | .GLM_CTX_NOTIFY_VID => ⟨.GLM_CTX_NOTIFY, 15, 0, .RW, 0⟩
  | .GLM_CTX_NOTIFY_THRESH_THRESH => ⟨.GLM_CTX_NOTIFY_THRESH, 63, 0, .RW, 0⟩
  | .HBM_CFG_AUTO_SOFT => ⟨.HBM_CFG, 32, 32, .RW, 1⟩
  | .HBM_CFG_CE_THRESH => ⟨.HBM_CFG, 31, 24, .RW, 0x10⟩
  | .HBM_CFG_SCRUB_H => ⟨.HBM_CFG, 15, 0, .RW, 0x18⟩
  | .HBM_STATUS_FENCED => ⟨.HBM_STATUS, 51, 40, .RO, 0⟩
  | .HBM_STATUS_UE_SEEN => ⟨.HBM_STATUS, 39, 28, .W1C, 0⟩
  | .HBM_STATUS_CE_SEEN => ⟨.HBM_STATUS, 27, 16, .W1C, 0⟩
  | .HBM_STATUS_REGION_ERR => ⟨.HBM_STATUS, 10, 10, .W1C, 0⟩
  | .HBM_STATUS_RETIRED => ⟨.HBM_STATUS, 9, 0, .RO, 0⟩
  | .HBM_RETIRE_PAGE => ⟨.HBM_RETIRE, 18, 0, .WO, 0⟩
  | .HBM_RETIRE_CLR_CLEAR => ⟨.HBM_RETIRE_CLR, 0, 0, .RWP, 0⟩
  | .HBM_REPAIR_GO_HARD => ⟨.HBM_REPAIR, 63, 63, .RWP, 0⟩
  | .HBM_REPAIR_GO_SOFT => ⟨.HBM_REPAIR, 62, 62, .WO, 0⟩
  | .HBM_REPAIR_BUSY => ⟨.HBM_REPAIR, 61, 61, .RO, 0⟩
  | .HBM_REPAIR_FAIL => ⟨.HBM_REPAIR, 60, 60, .W1C, 0⟩
  | .HBM_REPAIR_STACK => ⟨.HBM_REPAIR, 59, 56, .RW, 0⟩
  | .HBM_REPAIR_CHANNEL => ⟨.HBM_REPAIR, 55, 51, .RW, 0⟩
  | .HBM_REPAIR_PC => ⟨.HBM_REPAIR, 50, 50, .RW, 0⟩
  | .HBM_REPAIR_BANK => ⟨.HBM_REPAIR, 49, 46, .RW, 0⟩
  | .HBM_REPAIR_ROW => ⟨.HBM_REPAIR, 45, 30, .RW, 0⟩
  | .HBM_REPAIR_LEFT => ⟨.HBM_REPAIR, 29, 16, .RO, 0⟩
  | .HBM_LOG_REGION_ENABLE => ⟨.HBM_LOG_REGION, 63, 63, .RW, 0⟩
  | .HBM_MIR_REGION_ENABLE => ⟨.HBM_MIR_REGION, 63, 63, .RW, 0⟩
  | .HBM_LOG_REGION_BASE_PG => ⟨.HBM_LOG_REGION, 50, 32, .RW, 0x47000⟩
  | .HBM_MIR_REGION_BASE_PG => ⟨.HBM_MIR_REGION, 50, 32, .RW, 0⟩
  | .HBM_LOG_REGION_SIZE_PG => ⟨.HBM_LOG_REGION, 18, 0, .RW, 0x1000⟩
  | .HBM_MIR_REGION_SIZE_PG => ⟨.HBM_MIR_REGION, 18, 0, .RW, 0⟩
  | .MIL_CFG_CAP => ⟨.MIL_CFG, 11, 0, .RW, 0x320⟩
  | .FAR_CFG_WAYS => ⟨.FAR_CFG, 5, 4, .RW, 0⟩
  | .FAR_CFG_BIFUR => ⟨.FAR_CFG, 3, 2, .RW, 0⟩
  | .FAR_STATUS_CAP_GIB => ⟨.FAR_STATUS, 63, 21, .RO, 0⟩
  | .FAR_STATUS_RATE => ⟨.FAR_STATUS, 3, 2, .RO, 0⟩
  | .FAR_STATUS_POISON_SEEN => ⟨.FAR_STATUS, 1, 1, .W1C, 0⟩
  | .FAR_STATUS_LINK_DOWN => ⟨.FAR_STATUS, 0, 0, .W1C, 0⟩
  | .CMD_CFG_CXL => ⟨.CMD_CFG, 48, 48, .RO, 0⟩
  | .CMD_CFG_MIRROR => ⟨.CMD_CFG, 32, 32, .RW, 0⟩
  | .CMD_CFG_IRQ_NS => ⟨.CMD_CFG, 31, 16, .RW, 0x3e8⟩
  | .CMD_CFG_POLL_NS => ⟨.CMD_CFG, 15, 0, .RW, 0x3e8⟩
  | .CMD_DEVWIN_EN => ⟨.CMD_DEVWIN, 63, 63, .RW, 0⟩
  | .CMD_DEVWIN_LIMIT_2M => ⟨.CMD_DEVWIN, 57, 32, .RW, 0⟩
  | .CMD_DEVWIN_BASE_2M => ⟨.CMD_DEVWIN, 25, 0, .RW, 0⟩
  | .CTX_RING_BASE_ENABLE => ⟨.CTX_RING_BASE, 63, 63, .RW, 0⟩
  | .CTX_RING_BASE_RESUME => ⟨.CTX_RING_BASE, 62, 62, .WO, 0⟩
  | .CTX_RING_BASE_SIZE => ⟨.CTX_RING_BASE, 61, 58, .RW, 0⟩
  | .CTX_RING_BASE_DBMODE => ⟨.CTX_RING_BASE, 57, 57, .RW, 0⟩
  | .CTX_RING_BASE_BASE => ⟨.CTX_RING_BASE, 41, 0, .RW, 0⟩
  | .CTX_RING_CFG_STATE => ⟨.CTX_RING_CFG, 63, 61, .RO, 0⟩
  | .CTX_RING_CFG_CTX => ⟨.CTX_RING_CFG, 60, 49, .RW, 0⟩
  | .CTX_RING_CFG_HOME => ⟨.CTX_RING_CFG, 48, 45, .RW, 0⟩
  | .CTX_RING_CFG_DB_ADDR => ⟨.CTX_RING_CFG, 44, 0, .RW, 0⟩
  | .CTX_RING_HEAD_HEAD => ⟨.CTX_RING_HEAD, 63, 0, .RO, 0⟩
  | .CTX_RING_CANCEL_UPTO => ⟨.CTX_RING_CANCEL, 63, 0, .WO, 0⟩
  | .CTX_CFG_ENABLE => ⟨.CTX_CFG, 63, 63, .RW, 0⟩
  | .CTX_CFG_EPOCH => ⟨.CTX_CFG, 15, 0, .RW, 0⟩
  | .CTX_PT_ROOT_ROOT => ⟨.CTX_PT_ROOT, 47, 12, .RW, 0⟩
  | .CTX_CTRL_RESET => ⟨.CTX_CTRL, 1, 1, .WO, 0⟩
  | .CTX_CTRL_RESUME => ⟨.CTX_CTRL, 0, 0, .WO, 0⟩
  | .CTX_STATUS_EPOCH => ⟨.CTX_STATUS, 63, 48, .RO, 0⟩
  | .CTX_STATUS_FROZEN => ⟨.CTX_STATUS, 2, 2, .RO, 0⟩
  | .CTX_STATUS_STATE => ⟨.CTX_STATUS, 1, 0, .RO, 0⟩
  | .CTX_EQ_CFG_ENABLE => ⟨.CTX_EQ_CFG, 63, 63, .RW, 0⟩
  | .CTX_CQ_CFG_ENABLE => ⟨.CTX_CQ_CFG, 63, 63, .RW, 0⟩
  | .CTX_EQ_CFG_SIZE => ⟨.CTX_EQ_CFG, 62, 58, .RW, 0⟩
  | .CTX_CQ_CFG_SIZE => ⟨.CTX_CQ_CFG, 62, 58, .RW, 0⟩
  | .CTX_EQ_CFG_LOST => ⟨.CTX_EQ_CFG, 57, 42, .RO, 0⟩
  | .CTX_CQ_CFG_LOST => ⟨.CTX_CQ_CFG, 57, 42, .RO, 0⟩
  | .CTX_EQ_CFG_BASE => ⟨.CTX_EQ_CFG, 41, 0, .RW, 0⟩
  | .CTX_CQ_CFG_BASE => ⟨.CTX_CQ_CFG, 41, 0, .RW, 0⟩
  | .CTX_EQ_POS_PROD => ⟨.CTX_EQ_POS, 63, 32, .RO, 0⟩
  | .CTX_CQ_POS_PROD => ⟨.CTX_CQ_POS, 63, 32, .RO, 0⟩
  | .CTX_EQ_POS_CONS => ⟨.CTX_EQ_POS, 31, 0, .RW, 0⟩
  | .CTX_CQ_POS_CONS => ⟨.CTX_CQ_POS, 31, 0, .RW, 0⟩
  | .CTX_TLB_INVAL_BUSY => ⟨.CTX_TLB_INVAL, 63, 63, .RO, 0⟩
  | .CTX_TLB_INVAL_ALL => ⟨.CTX_TLB_INVAL, 62, 62, .WO, 0⟩
  | .CTX_TLB_INVAL_CVA => ⟨.CTX_TLB_INVAL, 47, 12, .WO, 0⟩
  | .LNK_CFG_ENABLE => ⟨.LNK_CFG, 63, 63, .RW, 1⟩
  | .LNK_CFG_AUTO_RETRAIN => ⟨.LNK_CFG, 62, 62, .RW, 1⟩
  | .LNK_CFG_RETRAIN => ⟨.LNK_CFG, 61, 61, .WO, 0⟩
  | .LNK_CFG_PAUSE_GO => ⟨.LNK_CFG, 60, 60, .WO, 0⟩
  | .LNK_CFG_PAUSE_10NS => ⟨.LNK_CFG, 59, 44, .RW, 0⟩
  | .LNK_CFG_PAUSE_MAX_US => ⟨.LNK_CFG, 43, 28, .RW, 0x64⟩
  | .LNK_CFG_CTL_WAIT_NS => ⟨.LNK_CFG, 27, 16, .RW, 0x64⟩
  | .LNK_CFG_MIN_CH => ⟨.LNK_CFG, 11, 6, .RW, 0x10⟩
  | .LNK_STATUS_STATE => ⟨.LNK_STATUS, 63, 61, .RO, 0⟩
  | .LNK_STATUS_NACT_TX => ⟨.LNK_STATUS, 60, 55, .RO, 0⟩
  | .LNK_STATUS_NACT_RX => ⟨.LNK_STATUS, 54, 49, .RO, 0⟩
  | .LNK_STATUS_GEN_TX => ⟨.LNK_STATUS, 48, 45, .RO, 0⟩
  | .LNK_STATUS_GEN_RX => ⟨.LNK_STATUS, 44, 41, .RO, 0⟩
  | .LNK_STATUS_PAUSED => ⟨.LNK_STATUS, 40, 40, .RO, 0⟩
  | .LNK_STATUS_DOWN_EVT => ⟨.LNK_STATUS, 5, 5, .W1C, 0⟩
  | .LNK_STATUS_IDENT_ERR => ⟨.LNK_STATUS, 4, 4, .W1C, 0⟩
  | .LNK_STATUS_BYPASS_CHG => ⟨.LNK_STATUS, 3, 3, .W1C, 0⟩
  | .LNK_STATUS_SPARE_USED => ⟨.LNK_STATUS, 2, 2, .W1C, 0⟩
  | .LNK_STATUS_CH_REMOVED => ⟨.LNK_STATUS, 1, 1, .W1C, 0⟩
  | .LNK_STATUS_PAUSE_LONG => ⟨.LNK_STATUS, 0, 0, .W1C, 0⟩
  | .LNK_PEER_BOOT => ⟨.LNK_PEER, 63, 48, .RO, 0⟩
  | .LNK_PEER_BYPASS => ⟨.LNK_PEER, 41, 40, .RO, 0⟩
  | .LNK_PEER_TXPORT => ⟨.LNK_PEER, 34, 32, .RO, 0⟩
  | .LNK_PEER_NODE_ID => ⟨.LNK_PEER, 23, 0, .RO, 0⟩
  | .LNK_CHFAIL_TX_FAILED => ⟨.LNK_CHFAIL_TX, 44, 0, .RO, 0⟩
  | .LNK_CHFAIL_RX_FAILED => ⟨.LNK_CHFAIL_RX, 44, 0, .RO, 0⟩
  | .LNK_CHFUSE_TX_FUSE => ⟨.LNK_CHFUSE_TX, 63, 63, .RWP, 0⟩
  | .LNK_CHFUSE_RX_FUSE => ⟨.LNK_CHFUSE_RX, 63, 63, .RWP, 0⟩
  | .LNK_CHFUSE_TX_FUSED => ⟨.LNK_CHFUSE_TX, 44, 0, .RO, 0⟩
  | .LNK_CHFUSE_RX_FUSED => ⟨.LNK_CHFUSE_RX, 44, 0, .RO, 0⟩
  | .LNK_MAP_TX_VALID0 => ⟨.LNK_MAP_TX, 7, 7, .RO, 0⟩
  | .LNK_MAP_TX_VALID1 => ⟨.LNK_MAP_TX, 15, 15, .RO, 0⟩
  | .LNK_MAP_TX_VALID2 => ⟨.LNK_MAP_TX, 23, 23, .RO, 0⟩
  | .LNK_MAP_TX_VALID3 => ⟨.LNK_MAP_TX, 31, 31, .RO, 0⟩
  | .LNK_MAP_TX_VALID4 => ⟨.LNK_MAP_TX, 39, 39, .RO, 0⟩
  | .LNK_MAP_TX_VALID5 => ⟨.LNK_MAP_TX, 47, 47, .RO, 0⟩
  | .LNK_MAP_TX_VALID6 => ⟨.LNK_MAP_TX, 55, 55, .RO, 0⟩
  | .LNK_MAP_TX_VALID7 => ⟨.LNK_MAP_TX, 63, 63, .RO, 0⟩
  | .LNK_MAP_RX_VALID0 => ⟨.LNK_MAP_RX, 7, 7, .RO, 0⟩
  | .LNK_MAP_RX_VALID1 => ⟨.LNK_MAP_RX, 15, 15, .RO, 0⟩
  | .LNK_MAP_RX_VALID2 => ⟨.LNK_MAP_RX, 23, 23, .RO, 0⟩
  | .LNK_MAP_RX_VALID3 => ⟨.LNK_MAP_RX, 31, 31, .RO, 0⟩
  | .LNK_MAP_RX_VALID4 => ⟨.LNK_MAP_RX, 39, 39, .RO, 0⟩
  | .LNK_MAP_RX_VALID5 => ⟨.LNK_MAP_RX, 47, 47, .RO, 0⟩
  | .LNK_MAP_RX_VALID6 => ⟨.LNK_MAP_RX, 55, 55, .RO, 0⟩
  | .LNK_MAP_RX_VALID7 => ⟨.LNK_MAP_RX, 63, 63, .RO, 0⟩
  | .LNK_MAP_TX_LAMBDA0 => ⟨.LNK_MAP_TX, 6, 4, .RO, 0⟩
  | .LNK_MAP_TX_LAMBDA1 => ⟨.LNK_MAP_TX, 14, 12, .RO, 0⟩
  | .LNK_MAP_TX_LAMBDA2 => ⟨.LNK_MAP_TX, 22, 20, .RO, 0⟩
  | .LNK_MAP_TX_LAMBDA3 => ⟨.LNK_MAP_TX, 30, 28, .RO, 0⟩
  | .LNK_MAP_TX_LAMBDA4 => ⟨.LNK_MAP_TX, 38, 36, .RO, 0⟩
  | .LNK_MAP_TX_LAMBDA5 => ⟨.LNK_MAP_TX, 46, 44, .RO, 0⟩
  | .LNK_MAP_TX_LAMBDA6 => ⟨.LNK_MAP_TX, 54, 52, .RO, 0⟩
  | .LNK_MAP_TX_LAMBDA7 => ⟨.LNK_MAP_TX, 62, 60, .RO, 0⟩
  | .LNK_MAP_RX_LAMBDA0 => ⟨.LNK_MAP_RX, 6, 4, .RO, 0⟩
  | .LNK_MAP_RX_LAMBDA1 => ⟨.LNK_MAP_RX, 14, 12, .RO, 0⟩
  | .LNK_MAP_RX_LAMBDA2 => ⟨.LNK_MAP_RX, 22, 20, .RO, 0⟩
  | .LNK_MAP_RX_LAMBDA3 => ⟨.LNK_MAP_RX, 30, 28, .RO, 0⟩
  | .LNK_MAP_RX_LAMBDA4 => ⟨.LNK_MAP_RX, 38, 36, .RO, 0⟩
  | .LNK_MAP_RX_LAMBDA5 => ⟨.LNK_MAP_RX, 46, 44, .RO, 0⟩
  | .LNK_MAP_RX_LAMBDA6 => ⟨.LNK_MAP_RX, 54, 52, .RO, 0⟩
  | .LNK_MAP_RX_LAMBDA7 => ⟨.LNK_MAP_RX, 62, 60, .RO, 0⟩
  | .LNK_MAP_TX_FIBRE0 => ⟨.LNK_MAP_TX, 3, 0, .RO, 0⟩
  | .LNK_MAP_TX_FIBRE1 => ⟨.LNK_MAP_TX, 11, 8, .RO, 0⟩
  | .LNK_MAP_TX_FIBRE2 => ⟨.LNK_MAP_TX, 19, 16, .RO, 0⟩
  | .LNK_MAP_TX_FIBRE3 => ⟨.LNK_MAP_TX, 27, 24, .RO, 0⟩
  | .LNK_MAP_TX_FIBRE4 => ⟨.LNK_MAP_TX, 35, 32, .RO, 0⟩
  | .LNK_MAP_TX_FIBRE5 => ⟨.LNK_MAP_TX, 43, 40, .RO, 0⟩
  | .LNK_MAP_TX_FIBRE6 => ⟨.LNK_MAP_TX, 51, 48, .RO, 0⟩
  | .LNK_MAP_TX_FIBRE7 => ⟨.LNK_MAP_TX, 59, 56, .RO, 0⟩
  | .LNK_MAP_RX_FIBRE0 => ⟨.LNK_MAP_RX, 3, 0, .RO, 0⟩
  | .LNK_MAP_RX_FIBRE1 => ⟨.LNK_MAP_RX, 11, 8, .RO, 0⟩
  | .LNK_MAP_RX_FIBRE2 => ⟨.LNK_MAP_RX, 19, 16, .RO, 0⟩
  | .LNK_MAP_RX_FIBRE3 => ⟨.LNK_MAP_RX, 27, 24, .RO, 0⟩
  | .LNK_MAP_RX_FIBRE4 => ⟨.LNK_MAP_RX, 35, 32, .RO, 0⟩
  | .LNK_MAP_RX_FIBRE5 => ⟨.LNK_MAP_RX, 43, 40, .RO, 0⟩
  | .LNK_MAP_RX_FIBRE6 => ⟨.LNK_MAP_RX, 51, 48, .RO, 0⟩
  | .LNK_MAP_RX_FIBRE7 => ⟨.LNK_MAP_RX, 59, 56, .RO, 0⟩
  | .LNK_CNT_UNCORR => ⟨.LNK_CNT, 63, 40, .RO, 0⟩
  | .LNK_CNT_CORR_SYM => ⟨.LNK_CNT, 39, 0, .RO, 0⟩
  | .LNK_CNT2_REPLAYS => ⟨.LNK_CNT2, 63, 32, .RO, 0⟩
  | .LNK_CNT2_REMAPS => ⟨.LNK_CNT2, 31, 0, .RO, 0⟩
  | .LNK_GUEST_VENDOR => ⟨.LNK_GUEST, 63, 48, .RO, 0⟩
  | .LNK_GUEST_DEVICE => ⟨.LNK_GUEST, 47, 32, .RO, 0⟩
  | .LNK_GUEST_FW => ⟨.LNK_GUEST, 31, 16, .RO, 0⟩
  | .LNK_GUEST_MOD_OK => ⟨.LNK_GUEST, 15, 12, .RO, 0⟩
  | .LNK_GUEST_RATE => ⟨.LNK_GUEST, 11, 10, .RO, 0⟩
  | .LNK_GUEST_ADMIT => ⟨.LNK_GUEST, 3, 1, .RO, 0⟩
  | .LNK_GUEST_ADMITTED => ⟨.LNK_GUEST, 0, 0, .RO, 0⟩
  | .FAB_NODE_PART => ⟨.FAB_NODE, 31, 24, .RW, 0⟩
  | .FAB_NODE_NODE_ID => ⟨.FAB_NODE, 23, 0, .RW, 0⟩
  | .FAB_AXIS_LINE => ⟨.FAB_AXIS, 63, 63, .RW, 0⟩
  | .FAB_AXIS_AUTO => ⟨.FAB_AXIS, 62, 62, .W1C, 0⟩
  | .FAB_AXIS_BREAK => ⟨.FAB_AXIS, 61, 56, .RW, 0⟩
  | .FAB_AXIS_DATELINE => ⟨.FAB_AXIS, 55, 50, .RW, 0x3f⟩
  | .FAB_AXIS_LEN_M1 => ⟨.FAB_AXIS, 49, 44, .RW, 0⟩
  | .FAB_ABSENT_ABSENT => ⟨.FAB_ABSENT, 63, 0, .RW, 0⟩
  | .FAB_CTRL_INJ_HOLD => ⟨.FAB_CTRL, 63, 63, .RW, 0⟩
  | .FAB_CTRL_DRAINED => ⟨.FAB_CTRL, 62, 62, .RO, 0⟩
  | .FAB_CTRL_RT_REFUSED => ⟨.FAB_CTRL, 61, 61, .W1C, 0⟩
  | .FAB_CTRL_STRICT => ⟨.FAB_CTRL, 60, 60, .RO, 0⟩
  | .FAB_CTRL_FENCE => ⟨.FAB_CTRL, 55, 48, .RW, 0⟩
  | .FAB_CTRL_AGE_NS => ⟨.FAB_CTRL, 47, 32, .RW, 0x7d0⟩
  | .FAB_CTRL_ESC_WAIT_NS => ⟨.FAB_CTRL, 31, 16, .RW, 0x3e8⟩
  | .FAB_TIMER_GAP_US => ⟨.FAB_TIMER, 63, 48, .RW, 0xa⟩
  | .FAB_TIMER_RTO_US => ⟨.FAB_TIMER, 47, 32, .RW, 0x32⟩
  | .FAB_TIMER_RETRY_MAX => ⟨.FAB_TIMER, 31, 24, .RW, 8⟩
  | .FAB_TIMER_ACK_US => ⟨.FAB_TIMER, 23, 16, .RW, 1⟩
  | .FAB_POOL_REORD_MIB => ⟨.FAB_POOL, 63, 56, .RW, 0x10⟩
  | .FAB_POOL_RETAIN_MIB => ⟨.FAB_POOL, 55, 48, .RW, 0x10⟩
  | .FAB_FLOW_SEL_GO => ⟨.FAB_FLOW_SEL, 63, 63, .WO, 0⟩
  | .FAB_FLOW_SEL_DIR => ⟨.FAB_FLOW_SEL, 62, 62, .RW, 0⟩
  | .FAB_FLOW_SEL_OP => ⟨.FAB_FLOW_SEL, 61, 60, .RW, 0⟩
  | .FAB_FLOW_SEL_BUSY => ⟨.FAB_FLOW_SEL, 59, 59, .RO, 0⟩
  | .FAB_FLOW_SEL_REFUSED => ⟨.FAB_FLOW_SEL, 58, 58, .W1C, 0⟩
  | .FAB_FLOW_SEL_FLOW => ⟨.FAB_FLOW_SEL, 13, 0, .RW, 0⟩
  | .FAB_FLOW_DATA_PEER_FLOW => ⟨.FAB_FLOW_DATA, 63, 50, .RW, 0⟩
  | .FAB_FLOW_DATA_WIN_M1 => ⟨.FAB_FLOW_DATA, 49, 40, .RW, 0⟩
  | .FAB_FLOW_DATA_CTX => ⟨.FAB_FLOW_DATA, 39, 28, .RW, 0⟩
  | .FAB_FLOW_DATA_TILE => ⟨.FAB_FLOW_DATA, 24, 24, .RW, 0⟩
  | .FAB_FLOW_DATA_PEER_NODE => ⟨.FAB_FLOW_DATA, 23, 0, .RW, 0⟩
  | .FAB_FLOW_SEQ_NEXT => ⟨.FAB_FLOW_SEQ, 63, 32, .RO, 0⟩
  | .FAB_FLOW_SEQ_MARK => ⟨.FAB_FLOW_SEQ, 31, 0, .RO, 0⟩
  | .FAB_CNT0_RESENDS => ⟨.FAB_CNT0, 63, 32, .RO, 0⟩
  | .FAB_CNT0_DUPS => ⟨.FAB_CNT0, 31, 0, .RO, 0⟩
  | .FAB_CNT1_STRANDED => ⟨.FAB_CNT1, 63, 32, .RO, 0⟩
  | .FAB_CNT1_DROPS => ⟨.FAB_CNT1, 31, 0, .RO, 0⟩
  | .COL_CFG_POOL_MIB => ⟨.COL_CFG, 63, 56, .RW, 0x10⟩
  | .COL_CNT_RESIDUE => ⟨.COL_CNT, 63, 32, .RO, 0⟩
  | .COL_CNT_DROPS => ⟨.COL_CNT, 31, 0, .RO, 0⟩
  | .COL_GRP_CFG0_ARM => ⟨.COL_GRP_CFG0, 63, 63, .RW, 0⟩
  | .COL_GRP_CFG0_OP => ⟨.COL_GRP_CFG0, 62, 60, .RW, 0⟩
  | .COL_GRP_CFG0_EXACT => ⟨.COL_GRP_CFG0, 59, 59, .RW, 0⟩
  | .COL_GRP_CFG0_AXIS => ⟨.COL_GRP_CFG0, 57, 56, .RW, 0⟩
  | .COL_GRP_CFG0_NRANK_M1 => ⟨.COL_GRP_CFG0, 55, 50, .RW, 0⟩
  | .COL_GRP_CFG0_CTX => ⟨.COL_GRP_CFG0, 43, 32, .RW, 0⟩
  | .COL_GRP_CFG0_DONE_VID => ⟨.COL_GRP_CFG0, 31, 16, .RW, 0⟩
  | .COL_GRP_CFG1_CHUNKS => ⟨.COL_GRP_CFG1, 63, 42, .RW, 0⟩
  | .COL_GRP_CFG1_FLOW_P => ⟨.COL_GRP_CFG1, 41, 28, .RW, 0⟩
  | .COL_GRP_CFG1_FLOW_M => ⟨.COL_GRP_CFG1, 27, 14, .RW, 0⟩
  | .COL_GRP_RES_RES_ADDR => ⟨.COL_GRP_RES, 63, 0, .RW, 0⟩
  | .COL_GRP_TALLY_TALLY_ADDR => ⟨.COL_GRP_TALLY, 63, 0, .RW, 0⟩
  | .COL_GRP_DISP_CAP => ⟨.COL_GRP_DISP, 63, 48, .RW, 0⟩
  | .COL_GRP_DISP_ROW32 => ⟨.COL_GRP_DISP, 47, 36, .RW, 0⟩
  | .COL_GRP_STATUS_ROUND => ⟨.COL_GRP_STATUS, 63, 32, .RO, 0⟩
  | .COL_GRP_STATUS_LINE_PLAN => ⟨.COL_GRP_STATUS, 7, 7, .RO, 0⟩
  | .COL_GRP_STATUS_RESIDUE => ⟨.COL_GRP_STATUS, 6, 6, .W1C, 0⟩
  | .COL_GRP_STATUS_FAILED => ⟨.COL_GRP_STATUS, 5, 5, .W1C, 0⟩
  | .COL_GRP_STATUS_DROP => ⟨.COL_GRP_STATUS, 4, 4, .W1C, 0⟩
  | .COL_GRP_STATUS_PUSH_ERR => ⟨.COL_GRP_STATUS, 3, 3, .W1C, 0⟩
  | .COL_GRP_STATUS_REFUSED => ⟨.COL_GRP_STATUS, 2, 2, .W1C, 0⟩
  | .COL_GRP_STATUS_BUSY => ⟨.COL_GRP_STATUS, 1, 1, .RO, 0⟩
  | .COL_MEMBER_NODE_ID => ⟨.COL_MEMBER, 23, 0, .RW, 0⟩
  | .MGT_DET_CTRL_EVT_CLR => ⟨.MGT_DET_CTRL, 2, 2, .WO, 0⟩
  | .MGT_DET_CTRL_PORTABLE => ⟨.MGT_DET_CTRL, 1, 1, .RW, 0⟩
  | .MGT_DET_CTRL_STRICT => ⟨.MGT_DET_CTRL, 0, 0, .RW, 0⟩
  | .MGT_DET_STATUS_MIXED => ⟨.MGT_DET_STATUS, 15, 15, .W1C, 0⟩
  | .MGT_DET_STATUS_REFUSED => ⟨.MGT_DET_STATUS, 14, 14, .W1C, 0⟩
  | .MGT_DET_STATUS_STRETCH_SEEN => ⟨.MGT_DET_STATUS, 13, 13, .W1C, 0⟩
  | .MGT_DET_STATUS_DUMAP_CHG => ⟨.MGT_DET_STATUS, 12, 12, .W1C, 0⟩
  | .MGT_DET_STATUS_PORTABLE_HELD => ⟨.MGT_DET_STATUS, 1, 1, .RO, 0⟩
  | .MGT_DET_STATUS_STRICT_HELD => ⟨.MGT_DET_STATUS, 0, 0, .RO, 0⟩
  | .MGT_DET_EVT_STRETCHES => ⟨.MGT_DET_EVT, 63, 48, .RO, 0⟩
  | .MGT_DET_EVT_HOLDS => ⟨.MGT_DET_EVT, 47, 32, .RO, 0⟩
  | .MGT_DET_EVT_DUMAP_CHANGES => ⟨.MGT_DET_EVT, 31, 16, .RO, 0⟩
  | .MGT_DET_EVT_PORT_CHANGES => ⟨.MGT_DET_EVT, 15, 0, .RO, 0⟩
  | .MGT_DET_FPRINT_FPRINT => ⟨.MGT_DET_FPRINT, 63, 0, .RO, 0⟩
  | .MGT_DET_DUMAP_LO_PT_LO => ⟨.MGT_DET_DUMAP_LO, 63, 0, .RO, 0⟩
  | .MGT_DET_DUMAP_HI_FENCED => ⟨.MGT_DET_DUMAP_HI, 4, 4, .RO, 0⟩
  | .MGT_DET_DUMAP_HI_PT_HI => ⟨.MGT_DET_DUMAP_HI, 3, 0, .RO, 0xf⟩
  | .SHF_SPARE_MAP => ⟨.SHF_SPARE, 63, 63, .WO, 0⟩
  | .SHF_SPARE_FUSE => ⟨.SHF_SPARE, 62, 62, .RWP, 0⟩
  | .SHF_SPARE_RENUMBER => ⟨.SHF_SPARE, 61, 61, .WO, 0⟩
  | .SHF_SPARE_FENCE => ⟨.SHF_SPARE, 60, 60, .W1S, 0⟩
  | .SHF_SPARE_BUSY => ⟨.SHF_SPARE, 59, 59, .RO, 0⟩
  | .SHF_SPARE_N => ⟨.SHF_SPARE, 58, 53, .RW, 0⟩
  | .SHF_SPARE_SPARES_LEFT => ⟨.SHF_SPARE, 52, 50, .RO, 4⟩
  | .SHF_SPARE_ENABLED_M1 => ⟨.SHF_SPARE, 49, 44, .RO, 0x3f⟩
  | .HBM_MIR_CTRL_ENABLE => ⟨.HBM_MIR_CTRL, 63, 63, .RW, 0⟩
  | .HBM_MIR_CTRL_FLOW => ⟨.HBM_MIR_CTRL, 62, 49, .RW, 0⟩
  | .HBM_MIR_CTRL_CTX => ⟨.HBM_MIR_CTRL, 48, 37, .RW, 0⟩
  | .HBM_MIR_CTRL_SYNC_VID => ⟨.HBM_MIR_CTRL, 36, 21, .RW, 0⟩
  | .HBM_MIR_CTRL_DONE_VID => ⟨.HBM_MIR_CTRL, 20, 5, .RW, 0⟩
  | .HBM_MIR_STATUS_GEN => ⟨.HBM_MIR_STATUS, 63, 32, .RO, 0⟩
  | .HBM_MIR_STATUS_DISCARD => ⟨.HBM_MIR_STATUS, 1, 1, .W1C, 0⟩
  | .HBM_MIR_STATUS_BUSY => ⟨.HBM_MIR_STATUS, 0, 0, .RO, 0⟩
  | .HBM_MIR_SRC_EN => ⟨.HBM_MIR_SRC, 63, 63, .RW, 0⟩
  | .HBM_MIR_SRC_BASE_PG => ⟨.HBM_MIR_SRC, 50, 32, .RW, 0⟩
  | .HBM_MIR_SRC_SIZE_PG => ⟨.HBM_MIR_SRC, 18, 0, .RW, 0⟩
  | .HBM_LOG_CTRL_ENABLE => ⟨.HBM_LOG_CTRL, 63, 63, .RW, 0⟩
  | .HBM_LOG_CTRL_SLOT => ⟨.HBM_LOG_CTRL, 62, 59, .RW, 0⟩
  | .HBM_LOG_CTRL_CTX => ⟨.HBM_LOG_CTRL, 58, 47, .RW, 0⟩
  | .HBM_LOG_STATUS_RECORDS => ⟨.HBM_LOG_STATUS, 63, 32, .RO, 0⟩
  | .HBM_LOG_STATUS_OVF => ⟨.HBM_LOG_STATUS, 0, 0, .W1C, 0⟩
  | .HBM_LOG_REPLAY_GO => ⟨.HBM_LOG_REPLAY, 63, 63, .WO, 0⟩
  | .HBM_LOG_REPLAY_BUSY => ⟨.HBM_LOG_REPLAY, 62, 62, .RO, 0⟩
  | .HBM_LOG_REPLAY_FAIL => ⟨.HBM_LOG_REPLAY, 61, 61, .W1C, 0⟩
  | .HBM_LOG_REPLAY_FLOW => ⟨.HBM_LOG_REPLAY, 13, 0, .RW, 0⟩
  | .FAB_FLOW_TRIM_GO => ⟨.FAB_FLOW_TRIM, 63, 63, .WO, 0⟩
  | .FAB_FLOW_TRIM_BUSY => ⟨.FAB_FLOW_TRIM, 62, 62, .RO, 0⟩
  | .FAB_FLOW_TRIM_FLOW => ⟨.FAB_FLOW_TRIM, 45, 32, .RW, 0⟩
  | .FAB_FLOW_TRIM_SIGS => ⟨.FAB_FLOW_TRIM, 31, 0, .RO, 0⟩
  | .FAB_FLOW_SKIP_GO => ⟨.FAB_FLOW_SKIP, 63, 63, .WO, 0⟩
  | .FAB_FLOW_SKIP_FLOW => ⟨.FAB_FLOW_SKIP, 45, 32, .RW, 0⟩
  | .FAB_FLOW_SKIP_SKIP => ⟨.FAB_FLOW_SKIP, 31, 0, .RW, 0⟩
  | .FAB_ALIAS_EN => ⟨.FAB_ALIAS, 63, 63, .RW, 0⟩
  | .FAB_ALIAS_TO_NODE => ⟨.FAB_ALIAS, 47, 24, .RW, 0⟩
  | .FAB_ALIAS_FROM_NODE => ⟨.FAB_ALIAS, 23, 0, .RW, 0⟩
  | .COL_GRP_PROXY_EN => ⟨.COL_GRP_PROXY, 63, 63, .RW, 0⟩
  | .COL_GRP_PROXY_ROUND_SET => ⟨.COL_GRP_PROXY, 55, 24, .RW, 0⟩
  | .COL_GRP_PROXY_PROXY_NODE => ⟨.COL_GRP_PROXY, 23, 0, .RW, 0⟩
  | .HLT_MARGIN_CFG_EN => ⟨.HLT_MARGIN_CFG, 63, 63, .RW, 0⟩
  | .HLT_MARGIN_CFG_PERIOD_S => ⟨.HLT_MARGIN_CFG, 47, 32, .RW, 0x3c⟩
  | .HLT_MARGIN_SHF_V_MV => ⟨.HLT_MARGIN_SHF, 63, 56, .RO, 0⟩
  | .HLT_MARGIN_SHF_T_PS => ⟨.HLT_MARGIN_SHF, 55, 48, .RO, 0⟩
  | .HLT_MARGIN_SHF_T_TILLER => ⟨.HLT_MARGIN_SHF, 47, 42, .RO, 0⟩
  | .HLT_MARGIN_SHF_LIMIT => ⟨.HLT_MARGIN_SHF, 1, 1, .W1C, 0⟩
  | .HLT_MARGIN_SHF_WARN => ⟨.HLT_MARGIN_SHF, 0, 0, .W1C, 0⟩
  | .HLT_MARGIN_PORT_O_DB10 => ⟨.HLT_MARGIN_PORT, 63, 56, .RO, 0⟩
  | .HLT_MARGIN_PORT_O_CH => ⟨.HLT_MARGIN_PORT, 55, 50, .RO, 0⟩
  | .HLT_MARGIN_PORT_LIMIT => ⟨.HLT_MARGIN_PORT, 1, 1, .W1C, 0⟩
  | .HLT_MARGIN_PORT_WARN => ⟨.HLT_MARGIN_PORT, 0, 0, .W1C, 0⟩
  | .PWR_STATUS_POWER_W => ⟨.PWR_STATUS, 63, 48, .RO, 0⟩
  | .PWR_STATUS_VIN => ⟨.PWR_STATUS, 47, 38, .RO, 0⟩
  | .PWR_STATUS_TJ_MAX => ⟨.PWR_STATUS, 37, 30, .RO, 0⟩
  | .PWR_STATUS_THERM => ⟨.PWR_STATUS, 29, 27, .RO, 0⟩
  | .PWR_STATUS_STATE => ⟨.PWR_STATUS, 26, 24, .RO, 0⟩
  | .PWR_STATUS_START_STEP => ⟨.PWR_STATUS, 23, 16, .RO, 0⟩
  | .PWR_STATUS_HOLDOVER => ⟨.PWR_STATUS, 5, 5, .RO, 0⟩
  | .PWR_STATUS_AUX_ON_MAIN => ⟨.PWR_STATUS, 4, 4, .RO, 0⟩
  | .PWR_STATUS_CLAMPED => ⟨.PWR_STATUS, 3, 3, .W1C, 0⟩
  | .PWR_STATUS_HOLD_SEEN => ⟨.PWR_STATUS, 2, 2, .W1C, 0⟩
  | .PWR_STATUS_MAIN_GOOD => ⟨.PWR_STATUS, 1, 1, .RO, 0⟩
  | .PWR_STATUS_READY => ⟨.PWR_STATUS, 0, 0, .RO, 0⟩
  | .PWR_CTRL_MAIN_ON => ⟨.PWR_CTRL, 2, 2, .WO, 0⟩
  | .PWR_CTRL_OFF => ⟨.PWR_CTRL, 1, 1, .WO, 0⟩
  | .PWR_CTRL_RESET => ⟨.PWR_CTRL, 0, 0, .WO, 0⟩
  | .PWR_CFG_AUTO_ON => ⟨.PWR_CFG, 63, 63, .RW, 1⟩
  | .PWR_CFG_VLOOP_EN => ⟨.PWR_CFG, 62, 62, .RW, 1⟩
  | .PWR_CFG_HOLD_MAX_MS => ⟨.PWR_CFG, 47, 32, .RW, 0x3e8⟩
  | .PWR_CFG_V_TARGET_MV => ⟨.PWR_CFG, 31, 24, .RW, 0x32⟩
  | .PWR_CLK_PLAN_FREQ_REQ_MHZ => ⟨.PWR_CLK_PLAN, 63, 48, .RW, 0x708⟩
  | .PWR_CLK_PLAN_FREQ_NOW_MHZ => ⟨.PWR_CLK_PLAN, 47, 32, .RO, 0⟩
  | .PWR_CLK_PLAN_FMAX_MHZ => ⟨.PWR_CLK_PLAN, 31, 16, .RO, 0x834⟩
  | .PWR_CAP_CAP_W => ⟨.PWR_CAP, 63, 48, .RW, 0xa28⟩
  | .PWR_CAP_EXCURSIONS => ⟨.PWR_CAP, 47, 32, .RO, 0⟩
  | .PWR_STRETCH_EN => ⟨.PWR_STRETCH, 63, 63, .RW, 0⟩
  | .PWR_STRETCH_SLOT => ⟨.PWR_STRETCH, 62, 59, .RW, 0⟩
  | .PWR_STRETCH_LEAD_US => ⟨.PWR_STRETCH, 47, 32, .RW, 5⟩
  | .PWR_STRETCH_LAST => ⟨.PWR_STRETCH, 15, 8, .RO, 0⟩
  | .PWR_STRETCH_REQ => ⟨.PWR_STRETCH, 7, 0, .RO, 0⟩
  | .PWR_DORMANT_ENTER => ⟨.PWR_DORMANT, 63, 63, .WO, 0⟩
  | .PWR_DORMANT_WAKE => ⟨.PWR_DORMANT, 62, 62, .WO, 0⟩
  | .PWR_DORMANT_REFUSED => ⟨.PWR_DORMANT, 61, 61, .W1C, 0⟩
  | .PWR_DORMANT_CAUSE => ⟨.PWR_DORMANT, 60, 58, .RO, 0⟩
  | .PWR_WAKE_AT_MTIME => ⟨.PWR_WAKE_AT, 63, 0, .RW, 0⟩
  | .PWR_LASER_APPLIED => ⟨.PWR_LASER, 15, 8, .RO, 0⟩
  | .PWR_LASER_TARGET_DB10 => ⟨.PWR_LASER, 7, 0, .RW, 0x14⟩
  | .PWR_MTIME_MTIME => ⟨.PWR_MTIME, 63, 0, .RO, 0⟩
  | .PWR_MTIME_SET_VALUE => ⟨.PWR_MTIME_SET, 63, 0, .WO, 0⟩
  | .HLT_EOL_MONTHS => ⟨.HLT_EOL, 63, 56, .RO, 0xff⟩
  | .HLT_EOL_KIND => ⟨.HLT_EOL, 55, 52, .RO, 0⟩
  | .HLT_EOL_UNIT => ⟨.HLT_EOL, 51, 40, .RO, 0⟩
  | .HLT_EOL_WARN_MONTHS => ⟨.HLT_EOL, 39, 32, .RW, 0xc⟩
  | .HLT_EOL_WARN => ⟨.HLT_EOL, 0, 0, .W1C, 0⟩
  | .OBS_CAP_HBM_GBPS => ⟨.OBS_CAP, 63, 48, .RW, 0x3a4⟩
  | .OBS_CAP_LINK_MBPS => ⟨.OBS_CAP, 47, 32, .RW, 0x3b60⟩
  | .OBS_STATUS_TEL_LOST => ⟨.OBS_STATUS, 63, 48, .RO, 0⟩
  | .OBS_STATUS_TRC_LOST => ⟨.OBS_STATUS, 47, 32, .RO, 0⟩
  | .OBS_STATUS_REMOTE_ERR => ⟨.OBS_STATUS, 2, 2, .W1C, 0⟩
  | .OBS_STATUS_CAP_LINK => ⟨.OBS_STATUS, 1, 1, .W1C, 0⟩
  | .OBS_STATUS_CAP_HBM => ⟨.OBS_STATUS, 0, 0, .W1C, 0⟩
  | .OBS_SAMPLE_EN => ⟨.OBS_SAMPLE, 63, 63, .RW, 0⟩
  | .OBS_SAMPLE_SOURCES => ⟨.OBS_SAMPLE, 42, 30, .RW, 0⟩
  | .OBS_SAMPLE_PERIOD_NS => ⟨.OBS_SAMPLE, 29, 0, .RW, 0x3e8⟩
  | .OBS_CMDREC_EN => ⟨.OBS_CMDREC, 63, 63, .RW, 0⟩
  | .OBS_CMDREC_ALL_CTX => ⟨.OBS_CMDREC, 62, 62, .RW, 0⟩
  | .OBS_CMDREC_CTX => ⟨.OBS_CMDREC, 11, 0, .RW, 0⟩
  | .OBS_TRACE_EN => ⟨.OBS_TRACE, 63, 63, .RW, 0⟩
  | .OBS_TRACE_ALL_CTX => ⟨.OBS_TRACE, 62, 62, .RW, 0⟩
  | .OBS_TRACE_SHIFT => ⟨.OBS_TRACE, 61, 56, .RW, 0⟩
  | .OBS_TRACE_CTX => ⟨.OBS_TRACE, 55, 44, .RW, 0⟩
  | .OBS_TRACE_KINDS => ⟨.OBS_TRACE, 10, 0, .RW, 0⟩
  | .OBS_TEL_RING_ENABLE => ⟨.OBS_TEL_RING, 63, 63, .RW, 0⟩
  | .OBS_TRC_RING_ENABLE => ⟨.OBS_TRC_RING, 63, 63, .RW, 0⟩
  | .OBS_TEL_RING_WRAP => ⟨.OBS_TEL_RING, 62, 62, .RW, 0⟩
  | .OBS_TRC_RING_WRAP => ⟨.OBS_TRC_RING, 62, 62, .RW, 0⟩
  | .OBS_TEL_RING_REMOTE => ⟨.OBS_TEL_RING, 61, 61, .RW, 0⟩
  | .OBS_TRC_RING_REMOTE => ⟨.OBS_TRC_RING, 61, 61, .RW, 0⟩
  | .OBS_TEL_RING_SIZE => ⟨.OBS_TEL_RING, 60, 56, .RW, 0⟩
  | .OBS_TRC_RING_SIZE => ⟨.OBS_TRC_RING, 60, 56, .RW, 0⟩
  | .OBS_TEL_RING_BASE => ⟨.OBS_TEL_RING, 47, 12, .RW, 0⟩
  | .OBS_TRC_RING_BASE => ⟨.OBS_TRC_RING, 47, 12, .RW, 0⟩
  | .OBS_TEL_POS_PROD => ⟨.OBS_TEL_POS, 63, 32, .RO, 0⟩
  | .OBS_TRC_POS_PROD => ⟨.OBS_TRC_POS, 63, 32, .RO, 0⟩
  | .OBS_TEL_POS_CONS => ⟨.OBS_TEL_POS, 31, 0, .RW, 0⟩
  | .OBS_TRC_POS_CONS => ⟨.OBS_TRC_POS, 31, 0, .RW, 0⟩
  | .OBS_EXPORT_TEL_FLOW => ⟨.OBS_EXPORT, 63, 50, .RW, 0⟩
  | .OBS_EXPORT_TRC_FLOW => ⟨.OBS_EXPORT, 49, 36, .RW, 0⟩
  | .OBS_CAPT_CTRL_ARM => ⟨.OBS_CAPT_CTRL, 63, 63, .RW, 0⟩
  | .OBS_CAPT_CTRL_SALT_EN => ⟨.OBS_CAPT_CTRL, 62, 62, .RW, 0⟩
  | .OBS_CAPT_CTRL_CTX => ⟨.OBS_CAPT_CTRL, 59, 48, .RW, 0⟩
  | .OBS_CAPT_CTRL_SALT => ⟨.OBS_CAPT_CTRL, 47, 32, .RW, 0⟩
  | .OBS_CAPT_CTRL_TENSOR_ID => ⟨.OBS_CAPT_CTRL, 31, 0, .RW, 0⟩
  | .OBS_CAPT_STEP_STEP => ⟨.OBS_CAPT_STEP, 31, 0, .RW, 0⟩
  | .OBS_CAPT_BASE_BASE => ⟨.OBS_CAPT_BASE, 63, 0, .RW, 0⟩
  | .OBS_CAPT_LEN_LEN => ⟨.OBS_CAPT_LEN, 49, 0, .RW, 0⟩
  | .OBS_CAPT_STATUS_MATCHES => ⟨.OBS_CAPT_STATUS, 63, 32, .RO, 0⟩
  | .OBS_CAPT_STATUS_FMT => ⟨.OBS_CAPT_STATUS, 31, 28, .RO, 0⟩
  | .OBS_CAPT_STATUS_FMT_MISMATCH => ⟨.OBS_CAPT_STATUS, 3, 3, .W1C, 0⟩
  | .OBS_CAPT_STATUS_ALIGN => ⟨.OBS_CAPT_STATUS, 2, 2, .W1C, 0⟩
  | .OBS_CAPT_STATUS_OVER => ⟨.OBS_CAPT_STATUS, 1, 1, .W1C, 0⟩
  | .OBS_CAPT_STATUS_ACTIVE => ⟨.OBS_CAPT_STATUS, 0, 0, .RO, 0⟩
  | .OBS_CAPT_COUNT_ELEMENTS => ⟨.OBS_CAPT_COUNT, 63, 0, .RO, 0⟩
  | .TIL_OBS_CYC_CYCLES => ⟨.TIL_OBS_CYC, 63, 0, .RO, 0⟩
  | .TIL_OBS_MAC_MACS => ⟨.TIL_OBS_MAC, 63, 0, .RO, 0⟩
  | .TIL_OBS_INST_INSTR => ⟨.TIL_OBS_INST, 63, 0, .RO, 0⟩
  | .TIL_OBS_CTRL_CLR => ⟨.TIL_OBS_CTRL, 0, 0, .WO, 0⟩
  | .TIL_OBS_BANK_CYCLES => ⟨.TIL_OBS_BANK, 63, 0, .RO, 0⟩
  | .OBS_CTX_ANOM_COUNT => ⟨.OBS_CTX_ANOM, 63, 0, .RO, 0⟩
  | .MGT_PRESENCE_OPEN => ⟨.MGT_PRESENCE, 63, 63, .RO, 0⟩
  | .MGT_PRESENCE_REMAIN_S => ⟨.MGT_PRESENCE, 7, 0, .RO, 0⟩
  | .MGT_AUDIT_SEQ_NEXT => ⟨.MGT_AUDIT_SEQ, 63, 0, .RO, 0⟩
  | .MGT_AUDIT_STAT_LOST => ⟨.MGT_AUDIT_STAT, 63, 48, .RO, 0⟩
  | .MGT_AUDIT_STAT_UNFLUSHED => ⟨.MGT_AUDIT_STAT, 47, 32, .RO, 0⟩
  | .MGT_AUDIT_STAT_MTIME_UNSET => ⟨.MGT_AUDIT_STAT, 2, 2, .RO, 0⟩
  | .MGT_AUDIT_STAT_WRAP => ⟨.MGT_AUDIT_STAT, 1, 1, .W1C, 0⟩
  | .MGT_AUDIT_STAT_CLEAR => ⟨.MGT_AUDIT_STAT, 0, 0, .RWP, 0⟩
  | .MGT_FW_ACTIVATE => ⟨.MGT_FW, 63, 63, .RWP, 0⟩
  | .MGT_FW_CONFIRM => ⟨.MGT_FW, 62, 62, .WO, 0⟩
  | .MGT_FW_TRIAL => ⟨.MGT_FW, 61, 61, .RO, 0⟩
  | .MGT_FW_SLOT => ⟨.MGT_FW, 60, 60, .RO, 0⟩
  | .MGT_FW_STAGE => ⟨.MGT_FW, 59, 58, .RO, 0⟩
  | .MGT_FW_RUN_VER => ⟨.MGT_FW, 31, 0, .RO, 0⟩
  | .MGT_FW_VER_RAISE => ⟨.MGT_FW_VER, 63, 63, .RWP, 0⟩
  | .MGT_FW_VER_STAGED_VER => ⟨.MGT_FW_VER, 62, 32, .RO, 0⟩
  | .MGT_FW_VER_MIN_VER => ⟨.MGT_FW_VER, 31, 0, .RO, 0⟩
  | .MGT_DEBUG_UNLOCK => ⟨.MGT_DEBUG, 63, 63, .RWP, 0⟩
  | .MGT_DEBUG_LOCK => ⟨.MGT_DEBUG, 62, 62, .WO, 0⟩
  | .MGT_DEBUG_UNLOCKED => ⟨.MGT_DEBUG, 61, 61, .RO, 0⟩
  | .MGT_PEER_GO => ⟨.MGT_PEER, 63, 63, .WO, 0⟩
  | .MGT_PEER_BUSY => ⟨.MGT_PEER, 62, 62, .RO, 0⟩
  | .MGT_PEER_RESULT => ⟨.MGT_PEER, 61, 60, .RO, 0⟩
  | .MGT_PEER_NODE => ⟨.MGT_PEER, 23, 0, .RW, 0⟩
  | .MGT_FENCED_SHEAF => ⟨.MGT_FENCED, 63, 52, .RO, 0⟩
  | .MGT_FENCED_STACK => ⟨.MGT_FENCED, 51, 40, .RO, 0⟩
  | .MGT_FENCED_PORT => ⟨.MGT_FENCED, 39, 32, .RO, 0⟩
  | .MGT_FENCED_EVT => ⟨.MGT_FENCED, 0, 0, .W1C, 0⟩
  | .SEC_KEYHASH_HASH => ⟨.SEC_KEYHASH, 63, 0, .RO, 0⟩
  | .SEC_STATUS_ALLOW_COUNT => ⟨.SEC_STATUS, 39, 32, .RO, 0⟩
  | .SEC_STATUS_ALLOW_LOADED => ⟨.SEC_STATUS, 1, 1, .RO, 0⟩
  | .SEC_STATUS_KEY_FUSED => ⟨.SEC_STATUS, 0, 0, .RO, 1⟩
  | .SEC_ALLOW_VENDOR => ⟨.SEC_ALLOW, 63, 48, .RO, 0⟩
  | .SEC_ALLOW_DEVICE => ⟨.SEC_ALLOW, 47, 32, .RO, 0⟩
  | .SEC_ALLOW_MIN_FW => ⟨.SEC_ALLOW, 31, 16, .RO, 0⟩
  | .SEC_ALLOW_VALID => ⟨.SEC_ALLOW, 0, 0, .RO, 0⟩

/-- The fields of a register, from its highest bits down. -/
def Reg.flds : Reg → List Fld
  | .TIL_MA_CTRL => [.TIL_MA_CTRL_STALL_CLR, .TIL_MA_CTRL_GANG, .TIL_MA_CTRL_CMP]
  | .TIL_MA_STATUS => [.TIL_MA_STATUS_CMP_FAIL, .TIL_MA_STATUS_PARITY_ERR, .TIL_MA_STATUS_ACC_DUE, .TIL_MA_STATUS_ACC_CE, .TIL_MA_STATUS_GANG_REFUSED, .TIL_MA_STATUS_BUSY]
  | .TIL_MA_FRONT_STALL => [.TIL_MA_FRONT_STALL_CYCLES]
  | .TIL_VE_CTRL => [.TIL_VE_CTRL_POISON_FAULT, .TIL_VE_CTRL_STALL_CLR]
  | .TIL_VE_STATUS => [.TIL_VE_STATUS_POISON_IN, .TIL_VE_STATUS_SHAPE_ERR, .TIL_VE_STATUS_GATHER_BOUND, .TIL_VE_STATUS_POISON_SEEN, .TIL_VE_STATUS_BUSY]
  | .TIL_VE_TQ_WAIT => [.TIL_VE_TQ_WAIT_CYCLES]
  | .TIL_VE_STAT_STALL => [.TIL_VE_STAT_STALL_CYCLES]
  | .TIL_PARAM => [.TIL_PARAM_VALUE]
  | .TIL_PROG_CTRL => [.TIL_PROG_CTRL_HALT, .TIL_PROG_CTRL_STEP, .TIL_PROG_CTRL_RESUME]
  | .TIL_PROG_STATUS => [.TIL_PROG_STATUS_PC, .TIL_PROG_STATUS_FAULT_CLASS, .TIL_PROG_STATUS_INFLIGHT, .TIL_PROG_STATUS_PWRITE_REFUSED, .TIL_PROG_STATUS_STATE]
  | .TIL_PROG_IMAGE => [.TIL_PROG_IMAGE_IMAGE_ID, .TIL_PROG_IMAGE_NINST, .TIL_PROG_IMAGE_BASE16]
  | .TIL_CMD_COUNT => [.TIL_CMD_COUNT_COUNT]
  | .TIL_BRK_CTRL => [.TIL_BRK_CTRL_CTX, .TIL_BRK_CTRL_ONCE, .TIL_BRK_CTRL_CTX_ANY, .TIL_BRK_CTRL_ON_TAG, .TIL_BRK_CTRL_ON_CMD]
  | .TIL_BRK_CMD => [.TIL_BRK_CMD_COUNT]
  | .TIL_BRK_TAG => [.TIL_BRK_TAG_MASK, .TIL_BRK_TAG_TAG]
  | .TIL_WDOG => [.TIL_WDOG_LIMIT]
  | .GLM_TIMEOUT_BASE => [.GLM_TIMEOUT_BASE_UNIT_NS]
  | .GLM_STATUS => [.GLM_STATUS_DROPPED, .GLM_STATUS_ADMIN_CODE, .GLM_STATUS_INVAL_BUSY, .GLM_STATUS_ADMIN_BUSY, .GLM_STATUS_ADMIN_ERR]
  | .GLM_ADMIN => [.GLM_ADMIN_OP, .GLM_ADMIN_CTX, .GLM_ADMIN_PID]
  | .GLM_ADMIN_VALUE => [.GLM_ADMIN_VALUE_VALUE]
  | .GLM_XLAT_INVAL => [.GLM_XLAT_INVAL_CTX, .GLM_XLAT_INVAL_ALL, .GLM_XLAT_INVAL_VID]
  | .GLM_BAR_LEAD => [.GLM_BAR_LEAD_ARR_TMO_US, .GLM_BAR_LEAD_LEAD_NS]
  | .GLM_BAR_CFG0 => [.GLM_BAR_CFG0_ENABLE, .GLM_BAR_CFG0_ROOT, .GLM_BAR_CFG0_PARENT, .GLM_BAR_CFG0_CHILDREN, .GLM_BAR_CFG0_CTX, .GLM_BAR_CFG0_ARRIVE, .GLM_BAR_CFG0_RELEASE]
  | .GLM_BAR_CFG1 => [.GLM_BAR_CFG1_ARRIVE_STEP]
  | .GLM_BAR_STATUS => [.GLM_BAR_STATUS_ROUND, .GLM_BAR_STATUS_MISMATCH, .GLM_BAR_STATUS_TIMEOUT, .GLM_BAR_STATUS_LATE, .GLM_BAR_STATUS_ARRIVED]
  | .GLM_BAR_LAST => [.GLM_BAR_LAST_MTIME]
  | .GLM_CTX_CFG => [.GLM_CTX_CFG_TBASE, .GLM_CTX_CFG_TMULT, .GLM_CTX_CFG_TCOUNT]
  | .GLM_CTX_SIG_VALUE => [.GLM_CTX_SIG_VALUE_VALUE]
  | .GLM_CTX_SIG_ID => [.GLM_CTX_SIG_ID_VID]
  | .GLM_CTX_READ => [.GLM_CTX_READ_VID]
  | .GLM_CTX_VALUE => [.GLM_CTX_VALUE_VALUE]
  | .GLM_CTX_NOTIFY => [.GLM_CTX_NOTIFY_ARMED, .GLM_CTX_NOTIFY_VID]
  | .GLM_CTX_NOTIFY_THRESH => [.GLM_CTX_NOTIFY_THRESH_THRESH]
  | .HBM_CFG => [.HBM_CFG_AUTO_SOFT, .HBM_CFG_CE_THRESH, .HBM_CFG_SCRUB_H]
  | .HBM_STATUS => [.HBM_STATUS_FENCED, .HBM_STATUS_UE_SEEN, .HBM_STATUS_CE_SEEN, .HBM_STATUS_REGION_ERR, .HBM_STATUS_RETIRED]
  | .HBM_RETIRE => [.HBM_RETIRE_PAGE]
  | .HBM_RETIRE_CLR => [.HBM_RETIRE_CLR_CLEAR]
  | .HBM_REPAIR => [.HBM_REPAIR_GO_HARD, .HBM_REPAIR_GO_SOFT, .HBM_REPAIR_BUSY, .HBM_REPAIR_FAIL, .HBM_REPAIR_STACK, .HBM_REPAIR_CHANNEL, .HBM_REPAIR_PC, .HBM_REPAIR_BANK, .HBM_REPAIR_ROW, .HBM_REPAIR_LEFT]
  | .HBM_LOG_REGION => [.HBM_LOG_REGION_ENABLE, .HBM_LOG_REGION_BASE_PG, .HBM_LOG_REGION_SIZE_PG]
  | .HBM_MIR_REGION => [.HBM_MIR_REGION_ENABLE, .HBM_MIR_REGION_BASE_PG, .HBM_MIR_REGION_SIZE_PG]
  | .MIL_CFG => [.MIL_CFG_CAP]
  | .FAR_CFG => [.FAR_CFG_WAYS, .FAR_CFG_BIFUR]
  | .FAR_STATUS => [.FAR_STATUS_CAP_GIB, .FAR_STATUS_RATE, .FAR_STATUS_POISON_SEEN, .FAR_STATUS_LINK_DOWN]
  | .CMD_CFG => [.CMD_CFG_CXL, .CMD_CFG_MIRROR, .CMD_CFG_IRQ_NS, .CMD_CFG_POLL_NS]
  | .CMD_DEVWIN => [.CMD_DEVWIN_EN, .CMD_DEVWIN_LIMIT_2M, .CMD_DEVWIN_BASE_2M]
  | .CTX_RING_BASE => [.CTX_RING_BASE_ENABLE, .CTX_RING_BASE_RESUME, .CTX_RING_BASE_SIZE, .CTX_RING_BASE_DBMODE, .CTX_RING_BASE_BASE]
  | .CTX_RING_CFG => [.CTX_RING_CFG_STATE, .CTX_RING_CFG_CTX, .CTX_RING_CFG_HOME, .CTX_RING_CFG_DB_ADDR]
  | .CTX_RING_HEAD => [.CTX_RING_HEAD_HEAD]
  | .CTX_RING_CANCEL => [.CTX_RING_CANCEL_UPTO]
  | .CTX_CFG => [.CTX_CFG_ENABLE, .CTX_CFG_EPOCH]
  | .CTX_PT_ROOT => [.CTX_PT_ROOT_ROOT]
  | .CTX_CTRL => [.CTX_CTRL_RESET, .CTX_CTRL_RESUME]
  | .CTX_STATUS => [.CTX_STATUS_EPOCH, .CTX_STATUS_FROZEN, .CTX_STATUS_STATE]
  | .CTX_EQ_CFG => [.CTX_EQ_CFG_ENABLE, .CTX_EQ_CFG_SIZE, .CTX_EQ_CFG_LOST, .CTX_EQ_CFG_BASE]
  | .CTX_CQ_CFG => [.CTX_CQ_CFG_ENABLE, .CTX_CQ_CFG_SIZE, .CTX_CQ_CFG_LOST, .CTX_CQ_CFG_BASE]
  | .CTX_EQ_POS => [.CTX_EQ_POS_PROD, .CTX_EQ_POS_CONS]
  | .CTX_CQ_POS => [.CTX_CQ_POS_PROD, .CTX_CQ_POS_CONS]
  | .CTX_TLB_INVAL => [.CTX_TLB_INVAL_BUSY, .CTX_TLB_INVAL_ALL, .CTX_TLB_INVAL_CVA]
  | .LNK_CFG => [.LNK_CFG_ENABLE, .LNK_CFG_AUTO_RETRAIN, .LNK_CFG_RETRAIN, .LNK_CFG_PAUSE_GO, .LNK_CFG_PAUSE_10NS, .LNK_CFG_PAUSE_MAX_US, .LNK_CFG_CTL_WAIT_NS, .LNK_CFG_MIN_CH]
  | .LNK_STATUS => [.LNK_STATUS_STATE, .LNK_STATUS_NACT_TX, .LNK_STATUS_NACT_RX, .LNK_STATUS_GEN_TX, .LNK_STATUS_GEN_RX, .LNK_STATUS_PAUSED, .LNK_STATUS_DOWN_EVT, .LNK_STATUS_IDENT_ERR, .LNK_STATUS_BYPASS_CHG, .LNK_STATUS_SPARE_USED, .LNK_STATUS_CH_REMOVED, .LNK_STATUS_PAUSE_LONG]
  | .LNK_PEER => [.LNK_PEER_BOOT, .LNK_PEER_BYPASS, .LNK_PEER_TXPORT, .LNK_PEER_NODE_ID]
  | .LNK_CHFAIL_TX => [.LNK_CHFAIL_TX_FAILED]
  | .LNK_CHFAIL_RX => [.LNK_CHFAIL_RX_FAILED]
  | .LNK_CHFUSE_TX => [.LNK_CHFUSE_TX_FUSE, .LNK_CHFUSE_TX_FUSED]
  | .LNK_CHFUSE_RX => [.LNK_CHFUSE_RX_FUSE, .LNK_CHFUSE_RX_FUSED]
  | .LNK_MAP_TX => [.LNK_MAP_TX_VALID0, .LNK_MAP_TX_VALID1, .LNK_MAP_TX_VALID2, .LNK_MAP_TX_VALID3, .LNK_MAP_TX_VALID4, .LNK_MAP_TX_VALID5, .LNK_MAP_TX_VALID6, .LNK_MAP_TX_VALID7, .LNK_MAP_TX_LAMBDA0, .LNK_MAP_TX_LAMBDA1, .LNK_MAP_TX_LAMBDA2, .LNK_MAP_TX_LAMBDA3, .LNK_MAP_TX_LAMBDA4, .LNK_MAP_TX_LAMBDA5, .LNK_MAP_TX_LAMBDA6, .LNK_MAP_TX_LAMBDA7, .LNK_MAP_TX_FIBRE0, .LNK_MAP_TX_FIBRE1, .LNK_MAP_TX_FIBRE2, .LNK_MAP_TX_FIBRE3, .LNK_MAP_TX_FIBRE4, .LNK_MAP_TX_FIBRE5, .LNK_MAP_TX_FIBRE6, .LNK_MAP_TX_FIBRE7]
  | .LNK_MAP_RX => [.LNK_MAP_RX_VALID0, .LNK_MAP_RX_VALID1, .LNK_MAP_RX_VALID2, .LNK_MAP_RX_VALID3, .LNK_MAP_RX_VALID4, .LNK_MAP_RX_VALID5, .LNK_MAP_RX_VALID6, .LNK_MAP_RX_VALID7, .LNK_MAP_RX_LAMBDA0, .LNK_MAP_RX_LAMBDA1, .LNK_MAP_RX_LAMBDA2, .LNK_MAP_RX_LAMBDA3, .LNK_MAP_RX_LAMBDA4, .LNK_MAP_RX_LAMBDA5, .LNK_MAP_RX_LAMBDA6, .LNK_MAP_RX_LAMBDA7, .LNK_MAP_RX_FIBRE0, .LNK_MAP_RX_FIBRE1, .LNK_MAP_RX_FIBRE2, .LNK_MAP_RX_FIBRE3, .LNK_MAP_RX_FIBRE4, .LNK_MAP_RX_FIBRE5, .LNK_MAP_RX_FIBRE6, .LNK_MAP_RX_FIBRE7]
  | .LNK_CNT => [.LNK_CNT_UNCORR, .LNK_CNT_CORR_SYM]
  | .LNK_CNT2 => [.LNK_CNT2_REPLAYS, .LNK_CNT2_REMAPS]
  | .LNK_GUEST => [.LNK_GUEST_VENDOR, .LNK_GUEST_DEVICE, .LNK_GUEST_FW, .LNK_GUEST_MOD_OK, .LNK_GUEST_RATE, .LNK_GUEST_ADMIT, .LNK_GUEST_ADMITTED]
  | .FAB_NODE => [.FAB_NODE_PART, .FAB_NODE_NODE_ID]
  | .FAB_AXIS => [.FAB_AXIS_LINE, .FAB_AXIS_AUTO, .FAB_AXIS_BREAK, .FAB_AXIS_DATELINE, .FAB_AXIS_LEN_M1]
  | .FAB_ABSENT => [.FAB_ABSENT_ABSENT]
  | .FAB_CTRL => [.FAB_CTRL_INJ_HOLD, .FAB_CTRL_DRAINED, .FAB_CTRL_RT_REFUSED, .FAB_CTRL_STRICT, .FAB_CTRL_FENCE, .FAB_CTRL_AGE_NS, .FAB_CTRL_ESC_WAIT_NS]
  | .FAB_TIMER => [.FAB_TIMER_GAP_US, .FAB_TIMER_RTO_US, .FAB_TIMER_RETRY_MAX, .FAB_TIMER_ACK_US]
  | .FAB_POOL => [.FAB_POOL_REORD_MIB, .FAB_POOL_RETAIN_MIB]
  | .FAB_FLOW_SEL => [.FAB_FLOW_SEL_GO, .FAB_FLOW_SEL_DIR, .FAB_FLOW_SEL_OP, .FAB_FLOW_SEL_BUSY, .FAB_FLOW_SEL_REFUSED, .FAB_FLOW_SEL_FLOW]
  | .FAB_FLOW_DATA => [.FAB_FLOW_DATA_PEER_FLOW, .FAB_FLOW_DATA_WIN_M1, .FAB_FLOW_DATA_CTX, .FAB_FLOW_DATA_TILE, .FAB_FLOW_DATA_PEER_NODE]
  | .FAB_FLOW_SEQ => [.FAB_FLOW_SEQ_NEXT, .FAB_FLOW_SEQ_MARK]
  | .FAB_CNT0 => [.FAB_CNT0_RESENDS, .FAB_CNT0_DUPS]
  | .FAB_CNT1 => [.FAB_CNT1_STRANDED, .FAB_CNT1_DROPS]
  | .COL_CFG => [.COL_CFG_POOL_MIB]
  | .COL_CNT => [.COL_CNT_RESIDUE, .COL_CNT_DROPS]
  | .COL_GRP_CFG0 => [.COL_GRP_CFG0_ARM, .COL_GRP_CFG0_OP, .COL_GRP_CFG0_EXACT, .COL_GRP_CFG0_AXIS, .COL_GRP_CFG0_NRANK_M1, .COL_GRP_CFG0_CTX, .COL_GRP_CFG0_DONE_VID]
  | .COL_GRP_CFG1 => [.COL_GRP_CFG1_CHUNKS, .COL_GRP_CFG1_FLOW_P, .COL_GRP_CFG1_FLOW_M]
  | .COL_GRP_RES => [.COL_GRP_RES_RES_ADDR]
  | .COL_GRP_TALLY => [.COL_GRP_TALLY_TALLY_ADDR]
  | .COL_GRP_DISP => [.COL_GRP_DISP_CAP, .COL_GRP_DISP_ROW32]
  | .COL_GRP_STATUS => [.COL_GRP_STATUS_ROUND, .COL_GRP_STATUS_LINE_PLAN, .COL_GRP_STATUS_RESIDUE, .COL_GRP_STATUS_FAILED, .COL_GRP_STATUS_DROP, .COL_GRP_STATUS_PUSH_ERR, .COL_GRP_STATUS_REFUSED, .COL_GRP_STATUS_BUSY]
  | .COL_MEMBER => [.COL_MEMBER_NODE_ID]
  | .MGT_DET_CTRL => [.MGT_DET_CTRL_EVT_CLR, .MGT_DET_CTRL_PORTABLE, .MGT_DET_CTRL_STRICT]
  | .MGT_DET_STATUS => [.MGT_DET_STATUS_MIXED, .MGT_DET_STATUS_REFUSED, .MGT_DET_STATUS_STRETCH_SEEN, .MGT_DET_STATUS_DUMAP_CHG, .MGT_DET_STATUS_PORTABLE_HELD, .MGT_DET_STATUS_STRICT_HELD]
  | .MGT_DET_EVT => [.MGT_DET_EVT_STRETCHES, .MGT_DET_EVT_HOLDS, .MGT_DET_EVT_DUMAP_CHANGES, .MGT_DET_EVT_PORT_CHANGES]
  | .MGT_DET_FPRINT => [.MGT_DET_FPRINT_FPRINT]
  | .MGT_DET_DUMAP_LO => [.MGT_DET_DUMAP_LO_PT_LO]
  | .MGT_DET_DUMAP_HI => [.MGT_DET_DUMAP_HI_FENCED, .MGT_DET_DUMAP_HI_PT_HI]
  | .SHF_SPARE => [.SHF_SPARE_MAP, .SHF_SPARE_FUSE, .SHF_SPARE_RENUMBER, .SHF_SPARE_FENCE, .SHF_SPARE_BUSY, .SHF_SPARE_N, .SHF_SPARE_SPARES_LEFT, .SHF_SPARE_ENABLED_M1]
  | .HBM_MIR_CTRL => [.HBM_MIR_CTRL_ENABLE, .HBM_MIR_CTRL_FLOW, .HBM_MIR_CTRL_CTX, .HBM_MIR_CTRL_SYNC_VID, .HBM_MIR_CTRL_DONE_VID]
  | .HBM_MIR_STATUS => [.HBM_MIR_STATUS_GEN, .HBM_MIR_STATUS_DISCARD, .HBM_MIR_STATUS_BUSY]
  | .HBM_MIR_SRC => [.HBM_MIR_SRC_EN, .HBM_MIR_SRC_BASE_PG, .HBM_MIR_SRC_SIZE_PG]
  | .HBM_LOG_CTRL => [.HBM_LOG_CTRL_ENABLE, .HBM_LOG_CTRL_SLOT, .HBM_LOG_CTRL_CTX]
  | .HBM_LOG_STATUS => [.HBM_LOG_STATUS_RECORDS, .HBM_LOG_STATUS_OVF]
  | .HBM_LOG_REPLAY => [.HBM_LOG_REPLAY_GO, .HBM_LOG_REPLAY_BUSY, .HBM_LOG_REPLAY_FAIL, .HBM_LOG_REPLAY_FLOW]
  | .FAB_FLOW_TRIM => [.FAB_FLOW_TRIM_GO, .FAB_FLOW_TRIM_BUSY, .FAB_FLOW_TRIM_FLOW, .FAB_FLOW_TRIM_SIGS]
  | .FAB_FLOW_SKIP => [.FAB_FLOW_SKIP_GO, .FAB_FLOW_SKIP_FLOW, .FAB_FLOW_SKIP_SKIP]
  | .FAB_ALIAS => [.FAB_ALIAS_EN, .FAB_ALIAS_TO_NODE, .FAB_ALIAS_FROM_NODE]
  | .COL_GRP_PROXY => [.COL_GRP_PROXY_EN, .COL_GRP_PROXY_ROUND_SET, .COL_GRP_PROXY_PROXY_NODE]
  | .HLT_MARGIN_CFG => [.HLT_MARGIN_CFG_EN, .HLT_MARGIN_CFG_PERIOD_S]
  | .HLT_MARGIN_SHF => [.HLT_MARGIN_SHF_V_MV, .HLT_MARGIN_SHF_T_PS, .HLT_MARGIN_SHF_T_TILLER, .HLT_MARGIN_SHF_LIMIT, .HLT_MARGIN_SHF_WARN]
  | .HLT_MARGIN_PORT => [.HLT_MARGIN_PORT_O_DB10, .HLT_MARGIN_PORT_O_CH, .HLT_MARGIN_PORT_LIMIT, .HLT_MARGIN_PORT_WARN]
  | .PWR_STATUS => [.PWR_STATUS_POWER_W, .PWR_STATUS_VIN, .PWR_STATUS_TJ_MAX, .PWR_STATUS_THERM, .PWR_STATUS_STATE, .PWR_STATUS_START_STEP, .PWR_STATUS_HOLDOVER, .PWR_STATUS_AUX_ON_MAIN, .PWR_STATUS_CLAMPED, .PWR_STATUS_HOLD_SEEN, .PWR_STATUS_MAIN_GOOD, .PWR_STATUS_READY]
  | .PWR_CTRL => [.PWR_CTRL_MAIN_ON, .PWR_CTRL_OFF, .PWR_CTRL_RESET]
  | .PWR_CFG => [.PWR_CFG_AUTO_ON, .PWR_CFG_VLOOP_EN, .PWR_CFG_HOLD_MAX_MS, .PWR_CFG_V_TARGET_MV]
  | .PWR_CLK_PLAN => [.PWR_CLK_PLAN_FREQ_REQ_MHZ, .PWR_CLK_PLAN_FREQ_NOW_MHZ, .PWR_CLK_PLAN_FMAX_MHZ]
  | .PWR_CAP => [.PWR_CAP_CAP_W, .PWR_CAP_EXCURSIONS]
  | .PWR_STRETCH => [.PWR_STRETCH_EN, .PWR_STRETCH_SLOT, .PWR_STRETCH_LEAD_US, .PWR_STRETCH_LAST, .PWR_STRETCH_REQ]
  | .PWR_DORMANT => [.PWR_DORMANT_ENTER, .PWR_DORMANT_WAKE, .PWR_DORMANT_REFUSED, .PWR_DORMANT_CAUSE]
  | .PWR_WAKE_AT => [.PWR_WAKE_AT_MTIME]
  | .PWR_LASER => [.PWR_LASER_APPLIED, .PWR_LASER_TARGET_DB10]
  | .PWR_MTIME => [.PWR_MTIME_MTIME]
  | .PWR_MTIME_SET => [.PWR_MTIME_SET_VALUE]
  | .HLT_EOL => [.HLT_EOL_MONTHS, .HLT_EOL_KIND, .HLT_EOL_UNIT, .HLT_EOL_WARN_MONTHS, .HLT_EOL_WARN]
  | .OBS_CAP => [.OBS_CAP_HBM_GBPS, .OBS_CAP_LINK_MBPS]
  | .OBS_STATUS => [.OBS_STATUS_TEL_LOST, .OBS_STATUS_TRC_LOST, .OBS_STATUS_REMOTE_ERR, .OBS_STATUS_CAP_LINK, .OBS_STATUS_CAP_HBM]
  | .OBS_SAMPLE => [.OBS_SAMPLE_EN, .OBS_SAMPLE_SOURCES, .OBS_SAMPLE_PERIOD_NS]
  | .OBS_CMDREC => [.OBS_CMDREC_EN, .OBS_CMDREC_ALL_CTX, .OBS_CMDREC_CTX]
  | .OBS_TRACE => [.OBS_TRACE_EN, .OBS_TRACE_ALL_CTX, .OBS_TRACE_SHIFT, .OBS_TRACE_CTX, .OBS_TRACE_KINDS]
  | .OBS_TEL_RING => [.OBS_TEL_RING_ENABLE, .OBS_TEL_RING_WRAP, .OBS_TEL_RING_REMOTE, .OBS_TEL_RING_SIZE, .OBS_TEL_RING_BASE]
  | .OBS_TRC_RING => [.OBS_TRC_RING_ENABLE, .OBS_TRC_RING_WRAP, .OBS_TRC_RING_REMOTE, .OBS_TRC_RING_SIZE, .OBS_TRC_RING_BASE]
  | .OBS_TEL_POS => [.OBS_TEL_POS_PROD, .OBS_TEL_POS_CONS]
  | .OBS_TRC_POS => [.OBS_TRC_POS_PROD, .OBS_TRC_POS_CONS]
  | .OBS_EXPORT => [.OBS_EXPORT_TEL_FLOW, .OBS_EXPORT_TRC_FLOW]
  | .OBS_CAPT_CTRL => [.OBS_CAPT_CTRL_ARM, .OBS_CAPT_CTRL_SALT_EN, .OBS_CAPT_CTRL_CTX, .OBS_CAPT_CTRL_SALT, .OBS_CAPT_CTRL_TENSOR_ID]
  | .OBS_CAPT_STEP => [.OBS_CAPT_STEP_STEP]
  | .OBS_CAPT_BASE => [.OBS_CAPT_BASE_BASE]
  | .OBS_CAPT_LEN => [.OBS_CAPT_LEN_LEN]
  | .OBS_CAPT_STATUS => [.OBS_CAPT_STATUS_MATCHES, .OBS_CAPT_STATUS_FMT, .OBS_CAPT_STATUS_FMT_MISMATCH, .OBS_CAPT_STATUS_ALIGN, .OBS_CAPT_STATUS_OVER, .OBS_CAPT_STATUS_ACTIVE]
  | .OBS_CAPT_COUNT => [.OBS_CAPT_COUNT_ELEMENTS]
  | .TIL_OBS_CYC => [.TIL_OBS_CYC_CYCLES]
  | .TIL_OBS_MAC => [.TIL_OBS_MAC_MACS]
  | .TIL_OBS_INST => [.TIL_OBS_INST_INSTR]
  | .TIL_OBS_CTRL => [.TIL_OBS_CTRL_CLR]
  | .TIL_OBS_BANK => [.TIL_OBS_BANK_CYCLES]
  | .OBS_CTX_ANOM => [.OBS_CTX_ANOM_COUNT]
  | .MGT_PRESENCE => [.MGT_PRESENCE_OPEN, .MGT_PRESENCE_REMAIN_S]
  | .MGT_AUDIT_SEQ => [.MGT_AUDIT_SEQ_NEXT]
  | .MGT_AUDIT_STAT => [.MGT_AUDIT_STAT_LOST, .MGT_AUDIT_STAT_UNFLUSHED, .MGT_AUDIT_STAT_MTIME_UNSET, .MGT_AUDIT_STAT_WRAP, .MGT_AUDIT_STAT_CLEAR]
  | .MGT_FW => [.MGT_FW_ACTIVATE, .MGT_FW_CONFIRM, .MGT_FW_TRIAL, .MGT_FW_SLOT, .MGT_FW_STAGE, .MGT_FW_RUN_VER]
  | .MGT_FW_VER => [.MGT_FW_VER_RAISE, .MGT_FW_VER_STAGED_VER, .MGT_FW_VER_MIN_VER]
  | .MGT_DEBUG => [.MGT_DEBUG_UNLOCK, .MGT_DEBUG_LOCK, .MGT_DEBUG_UNLOCKED]
  | .MGT_PEER => [.MGT_PEER_GO, .MGT_PEER_BUSY, .MGT_PEER_RESULT, .MGT_PEER_NODE]
  | .MGT_FENCED => [.MGT_FENCED_SHEAF, .MGT_FENCED_STACK, .MGT_FENCED_PORT, .MGT_FENCED_EVT]
  | .SEC_KEYHASH => [.SEC_KEYHASH_HASH]
  | .SEC_STATUS => [.SEC_STATUS_ALLOW_COUNT, .SEC_STATUS_ALLOW_LOADED, .SEC_STATUS_KEY_FUSED]
  | .SEC_ALLOW => [.SEC_ALLOW_VENDOR, .SEC_ALLOW_DEVICE, .SEC_ALLOW_MIN_FW, .SEC_ALLOW_VALID]

/-- Where each register lies (the offsets of the headings of spec/). -/
def regTable : List RegInfo :=
  [⟨.TIL_MA_CTRL, .til, 0x800, 0x0, 1, 0, 1⟩,
   ⟨.TIL_MA_STATUS, .til, 0x808, 0x0, 1, 0, 1⟩,
   ⟨.TIL_MA_FRONT_STALL, .til, 0x810, 0x0, 1, 0, 1⟩,
   ⟨.TIL_VE_CTRL, .til, 0xa00, 0x0, 1, 0, 1⟩,
   ⟨.TIL_VE_STATUS, .til, 0xa08, 0x0, 1, 0, 1⟩,
   ⟨.TIL_VE_TQ_WAIT, .til, 0xa10, 0x0, 1, 0, 1⟩,
   ⟨.TIL_VE_STAT_STALL, .til, 0xa18, 0x0, 1, 0, 1⟩,
   ⟨.TIL_PARAM, .til, 0x0, 0x8, 256, 0, 1⟩,
   ⟨.TIL_PROG_CTRL, .til, 0xc00, 0x0, 1, 0, 1⟩,
   ⟨.TIL_PROG_STATUS, .til, 0xc08, 0x0, 1, 0, 1⟩,
   ⟨.TIL_PROG_IMAGE, .til, 0xc10, 0x0, 1, 0, 1⟩,
   ⟨.TIL_CMD_COUNT, .til, 0xc18, 0x0, 1, 0, 1⟩,
   ⟨.TIL_BRK_CTRL, .til, 0xc20, 0x0, 1, 0, 1⟩,
   ⟨.TIL_BRK_CMD, .til, 0xc28, 0x0, 1, 0, 1⟩,
   ⟨.TIL_BRK_TAG, .til, 0xc30, 0x0, 1, 0, 1⟩,
   ⟨.TIL_WDOG, .til, 0xc38, 0x0, 1, 0, 1⟩,
   ⟨.GLM_TIMEOUT_BASE, .bar0, 0x200000, 0x0, 1, 0, 1⟩,
   ⟨.GLM_STATUS, .bar0, 0x200008, 0x0, 1, 0, 1⟩,
   ⟨.GLM_ADMIN, .bar0, 0x200010, 0x0, 1, 0, 1⟩,
   ⟨.GLM_ADMIN_VALUE, .bar0, 0x200018, 0x0, 1, 0, 1⟩,
   ⟨.GLM_XLAT_INVAL, .bar0, 0x200020, 0x0, 1, 0, 1⟩,
   ⟨.GLM_BAR_LEAD, .bar0, 0x200028, 0x0, 1, 0, 1⟩,
   ⟨.GLM_BAR_CFG0, .bar0, 0x200100, 0x20, 16, 0, 1⟩,
   ⟨.GLM_BAR_CFG1, .bar0, 0x200108, 0x20, 16, 0, 1⟩,
   ⟨.GLM_BAR_STATUS, .bar0, 0x200110, 0x20, 16, 0, 1⟩,
   ⟨.GLM_BAR_LAST, .bar0, 0x200118, 0x20, 16, 0, 1⟩,
   ⟨.GLM_CTX_CFG, .bar0, 0x210000, 0x8, 4096, 0, 1⟩,
   ⟨.GLM_CTX_SIG_VALUE, .ctx, 0x2000, 0x0, 1, 0, 1⟩,
   ⟨.GLM_CTX_SIG_ID, .ctx, 0x2008, 0x0, 1, 0, 1⟩,
   ⟨.GLM_CTX_READ, .ctx, 0x2010, 0x0, 1, 0, 1⟩,
   ⟨.GLM_CTX_VALUE, .ctx, 0x2018, 0x0, 1, 0, 1⟩,
   ⟨.GLM_CTX_NOTIFY, .ctx, 0x2020, 0x0, 1, 0, 1⟩] ++
  [⟨.GLM_CTX_NOTIFY_THRESH, .ctx, 0x2028, 0x0, 1, 0, 1⟩,
   ⟨.HBM_CFG, .bar0, 0x500000, 0x0, 1, 0, 1⟩,
   ⟨.HBM_STATUS, .bar0, 0x500008, 0x0, 1, 0, 1⟩,
   ⟨.HBM_RETIRE, .bar0, 0x500010, 0x0, 1, 0, 1⟩,
   ⟨.HBM_RETIRE_CLR, .bar0, 0x500018, 0x0, 1, 0, 1⟩,
   ⟨.HBM_REPAIR, .bar0, 0x500020, 0x0, 1, 0, 1⟩,
   ⟨.HBM_LOG_REGION, .bar0, 0x500030, 0x0, 1, 0, 1⟩,
   ⟨.HBM_MIR_REGION, .bar0, 0x500038, 0x0, 1, 0, 1⟩,
   ⟨.MIL_CFG, .bar0, 0x500040, 0x0, 1, 0, 1⟩,
   ⟨.FAR_CFG, .bar0, 0x500048, 0x0, 1, 0, 1⟩,
   ⟨.FAR_STATUS, .bar0, 0x500050, 0x0, 1, 0, 1⟩,
   ⟨.CMD_CFG, .bar0, 0x100000, 0x0, 1, 0, 1⟩,
   ⟨.CMD_DEVWIN, .bar0, 0x100100, 0x8, 8, 0, 1⟩,
   ⟨.CTX_RING_BASE, .ring, 0x0, 0x0, 1, 0, 1⟩,
   ⟨.CTX_RING_CFG, .ring, 0x8, 0x0, 1, 0, 1⟩,
   ⟨.CTX_RING_HEAD, .ring, 0x10, 0x0, 1, 0, 1⟩,
   ⟨.CTX_RING_CANCEL, .ring, 0x18, 0x0, 1, 0, 1⟩,
   ⟨.CTX_CFG, .bar0, 0x190000, 0x10, 4096, 0, 1⟩,
   ⟨.CTX_PT_ROOT, .bar0, 0x190008, 0x10, 4096, 0, 1⟩,
   ⟨.CTX_CTRL, .ctx, 0x0, 0x0, 1, 0, 1⟩,
   ⟨.CTX_STATUS, .ctx, 0x8, 0x0, 1, 0, 1⟩,
   ⟨.CTX_EQ_CFG, .ctx, 0x10, 0x0, 1, 0, 1⟩,
   ⟨.CTX_CQ_CFG, .ctx, 0x20, 0x0, 1, 0, 1⟩,
   ⟨.CTX_EQ_POS, .ctx, 0x18, 0x0, 1, 0, 1⟩,
   ⟨.CTX_CQ_POS, .ctx, 0x28, 0x0, 1, 0, 1⟩,
   ⟨.CTX_TLB_INVAL, .ctx, 0x30, 0x0, 1, 0, 1⟩,
   ⟨.LNK_CFG, .bar0, 0x340000, 0x1000, 8, 0, 1⟩,
   ⟨.LNK_STATUS, .bar0, 0x340008, 0x1000, 8, 0, 1⟩,
   ⟨.LNK_PEER, .bar0, 0x340010, 0x1000, 8, 0, 1⟩,
   ⟨.LNK_CHFAIL_TX, .bar0, 0x340018, 0x1000, 8, 0, 1⟩,
   ⟨.LNK_CHFAIL_RX, .bar0, 0x340020, 0x1000, 8, 0, 1⟩,
   ⟨.LNK_CHFUSE_TX, .bar0, 0x340028, 0x1000, 8, 0, 1⟩] ++
  [⟨.LNK_CHFUSE_RX, .bar0, 0x340030, 0x1000, 8, 0, 1⟩,
   ⟨.LNK_MAP_TX, .bar0, 0x340040, 0x1000, 8, 8, 4⟩,
   ⟨.LNK_MAP_RX, .bar0, 0x340060, 0x1000, 8, 8, 4⟩,
   ⟨.LNK_CNT, .bar0, 0x340080, 0x1000, 8, 0, 1⟩,
   ⟨.LNK_CNT2, .bar0, 0x340088, 0x1000, 8, 0, 1⟩,
   ⟨.LNK_GUEST, .bar0, 0x340090, 0x1000, 8, 0, 1⟩,
   ⟨.FAB_NODE, .bar0, 0x300000, 0x0, 1, 0, 1⟩,
   ⟨.FAB_AXIS, .bar0, 0x300008, 0x8, 4, 0, 1⟩,
   ⟨.FAB_ABSENT, .bar0, 0x300028, 0x8, 4, 0, 1⟩,
   ⟨.FAB_CTRL, .bar0, 0x300048, 0x0, 1, 0, 1⟩,
   ⟨.FAB_TIMER, .bar0, 0x300050, 0x0, 1, 0, 1⟩,
   ⟨.FAB_POOL, .bar0, 0x300058, 0x0, 1, 0, 1⟩,
   ⟨.FAB_FLOW_SEL, .bar0, 0x300060, 0x0, 1, 0, 1⟩,
   ⟨.FAB_FLOW_DATA, .bar0, 0x300068, 0x0, 1, 0, 1⟩,
   ⟨.FAB_FLOW_SEQ, .bar0, 0x300070, 0x0, 1, 0, 1⟩,
   ⟨.FAB_CNT0, .bar0, 0x300080, 0x0, 1, 0, 1⟩,
   ⟨.FAB_CNT1, .bar0, 0x300088, 0x0, 1, 0, 1⟩,
   ⟨.COL_CFG, .bar0, 0x400000, 0x0, 1, 0, 1⟩,
   ⟨.COL_CNT, .bar0, 0x400008, 0x0, 1, 0, 1⟩,
   ⟨.COL_GRP_CFG0, .bar0, 0x401000, 0x40, 256, 0, 1⟩,
   ⟨.COL_GRP_CFG1, .bar0, 0x401008, 0x40, 256, 0, 1⟩,
   ⟨.COL_GRP_RES, .bar0, 0x401010, 0x40, 256, 0, 1⟩,
   ⟨.COL_GRP_TALLY, .bar0, 0x401020, 0x40, 256, 0, 1⟩,
   ⟨.COL_GRP_DISP, .bar0, 0x401018, 0x40, 256, 0, 1⟩,
   ⟨.COL_GRP_STATUS, .bar0, 0x401028, 0x40, 256, 0, 1⟩,
   ⟨.COL_MEMBER, .bar0, 0x410000, 0x200, 256, 8, 64⟩,
   ⟨.MGT_DET_CTRL, .bar0, 0x400, 0x0, 1, 0, 1⟩,
   ⟨.MGT_DET_STATUS, .bar0, 0x408, 0x0, 1, 0, 1⟩,
   ⟨.MGT_DET_EVT, .bar0, 0x410, 0x0, 1, 0, 1⟩,
   ⟨.MGT_DET_FPRINT, .bar0, 0x418, 0x8, 4, 0, 1⟩,
   ⟨.MGT_DET_DUMAP_LO, .bar0, 0x440, 0x10, 12, 0, 1⟩,
   ⟨.MGT_DET_DUMAP_HI, .bar0, 0x448, 0x10, 12, 0, 1⟩] ++
  [⟨.SHF_SPARE, .bar0, 0x1001000, 0x100000, 12, 0, 1⟩,
   ⟨.HBM_MIR_CTRL, .bar0, 0x500060, 0x0, 1, 0, 1⟩,
   ⟨.HBM_MIR_STATUS, .bar0, 0x500068, 0x0, 1, 0, 1⟩,
   ⟨.HBM_MIR_SRC, .bar0, 0x500070, 0x8, 8, 0, 1⟩,
   ⟨.HBM_LOG_CTRL, .bar0, 0x5000b0, 0x0, 1, 0, 1⟩,
   ⟨.HBM_LOG_STATUS, .bar0, 0x5000b8, 0x0, 1, 0, 1⟩,
   ⟨.HBM_LOG_REPLAY, .bar0, 0x5000c0, 0x0, 1, 0, 1⟩,
   ⟨.FAB_FLOW_TRIM, .bar0, 0x300090, 0x0, 1, 0, 1⟩,
   ⟨.FAB_FLOW_SKIP, .bar0, 0x300098, 0x0, 1, 0, 1⟩,
   ⟨.FAB_ALIAS, .bar0, 0x300100, 0x8, 16, 0, 1⟩,
   ⟨.COL_GRP_PROXY, .bar0, 0x401030, 0x40, 256, 0, 1⟩,
   ⟨.HLT_MARGIN_CFG, .bar0, 0x600800, 0x0, 1, 0, 1⟩,
   ⟨.HLT_MARGIN_SHF, .bar0, 0x600808, 0x8, 12, 0, 1⟩,
   ⟨.HLT_MARGIN_PORT, .bar0, 0x600868, 0x8, 8, 0, 1⟩,
   ⟨.PWR_STATUS, .bar0, 0x600000, 0x0, 1, 0, 1⟩,
   ⟨.PWR_CTRL, .bar0, 0x600008, 0x0, 1, 0, 1⟩,
   ⟨.PWR_CFG, .bar0, 0x600010, 0x0, 1, 0, 1⟩,
   ⟨.PWR_CLK_PLAN, .bar0, 0x600018, 0x0, 1, 0, 1⟩,
   ⟨.PWR_CAP, .bar0, 0x600020, 0x0, 1, 0, 1⟩,
   ⟨.PWR_STRETCH, .bar0, 0x600028, 0x0, 1, 0, 1⟩,
   ⟨.PWR_DORMANT, .bar0, 0x600030, 0x0, 1, 0, 1⟩,
   ⟨.PWR_WAKE_AT, .bar0, 0x600038, 0x0, 1, 0, 1⟩,
   ⟨.PWR_LASER, .bar0, 0x600040, 0x0, 1, 0, 1⟩,
   ⟨.PWR_MTIME, .bar0, 0x600048, 0x0, 1, 0, 1⟩,
   ⟨.PWR_MTIME_SET, .bar0, 0x600050, 0x0, 1, 0, 1⟩,
   ⟨.HLT_EOL, .bar0, 0x600400, 0x0, 1, 0, 1⟩,
   ⟨.OBS_CAP, .bar0, 0x700000, 0x0, 1, 0, 1⟩,
   ⟨.OBS_STATUS, .bar0, 0x700008, 0x0, 1, 0, 1⟩,
   ⟨.OBS_SAMPLE, .bar0, 0x700010, 0x0, 1, 0, 1⟩,
   ⟨.OBS_CMDREC, .bar0, 0x700018, 0x0, 1, 0, 1⟩,
   ⟨.OBS_TRACE, .bar0, 0x700020, 0x0, 1, 0, 1⟩,
   ⟨.OBS_TEL_RING, .bar0, 0x700028, 0x0, 1, 0, 1⟩] ++
  [⟨.OBS_TRC_RING, .bar0, 0x700038, 0x0, 1, 0, 1⟩,
   ⟨.OBS_TEL_POS, .bar0, 0x700030, 0x0, 1, 0, 1⟩,
   ⟨.OBS_TRC_POS, .bar0, 0x700040, 0x0, 1, 0, 1⟩,
   ⟨.OBS_EXPORT, .bar0, 0x700048, 0x0, 1, 0, 1⟩,
   ⟨.OBS_CAPT_CTRL, .bar0, 0x700100, 0x40, 8, 0, 1⟩,
   ⟨.OBS_CAPT_STEP, .bar0, 0x700108, 0x40, 8, 0, 1⟩,
   ⟨.OBS_CAPT_BASE, .bar0, 0x700110, 0x40, 8, 0, 1⟩,
   ⟨.OBS_CAPT_LEN, .bar0, 0x700118, 0x40, 8, 0, 1⟩,
   ⟨.OBS_CAPT_STATUS, .bar0, 0x700120, 0x40, 8, 0, 1⟩,
   ⟨.OBS_CAPT_COUNT, .bar0, 0x700128, 0x40, 8, 0, 1⟩,
   ⟨.TIL_OBS_CYC, .til, 0xd00, 0x8, 16, 0, 1⟩,
   ⟨.TIL_OBS_MAC, .til, 0xd80, 0x0, 1, 0, 1⟩,
   ⟨.TIL_OBS_INST, .til, 0xd88, 0x0, 1, 0, 1⟩,
   ⟨.TIL_OBS_CTRL, .til, 0xd90, 0x0, 1, 0, 1⟩,
   ⟨.TIL_OBS_BANK, .til, 0xd98, 0x0, 1, 0, 1⟩,
   ⟨.OBS_CTX_ANOM, .ctx, 0x100, 0x8, 7, 0, 1⟩,
   ⟨.MGT_PRESENCE, .bar0, 0x0, 0x0, 1, 0, 1⟩,
   ⟨.MGT_AUDIT_SEQ, .bar0, 0x8, 0x0, 1, 0, 1⟩,
   ⟨.MGT_AUDIT_STAT, .bar0, 0x10, 0x0, 1, 0, 1⟩,
   ⟨.MGT_FW, .bar0, 0x18, 0x0, 1, 0, 1⟩,
   ⟨.MGT_FW_VER, .bar0, 0x20, 0x0, 1, 0, 1⟩,
   ⟨.MGT_DEBUG, .bar0, 0x28, 0x0, 1, 0, 1⟩,
   ⟨.MGT_PEER, .bar0, 0x30, 0x0, 1, 0, 1⟩,
   ⟨.MGT_FENCED, .bar0, 0x38, 0x0, 1, 0, 1⟩,
   ⟨.SEC_KEYHASH, .bar0, 0x800000, 0x8, 6, 0, 1⟩,
   ⟨.SEC_STATUS, .bar0, 0x800030, 0x0, 1, 0, 1⟩,
   ⟨.SEC_ALLOW, .bar0, 0x800100, 0x8, 32, 0, 1⟩]

end Sys2Proof.Machine
end

