-- ==== Sys2Proof/Machine/Table.lean ====
section
/-! DEFINITION. Sparse tables: lists of (key, value) pairs. An unlisted key reads as a default. `set` keeps the one
canonical form (keys strictly rising, no entry equal to the default); `put` keeps the keys strictly rising. -/

namespace Sys2Proof.Machine

/-- A sparse table from Nat keys to values. -/
abbrev Table (α : Type) := List (Nat × α)

namespace Tbl

/-- The value at a key; an unlisted key reads as `d`. -/
def get {α : Type} (d : α) : Table α → Nat → α
  | [], _ => d
  | (k', v) :: t, k => if k = k' then v else get d t k

/-- Insert a pair before the first larger key. -/
def ins {α : Type} (k : Nat) (v : α) : Table α → Table α
  | [] => [(k, v)]
  | (k', w) :: t => if k < k' then (k, v) :: (k', w) :: t else (k', w) :: ins k v t

/-- Remove every entry of a key. -/
def del {α : Type} (k : Nat) : Table α → Table α
  | [] => []
  | (k', w) :: t => if k = k' then del k t else (k', w) :: del k t

/-- Write a value, whatever it is. -/
def put {α : Type} (t : Table α) (k : Nat) (v : α) : Table α := ins k v (del k t)

/-- Write a value in canonical form: writing the default removes the entry. -/
def set {α : Type} [DecidableEq α] (d : α) (t : Table α) (k : Nat) (v : α) : Table α :=
  if v = d then del k t else ins k v (del k t)

/-- Every key of `t` is above `k`. -/
def above {α : Type} (k : Nat) : Table α → Bool
  | [] => true
  | (k', _) :: t => decide (k < k') && above k t

/-- Keys strictly rising. -/
def sorted {α : Type} : Table α → Bool
  | [] => true
  | (k, _) :: t => above k t && sorted t

/-- Canonical form: keys strictly rising and no entry equal to what an unlisted key reads as. -/
def wf {α : Type} [DecidableEq α] (d : α) (t : Table α) : Bool :=
  sorted t && t.all (fun e => decide (e.2 ≠ d))

end Tbl
end Sys2Proof.Machine
end

