-- ==== Sys2Proof/Machine/State.lean ====
section
/-! DEFINITION. The state of one Pleino module as plain data, its reset value, and the reasons a command can stop.
Every register field has one home, the table `regs`; what the spec gives the machine besides its registers
(queues, buffers, accumulators, caches, flows, rings in progress) stands in the structures below. -/

namespace Sys2Proof.Machine

/-- Reasons for a fault: none. Every error of the spec is a record, a status bit or a program fault, and the machine
goes on (R65, R173, R299). -/
inductive Fault where
  deriving DecidableEq, Repr

/-- Reasons for a refusal. -/
inductive Refusal where
  /-- Raised by exec for a command with no meaning yet. Safe: the model stops. -/
  | notModelled (mnemonic : String)
  /-- Raised by JTAG_INSTRUCTION for a private instruction while debug is unlocked: the spec says that it takes
  effect and gives no effect (R560). Safe: the model stops. -/
  | jtagPrivate (code : BitVec 8)
  deriving DecidableEq, Repr

/-- A unit as R299 codes it. -/
structure UnitRef where
  kind : Nat
  idx : Nat
  deriving DecidableEq, Repr, Inhabited

/-- An error record (R299), without the fields that the queue gives. -/
structure ErrRec where
  cls : Nat
  ctx : Option Nat
  unit : UnitRef
  detail : Nat
  program : Bool
  freeze : Bool
  deriving DecidableEq, Repr

/-- A record of a class that coalesces, before it is written: its first event, that event's time, and how many events of
the same class, unit and context it stands for (R299). -/
structure Fold where
  first : ErrRec
  since : Nat
  count : Nat
  deriving DecidableEq, Repr

/-! ### A Tiller (R24, R138) -/

/-- An element in the lanes, a tile register, an accumulator or the tile queue: its bits, its poison bit (R124) and
its saturation mark (R70). -/
structure TElem where
  val : Word
  poison : Bool
  sat : Bool
  deriving DecidableEq, Repr, Inhabited

/-- The tail of a wide-and-shallow weight block on its way through a feeder (R96). -/
structure WTail where
  fmt : BitVec 4
  bytes : List PByte
  deriving DecidableEq, Repr, Inhabited

/-- A pass slot of a feeder (R79): M vectors of 32 elements, the format that filled it (R151), a joined tail. -/
structure FeedSlot where
  fmt : BitVec 4
  m : Nat
  elems : List Operand
  tail : Option WTail
  tailOnly : Bool
  kept : Bool
  deriving DecidableEq, Repr, Inhabited

/-- A weight block: 64 columns of 32 elements, column-major, with its format (R151). A WS block waits for its tail:
`need` tail bytes are still missing and `head`, `side` hold what has come (R96). -/
structure WBlock where
  fmt : BitVec 4
  elems : List Operand
  ws : Bool
  need : Nat
  head : List PByte
  side : List PByte
  deriving DecidableEq, Repr, Inhabited

/-- An array's loader: the shadow registers, the second block of a HUSK6 record held behind them (R82, R152), and a
weight tail that has left the feeder and waits for its block's head (R96). -/
structure Loader where
  shadow : Option WBlock
  held : Option WBlock
  tail : Option WTail
  deriving DecidableEq, Repr, Inhabited

/-- A pass that has issued and whose accumulation is not complete (R81, R87). -/
structure PassInPipe where
  inst : Nat
  acc : Nat
  w64 : Bool
  first : Bool
  drain : Bool
  tile : Nat
  rowBase : Nat
  rows : Nat
  g : Nat
  results : List TElem
  deriving DecidableEq, Repr, Inhabited

/-- An accumulator buffer (R88-R90): its rows, the group record, and the tile it will drain into. -/
structure AccBuf where
  w64 : Bool
  rows : Nat
  elems : Table TElem
  g : Option Nat
  finished : Bool
  tile : Nat
  inst : Nat
  deriving DecidableEq, Repr, Inhabited

/-- A tile in the tile queue (R92, R93). -/
structure Tile where
  seq : Nat
  w64 : Bool
  rows : Nat
  elems : Table TElem
  deriving DecidableEq, Repr, Inhabited

/-- What an egress queue holds: bytes, packet ends and signals, in push order (R142, R152, R158). -/
inductive EItem where
  | byte (b : PByte)
  | eop
  | signal (vid : BitVec 16) (value : Word)
  deriving DecidableEq, Repr, Inhabited

/-- A SIGNAL that has been dispatched and has not entered its egress queue yet: it waits for the instructions of smaller dispatch
numbers that push into the queue, and for room (R158). -/
structure SigWait where
  id : Nat
  q : Nat
  vid : BitVec 16
  value : Word
  deriving DecidableEq, Repr, Inhabited

/-- An address generator (R159, R160): its descriptor, its walk, and the bytes already taken from its current run. -/
structure Ag where
  c : List Nat
  st : List Int
  run : Nat
  start : Nat
  i : List Nat
  wraps : Nat
  used : Nat
  deriving DecidableEq, Repr, Inhabited

/-- An instruction in flight (R139, R140): dispatch number, index, word, unit, steps performed and completed, the P
registers it read at dispatch, what its steps have met, and the capture slots that it matches (R533). -/
structure Inst where
  id : Nat
  pc : Nat
  word : BitVec 128
  unit : Nat
  steps : Nat
  done : Nat
  tile : Nat
  conv : List Word
  scal : Word
  poisoned : Nat
  watch : Option Nat
  gfault : Bool
  capt : List Nat
  deriving DecidableEq, Repr, Inhabited

/-- A bank of the reduction unit (R127): binary64 sums and binary32 maxima of 512 accumulators, and the counters of
the record it will give (R70, R71). -/
structure StatBank where
  busy : Bool
  inst : Nat
  sums : Table Word
  maxs : Table Word
  cnts : List Nat
  elements : Nat
  ready : Bool
  deriving DecidableEq, Repr, Inhabited

/-- A Glume wait that is posed (R189, R205). -/
structure WaitPosed where
  vid : BitVec 16
  pid : BitVec 16
  thresh : Word
  since : Nat
  deriving DecidableEq, Repr, Inhabited

/-- The command that a Tiller holds (R279). -/
structure Job where
  ring : BitVec 14
  pos : Nat
  ctx : BitVec 12
  layer : BitVec 16
  operator : BitVec 16
  tag : BitVec 32
  deriving DecidableEq, Repr, Inhabited

/-- A Tiller's state outside its registers and its store. `lastCtx` is the context of its last command, `lastPass` the cycles
for which each array's last pass streams (R84). A tile register has one poison mark for each two bits: every element is a
multiple of two bits wide (R114, R124). -/
structure Tiller where
  bind : Table Word
  ags : Table Ag
  loopCnt : Table Word
  loopHead : Table Nat
  insts : List Inst
  nextId : Nat
  feeders : Table (List FeedSlot)
  loaders : Table Loader
  active : Table WBlock
  pipes : Table (List PassInPipe)
  lastPass : Table Nat
  accs : Table AccBuf
  tiles : List Tile
  tileNext : Nat
  tileHead : Nat
  egress : Table (List EItem)
  sigWait : List SigWait
  ingress : Table (List PByte)
  desc : Table Word
  taken : Table Nat
  vt : Table Byte
  vtPoison : Table Bool
  vtSat : Table Bool
  vtValid : Table Bool
  vm : Table (BitVec 4096)
  banks : Table StatBank
  bankNext : Nat
  wait : Option WaitPosed
  gated : Bool
  halting : Bool
  stepping : Bool
  job : Option Job
  lastCtx : Option (BitVec 12)
  ended : Bool
  wdog : Nat
  deriving DecidableEq, Repr, Inhabited

/-! ### Glumes (R187-R215) -/

inductive GState where
  | free | owned | frozen
  deriving DecidableEq, Repr, Inhabited

/-- A physical Glume (R187, R193). -/
structure Glume where
  st : GState
  owner : BitVec 12
  value : Word
  deriving DecidableEq, Repr, Inhabited

/-- A translated signal on its way to its bank (R188, R191); `host` marks one that a host write sent (R228). -/
structure Sig where
  ctx : BitVec 12
  vid : BitVec 16
  pid : BitVec 16
  value : Word
  host : Bool
  deriving DecidableEq, Repr, Inhabited

/-- An entry of a Glume translation cache (R197). -/
structure GXlat where
  ctx : BitVec 12
  vid : BitVec 16
  entry : BitVec 32
  deriving DecidableEq, Repr, Inhabited

/-- A barrier slot in progress (R212-R215, R502). -/
structure Barrier where
  tokens : BitVec 8
  stretch : BitVec 8
  arrivedAt : Option Nat
  release : Option (Nat × BitVec 16)
  timedOut : Bool
  deriving DecidableEq, Repr, Inhabited

/-! ### Contexts, rings and transfers (R273-R304) -/

/-- An entry of a translation cache: one 4 KiB page of a context (R295), with the address and the level of its leaf. -/
structure TlbEntry where
  ctx : BitVec 12
  page : Nat
  dev : Nat
  w : Bool
  device : Bool
  ptr : Nat
  level : Nat
  deriving DecidableEq, Repr, Inhabited

/-- A record that waits for the translation of its queue's slot (R294): whether it goes to the completion queue, the cache
that translates its slot, its 32 bytes with PHASE clear, and the vectors, by context and number, that it sends when it is written. -/
structure HeldRec where
  cq : Bool
  cache : Nat
  body : BitVec 256
  vecs : List (Nat × Nat)
  deriving DecidableEq, Repr, Inhabited

/-- A context's state outside its registers. -/
structure Context where
  heldWalks : List (Nat × BitVec 4 × UnitRef)
  heldRecs : List HeldRec
  resetAt : Option Nat
  tlbInval : Option (Bool × Nat)
  notify : Option WaitPosed
  vecPending : BitVec 8
  vecLast : Table Nat
  deriving DecidableEq, Repr, Inhabited

/-- A fetched command (R279, R286): its 64 bytes. -/
structure Fetched where
  cmd : BitVec 512
  deriving DecidableEq, Repr, Inhabited

/-- A command that has started (R284, R285). -/
structure Running where
  pos : Nat
  cmd : BitVec 512
  start : Nat
  tillers : List (Nat × Nat)
  ops : Nat
  fault : Option (BitVec 8)
  base : List Nat
  deriving DecidableEq, Repr, Inhabited

/-- A ring's state outside its registers (R275-R290); `imgBuf` and `listBuf` hold what has been read of the head's image, and of
its patch list or its transfer operations, for its start (R288). -/
structure Ring where
  tail : Nat
  badTails : List Word
  fetched : Table Fetched
  running : List Running
  upto : Nat
  waits : List (Option WaitPosed)
  readyAt : Option Nat
  stopped : List (Nat × BitVec 8)
  polledAt : Nat
  imgBuf : List PByte
  listBuf : List PByte
  deriving DecidableEq, Repr, Inhabited

/-- A Millet operation under way (R241-R244): the sectors still to be accessed, none for an index out of range, with their data,
and the results so far. -/
structure MilletWork where
  secs : List (Option Nat)
  data : List PByte
  res : List PByte
  deriving DecidableEq, Repr, Inhabited

/-- A transfer operation in a Sheaf engine (R246, R282). -/
structure XferOp where
  ring : BitVec 14
  pos : Nat
  idx : Nat
  ctx : BitVec 12
  op : BitVec 512
  work : Option MilletWork
  performed : Bool
  deriving DecidableEq, Repr, Inhabited

/-! ### Memory health (R249-R252) -/

/-- A row of a stack with correctable errors (R250), and whether it has raised class 0x41 in this scrub period. -/
structure RowCe where
  stack : Nat
  channel : Nat
  pc : Nat
  bank : Nat
  row : Nat
  count : Nat
  said : Bool
  deriving DecidableEq, Repr, Inhabited

/-- The memory controllers outside their registers: the us of MTIME that the Millet accesses are counted in and how many each
stack has served in it (R244), the rows that wait for their automatic soft repair (R250), when each stack was fenced in
service, the stacks whose data a re-lay has lost, with the sectors of theirs written whole since (R237, R253), and the link
engines whose next far access far memory does not complete (R255). -/
structure MemCtl where
  milWindow : Nat
  milUsed : Table Nat
  autoSoft : List Word
  fencedAt : Table Nat
  lostShare : BitVec 12
  farLate : BitVec 8
  rewritten : Table Bool
  deriving DecidableEq, Repr, Inhabited

/-! ### Packets (R361) and links (R314-R348) -/

/-- A packet: the fields of its header (R361) and its payload. While it is the head of an input buffer, `able` is the time since
which it could have moved, and `stuck` the time since which no productive port has had credit for it (R369, R371). -/
structure Pkt where
  type : Nat
  lane : Bool
  vc : Nat
  dst : BitVec 24
  part : BitVec 8
  src : BitVec 24
  seq : BitVec 32
  eop : Bool
  poison : Bool
  sflow : BitVec 14
  dflow : BitVec 14
  epoch : BitVec 16
  ctx : BitVec 12
  head : BitVec 8
  len : BitVec 16
  addr : Word
  payload : List Byte
  since : Nat
  able : Option Nat := none
  stuck : Option Nat := none
  deriving DecidableEq, Repr, Inhabited

/-- A slot of a stream in the replay buffer: its number, its eight 32-byte units (none where no frame fills a unit), and how
often it has been resent (R329, R333, R335). -/
structure Slot where
  seq : Nat
  units : List (Option (BitVec 256))
  tries : Nat
  deriving DecidableEq, Repr, Inhabited

/-- The sending side of a stream: its next number, the slots that are not acknowledged, oldest first, and the numbers that are
being resent (R329, R333, R334). -/
structure TxStream where
  next : Nat
  sent : List Slot
  resend : List Nat
  deriving DecidableEq, Repr, Inhabited

/-- The receiving side of a stream: the number it expects, whether a NAK names it, and the units received in order that no
packet has taken yet (R329, R334). -/
structure RxStream where
  expect : Nat
  nak : Bool
  units : List (BitVec 256)
  deriving DecidableEq, Repr, Inhabited

/-- One optical port outside its registers. A map takes a logical channel to the physical channel that carries it;
an unlisted logical channel is removed. `mapNext` is the map that takes effect at the next marker sent (R337); `seen` holds the
physical channels whose last marker carried the generation received (R337); `gotMask` says that a training LCF has come in
(R343); `ctlQ` and `dataQ` are the frames that wait for their slots, each control frame with the time it came, `spill` the
words of a data slot that the next frame goes on with (R321), and `hopQ` the LINE and BARRIER packets that wait for credit. -/
structure Port where
  mapTx : Table Nat
  mapNext : Option (Table Nat)
  mapRx : Table Nat
  seen : BitVec 45
  startTx : BitVec 45
  startRx : BitVec 45
  modLost : BitVec 4
  lockCnt : Table Nat
  lost : Table Nat
  gotMask : Bool
  txD : TxStream
  txC : TxStream
  rxD : RxStream
  rxC : RxStream
  ctlQ : List (Nat × List (BitVec 256))
  dataQ : List (BitVec 256)
  spill : List (Option Word)
  hopQ : List Pkt
  lastLcf : Nat
  identOk : Nat
  pauseUntil : Option Nat
  pauseSince : Option Nat
  pauseSaid : Bool
  failedAt : Option Nat
  mixed : Bool
  leaving : Option Nat
  freed : Table Nat
  credit : Table Nat
  deriving DecidableEq, Repr, Inhabited

/-! ### Flows (R373-R380) -/

/-- A send flow (R373-R375, R467). -/
structure SendFlow where
  opened : Bool
  node : BitVec 24
  peer : BitVec 14
  ctx : BitVec 12
  win : Nat
  tile : Bool
  next : Nat
  acked : Nat
  retain : List (Nat × Pkt)
  resends : Table Nat
  queue : List Pkt
  replayQ : List Pkt
  lastAck : Nat
  failed : Bool
  skip : Nat
  sigs : Nat
  streamPos : Nat
  deriving DecidableEq, Repr, Inhabited

/-- A receive flow (R374, R375, R466). -/
structure RecvFlow where
  opened : Bool
  node : BitVec 24
  peer : BitVec 14
  ctx : BitVec 12
  win : Nat
  tile : Bool
  expected : Nat
  parked : List (Nat × Pkt)
  sinceAck : Nat
  ackAt : Nat
  gapAt : Option Nat
  held : List Pkt
  sigs : Nat
  tailBytes : Nat
  deriving DecidableEq, Repr, Inhabited

/-! ### Collective groups (R391-R409) -/

/-- What travels round a group for one chunk: elements as FP32 or W64 words, or exponent bytes, with one poison mark for
each; the rank that holds it, its round, and which half of a W64 chunk it is. -/
structure Chunk where
  idx : Nat
  rank : Nat
  round : Nat
  sub : Nat
  elems : List TElem
  deriving DecidableEq, Repr, Inhabited

/-- A collective group outside its registers: ROUND at ARM and the chunks pushed since, the contribution and partial
buffers, W64 halves, exponent bytes on their way and agreed, the chunks written in the round, packets of the next round,
the round whose plan is chosen, and the lanes of a DISPATCH group. -/
structure Group where
  start : Nat
  pushes : Table Nat
  contrib : List Chunk
  partials : List Chunk
  halves : List Chunk
  exps : List Chunk
  expSent : List (Nat × Nat × Nat)
  ebs : List Chunk
  written : List (Nat × Nat)
  later : List Pkt
  plan : Nat
  laneCnt : Table Nat
  laneDrop : Table Nat
  laneSaid : Table Bool
  laneQ : Table Nat
  deriving DecidableEq, Repr, Inhabited

/-! ### Resilience (R455-R468) -/

/-- A record of the input log since the last recovery point: where it lies in the region, its bytes, its micro-batch, and
its packet (R258, R457). -/
structure LogRec where
  off : Nat
  size : Nat
  mb : Nat
  pkt : Pkt
  deriving DecidableEq, Repr, Inhabited

/-- The mirror writer (R459-R461): at the source the dirty bits, the SYNC_VID value that its last sync answered and the
sync in progress; at the buddy the blocks in its receive SRAM, each with its receive flow. -/
structure Mirror where
  dirty : Table Bool
  allDirty : Bool
  lastSync : Nat
  sync : Option Nat
  rx : Table (Nat × List (Nat × PByte))
  deriving DecidableEq, Repr, Inhabited

/-! ### Power, management and observation -/

/-- Supplies, holds, clocks and management outside the registers (R482-R507, R545-R560). `holdAt` and `thermAt` are the
starts of a brown-out and of a thermal hold; `mtimeSet` is a value for MTIME and the RACKREF edges until it is taken;
`slew` the RACKREF count after a holdover; `freqNext` a ck_core frequency that waits for its change, `clockHold` the end of
the dispatch hold of the last one; `temps` the last reading of each sensor; `spareLanes` the lanes of each
die-to-die connection that its spares carry, spare 0 first, `fusedLanes` those that assembly test fused (R29), `crossLost` the
UCIe modules of the crossings that are removed (R451); `farWays` and `farBifur` the interleave and the split that the
expansion port took at its start (R254, R269); `bar2` the size of BAR2 as a power of two of 1 GiB, `hdmBase` and `hdmSize` the
range of HBM that the HDM decoder opens to CXL.mem (R270, R271); `stretchAt` the stretches of releases that are to take
effect, each with its time, its steps and its round, `stretchOn` the start and the round of the one in force; `clock` the controller's own time in ns, which counts in every power state; `mapping` the logical Tiller
that a Sheaf's spare is being mapped to; `fusedPhys` and `fusedUsed` the fused Tiller map. -/
structure Power where
  auxGood : Bool
  vinGood : Bool
  seated : Bool
  straps : BitVec 3
  holdAt : Option Nat
  thermAt : Option Nat
  perst : Bool
  hostUp : Bool
  cxl : Bool
  rackref : Bool
  refclk : Bool
  slew : Option Nat
  mtimeSet : Option (Nat × Word)
  settime : Bool
  emergency : Bool
  thermLow : Bool
  thermStep : Nat
  freqNext : Option Nat
  clockHold : Nat
  vOffset : Table Int
  slackSince : Table Nat
  marginAt : Option Nat
  capOver : Nat
  temps : Table Nat
  stretchAt : List (Nat × Nat × Nat)
  stretchOn : Option (Nat × Nat)
  switches : BitVec 4
  thermtrip : Bool
  spareLanes : Table (List Nat)
  fusedLanes : Table (List Nat)
  crossLost : BitVec 32
  farWays : Nat
  farBifur : Nat
  bar2 : Nat
  hdmBase : Nat
  hdmSize : Nat
  mapping : Table Nat
  fusedPhys : Table Nat
  fusedUsed : Table Bool
  age : List (Nat × Nat × Nat)
  clock : Nat
  presenceAt : Option Nat
  peerAt : Nat
  activated : Bool
  slotVer : List Nat
  readyAt : Nat
  startFails : Nat
  boots : Nat
  viewBad : List ViewUnit
  jtag : Nat
  relaid : BitVec 12
  deriving DecidableEq, Repr, Inhabited

/-- Observation outside the registers (R524-R536). -/
structure Obs where
  cnt : Table Nat
  base : Table Nat
  lastCmd : Table (List Nat)
  telLost : Nat
  trcLost : Nat
  window : Nat
  hbmUsed : Nat
  linkUsed : Nat
  delayed : List (Nat × Nat)
  deriving DecidableEq, Repr, Inhabited

/-- What leaves the part: messages to the host, link frames, pins. A frame names its five markers' word per physical channel, the
training LCF of each channel, and its words, each with its word period and logical channel (R321). A rail's voltage is in
1/24 mV, and a rail group is its order in the table of R489. The newest stands first. -/
inductive Output where
  | msix (fn : BitVec 12) (vec : Nat) (addr : Word) (data : BitVec 32)
  | lcf (port : Nat) (urgent : Bool) (bytes : List Byte)
  | frame (port : Nat) (mtime : Nat) (markers : List Word) (training : List (Nat × List Byte))
      (words : List (Nat × Nat × Word))
  | switchDrive (axis : Nat) (on : Bool)
  | mctp (body : List Byte)
  | configRetry
  | unsupported
  | thermtrip (asserted : Bool)
  | rails (group : Nat) (on : Bool)
  | idcode (v : BitVec 32)
  | rail (s : Nat) (mv24 : Int)
  | laser (port : Nat) (ch : Nat) (db10 : Nat)
  deriving DecidableEq, Repr, Inhabited

/-- One Pleino module. -/
structure State where
  pending : List Instr
  regs : Table Word
  held : Table (BitVec 32)
  readData : Word
  mem : Table Byte
  poison : Table Bool
  ecc : Table EccErr
  fresh : Nat
  tillers : Table Tiller
  phys : Table Nat
  absent : Table Bool
  used : Table Bool
  glumes : Table Glume
  bank15 : Table Word
  gcaches : Table (List GXlat)
  signals : List Sig
  adminPid : Option (Nat × BitVec 16)
  glmInval : Option (BitVec 12 × Bool × BitVec 16)
  barriers : Table Barrier
  contexts : Table Context
  msix : Table Word
  folds : List Fold
  rings : Table Ring
  tlbs : Table (List TlbEntry)
  engines : Table (List XferOp)
  retired : List Nat
  rows : List RowCe
  softRepairs : List Word
  repairHard : Bool
  memCtl : MemCtl
  ports : Table Port
  sendFlows : Table SendFlow
  recvFlows : Table RecvFlow
  inbufs : Table (List Pkt)
  rrPtr : Table Nat
  groups : Table Group
  logRecs : List LogRec
  logPos : Nat
  logUsed : Nat
  logOvf : Bool
  mirror : Mirror
  power : Power
  obs : Obs
  audit : Table (BitVec 512)
  flash : Table (BitVec 512)
  auditPrev : BitVec 512
  flashed : Nat
  out : List Output
  deriving DecidableEq, Repr

/-- A Tiller after reset: nothing bound, nothing in flight, every queue, register and buffer empty or zero. The spec gives no
reset value for the tile registers, their valid bits and marks, and VM1 to VM7: they are zero, clear and unmarked (DESIGN
CHOICE: notes/assumptions/147.md). -/
def Tiller.reset : Tiller :=
  { bind := [], ags := [], loopCnt := [], loopHead := [], insts := [], nextId := 0, feeders := [], loaders := [],
    active := [], pipes := [], lastPass := [], accs := [], tiles := [], tileNext := 0, tileHead := 0, egress := [],
    sigWait := [], ingress := [], desc := [], taken := [], vt := [], vtPoison := [], vtSat := [], vtValid := [], vm := [], banks := [], bankNext := 0, wait := none, gated := false, halting := false,
    stepping := false, job := none, lastCtx := none, ended := false, wdog := 0 }

def Context.reset : Context :=
  { heldWalks := [], heldRecs := [], resetAt := none, tlbInval := none, notify := none, vecPending := 0, vecLast := [] }

def Ring.reset : Ring :=
  { tail := 0, badTails := [], fetched := [], running := [], upto := 0, waits := [], readyAt := none, stopped := [],
    polledAt := 0, imgBuf := [], listBuf := [] }

def Glume.reset : Glume := { st := .free, owner := 0, value := 0 }

def Barrier.reset : Barrier :=
  { tokens := 0, stretch := 0, arrivedAt := none, release := none, timedOut := false }

def Port.reset : Port :=
  { mapTx := [], mapNext := none, mapRx := [], seen := 0, startTx := 0, startRx := 0, modLost := 0, lockCnt := [], lost := [],
    gotMask := false, txD := ⟨0, [], []⟩, txC := ⟨0, [], []⟩, rxD := ⟨0, false, []⟩, rxC := ⟨0, false, []⟩, ctlQ := [],
    dataQ := [], spill := [], hopQ := [], lastLcf := 0, identOk := 0, pauseUntil := none, pauseSince := none,
    pauseSaid := false, failedAt := none, mixed := false, leaving := none, freed := [], credit := [] }

def SendFlow.reset : SendFlow :=
  { opened := false, node := 0, peer := 0, ctx := 0, win := 0, tile := false, next := 0, acked := 0, retain := [],
    resends := [], queue := [], replayQ := [], lastAck := 0, failed := false, skip := 0, sigs := 0, streamPos := 0 }

def RecvFlow.reset : RecvFlow :=
  { opened := false, node := 0, peer := 0, ctx := 0, win := 0, tile := false, expected := 0, parked := [],
    sinceAck := 0, ackAt := 0, gapAt := none, held := [], sigs := 0, tailBytes := 0 }

def Group.reset : Group :=
  { start := 0, pushes := [], contrib := [], partials := [], halves := [], exps := [], expSent := [], ebs := [],
    written := [], later := [], plan := 0, laneCnt := [], laneDrop := [], laneSaid := [], laneQ := [] }

def MemCtl.reset : MemCtl :=
  { milWindow := 0, milUsed := [], autoSoft := [], fencedAt := [], lostShare := 0, farLate := 0, rewritten := [] }

def Mirror.reset : Mirror :=
  { dirty := [], allDirty := false, lastSync := 0, sync := none, rx := [] }

/-- Supplies absent, main off, nothing sensed yet (R482, R510). -/
def Power.reset : Power :=
  { auxGood := false, vinGood := false, seated := false, straps := 0, holdAt := none, thermAt := none, perst := true,
    hostUp := false, cxl := false, rackref := true, refclk := true, slew := none, mtimeSet := none, settime := false,
    emergency := false, thermLow := false, thermStep := 0, freqNext := none, clockHold := 0, vOffset := [],
    slackSince := [], marginAt := none, capOver := 0, temps := [], stretchAt := [], stretchOn := none, switches := 0, thermtrip := false,
    spareLanes := [], fusedLanes := [], crossLost := 0, farWays := 0, farBifur := 0, bar2 := 6, hdmBase := 0, hdmSize := 0,
    mapping := [], fusedPhys := [], fusedUsed := [], age := [], clock := 0, presenceAt := none, peerAt := 0, activated := false, slotVer := [0, 0], readyAt := 0, startFails := 0, boots := 0,
    viewBad := [], jtag := 0, relaid := 0 }

def Obs.reset : Obs :=
  { cnt := [], base := [], lastCmd := [], telLost := 0, trcLost := 0, window := 0, hbmUsed := 0,
    linkUsed := 0, delayed := [] }

/-- The machine right after reset: every register field at the reset value of its table (nothing listed), main power
off, no program, no command, memory with nothing listed. -/
def State.reset : State :=
  { pending := [], regs := [], held := [], readData := 0, mem := [], poison := [], ecc := [], fresh := 0, tillers := [],
    phys := [], absent := [], used := [], glumes := [], bank15 := [], gcaches := [], signals := [], adminPid := none,
    glmInval := none, barriers := [], contexts := [], msix := [], folds := [], rings := [], tlbs := [], engines := [],
    retired := [], rows := [], softRepairs := [], repairHard := false, memCtl := MemCtl.reset, ports := [], sendFlows := [],
    recvFlows := [], inbufs := [], rrPtr := [], groups := [], logRecs := [], logPos := 0, logUsed := 0, logOvf := false,
    mirror := Mirror.reset, power := Power.reset, obs := Obs.reset, audit := [], flash := [], auditPrev := 0,
    flashed := 0, out := [] }

end Sys2Proof.Machine
end

