-- ==== Sys2Proof/Machine/Ops.lean ====
section
/-! DEFINITION. The shared operations: register fields, the device address map and memory access, error records and
their queues, the audit log, the trace and telemetry rings, address translation and Glume translation. -/

namespace Sys2Proof.Machine

/-! ### Register fields (R17, R20) -/

/-- The place of a field instance in the register table. -/
def fkey (f : Fld) (i : Nat) : Nat := i * 1024 + f.ctorIdx

/-- The width of a field in bits. -/
def Fld.width (f : Fld) : Nat := f.info.hi + 1 - f.info.lo

/-- The value of a field of instance i. -/
def State.fld (s : State) (f : Fld) (i : Nat) : Nat :=
  (Tbl.get (BitVec.ofNat 64 f.info.reset) s.regs (fkey f i)).toNat

/-- Set a field of instance i, cut to its width. -/
def State.setFld (s : State) (f : Fld) (i v : Nat) : State :=
  { s with regs := Tbl.set (BitVec.ofNat 64 f.info.reset) s.regs (fkey f i) (BitVec.ofNat 64 (v % 2 ^ f.width)) }

/-- A field as a flag. -/
def State.flag (s : State) (f : Fld) (i : Nat) : Bool := s.fld f i != 0

/-- Set a one-bit field. -/
def State.setFlag (s : State) (f : Fld) (i : Nat) (b : Bool) : State := s.setFld f i (if b then 1 else 0)

/-- Add to a field, saturating at all ones. -/
def State.satAdd (s : State) (f : Fld) (i n : Nat) : State :=
  s.setFld f i (min (s.fld f i + n) (2 ^ f.width - 1))

/-- Add to a field, wrapping. -/
def State.wrapAdd (s : State) (f : Fld) (i n : Nat) : State := s.setFld f i (s.fld f i + n)

/-- Set one bit of a field. -/
def State.setBit (s : State) (f : Fld) (i k : Nat) : State := s.setFld f i (s.fld f i ||| 2 ^ k)

/-- Clear one bit of a field. -/
def State.clearBit (s : State) (f : Fld) (i k : Nat) : State :=
  s.setFld f i (if bitAt (s.fld f i) k then s.fld f i - 2 ^ k else s.fld f i)

/-- A field of a register counts against its reset value again. -/
def State.resetFld (s : State) (f : Fld) (i : Nat) : State := s.setFld f i f.info.reset

/-- Module time (R9, R493). -/
def State.now (s : State) : Nat := s.fld .PWR_MTIME_MTIME 0

/-- Emit an output. -/
def State.emit (s : State) (o : Output) : State := { s with out := o :: s.out }

/-- A fresh value that the spec leaves open. -/
def State.freeWord (s : State) : Word := Config.freeWord s.fresh

def State.freeBool (s : State) : Bool := Config.freeBool s.fresh

def State.useFree (s : State) : State := { s with fresh := s.fresh + 1 }

/-- The index of T(s,n) in every table. -/
def tix (s : Fin 12) (n : Fin 64) : Nat := s.val * 64 + n.val

/-- Ready: the main domain runs (R488, R510: STATE 2). -/
def State.ready (s : State) : Bool := s.fld .PWR_STATUS_STATE 0 == 2

/-- STRICT and PORTABLE (R427). -/
def State.strict (s : State) : Bool := s.flag .MGT_DET_CTRL_STRICT 0

/-- Observation counters (R522, R527), by key. -/
def State.count (s : State) (k n : Nat) : State :=
  { s with obs := { s.obs with cnt := Tbl.set 0 s.obs.cnt k (Tbl.get 0 s.obs.cnt k + n) } }

/-- The key of counter k of Tiller t: 0-15 causes, 16 MACs, 17 vector elements, 18 instructions, 19 commands, 20-26
the counters of R70, 27 bank conflicts, 28 corrected store errors (R234). -/
def tcKey (t k : Nat) : Nat := 1024 + t * 32 + k

/-! ### The device address map (R10-R12) -/

inductive Region where
  | hbm
  | store (t off : Nat)
  | staging (tile off : Nat)
  | far (off : Nat)
  | host (off : Nat)
  | hole
  deriving DecidableEq, Repr

/-- MiB at the top of the staging SRAM of Rachis A and C that programs do not have: the 16 MiB of input buffers (R364), the
retention and reorder pools (R373, R388) and the collective pool (R393). -/
def State.topMib (s : State) : Nat :=
  16 + s.fld .FAB_POOL_RETAIN_MIB 0 + s.fld .FAB_POOL_REORD_MIB 0 + s.fld .COL_CFG_POOL_MIB 0

/-- An offset of a Rachis's staging SRAM lies in a buffer or a pool, which are holes to every requester of the model (R373,
R393; for the buffers and the collective pool DEDUCED: notes/assumptions/130.md). -/
def State.poolByte (s : State) (tile off : Nat) : Bool := tile != 1 && decide (2 ^ 27 ≤ off + s.topMib * 2 ^ 20)

/-- R10, R12, R373, R453, R454. -/
def State.region (s : State) (a : Nat) : Region :=
  if a < 0x9000000000 then .hbm
  else if 0x100000000000 ≤ a ∧ a < 0x100C00000000 then
    let o := a - 0x100000000000
    let sh := o / 2 ^ 32
    let n := (o / 2 ^ 24) % 256
    let off := o % 2 ^ 24
    if n < 64 ∧ off < 0x200000 ∧ !(Tbl.get false s.absent (sh * 64 + n)) ∧ !(s.flag .MGT_DET_DUMAP_HI_FENCED sh) then
      .store (sh * 64 + n) off
    else .hole
  else if 0x200000000000 ≤ a ∧ a < 0x200018000000 then
    if s.poolByte ((a - 0x200000000000) / 0x8000000) ((a - 0x200000000000) % 0x8000000) then .hole
    else .staging ((a - 0x200000000000) / 0x8000000) ((a - 0x200000000000) % 0x8000000)
  else if 0x400000000000 ≤ a ∧ a < 0x440000000000 then
    if a - 0x400000000000 < s.fld .FAR_STATUS_CAP_GIB 0 * 2 ^ 30 then .far (a - 0x400000000000) else .hole
  else if 0x800000000000 ≤ a ∧ a < 0x1000000000000 then .host (a - 0x800000000000)
  else .hole

/-- The device address of a byte of a Tiller's store (R10). -/
def storeAddr (t off : Nat) : Nat := 0x100000000000 + (t / 64) * 2 ^ 32 + (t % 64) * 2 ^ 24 + off

/-- Where an HBM address lies (R236). -/
structure HbmLoc where
  stack : Nat
  channel : Nat
  pc : Nat
  bank : Nat
  row : Nat
  sector : Nat
  deriving DecidableEq, Repr

/-- The fields of R236 from the tile, its page index and the address within the page. -/
def hbmFields (stack pt la : Nat) : HbmLoc :=
  { stack := stack
    channel := bitsOf la 14 10 ^^^ bitsOf pt 5 1
    pc := bitsOf la 15 15
    bank := 2 * (bitsOf la 20 18 ^^^ bitsOf pt 3 1) + pt % 2
    row := pt / 2
    sector := (bitsOf la 17 16 * 256 + la % 256) / 32 }

/-- R236, and R237 for a tile that has been re-laid around a fenced stack. -/
def State.hbmMap (s : State) (a : Nat) : HbmLoc :=
  let p := a / 2 ^ 21
  let tile := p % 3
  let pt := p / 3
  let lo := a % 2 ^ 21
  let laid := (List.range 4).filter (fun k => !(s.power.relaid.getLsbD (4 * tile + k)))
  if laid.length = 3 then
    let la := pt * 2 ^ 21 + lo
    let j := la / 256
    let j' := j / 3
    hbmFields (4 * tile + laid.getD (j % 3) 0) (j' / 2 ^ 11) (j' % 2 ^ 11 * 1024 + la % 256)
  else hbmFields (4 * tile + bitsOf lo 9 8) pt lo

/-- A stack of this tile is fenced. -/
def State.tileFenced (s : State) (tile : Nat) : Bool :=
  bitsOf (s.fld .HBM_STATUS_FENCED 0) (4 * tile + 3) (4 * tile) != 0

/-- The part that an access plays under R257: the log writer's and its replay's, the mirror writer's and the incoming mirror
stream's, or none of them. -/
inductive Role where
  | plain | log | mirror
  deriving DecidableEq, Repr

/-- Who makes an access: the unit for the record, the context (none: no context), its role (R257), whether it is a Millet
access (R261), whether far memory does not complete it within 50 us (R255), and the host read of it that fails (R305). -/
structure Accessor where
  unit : UnitRef
  ctx : Option Nat
  role : Role
  millet : Bool
  late : Bool
  hostErr : Option HostErr
  deriving DecidableEq, Repr

/-- An access with nothing special about it. -/
def Accessor.of (u : UnitRef) (c : Option Nat) : Accessor := ⟨u, c, .plain, false, false, none⟩

/-- An HBM page of the enabled input-log region. -/
def State.logPage (s : State) (pg : Nat) : Bool :=
  s.flag .HBM_LOG_REGION_ENABLE 0 && decide (s.fld .HBM_LOG_REGION_BASE_PG 0 ≤ pg) &&
    decide (pg < s.fld .HBM_LOG_REGION_BASE_PG 0 + s.fld .HBM_LOG_REGION_SIZE_PG 0)

/-- An HBM page of the enabled mirror region. -/
def State.mirPage (s : State) (pg : Nat) : Bool :=
  s.flag .HBM_MIR_REGION_ENABLE 0 && decide (s.fld .HBM_MIR_REGION_BASE_PG 0 ≤ pg) &&
    decide (pg < s.fld .HBM_MIR_REGION_BASE_PG 0 + s.fld .HBM_MIR_REGION_SIZE_PG 0)

/-- A context of a takeover in progress: one that holds an open proxied flow, numbered 8,192 or above (R456, R464, R469;
DEDUCED: notes/assumptions/140.md). -/
def State.takeover (s : State) (c : Nat) : Bool :=
  s.sendFlows.any (fun p => decide (8192 ≤ p.1) && p.2.opened && p.2.ctx.toNat == c) ||
    s.recvFlows.any (fun p => decide (8192 ≤ p.1) && p.2.opened && p.2.ctx.toNat == c)

/-- The access may touch a protected region: its own writer, the takeover sequence, the PF (R257). -/
def State.privileged (s : State) (w : Accessor) : Bool := w.ctx.any (fun c => c == 0 || s.takeover c)

/-- A protected page that the accessor may not touch (R257). -/
def State.protectedFrom (s : State) (w : Accessor) (pg : Nat) : Bool :=
  ((s.logPage pg && w.role != .log) || (s.mirPage pg && w.role != .mirror)) && !(s.privileged w)

/-- Units that reach far memory: Sheaf transfer engines and link engines (R255). -/
def Accessor.reachesFar (w : Accessor) : Bool := w.unit.kind == 2 || w.unit.kind == 5

/-- The class that stops an access to one byte, or 0 (R13, R252, R253, R255, R257). Far memory is a hole to a unit that does
not reach it (DESIGN CHOICE: notes/assumptions/141.md). -/
def State.accClass (s : State) (w : Accessor) (a : Nat) : Nat :=
  match s.region a with
  | .hole => 0x40
  | .hbm =>
    let pg := a / 2 ^ 21
    if pg ∈ s.retired then 0x44
    else if s.tileFenced (pg % 3) && decide (73728 ≤ pg / 3) then 0x40
    else if s.protectedFrom w pg then 0x45
    else if bitAt (s.fld .HBM_STATUS_FENCED 0) (s.hbmMap a).stack then 0x49
    else 0
  | .far _ => if !w.reachesFar then 0x40 else if s.fld .FAR_STATUS_RATE 0 = 0 ∨ w.late then 0x46 else 0
  | _ => 0

/-! ### Raw memory -/

/-- The poison and check word of a byte: 8 bytes in a store, staging SRAM or host memory, 32 bytes in HBM and far
memory (R234, R248). The key is the number of the word's first 8 bytes. -/
def State.wordKey (s : State) (a : Nat) : Nat :=
  match s.region a with
  | .hbm => a / 32 * 4
  | .far _ => a / 32 * 4
  | _ => a / 8

def State.wordSize (s : State) (a : Nat) : Nat :=
  match s.region a with
  | .hbm => 32
  | .far _ => 32
  | _ => 8

/-- What an unlisted byte of memory reads as (notes/assumptions/5.md). -/
def memDefault : Byte := 0

/-- Read one byte as it stands. -/
def State.peek (s : State) (a : Nat) : Byte := Tbl.get memDefault s.mem a

/-- Write one byte as it stands, in canonical form. -/
def State.poke (s : State) (a : Nat) (b : Byte) : State := { s with mem := Tbl.set memDefault s.mem a b }

def State.peekBytes (s : State) (a n : Nat) : List Byte := (List.range n).map (fun k => s.peek (a + k))

/-- The little-endian number at an address. -/
def State.peekNat (s : State) (a n : Nat) : Nat := leNat (s.peekBytes a n)

/-- Write bytes from an address upward. -/
def State.pokeBytes (s : State) (a : Nat) : List Byte → State
  | [] => s
  | b :: t => (s.poke a b).pokeBytes (a + 1) t

/-- The key names a sector that a re-lay lost and that nothing has written whole since: its four-stack home was fenced in
service (R237; DESIGN CHOICE: notes/assumptions/87.md). -/
def State.lostSector (s : State) (k : Nat) : Bool :=
  let a := 8 * k
  decide (a < 0x9000000000) && s.memCtl.lostShare.getLsbD (4 * (a / 2 ^ 21 % 3) + bitsOf a 9 8) &&
    !(Tbl.get false s.memCtl.rewritten k)

/-- The word of a key is marked poisoned. -/
def State.badWord (s : State) (k : Nat) : Bool := Tbl.get false s.poison k || s.lostSector k

def State.poisoned (s : State) (a : Nat) : Bool := s.badWord (s.wordKey a)

/-- Mark a word poisoned, or good. -/
def State.setPoison (s : State) (k : Nat) (b : Bool) : State :=
  { s with
    poison := Tbl.set false s.poison k b
    memCtl := { s.memCtl with
      rewritten := if s.lostSector k && !b then Tbl.set false s.memCtl.rewritten k true else s.memCtl.rewritten } }

def State.setEcc (s : State) (k : Nat) (e : EccErr) : State := { s with ecc := Tbl.set .clean s.ecc k e }

/-- The words of n bytes written whole have neither poison nor a check error (R234, R248). -/
def State.cleanWords (s : State) (a n : Nat) : State :=
  (List.range (n / 8)).foldl (fun s k => (s.setPoison (s.wordKey (a + 8 * k)) false).setEcc (s.wordKey (a + 8 * k)) .clean) s

/-- An HBM write marks the 64 KiB blocks of the mirror ranges that it touches (R459). -/
def State.markDirty (s : State) (a n : Nat) : State :=
  if s.flag .HBM_MIR_CTRL_ENABLE 0 then
    let blocks := (List.range ((a % 65536 + n + 65535) / 65536)).map (fun k => a / 65536 + k)
    let inRange := fun b => (List.range 8).any (fun k => s.flag .HBM_MIR_SRC_EN k &&
      decide (s.fld .HBM_MIR_SRC_BASE_PG k ≤ b / 32) &&
      decide (b / 32 < s.fld .HBM_MIR_SRC_BASE_PG k + s.fld .HBM_MIR_SRC_SIZE_PG k))
    { s with mirror := { s.mirror with
        dirty := (blocks.filter inRange).foldl (fun d b => Tbl.set false d b true) s.mirror.dirty } }
  else s

/-- The observation counters take a read of n bytes (R527). -/
def State.countRead (s : State) (a n : Nat) : State :=
  match s.region a with
  | .hbm => s.count 0 n
  | .host _ => s.count 4 n
  | _ => s

/-- The dirty map and the observation counters take a write of n bytes (R459, R527). -/
def State.wrote (s : State) (a n : Nat) : State :=
  match s.region a with
  | .hbm => (s.markDirty a n).count 1 n
  | .host _ => s.count 5 n
  | _ => s

/-! ### The audit log (R551-R554) -/

/-- ORIGIN and ORIGIN_ID of R553. -/
structure AuditOrg where
  code : Nat
  id : Nat
  deriving DecidableEq, Repr

/-- The origin of a register access. JTAG has no code of its own: notes/assumptions/6.md. -/
def Origin.audit : Origin → AuditOrg
  | .pf => ⟨0, 0⟩
  | .vf c => ⟨1, c.toNat⟩
  | .mgmt e => ⟨2, e.toNat⟩
  | .jtag => ⟨2, 0xFFFF⟩

/-- The origin of a write that needed presence and took effect. -/
def Origin.presence : Origin → AuditOrg
  | .pf => ⟨3, 0⟩
  | .vf _ => ⟨3, 0⟩
  | .mgmt _ => ⟨3, 1⟩
  | .jtag => ⟨3, 0xFFFF⟩

/-- An entry's 64 bytes as a number (R552), without CHAIN. -/
def auditWord (mtime seq : Nat) (took : Bool) (o : AuditOrg) (cls off old data detail : Nat) : Nat :=
  mtime + seq * 2 ^ 64 + (o.code % 16 + (if took then 16 else 0)) * 2 ^ 128 + cls % 256 * 2 ^ 136 +
    o.id % 65536 * 2 ^ 144 + off % 2 ^ 32 * 2 ^ 160 + old % 2 ^ 64 * 2 ^ 192 + data % 2 ^ 64 * 2 ^ 256 +
    detail % 2 ^ 64 * 2 ^ 320

/-- CHAIN: the first 16 bytes of the SHA-256 of the previous entry. -/
def chainOf (prev : BitVec 512) : Nat := leNat ((sha256 (leBytes 64 prev.toNat)).take 16)

/-- Write an audit entry into its SRAM slot (R552, R554); no slot is reused before its entry is in flash. -/
def State.auditPut (s : State) (took : Bool) (o : AuditOrg) (cls off old data detail : Nat) : State :=
  let seq := s.fld .MGT_AUDIT_SEQ_NEXT 0
  let e := BitVec.ofNat 512 (auditWord s.now seq took o cls off old data detail + chainOf s.auditPrev * 2 ^ 384)
  { ((s.wrapAdd .MGT_AUDIT_SEQ_NEXT 0 1).wrapAdd .MGT_AUDIT_STAT_UNFLUSHED 0 1) with
    audit := Tbl.put s.audit (seq % 4096) e, auditPrev := e }

/-! ### Vectors and error records (R299-R304, R561) -/

/-- A vector of a context has something to send. -/
def State.setVector (s : State) (c v : Nat) : State :=
  let x := Tbl.get Context.reset s.contexts c
  { s with contexts := Tbl.put s.contexts c { x with vecPending := x.vecPending ||| (1#8 <<< v) } }

/-- A record that stands for n events, the first of them at a time, as a number of 32 bytes with PHASE clear (R299). -/
def ErrRec.bits (r : ErrRec) (n mtime : Nat) : BitVec 256 :=
  let fl := (if r.ctx.isNone then 8 else 0) + (if 1 < n then 4 else 0) + (if r.program then 2 else 0) +
    (if r.freeze then 1 else 0)
  BitVec.ofNat 256 (mtime % 2 ^ 64 + (r.cls % 256) * 2 ^ 64 + fl * 2 ^ 72 + (r.ctx.getD 0 % 4096) * 2 ^ 80 +
    (r.unit.kind % 16 * 4096 + r.unit.idx % 4096) * 2 ^ 96 + n % 65536 * 2 ^ 112 + r.detail % 2 ^ 128 * 2 ^ 128)

/-! ### Memory events (R13, R234, R248-R255, R261) -/

/-- All ones of n bits: a detail field that does not apply (R261). -/
def ones (n : Nat) : Nat := 2 ^ n - 1

/-- The ACCESS field of R261. -/
def accessCode (wr millet scrub : Bool) : Nat :=
  (if wr then 1 else 0) + (if scrub then 2 else 0) + (if millet then 4 else 0)

/-- The detail of an access to a hole: no place applies (R261). -/
def holeDetail (a : Nat) (wr millet : Bool) : Nat :=
  a % 2 ^ 64 + ones 24 * 2 ^ 64 + accessCode wr millet false * 2 ^ 88 + ones 32 * 2 ^ 96

/-- The detail of a memory record (R261). -/
def State.memDetail (s : State) (a : Nat) (wr millet scrub : Bool) : Nat :=
  let acc := accessCode wr millet scrub
  match s.region a with
  | .hbm =>
    let l := s.hbmMap a
    a + l.stack * 2 ^ 64 + l.channel * 2 ^ 72 + (l.bank * 2 + l.pc) * 2 ^ 80 + acc * 2 ^ 88 + l.row * 2 ^ 96
  | .store _ off => a + 0x40 * 2 ^ 64 + bitsOf off 9 5 * 2 ^ 72 + 255 * 2 ^ 80 + acc * 2 ^ 88 + ones 32 * 2 ^ 96
  | .staging t off =>
    a + (0x20 + t) * 2 ^ 64 + bitsOf off 10 5 * 2 ^ 72 + 255 * 2 ^ 80 + acc * 2 ^ 88 + ones 32 * 2 ^ 96
  | .far _ => a + 0x60 * 2 ^ 64 + ones 16 * 2 ^ 72 + acc * 2 ^ 88 + ones 32 * 2 ^ 96
  | _ => holeDetail a wr millet

/-- The unit of a memory record: the HBM controller of the stack, the Tiller whose store it is, or the expansion port;
where the address names none of them, the unit that makes the access (R261, R299; DEDUCED: notes/assumptions/53.md). -/
def State.memUnit (s : State) (w : Accessor) (cls a : Nat) : UnitRef :=
  if cls = 0x40 then w.unit
  else
    match s.region a with
    | .hbm => ⟨4, (s.hbmMap a).stack⟩
    | .store t _ => ⟨0, t / 64 * 256 + t % 64⟩
    | .far _ => ⟨9, 0⟩
    | _ => w.unit

/-- The record of an access that is not performed (R13, R252, R253, R255, R257). -/
def State.stopRecord (s : State) (w : Accessor) (cls a : Nat) (wr : Bool) : ErrRec :=
  ⟨cls, w.ctx, s.memUnit w cls a, if cls = 0x40 then holeDetail a wr w.millet else s.memDetail a wr w.millet false,
    false, false⟩

/-- A far access that fails because the link is down shows LINK_DOWN (R255). -/
def State.stopMark (s : State) (cls : Nat) : State :=
  if cls = 0x46 && s.fld .FAR_STATUS_RATE 0 = 0 then s.setFlag .FAR_STATUS_LINK_DOWN 0 true else s

/-- A row takes one more correctable error (R250). The table of a stack holds 1,024 rows; when it is full the row with
the lowest count gives way. -/
def rowAdd (l : HbmLoc) (rows : List RowCe) : List RowCe × RowCe :=
  let same := fun (r : RowCe) =>
    r.stack == l.stack && r.channel == l.channel && r.pc == l.pc && r.bank == l.bank && r.row == l.row
  match rows.find? same with
  | some r => (rows.map (fun x => if same x then { x with count := x.count + 1 } else x), { r with count := r.count + 1 })
  | none =>
    let mine := rows.filter (fun r => r.stack == l.stack)
    let low := (mine.map (·.count)).foldl min (2 ^ 32)
    let rows' := if mine.length ≥ 1024 then rows.eraseP (fun r => r.stack == l.stack && r.count == low) else rows
    let r : RowCe := ⟨l.stack, l.channel, l.pc, l.bank, l.row, 1, false⟩
    (rows' ++ [r], r)

/-- The place of a row as one number: the fields of HBM_REPAIR. -/
def rowCode (l : HbmLoc) : Nat :=
  l.row + l.bank * 2 ^ 16 + l.pc * 2 ^ 20 + l.channel * 2 ^ 21 + l.stack * 2 ^ 26

/-- Count a correctable error of an HBM sector. A row that has reached CE_THRESH raises class 0x41 once in a scrub period,
and waits for a soft repair when AUTO_SOFT is set (R250). -/
def State.rowCe (s : State) (w : Accessor) (a : Nat) (wr scrub : Bool) : State × List ErrRec :=
  let l := s.hbmMap a
  let p := rowAdd l s.rows
  if s.fld .HBM_CFG_CE_THRESH 0 ≤ p.2.count && !p.2.said then
    let det := s.memDetail a wr w.millet scrub % 2 ^ 96 + (min p.2.count 255 * 2 ^ 24 + l.row) * 2 ^ 96
    let s1 := ({ s with rows := p.1.map (fun x => if x = p.2 then { x with said := true } else x) } : State).setBit
      .HBM_STATUS_CE_SEEN 0 l.stack
    let s2 : State := if s.flag .HBM_CFG_AUTO_SOFT 0 then
        { s1 with memCtl := { s1.memCtl with autoSoft := s1.memCtl.autoSoft ++ [BitVec.ofNat 64 (rowCode l)] } }
      else s1
    (s2, [⟨0x41, none, ⟨4, l.stack⟩, det, false, false⟩])
  else ({ s with rows := p.1 }, [])

/-- A double-bit or uncorrectable error is found: the word is poisoned and class 0x43, or 0x42 in HBM, raised (R234,
R248, R251). -/
def State.wordLost (s : State) (w : Accessor) (a : Nat) (wr scrub : Bool) : State × List ErrRec :=
  let k := s.wordKey a
  let s1 := (s.setEcc k .clean).setPoison k true
  let det := s.memDetail a wr w.millet scrub
  match s.region a with
  | .hbm => (s1.setBit .HBM_STATUS_UE_SEEN 0 (s.hbmMap a).stack, [⟨0x42, w.ctx, s.memUnit w 0x42 a, det, false, false⟩])
  | .far _ => (s1.setFlag .FAR_STATUS_POISON_SEEN 0 true, [⟨0x46, w.ctx, s.memUnit w 0x46 a, det, false, false⟩])
  | _ => (s1, [⟨0x43, w.ctx, s.memUnit w 0x43 a, det, false, false⟩])

/-- The key of the CE count of the staging SRAM of a tile (R234, R235). -/
def stagingKey (tile : Nat) : Nat := 40 + tile

/-- A single-bit error is found: corrected, written back and counted (R234, R235, R250). -/
def State.wordFixed (s : State) (w : Accessor) (a : Nat) (wr scrub : Bool) : State × List ErrRec :=
  let s1 := s.setEcc (s.wordKey a) .clean
  match s.region a with
  | .hbm => s1.rowCe w a wr scrub
  | .store t _ => (s1.count (tcKey t 28) 1, [])
  | .staging t _ => (s1.count (stagingKey t) 1, [])
  | _ => (s1, [])

/-- The far device returns poison that stands in it: class 0x46 (R255). -/
def State.farPoison (s : State) (w : Accessor) (a : Nat) : State × List ErrRec :=
  match s.region a with
  | .far _ =>
    (s.setFlag .FAR_STATUS_POISON_SEEN 0 true,
      [⟨0x46, w.ctx, s.memUnit w 0x46 a, s.memDetail a false w.millet false, false, false⟩])
  | _ => (s, [])

/-- A read or a partial write passes a word's check bits (R234, R248). -/
def State.checkWord (s : State) (w : Accessor) (a : Nat) (wr : Bool) : State × List ErrRec :=
  match Tbl.get EccErr.clean s.ecc (s.wordKey a) with
  | .clean => if !wr && s.poisoned a then s.farPoison w a else (s, [])
  | .single => s.wordFixed w a wr false
  | .double => s.wordLost w a wr false

/-- Each of a list of steps gives a state and records: the last state, and all the records in order. -/
def gather {α : Type} (f : State → α → State × List ErrRec) (s : State) (l : List α) : State × List ErrRec :=
  l.foldl (fun p x => ((f p.1 x).1, p.2 ++ (f p.1 x).2)) (s, [])

/-- The addresses of n bytes that start a new word. -/
def State.wordStarts (s : State) (a n : Nat) : List Nat :=
  ((List.range n).map (fun k => a + k)).filter (fun x => x == a || decide (s.wordKey x ≠ s.wordKey (x - 1)))

/-- The failing host read of an access covers a byte (R305). -/
def State.hostHit (s : State) (h : Option HostErr) (x : Nat) : Bool :=
  match s.region x, h with
  | .host off, some e => e.status != 0 && off / 64 == e.addr.toNat / 64
  | _, _ => false

/-- The completion status of a host read that goes wrong at a byte, by R302: the access's own, or 3 for poisoned data. -/
def State.hostStatus (s : State) (w : Accessor) (x : Nat) : Nat :=
  match s.region x with
  | .host _ =>
    if s.hostHit w.hostErr x then (w.hostErr.map (·.status.toNat)).getD 0 else if s.poisoned x then 3 else 0
  | _ => 0

/-- Class 0x14 of the first host line of a read that goes wrong (R302, R305). -/
def State.hostRecords (s : State) (w : Accessor) (xs : List Nat) : List ErrRec :=
  match xs.find? (fun x => s.hostStatus w x != 0) with
  | some x => [⟨0x14, w.ctx, w.unit, (x - 0x800000000000) % 2 ^ 64 + s.hostStatus w x * 2 ^ 64, false, false⟩]
  | none => []

/-- Read bytes by device address: the state, the records, and the bytes. A byte that may not be read comes as a zero marked
poisoned, with one record for the access (R13, R252, R253, R255, R257). The bytes of a host read that fails are free values,
marked poisoned (R305). -/
def State.readBytes (s : State) (w : Accessor) (a n : Nat) : State × List ErrRec × List PByte :=
  let ok := fun x => s.accClass w x == 0
  let xs := s.wordStarts a n
  let p := gather (fun s x => s.checkWord w x false) s (xs.filter ok)
  let hs := s.hostRecords w xs
  let q := match (xs.filter (fun x => !(ok x))).head? with
    | none => (p.1, [])
    | some x => (p.1.stopMark (s.accClass w x), [p.1.stopRecord w (s.accClass w x) x false])
  let s1 := q.1.countRead a n
  (if hs.isEmpty then s1 else s1.useFree, p.2 ++ q.2 ++ hs, (List.range n).map (fun k =>
    if !(ok (a + k)) then ⟨0, true⟩
    else if s.hostHit w.hostErr (a + k) then ⟨BitVec.ofNat 8 (s.freeWord.toNat / 2 ^ (8 * (k % 8))), true⟩
    else ⟨p.1.peek (a + k), p.1.poisoned (a + k)⟩))

/-- The check bits and the poison of one word under a write of some of its bytes (R234, R248): a whole write replaces both; a
partial one first reads the word through its check bits, and poisons it when one of its bytes is poisoned. -/
def State.writeWord (s : State) (w : Accessor) (x cover : Nat) (bad : Bool) : State × List ErrRec :=
  let k := s.wordKey x
  if cover = s.wordSize x then ((s.setPoison k bad).setEcc k .clean, [])
  else
    let p := if s.poisoned x then (s, []) else s.checkWord w x true
    if bad then (p.1.setPoison k true, p.2) else p

/-- Write a list of bytes, each at its own device address: the state and the records. A byte that may not be written has no
effect, with one record for the write (R13). -/
def State.writeCells (s : State) (w : Accessor) (cells : List (Nat × PByte)) : State × List ErrRec :=
  let good := cells.filter (fun p => s.accClass w p.1 == 0)
  let keys := (good.map (fun p => s.wordKey p.1)).eraseDups
  let p := gather (fun st k =>
    let mine := good.filter (fun p => s.wordKey p.1 == k)
    match mine.head? with
    | none => (st, [])
    | some p => st.writeWord w p.1 ((mine.map (·.1)).eraseDups.length) (mine.any (·.2.poison))) s keys
  let s2 := good.foldl (fun st p => st.poke p.1 p.2.val) p.1
  match (cells.filter (fun p => s.accClass w p.1 != 0)).head? with
  | none => (s2, p.2)
  | some c => (s2.stopMark (s.accClass w c.1), p.2 ++ [s2.stopRecord w (s.accClass w c.1) c.1 true])

/-- Write bytes from a device address upward: the state and the records. -/
def State.writeBytes (s : State) (w : Accessor) (a : Nat) (bytes : List PByte) : State × List ErrRec :=
  let p := s.writeCells w ((List.range bytes.length).map (fun k => a + k) |>.zip bytes)
  (p.1.wrote a bytes.length, p.2)

/-- Bytes without poison. -/
def clean (l : List Byte) : List PByte := l.map (fun b => ⟨b, false⟩)

/-- The bytes' values. -/
def vals (l : List PByte) : List Byte := l.map (·.val)

def anyPoison (l : List PByte) : Bool := l.any (·.poison)

/-! ### Address translation (R291-R295) -/

/-- Outcome of a walk of the four-level table (R293); `ptr` and `level` are those of the entry that decides. -/
inductive Walk where
  | ok (dev : Nat) (w device : Bool) (ptr level : Nat)
  | fault (cls ptr level : Nat)
  deriving DecidableEq, Repr

/-- A device region for translation: neither HBM nor host memory outside CMD_DEVWIN (R293, R308). -/
def State.deviceRegion (s : State) (a : Nat) : Bool :=
  match s.region a with
  | .hbm => false
  | .host off =>
    (List.range 8).any (fun k => s.flag .CMD_DEVWIN_EN k && decide (s.fld .CMD_DEVWIN_BASE_2M k ≤ off / 2 ^ 21) &&
      decide (off / 2 ^ 21 ≤ s.fld .CMD_DEVWIN_LIMIT_2M k))
  | _ => true

/-- The accessor of a walk of context c. -/
def walkAcc (c : Nat) : Accessor := Accessor.of ⟨1, 0⟩ (some c)

/-- A table entry whose read is not performed, fails at the host, or gives poison (R293); a read that would find an
uncorrectable error gives poison (R248). -/
def State.entryBad (s : State) (h : Option HostErr) (c ea : Nat) : Bool :=
  s.accClass (walkAcc c) ea != 0 || s.hostHit h ea || s.poisoned ea ||
    Tbl.get EccErr.clean s.ecc (s.wordKey ea) == .double

/-- The entry of a level that a CVA names in a table. -/
def entryAddr (tab cva lv : Nat) : Nat := tab + 8 * (bitsOf cva (20 + 9 * lv) (12 + 9 * lv))

/-- One level of a walk; `lv` levels remain below this one, and `h` is a host read that fails. -/
def State.walkLevel (s : State) (h : Option HostErr) (c cva : Nat) (wr : Bool) : Nat → Nat → Walk
  | lv, tab =>
    if s.deviceRegion tab then .fault 0x12 tab lv
    else
      let ea := entryAddr tab cva lv
      let e := s.peekNat ea 8
      let addr := bitsOf e 47 12 * 4096
      if s.entryBad h c ea then .fault 0x11 ea lv
      else if !(bitAt e 0) || bitsOf e 63 48 != 0 || bitsOf e 11 5 != 0 then .fault 0x11 ea lv
      else if bitAt e 1 then
        match lv with
        | 0 => .fault 0x11 ea 0
        | lv' + 1 => s.walkLevel h c cva wr lv' addr
      else if lv = 3 || decide (2 ≤ bitsOf e 4 3) || decide (addr % 2 ^ (12 + 9 * lv) ≠ 0) then .fault 0x11 ea lv
      else if wr && !(bitAt e 2) then .fault 0x13 ea lv
      else .ok (addr + cva % 2 ^ (12 + 9 * lv)) (bitAt e 2) (bitsOf e 4 3 == 1) ea lv

/-- A walk of context c's table for one CVA, with a host read that fails (R291-R293). -/
def State.walkWith (s : State) (h : Option HostErr) (c cva : Nat) (wr : Bool) : Walk :=
  if decide (2 ^ 48 ≤ cva) then .fault 0x11 cva 7
  else s.walkLevel h c cva wr 3 (s.fld .CTX_PT_ROOT_ROOT c * 4096)

/-- A walk whose host reads succeed. -/
def State.walk (s : State) (c cva : Nat) (wr : Bool) : Walk := s.walkWith none c cva wr

/-- The entries that a walk reads, from level `lv` down. -/
def State.walkPath (s : State) (h : Option HostErr) (c cva : Nat) : Nat → Nat → List Nat
  | lv, tab =>
    if s.deviceRegion tab then []
    else
      let ea := entryAddr tab cva lv
      let e := s.peekNat ea 8
      let more := !(s.entryBad h c ea) && bitAt e 0 && bitAt e 1 && bitsOf e 63 48 == 0 && bitsOf e 11 5 == 0
      match lv with
      | 0 => [ea]
      | lv' + 1 => ea :: (if more then s.walkPath h c cva lv' (bitsOf e 47 12 * 4096) else [])

/-- What a walk's reads of entries in HBM do: errors corrected or found, and accesses that are not performed (R248, R251-R253). -/
def State.walkReads (s : State) (h : Option HostErr) (c cva : Nat) (u : UnitRef) : State × List ErrRec :=
  if decide (2 ^ 48 ≤ cva) then (s, [])
  else
    gather (fun s ea => let r := s.readBytes (Accessor.of u (some c)) ea 8; (r.1, r.2.1)) s
      ((s.walkPath h c cva 3 (s.fld .CTX_PT_ROOT_ROOT c * 4096)).filter (fun ea => s.region ea == .hbm))

/-- What a translation gives: a device address, a fault that has just frozen the context, or a wait behind a frozen
translation. -/
inductive Xlat where
  | ok (dev : Nat) (device : Bool)
  | fault (cls : Nat)
  | held
  deriving DecidableEq, Repr

def State.ctx (s : State) (c : Nat) : Context := Tbl.get Context.reset s.contexts c

def State.setCtx (s : State) (c : Nat) (x : Context) : State := { s with contexts := Tbl.put s.contexts c x }

/-- Hold a walk: its CVA, its access code and its unit. A walk that is held already is not held twice. -/
def Context.hold (x : Context) (w : Nat × BitVec 4 × UnitRef) : Context :=
  if x.heldWalks.contains w then x else { x with heldWalks := x.heldWalks ++ [w] }

def State.holdWalk (s : State) (c cva acc : Nat) (u : UnitRef) : State :=
  s.setCtx c ((s.ctx c).hold (cva, BitVec.ofNat 4 acc, u))

/-- Detail of classes 0x11 to 0x13 (R302); `acc` is 0 read, 1 write, 2 command fetch, 3 image or patch list. -/
def walkDetail (cva ptr level acc : Nat) : Nat :=
  cva % 2 ^ 64 + ptr % 2 ^ 48 * 2 ^ 64 + (level + acc * 16) * 2 ^ 112

/-- The record of a walk fault (R294, R302). -/
def walkRecord (c cls cva ptr level acc : Nat) (u : UnitRef) : ErrRec :=
  ⟨cls, some c, u, walkDetail cva ptr level acc, false, true⟩

/-- A context's translation is frozen, and the walk held (R294). -/
def State.frozen (s : State) (c cva acc : Nat) (u : UnitRef) : State :=
  (s.holdWalk c cva acc u).setFlag .CTX_STATUS_FROZEN c true

/-- Put an entry at the most recent end of a translation cache of 4,096 entries (R295). -/
def tlbPut (e : TlbEntry) (l : List TlbEntry) : List TlbEntry :=
  (e :: l.filter (fun x => !(x.ctx == e.ctx && x.page == e.page))).take 4096

/-- Translate a CVA of context c through cache k (a Sheaf 0-11 or a Rachis 12-14): the state, what it gives, and the records.
An access that needs a walk while the translation is frozen is held (R294). -/
def State.xlat (s : State) (h : Option HostErr) (k c cva acc : Nat) (u : UnitRef) : State × Xlat × List ErrRec :=
  let wr := acc == 1
  let cache := Tbl.get [] s.tlbs k
  match cache.find? (fun e => e.ctx.toNat == c && e.page == cva / 4096) with
  | some e =>
    if wr && !e.w then (s.frozen c cva acc u, .fault 0x13, [walkRecord c 0x13 cva e.ptr e.level acc u])
    else ({ s with tlbs := Tbl.put s.tlbs k (tlbPut e cache) }, .ok (e.dev * 4096 + cva % 4096) e.device, [])
  | none =>
    if s.flag .CTX_STATUS_FROZEN c then (s.holdWalk c cva acc u, .held, [])
    else
      let t := s.walkReads h c cva u
      match s.walkWith h c cva wr with
      | .fault cls ptr lv => (t.1.frozen c cva acc u, .fault cls, t.2 ++ [walkRecord c cls cva ptr lv acc u])
      | .ok dev w d ptr lv =>
        ({ t.1 with tlbs := Tbl.put t.1.tlbs k (tlbPut ⟨BitVec.ofNat 12 c, cva / 4096, dev / 4096, w, d, ptr, lv⟩ cache) },
          .ok dev d, t.2)

/-! ### Queues (R294, R300, R301, R312) -/

/-- Entries of a queue (R312). -/
def queueEntries (size : Nat) : Nat := if size ≤ 16 then 64 * 2 ^ size else 64

/-- The fields of one of a context's two queues, and the bit of its records that holds PHASE. -/
structure QFld where
  enable : Fld
  size : Fld
  lost : Fld
  base : Fld
  prod : Fld
  cons : Fld
  cq : Bool
  phase : Nat

def errorQueue : QFld :=
  ⟨.CTX_EQ_CFG_ENABLE, .CTX_EQ_CFG_SIZE, .CTX_EQ_CFG_LOST, .CTX_EQ_CFG_BASE, .CTX_EQ_POS_PROD, .CTX_EQ_POS_CONS, false, 79⟩

def completionQueue : QFld :=
  ⟨.CTX_CQ_CFG_ENABLE, .CTX_CQ_CFG_SIZE, .CTX_CQ_CFG_LOST, .CTX_CQ_CFG_BASE, .CTX_CQ_POS_PROD, .CTX_CQ_POS_CONS, true, 215⟩

/-- Records that wait for a queue's translation. -/
def State.heldOf (s : State) (q : QFld) (c : Nat) : Nat := ((s.ctx c).heldRecs.filter (fun h => h.cq == q.cq)).length

/-- Full: PROD - CONS equals the entry count (R300); a record that waits for its slot's translation has its place. -/
def State.queueFull (s : State) (q : QFld) (c : Nat) : Bool :=
  (s.fld q.prod c + s.heldOf q c + 2 ^ 32 - s.fld q.cons c) % 2 ^ 32 == queueEntries (s.fld q.size c)

/-- What becomes of a record. -/
inductive Posted where
  | written | held | lost
  deriving DecidableEq, Repr

/-- The unit that writes records through cache k: the command processor of a Sheaf, or the host port on Rachis B. -/
def writerUnit (k : Nat) : UnitRef := if k < 12 then ⟨1, k⟩ else ⟨7, 0⟩

/-- The cache of the host port's tile, Rachis B (R27, R295). -/
def portCache : Nat := 13

def State.holdRec (s : State) (q : QFld) (c k : Nat) (body : BitVec 256) (vecs : List (Nat × Nat)) : State :=
  let x := s.ctx c
  s.setCtx c { x with heldRecs := x.heldRecs ++ [⟨q.cq, k, body, vecs⟩] }

/-- Mark the vectors that a written record sends. -/
def State.setVectors (s : State) (vecs : List (Nat × Nat)) : State := vecs.foldl (fun s v => s.setVector v.1 v.2) s

/-- The device address of the next slot is written with the record, its PHASE from its position. A slot that may not be
written counts the record in LOST, with the memory's own record unless this record is itself of the memory classes
(DESIGN CHOICE: notes/assumptions/142.md). -/
def State.slotWrite (s : State) (q : QFld) (c k dev : Nat) (body : BitVec 256) (vecs : List (Nat × Nat)) :
    State × List ErrRec × Posted :=
  let w := Accessor.of (writerUnit k) (some c)
  let pos := s.fld q.prod c
  let cls := s.accClass w dev
  if cls != 0 then
    let mem := decide (0x40 ≤ bitsOf body.toNat 71 64) && decide (bitsOf body.toNat 71 64 ≤ 0x49) && !q.cq
    ((s.stopMark cls).satAdd q.lost c 1, if mem then [] else [s.stopRecord w cls dev true], .lost)
  else
    let ph := bitAt pos (Nat.log2 (queueEntries (s.fld q.size c)))
    let b := if ph then body ||| (1#256 <<< q.phase) else body
    let p := s.writeBytes w dev (clean (leBytes 32 b.toNat))
    ((p.1.wrapAdd q.prod c 1).setVectors vecs, p.2, .written)

/-- Write a record at a queue's next position when it is enabled and not full; otherwise count it in LOST (R300, R312). While
the slot's translation is frozen, and behind a record that waits for it, the record is held (R294). -/
def State.queueWrite (s : State) (q : QFld) (c k : Nat) (body : BitVec 256) (vecs : List (Nat × Nat)) :
    State × List ErrRec × Posted :=
  if !(s.flag q.enable c) || s.queueFull q c then (s.satAdd q.lost c 1, [], .lost)
  else if s.heldOf q c != 0 then (s.holdRec q c k body vecs, [], .held)
  else
    let cva := s.fld q.base c * 64 + 32 * (s.fld q.prod c % queueEntries (s.fld q.size c))
    match s.xlat none k c cva 1 (writerUnit k) with
    | (s1, .ok dev _, ev) =>
      let p := s1.slotWrite q c k dev body vecs
      (p.1, ev ++ p.2.1, p.2.2)
    | (s1, _, ev) => (s1.holdRec q c k body vecs, ev, .held)

/-- A copy of a record of another context in the PF's queue when CMD_CFG.MIRROR is set (R300). -/
def State.mirrorRecord (s : State) (c : Nat) (body : BitVec 256) : State × List ErrRec :=
  if s.flag .CMD_CFG_MIRROR 0 && c != 0 then
    let p := s.queueWrite errorQueue 0 portCache body []
    (p.1, p.2.1)
  else (s, [])

/-- When a queue that lost records has space, one class 0x18 record with the count is written to the context's error
queue, and the count clears (R300, R312; DEDUCED: notes/assumptions/26.md). -/
def State.lostRecord (s : State) (q : QFld) (c : Nat) : State × List ErrRec :=
  let n := s.fld q.lost c
  if n = 0 || !(s.flag q.enable c) || s.queueFull q c || !(s.flag errorQueue.enable c) || s.queueFull errorQueue c then (s, [])
  else
    let b := (ErrRec.mk 0x18 (some c) ⟨7, 0⟩ n false false).bits 1 s.now
    let w := (s.setFld q.lost c 0).queueWrite errorQueue c portCache b [(c, 1), (0, 3)]
    let m := w.1.mirrorRecord c b
    (m.1, w.2.1 ++ m.2)

/-- Put a record into one of a context's queues, behind the report of what the queue lost. -/
def State.queuePut (s : State) (q : QFld) (c k : Nat) (body : BitVec 256) (vecs : List (Nat × Nat)) :
    State × List ErrRec × Posted :=
  let p := gather (fun s q => s.lostRecord q c) s (if q.cq then [errorQueue, q] else [q])
  let w := p.1.queueWrite q c k body vecs
  (w.1, p.2 ++ w.2.1, w.2.2)

/-! ### Raising records (R299-R304, R551, R561) -/

/-- The vectors that a record sends when it is written (R304). -/
def recordVectors (r : ErrRec) : List (Nat × Nat) :=
  match r.ctx with
  | some c => (c, 1) :: (if r.cls == 0x18 then [(0, 3)] else [])
  | none => [(0, 3)]

/-- The PF vector that an event of management sends (R561). -/
def classVectors (r : ErrRec) : List Nat :=
  if r.cls == 0x0C then [4] else if r.cls == 0x09 then [5] else if r.cls == 0x0A || r.cls == 0x0B then [6]
  else if r.cls == 0x08 || r.cls == 0x0D then [7] else []

/-- Put a record of n events into its queue, and into the PF's when CMD_CFG.MIRROR is set (R300): the state, and the records
that this has raised. -/
def State.post (s : State) (r : ErrRec) (n mtime : Nat) : State × List ErrRec :=
  let c := r.ctx.getD 0
  let b := r.bits n mtime
  let w := s.queuePut errorQueue c portCache b (recordVectors r)
  let m := if s.flag .CMD_CFG_MIRROR 0 && c != 0 then
      let p := w.1.queuePut errorQueue 0 portCache b []
      (p.1, p.2.1)
    else (w.1, [])
  ((classVectors r).foldl (fun s v => s.setVector 0 v) m.1, w.2.1 ++ m.2)

/-- Write a record, and then the records that writing it raises, and so on for `depth` levels; one below them is counted in
LOST (DESIGN CHOICE: notes/assumptions/142.md). -/
def State.postAll : Nat → State → ErrRec → Nat → Nat → State
  | 0, s, r, _, _ => s.satAdd .CTX_EQ_CFG_LOST (r.ctx.getD 0) 1
  | depth + 1, s, r, n, mtime =>
    (s.post r n mtime).2.foldl (fun s e => s.postAll depth e 1 s.now) (s.post r n mtime).1

/-- Write a record of n events. -/
def State.putRecord (s : State) (r : ErrRec) (n mtime : Nat) : State := s.postAll 6 r n mtime

/-- The classes whose records coalesce (R350, R381, R403, R415). -/
def coalesces (cls : Nat) : Bool := cls == 0x53 || cls == 0x62 || cls == 0x63 || cls == 0x67 || cls == 0x72

/-- An event joins the record of its class, unit and context that waits, or begins one (R299). -/
def foldIn (r : ErrRec) (now : Nat) : List Fold → List Fold
  | [] => [⟨r, now, 1⟩]
  | f :: t =>
    if f.first.cls = r.cls ∧ f.first.unit = r.unit ∧ f.first.ctx = r.ctx then { f with count := min 65535 (f.count + 1) } :: t
    else f :: foldIn r now t

/-- An event's record: written at once, or folded for 1 us when its class coalesces (R299; DEDUCED:
notes/assumptions/7.md). -/
def State.record (s : State) (r : ErrRec) : State :=
  if coalesces r.cls then { s with folds := foldIn r s.now s.folds } else s.putRecord r 1 s.now

/-- A folded record is due 1 us after its first event. -/
def Fold.due (f : Fold) (now : Nat) : Bool := decide (f.since + 1000 ≤ now) || decide (now < f.since)

/-- Write the folded records that are due. -/
def State.flushFolds (s : State) : State :=
  (s.folds.filter (fun f => f.due s.now)).foldl (fun s f => s.putRecord f.first f.count f.since)
    { s with folds := s.folds.filter (fun f => !(f.due s.now)) }

/-- Add an audit entry; while 4,096 are unflushed it is counted in LOST with class 0x0C (R554). -/
def State.audit! (s : State) (took : Bool) (o : AuditOrg) (cls off old data detail : Nat) : State :=
  if s.fld .MGT_AUDIT_STAT_UNFLUSHED 0 ≥ 4096 then
    let s1 := s.satAdd .MGT_AUDIT_STAT_LOST 0 1
    s1.record ⟨0x0C, none, ⟨8, 0⟩, s1.fld .MGT_AUDIT_STAT_LOST 0, false, false⟩
  else
    let s1 := s.auditPut took o cls off old data detail
    if s1.fld .MGT_AUDIT_STAT_UNFLUSHED 0 = 3072 then s1.setVector 0 4 else s1

/-- Classes whose records are audited (R551). -/
def auditedClass (c : Nat) : Bool :=
  (decide (2 ≤ c) && decide (c ≤ 5)) || c == 8 || c == 0xA || c == 0xB || c == 0xD || c == 0x50 || c == 0x51 ||
    c == 0x66 || c == 0x82 || (decide (0x94 ≤ c) && decide (c ≤ 0x96))

/-- Raise an error record (R299, R300, R551). -/
def State.raise (s : State) (r : ErrRec) : State :=
  let s1 := s.record r
  if auditedClass r.cls then
    s1.audit! true ⟨5, r.unit.kind * 4096 + r.unit.idx⟩ r.cls 0xFFFFFFFF 0 0 r.detail
  else s1

/-- Raise a list of records in order. -/
def State.raiseAll (s : State) (l : List ErrRec) : State := l.foldl (fun s r => s.raise r) s

/-- A record that belongs to no context. -/
def State.raiseNo (s : State) (cls : Nat) (u : UnitRef) (detail : Nat) : State :=
  s.raise ⟨cls, none, u, detail, false, false⟩

/-- A record of a context. -/
def State.raiseCtx (s : State) (cls c : Nat) (u : UnitRef) (detail : Nat) : State :=
  s.raise ⟨cls, some c, u, detail, false, false⟩

/-- Perform a step that gives records, and raise them. -/
def raised (p : State × List ErrRec) : State := p.1.raiseAll p.2

/-- Report what a queue lost, once it has space. -/
def State.lostReport (s : State) (q : QFld) (c : Nat) : State := raised (s.lostRecord q c)

/-- Put a record into a queue and raise what this raises. -/
def State.postTo (s : State) (q : QFld) (c k : Nat) (body : BitVec 256) (vecs : List (Nat × Nat)) : State × Posted :=
  let p := s.queuePut q c k body vecs
  (p.1.raiseAll p.2.1, p.2.2)

/-- The records of a context that waited for a frozen translation are written (R294). -/
def State.flushHeld (s : State) (c : Nat) : State :=
  let x := s.ctx c
  x.heldRecs.foldl (fun s h =>
    let p := s.queueWrite (if h.cq then completionQueue else errorQueue) c h.cache h.body h.vecs
    p.1.raiseAll p.2.1) (s.setCtx c { x with heldRecs := [] })

/-- Freeze a context's translation with the record of a walk fault, and hold the walk (R294). -/
def State.freezeCtx (s : State) (c cls cva ptr level acc : Nat) (u : UnitRef) : State :=
  (s.frozen c cva acc u).raise (walkRecord c cls cva ptr level acc u)

/-- Translate a CVA and raise the records of its walk. -/
def State.translate (s : State) (h : Option HostErr) (k c cva acc : Nat) (u : UnitRef) : State × Xlat :=
  let p := s.xlat h k c cva acc u
  (p.1.raiseAll p.2.2, p.2.1)

/-- Read bytes by device address and raise the records of the read (R13, R234, R248-R257, R305). -/
def State.memRead (s : State) (w : Accessor) (a n : Nat) : State × List PByte :=
  let p := s.readBytes w a n
  (p.1.raiseAll p.2.1, p.2.2)

/-- Write a list of bytes, each at its own device address, and raise the records of the write. -/
def State.memWriteCells (s : State) (w : Accessor) (cells : List (Nat × PByte)) : State := raised (s.writeCells w cells)

/-- Write bytes from a device address upward. -/
def State.memWrite (s : State) (w : Accessor) (a : Nat) (bytes : List PByte) : State :=
  raised (s.writeBytes w a bytes)

/-! ### Observation rings and trace events (R528-R530, R536) -/

/-- Entries of a ring of R541. -/
def ringEntries (tel : Bool) (size : Nat) : Nat :=
  if size ≤ (if tel then 20 else 24) then 64 * 2 ^ size else 64

/-- The window of R536 that MTIME lies in starts anew. -/
def State.obsWindow (s : State) : State :=
  if s.obs.window = s.now / 10000 then s
  else { s with obs := { s.obs with window := s.now / 10000, hbmUsed := 0, linkUsed := 0 } }

/-- Bytes of HBM writes that observation may take in 10 us (R536). -/
def State.obsLimit (s : State) : Nat := s.fld .OBS_CAP_HBM_GBPS 0 * 10000

/-- Bytes of a port that observation may take in 10 us (R536). The limit is applied to the export as a whole
(notes/assumptions/25.md). -/
def State.obsLinkLimit (s : State) : Nat := s.fld .OBS_CAP_LINK_MBPS 0 * 10

structure RingFld where
  enable : Fld
  wrap : Fld
  remote : Fld
  size : Fld
  base : Fld
  prod : Fld
  cons : Fld
  lost : Fld
  flow : Fld

def telRing : RingFld :=
  ⟨.OBS_TEL_RING_ENABLE, .OBS_TEL_RING_WRAP, .OBS_TEL_RING_REMOTE, .OBS_TEL_RING_SIZE, .OBS_TEL_RING_BASE,
    .OBS_TEL_POS_PROD, .OBS_TEL_POS_CONS, .OBS_STATUS_TEL_LOST, .OBS_EXPORT_TEL_FLOW⟩

def trcRing : RingFld :=
  ⟨.OBS_TRC_RING_ENABLE, .OBS_TRC_RING_WRAP, .OBS_TRC_RING_REMOTE, .OBS_TRC_RING_SIZE, .OBS_TRC_RING_BASE,
    .OBS_TRC_POS_PROD, .OBS_TRC_POS_CONS, .OBS_STATUS_TRC_LOST, .OBS_EXPORT_TRC_FLOW⟩

/-- The observation unit writes device addresses of the PF (R528, R541). -/
def obsAcc : Accessor := Accessor.of ⟨8, 0⟩ (some 0)

/-- A WRITE packet of a send flow, as the flow's queue holds it until its injection (R362, R373). -/
def writePkt (f : Nat) (addr : Nat) (payload : List Byte) (poison : Bool) (ctx : Nat) : Pkt :=
  { type := 0, lane := false, vc := 3, dst := 0, part := 0, src := 0, seq := 0, eop := false, poison := poison,
    sflow := BitVec.ofNat 14 f, dflow := 0, epoch := 0, ctx := BitVec.ofNat 12 ctx, head := 0,
    len := BitVec.ofNat 16 payload.length, addr := BitVec.ofNat 64 addr, payload := payload, since := 0 }

def State.sendFlow (s : State) (f : Nat) : SendFlow := Tbl.get SendFlow.reset s.sendFlows f

def State.setSendFlow (s : State) (f : Nat) (x : SendFlow) : State := { s with sendFlows := Tbl.put s.sendFlows f x }

/-- Append a packet to the ones that wait in a send flow. -/
def State.queuePkt (s : State) (f : Nat) (p : Pkt) : State :=
  let x := s.sendFlow f
  s.setSendFlow f { x with queue := x.queue ++ [p] }

/-- Take n bytes of the window of R536. -/
def State.obsTake (s : State) (remote : Bool) (n : Nat) : State :=
  if remote then { s with obs := { s.obs with linkUsed := s.obs.linkUsed + n } }
  else { s with obs := { s.obs with hbmUsed := s.obs.hbmUsed + n } }

/-- n more bytes would pass the limit of R536. -/
def State.obsOver (s : State) (remote : Bool) (n : Nat) : Bool :=
  if remote then decide (s.obsLinkLimit < s.obs.linkUsed + n) else decide (s.obsLimit < s.obs.hbmUsed + n)

/-- Write one entry at the ring's next position; a local ring in memory, a remote one as a WRITE packet (R528). The
entry is given the number of entries written before it. -/
def State.ringStore (s : State) (tel : Bool) (q : RingFld) (body : Nat → List Byte) : State :=
  let n := ringEntries tel (s.fld q.size 0)
  let pos := s.fld q.prod 0
  let b := body pos
  let a := s.fld q.base 0 * 4096 + b.length * (pos % n)
  let s1 := if s.flag q.remote 0 then s.queuePkt (s.fld q.flow 0) (writePkt (s.fld q.flow 0) a b false 0)
    else s.memWrite obsAcc a (clean b)
  ((s1.obsTake (s.flag q.remote 0) b.length).count 24 b.length).wrapAdd q.prod 0 1

/-- A record of a ring is lost (R528). -/
def State.ringLost (s : State) (tel : Bool) : State :=
  let s1 : State := if tel then { s with obs := { s.obs with telLost := s.obs.telLost + 1 } }
    else { s with obs := { s.obs with trcLost := s.obs.trcLost + 1 } }
  s1.satAdd (if tel then .OBS_STATUS_TEL_LOST else .OBS_STATUS_TRC_LOST) 0 1

/-- Put an entry into an observation ring (R528). -/
def State.ringPut (s : State) (tel : Bool) (body : Nat → List Byte) (lostBody : Nat → Nat → List Byte) : State :=
  let q := if tel then telRing else trcRing
  let n := ringEntries tel (s.fld q.size 0)
  let full := fun (s : State) =>
    (s.fld q.prod 0 + 2 ^ 32 - s.fld q.cons 0) % 2 ^ 32 == n && !(s.flag q.wrap 0)
  let lost := if tel then s.obs.telLost else s.obs.trcLost
  if !(s.flag q.enable 0) then s
  else if s.flag q.remote 0 then
    let f := s.sendFlow (s.fld q.flow 0)
    if f.opened && !f.failed then s.ringStore tel q body
    else (s.ringLost tel).setFlag .OBS_STATUS_REMOTE_ERR 0 true
  else if full s then s.ringLost tel
  else if lost ≠ 0 then
    let s1 := s.ringStore tel q (lostBody lost)
    let s2 := if tel then { s1 with obs := { s1.obs with telLost := 0 } }
      else { s1 with obs := { s1.obs with trcLost := 0 } }
    if full s2 then s2.ringLost tel else s2.ringStore tel q body
  else s.ringStore tel q body

/-- The bytes of a trace event (R530). -/
def traceBytes (mtime kind ctx : Nat) (u : UnitRef) (a b c : Nat) : List Byte :=
  leBytes 32 (10 * mtime % 2 ^ 64 + (kind + ctx % 4096 * 2 ^ 16 + (u.kind * 4096 + u.idx) % 65536 * 2 ^ 32 +
    a % 65536 * 2 ^ 48) * 2 ^ 64 + b % 2 ^ 64 * 2 ^ 128 + c % 2 ^ 64 * 2 ^ 192)

/-- Write a trace event when its kind and its context are traced (R529); beyond the limit of R536 it is dropped. -/
def State.trace (s : State) (kind ctx : Nat) (u : UnitRef) (a b c : Nat) : State :=
  if s.flag .OBS_TRACE_EN 0 && bitAt (s.fld .OBS_TRACE_KINDS 0) kind &&
      (s.flag .OBS_TRACE_ALL_CTX 0 || s.fld .OBS_TRACE_CTX 0 == ctx) then
    let s1 := s.obsWindow
    let rem := s.flag .OBS_TRC_RING_REMOTE 0
    if s1.obsOver rem 32 then
      (s1.ringLost false).setFlag (if rem then .OBS_STATUS_CAP_LINK else .OBS_STATUS_CAP_HBM) 0 true
    else s1.ringPut false (fun _ => traceBytes s.now kind ctx u a b c) (fun n _ => traceBytes s.now 10 0 ⟨8, 0⟩ 0 n 0)
  else s

/-! ### Telemetry records (R524-R527, R536) -/

/-- The header of a telemetry record: time, KIND, SOURCE, SEQ. -/
def telHeader (mtime kind source seq : Nat) : Nat :=
  mtime % 2 ^ 64 + (kind % 256 + source % 256 * 2 ^ 8 + seq % 2 ^ 32 * 2 ^ 32) * 2 ^ 64

/-- A LOST record (R527). -/
def telLost (mtime source n seq : Nat) : List Byte :=
  leBytes 256 (telHeader mtime 3 source seq + n % 2 ^ 64 * 2 ^ 128)

/-- Put a telemetry record, given without its SEQ, into the ring; beyond the limit of R536 it waits. -/
def State.telPut (s : State) (source : Nat) (body : Nat) : State :=
  if s.flag .OBS_TEL_RING_ENABLE 0 then
    let s1 := s.obsWindow
    let rem := s.flag .OBS_TEL_RING_REMOTE 0
    if s1.obsOver rem 256 || !s1.obs.delayed.isEmpty then
      ({ s1 with obs := { s1.obs with delayed := s1.obs.delayed ++ [(source, body)] } } : State).setFlag
        (if rem then .OBS_STATUS_CAP_LINK else .OBS_STATUS_CAP_HBM) 0 true
    else s1.ringPut true (fun seq => leBytes 256 (body + seq % 2 ^ 32 * 2 ^ 96)) (telLost s.now source)
  else s

/-- The telemetry records that wait enter the ring as far as the limit lets them. -/
def State.telDrain (s : State) : State :=
  let l := s.obs.delayed
  l.foldl (fun s p => s.telPut p.1 p.2) { s with obs := { s.obs with delayed := [] } }

/-- Translate and read n bytes within pages: none while the translation is held or faults. -/
def State.readCva (s : State) (k c cva n acc : Nat) (w : Accessor) : Nat → State × Option (List PByte)
  | 0 => (s, none)
  | fuel + 1 =>
    if n = 0 then (s, some [])
    else
      let m := min n (4096 - cva % 4096)
      match s.translate w.hostErr k c cva acc w.unit with
      | (s1, .ok dev _) =>
        let r := s1.memRead w dev m
        let t := r.1.readCva k c (cva + m) (n - m) acc w fuel
        (t.1, t.2.map (fun l => r.2 ++ l))
      | (s1, _) => (s1, none)

/-- Translate and read n bytes page by page, as far as the translation goes: the bytes read, and whether they are all. -/
def State.readPart (s : State) (k c cva n acc : Nat) (w : Accessor) : Nat → State × List PByte × Bool
  | 0 => (s, [], n == 0)
  | fuel + 1 =>
    if n = 0 then (s, [], true)
    else
      let m := min n (4096 - cva % 4096)
      match s.translate w.hostErr k c cva acc w.unit with
      | (s1, .ok dev _) =>
        let r := s1.memRead w dev m
        let t := r.1.readPart k c (cva + m) (n - m) acc w fuel
        (t.1, r.2 ++ t.2.1, t.2.2)
      | (s1, _) => (s1, [], false)

/-- Translate and write bytes within pages; the Bool says that all of it was translated. -/
def State.writeCva (s : State) (k c cva : Nat) (bytes : List PByte) (w : Accessor) : Nat → State × Bool
  | 0 => (s, bytes.isEmpty)
  | fuel + 1 =>
    if bytes.isEmpty then (s, true)
    else
      let m := min bytes.length (4096 - cva % 4096)
      match s.translate w.hostErr k c cva 1 w.unit with
      | (s1, .ok dev _) => (s1.memWrite w dev (bytes.take m)).writeCva k c (cva + m) (bytes.drop m) w fuel
      | (s1, _) => (s1, false)

/-- Pages that a range of n bytes may touch. -/
def pagesOf (n : Nat) : Nat := n / 4096 + 2

/-! ### Glumes (R187-R197, R207) -/

def State.glume (s : State) (pid : Nat) : Glume := Tbl.get Glume.reset s.glumes pid

def State.setGlume (s : State) (pid : Nat) (g : Glume) : State := { s with glumes := Tbl.put s.glumes pid g }

/-- The unit of a Glume record: the bank of the physical Glume (R192). -/
def bankUnit (pid : Nat) : UnitRef := ⟨3, pid / 4096 % 16⟩

/-- The WAITER field of R207. -/
def Waiter.code : Waiter → Nat
  | .tiller s n => s.val * 1024 + n.val
  | .command r => 0x4000 + r.toNat
  | .notify _ => 0x8000
  | .barrier k => 0xC000 + k.val

/-- The detail of a Glume record (R207). -/
def glumeDetail (vid pid waiter deficit operand : Nat) : Nat :=
  vid % 65536 + pid % 65536 * 2 ^ 16 + waiter % 65536 * 2 ^ 32 + deficit % 65536 * 2 ^ 48 + operand % 2 ^ 64 * 2 ^ 64

/-- A translation that fails, by the rows of R196 in order; `pid` is 0xFFFF when it is not known. -/
inductive GRes where
  | ok (pid : Nat)
  | bad (cls pid : Nat)
  deriving DecidableEq, Repr

/-- The Glume bank of a fenced Sheaf refuses signals and fails waits (R454). -/
def State.bankFenced (s : State) (pid : Nat) : Bool :=
  decide (pid / 4096 < 12) && s.flag .MGT_DET_DUMAP_HI_FENCED (pid / 4096)

/-- R196 on a known physical Glume, by its state and owner alone. -/
def State.glumeHeld (s : State) (c pid : Nat) : GRes :=
  let g := s.glume pid
  if g.st == .free || g.owner.toNat != c then .bad 0x21 pid
  else if g.st == .frozen then .bad 0x26 pid
  else .ok pid

/-- R196 on a known physical Glume, for a signal or a wait: a fenced Sheaf's bank refuses both (R454). -/
def State.glumeCheck (s : State) (c pid : Nat) : GRes :=
  if s.bankFenced pid then .bad 0x21 pid else s.glumeHeld c pid

/-- Put an entry at the most recent end of a Glume translation cache of 2,048 entries (R197). -/
def gcachePut (e : GXlat) (l : List GXlat) : List GXlat :=
  (e :: l.filter (fun x => !(x.ctx == e.ctx && x.vid == e.vid))).take 2048

/-- The entry of a virtual ID: from cache k, or read from HBM (R196, R197). The second part is the entry and whether it
came poisoned. -/
def State.glumeEntry (s : State) (k c vid : Nat) : State × Nat × Bool :=
  let cache := Tbl.get [] s.gcaches k
  match cache.find? (fun e => e.ctx.toNat == c && e.vid.toNat == vid) with
  | some e => ({ s with gcaches := Tbl.put s.gcaches k (gcachePut e cache) }, e.entry.toNat, false)
  | none =>
    let r := s.memRead (Accessor.of ⟨3, k⟩ (some c)) (s.fld .GLM_CTX_CFG_TBASE c * 4096 + 4 * vid) 4
    let e := leNat (vals r.2)
    let bad := anyPoison r.2
    if bad || !(bitAt e 31) then (r.1, e, bad)
    else
      let ce : GXlat := ⟨BitVec.ofNat 12 c, BitVec.ofNat 16 vid, BitVec.ofNat 32 e⟩
      ({ r.1 with gcaches := Tbl.put r.1.gcaches k (gcachePut ce cache) }, e, false)

/-- The physical Glume that the table of context c gives virtual ID vid, through cache k (R196's first two rows). -/
def State.glumePid (s : State) (k c vid : Nat) : State × GRes :=
  if s.fld .GLM_CTX_CFG_TCOUNT c ≤ vid then (s, .bad 0x20 0xFFFF)
  else
    let r := s.glumeEntry k c vid
    if !(bitAt r.2.1 31) then (r.1, .bad 0x20 0xFFFF)
    else if r.2.2 then (r.1, .bad 0x27 0xFFFF)
    else (r.1, .ok (r.2.1 % 65536))

/-- Translate virtual ID vid of context c through cache k for a signal or a wait (R196). -/
def State.glumeXlat (s : State) (k c vid : Nat) : State × GRes :=
  match s.glumePid k c vid with
  | (s1, .ok pid) => (s1, s1.glumeCheck c pid)
  | r => r

/-- Count a dropped signal or token (R193, R203, R215). -/
def State.dropSignal (s : State) : State := s.satAdd .GLM_STATUS_DROPPED 0 1

/-- The unit of a Glume record: the bank of the physical Glume (R192, R299), a free value where the record names no
physical Glume (R206; DESIGN CHOICE: notes/assumptions/30.md). -/
def State.glumeUnit (s : State) (pid : Nat) : UnitRef :=
  if pid = 0xFFFF then ⟨3, s.freeWord.toNat % 16⟩ else bankUnit pid

/-- Raise a record of a Glume class. -/
def State.raiseGlume (s : State) (cls c pid detail : Nat) : State :=
  s.useFree.raiseCtx cls c (s.glumeUnit pid) detail

/-- Send a signal of a value to a virtual ID of context c through cache k, by a host write or by a unit (R188, R191,
R196, R228). -/
def State.sendSignalBy (s : State) (host : Bool) (k c vid value : Nat) : State :=
  if value = 0 then s
  else
    match s.glumeXlat k c vid with
    | (s1, .ok pid) =>
      { s1 with signals := s1.signals ++
          [⟨BitVec.ofNat 12 c, BitVec.ofNat 16 vid, BitVec.ofNat 16 pid, BitVec.ofNat 64 value, host⟩] }
    | (s1, .bad 0x26 _) => s1.dropSignal
    | (s1, .bad cls pid) => s1.raiseGlume cls c pid (glumeDetail vid pid 0 0 value)

/-- A unit's signal. -/
def State.sendSignal (s : State) (k c vid value : Nat) : State := s.sendSignalBy false k c vid value

/-- The value that a wait or a read sees: bank 15 is read in its copies (R192, R214). -/
def State.glumeValue (s : State) (pid : Nat) : Nat :=
  if pid / 4096 = 15 then (Tbl.get 0 s.bank15 (pid % 4096)).toNat else (s.glume pid).value.toNat

/-- The Sheaf cache of a Tiller, and Rachis B's cache (R197). -/
def rachisB : Nat := 13

end Sys2Proof.Machine
end

