-- ==== Sys2Proof/Machine/TillerOps.lean ====
section
/-! DEFINITION. What the Tiller's commands share: P registers and status, program faults and command faults (R173,
R290), queues, address generators (R159-R161), the array clear (R86), and the frame of a front-end dispatch (R138,
R147, R582). -/

namespace Sys2Proof.Machine

/-! ### Access to a Tiller -/

def State.til (s : State) (t : Nat) : Tiller := Tbl.get Tiller.reset s.tillers t

def State.setTil (s : State) (t : Nat) (x : Tiller) : State := { s with tillers := Tbl.put s.tillers t x }

/-- P register k of Tiller t (R178). -/
def State.preg (s : State) (t k : Nat) : Nat := s.fld .TIL_PARAM_VALUE (t * 256 + k)

def State.setPreg (s : State) (t k v : Nat) : State := s.setFld .TIL_PARAM_VALUE (t * 256 + k) v

/-- STATE of R180. -/
def State.tstate (s : State) (t : Nat) : Nat := s.fld .TIL_PROG_STATUS_STATE t

def State.setTstate (s : State) (t v : Nat) : State := s.setFld .TIL_PROG_STATUS_STATE t v

def State.pc (s : State) (t : Nat) : Nat := s.fld .TIL_PROG_STATUS_PC t

def State.setPc (s : State) (t v : Nat) : State := s.setFld .TIL_PROG_STATUS_PC t v

/-- The context of the command that a Tiller holds; 0 when it holds none. -/
def State.tctx (s : State) (t : Nat) : Nat :=
  match (s.til t).job with
  | some j => j.ctx.toNat
  | none => 0

/-- The unit of a Tiller in a record (R299). -/
def tilUnit (t : Nat) : UnitRef := ⟨0, t / 64 * 256 + t % 64⟩

/-- The accessor of a Tiller's own reads and writes. -/
def State.tilAcc (s : State) (t : Nat) : Accessor := Accessor.of (tilUnit t) (some (s.tctx t))

/-- A logical Tiller that can run: neither absent nor of a fenced Sheaf (R453, R454). -/
def State.present (s : State) (t : Nat) : Bool :=
  !(Tbl.get false s.absent t) && !(s.flag .MGT_DET_DUMAP_HI_FENCED (t / 64))

/-- The units of the Tiller take steps: the part is ready and the program has not faulted (R173, R485, R505). -/
def State.unitsRun (s : State) (t : Nat) : Bool :=
  s.ready && s.present t && (s.tstate t == 4 || s.tstate t == 5 || s.tstate t == 6)

/-! ### Gangs and array clear (R86, R99, R102) -/

/-- The gang mode in force: 0 off, 1 pairs, 2 quad; 11 is treated as 00. -/
def State.gang (s : State) (t : Nat) : Nat :=
  let g := s.fld .TIL_MA_CTRL_GANG t
  if g = 3 then 0 else g

/-- The arrays that run together with array a. -/
def gangArrays (g a : Nat) : List Nat :=
  match g with
  | 1 => if a < 2 then [0, 1] else [2, 3]
  | 2 => [0, 1, 2, 3]
  | _ => [a]

/-- The lead array of a's gang. -/
def gangLead (g a : Nat) : Nat := (gangArrays g a).headD a

/-- Every array's weights, scales and accumulators cleared (R86): zero weights, empty buffers, no group record. -/
def Tiller.clearArrays (x : Tiller) : Tiller :=
  { x with
    loaders := [], active := [], pipes := [], lastPass := [], accs := [] }

/-- All queues but ingress emptied, nothing in flight (R167, R296). -/
def Tiller.clearQueues (x : Tiller) : Tiller :=
  { x.clearArrays with
    insts := [], feeders := [], tiles := [], tileNext := 0, tileHead := 0, egress := [], sigWait := [], taken := [],
    banks := [], bankNext := 0, wait := none, gated := false, halting := false, stepping := false, ended := false, wdog := 0 }

/-! ### Records of the Tiller (R176) and program faults (R173) -/

/-- Detail of a record of class 0x30-0x3E (R176). -/
def tilDetail (pc source sub count operand : Nat) : Nat :=
  pc % 65536 + source % 256 * 2 ^ 16 + sub % 256 * 2 ^ 24 + count % 2 ^ 32 * 2 ^ 32 + operand % 2 ^ 64 * 2 ^ 64

def State.ring (s : State) (r : Nat) : Ring := Tbl.get Ring.reset s.rings r

def State.setRing (s : State) (r : Nat) (x : Ring) : State := { s with rings := Tbl.put s.rings r x }

/-- A field of a command (R279): bits [hi:lo] of the 4-byte or 8-byte word at an offset. -/
def cmdField (cmd : BitVec 512) (off hi lo : Nat) : Nat := bitsOf cmd.toNat (8 * off + hi) (8 * off + lo)

/-- A completion record as a number of 32 bytes with PHASE clear (R301). -/
def completionBits (mtime : Nat) (cmd : BitVec 512) (pos ring : Nat) (cancelled faulted : Bool) (cause dur : Nat) :
    BitVec 256 :=
  let fl := (if cancelled then 64 else 0) + (if faulted then 32 else 0)
  BitVec.ofNat 256 (mtime % 2 ^ 64 + cmdField cmd 8 31 0 * 2 ^ 64 + cmdField cmd 4 31 0 * 2 ^ 96 + pos % 2 ^ 64 * 2 ^ 128 +
    ring % 2 ^ 14 * 2 ^ 192 + fl * 2 ^ 208 + cause % 256 * 2 ^ 216 + min dur (2 ^ 32 - 1) * 2 ^ 224)

/-- Write the completion record through the home Sheaf's cache when REC is set, and after it send the completion vector when
IRQ is set (R285, R304). -/
def State.completion (s : State) (c : Nat) (cmd : BitVec 512) (pos ring : Nat) (cancelled faulted : Bool)
    (cause dur : Nat) : State :=
  let vecs := if cmdField cmd 0 4 4 = 1 then [(c, 0)] else []
  if cmdField cmd 0 5 5 = 1 then
    let p := s.postTo completionQueue c (s.fld .CTX_RING_CFG_HOME ring)
      (completionBits s.now cmd pos ring cancelled faulted cause dur) vecs
    if p.2 = .lost then p.1.setVectors vecs else p.1
  else s.setVectors vecs

/-- No program is resident: TIL_PROG_IMAGE describes none (R166, R181; DEDUCED: notes/assumptions/54.md). -/
def State.noProgram (s : State) (t : Nat) : State :=
  ((s.setFld .TIL_PROG_IMAGE_NINST t 0).setFld .TIL_PROG_IMAGE_IMAGE_ID t 0).setFld .TIL_PROG_IMAGE_BASE16 t 0

/-- A Tiller of a faulted command stops and enters the faulted state with a class; no program stays resident, and the banks of the
reduction unit hold nothing (R134, R166, R173, R290; notes/assumptions/11.md). -/
def State.faultTiller (s : State) (t cls : Nat) : State :=
  let x := s.til t
  let s1 := s.setTil t { x.clearArrays with
    insts := [], sigWait := [], banks := [], bankNext := 0, wait := none, gated := false, halting := false, stepping := false, ended := false, job := none,
    wdog := 0 }
  ((s1.setTstate t 7).setFld .TIL_PROG_STATUS_FAULT_CLASS t cls).noProgram t

/-- What a faulted command reports (R285, R290, R301): its completion record with FAULTED and the cause, the trace event,
and class 0x15. -/
def State.reportFault (s : State) (r pos : Nat) (cmd : BitVec 512) (cls dur : Nat) : State :=
  let own := s.fld .CTX_RING_CFG_CTX r
  let u : UnitRef := ⟨1, s.fld .CTX_RING_CFG_HOME r⟩
  ((s.completion own cmd pos r false true cls dur).trace 2 own u r pos (2 + cls * 256)).raiseCtx 0x15 own u
    (pos % 2 ^ 64 + r * 2 ^ 64 + cls * 2 ^ 80 + cmdField cmd 8 31 0 * 2 ^ 96)

/-- The command at a position of a ring faults (R290): its other Tillers stop with class 0x15, its signals are not
sent, its record carries FAULTED and the cause, class 0x15 is raised and the ring stops. -/
def State.commandFault (s : State) (r pos cls : Nat) : State :=
  let x := s.ring r
  match x.running.find? (fun c => c.pos == pos && c.fault.isNone) with
  | none => s
  | some c =>
    let s1 := (c.tillers.filter (fun p => p.2 == 0)).foldl (fun s p =>
      match (s.til p.1).job with
      | some j => if j.ring.toNat == r && j.pos == pos then s.faultTiller p.1 0x15 else s
      | none => s) s
    let x1 := s1.ring r
    let s2 := s1.setRing r { x1 with
        running := x1.running.map (fun d => if d.pos == pos then { d with fault := some (BitVec.ofNat 8 cls) } else d),
        stopped := x1.stopped ++ [(pos, BitVec.ofNat 8 cls)] }
    s2.reportFault r pos c.cmd cls (s2.now - c.start)

/-- A program fault of Tiller t (R173): one record with PROGRAM set, the faulted state, and the command faulted. -/
def State.progFault (s : State) (t cls pc detail : Nat) : State :=
  let job := (s.til t).job
  let s1 := s.raise ⟨cls, some (s.tctx t), tilUnit t, detail, true, false⟩
  let s2 := (s1.faultTiller t cls).setPc t pc
  match job with
  | some j => s2.commandFault j.ring.toNat j.pos cls
  | none => s2

/-! ### Queues and bindings (R142, R164) -/

/-- The binding-table entry of a queue. -/
def State.binding (s : State) (t q : Nat) : Nat := (Tbl.get 0 (s.til t).bind q).toNat

def bindKind (b : Nat) : Nat := bitsOf b 63 60
def bindAg (b : Nat) : Nat := bitsOf b 59 56
def bindPdesc (b : Nat) : Nat := bitsOf b 55 48
def bindBase (b : Nat) : Nat := bitsOf b 41 21
def bindLast (b : Nat) : Nat := bitsOf b 20 0

/-- What a queue number is bound to (R142). -/
inductive QKind where
  | feeder (a : Nat) | loader (a : Nat) | tile | readWin | writeWin | egress | ingress | unbound
  deriving DecidableEq, Repr

def State.qkind (s : State) (t q : Nat) : QKind :=
  if q < 4 then .feeder q
  else if q < 8 then .loader (q - 4)
  else if q = 8 then .tile
  else
    match bindKind (s.binding t q) with
    | 1 => .readWin
    | 2 => .writeWin
    | 3 => .egress
    | 4 => .ingress
    | _ => .unbound

/-- The flow descriptor of a link queue, as it was read at the replay's start (R394, R395). -/
def State.desc (s : State) (t q : Nat) : Nat := (Tbl.get 0 (s.til t).desc q).toNat

def descMode (d : Nat) : Nat := bitsOf d 63 60
def descGroup (d : Nat) : Nat := bitsOf d 59 52
def descLane (d : Nat) : Nat := bitsOf d 51 46
def descEbase (d : Nat) : Nat := bitsOf d 45 14
def descFlow (d : Nat) : Nat := bitsOf d 13 0

/-- A flow descriptor that R394 refuses: a reserved mode, a mode the queue kind does not allow, or a misaligned EBASE. -/
def descBad (egress : Bool) (d : Nat) : Bool :=
  decide (3 ≤ descMode d) || (!egress && descMode d != 0) || (descMode d == 1 && descEbase d % 1024 != 0)

/-- Detail of a record of class 0x70-0x77 (R415). -/
def colDetail (g rank idx : Nat) : Nat := g % 65536 + rank % 256 * 2 ^ 16 + idx % 2 ^ 32 * 2 ^ 32

/-- The program fault of a bad flow descriptor (R394). -/
def State.descFault (s : State) (t pc q : Nat) : State :=
  s.progFault t 0x70 pc (colDetail (if descMode (s.desc t q) = 0 then 0 else descGroup (s.desc t q)) 0 0)

/-- Bytes that an egress queue holds; a signal takes 32 (R158). -/
def egressBytes (l : List EItem) : Nat :=
  (l.map (fun i => match i with
    | .byte _ => 1
    | .eop => 0
    | .signal _ _ => 32)).sum

/-- Push items into an egress queue. -/
def Tiller.push (x : Tiller) (q : Nat) (items : List EItem) : Tiller :=
  { x with egress := Tbl.put x.egress q (Tbl.get [] x.egress q ++ items) }

/-- Room for n bytes in an egress queue (R141, R142). -/
def Tiller.egressRoom (x : Tiller) (q n : Nat) : Bool := decide (egressBytes (Tbl.get [] x.egress q) + n ≤ 16384)

/-! ### Address generators (R159-R161) -/

/-- The descriptor at P registers j to j+4 (R159). RUN = 0 is reserved. -/
def State.agLoad (s : State) (t j : Nat) : Ag :=
  let p := fun k => s.preg t (j + k)
  { c := [bitsOf (p 0) 15 0, bitsOf (p 0) 31 16, bitsOf (p 0) 47 32, bitsOf (p 0) 63 48, bitsOf (p 1) 15 0,
      bitsOf (p 1) 31 16]
    st := [signedOf 32 (p 2), signedOf 32 (p 2 / 2 ^ 32), signedOf 32 (p 3), signedOf 32 (p 3 / 2 ^ 32),
      signedOf 32 (p 4), signedOf 32 (p 4 / 2 ^ 32)]
    run := bitsOf (p 1) 63 53
    start := bitsOf (p 1) 52 32
    i := [0, 0, 0, 0, 0, 0]
    wraps := 0
    used := 0 }

/-- The offset of the current run within the window (R160). -/
def Ag.offset (g : Ag) : Int :=
  (g.start : Int) + ((g.i.zip g.st).map (fun p => (p.1 : Int) * p.2)).foldl (· + ·) 0

/-- The counters after a run has been consumed: level by level, a full level returns to 0 (R160). The Bool says that
all six levels wrapped. -/
def agStep : List Nat → List Nat → List Nat × Bool
  | [], _ => ([], true)
  | i :: is, cs =>
    if i + 1 < max (cs.headD 0) 1 then ((i + 1) :: is, false)
    else
      let r := agStep is cs.tail
      (0 :: r.1, r.2)

def Ag.next (g : Ag) : Ag :=
  let r := agStep g.i g.c
  { g with i := r.1, wraps := if r.2 then g.wraps + 1 else g.wraps, used := 0 }

/-- A run lies inside its window (R161). -/
def Ag.runOk (g : Ag) (b : Nat) : Bool :=
  decide (0 ≤ g.offset) && decide ((bindBase b : Int) + g.offset + g.run - 1 ≤ (bindLast b : Int))

/-- Take n bytes from the stream of a window: their store offsets and the generator after them, or the window offset of
a run that lies outside (R160, R161). -/
def agTake (b : Nat) : Nat → Ag → Nat → Except Int (List Nat × Ag)
  | 0, g, _ => .ok ([], g)
  | fuel + 1, g, n =>
    if n = 0 then .ok ([], g)
    else if g.run = 0 || !(g.runOk b) then .error g.offset
    else
      let m := min n (g.run - g.used)
      let base := ((bindBase b : Int) + g.offset).toNat + g.used
      let here := (List.range m).map (fun k => base + k)
      let g1 := if g.used + m < g.run then { g with used := g.used + m } else g.next
      match agTake b fuel g1 (n - m) with
      | .error e => .error e
      | .ok (l, g2) => .ok (here ++ l, g2)

def Ag.zero : Ag := { c := [], st := [], run := 0, start := 0, i := [], wraps := 0, used := 0 }

def State.ag (s : State) (t q : Nat) : Ag := Tbl.get Ag.zero (s.til t).ags (bindAg (s.binding t q))

def State.setAg (s : State) (t q : Nat) (g : Ag) : State :=
  let x := s.til t
  s.setTil t { x with ags := Tbl.put x.ags (bindAg (s.binding t q)) g }

/-- The device address of an offset from a Tiller's store, for an access of n bytes: one that does not lie in the store reaches a
hole (R12, R123). -/
def ownAddr (t : Nat) (o : Int) (n : Nat) : Nat :=
  if 0 ≤ o ∧ o + n ≤ 0x200000 then storeAddr t o.toNat else (2 ^ 48 + o).toNat

/-- Read bytes of a Tiller's own store at a list of offsets, each wanted or not (R122: a masked element reads nothing). -/
def State.storeRead (s : State) (t : Nat) : List (Nat × Bool) → State × List PByte
  | [] => (s, [])
  | (o, want) :: rest =>
    if want then
      let r := s.memRead (s.tilAcc t) (ownAddr t o 1) 1
      let q := r.1.storeRead t rest
      (q.1, r.2.headD ⟨0, true⟩ :: q.2)
    else
      let q := s.storeRead t rest
      (q.1, ⟨0, false⟩ :: q.2)

/-- Write bytes of a Tiller's own store; an offset without a byte is left unchanged. -/
def State.storeWrite (s : State) (t : Nat) (cells : List (Nat × Option PByte)) : State :=
  s.memWriteCells (s.tilAcc t) (cells.filterMap (fun p => p.2.map (fun b => (storeAddr t p.1, b))))

/-! ### Instructions (R147-R149) -/

/-- The fields of an instruction word. -/
structure Enc where
  opc : Nat
  mod : Nat
  dst : Nat
  a : Nat
  b : Nat
  c : Nat
  res : Nat
  men : Bool
  midx : Nat
  px : Nat
  imm : Nat
  deriving DecidableEq, Repr

def encOf (w : BitVec 128) : Enc :=
  let x := w.toNat
  { opc := bitsOf x 127 120, mod := bitsOf x 119 112, dst := bitsOf x 111 104, a := bitsOf x 103 96,
    b := bitsOf x 95 88, c := bitsOf x 87 80, res := bitsOf x 79 76, men := bitAt x 75, midx := bitsOf x 74 72,
    px := bitsOf x 71 64, imm := bitsOf x 63 0 }

/-- Operand KIND and INDEX (R148). -/
def opKind (x : Nat) : Nat := x / 32
def opIdx (x : Nat) : Nat := x % 32

/-- Opcodes that name an instruction (R149). -/
def opcodeKnown (o : Nat) : Bool :=
  decide (o ≤ 0x0A) || o == 0x10 || o == 0x11 || o == 0x20 || (decide (0x40 ≤ o) && decide (o ≤ 0x4B)) ||
    (decide (0x50 ≤ o) && decide (o ≤ 0x58)) || (decide (0x60 ≤ o) && decide (o ≤ 0x68)) || o == 0x6A || o == 0x6B ||
    (decide (0x70 ≤ o) && decide (o ≤ 0x73)) || (decide (0x78 ≤ o) && decide (o ≤ 0x7C))

/-- A failing check: class, SUB, SOURCE (R176, R582). -/
structure Bad where
  cls : Nat
  sub : Nat
  source : Nat
  deriving DecidableEq, Repr

/-- A reserved field is nonzero (R147). -/
def badField : Bad := ⟨0x38, 1, 5⟩

/-- The first failing check of a list (R582). -/
def firstBad : List (Bool × Bad) → Option Bad
  | [] => none
  | (b, x) :: t => if b then some x else firstBad t

/-- The store offset of instruction k of the resident program (R163, R165, R181). -/
def State.instOffset (s : State) (t k : Nat) : Nat := s.fld .TIL_PROG_IMAGE_BASE16 t * 16 + 16 * k

/-- The instruction word at an index. -/
def State.fetch (s : State) (t k : Nat) : BitVec 128 :=
  BitVec.ofNat 128 (s.peekNat (storeAddr t (s.instOffset t k)) 16)

/-- The front end can dispatch: running or stepping, the part ready, fewer than 64 instructions in flight, no
ck_core change in progress (R138, R139, R172, R485, R497). -/
def State.canDispatch (s : State) (t : Nat) : Bool :=
  let x := s.til t
  s.ready && s.present t && (s.tstate t == 4 || (s.tstate t == 6 && x.stepping)) && decide (x.insts.length < 64) &&
    !x.ended && decide (s.power.clockHold ≤ s.now)

/-- After a dispatch: it is counted, the watchdog cleared, and a step or a halt stops the Tiller (R172, R174, R543). -/
def State.dispatched (s : State) (t : Nat) : State :=
  let x := s.til t
  let s1 := (s.satAdd .TIL_OBS_INST_INSTR t 1).count (tcKey t 18) 1
  let s2 := s1.setTil t { x with wdog := 0, stepping := false, halting := false }
  if (x.stepping || x.halting) && s2.tstate t == 4 then s2.setTstate t 6 else s2

/-- A failed check is a program fault at this instruction; class 0x36 also sets SHAPE_ERR (R134). -/
def State.badInst (s : State) (t pc : Nat) (b : Bad) : State :=
  (if b.cls = 0x36 then s.setFlag .TIL_VE_STATUS_SHAPE_ERR t true else s).progFault t b.cls pc
    (tilDetail pc b.source b.sub 0 0)

/-- The frame of every front-end dispatch (R138, R175, R582): fetch at PC; beyond the program class 0x3B; another opcode
leaves the state as it is; a failing check is a program fault; else the instruction acts. -/
def State.frontEnd (s : State) (t opc : Nat) (check : State → Enc → Option Bad) (act : State → Enc → Nat → State) :
    State :=
  if s.canDispatch t then
    let pc := s.pc t
    if s.fld .TIL_PROG_IMAGE_NINST t ≤ pc then s.badInst t pc ⟨0x3B, 0, 5⟩
    else
      let e := encOf (s.fetch t pc)
      if e.opc = opc then
        match check s e with
        | some b => s.badInst t pc b
        | none => act s e pc
      else s
  else s

/-- The next instruction follows. -/
def State.nextPc (s : State) (t pc : Nat) : State := (s.setPc t (pc + 1)).dispatched t

/-- Put an instruction in flight (R139): it takes the next dispatch number and waits in its unit. -/
def State.enqueue (s : State) (t pc unit steps tile : Nat) (word : BitVec 128) (conv : List Word) (scal : Word) :
    State :=
  let x := s.til t
  let i : Inst :=
    { id := x.nextId, pc := pc, word := word, unit := unit, steps := steps, done := 0, tile := tile, conv := conv,
      scal := scal, poisoned := 0, watch := none, gfault := false, capt := [] }
  s.setTil t { x with insts := x.insts ++ [i], nextId := x.nextId + 1 }

/-- Update an instruction in flight. -/
def State.setInst (s : State) (t : Nat) (i : Inst) : State :=
  let x := s.til t
  s.setTil t { x with insts := x.insts.map (fun j => if j.id == i.id then i else j) }

/-- An instruction in flight that is older than dispatch number k pushes into queue q. -/
def Tiller.pushesBefore (x : Tiller) (q k : Nat) : Bool :=
  x.insts.any (fun i => decide (i.id < k) && (encOf i.word).dst == 32 + q)

/-- A dispatched SIGNAL may enter its egress queue: every earlier instruction that pushes there has completed, every earlier
SIGNAL has entered, and 32 bytes are free (R158). -/
def Tiller.signalEnters (x : Tiller) (w : SigWait) : Bool :=
  !(x.pushesBefore w.q w.id) && !(x.sigWait.any (fun v => v.q == w.q && decide (v.id < w.id))) && x.egressRoom w.q 32

/-- The SIGNALs that may enter do, in the order of their dispatch. -/
def Tiller.admitSignals (x : Tiller) : Tiller :=
  x.sigWait.foldl (fun y w =>
    if y.signalEnters w then
      { y.push w.q [.signal w.vid w.value] with sigWait := y.sigWait.filter (fun v => v.id != w.id) }
    else y) x

/-- An instruction completes (R139); a Tiller whose WAIT holds dispatch is gated when nothing is left (R199), and a SIGNAL that
waited for it enters its queue (R158). -/
def State.retire (s : State) (t id : Nat) : State :=
  let x := s.til t
  let l := x.insts.filter (fun j => j.id != id)
  s.setTil t ({ x with insts := l, gated := x.wait.isSome && l.isEmpty } : Tiller).admitSignals

/-- The oldest instruction of a unit that still has steps to perform (R138). -/
def Tiller.unitHead (x : Tiller) (unit : Nat) : Option Inst :=
  x.insts.find? (fun i => i.unit == unit && decide (i.done < i.steps))

/-- A step proceeded: the watchdog starts again (R174). -/
def State.stepped (s : State) (t : Nat) : State :=
  let x := s.til t
  s.setTil t { x with wdog := 0 }

/-! ### Order of window accesses (R145, R146) -/

/-- Queue operands of an instruction word: (queue, written?). -/
def queuesOf (e : Enc) : List (Nat × Bool) :=
  (if opKind e.dst = 1 then [(opIdx e.dst, true)] else []) ++
    ([e.a, e.b, e.c].filter (fun x => opKind x == 1 || opKind x == 2)).map (fun x => (opIdx x, false))

/-- Bytes of a store element of VGATH's bound window. -/
def gathWindow (e : Enc) (i : Inst) : Option (Nat × Nat) :=
  if e.opc = 0x7C then
    let p := (i.conv.headD 0).toNat
    let base := bitsOf p 20 0
    let bytes := fmtBytes (bitsOf e.imm 39 36) (bitsOf p 63 32)
    if bytes = 0 then none else some (base, base + bytes - 1)
  else none

/-- The store windows that an instruction reads and writes: (first, last, written?). -/
def State.windowsOf (s : State) (t : Nat) (i : Inst) : List (Nat × Nat × Bool) :=
  let e := encOf i.word
  ((queuesOf e).filter (fun p => s.qkind t p.1 == .readWin || s.qkind t p.1 == .writeWin)).map (fun p =>
    (bindBase (s.binding t p.1), bindLast (s.binding t p.1), p.2)) ++
  match gathWindow e i with
  | some p => [(p.1, p.2, false)]
  | none => []

/-- Two window uses that R146 orders: they overlap and at least one writes. -/
def windowsClash (a b : Nat × Nat × Bool) : Bool :=
  (a.2.2 || b.2.2) && decide (a.1 ≤ b.2.1) && decide (b.1 ≤ a.2.1)

/-- Source queues that only their own reader empties: the tile queue and the ingress queues. -/
def sharedSources (e : Enc) : List Nat :=
  (([e.a, e.b, e.c].filter (fun x => opKind x == 1 || opKind x == 2)).map opIdx).filter (fun q => q == 8 || decide (28 ≤ q))

/-- A step of instruction i waits under R145 or R146: an earlier instruction that names one of its window queues has
steps left, or an earlier instruction in flight clashes with one of its windows. Readers of the tile queue and of an
ingress queue follow program order likewise (R93, R111; DEDUCED: notes/assumptions/13.md). -/
def State.ordered (s : State) (t : Nat) (i : Inst) : Bool :=
  let x := s.til t
  let mine := s.windowsOf t i
  let qs := (queuesOf (encOf i.word)).filter (fun p => decide (9 ≤ p.1) && decide (p.1 ≤ 23))
  let src := sharedSources (encOf i.word)
  (x.insts.filter (fun j => decide (j.id < i.id))).all (fun j =>
    !(decide (j.done < j.steps) && (queuesOf (encOf j.word)).any (fun p => qs.any (fun q => q.1 == p.1))) &&
    !(decide (j.done < j.steps) && (sharedSources (encOf j.word)).any (fun q => src.contains q)) &&
    !((s.windowsOf t j).any (fun a => mine.any (fun b => windowsClash a b))))

/-- The oldest instruction of a unit, when the unit takes steps and the order of R145 and R146 lets it. -/
def State.unitStep (s : State) (t unit : Nat) : Option Inst :=
  if s.unitsRun t then
    match (s.til t).unitHead unit with
    | some i => if s.ordered t i then some i else none
    | none => none
  else none

/-- Instruction i has performed k more units of an LD or ST; after the last it completes (R139). -/
def State.unitDone (s : State) (t : Nat) (i : Inst) (k : Nat) : State :=
  let s1 := s.stepped t
  if i.done + k < i.steps then s1.setInst t { i with done := i.done + k } else s1.retire t i.id

/-- A run outside its window (R161): class 0x3A with the queue and the run's offset. A descriptor whose RUN is 0 is
illegal when a step takes bytes through it (R159, R175; DEDUCED: notes/assumptions/27.md). -/
def State.runFault (s : State) (t pc q : Nat) (a : Int) : State :=
  if (s.ag t q).run = 0 then s.progFault t 0x38 pc (tilDetail pc 5 3 0 0)
  else s.progFault t 0x3A pc (tilDetail pc 5 q 0 (wrapInt 64 a))

end Sys2Proof.Machine
end

