-- ==== Sys2Proof/Machine/Access.lean ====
section
/-! DEFINITION. Register access: what a register reads as (R17, R19, R20), where it lies (R14, R103, R272, R309), who
reaches it (R15, R490, R506, R546, R560), and the audit of writes (R22, R551). -/

namespace Sys2Proof.Machine

/-! ### Fields that report the machine's state -/

/-- The key of an input buffer: a port's receiver (0-7), or this module's own packets that wait for a port (8), and buffer
0-6: VC0 lane 0 and 1, VC1, VC2, VC3, VC4 lane 0 and 1 (R365). -/
def bufKey (inp buf : Nat) : Nat := inp * 7 + buf

/-- No packet in a VC1-VC4 input buffer, no unacknowledged packet, injection held (R380). -/
def State.drained (s : State) : Bool :=
  s.flag .FAB_CTRL_INJ_HOLD 0 &&
    s.inbufs.all (fun p => decide (p.1 % 7 < 2) || decide (56 ≤ p.1) || p.2.isEmpty) &&
    s.sendFlows.all (fun p => p.2.retain.isEmpty)

/-- An array streams, drains or loads (R105). -/
def State.arrayBusy (s : State) (t a : Nat) : Bool :=
  let x := s.til t
  !(Tbl.get [] x.pipes a).isEmpty || x.accs.any (fun p => p.1 / 2 == a && p.2.finished) ||
    x.insts.any (fun i => i.unit == 8 + 4 + a)

/-- The vector engine issues, or a tree holds results (R134). -/
def State.vectorBusy (s : State) (t : Nat) : Bool :=
  let x := s.til t
  x.insts.any (fun i => i.unit == 4 && decide (i.done < i.steps)) || x.banks.any (fun p => p.2.busy)

/-- A round is in progress in a group (R424). -/
def State.groupBusy (s : State) (g : Nat) : Bool :=
  let x := Tbl.get Group.reset s.groups g
  s.flag .COL_GRP_CFG0_ARM g &&
    (!x.contrib.isEmpty || !x.partials.isEmpty || !x.halves.isEmpty || !x.exps.isEmpty || !x.written.isEmpty ||
      x.pushes.any (fun p => decide (s.fld .COL_GRP_STATUS_ROUND g < x.start + p.2)))

/-- Physical Tillers of a Sheaf that no logical number names, as bits (R449). -/
def State.disabledMap (s : State) (sh : Nat) : Nat :=
  let used := ((List.range 64).filter (fun n => !(Tbl.get false s.absent (sh * 64 + n)))).map (fun n =>
    Tbl.get n s.phys (sh * 64 + n))
  ((List.range 68).filter (fun p => !(used.contains p))).foldl (fun a p => a + 2 ^ p) 0

/-- Physical Tillers of a Sheaf that have never been used: the spares left (R452, R476). -/
def State.sparesLeft (s : State) (sh : Nat) : Nat :=
  ((List.range 68).filter (fun p => decide (64 ≤ p) && !(Tbl.get false s.used (sh * 68 + p)))).length

/-- STATE of a ring (R309). -/
def State.ringState (s : State) (r : Nat) : Nat :=
  let x := s.ring r
  if !(s.flag .CTX_RING_BASE_ENABLE r) then 0
  else if !x.stopped.isEmpty then 4
  else if s.flag .CTX_STATUS_FROZEN (s.fld .CTX_RING_CFG_CTX r) then 5
  else if !x.running.isEmpty then 3
  else if s.fld .CTX_RING_HEAD_HEAD r < x.tail then 2
  else 1

/-- HEAD as software reads it: the ring stops with its head at a faulted command (R290). -/
def State.headShown (s : State) (r : Nat) : Nat :=
  match (s.ring r).stopped with
  | p :: _ => p.1
  | [] => s.fld .CTX_RING_HEAD_HEAD r

/-- The physical channel of logical channel 8k + j, for byte j of map register k of a port; i = 4 p + k (R356). -/
def State.chanOf (s : State) (rx : Bool) (i j : Nat) : Option Nat :=
  let x := Tbl.get Port.reset s.ports (i / 4)
  ((if rx then x.mapRx else x.mapTx).find? (fun q => q.1 == 8 * (i % 4) + j)).map (·.2)

/-- The disabled-unit map of a Sheaf as its two registers, little-endian (R449). -/
def State.dumapBytes (s : State) (sh : Nat) : List Byte :=
  leBytes 8 (s.disabledMap sh % 2 ^ 64) ++
    leBytes 8 (s.disabledMap sh / 2 ^ 64 % 16 + s.fld .MGT_DET_DUMAP_HI_FENCED sh * 16)

/-- The 32-byte fingerprint (R441). -/
def State.fingerprint (s : State) : List Byte :=
  leBytes 4 (s.fld .MGT_FW_RUN_VER 0) ++
    leBytes 4 (s.fld .MGT_DET_CTRL_STRICT 0 + s.fld .MGT_DET_CTRL_PORTABLE 0 * 2 +
      s.fld .MGT_DET_STATUS_STRICT_HELD 0 * 4 + s.fld .MGT_DET_STATUS_PORTABLE_HELD 0 * 8) ++
    (sha256 ((List.range 12).flatMap s.dumapBytes)).take 8 ++
    leBytes 2 (s.fld .PWR_CLK_PLAN_FREQ_REQ_MHZ 0) ++ leBytes 2 (s.fld .PWR_CAP_CAP_W 0) ++ leBytes 4 0xAE12 ++
    leBytes 8 (s.fld .MGT_DET_EVT_PORT_CHANGES 0 + s.fld .MGT_DET_EVT_DUMAP_CHANGES 0 * 2 ^ 16 +
      s.fld .MGT_DET_EVT_HOLDS 0 * 2 ^ 32 + s.fld .MGT_DET_EVT_STRETCHES 0 * 2 ^ 48)

/-- The key of a cause counter of R543, which OBS_CLR clears; i is 16 t + cause, the count is in hundredths of a
cycle. -/
def cycKey (i : Nat) : Nat := 65536 + i

/-- The value of a field as it stands: stored, or derived from the machine's state. -/
def State.view (s : State) (f : Fld) (i : Nat) : Nat :=
  match f with
  | .TIL_MA_STATUS_BUSY => ((List.range 4).filter (fun a => s.arrayBusy i a)).foldl (fun v a => v + 2 ^ a) 0
  | .TIL_VE_STATUS_BUSY => if s.vectorBusy i then 1 else 0
  | .TIL_PROG_STATUS_INFLIGHT => (s.til i).insts.length
  | .GLM_STATUS_ADMIN_BUSY => if s.adminPid.isSome then 1 else 0
  | .GLM_STATUS_INVAL_BUSY => if s.glmInval.isSome then 1 else 0
  | .GLM_BAR_STATUS_ARRIVED => if (Tbl.get Barrier.reset s.barriers i).arrivedAt.isSome then 1 else 0
  | .CTX_RING_CFG_STATE => s.ringState i
  | .CTX_RING_HEAD_HEAD => s.headShown i
  | .CTX_STATUS_EPOCH => s.fld .CTX_CFG_EPOCH i
  | .CTX_TLB_INVAL_BUSY => if (s.ctx i).tlbInval.isSome then 1 else 0
  | .HBM_STATUS_RETIRED => s.retired.length
  | .HBM_MIR_STATUS_BUSY => if s.mirror.sync.isSome then 1 else 0
  | .LNK_MAP_TX_VALID0 => if (s.chanOf false i 0).isSome then 1 else 0
  | .LNK_MAP_TX_LAMBDA0 => (s.chanOf false i 0).getD 0 % 5
  | .LNK_MAP_TX_FIBRE0 => (s.chanOf false i 0).getD 0 / 5
  | .LNK_MAP_TX_VALID1 => if (s.chanOf false i 1).isSome then 1 else 0
  | .LNK_MAP_TX_LAMBDA1 => (s.chanOf false i 1).getD 0 % 5
  | .LNK_MAP_TX_FIBRE1 => (s.chanOf false i 1).getD 0 / 5
  | .LNK_MAP_TX_VALID2 => if (s.chanOf false i 2).isSome then 1 else 0
  | .LNK_MAP_TX_LAMBDA2 => (s.chanOf false i 2).getD 0 % 5
  | .LNK_MAP_TX_FIBRE2 => (s.chanOf false i 2).getD 0 / 5
  | .LNK_MAP_TX_VALID3 => if (s.chanOf false i 3).isSome then 1 else 0
  | .LNK_MAP_TX_LAMBDA3 => (s.chanOf false i 3).getD 0 % 5
  | .LNK_MAP_TX_FIBRE3 => (s.chanOf false i 3).getD 0 / 5
  | .LNK_MAP_TX_VALID4 => if (s.chanOf false i 4).isSome then 1 else 0
  | .LNK_MAP_TX_LAMBDA4 => (s.chanOf false i 4).getD 0 % 5
  | .LNK_MAP_TX_FIBRE4 => (s.chanOf false i 4).getD 0 / 5
  | .LNK_MAP_TX_VALID5 => if (s.chanOf false i 5).isSome then 1 else 0
  | .LNK_MAP_TX_LAMBDA5 => (s.chanOf false i 5).getD 0 % 5
  | .LNK_MAP_TX_FIBRE5 => (s.chanOf false i 5).getD 0 / 5
  | .LNK_MAP_TX_VALID6 => if (s.chanOf false i 6).isSome then 1 else 0
  | .LNK_MAP_TX_LAMBDA6 => (s.chanOf false i 6).getD 0 % 5
  | .LNK_MAP_TX_FIBRE6 => (s.chanOf false i 6).getD 0 / 5
  | .LNK_MAP_TX_VALID7 => if (s.chanOf false i 7).isSome then 1 else 0
  | .LNK_MAP_TX_LAMBDA7 => (s.chanOf false i 7).getD 0 % 5
  | .LNK_MAP_TX_FIBRE7 => (s.chanOf false i 7).getD 0 / 5
  | .LNK_MAP_RX_VALID0 => if (s.chanOf true i 0).isSome then 1 else 0
  | .LNK_MAP_RX_LAMBDA0 => (s.chanOf true i 0).getD 0 % 5
  | .LNK_MAP_RX_FIBRE0 => (s.chanOf true i 0).getD 0 / 5
  | .LNK_MAP_RX_VALID1 => if (s.chanOf true i 1).isSome then 1 else 0
  | .LNK_MAP_RX_LAMBDA1 => (s.chanOf true i 1).getD 0 % 5
  | .LNK_MAP_RX_FIBRE1 => (s.chanOf true i 1).getD 0 / 5
  | .LNK_MAP_RX_VALID2 => if (s.chanOf true i 2).isSome then 1 else 0
  | .LNK_MAP_RX_LAMBDA2 => (s.chanOf true i 2).getD 0 % 5
  | .LNK_MAP_RX_FIBRE2 => (s.chanOf true i 2).getD 0 / 5
  | .LNK_MAP_RX_VALID3 => if (s.chanOf true i 3).isSome then 1 else 0
  | .LNK_MAP_RX_LAMBDA3 => (s.chanOf true i 3).getD 0 % 5
  | .LNK_MAP_RX_FIBRE3 => (s.chanOf true i 3).getD 0 / 5
  | .LNK_MAP_RX_VALID4 => if (s.chanOf true i 4).isSome then 1 else 0
  | .LNK_MAP_RX_LAMBDA4 => (s.chanOf true i 4).getD 0 % 5
  | .LNK_MAP_RX_FIBRE4 => (s.chanOf true i 4).getD 0 / 5
  | .LNK_MAP_RX_VALID5 => if (s.chanOf true i 5).isSome then 1 else 0
  | .LNK_MAP_RX_LAMBDA5 => (s.chanOf true i 5).getD 0 % 5
  | .LNK_MAP_RX_FIBRE5 => (s.chanOf true i 5).getD 0 / 5
  | .LNK_MAP_RX_VALID6 => if (s.chanOf true i 6).isSome then 1 else 0
  | .LNK_MAP_RX_LAMBDA6 => (s.chanOf true i 6).getD 0 % 5
  | .LNK_MAP_RX_FIBRE6 => (s.chanOf true i 6).getD 0 / 5
  | .LNK_MAP_RX_VALID7 => if (s.chanOf true i 7).isSome then 1 else 0
  | .LNK_MAP_RX_LAMBDA7 => (s.chanOf true i 7).getD 0 % 5
  | .LNK_MAP_RX_FIBRE7 => (s.chanOf true i 7).getD 0 / 5
  | .LNK_STATUS_NACT_TX => (Tbl.get Port.reset s.ports i).mapTx.length
  | .LNK_CHFAIL_TX_FAILED => s.fld .LNK_CHFUSE_TX_FUSED i ||| (Tbl.get Port.reset s.ports i).startTx.toNat
  | .LNK_CHFAIL_RX_FAILED => s.fld .LNK_CHFUSE_RX_FUSED i ||| (Tbl.get Port.reset s.ports i).startRx.toNat
  | .FAB_CTRL_DRAINED => if s.drained then 1 else 0
  | .FAB_CTRL_STRICT => s.fld .MGT_DET_CTRL_STRICT 0
  | .COL_GRP_STATUS_BUSY => if s.groupBusy i then 1 else 0
  | .MGT_DET_FPRINT_FPRINT => leNat ((s.fingerprint.drop (8 * i)).take 8)
  | .MGT_DET_DUMAP_LO_PT_LO => s.disabledMap i % 2 ^ 64
  | .MGT_DET_DUMAP_HI_PT_HI => s.disabledMap i / 2 ^ 64
  | .SHF_SPARE_SPARES_LEFT => s.sparesLeft i
  | .SHF_SPARE_ENABLED_M1 => ((List.range 64).filter (fun n => !(Tbl.get false s.absent (i * 64 + n)))).length - 1
  | .TIL_OBS_CYC_CYCLES => min (Tbl.get 0 s.obs.cnt (cycKey i) / 100) (2 ^ 64 - 1)
  | .PWR_STATUS_VIN => Config.inputVoltage s.power.clock
  | .MGT_PRESENCE_REMAIN_S =>
    match s.power.presenceAt with
    | some t => (t + 60000000000 - s.power.clock) / 1000000000
    | none => 0
  | _ => s.fld f i

/-! ### Registers -/

/-- The row of a register in the table. -/
def Reg.info (r : Reg) : RegInfo := (regTable.find? (fun x => x.reg == r)).getD ⟨r, .bar0, 0, 0, 1, 0, 1⟩

/-- What a read of a register gives: WO fields read zero, a reserved bit zero (R19, R20). -/
def State.regVal (s : State) (r : Reg) (i : Nat) : Nat :=
  (r.flds.map (fun f => if f.info.access = .WO then 0 else s.view f i % 2 ^ f.width * 2 ^ f.info.lo)).sum

/-- The PF BAR0 offset of instance i of a register; a context register of another context than the PF has none. -/
def Reg.off (r : Reg) (i : Nat) : Nat :=
  let x := r.info
  match x.space with
  | .bar0 => x.base + x.stride1 * (i / x.count2) + x.stride2 * (i % x.count2)
  | .til =>
    let u := i / x.count1
    0x1000000 + u / 64 * 0x100000 + 0x40000 + u % 64 * 0x1000 + x.base + x.stride1 * (i % x.count1)
  | .ctx => 0x1A0000 + x.base + x.stride1 * (i % x.count1)
  | .ring => 0x110000 + 0x20 * i + x.base

/-- A register of the blocks that the always-on domain holds: MGT, PWR and HLT (R482, R506). -/
def Reg.alwaysOn (r : Reg) : Bool :=
  r.info.space == .bar0 && (decide (r.info.base < 0x100000) || decide (0x600000 ≤ r.info.base && r.info.base < 0x700000))

/-- The effecters of R545. -/
def Reg.effecter (r : Reg) : Bool :=
  r == .PWR_CTRL || r == .PWR_CAP || r == .PWR_CLK_PLAN || r == .PWR_DORMANT ||
    (r.info.space == .bar0 && decide (r.info.base < 0x400))

/-- Registers whose changes are audited (R551). -/
def Reg.audited (r : Reg) : Bool :=
  (r.info.space == .bar0 &&
    (decide (r.info.base < 0x100000) || decide (0x300000 ≤ r.info.base && r.info.base < 0x900000))) ||
    r == .SHF_SPARE || r == .CMD_CFG || r == .CMD_DEVWIN || r == .CTX_CFG || r == .CTX_PT_ROOT || r == .GLM_ADMIN ||
    r == .GLM_BAR_CFG0 || r == .GLM_BAR_CFG1

/-- A register whose write starts an action. -/
def Reg.triggers (r : Reg) : Bool := r.flds.any (fun f => f.info.access == .WO)

/-! ### Writing a register (R20) -/

/-- Write one field as its access type gives; `mask` holds the written bits of the register, `val` the value. A WO or
RWP field starts the command that has its own row. -/
def State.writeFld (s : State) (f : Fld) (i mask val : Nat) : State :=
  let m := mask / 2 ^ f.info.lo % 2 ^ f.width
  let v := val / 2 ^ f.info.lo % 2 ^ f.width
  let old := s.fld f i
  match f.info.access with
  | .RW => s.setFld f i ((old ^^^ (old &&& m)) ||| (v &&& m))
  | .W1C => s.setFld f i (old ^^^ (old &&& (v &&& m)))
  | .W1S => s.setFld f i (old ||| (v &&& m))
  | _ => s

/-- Write every field of a register. -/
def State.writeReg (s : State) (r : Reg) (i mask val : Nat) : State :=
  r.flds.foldl (fun s f => s.writeFld f i mask val) s

/-- The place of a latching register's held lower half. -/
def latchKey (r : Reg) (i : Nat) : Nat := i * 256 + r.ctorIdx

/-- The held lower half of a latching register (R18): that of the most recent write of either width. -/
def State.latch (s : State) (r : Reg) (i v : Nat) : State :=
  { s with held := Tbl.set 0 s.held (latchKey r i) (BitVec.ofNat 32 v) }

/-- All 64 bits of a register. -/
def fullMask : Nat := 2 ^ 64 - 1

/-! ### Who reaches a register -/

/-- The host port answers: trained, and READY (R490). -/
def State.hostPort (s : State) : Bool := s.power.hostUp && s.flag .PWR_STATUS_READY 0

/-- The part leaves Dormant with a cause (R506). -/
def State.wakeUp (s : State) (cause : Nat) : State :=
  if s.fld .PWR_STATUS_STATE 0 = 4 then
    ((s.setFld .PWR_STATUS_STATE 0 2).setFlag .PWR_STATUS_READY 0 true).setFld .PWR_DORMANT_CAUSE 0 cause
  else s

/-- A host access in Dormant to another block than MGT and PWR wakes the part and is performed when it is READY
(R506); a VF's window is such a block. An effecter write acts as the PF's of the MGT and PWR blocks and wakes nothing (R546):
a management request's wake is a command of its own. -/
def State.hostWakes (s : State) (o : Origin) (r : Reg) : State :=
  match o with
  | .pf => if s.power.hostUp && !(r.alwaysOn) then s.wakeUp 1 else s
  | .vf _ => if s.power.hostUp then s.wakeUp 1 else s
  | _ => s

/-- An origin reaches a register (R15, R490, R545, R546, R560). -/
def State.reach (s : State) (o : Origin) (r : Reg) : Bool :=
  match o with
  | .pf => s.hostPort || (s.power.hostUp && s.fld .PWR_STATUS_STATE 0 == 4 && r.alwaysOn)
  | .vf _ => false
  | .mgmt _ => r.effecter && (s.power.auxGood || s.power.vinGood)
  | .jtag => s.flag .MGT_DEBUG_UNLOCKED 0 && (r.alwaysOn || s.flag .PWR_STATUS_MAIN_GOOD 0)

/-- Perform an access, or not: before READY the host port answers Unsupported Request (R490). -/
def State.access (s : State) (o : Origin) (r : Reg) (act : State → State) : State :=
  let s1 := s.hostWakes o r
  if s1.reach o r then act s1
  else if o = .pf then s1.emit .unsupported
  else s1

/-- A write to a register from PF BAR0 whose command is `act`: a write that changes an audited register, or triggers an
action in one, is audited with the value before it (R551). -/
def State.regCmd (s : State) (o : Origin) (r : Reg) (i data : Nat) (act : State → State) : State :=
  s.access o r (fun s =>
    let old := s.regVal r i
    let s1 := act s
    if r.audited && (r.triggers || s1.regVal r i != old) then s1.audit! true (Origin.audit o) 0 (r.off i) old data 0
    else s1)

/-- A write to an RWP field: audited whether it takes effect or not, and effective only in the presence window (R20,
R22, R553, R556). -/
def State.rwpCmd (s : State) (o : Origin) (r : Reg) (i data : Nat) (act : State → State) : State :=
  s.access o r (fun s =>
    let old := s.regVal r i
    if s.flag .MGT_PRESENCE_OPEN 0 then (act s).audit! true (Origin.presence o) 0 (r.off i) old data 0
    else s.audit! false (Origin.audit o) 0 (r.off i) old data 0)

/-- A context's own window is read: the context is enabled and the function's host port answers (R274). -/
def State.windowReads (s : State) (c : Nat) : Bool := s.hostPort && s.flag .CTX_CFG_ENABLE c

/-- A context's own window takes writes: not during a reset (R298). -/
def State.window (s : State) (c : Nat) : Bool := s.windowReads c && s.fld .CTX_STATUS_STATE c != 2

/-! ### The mirror at the buddy (R461) -/

/-- Incomplete mirror blocks of a receive flow that ends are discarded with class 0x93 (R461). -/
def State.discardMirror (s : State) (d : Nat) : State :=
  (s.mirror.rx.filter (fun p => p.2.1 == d)).foldl (fun s p =>
    (({ s with mirror := { s.mirror with rx := Tbl.del p.1 s.mirror.rx } } : State).setFlag .HBM_MIR_STATUS_DISCARD 0
      true).raiseNo 0x93 (⟨5, 0⟩) p.1) s

end Sys2Proof.Machine
end

