-- ==== Sys2Proof/Machine/FrontEnd.lean ====
section
/-! DEFINITION. The front-end instructions (R157, R158, R162), the dispatch of LD, ST and MM (R147-R152), and the end
of a replay (R168). -/

namespace Sys2Proof.Machine

/-! ### Checks (R147, R148, R582) -/

/-- Fields that every instruction outside the vector family holds at zero. -/
def plainBad (e : Enc) : List (Bool × Bad) := [(e.res != 0, badField), (e.men, badField), (e.midx != 0, badField)]

/-- The four operand bytes are zero. -/
def noOperands (e : Enc) : List (Bool × Bad) :=
  [(e.dst != 0, badField), (e.a != 0, badField), (e.b != 0, badField), (e.c != 0, badField)]

/-- A front-end instruction whose MOD and IMM may be nonzero only inside the masks, and that reads PX or not. -/
def feCheck (modMask immMask : Nat) (usesPx : Bool) (e : Enc) : List (Bool × Bad) :=
  plainBad e ++ noOperands e ++
    [(e.mod &&& (255 - modMask) != 0, badField), (e.imm &&& (2 ^ 64 - 1 - immMask) != 0, badField),
      (!usesPx && e.px != 0, badField)]

/-! ### NOP, FENCE, P registers -/

/-- NOP (R157). It also stands for the dispatch of a word with a reserved opcode, which is illegal (R147, R149;
notes/assumptions/12.md). -/
def State.doNop (s : State) (t : Nat) : State :=
  if s.canDispatch t && decide (s.pc t < s.fld .TIL_PROG_IMAGE_NINST t) &&
      !(opcodeKnown (encOf (s.fetch t (s.pc t))).opc) then
    s.badInst t (s.pc t) ⟨0x38, 0, 5⟩
  else s.frontEnd t 0x00 (fun _ e => firstBad (feCheck 0 0 false e)) (fun s _ pc => s.nextPc t pc)

def execNop (sh : Fin 12) (n : Fin 64) (s : State) : Host.Outcome State Fault Refusal := .next (s.doNop (tix sh n))

/-- FENCE holds dispatch until nothing is in flight (R157). -/
def State.doFence (s : State) (t : Nat) : State :=
  s.frontEnd t 0x0A (fun _ e => firstBad (feCheck 0 0 false e)) (fun s _ pc =>
    if (s.til t).insts.isEmpty then s.nextPc t pc else s)

def execFence (sh : Fin 12) (n : Fin 64) (s : State) : Host.Outcome State Fault Refusal := .next (s.doFence (tix sh n))

/-- PSET: P(PX) = IMM (R157). -/
def State.doPset (s : State) (t : Nat) : State :=
  s.frontEnd t 0x04 (fun _ e => firstBad (feCheck 0 (2 ^ 64 - 1) true e)) (fun s e pc =>
    (s.setPreg t e.px e.imm).nextPc t pc)

def execPset (sh : Fin 12) (n : Fin 64) (s : State) : Host.Outcome State Fault Refusal := .next (s.doPset (tix sh n))

/-- PADD: P(PX) = (P(PX) + IMM) mod 2^64 (R157). -/
def State.doPadd (s : State) (t : Nat) : State :=
  s.frontEnd t 0x05 (fun _ e => firstBad (feCheck 0 (2 ^ 64 - 1) true e)) (fun s e pc =>
    (s.setPreg t e.px (s.preg t e.px + e.imm)).nextPc t pc)

def execPadd (sh : Fin 12) (n : Fin 64) (s : State) : Host.Outcome State Fault Refusal := .next (s.doPadd (tix sh n))

/-- PCPY: P(PX) = P(IMM[7:0]) (R157). -/
def State.doPcpy (s : State) (t : Nat) : State :=
  s.frontEnd t 0x06 (fun _ e => firstBad (feCheck 0 255 true e)) (fun s e pc =>
    (s.setPreg t e.px (s.preg t e.imm)).nextPc t pc)

def execPcpy (sh : Fin 12) (n : Fin 64) (s : State) : Host.Outcome State Fault Refusal := .next (s.doPcpy (tix sh n))

/-! ### Loops (R162) -/

/-- LOOP k: the count is immediate or P(PX)[31:0]; a count of 0 skips the body. -/
def State.doLoop (s : State) (t : Nat) : State :=
  s.frontEnd t 0x02 (fun _ e => firstBad (feCheck 0x71 (2 ^ 48 - 1) (bitAt e.mod 0) e)) (fun s e pc =>
    let k := bitsOf e.mod 6 4
    let cnt := if bitAt e.mod 0 then s.preg t e.px % 2 ^ 32 else bitsOf e.imm 31 0
    let x := s.til t
    let s1 := s.setTil t { x with
      loopCnt := Tbl.put x.loopCnt k (BitVec.ofNat 64 cnt),
      loopHead := if cnt = 0 then x.loopHead else Tbl.put x.loopHead k (pc + 1) }
    (s1.setPc t (if cnt = 0 then bitsOf e.imm 47 32 + 1 else pc + 1)).dispatched t)

def execLoop (sh : Fin 12) (n : Fin 64) (s : State) : Host.Outcome State Fault Refusal := .next (s.doLoop (tix sh n))

/-- ENDL k: one less; back to the head while the count stays above 0. It takes no dispatch cycle (R162). -/
def State.doEndl (s : State) (t : Nat) : State :=
  s.frontEnd t 0x03 (fun _ e => firstBad (feCheck 0x70 0 false e)) (fun s e pc =>
    let k := bitsOf e.mod 6 4
    let x := s.til t
    let cnt := (Tbl.get 0 x.loopCnt k).toNat - 1
    let s1 := s.setTil t { x with loopCnt := Tbl.put x.loopCnt k (BitVec.ofNat 64 cnt) }
    s1.setPc t (if 0 < cnt then Tbl.get 0 x.loopHead k else pc + 1))

def execEndl (sh : Fin 12) (n : Fin 64) (s : State) : Host.Outcome State Fault Refusal := .next (s.doEndl (tix sh n))

/-! ### AGSET (R157, R159) -/

/-- An instruction in flight names a queue bound to generator g. -/
def State.agBusy (s : State) (t g : Nat) : Bool :=
  (s.til t).insts.any (fun i => (queuesOf (encOf i.word)).any (fun p =>
    (s.qkind t p.1 == .readWin || s.qkind t p.1 == .writeWin) && bindAg (s.binding t p.1) == g))

/-- AGSET loads a generator from P(PX) to P(PX+4) once no instruction in flight uses it. -/
def State.doAgset (s : State) (t : Nat) : State :=
  s.frontEnd t 0x07 (fun s e => firstBad (feCheck 0 15 true e ++
      [(decide (251 < e.px), ⟨0x38, 2, 5⟩), ((s.agLoad t e.px).run == 0, ⟨0x38, 3, 5⟩)])) (fun s e pc =>
    let g := e.imm % 16
    if s.agBusy t g then s
    else
      let x := s.til t
      (s.setTil t { x with ags := Tbl.put x.ags g (s.agLoad t e.px) }).nextPc t pc)

def execAgset (sh : Fin 12) (n : Fin 64) (s : State) : Host.Outcome State Fault Refusal := .next (s.doAgset (tix sh n))

/-! ### WAIT and SIGNAL (R157, R158, R198, R199) -/

/-- A wait is satisfied: the Tiller runs on after its WAIT (R200). -/
def State.wakeTiller (s : State) (t : Nat) (vid thresh value : Nat) : State :=
  let x := s.til t
  let s1 := (s.setTil t { x with wait := none, gated := false }).setTstate t 4
  (s1.nextPc t (s1.pc t)).trace 4 (s.tctx t) (tilUnit t) vid thresh value

/-- WAIT holds dispatch until the Glume reaches P(PX). A threshold of 0 is satisfied when posed, without translation
(R189); a failed translation is a program fault with the class of R196. -/
def State.doWait (s : State) (t : Nat) : State :=
  s.frontEnd t 0x08 (fun _ e => firstBad (feCheck 0 65535 true e)) (fun s e pc =>
    let vid := e.imm % 65536
    let th := s.preg t e.px
    if th = 0 then s.wakeTiller t vid 0 0
    else
      match s.glumeXlat (t / 64) (s.tctx t) vid with
      | (s1, .bad cls pid) =>
        s1.progFault t cls pc (glumeDetail vid pid (t / 64 * 1024 + t % 64) 0 th)
      | (s1, .ok pid) =>
        let v := s1.glumeValue pid
        let s2 := s1.trace 3 (s1.tctx t) (tilUnit t) vid th v
        if th ≤ v then s2.wakeTiller t vid th v
        else
          let x := s2.til t
          (s2.setTil t { x with
            wait := some ⟨BitVec.ofNat 16 vid, BitVec.ofNat 16 pid, BitVec.ofNat 64 th, s2.now⟩,
            gated := x.insts.isEmpty }).setTstate t 5)

def execWait (sh : Fin 12) (n : Fin 64) (s : State) : Host.Outcome State Fault Refusal := .next (s.doWait (tix sh n))

/-- SIGNAL's own checks: DST none or a push; PX only with VALP. -/
def signalBad (e : Enc) : List (Bool × Bad) :=
  plainBad e ++
    [(e.a != 0, badField), (e.b != 0, badField), (e.c != 0, badField), (e.mod &&& 0xFE != 0, badField),
      (bitsOf e.imm 47 32 != 0, badField), (!(bitAt e.mod 0) && e.px != 0, badField),
      (!(e.dst == 0 || opKind e.dst == 1), ⟨0x38, 2, 5⟩)]

/-- The flow that the trace event of a SIGNAL into an egress queue names: a DISPATCH descriptor has no FLOW, and its rows leave by the
flows from FLOW_P on (R394, R407, R530; DESIGN CHOICE: notes/assumptions/165.md). -/
def State.egressFlow (s : State) (t q : Nat) : Nat :=
  let d := s.desc t q
  if descMode d = 0 then descFlow d else s.fld .COL_GRP_CFG1_FLOW_P (descGroup d)

/-- SIGNAL: local, once nothing is in flight; or it waits to enter an egress queue, and dispatch goes on (R158). -/
def State.doSignal (s : State) (t : Nat) : State :=
  s.frontEnd t 0x09 (fun s e => firstBad (signalBad e ++
      [(opKind e.dst == 1 && s.qkind t (opIdx e.dst) != .egress, ⟨0x39, opIdx e.dst, 5⟩)])) (fun s e pc =>
    let vid := bitsOf e.imm 63 48
    let v := if bitAt e.mod 0 then s.preg t e.px else bitsOf e.imm 31 0
    let x := s.til t
    if e.dst = 0 then
      if x.insts.isEmpty then
        let s1 := s.sendSignal (t / 64) (s.tctx t) vid v
        (s1.trace 5 (s.tctx t) (tilUnit t) vid v 0x3FFF).nextPc t pc
      else s
    else
      let q := opIdx e.dst
      if descBad true (s.desc t q) || descMode (s.desc t q) == 1 then s.descFault t pc q
      else
        let w : SigWait := ⟨x.nextId, q, BitVec.ofNat 16 vid, BitVec.ofNat 64 v⟩
        let s1 := s.setTil t ({ x with sigWait := x.sigWait ++ [w], nextId := x.nextId + 1 } : Tiller).admitSignals
        (s1.trace 5 (s.tctx t) (tilUnit t) vid v (s.egressFlow t q)).nextPc t pc)

def execSignal (sh : Fin 12) (n : Fin 64) (s : State) : Host.Outcome State Fault Refusal := .next (s.doSignal (tix sh n))

/-! ### END (R157, R168) -/

/-- The first of Q0-Q8 that still holds data. -/
def Tiller.leftover (x : Tiller) : Option Nat :=
  (List.range 9).find? (fun q =>
    if q < 4 then !(Tbl.get [] x.feeders q).isEmpty
    else if q < 8 then
      let l := Tbl.get ⟨none, none, none⟩ x.loaders (q - 4)
      l.shadow.isSome || l.held.isSome || l.tail.isSome
    else !x.tiles.isEmpty || decide (x.tileHead < x.tileNext))

/-- Every egress queue has handed over what it held, and no SIGNAL waits to enter one. -/
def Tiller.egressDone (x : Tiller) : Bool :=
  x.sigWait.isEmpty && [24, 25, 26, 27].all (fun q => (Tbl.get [] x.egress q).isEmpty)

/-- END holds dispatch until nothing is in flight and the egress queues are empty; data left in Q0-Q8 is a program
fault of class 0x39. -/
def State.doEnd (s : State) (t : Nat) : State :=
  s.frontEnd t 0x01 (fun _ e => firstBad (feCheck 0 0 false e)) (fun s _ pc =>
    let x := s.til t
    if !x.insts.isEmpty then s
    else
      match x.leftover with
      | some q => s.badInst t pc ⟨0x39, q, 5⟩
      | none =>
        if x.egressDone then
          let s1 := (s.setPc t 0).dispatched t
          s1.setTil t { s1.til t with ended := true }
        else s)

/-- END holds dispatch only until the egress queues are empty (R168, R174). -/
def State.endWaits (s : State) (t : Nat) : Bool :=
  let x := s.til t
  s.canDispatch t && decide (s.pc t < s.fld .TIL_PROG_IMAGE_NINST t) && (encOf (s.fetch t (s.pc t))).opc == 0x01 &&
    x.insts.isEmpty && x.leftover.isNone && !x.egressDone

def execEndReplay (sh : Fin 12) (n : Fin 64) (s : State) : Host.Outcome State Fault Refusal := .next (s.doEnd (tix sh n))

/-- The command of a Tiller notes that its replay is over (R285). -/
def State.jobDone (s : State) (t : Nat) (j : Job) : State :=
  let x := s.ring j.ring.toNat
  s.setRing j.ring.toNat { x with running := x.running.map (fun c =>
    if c.pos == j.pos then { c with tillers := c.tillers.map (fun p => if p.1 == t then (p.1, 1) else p) } else c) }

/-- A replay completes (R168): its END has been dispatched, nothing is in flight, Q0-Q8 are empty and egress is handed
over. The program stays resident, idle, and instruction 0 is the next to dispatch. -/
def State.doReplayComplete (s : State) (t : Nat) : State :=
  let x := s.til t
  if s.ready && s.present t && x.ended && x.insts.isEmpty && x.leftover.isNone && x.egressDone then
    let s1 := (((s.setTil t { x with ended := false, job := none, stepping := false, halting := false }).setPc t 0).setTstate
      t 1).count (tcKey t 19) 1
    match x.job with
    | some j => s1.jobDone t j
    | none => s1
  else s

def execReplayComplete (sh : Fin 12) (n : Fin 64) (s : State) : Host.Outcome State Fault Refusal :=
  .next (s.doReplayComplete (tix sh n))

/-! ### LD and ST (R152) -/

/-- The destination kind of an LD, from the queue number alone. -/
inductive LdKind where
  | feeder | loader | egress | other
  deriving DecidableEq, Repr

def ldKind (q : Nat) : LdKind :=
  if q < 4 then .feeder else if q < 8 then .loader else if 24 ≤ q ∧ q ≤ 27 then .egress else .other

/-- The unit's format code, activation format and M of an LD. -/
def ldFmt (e : Enc) : Nat := bitsOf e.imm 47 44
def ldAfmt (e : Enc) : Nat := bitsOf e.imm 43 40
def ldM (e : Enc) : Nat := bitsOf e.imm 39 32
def ldN (e : Enc) : Nat := bitsOf e.imm 63 48
def ldBytes (e : Enc) : Nat := bitsOf e.imm 31 16
def ldTail (e : Enc) : Bool := bitAt e.mod 6
def ldHead (e : Enc) : Bool := bitAt e.mod 5

/-- IMM bits with a meaning, by destination kind (R152). -/
def ldImmMask (e : Enc) : Nat :=
  let top := 65535 * 2 ^ 48
  match ldKind (opIdx e.dst) with
  | .feeder => top + 15 * 2 ^ 44 + 255 * 2 ^ 32 + (if ldTail e then 15 * 2 ^ 40 else 0)
  | .loader => top + 15 * 2 ^ 44 + (if ldHead e then 15 * 2 ^ 40 + 255 * 2 ^ 32 else 0)
  | .egress => top + 65535 * 2 ^ 16
  | .other => 2 ^ 64 - 65536

/-- MOD bits with a meaning. -/
def ldModMask (e : Enc) : Nat :=
  match ldKind (opIdx e.dst) with
  | .feeder => 0x60
  | .loader => 0x60
  | _ => 0xE0

/-- The encoding checks of LD (R147, R148, R152). -/
def ldEncBad (e : Enc) : List (Bool × Bad) :=
  let k := ldKind (opIdx e.dst)
  let f := k == .feeder || k == .loader
  let ws := ldHead e || ldTail e
  let m := ldM e
  plainBad e ++
    [(e.b != 0, badField), (e.c != 0, badField), (e.px != 0, badField),
      (e.mod &&& (255 - ldModMask e) != 0, badField),
      (e.imm &&& (2 ^ 64 - 1 - ldImmMask e) != 0, badField),
      (ldHead e && ldTail e, badField), (ldHead e && k != .loader, badField), (ldTail e && k != .feeder, badField),
      (f && !ws && ldFmt e == 14 && ldN e % 2 != 0, badField),
      (opKind e.dst != 1, ⟨0x38, 2, 5⟩), (!(opKind e.a == 1 || opKind e.a == 2), ⟨0x38, 2, 5⟩),
      (f && ldFmt e == 15, ⟨0x38, 4, 5⟩), (ws && ldAfmt e == 15, ⟨0x38, 4, 5⟩),
      (ws && (m == 0 || decide (16 < m)), ⟨0x38, 4, 5⟩),
      (k == .feeder && !ws && (m == 0 || decide (64 < m)), ⟨0x38, 4, 5⟩),
      (k == .egress && (ldBytes e == 0 || decide (4096 < ldBytes e)), ⟨0x38, 4, 5⟩)]

/-- The queue-end rules of LD (R144, R102). -/
def State.ldQueueBad (s : State) (t : Nat) (e : Enc) : List (Bool × Bad) :=
  let q := opIdx e.dst
  let dstOk := match s.qkind t q with
    | .feeder a => gangLead (s.gang t) a == a
    | .loader _ => true
    | .egress => true
    | _ => false
  [(!dstOk, ⟨0x39, q, 5⟩), (s.qkind t (opIdx e.a) != .readWin, ⟨0x39, opIdx e.a, 5⟩)]

/-- The unit code of the mover of a queue, and of the store mover. -/
def moverUnit (q : Nat) : Nat := 8 + q
def storeMover : Nat := 5
def vectorUnit : Nat := 4

/-- LD: N units wait in the mover of the destination queue; N = 0 completes at once. -/
def State.doLd (s : State) (t : Nat) : State :=
  s.frontEnd t 0x10 (fun s e => firstBad (ldEncBad e ++ s.ldQueueBad t e)) (fun s e pc =>
    if ldN e = 0 then s.nextPc t pc
    else (s.enqueue t pc (moverUnit (opIdx e.dst)) (ldN e) 0 (s.fetch t pc) [] 0).nextPc t pc)

def execLd (sh : Fin 12) (n : Fin 64) (s : State) : Host.Outcome State Fault Refusal := .next (s.doLd (tix sh n))

/-- The encoding checks of ST: BYTES belongs to an ingress source only. -/
def stEncBad (e : Enc) : List (Bool × Bad) :=
  let ing := decide (28 ≤ opIdx e.a)
  let mask := if ing then 65535 * 2 ^ 48 + 65535 * 2 ^ 16 else 65535 * 2 ^ 48
  plainBad e ++
    [(e.b != 0, badField), (e.c != 0, badField), (e.px != 0, badField), (e.mod != 0, badField),
      (e.imm &&& (2 ^ 64 - 1 - mask) != 0, badField),
      (opKind e.dst != 1, ⟨0x38, 2, 5⟩), (!(opKind e.a == 1 || opKind e.a == 2), ⟨0x38, 2, 5⟩),
      (ing && (ldBytes e == 0 || decide (4096 < ldBytes e)), ⟨0x38, 4, 5⟩)]

def State.stQueueBad (s : State) (t : Nat) (e : Enc) : List (Bool × Bad) :=
  [(s.qkind t (opIdx e.dst) != .writeWin, ⟨0x39, opIdx e.dst, 5⟩),
    (!(s.qkind t (opIdx e.a) == .tile || s.qkind t (opIdx e.a) == .ingress), ⟨0x39, opIdx e.a, 5⟩)]

/-- ST: N units wait in the store mover. -/
def State.doSt (s : State) (t : Nat) : State :=
  s.frontEnd t 0x11 (fun s e => firstBad (stEncBad e ++ s.stQueueBad t e)) (fun s e pc =>
    if ldN e = 0 then s.nextPc t pc
    else (s.enqueue t pc storeMover (ldN e) 0 (s.fetch t pc) [] 0).nextPc t pc)

def execSt (sh : Fin 12) (n : Fin 64) (s : State) : Host.Outcome State Fault Refusal := .next (s.doSt (tix sh n))

/-! ### MM (R150, R151) -/

def mmFirst (e : Enc) : Bool := bitAt e.mod 7
def mmLast (e : Enc) : Bool := bitAt e.mod 6
def mmWs (e : Enc) : Bool := bitAt e.mod 5
def mmReuse (e : Enc) : Bool := bitAt e.mod 4
def mmAcc (e : Enc) : Nat := bitsOf e.mod 3 3
def mmArr (e : Enc) : Nat := bitsOf e.mod 1 0
def mmM (e : Enc) : Nat := bitsOf e.imm 63 48
def mmAfmt (e : Enc) : Nat := bitsOf e.imm 47 44
def mmWfmt (e : Enc) : Nat := bitsOf e.imm 43 40
def mmG0 (e : Enc) : Nat := bitsOf e.imm 39 24
def mmNg (e : Enc) : Nat := bitsOf e.imm 23 12
def mmNb (e : Enc) : Nat := bitsOf e.imm 11 6

/-- Plain integer pairs accumulate in W64 (R56). -/
def mmW64 (e : Enc) : Bool := isPlainInt (mmAfmt e) && isPlainInt (mmWfmt e)

/-- Output blocks that a buffer holds in WS form (R97). -/
def mmPer (e : Enc) : Nat := (if mmW64 e then 32 else 64) / max (mmM e) 1

/-- The encoding checks of MM. -/
def mmEncBad (e : Enc) : List (Bool × Bad) :=
  plainBad e ++
    [(e.c != 0, badField), (e.px != 0, badField), (bitAt e.mod 2, badField), (bitsOf e.imm 5 0 != 0, badField),
      (mmAfmt e == 15, badField), (mmWfmt e == 15, badField),
      (opKind e.dst != 1, ⟨0x38, 2, 5⟩), (!(opKind e.a == 1 || opKind e.a == 2), ⟨0x38, 2, 5⟩),
      (!(opKind e.b == 1 || opKind e.b == 2 || e.b == 0), ⟨0x38, 2, 5⟩), (e.b == 0 && !mmReuse e, ⟨0x38, 2, 5⟩)]

/-- The queue-end rules of MM (R144, R150). -/
def mmQueueBad (e : Enc) : List (Bool × Bad) :=
  [(opIdx e.dst != 8, ⟨0x39, opIdx e.dst, 5⟩), (opIdx e.a != mmArr e, ⟨0x39, opIdx e.a, 5⟩),
    (e.b != 0 && (opIdx e.b != 4 + mmArr e || opKind e.b != 1), ⟨0x39, opIdx e.b, 5⟩)]

/-- The shape checks of MM (R88, R97, R102, R151). -/
def State.mmShapeBad (s : State) (t : Nat) (e : Enc) : List (Bool × Bad) :=
  let b : Bad := ⟨0x34, 0, mmArr e⟩
  let top := if mmWs e then 16 else if mmW64 e then 32 else 64
  [(mmM e == 0 || decide (top < mmM e), b), (mmNg e == 0, b), (mmNb e == 0, b), (!mmWs e && mmNb e != 1, b),
    (mmWs e && !(mmFirst e && mmLast e), b),
    (mmReuse e && (mmNg e != 1 || mmNb e != 1 || e.b != 0), b),
    (gangLead (s.gang t) (mmArr e) != mmArr e, b)]

/-- Tiles that an MM with LAST delivers: one for each full or last buffer, and without compare one for each array of
its gang (R97, R101, R102). -/
def State.mmTiles (s : State) (t : Nat) (e : Enc) : Nat :=
  if mmLast e then
    let bufs := if mmWs e then (mmNb e + mmPer e - 1) / mmPer e else 1
    let arrs := if s.flag .TIL_MA_CTRL_CMP t then 1 else (gangArrays (s.gang t) (mmArr e)).length
    bufs * arrs
  else 0

/-- MM: NB x NG passes wait in the array; its tiles take the next entries of the tile queue (R93, R151). -/
def State.doMm (s : State) (t : Nat) : State :=
  s.frontEnd t 0x20 (fun s e => firstBad (mmEncBad e ++ mmQueueBad e ++ s.mmShapeBad t e)) (fun s e pc =>
    let s1 := s.enqueue t pc (mmArr e) (mmNb e * mmNg e) (s.til t).tileNext (s.fetch t pc) [] 0
    let x := s1.til t
    (s1.setTil t { x with tileNext := x.tileNext + s.mmTiles t e }).nextPc t pc)

def execMm (sh : Fin 12) (n : Fin 64) (s : State) : Host.Outcome State Fault Refusal := .next (s.doMm (tix sh n))

end Sys2Proof.Machine
end

