-- ==== Sys2Proof/Machine/Movers.lean ====
section
/-! DEFINITION. The units that LD and ST move (R141, R142, R152): pass slots, weight blocks in whole and in head and
tail (R96), egress bytes, tiles and ingress bytes. -/

namespace Sys2Proof.Machine

/-! ### Bytes into operands (R8, R45-R51, R581) -/

/-- Element k of w bits touches a poisoned byte. -/
def elemPoison (bytes : List PByte) (w k : Nat) : Bool :=
  anyPoison ((bytes.drop (k * w / 8)).take ((k * w + w - 1) / 8 + 1 - k * w / 8))

/-- The bytes of one vector of a format: 32 elements, a block record, or a HUSK6 record of 64 elements. -/
def vecBytes (fmt : Nat) : Nat := fmtBytes fmt (if fmt = 14 then 64 else 32)

/-- Elements of a packed scalar vector. -/
def scalarOperands (fmt n : Nat) (bytes : List PByte) : List Operand :=
  ((unpack (elemBits fmt) n (leNat (vals bytes))).zip (List.range n)).map (fun p =>
    { val := decodeElem fmt p.1, poison := elemPoison bytes (elemBits fmt) p.2 })

/-- Header bytes of a block record: the scale, and HUSK6's nudges. -/
def headerBytes (fmt : Nat) : Nat := if fmt = 14 then 2 else 1

/-- Elements of a block record; a poisoned scale or nudge byte poisons every one (R581). -/
def recordOperands (fmt : Nat) (bytes : List PByte) : List Operand :=
  let hdr := anyPoison (bytes.take (headerBytes fmt))
  let body := bytes.drop (headerBytes fmt)
  ((decodeBlock fmt (vals bytes)).zip (List.range (blockElems fmt))).map (fun p =>
    { val := p.1, poison := hdr || elemPoison body (elemBits fmt) p.2 })

/-- One vector. -/
def vecOperands (fmt : Nat) (bytes : List PByte) : List Operand :=
  if isBlock fmt then recordOperands fmt bytes else scalarOperands fmt 32 bytes

/-- `n` vectors that follow each other. -/
def vecsOperands (fmt n : Nat) (bytes : List PByte) : List (List Operand) :=
  (List.range n).map (fun k => vecOperands fmt ((bytes.drop (k * vecBytes fmt)).take (vecBytes fmt)))

/-! ### Wide-and-shallow blocks (R76, R95, R96) -/

/-- Half cycles per token of a format's rate class (R76). -/
def halfCycles (fmt : Nat) : Nat :=
  if fmt = 0 then 16 else if fmt = 1 ∨ fmt = 2 then 4 else if fmt = 7 ∨ fmt = 9 ∨ fmt = 12 then 1 else 2

/-- ⌈M × c_f⌉ for an operand pair: the slower class counts (R76). -/
def streamCycles (afmt wfmt m : Nat) : Nat := (m * max (halfCycles afmt) (halfCycles wfmt) + 1) / 2

/-- L_w: cycles of a weight load (R76). -/
def loadCycles (wfmt : Nat) : Nat := 4 * elemBits wfmt

/-- T_ws (R95). -/
def twsCycles (afmt wfmt m : Nat) : Nat := (loadCycles wfmt + streamCycles afmt wfmt m + 1) / 2

/-- Element bytes of a weight block of one group. -/
def blockElemBytes (wfmt : Nat) : Nat := 2048 * elemBits wfmt / 8

/-- Element bytes of the head; the tail is the rest (R96). -/
def wsHeadBytes (afmt wfmt m : Nat) : Nat := min (64 * twsCycles afmt wfmt m) (blockElemBytes wfmt)

/-- Side-path bytes of a WS head (R152). -/
def wsSideBytes (wfmt : Nat) : Nat := if wfmt = 14 then 128 else if isBlock wfmt then 64 else 0

/-- Decode a whole WS block for group g (R96): HUSK6 nudges 0 and 1 belong to the even group of a record, 2 and 3 to
the odd one (R51). -/
def wsOperands (fmt g : Nat) (side body : List PByte) : List Operand :=
  if fmt = 14 then
    let zero := List.replicate 24 (⟨0, false⟩ : PByte)
    (List.range 64).flatMap (fun c =>
      let h := (side.drop (2 * c)).take 2
      let col := (body.drop (24 * c)).take 24
      if g % 2 = 0 then (recordOperands 14 (h ++ col ++ zero)).take 32
      else (recordOperands 14 (h ++ zero ++ col)).drop 32)
  else if isBlock fmt then
    let n := 4 * elemBits fmt
    (List.range 64).flatMap (fun c => recordOperands fmt ((side.drop c).take 1 ++ (body.drop (n * c)).take n))
  else
    let n := 4 * elemBits fmt
    (List.range 64).flatMap (fun c => scalarOperands fmt 32 ((body.drop (n * c)).take n))

/-- A block and the tail that it waits for come together. -/
def Loader.merge (l : Loader) : Loader :=
  match l.shadow, l.tail with
  | some b, some w =>
    if 0 < b.need && w.fmt.toNat == b.fmt.toNat && w.bytes.length == b.need then
      { l with shadow := some { b with need := 0, head := b.head ++ w.bytes }, tail := none }
    else l
  | _, _ => l

def Loader.empty : Loader := ⟨none, none, none⟩

def Tiller.loader (x : Tiller) (a : Nat) : Loader := Tbl.get Loader.empty x.loaders a

def Tiller.setLoader (x : Tiller) (a : Nat) (l : Loader) : Tiller := { x with loaders := Tbl.put x.loaders a l }

def Tiller.feeder (x : Tiller) (a : Nat) : List FeedSlot := Tbl.get [] x.feeders a

def Tiller.setFeeder (x : Tiller) (a : Nat) (l : List FeedSlot) : Tiller := { x with feeders := Tbl.put x.feeders a l }

/-- A tail-only slot at the head of a feeder goes to the loaders of its gang (R96). -/
def Tiller.takeTail (x : Tiller) (lead : Nat) (arrs : List Nat) : Tiller :=
  match x.feeder lead with
  | sl :: rest =>
    if sl.tailOnly && arrs.all (fun a => (x.loader a).tail.isNone) then
      arrs.foldl (fun x a => x.setLoader a { x.loader a with tail := sl.tail }) (x.setFeeder lead rest)
    else x
  | [] => x

def Tiller.mergeAll (x : Tiller) (arrs : List Nat) : Tiller :=
  arrs.foldl (fun x a => x.setLoader a (x.loader a).merge) x

/-- Tails find their blocks in the arrays that array a runs with. -/
def Tiller.settle (x : Tiller) (gang a : Nat) : Tiller :=
  let arrs := gangArrays gang a
  let lead := gangLead gang a
  (((x.mergeAll arrs).takeTail lead arrs).mergeAll arrs).takeTail lead arrs |>.mergeAll arrs

/-! ### Units of LD (R152) -/

/-- Units that move together: a HUSK6 record fills two slots or two blocks. -/
def ldTogether (e : Enc) : Nat :=
  if !(ldHead e) && !(ldTail e) && ldFmt e == 14 && decide (opIdx e.dst < 8) then 2 else 1

/-- Bytes that one step of an LD takes from its stream. -/
def ldStepBytes (e : Enc) : Nat :=
  let f := ldFmt e
  match ldKind (opIdx e.dst) with
  | .feeder =>
    if ldTail e then blockElemBytes f - wsHeadBytes (ldAfmt e) f (ldM e) else ldM e * vecBytes f
  | .loader =>
    if ldHead e then wsSideBytes f + wsHeadBytes (ldAfmt e) f (ldM e) else 64 * vecBytes f
  | .egress => ldBytes e
  | .other => 0

/-- A slot that a tail joins: the last one filled, by an activation unit with M of 1 to 16, not begun, without a
tail. -/
def FeedSlot.joinable (sl : FeedSlot) : Bool :=
  !sl.tailOnly && !sl.kept && sl.tail.isNone && decide (1 ≤ sl.m) && decide (sl.m ≤ 16)

/-- The last slot, when a tail joins it. -/
def joins (l : List FeedSlot) : Bool :=
  match l.getLast? with
  | some sl => sl.joinable
  | none => false

/-- The destination has room for a step (R141, R142). -/
def Tiller.ldRoom (x : Tiller) (e : Enc) : Bool :=
  let q := opIdx e.dst
  match ldKind q with
  | .feeder =>
    if ldTail e then ldStepBytes e == 0 || joins (x.feeder q) || decide ((x.feeder q).length < 2)
    else decide ((x.feeder q).length + ldTogether e ≤ 2)
  | .loader => (x.loader (q - 4)).shadow.isNone && (x.loader (q - 4)).held.isNone
  | .egress => x.egressRoom q (ldBytes e)
  | .other => false

/-- A slot of one group. -/
def actSlot (f m : Nat) (elems : List Operand) : FeedSlot :=
  { fmt := BitVec.ofNat 4 f, m := m, elems := elems, tail := none, tailOnly := false, kept := false }

/-- A block whose elements are decoded already. -/
def plainBlock (f : Nat) (elems : List Operand) : WBlock :=
  { fmt := BitVec.ofNat 4 f, elems := elems, ws := false, need := 0, head := [], side := [] }

/-- The feeder after a step; an empty tail is not sent (R96). -/
def feedStep (e : Enc) (bytes : List PByte) (l : List FeedSlot) : List FeedSlot :=
  let f := ldFmt e
  if ldTail e then
    let w : WTail := ⟨BitVec.ofNat 4 f, bytes⟩
    if bytes.isEmpty then l
    else if joins l then
      match l.getLast? with
      | some sl => l.dropLast ++ [{ sl with tail := some w }]
      | none => l
    else l ++ [{ actSlot f 0 [] with tail := some w, tailOnly := true }]
  else
    let vs := vecsOperands f (ldM e) bytes
    if f = 14 then l ++ [actSlot f (ldM e) (vs.flatMap (List.take 32)), actSlot f (ldM e) (vs.flatMap (List.drop 32))]
    else l ++ [actSlot f (ldM e) vs.flatten]

/-- The loader after a step. -/
def loadStep (e : Enc) (bytes : List PByte) (l : Loader) : Loader :=
  let f := ldFmt e
  if ldHead e then
    let b : WBlock :=
      { fmt := BitVec.ofNat 4 f, elems := [], ws := true, need := blockElemBytes f - wsHeadBytes (ldAfmt e) f (ldM e),
        head := bytes.drop (wsSideBytes f), side := bytes.take (wsSideBytes f) }
    { l with shadow := some b }
  else
    let vs := vecsOperands f 64 bytes
    if f = 14 then
      { l with shadow := some (plainBlock f (vs.flatMap (List.take 32))),
               held := some (plainBlock f (vs.flatMap (List.drop 32))) }
    else { l with shadow := some (plainBlock f vs.flatten) }

/-- Deliver the bytes of a step of instruction i. -/
def Tiller.ldDeliver (x : Tiller) (gang : Nat) (i : Inst) (bytes : List PByte) : Tiller :=
  let e := encOf i.word
  let q := opIdx e.dst
  match ldKind q with
  | .feeder => (x.setFeeder q (feedStep e bytes (x.feeder q))).settle gang q
  | .loader => (x.setLoader (q - 4) (loadStep e bytes (x.loader (q - 4)))).settle gang (q - 4)
  | .egress =>
    let eop := if bitAt e.mod 7 && decide (i.steps ≤ i.done + 1) then [EItem.eop] else []
    x.push q (bytes.map EItem.byte ++ eop)
  | .other => x

/-- The egress descriptor of an LD is refused (R394). -/
def State.ldDescBad (s : State) (t : Nat) (e : Enc) : Bool :=
  ldKind (opIdx e.dst) == .egress && descBad true (s.desc t (opIdx e.dst))

/-- The offset in a source's stream of the next unit of an LD or an ST: a peek leaves its source as it is and walks on within its
instruction (R143; DEDUCED: notes/assumptions/19.md). -/
def peekSkip (e : Enc) (i : Inst) (n : Nat) : Nat := if opKind e.a = 1 then 0 else i.done / ldTogether e * n

/-- The next unit of the LD at the head of the mover of queue q (R141, R152). -/
def State.doLdUnit (s : State) (t q : Nat) : State :=
  match s.unitStep t (moverUnit q) with
  | none => s
  | some i =>
    let e := encOf i.word
    if s.ldDescBad t e then s.descFault t i.pc q
    else if !((s.til t).ldRoom e) then s
    else
      let src := opIdx e.a
      let n := ldStepBytes e
      let skip := peekSkip e i n
      match agTake (s.binding t src) (skip + n + 1) (s.ag t src) (skip + n) with
      | .error a => s.runFault t i.pc src a
      | .ok (offs, g) =>
        let r := s.storeRead t ((offs.drop skip).map (fun o => (o, true)))
        let s1 := if opKind e.a = 1 then r.1.setAg t src g else r.1
        let s2 := s1.setTil t ((s1.til t).ldDeliver (s1.gang t) i r.2)
        s2.unitDone t i (ldTogether e)

def execLdUnitMove (sh : Fin 12) (n : Fin 64) (q : BitVec 5) (s : State) : Host.Outcome State Fault Refusal :=
  .next (s.doLdUnit (tix sh n) q.toNat)

/-! ### Units of ST (R152) -/

/-- The little-endian bytes of an element of a tile, with its poison. -/
def TElem.bytes (w64 : Bool) (x : TElem) : List PByte :=
  (leBytes (if w64 then 8 else 4) x.val.toNat).map (fun b => ⟨b, x.poison⟩)

def TElem.zero : TElem := ⟨0, false, false⟩

/-- Element k of a tile. -/
def Tile.elem (x : Tile) (k : Nat) : TElem := Tbl.get TElem.zero x.elems k

/-- A tile's bytes in the order of R92. -/
def Tile.bytes (x : Tile) : List PByte := (List.range (64 * x.rows)).flatMap (fun k => (x.elem k).bytes x.w64)

/-- The tile at the head of the tile queue, when it has drained (R93, R113). -/
def Tiller.headTile (x : Tiller) : Option Tile := x.tiles.find? (fun k => k.seq == x.tileHead)

/-- The head entry is released (R111). -/
def Tiller.popTile (x : Tiller) : Tiller :=
  { x with tiles := x.tiles.filter (fun k => k.seq != x.tileHead), tileHead := x.tileHead + 1 }

/-- The data of one ST unit, when its source holds it, and the Tiller after the source is popped. A peek of the tile queue takes the
tile at its head at every unit (R143). -/
def Tiller.stSource (x : Tiller) (i : Inst) (e : Enc) : Option (List PByte × Tiller) :=
  let q := opIdx e.a
  let pop := opKind e.a == 1
  if q = 8 then
    match x.headTile with
    | some k => some (k.bytes, if pop then x.popTile else x)
    | none => none
  else
    let l := Tbl.get [] x.ingress q
    let n := ldBytes e
    let skip := peekSkip e i n
    if skip + n ≤ l.length then
      some ((l.drop skip).take n, if pop then { x with ingress := Tbl.put x.ingress q (l.drop n) } else x)
    else none

/-- The next unit of the ST at the head of the store mover. -/
def State.doStUnit (s : State) (t : Nat) : State :=
  match s.unitStep t storeMover with
  | none => s
  | some i =>
    let e := encOf i.word
    if decide (28 ≤ opIdx e.a) && descBad false (s.desc t (opIdx e.a)) then s.descFault t i.pc (opIdx e.a)
    else
      match (s.til t).stSource i e with
      | none => s
      | some (bytes, x) =>
        let dst := opIdx e.dst
        match agTake (s.binding t dst) (bytes.length + 1) (s.ag t dst) bytes.length with
        | .error a => s.runFault t i.pc dst a
        | .ok (offs, g) =>
          let s1 := (s.setTil t x).setAg t dst g
          let s2 := s1.storeWrite t (offs.zip (bytes.map some))
          s2.unitDone t i 1

def execStUnitMove (sh : Fin 12) (n : Fin 64) (s : State) : Host.Outcome State Fault Refusal :=
  .next (s.doStUnit (tix sh n))

end Sys2Proof.Machine
end

