-- ==== Sys2Proof/Machine/Arrays.lean ====
section
/-! DEFINITION. The matrix arrays: passes (R75-R87, R95-R97), accumulation (R53-R59, R88-R90), drains and gang compare
(R92-R94, R99-R102), and the array registers (R100, R104). -/

namespace Sys2Proof.Machine

/-! ### Group results (R53, R55, R56, R581) -/

/-- Operands of 16 bits or wider take the rounded tree of R53. -/
def wideFmt (fmt : Nat) : Bool := decide (fmt ≤ 2)

/-- One level of a pairwise FP32 tree. -/
def fp32Level : List Nat → List Nat
  | a :: b :: t => addFp32 a b :: fp32Level t
  | l => l

/-- Five pairwise FP32 levels over 32 values. -/
def fp32Tree (l : List Nat) : Nat := (fp32Level (fp32Level (fp32Level (fp32Level (fp32Level l))))).headD 0

/-- The exact sum of products, from the first product on: an exact zero sum is +0 unless every product is -0 (R55). -/
def exactSum : List FVal → FVal
  | [] => .fin false 0 0
  | x :: t => t.foldl (fun a b => a.add false b) x

/-- The group result of one token and one column as an FP32 word (R53, R55). -/
def groupFp (wide : Bool) (ps : List FVal) : Nat :=
  if wide then fp32Tree (ps.map toFp32) else toFp32 (exactSum ps)

/-- The integer that a finite value with exponent 0 stands for. -/
def intOf : FVal → Int
  | .fin n m _ => sgnInt n m
  | _ => 0

/-- The group result in W64 (R56): exact, far inside the range. -/
def groupW64 (ps : List FVal) : Nat := wrapInt 64 ((ps.map intOf).foldl (· + ·) 0)

/-- One element of a pass: 32 activations of a token against 32 weights of a column. -/
def passElem (wide w64 : Bool) (acts ws : List Operand) : TElem :=
  let ps := List.zipWith (fun a b => a.val.mul b.val) acts ws
  { val := BitVec.ofNat 64 (if w64 then groupW64 ps else groupFp wide ps)
    poison := acts.any (·.poison) || ws.any (·.poison)
    sat := false }

/-- All elements of a pass of M tokens, row by row. -/
def passElems (wide w64 : Bool) (m : Nat) (acts ws : List Operand) : List TElem :=
  (List.range m).flatMap (fun k => (List.range 64).map (fun c =>
    passElem wide w64 ((acts.drop (32 * k)).take 32) ((ws.drop (32 * c)).take 32)))

/-! ### Errors of the arrays (R94) -/

/-- Rows of a tile that an error poisons. -/
inductive BadRows where
  | none
  | one (row : Nat)
  | fromRow (row : Nat)
  deriving DecidableEq, Repr

def BadRows.has : BadRows → Nat → Bool
  | .none, _ => false
  | .one r, k => r == k
  | .fromRow r, k => decide (r ≤ k)

/-- Status, record and poisoned rows of an error of array a (R94, R105, R176). -/
def State.arrayErr (s : State) (t a pc : Nat) (e : ArrayErr) : State × BadRows :=
  match e with
  | .none => (s, .none)
  | .accSingle _ => (s.satAdd .TIL_MA_STATUS_ACC_CE t 1, .none)
  | .parity r =>
    ((s.setBit .TIL_MA_STATUS_PARITY_ERR t a).raiseCtx 0x32 (s.tctx t) (tilUnit t) (tilDetail pc a 0 r 0), .fromRow r)
  | .accDouble r =>
    ((s.setBit .TIL_MA_STATUS_ACC_DUE t a).raiseCtx 0x33 (s.tctx t) (tilUnit t) (tilDetail pc a 0 r 0), .one r)

/-! ### Accumulator buffers -/

def AccBuf.empty : AccBuf :=
  { w64 := false, rows := 0, elems := [], g := none, finished := false, tile := 0, inst := 0 }

/-- The key of buffer A0 or A1 of an array. -/
def accKey (a b : Nat) : Nat := 2 * a + b

def Tiller.acc (x : Tiller) (a b : Nat) : AccBuf := Tbl.get AccBuf.empty x.accs (accKey a b)

def Tiller.setAcc (x : Tiller) (a b : Nat) (v : AccBuf) : Tiller := { x with accs := Tbl.put x.accs (accKey a b) v }

def Tiller.pipe (x : Tiller) (a : Nat) : List PassInPipe := Tbl.get [] x.pipes a

def Tiller.setPipe (x : Tiller) (a : Nat) (l : List PassInPipe) : Tiller := { x with pipes := Tbl.put x.pipes a l }

/-- A buffer that neither awaits its drain nor drains (R87). -/
def Tiller.accFree (x : Tiller) (a b : Nat) : Bool :=
  !(x.acc a b).finished && !((x.pipe a).any (fun p => p.acc == b && p.drain))

/-- A W64 sum, saturating; the mark tells of a saturation (R59, R70). -/
def w64Add (a b : Word) : Word × Bool :=
  let v := a.toInt + b.toInt
  let top : Int := 2 ^ 63 - 1
  if top < v then (BitVec.ofInt 64 top, true) else if v < -top then (BitVec.ofInt 64 (-top), true)
  else (BitVec.ofInt 64 v, false)

/-- A later group result is added to an element of the buffer (R54, R89). -/
def accAdd (w64 : Bool) (old new : TElem) : TElem :=
  if w64 then
    let r := w64Add old.val new.val
    { val := r.1, poison := old.poison || new.poison, sat := old.sat || new.sat || r.2 }
  else
    { val := BitVec.ofNat 64 (addFp32 old.val.toNat new.val.toNat), poison := old.poison || new.poison, sat := false }

/-- An element of a buffer; none where the buffer is empty. -/
def AccBuf.elem? (b : AccBuf) (k : Nat) : Option TElem :=
  match b.elems.find? (fun p => p.1 == k) with
  | some p => some p.2
  | none => none

/-! ### Passes (R87, R150, R151) -/

/-- The place of pass p of an MM: what it reads from and writes to. -/
structure PassPos where
  g : Nat
  acc : Nat
  rowBase : Nat
  first : Bool
  drain : Bool
  bufNo : Nat
  deriving DecidableEq, Repr

def passPos (e : Enc) (p : Nat) : PassPos :=
  let ng := mmNg e
  let b := p / ng
  let gi := p % ng
  let per := mmPer e
  if mmWs e then
    { g := mmG0 e + gi, acc := (mmAcc e + b / per) % 2, rowBase := b % per * mmM e, first := gi == 0
      drain := gi + 1 == ng && (b % per + 1 == per || b + 1 == mmNb e), bufNo := b / per }
  else
    { g := mmG0 e + gi, acc := mmAcc e, rowBase := 0, first := mmFirst e && p == 0
      drain := mmLast e && p + 1 == ng, bufNo := 0 }

/-- A check that a pass fails as it would issue (R90, R151, R152). -/
def State.passBad (s : State) (t : Nat) (e : Enc) (pos : PassPos) (slot : FeedSlot) (arrs : List Nat) : Option Bad :=
  let x := s.til t
  let lead := mmArr e
  firstBad ([(slot.fmt.toNat != mmAfmt e, ⟨0x39, lead, 5⟩), (slot.tail.isSome && !(mmWs e), ⟨0x39, lead, 5⟩)] ++
    arrs.map (fun a =>
      (match (if mmReuse e then Tbl.get none (x.active.map (fun p => (p.1, some p.2))) a else (x.loader a).shadow) with
        | some b => b.fmt.toNat != mmWfmt e
        | none => false, ⟨0x39, 4 + a, 5⟩)) ++
    arrs.map (fun a =>
      (!pos.first && (match (x.acc a pos.acc).g with
        | some g => decide (pos.g ≤ g)
        | none => false), ⟨0x30, 0, a⟩)))

/-- A tail that does not fit the block that waits for it (R152, R175). -/
def Tiller.tailClash (x : Tiller) (arrs : List Nat) : Option Nat :=
  arrs.find? (fun a => match (x.loader a).shadow with
    | some b => decide (0 < b.need) && (x.loader a).tail.isSome
    | none => false)

/-- The pass is ready on every array of its gang (R87, R102). A slot with fewer vectors than the pass's M makes it wait; of one with
more the first M stream and the rest are discarded with the slot (DESIGN CHOICE: notes/assumptions/148.md). -/
def Tiller.passReady (x : Tiller) (e : Enc) (pos : PassPos) (slot : FeedSlot) (arrs : List Nat) : Bool :=
  !slot.tailOnly && decide (mmM e ≤ slot.m) &&
    arrs.all (fun a => x.accFree a pos.acc && (slot.tail.isNone || (x.loader a).tail.isNone) &&
      (mmReuse e || (match (x.loader a).shadow with
        | some b => b.need == 0
        | none => false)))

/-- The active block of an array after the front has passed: the shadow, decoded for its group; the next block of a
HUSK6 record follows into the shadow (R82, R83, R152). -/
def Tiller.front (x : Tiller) (a g : Nat) : Tiller :=
  let l := x.loader a
  match l.shadow with
  | none => x
  | some b =>
    let b1 := if b.ws then { b with elems := wsOperands b.fmt.toNat g b.side b.head, ws := false, head := [], side := [] } else b
    ({ x with active := Tbl.put x.active a b1 }).setLoader a { l with shadow := l.held, held := none }

/-- 32 x 64 weights of +0 (R86). -/
def zeroWeights : List Operand := List.replicate 2048 ⟨.fin false 0 0, false⟩

def Tiller.weights (x : Tiller) (a : Nat) : List Operand :=
  match x.active.find? (fun p => p.1 == a) with
  | some p => p.2.elems
  | none => zeroWeights

/-- The pass of array a enters its pipe. The rows touched after a weight parity error are those of this pass from the error's row on;
a later pass of the same tile marks none for it (DESIGN CHOICE: notes/assumptions/149.md). -/
def Tiller.startPass (x : Tiller) (e : Enc) (i : Inst) (pos : PassPos) (slot : FeedSlot) (a tileNo : Nat)
    (bad : BadRows) : Tiller :=
  let x1 := if mmReuse e then x else x.front a pos.g
  let els := passElems (wideFmt (mmAfmt e) || wideFmt (mmWfmt e)) (mmW64 e) (mmM e) slot.elems (x1.weights a)
  let els1 := (els.zip (List.range els.length)).map (fun p =>
    if bad.has (pos.rowBase + p.2 / 64) then { p.1 with poison := true } else p.1)
  let b := x1.acc a pos.acc
  let x2 := x1.setAcc a pos.acc { b with g := some pos.g }
  { x2.setPipe a (x2.pipe a ++
      [{ inst := i.id, acc := pos.acc, w64 := mmW64 e, first := pos.first, drain := pos.drain, tile := tileNo,
         rowBase := pos.rowBase, rows := mmM e, g := pos.g, results := els1 }]) with
    lastPass := Tbl.put x2.lastPass a (streamCycles (mmAfmt e) (mmWfmt e) (mmM e)) }

/-- The feeder after a pass: the slot is popped, but for the last pass of a peek; a joined tail goes to the loaders. -/
def Tiller.popSlot (x : Tiller) (e : Enc) (last : Bool) (slot : FeedSlot) (arrs : List Nat) : Tiller :=
  let lead := mmArr e
  let rest := (x.feeder lead).drop 1
  let x1 := if opKind e.a = 2 && last then x.setFeeder lead ({ slot with kept := true, tail := none } :: rest)
    else x.setFeeder lead rest
  if slot.tail.isSome then
    arrs.foldl (fun x a => x.setLoader a { x.loader a with tail := slot.tail }) x1
  else x1

/-- Cycles that the feeder holds the front vector of array a's next pass: by what the pass before it, complete or not, streams
(R84; DEDUCED: notes/assumptions/14.md). -/
def Tiller.frontHold (x : Tiller) (e : Enc) (a : Nat) : Nat :=
  match x.lastPass.find? (fun p => p.1 == a) with
  | some p => loadCycles (mmWfmt e) - p.2
  | none => 0

/-- The holds of a pass, summed over the arrays that run it (R84, R85, R106). -/
def Tiller.frontStall (x : Tiller) (e : Enc) (arrs : List Nat) : Nat :=
  if mmWs e || mmReuse e then 0 else (arrs.map (x.frontHold e)).sum

/-- Number in the gang of array a: with compare the gang delivers one tile, without each array its own (R101, R102). -/
def State.tileOffset (s : State) (t : Nat) (arrs : List Nat) (bufNo k : Nat) : Nat :=
  if s.flag .TIL_MA_CTRL_CMP t && decide (1 < arrs.length) then bufNo else bufNo * arrs.length + k

/-- The next pass of the MM at the head of an array's unit (R87). An error of the row strikes array `a` of the gang. -/
def State.doPass (s : State) (t a : Nat) (err : ArrayErr) : State :=
  let arrs := gangArrays (s.gang t) a
  let lead := gangLead (s.gang t) a
  match s.unitStep t lead with
  | none => s
  | some i =>
    let e := encOf i.word
    let pos := passPos e i.done
    let x := s.til t
    match x.feeder lead with
    | [] => s
    | slot :: _ =>
      match x.tailClash arrs with
      | some k => s.badInst t i.pc ⟨0x39, 4 + k, 5⟩
      | none =>
        if !(x.passReady e pos slot arrs) then s
        else
          match s.passBad t e pos slot arrs with
          | some b => s.badInst t i.pc b
          | none =>
            let r := s.arrayErr t a i.pc err
            let s1 := r.1
            let stall := x.frontStall e arrs
            let x1 := (arrs.zip (List.range arrs.length)).foldl (fun y p =>
              y.startPass e i pos slot p.1 (i.tile + s.tileOffset t arrs pos.bufNo p.2) (if p.1 = a then r.2 else .none))
              (s1.til t)
            let x2 := (x1.popSlot e (i.done + 1 == i.steps) slot arrs).settle (s.gang t) a
            let s2 := ((s1.setTil t x2).setInst t { i with done := i.done + 1 }).stepped t
            let macs := mmM e * 2048 * arrs.length
            ((s2.satAdd .TIL_MA_FRONT_STALL_CYCLES t stall).satAdd .TIL_OBS_MAC_MACS t macs).count (tcKey t 16) macs

def execMmPassIssue (sh : Fin 12) (n : Fin 64) (arr : Fin 4) (err : ArrayErr) (s : State) :
    Host.Outcome State Fault Refusal := .next (s.doPass (tix sh n) arr.val err)

/-! ### Accumulation (R81, R89, R90) -/

/-- The buffer after the results of a pass; an element where the buffer's accumulator differs in kind from the pass is
a free value (notes/assumptions/15.md). -/
def AccBuf.take (b : AccBuf) (p : PassInPipe) (bad : BadRows) (fresh : Nat) : AccBuf :=
  let mixed := !p.first && !b.elems.isEmpty && b.w64 != p.w64
  let one := fun (q : TElem × Nat) =>
    let k := 64 * p.rowBase + q.2
    let v := if mixed then { q.1 with val := Config.freeWord (fresh + q.2) }
      else if p.first then q.1
      else match b.elem? k with
        | some o => accAdd p.w64 o q.1
        | none => q.1
    (k, if bad.has (k / 64) then { v with poison := true } else v)
  let els := (p.results.zip (List.range p.results.length)).map one
  let keep := b.elems.filter (fun q => decide (q.1 < 64 * p.rowBase) || decide (64 * p.rowBase + p.results.length ≤ q.1))
  let before := keep.filter (fun q => decide (q.1 < 64 * p.rowBase))
  let after := keep.filter (fun q => decide (64 * p.rowBase ≤ q.1))
  { w64 := p.w64, rows := max (if p.first && p.rowBase == 0 then 0 else b.rows) (p.rowBase + p.rows)
    elems := (if p.first && p.rowBase == 0 then [] else before) ++ els ++ (if p.first && p.rowBase == 0 then [] else after)
    g := b.g, finished := p.drain, tile := p.tile, inst := p.inst }

/-- Free values that a pass uses. -/
def AccBuf.freeUse (b : AccBuf) (p : PassInPipe) : Nat :=
  if !p.first && !b.elems.isEmpty && b.w64 != p.w64 then p.results.length else 0

/-- Nothing of an instruction is left in the arrays. -/
def Tiller.arraysDone (x : Tiller) (i : Inst) : Bool :=
  i.done == i.steps && (List.range 4).all (fun a => (x.pipe a).all (fun p => p.inst != i.id)) &&
    x.accs.all (fun p => !(p.2.finished && p.2.inst == i.id))

/-- An MM whose work is over completes (R139). -/
def State.mmRetire (s : State) (t id : Nat) : State :=
  match (s.til t).insts.find? (fun i => i.id == id) with
  | some i => if (s.til t).arraysDone i then s.retire t id else s
  | none => s

/-- The index of an instruction in flight. -/
def Tiller.instPc (x : Tiller) (id : Nat) : Nat :=
  match x.insts.find? (fun i => i.id == id) with
  | some i => i.pc
  | none => 0

/-- The accumulator update of the oldest pass in array a's pipe completes (R81). -/
def State.doAccumulate (s : State) (t a : Nat) (err : ArrayErr) : State :=
  if s.unitsRun t then
    match (s.til t).pipe a with
    | [] => s
    | p :: rest =>
      let r := s.arrayErr t a ((s.til t).instPc p.inst) err
      let x := r.1.til t
      let b := x.acc a p.acc
      let x1 := (x.setAcc a p.acc (b.take p r.2 r.1.fresh)).setPipe a rest
      let s1 := { r.1.setTil t x1 with fresh := r.1.fresh + b.freeUse p }
      (s1.stepped t).mmRetire t p.inst
  else s

def execPassAccumulationComplete (sh : Fin 12) (n : Fin 64) (arr : Fin 4) (err : ArrayErr) (s : State) :
    Host.Outcome State Fault Refusal := .next (s.doAccumulate (tix sh n) arr.val err)

/-! ### Drains (R92, R93) and gang compare (R101) -/

/-- A buffer's tile. -/
def AccBuf.toTile (b : AccBuf) : Tile :=
  { seq := b.tile, w64 := b.w64, rows := b.rows
    elems := b.elems.filter (fun p => decide (p.1 < 64 * b.rows) && p.2 != TElem.zero) }

/-- Mark rows poisoned. -/
def AccBuf.poisonRows (b : AccBuf) (bad : BadRows) : AccBuf :=
  { b with elems := b.elems.map (fun p => if bad.has (p.1 / 64) then (p.1, { p.2 with poison := true }) else p) }

/-- The buffer after its drain: empty, with its group record (R90). -/
def AccBuf.drained (b : AccBuf) : AccBuf := { AccBuf.empty with g := b.g }

/-- The finished buffer of array a that is first in program order. -/
def Tiller.firstFinished (x : Tiller) (a : Nat) : Option Nat :=
  let f := fun b => (x.acc a b).finished
  if f 0 && f 1 then some (if (x.acc a 0).tile ≤ (x.acc a 1).tile then 0 else 1)
  else if f 0 then some 0 else if f 1 then some 1 else none

/-- Finished tiles whose entry is free and that come before tile `seq`: the write port takes two drains at a time, the
earliest first (R93). -/
def Tiller.drainsBefore (x : Tiller) (seq : Nat) : Nat :=
  ((x.accs.filter (fun p => p.2.finished && decide (p.2.tile < seq))).map (fun p => p.2.tile)).eraseDups.length

/-- The values of a row of a buffer. -/
def AccBuf.row (b : AccBuf) (r : Nat) : List Word :=
  (List.range 64).map (fun c => (Tbl.get TElem.zero b.elems (64 * r + c)).val)

/-- Two buffers hold the same bits in a row. -/
def sameRow (x y : AccBuf) (r : Nat) : Bool := x.row r == y.row r

/-- Two buffers hold the same tile: the same values in the same rows. Poison and saturation marks are not compared (DESIGN CHOICE:
notes/assumptions/150.md). -/
def sameTile (x y : AccBuf) : Bool :=
  x.rows == y.rows && x.w64 == y.w64 && (List.range x.rows).all (sameRow x y)

/-- The arrays that a gang compare flags (R101). -/
def flagged (bufs : List (Nat × AccBuf)) : List Nat :=
  let all := bufs.map (·.1)
  if bufs.all (fun p => bufs.all (fun q => sameTile p.2 q.2)) then []
  else if bufs.length = 4 then
    match bufs.find? (fun p =>
        let others := bufs.filter (fun q => q.1 != p.1)
        others.all (fun u => others.all (fun v => sameTile u.2 v.2))) with
    | some p => [p.1]
    | none => all
  else all

/-- The first row in which the buffers of a gang differ. -/
def firstDiff (bufs : List (Nat × AccBuf)) : Nat :=
  ((List.range 64).find? (fun r => !(bufs.all (fun p => bufs.all (fun q => sameRow p.2 q.2 r))))).getD 0

/-- Put a tile into its entry and empty the buffers that made it. -/
def State.drainInto (s : State) (t b : Nat) (from_ : AccBuf) (arrs : List Nat) : State :=
  let x := s.til t
  let x1 := { x with tiles := x.tiles ++ [from_.toTile] }
  let x2 := arrs.foldl (fun y a => y.setAcc a b (y.acc a b).drained) x1
  ((s.setTil t x2).stepped t).mmRetire t from_.inst

/-- The status and the record of a gang compare that fails (R101, R176); SOURCE names the first flagged array (DESIGN CHOICE:
notes/assumptions/151.md). -/
def State.compareFails (s : State) (t pc row : Nat) (bad : List Nat) : State :=
  if bad.isEmpty then s
  else
    let s1 := bad.foldl (fun s a => s.setBit .TIL_MA_STATUS_CMP_FAIL t a) s
    s1.raiseCtx 0x31 (s.tctx t) (tilUnit t) (tilDetail pc (bad.headD 0) 0 row 0)

/-- The first finished tile of array a drains into its entry of the tile queue (R93). Under compare the arrays of a
gang drain together and the lead's tile is delivered (R101). -/
def State.doDrain (s : State) (t a : Nat) (err : ArrayErr) : State :=
  if s.unitsRun t then
    let x := s.til t
    match x.firstFinished a with
    | none => s
    | some b =>
      let buf := x.acc a b
      let arrs := gangArrays (s.gang t) a
      let cmp := s.flag .TIL_MA_CTRL_CMP t && decide (1 < arrs.length)
      if x.tileHead + 8 ≤ buf.tile || 2 ≤ x.drainsBefore buf.tile then s
      else
        let r := s.arrayErr t a (x.instPc buf.inst) err
        if cmp then
          if arrs.all (fun k => (x.acc k b).finished && (x.acc k b).tile == buf.tile) then
            let bufs := arrs.map (fun k => (k, if k = a then buf.poisonRows r.2 else x.acc k b))
            let lead := (bufs.headD (a, buf)).2
            (r.1.compareFails t (x.instPc buf.inst) (firstDiff bufs) (flagged bufs)).drainInto t b lead arrs
          else s
        else r.1.drainInto t b (buf.poisonRows r.2) [a]
  else s

def execTileDrain (sh : Fin 12) (n : Fin 64) (arr : Fin 4) (err : ArrayErr) (s : State) :
    Host.Outcome State Fault Refusal := .next (s.doDrain (tix sh n) arr.val err)

/-! ### Registers (R100, R104) -/

/-- The Tiller runs a program: loading to stopped (R180). -/
def State.runsProgram (s : State) (t : Nat) : Bool := decide (2 ≤ s.tstate t) && decide (s.tstate t ≤ 6)

/-- STALL_CLR clears TIL_MA_FRONT_STALL (R104). -/
def execMaStallClr (sh : Fin 12) (n : Fin 64) (s : State) : Host.Outcome State Fault Refusal :=
  .next (s.access .pf .TIL_MA_CTRL (fun s => s.setFld .TIL_MA_FRONT_STALL_CYCLES (tix sh n) 0))

end Sys2Proof.Machine
end

