-- ==== Sys2Proof/Machine/RingOps.lean ====
section
/-! DEFINITION. What the commands of a ring share (R275-R290): the fields of a command, the head and its waits, starting
and retiring, faulted heads, and the command records of telemetry (R526). -/

namespace Sys2Proof.Machine

/-! ### Commands (R279-R281) -/

def cmdKind (c : BitVec 512) : Nat := cmdField c 0 3 0
def cmdOrdered (c : BitVec 512) : Bool := cmdField c 0 6 6 == 1
def cmdCtx (c : BitVec 512) : Nat := cmdField c 0 19 8
def cmdNFirst (c : BitVec 512) : Nat := cmdField c 0 25 20
def cmdNLast (c : BitVec 512) : Nat := cmdField c 0 31 26
def cmdLayer (c : BitVec 512) : Nat := cmdField c 4 15 0
def cmdOperator (c : BitVec 512) : Nat := cmdField c 6 15 0
def cmdTag (c : BitVec 512) : Nat := cmdField c 8 31 0
def cmdImage (c : BitVec 512) : Nat := cmdField c 0xC 31 0
def cmdNPatch (c : BitVec 512) : Nat := cmdField c 0x10 58 48
def cmdProg (c : BitVec 512) : Nat := cmdField c 0x10 47 0
def cmdSheafs (c : BitVec 512) : Nat := cmdField c 0x18 59 48
def cmdPatch (c : BitVec 512) : Nat := cmdField c 0x18 47 0

/-- Wait k of a command: virtual ID and threshold. -/
def cmdWait (c : BitVec 512) (k : Nat) : Nat × Nat := (cmdField c (0x20 + 2 * k) 15 0, cmdField c (0x28 + 8 * k) 63 0)

/-- Completion signal k of a command: virtual ID and value. -/
def cmdSig (c : BitVec 512) (k : Nat) : Nat × Nat := (cmdField c (0x24 + 2 * k) 15 0, cmdField c (0x38 + 4 * k) 31 0)

/-- The Sheafs of SHEAFS in ascending order. -/
def cmdSheafList (c : BitVec 512) : List Nat := (List.range 12).filter (fun k => bitAt (cmdSheafs c) k)

/-- The Tillers that a RUN names. -/
def cmdTillers (c : BitVec 512) : List Nat :=
  (cmdSheafList c).flatMap (fun k =>
    ((List.range 64).filter (fun n => decide (cmdNFirst c ≤ n) && decide (n ≤ cmdNLast c))).map (fun n => k * 64 + n))

/-- The reason why a command is refused (R281, R302). A count above 1,024 is refused as a reserved value (DESIGN CHOICE:
notes/assumptions/28.md). -/
def cmdRefused (c : BitVec 512) (owner : Nat) : Option Nat :=
  if cmdField c 0 7 7 ≠ 0 ∨ cmdField c 0x10 63 59 ≠ 0 ∨ cmdField c 0x18 63 60 ≠ 0 ∨ 3 ≤ cmdKind c then some 0
  else if cmdCtx c ≠ owner then some 1
  else if cmdKind c ≠ 0 ∧ cmdSheafs c = 0 then some 2
  else if cmdNLast c < cmdNFirst c then some 3
  else if cmdKind c = 2 ∧ (cmdNPatch c = 0 ∨ 1024 < cmdNPatch c) then some 4
  else if cmdKind c = 1 ∧ 1024 < cmdNPatch c then some 0
  else none

/-! ### Rings (R275, R283, R309) -/

def State.owner (s : State) (r : Nat) : Nat := s.fld .CTX_RING_CFG_CTX r

def State.home (s : State) (r : Nat) : Nat := s.fld .CTX_RING_CFG_HOME r

/-- The home command processor. -/
def State.cmdUnit (s : State) (r : Nat) : UnitRef := ⟨1, s.home r⟩

/-- The accessor of a ring's fetches, with a host read of theirs that fails. -/
def State.ringAcc (s : State) (r : Nat) (h : Option HostErr) : Accessor :=
  { Accessor.of (s.cmdUnit r) (some (s.owner r)) with hostErr := h }

/-- Entries of a ring: 64 x 2^SIZE; a SIZE of 11 to 15 acts as 0. -/
def State.cmdEntries (s : State) (r : Nat) : Nat :=
  let z := s.fld .CTX_RING_BASE_SIZE r
  if z ≤ 10 then 64 * 2 ^ z else 64

/-- The position of the oldest command that has not started (R283). -/
def State.ringHead (s : State) (r : Nat) : Nat := s.fld .CTX_RING_HEAD_HEAD r

/-- The CVA of the command at a position (R275). -/
def State.cmdAddr (s : State) (r p : Nat) : Nat := s.fld .CTX_RING_BASE_BASE r * 64 + 64 * (p % s.cmdEntries r)

/-- The ring's context takes commands: enabled, not in reset, translation not frozen (R274, R294, R296). -/
def State.ctxRuns (s : State) (c : Nat) : Bool :=
  s.flag .CTX_CFG_ENABLE c && s.fld .CTX_STATUS_STATE c == 1 && !(s.flag .CTX_STATUS_FROZEN c)

/-- The ring is fetched: enabled, not stopped, its home Sheaf there and not fenced, its context runs (R274, R290, R294,
R454). HOME 12 to 15 name no Sheaf (DESIGN CHOICE: notes/assumptions/29.md). -/
def State.ringLive (s : State) (r : Nat) : Bool :=
  s.ready && s.flag .CTX_RING_BASE_ENABLE r && decide (s.home r < 12) &&
    !(s.flag .MGT_DET_DUMAP_HI_FENCED (s.home r)) && s.ctxRuns (s.owner r) && (s.ring r).stopped.isEmpty

/-- The fetched command at the head. -/
def State.headCmd (s : State) (r : Nat) : Option (BitVec 512) :=
  ((s.ring r).fetched.find? (fun p => p.1 == s.ringHead r)).map (fun p => p.2.cmd)

/-- The head has been cancelled (R289). -/
def State.headCancelled (s : State) (r : Nat) : Bool := decide (s.ringHead r < (s.ring r).upto)

/-! ### Command records (R526, R527) -/

/-- The counters of a command record, by the key of a Tiller's counter: causes, MACs, vector elements, instructions,
the counters of R70 and the bank conflicts. -/
def recordKeys : List Nat := List.range 19 ++ (List.range 8).map (fun k => 20 + k)

/-- Cause counters are kept in hundredths of a cycle. -/
def countScale (k : Nat) : Nat := if k ≤ 15 ∨ k = 27 then 100 else 1

def State.tcount (s : State) (t k : Nat) : Nat := Tbl.get 0 s.obs.cnt (tcKey t k) / countScale k

/-- The sums of the counters over a list of Tillers. -/
def State.sumCounts (s : State) (ts : List Nat) : List Nat :=
  recordKeys.map (fun k => (ts.map (fun t => s.tcount t k)).sum)

/-- The increase of counter k since `base`. -/
def increase (now base : List Nat) (k : Nat) : Nat := now.getD k 0 - base.getD k 0

/-- The counter part of a Sheaf sample or a command record, from offset 0x20 on: `inc k` is the k-th of recordKeys. -/
def countBody (inc : Nat → Nat) : Nat :=
  ((List.range 19).map (fun k => inc k % 2 ^ 64 * 2 ^ (8 * (0x20 + 8 * k)))).sum +
    ((List.range 7).map (fun k => inc (19 + k) % 2 ^ 32 * 2 ^ (8 * (0xC8 + 4 * k)))).sum +
    inc 26 % 2 ^ 64 * 2 ^ (8 * 0xE8)

/-- Write the command record of a command that completes or retires. -/
def State.cmdRecord (s : State) (r pos : Nat) (cmd : BitVec 512) (start : Nat) (base : List Nat)
    (cancelled faulted : Bool) : State :=
  let c := s.owner r
  if s.flag .OBS_CMDREC_EN 0 && (s.flag .OBS_CMDREC_ALL_CTX 0 || s.fld .OBS_CMDREC_CTX 0 == c) then
    let now := if cmdKind cmd = 1 && !cancelled then s.sumCounts (cmdTillers cmd) else []
    let fl := (if cancelled then 1 else 0) + (if faulted then 2 else 0)
    s.telPut (s.home r) (telHeader s.now 2 (s.home r) 0 +
      (cmdTag cmd + cmdLayer cmd * 2 ^ 32 + cmdOperator cmd * 2 ^ 48 + c * 2 ^ 64 + r * 2 ^ 80 + fl * 2 ^ 96) *
        2 ^ 128 +
      countBody (increase now base) + pos % 2 ^ 64 * 2 ^ (8 * 0xB8) + start % 2 ^ 64 * 2 ^ (8 * 0xC0))
  else s

/-! ### The head: faults and waits (R198, R205, R208, R283, R290) -/

/-- The head's place after it has started, retired or been resumed: the next position becomes the head. -/
def State.dropHead (s : State) (r : Nat) : State :=
  let x := s.ring r
  (s.setRing r { x with
    fetched := Tbl.del (s.ringHead r) x.fetched, waits := [], readyAt := none, imgBuf := [], listBuf := [] }).wrapAdd
    .CTX_RING_HEAD_HEAD r 1

/-- The ring stops with its head at a command that has not started. -/
def State.stopHead (s : State) (r cls : Nat) : State :=
  let x := s.ring r
  s.setRing r { x with stopped := x.stopped ++ [(s.ringHead r, BitVec.ofNat 8 cls)], waits := [], readyAt := none,
                       imgBuf := [], listBuf := [] }

/-- The head is faulted before it starts (R290). A command that could not be read has no record of its own. -/
def State.headFault (s : State) (r cls : Nat) : State :=
  let p := s.ringHead r
  let s1 := s.stopHead r cls
  match s.headCmd r with
  | some cmd => s1.reportFault r p cmd cls 0
  | none =>
    s1.raiseCtx 0x15 (s.owner r) (s.cmdUnit r) (p % 2 ^ 64 + r * 2 ^ 64 + cls * 2 ^ 80)

/-- The head is refused (R281): class 0x10, and the ring stops. -/
def State.refuseHead (s : State) (r reason : Nat) : State :=
  (s.stopHead r 0x10).raiseCtx 0x10 (s.owner r) (s.cmdUnit r) (s.ringHead r % 2 ^ 64 + r * 2 ^ 64 + reason * 2 ^ 80)

/-- A wait is satisfied (R189). -/
def State.waitMet (s : State) (w : WaitPosed) : Bool := decide (w.thresh.toNat ≤ s.glumeValue w.pid.toNat)

/-- The WAITER code of a command ring (R207). -/
def ringWaiter (r : Nat) : Nat := 0x4000 + r

/-- Pose wait k of the head (R189, R196): none when unused or satisfied at once; a failing translation raises its class,
with which the command is faulted. -/
def State.poseWait (s : State) (r : Nat) (w : Nat × Nat) : State × Except Nat (Option WaitPosed) :=
  if w.2 = 0 then (s, .ok none)
  else
    match s.glumeXlat (s.home r) (s.owner r) w.1 with
    | (s1, .bad cls pid) =>
      (s1.raiseGlume cls (s.owner r) pid (glumeDetail w.1 pid (ringWaiter r) 0 w.2), .error cls)
    | (s1, .ok pid) =>
      let p : WaitPosed := ⟨BitVec.ofNat 16 w.1, BitVec.ofNat 16 pid, BitVec.ofNat 64 w.2, s1.now⟩
      (s1, .ok (if s1.waitMet p then none else some p))

/-- A command of another context than the PF's that names a Tiller whose GANG is not 00: it waits (R100). -/
def State.gangHeld (s : State) (r : Nat) (cmd : BitVec 512) : Bool :=
  s.owner r != 0 && cmdKind cmd == 1 && (cmdTillers cmd).any (fun t => s.gang t != 0)

/-- The head is otherwise ready: its waits are satisfied, no gang holds it and, when ORDERED, every earlier command has completed
(R100, R283). -/
def State.otherwiseReady (s : State) (r : Nat) : Bool :=
  let x := s.ring r
  s.ringLive r && !(s.headCancelled r) && !x.waits.isEmpty && x.waits.all (·.isNone) &&
    (match s.headCmd r with
     | some cmd => (!(cmdOrdered cmd) || x.running.isEmpty) && !(s.gangHeld r cmd)
     | none => false)

/-- Note the time at which the head became otherwise ready. -/
def State.markReady (s : State) (r : Nat) : State :=
  let x := s.ring r
  if x.readyAt.isNone && s.otherwiseReady r then s.setRing r { x with readyAt := some s.now } else s

/-- A fetched command that has become the head poses its waits. -/
def State.settleHead (s : State) (r : Nat) : State :=
  if s.ringLive r && !(s.headCancelled r) && (s.ring r).waits.isEmpty then
    match s.headCmd r with
    | none => s
    | some cmd =>
      if (cmdRefused cmd (s.owner r)).isSome then s
      else
        let p0 := s.poseWait r (cmdWait cmd 0)
        match p0.2 with
        | .error cls => p0.1.headFault r cls
        | .ok w0 =>
          let p1 := p0.1.poseWait r (cmdWait cmd 1)
          match p1.2 with
          | .error cls => p1.1.headFault r cls
          | .ok w1 => (p1.1.setRing r { p1.1.ring r with waits := [w0, w1] }).markReady r
  else s

/-- Look at the head's waits again. -/
def State.evalHead (s : State) (r : Nat) : State :=
  let x := s.ring r
  (s.setRing r { x with waits := x.waits.map (fun w => w.bind (fun p => if s.waitMet p then none else some p)) }).markReady r

/-- The completion signals of a command, in order (R285). -/
def State.sendSigs (s : State) (r : Nat) (cmd : BitVec 512) : State :=
  [0, 1].foldl (fun s k => s.sendSignal (s.home r) (s.owner r) (cmdSig cmd k).1 (cmdSig cmd k).2) s

/-! ### Starting (R283, R284) -/

/-- The head has started: it joins the running commands with its Tillers and its transfer operations, and the next
command becomes the head. -/
def State.startHead (s : State) (r : Nat) (cmd : BitVec 512) (ts : List Nat) (ops : Nat) : State :=
  let p := s.ringHead r
  let x := s.ring r
  let base := if s.flag .OBS_CMDREC_EN 0 then s.sumCounts ts else []
  let c := s.owner r
  let s1 := s.setRing r { x with running := x.running ++
    [{ pos := p, cmd := cmd, start := s.now, tillers := ts.map (fun t => (t, 0)), ops := ops, fault := none,
       base := base }] }
  let last := [cmdTag cmd, cmdLayer cmd, cmdOperator cmd, c]
  let s2 : State := { s1 with obs := { s1.obs with
    lastCmd := (cmdSheafList cmd).foldl (fun t k => Tbl.put t k last) s1.obs.lastCmd } }
  let s3 := s2.trace 1 c (s.cmdUnit r) r p (cmdTag cmd + cmdLayer cmd * 2 ^ 32 + cmdOperator cmd * 2 ^ 48)
  (s3.dropHead r).settleHead r

/-- A command that names an absent Tiller or a fenced Sheaf (R453, R454). -/
def State.namesLost (s : State) (cmd : BitVec 512) : Bool :=
  (cmdSheafList cmd).any (fun k => s.flag .MGT_DET_DUMAP_HI_FENCED k) ||
    (cmdKind cmd == 1 && (cmdTillers cmd).any (fun t => Tbl.get false s.absent t))

/-- Two commands need the same Tiller. -/
def cmdsClash (a b : BitVec 512) : Bool :=
  cmdKind a == 1 && cmdKind b == 1 && (cmdTillers a).any (fun t => (cmdTillers b).contains t)

/-- No other ring's ready head needs one of the same Tillers with an earlier time, or the same time and a lower ring
number (R283). -/
def State.myTurn (s : State) (r : Nat) (cmd : BitVec 512) : Bool :=
  let mine := (s.ring r).readyAt.getD 0
  s.rings.all (fun p =>
    p.1 == r || !(s.otherwiseReady p.1) ||
      (match s.headCmd p.1 with
       | some other =>
         !(cmdsClash cmd other) ||
           (let t := p.2.readyAt.getD 0
            decide (mine < t) || (mine == t && decide (r < p.1)))
       | none => true))

/-- The frame of NOP, RUN and XFER: the head is of this kind, its waits are posed, a refused or impossible command stops
the ring, and a ready one whose Tillers are free acts. -/
def State.tryStart (s : State) (r : Nat) (mine : Nat → Bool) (act : State → BitVec 512 → State) : State :=
  let s1 := s.settleHead r
  if s1.ringLive r && !(s1.headCancelled r) then
    match s1.headCmd r with
    | none => s1
    | some cmd =>
      if !(mine (cmdKind cmd)) then s
      else
        match cmdRefused cmd (s1.owner r) with
        | some reason => s1.refuseHead r reason
        | none =>
          let s2 := s1.evalHead r
          if !(s2.otherwiseReady r) then s2
          else if s2.namesLost cmd then
            (s2.raiseCtx 0x9A (s2.owner r) (s2.cmdUnit r) (s2.ringHead r)).headFault r 0x9A
          else if s2.myTurn r cmd then act s2 cmd
          else s2
  else s1

/-! ### Access to a ring's registers (R272, R275, R309) -/

/-- The rings of a context whose number is below r. -/
def State.ringRank (s : State) (r : Nat) : Nat := ((List.range r).filter (fun k => s.owner k == s.owner r)).length

/-- An access to a ring slot: through PF BAR0, or in the owner's window, which shows its first 64 rings. -/
def State.ringAccess (s : State) (o : Origin) (r : Nat) (act : State → State) : State :=
  match o with
  | .vf c => if s.window c.toNat && s.owner r == c.toNat && decide (s.ringRank r < 64) then act s else s
  | _ => s.access o .CTX_RING_BASE act

end Sys2Proof.Machine
end

