-- ==== Sys2Proof/Machine/Glumes.lean ====
section
/-! DEFINITION. Glumes (R187-R207, R583): signals at their banks, waits that are satisfied or time out, administration,
translation invalidation, and the host's signals, reads and notifies (R228-R230). -/

namespace Sys2Proof.Machine

/-! ### Signals (R188, R190, R192, R193) -/

/-- The last value of a Glume. -/
def glumeMax : Nat := 2 ^ 64 - 1

/-- Add the values that reach an owned Glume in one cycle, `total` in all, x the first of them: beyond the last value it
holds the last value, and one record of class 0x23 carries the sum of the values, saturating. -/
def State.glumeAdd (s : State) (pid : Nat) (x : Sig) (total : Nat) : State :=
  let g := s.glume pid
  let sum := g.value.toNat + total
  let s1 := s.setGlume pid { g with value := BitVec.ofNat 64 (min sum glumeMax) }
  if glumeMax < sum then
    s1.raiseCtx 0x23 x.ctx.toNat (bankUnit pid) (glumeDetail x.vid.toNat pid 0 0 (min total glumeMax))
  else s1

/-- What a bank makes of a signal: bank 15 refuses it with class 0x2A, a frozen Glume drops it (0x26), a free or foreign
one refuses it with class 0x21 (R192, R193). -/
def State.bankCheck (s : State) (x : Sig) : GRes :=
  if x.pid.toNat / 4096 = 15 then .bad 0x2A x.pid.toNat else s.glumeCheck x.ctx.toNat x.pid.toNat

/-- A signal that its bank does not apply. -/
def State.turnAway (s : State) (x : Sig) : State :=
  let pid := x.pid.toNat
  match s.bankCheck x with
  | .ok _ => s
  | .bad 0x26 _ => s.dropSignal
  | .bad cls _ => s.raiseCtx cls x.ctx.toNat (bankUnit pid) (glumeDetail x.vid.toNat pid 0 0 x.value.toNat)

/-- The signals of one cycle at their bank: those it turns away, then the sum of the others (R188, R190). -/
def State.applySigs (s : State) (xs : List Sig) : State :=
  let s1 := xs.foldl (fun s x => s.turnAway x) s
  match xs.filter (fun x => s.bankCheck x == .ok x.pid.toNat) with
  | [] => s1
  | x :: ok => s1.glumeAdd x.pid.toNat x (((x :: ok).map (fun y => y.value.toNat)).sum)

/-- The n oldest signals to a Glume that may be applied, and the signals that stay. A host signal waits for every earlier
host signal to another Glume (R228); `held` says that one of those stays. -/
def takeSigs (pid : BitVec 16) : Nat → Bool → List Sig → List Sig × List Sig
  | _, _, [] => ([], [])
  | n, held, x :: xs =>
    if x.pid = pid ∧ 0 < n ∧ !(x.host && held) then
      let r := takeSigs pid (n - 1) held xs
      (x :: r.1, r.2)
    else
      let r := takeSigs pid n (held || x.host) xs
      (r.1, x :: r.2)

/-- One cycle of a Glume's bank, in which n signals reach the Glume: the oldest n of those on their way to it
(notes/assumptions/68.md). -/
def State.doSignalApply (s : State) (pid : BitVec 16) (n : Nat) : State :=
  let r := takeSigs pid n false s.signals
  ({ s with signals := r.2 } : State).applySigs r.1

def execGlumeSignalApply (pid : BitVec 16) (n : BitVec 16) (s : State) : Host.Outcome State Fault Refusal :=
  .next (s.doSignalApply pid n.toNat)

/-! ### Host notify (R198, R230) -/

/-- The notify of a context fires: its Glume vector is sent and ARMED clears. -/
def State.fireNotify (s : State) (c : Nat) : State :=
  let x := s.ctx c
  ((s.setCtx c { x with notify := none }).setFlag .GLM_CTX_NOTIFY_ARMED c false).setVector c 2

/-- A notify whose Glume has reached the threshold fires. -/
def State.doNotifyFire (s : State) (c : Nat) : State :=
  match (s.ctx c).notify with
  | some w => if s.waitMet w then s.fireNotify c else s
  | none => s

def execNotifyFire (c : BitVec 12) (s : State) : Host.Outcome State Fault Refusal := .next (s.doNotifyFire c.toNat)

/-- ARMED clears without firing. -/
def State.disarm (s : State) (c : Nat) : State :=
  (s.setCtx c { s.ctx c with notify := none }).setFlag .GLM_CTX_NOTIFY_ARMED c false

/-- Arming refused by a row of R196: one record of class 0x24 with the row's class. -/
def State.notifyRefused (s : State) (c vid cls pid thresh : Nat) : State :=
  (s.disarm c).raiseGlume 0x24 c pid (glumeDetail vid pid (Waiter.code (.notify 0)) cls thresh)

/-- Setting ARMED poses a wait on VID with threshold THRESH (R230). -/
def State.doArm (s : State) (c vid : Nat) : State :=
  let th := s.fld .GLM_CTX_NOTIFY_THRESH_THRESH c
  let s0 := (s.setFld .GLM_CTX_NOTIFY_VID c vid).setFlag .GLM_CTX_NOTIFY_ARMED c true
  if th = 0 then s0.fireNotify c
  else
    match s0.glumeXlat rachisB c vid with
    | (s1, .bad cls pid) => s1.notifyRefused c vid cls pid th
    | (s1, .ok pid) =>
      let w : WaitPosed := ⟨BitVec.ofNat 16 vid, BitVec.ofNat 16 pid, BitVec.ofNat 64 th, s1.now⟩
      if s1.waitMet w then s1.fireNotify c else s1.setCtx c { s1.ctx c with notify := some w }

def execNotifyArm (c : BitVec 12) (vid : BitVec 16) (s : State) : Host.Outcome State Fault Refusal :=
  .next (if s.window c.toNat then s.doArm c.toNat vid.toNat else s)

/-! ### Waits satisfied, timed out, failed (R198-R200, R205, R583) -/

/-- A Tiller's WAIT whose Glume has reached its threshold ends, and dispatch goes on. -/
def State.tillerSatisfied (s : State) (t : Nat) : State :=
  match (s.til t).wait with
  | some w =>
    if s.ready && s.waitMet w then s.wakeTiller t w.vid.toNat w.thresh.toNat (s.glumeValue w.pid.toNat) else s
  | none => s

/-- A barrier slot's arrival is taken by its own command (R212). -/
def State.doSatisfied (s : State) : Waiter → State
  | .tiller sh n => s.tillerSatisfied (tix sh n)
  | .command r => s.evalHead r.toNat
  | .notify c => s.doNotifyFire c.toNat
  | .barrier _ => s

/-- The time of R205 has passed for a wait of context c. -/
def State.waitOver (s : State) (c : Nat) (w : WaitPosed) : Bool :=
  let m := s.fld .GLM_CTX_CFG_TMULT c
  m != 0 && decide (m * s.fld .GLM_TIMEOUT_BASE_UNIT_NS 0 ≤ s.now - w.since) && !(s.waitMet w)

/-- The detail of a wait that times out: the deficit saturates. -/
def State.waitDetail (s : State) (w : WaitPosed) (waiter cls : Nat) : Nat :=
  let d := if cls = 0x22 then min (w.thresh.toNat - s.glumeValue w.pid.toNat) 0xFFFF else 0
  glumeDetail w.vid.toNat w.pid.toNat waiter d w.thresh.toNat

/-- A Tiller's wait fails with a class: a program fault. -/
def State.tillerWaitFails (s : State) (t : Nat) (w : WaitPosed) (cls : Nat) : State :=
  s.progFault t cls (s.pc t) (s.waitDetail w (t / 64 * 1024 + t % 64) cls)

/-- A wait of a ring's head fails with a class: its record, and the command is faulted. -/
def State.headWaitFails (s : State) (r : Nat) (w : WaitPosed) (cls : Nat) : State :=
  (s.raiseCtx cls (s.owner r) (bankUnit w.pid.toNat) (s.waitDetail w (ringWaiter r) cls)).headFault r cls

def State.tillerTimeout (s : State) (t : Nat) : State :=
  match (s.til t).wait with
  | some w => if s.waitOver (s.tctx t) w then s.tillerWaitFails t w 0x22 else s
  | none => s

def State.headTimeout (s : State) (r : Nat) : State :=
  match ((s.ring r).waits.filterMap id).find? (fun w => s.waitOver (s.owner r) w) with
  | some w => s.headWaitFails r w 0x22
  | none => s

/-- A host notify never times out, and a barrier arrival is no Glume wait (R205). -/
def State.doTimeout (s : State) : Waiter → State
  | .tiller sh n => s.tillerTimeout (tix sh n)
  | .command r => s.headTimeout r.toNat
  | .notify _ => s
  | .barrier _ => s

def execWaitSatisfied (w : Waiter) (s : State) : Host.Outcome State Fault Refusal := .next (s.doSatisfied w)

def execWaitTimeout (w : Waiter) (s : State) : Host.Outcome State Fault Refusal := .next (s.doTimeout w)

/-- A pending wait of Tiller t on a Glume fails with a class; one that the Glume has already met ends satisfied (R190). -/
def State.failTillerOn (s : State) (pid cls t : Nat) : State :=
  match (s.til t).wait with
  | some w =>
    if w.pid.toNat ≠ pid then s else if s.waitMet w then s.tillerSatisfied t else s.tillerWaitFails t w cls
  | none => s

/-- A pending wait of ring r's head on a Glume fails with a class; one that the Glume has already met ends satisfied. -/
def State.failHeadOn (s : State) (pid cls r : Nat) : State :=
  match ((s.ring r).waits.filterMap id).find? (fun w => w.pid.toNat == pid && !(s.waitMet w)) with
  | some w => s.headWaitFails r w cls
  | none => if ((s.ring r).waits.filterMap id).any (fun w => w.pid.toNat == pid) then s.evalHead r else s

/-- The notify of context c on a Glume clears without firing, with a record of the class (R230, R583); one that the Glume
has already met fires. -/
def State.failNotifyOn (s : State) (pid cls c : Nat) : State :=
  match (s.ctx c).notify with
  | some w =>
    if w.pid.toNat ≠ pid then s
    else if s.waitMet w then s.fireNotify c
    else (s.disarm c).raiseCtx cls c (bankUnit pid) (glumeDetail w.vid.toNat pid 0x8000 0 w.thresh.toNat)
  | none => s

/-- Every wait that is pending on a Glume fails with a class (R454, R583). -/
def State.failWaits (s : State) (pid cls : Nat) : State :=
  let s1 := s.tillers.foldl (fun s p => s.failTillerOn pid cls p.1) s
  let s2 := s1.rings.foldl (fun s p => s.failHeadOn pid cls p.1) s1
  s2.contexts.foldl (fun s p => s.failNotifyOn pid cls p.1) s2

/-! ### Administration (R194, R219) -/

/-- An operation that is refused sets ADMIN_ERR with its code. -/
def State.adminRefuse (s : State) (code : Nat) : State :=
  (s.setFlag .GLM_STATUS_ADMIN_ERR 0 true).setFld .GLM_STATUS_ADMIN_CODE 0 code

/-- A write to GLM_ADMIN: refused with code 4 while another operation is in progress. -/
def State.adminOp (s : State) (o : Origin) (op ctx pid : Nat) (act : State → State) : State :=
  s.regCmd o .GLM_ADMIN 0 (op * 2 ^ 60 + ctx * 2 ^ 32 + pid) (fun s =>
    let s1 := s.latch .GLM_ADMIN 0 pid
    if s1.adminPid.isSome then s1.adminRefuse 4 else act s1)

/-- Write all twelve copies of a bank-15 Glume (R192, R194). -/
def State.setCopies (s : State) (pid v : Nat) : State :=
  if pid / 4096 = 15 then { s with bank15 := Tbl.set 0 s.bank15 (pid % 4096) (BitVec.ofNat 64 v) } else s

/-- Start an operation; it completes when its busy time is over. -/
def State.adminBegin (s : State) (op pid : Nat) : State := { s with adminPid := some (op, BitVec.ofNat 16 pid) }

/-- ALLOCATE: FREE becomes OWNED by CTX with the value of GLM_ADMIN_VALUE. -/
def State.doAllocate (s : State) (pid ctx : Nat) : State :=
  if (s.glume pid).st = .free then
    let v := s.fld .GLM_ADMIN_VALUE_VALUE 0
    ((s.setGlume pid ⟨.owned, BitVec.ofNat 12 ctx, BitVec.ofNat 64 v⟩).setCopies pid v).adminBegin 1 pid
  else s.adminRefuse 1

/-- FREEZE: OWNED becomes FROZEN, and its pending waits fail at once (R583). -/
def State.doFreeze (s : State) (pid : Nat) : State :=
  if (s.glume pid).st = .owned then
    ((s.setGlume pid { s.glume pid with st := .frozen }).failWaits pid 0x26).adminBegin 2 pid
  else s.adminRefuse 2

/-- FREE: FROZEN becomes FREE with value 0. -/
def State.doFree (s : State) (pid : Nat) : State :=
  if (s.glume pid).st = .frozen then ((s.setGlume pid Glume.reset).setCopies pid 0).adminBegin 3 pid
  else s.adminRefuse 2

/-- READ: GLM_ADMIN_VALUE takes the value. -/
def State.doRead (s : State) (pid : Nat) : State :=
  (s.setFld .GLM_ADMIN_VALUE_VALUE 0 (s.glumeValue pid)).adminBegin 4 pid

def execGlumeAllocate (org : Origin) (pid : BitVec 16) (ctx : BitVec 12) (s : State) : Host.Outcome State Fault Refusal :=
  .next (s.adminOp org 1 ctx.toNat pid.toNat (fun s => s.doAllocate pid.toNat ctx.toNat))

def execGlumeFreeze (org : Origin) (pid : BitVec 16) (s : State) : Host.Outcome State Fault Refusal :=
  .next (s.adminOp org 2 0 pid.toNat (fun s => s.doFreeze pid.toNat))

def execGlumeFree (org : Origin) (pid : BitVec 16) (s : State) : Host.Outcome State Fault Refusal :=
  .next (s.adminOp org 3 0 pid.toNat (fun s => s.doFree pid.toNat))

def execGlumeRead (org : Origin) (pid : BitVec 16) (s : State) : Host.Outcome State Fault Refusal :=
  .next (s.adminOp org 4 0 pid.toNat (fun s => s.doRead pid.toNat))

/-- The operation in progress is over: ADMIN_BUSY clears. -/
def State.doAdminComplete (s : State) : State := { s with adminPid := none }

def execGlumeAdminComplete (s : State) : Host.Outcome State Fault Refusal := .next s.doAdminComplete

/-! ### Translation invalidation (R197, R221) -/

/-- Remove the named entries from every translation cache. -/
def State.dropXlat (s : State) (c : BitVec 12) (all : Bool) (vid : BitVec 16) : State :=
  { s with gcaches := s.gcaches.map (fun p => (p.1, p.2.filter (fun e => !(e.ctx == c && (all || e.vid == vid))))) }

/-- A write while an invalidation is in progress finishes that one first. -/
def State.doXlatInval (s : State) (c : BitVec 12) (all : Bool) (vid : BitVec 16) : State :=
  match s.glmInval with
  | some x => { s.dropXlat x.1 x.2.1 x.2.2 with glmInval := some (c, all, vid) }
  | none => { s with glmInval := some (c, all, vid) }

def execXlatInval (org : Origin) (ctx : BitVec 12) (all : Bool) (vid : BitVec 16) (s : State) :
    Host.Outcome State Fault Refusal :=
  .next (s.access org .GLM_XLAT_INVAL (fun s =>
    (s.latch .GLM_XLAT_INVAL 0 ((if all then 65536 else 0) + vid.toNat)).doXlatInval ctx all vid))

/-- The invalidation has reached every cache, and INVAL_BUSY clears. -/
def State.doXlatInvalComplete (s : State) : State :=
  match s.glmInval with
  | some x => { s.dropXlat x.1 x.2.1 x.2.2 with glmInval := none }
  | none => s

def execXlatInvalComplete (s : State) : Host.Outcome State Fault Refusal := .next s.doXlatInvalComplete

/-! ### The host's window (R228, R229) -/

def execHostSignal (c : BitVec 12) (vid : BitVec 16) (s : State) : Host.Outcome State Fault Refusal :=
  .next (if s.window c.toNat then
      s.sendSignalBy true rachisB c.toNat vid.toNat (s.fld .GLM_CTX_SIG_VALUE_VALUE c.toNat)
    else s)

/-- A read gives a value. -/
def State.giveValue (s : State) (c v : Nat) : State :=
  ({ s with readData := BitVec.ofNat 64 v } : State).setFld .GLM_CTX_VALUE_VALUE c v

/-- A read of GLM_CTX_VALUE (R229): the value of an owned or frozen Glume of the context; 0 and a class otherwise. It is
neither a signal nor a wait, so a fenced Sheaf's bank does not refuse it (R454). -/
def State.doValueRead (s : State) (c : Nat) : State :=
  let vid := s.fld .GLM_CTX_READ_VID c
  let refused := fun (s : State) (cls pid : Nat) =>
    (s.raiseGlume cls c pid (glumeDetail vid pid (Waiter.code (.notify 0)) 0 0)).giveValue c 0
  match s.glumePid rachisB c vid with
  | (s1, .bad cls pid) => refused s1 cls pid
  | (s1, .ok pid) =>
    match s1.glumeHeld c pid with
    | .bad 0x21 _ => refused s1 0x21 pid
    | _ => s1.giveValue c (s1.glumeValue pid)

/-- A context's window is read while the context is enabled, in reset too (R229, R274, R298); otherwise it reads zero. -/
def execGlumeValueRead (c : BitVec 12) (s : State) : Host.Outcome State Fault Refusal :=
  .next (if s.windowReads c.toNat then s.doValueRead c.toNat else { s with readData := 0 })

end Sys2Proof.Machine
end

