-- ==== Sys2Proof/Machine/Streams.lean ====
section
/-! DEFINITION. The slot streams of the optical ports (R321, R329-R335, R361-R365): packet headers and frames, credits, the
frames that wait for their slots, the slots and words of a link frame, and the streams' receiving side. -/

namespace Sys2Proof.Machine

/-! ### Ports -/

def State.port (s : State) (p : Nat) : Port := Tbl.get Port.reset s.ports p

def State.setPort (s : State) (p : Nat) (x : Port) : State := { s with ports := Tbl.put s.ports p x }

def State.portState (s : State) (p : Nat) : Nat := s.fld .LNK_STATUS_STATE p

/-- The main domain runs with its link engines: starting, ready or in hold (R510). -/
def State.linksRun (s : State) : Bool := decide (1 ≤ s.fld .PWR_STATUS_STATE 0) && decide (s.fld .PWR_STATUS_STATE 0 ≤ 3)

/-- A port that is ACTIVE carries packets unless it is fenced (R366, R379). -/
def State.portOpen (s : State) (p : Nat) : Bool :=
  s.linksRun && s.portState p == 5 && !(bitAt (s.fld .FAB_CTRL_FENCE 0) p)

def State.selfNode (s : State) : Nat := s.fld .FAB_NODE_NODE_ID 0

/-! ### Packet headers (R361-R363) -/

/-- A packet type that belongs to a flow. -/
def flowType (t : Nat) : Bool := decide (t ≤ 4) || (decide (10 ≤ t) && decide (t ≤ 13))

/-- The virtual channel of a type (R362). -/
def typeVc (t : Nat) : Nat := if t = 3 then 1 else if t = 2 then 2 else if t ≤ 1 ∨ 10 ≤ t then 3 else 0

/-- The fields of a 32-byte header, given as a number, and a payload. -/
def pktOf (h : Nat) (payload : List Byte) : Pkt :=
  { type := bitsOf h 31 28, lane := bitAt h 27, vc := bitsOf h 26 24, dst := BitVec.ofNat 24 h
    part := BitVec.ofNat 8 (bitsOf h 63 56), src := BitVec.ofNat 24 (bitsOf h 55 32)
    seq := BitVec.ofNat 32 (bitsOf h 95 64), eop := bitAt h 125, poison := bitAt h 124
    sflow := BitVec.ofNat 14 (bitsOf h 123 110), dflow := BitVec.ofNat 14 (bitsOf h 109 96)
    epoch := BitVec.ofNat 16 (bitsOf h 159 144), ctx := BitVec.ofNat 12 (bitsOf h 139 128)
    head := BitVec.ofNat 8 (bitsOf h 183 176), len := BitVec.ofNat 16 (bitsOf h 175 160)
    addr := BitVec.ofNat 64 (bitsOf h 255 192), payload := payload, since := 0 }

/-- HCRC of a header: CRC-8 over its 32 bytes with HEAD and HCRC taken as zero. -/
def headerCrc (h : Nat) : Nat :=
  crc8 (((leBytes 32 h).take 22) ++ [0, 0] ++ ((leBytes 32 h).drop 24))

/-- The header of a packet as a number, with its HCRC (R361). -/
def Pkt.header (p : Pkt) : Nat :=
  let flag := fun (b : Bool) (k : Nat) => if b then 2 ^ k else 0
  let h := p.dst.toNat + p.vc % 8 * 2 ^ 24 + flag p.lane 27 + p.type % 16 * 2 ^ 28 + p.src.toNat * 2 ^ 32 +
    p.part.toNat * 2 ^ 56 + p.seq.toNat * 2 ^ 64 + p.dflow.toNat * 2 ^ 96 + p.sflow.toNat * 2 ^ 110 + flag p.poison 124 +
    flag p.eop 125 + p.ctx.toNat * 2 ^ 128 + p.epoch.toNat * 2 ^ 144 + p.len.toNat * 2 ^ 160 + p.head.toNat * 2 ^ 176 +
    p.addr.toNat * 2 ^ 192
  h + headerCrc h * 2 ^ 184

/-- HEAD's entry for an axis: 0 none, 1 +, 2 -. -/
def Pkt.headAt (p : Pkt) (a : Nat) : Nat := bitsOf p.head.toNat (2 * a + 1) (2 * a)

/-- A header that R363 refuses: its HCRC, a reserved TYPE, or a reserved field or value. -/
def headerBad (h : Nat) : Bool :=
  let p := pktOf h []
  bitsOf h 191 184 != headerCrc h || decide (14 ≤ p.type) || bitsOf h 127 126 != 0 || bitsOf h 143 140 != 0 ||
    decide (5 ≤ p.vc) || (List.range 4).any (fun a => p.headAt a == 3) ||
    (p.type != 4 && decide (4096 < p.len.toNat))

/-- The buffer of a virtual channel and lane: 0-6 (R364). -/
def bufIndex (vc : Nat) (lane : Bool) : Nat :=
  match vc with
  | 0 => if lane then 1 else 0
  | 4 => if lane then 6 else 5
  | v => v + 1

/-- Bytes in 32-byte units, the last one padded with zeros (R329, R361). -/
def unitsOf (b : List Byte) : List (BitVec 256) :=
  (List.range ((b.length + 31) / 32)).map (fun k => BitVec.ofNat 256 (leNat ((b.drop (32 * k)).take 32)))

/-- The frame of a packet: its header and its padded payload (R329, R361). -/
def Pkt.frame (p : Pkt) : List (BitVec 256) := BitVec.ofNat 256 p.header :: unitsOf p.payload

/-- The payload units that a header announces; LEN of a SIGNAL is its VID (R361). -/
def payloadUnits (p : Pkt) : Nat := if p.type = 4 then 0 else (p.len.toNat + 31) / 32

/-! ### Credits (R364, R365) -/

/-- The seven buffers of a port: VC0 lane 0 and 1, VC1, VC2, VC3, VC4 lane 0 and 1, in units of 32 B (R364). -/
def bufUnits (b : Nat) : Nat := [256, 256, 32768, 32768, 49152, 8192, 8192].getD b 0

/-- Units of 32 B that a packet takes: its header and its payload (R364). -/
def Pkt.units (p : Pkt) : Nat := 1 + (p.payload.length + 31) / 32

/-- Units freed at the receiver, and units freed that the peer has been told of. -/
def Port.freedUnits (x : Port) (b : Nat) : Nat := Tbl.get 0 x.freed b
def Port.toldUnits (x : Port) (b : Nat) : Nat := Tbl.get 0 x.freed (8 + b)

/-- Units of a buffer at the far end of a port that are free. -/
def State.creditFree (s : State) (p b : Nat) : Nat :=
  let x := s.port p
  bufUnits b - (Tbl.get 0 x.credit (8 + b) + 2 ^ 32 - Tbl.get 0 x.credit b) % 2 ^ 32

/-! ### The sending side (R329, R330, R333-R335) -/

/-- Slots that are not acknowledged. -/
def Port.unacked (x : Port) : Nat := x.txD.sent.length + x.txC.sent.length

/-- Slots of the replay buffer that are taken or spoken for by frames that wait. -/
def Port.backlog (x : Port) : Nat := x.unacked + x.ctlQ.length + (x.dataQ.length + 7) / 8

/-- Slots of a stream that a packet takes at most: a control slot for VC0, data slots otherwise. -/
def slotsOf (b units : Nat) : Nat := if b < 2 then 1 else (units + 7) / 8

/-- A port takes a packet of n units for a buffer: open, credit free, room in the replay buffer, and its data stream not paused
(DESIGN CHOICE: a packet takes its place in the replay buffer when it is sent to the port: notes/assumptions/38.md). -/
def State.canSend (s : State) (p b n : Nat) : Bool :=
  s.portOpen p && decide (n ≤ s.creditFree p b) && decide ((s.port p).backlog + slotsOf b n ≤ 16384) &&
    (decide (b < 2) || !(s.flag .LNK_STATUS_PAUSED p))

/-- The port after a packet for buffer b: its credits are taken, and its frame waits for its slots. -/
def Port.took (x : Port) (b now : Nat) (p : Pkt) : Port :=
  let x1 := { x with credit := Tbl.put x.credit (8 + b) ((Tbl.get 0 x.credit (8 + b) + p.units) % 2 ^ 32) }
  if b < 2 then { x1 with ctlQ := x1.ctlQ ++ [(now, p.frame)] } else { x1 with dataQ := x1.dataQ ++ p.frame }

/-- Send a packet on a port in a buffer of the far end. -/
def State.stage (s : State) (out b : Nat) (p : Pkt) : State :=
  (s.setPort out ((s.port out).took b s.now p)).count (8 + out) (32 * p.units)

/-- A stream sends a new slot. -/
def TxStream.push (x : TxStream) (u : List (Option (BitVec 256))) : TxStream :=
  { x with next := (x.next + 1) % 2 ^ 48, sent := x.sent ++ [⟨x.next, u, 0⟩] }

/-- Slots up to n are acknowledged, when n is a slot that waits for it. -/
def TxStream.acked (x : TxStream) (n : Nat) : TxStream :=
  if x.sent.any (fun e => e.seq == n) then
    let rest := (x.sent.dropWhile (fun e => e.seq != n)).drop 1
    { x with sent := rest, resend := x.resend.filter (fun k => rest.any (fun e => e.seq == k)) }
  else x

/-- At most n of the slots that are being resent go out. -/
def TxStream.again (x : TxStream) (n : Nat) : List Slot × TxStream :=
  let l := x.resend.take n
  (x.sent.filter (fun e => l.contains e.seq),
    { x with resend := x.resend.drop n
             sent := x.sent.map (fun e => if l.contains e.seq then { e with tries := e.tries + 1 } else e) })

/-- The numbers from n on, of the slots not acknowledged. -/
def TxStream.from' (x : TxStream) (n : Nat) : List Nat := (x.sent.dropWhile (fun e => e.seq != n)).map (·.seq)

/-- The units of a slot that begins with the given ones. -/
def padSlot (u : List (BitVec 256)) : List (Option (BitVec 256)) := u.map some ++ List.replicate (8 - u.length) none

/-- The control frames that one slot of n units takes, each whole, and those left (R329). -/
def packSlot : Nat → List (Nat × List (BitVec 256)) → List (BitVec 256) × List (Nat × List (BitVec 256))
  | _, [] => ([], [])
  | n, (t, f) :: q =>
    if f.length ≤ n then
      let r := packSlot (n - f.length) q
      (f ++ r.1, r.2)
    else ([], (t, f) :: q)

/-- At most n new control slots, each begun by a frame that has waited at least `wait` at MTIME now. -/
def Port.newControl (now wait : Nat) : Nat → Port → List Slot × Port
  | 0, x => ([], x)
  | n + 1, x =>
    let r := packSlot 8 x.ctlQ
    if r.1.isEmpty || decide (16384 ≤ x.unacked) || !(x.ctlQ.head?.any (fun f => decide (f.1 + wait ≤ now))) then ([], x)
    else
      let y := newControl now wait n { x with ctlQ := r.2, txC := x.txC.push (padSlot r.1) }
      (⟨x.txC.next, padSlot r.1, 0⟩ :: y.1, y.2)

/-- At most n new data slots. -/
def Port.newData : Nat → Port → List Slot × Port
  | 0, x => ([], x)
  | n + 1, x =>
    if x.dataQ.isEmpty || decide (16384 ≤ x.unacked) then ([], x)
    else
      let u := padSlot (x.dataQ.take 8)
      let y := newData n { x with dataQ := x.dataQ.drop 8, txD := x.txD.push u }
      (⟨x.txD.next, u, 0⟩ :: y.1, y.2)

/-- The slots of a control window of NACT channels: resent ones, then new ones (R321). -/
def Port.window (x : Port) (now nact : Nat) : List Slot × Port :=
  let n := (150 * nact - 32) / 32
  let a := x.txC.again n
  let b := Port.newControl now 0 (n - a.1.length) { x with txC := a.2 }
  (a.1 ++ b.1, b.2)

/-- n slots of the data stream: control slots that take a data slot's place (R330), resent data slots, new ones. -/
def Port.dataSlots (x : Port) (now n : Nat) (wait : Option Nat) : List Slot × Port :=
  let c := match wait with
    | some w => Port.newControl now w n x
    | none => ([], x)
  let a := c.2.txD.again (n - c.1.length)
  let b := Port.newData (n - c.1.length - a.1.length) { c.2 with txD := a.2 }
  (c.1 ++ a.1 ++ b.1, b.2)

/-! ### Words of a frame (R321) -/

/-- The four words of a unit; those of an idle unit are none. -/
def unitWords (u : Option (BitVec 256)) : List (Option Word) :=
  (List.range 4).map (fun k => u.map (fun v => BitVec.ofNat 64 (v.toNat / 2 ^ (64 * k))))

def Slot.words (e : Slot) : List (Option Word) := e.units.flatMap unitWords

/-- The word period of word period q of the data stream. -/
def dataPeriod (q : Nat) : Nat :=
  q + 151 + (if q < 474 then 0 else if q < 1098 then 1 else if q < 1722 then 2 else if q < 2346 then 3 else 4)

/-- The words of a use, dealt to the active channels in ascending order, one word period after another. Idle words are left
out: the spec gives them no contents (DESIGN CHOICE: notes/assumptions/158.md). -/
def deal (period : Nat → Nat) (chs : List Nat) (l : List (Option Word)) : List (Nat × Nat × Word) :=
  l.zipIdx.filterMap (fun e => e.1.map (fun v => (period (e.2 / chs.length), chs.getD (e.2 % chs.length) 0, v)))

/-- The words of an LCF. -/
def lcfWords (b : List Byte) : List (Option Word) := (unitsOf b).flatMap (fun u => unitWords (some u))

/-- The data words of a frame, and the port after it: first the words that the last frame left, then whole slots; the words
beyond the frame's room wait for the next one. -/
def Port.dataWords (x : Port) (now nact : Nat) (wait : Option Nat) : List (Option Word) × Port :=
  let room := 2969 * nact
  let r := x.dataSlots now ((room - x.spill.length + 31) / 32) wait
  let l := x.spill ++ r.1.flatMap Slot.words
  (l.take room, { r.2 with spill := l.drop room })

/-! ### The receiving side (R329, R334) -/

/-- Units received in order wait for the packets that they carry; idle units carry none. -/
def RxStream.take (x : RxStream) (u : List (Option (BitVec 256))) : RxStream :=
  { expect := (x.expect + 1) % 2 ^ 48, nak := false, units := x.units ++ (u.take 8).filterMap id }

/-- The stream whose received units begin with a frame: control or data (DESIGN CHOICE where both do: notes/assumptions/159.md). -/
def Port.holds (x : Port) (f : List (BitVec 256)) : Option Bool :=
  if f.isPrefixOf x.rxC.units then some true else if f.isPrefixOf x.rxD.units then some false else none

/-- The frame at the front of a stream's received units is taken. -/
def Port.takeFrame (x : Port) (control : Bool) (n : Nat) : Port :=
  if control then { x with rxC := { x.rxC with units := x.rxC.units.drop n } }
  else { x with rxD := { x.rxD with units := x.rxD.units.drop n } }

end Sys2Proof.Machine
end

