-- ==== Sys2Proof/Machine/Ports.lean ====
section
/-! DEFINITION. What the optical ports share (R314-R348): channel maps and spares, link-control flits, markers, guest
admission, the pass-through switches, and a port going down with the conversion of its axis (R376, R377). -/

namespace Sys2Proof.Machine

/-! ### Coordinates and axes (R359, R360, R376) -/

/-- The coordinate of a node on axis a. -/
def nodeCoord (node a : Nat) : Nat := bitsOf node (6 * a + 5) (6 * a)

/-- This module's coordinate on axis a. -/
def State.coord (s : State) (a : Nat) : Nat := nodeCoord s.selfNode a

/-- The length of axis a. -/
def State.axisLen (s : State) (a : Nat) : Nat := s.fld .FAB_AXIS_LEN_M1 a + 1

/-- An axis whose length field is 0 is not in use. -/
def State.axisUsed (s : State) (a : Nat) : Bool := s.fld .FAB_AXIS_LEN_M1 a != 0

/-- BREAK and DATELINE: values at or above LEN act as LEN - 1. -/
def State.axisBreak (s : State) (a : Nat) : Nat := min (s.fld .FAB_AXIS_BREAK a) (s.axisLen a - 1)

def State.dateline (s : State) (a : Nat) : Nat := min (s.fld .FAB_AXIS_DATELINE a) (s.axisLen a - 1)

/-- The axis of a port, and whether it is the + port. -/
def portAxis (p : Nat) : Nat := p / 2
def portPlus (p : Nat) : Bool := p % 2 == 0

/-- The other port of a port's axis. -/
def portTwin (p : Nat) : Nat := if p % 2 = 0 then p + 1 else p - 1

/-! ### Ports -/

/-- A link engine. -/
def linkUnit (p : Nat) : UnitRef := ⟨5, p⟩

/-- A port enters a state; a change is traced (R530). -/
def State.setPortState (s : State) (p v : Nat) : State :=
  let old := s.portState p
  let s1 := s.setFld .LNK_STATUS_STATE p v
  if old = v then s1
  else
    s1.trace 9 0 (linkUnit p) p (old + v * 8)
      ((s.port p).mapTx.length + s.fld .LNK_STATUS_NACT_RX p * 2 ^ 8)

/-- The detail of a link record: port, direction (1 receive), and bytes from offset 2 (R350). -/
def linkDetail (p dir rest : Nat) : Nat := p % 256 + dir % 256 * 2 ^ 8 + rest * 2 ^ 16

/-- MIN_CH: 0 acts as 1, and 33-63 act as 32 (R352). -/
def State.minCh (s : State) (p : Nat) : Nat := max 1 (min 32 (s.fld .LNK_CFG_MIN_CH p))

/-! ### Channels and spares (R314-R317, R320, R337) -/

/-- Physical channels of a transmit or receive direction that are never to be assigned: fused map and start map. -/
def State.failedCh (s : State) (p : Nat) (rx : Bool) : Nat :=
  if rx then s.fld .LNK_CHFUSE_RX_FUSED p ||| (s.port p).startRx.toNat
  else s.fld .LNK_CHFUSE_TX_FUSED p ||| (s.port p).startTx.toNat

/-- The first physical channel of logical channel l. -/
def firstCh (l : Nat) : Nat := 5 * (l / 4) + l % 4

/-- A physical channel carries no logical one. -/
def chFree (m : Table Nat) (c : Nat) : Bool := m.all (fun q => q.2 != c)

/-- The spare for a failed channel (R315): λ4 of its own fibre, otherwise the first of F8 in ascending λ. -/
def spareFor (m : Table Nat) (failed c : Nat) : Option Nat :=
  ((5 * (c / 5) + 4) :: [40, 41, 42, 43, 44]).find? (fun d => chFree m d && !(bitAt failed d))

/-- What happened to a channel in a remap: the physical channel, its logical number, and its spare. -/
abbrev Swap := Nat × Nat × Option Nat

/-- Replace every failed channel of a map in ascending logical order. -/
def remap (failed : Nat) : List Nat → Table Nat → Table Nat × List Swap
  | [], m => (m, [])
  | l :: t, m =>
    match m.find? (fun q => q.1 == l) with
    | none => remap failed t m
    | some (_, c) =>
      if bitAt failed c then
        match spareFor m failed c with
        | some d =>
          let r := remap failed t (Tbl.put m l d)
          (r.1, (c, l, some d) :: r.2)
        | none =>
          let r := remap failed t (Tbl.del l m)
          (r.1, (c, l, none) :: r.2)
      else remap failed t m

/-- The logical channels that a lost UCIe module takes from both directions (R320). -/
def moduleHas (lost : BitVec 4) (l : Nat) : Bool := bitAt lost.toNat (l / 8)

/-- The first assignment of a direction (R315): the channels of a lost UCIe module are not in use and take no spare (R320), and
at most `cap` channels are (R318). -/
def assignMap (failed : Nat) (lost : BitVec 4) (cap : Nat) : Table Nat × List Swap :=
  let ls := (List.range 32).filter (fun l => !(moduleHas lost l))
  let r := remap failed ls (ls.map (fun l => (l, firstCh l)))
  (r.1.take cap, r.2)

/-- The most active channels that the guest's rate allows (R318). -/
def State.chCap (s : State) (p : Nat) : Nat := if s.fld .LNK_GUEST_RATE p = 1 then 16 else 32

/-- Report the replaced and the removed channels of a direction (R350). -/
def State.reportSwaps (s : State) (p dir nact : Nat) (l : List Swap) : State :=
  l.foldl (fun s w =>
    match w.2.2 with
    | some d =>
      (s.setFlag .LNK_STATUS_SPARE_USED p true).raiseNo 0x50 (linkUnit p)
        (linkDetail p dir (w.1 + w.2.1 * 2 ^ 8 + d * 2 ^ 16))
    | none =>
      (s.setFlag .LNK_STATUS_CH_REMOVED p true).raiseNo 0x51 (linkUnit p)
        (linkDetail p dir (w.1 + nact * 2 ^ 8))) s

/-! ### Link-control flits and markers (R325, R331, R332, R365) -/

/-- An LCF of the port as it stands; `pause` is the pause time that it asks for. -/
def State.lcfBytes (s : State) (p type : Nat) (urgent : Bool) (pause : Option Nat) : List Byte :=
  let x := s.port p
  let flags := (if urgent then 1 else 0) + (if x.leaving.isSome then 2 else 0) + (if s.strict then 4 else 0) +
    (if x.rxD.nak then 8 else 0) + (if x.rxC.nak then 16 else 0) + (if pause.isSome then 32 else 0)
  let body := leBytes 1 type ++ leBytes 1 flags ++ leBytes 2 (pause.getD 0) ++
    leBytes 4 (s.selfNode + p * 2 ^ 24) ++ leBytes 4 (s.power.boots % 65536) ++ leBytes 4 0 ++
    leBytes 8 (s.failedCh p true) ++ leBytes 8 ((x.rxD.expect + 2 ^ 48 - 1) % 2 ^ 48) ++
    leBytes 8 ((x.rxC.expect + 2 ^ 48 - 1) % 2 ^ 48) ++ leBytes 8 (if x.rxD.nak then x.rxD.expect % 2 ^ 48 else 0) ++
    leBytes 8 (if x.rxC.nak then x.rxC.expect % 2 ^ 48 else 0) ++ List.replicate 72 0 ++
    (List.range 7).flatMap (fun b => leBytes 4 (x.freedUnits b)) ++ List.replicate 96 0
  body ++ leBytes 4 (crc32 body)

/-- Every freed unit has been reported. -/
def State.creditsTold (s : State) (p : Nat) : State :=
  let x := s.port p
  s.setPort p { x with freed := (List.range 7).foldl (fun t b => Tbl.put t (8 + b) (x.freedUnits b)) x.freed }

/-- Send an urgent LCF (R331). The slot whose place it takes waits for the next frame at the latest: that is timing
(notes/assumptions/35.md). -/
def State.urgentLcf (s : State) (p : Nat) (pause : Option Nat) : State :=
  (s.emit (.lcf p true (s.lcfBytes p 1 true pause))).creditsTold p

/-- Send a pause (R340). -/
def State.sendPause (s : State) (p : Nat) : State := s.urgentLcf p (some (s.fld .LNK_CFG_PAUSE_10NS p))

/-- A buffer of a port frees units; an urgent LCF is sent when more than a quarter of the buffer is unreported (R365). -/
def State.freeUnits (s : State) (p b n : Nat) : State :=
  if 8 ≤ p then s
  else
    let x := s.port p
    let x1 := { x with freed := Tbl.put x.freed b (x.freedUnits b + n) }
    let s1 := s.setPort p x1
    if bufUnits b < 4 * (x1.freedUnits b - x1.toldUnits b) then s1.urgentLcf p none else s1

/-- A marker word (R325). -/
def markerWord (lch nact gen port : Nat) : Nat :=
  let w := (0x9E3CA5D1 * 2 ^ 32 + lch % 64 * 2 ^ 26 + nact % 64 * 2 ^ 20 + gen % 16 * 2 ^ 16 + port % 8 * 2 ^ 12)
  w + crc8 (beBytes 7 (w / 256))

/-- A marker word is valid: SYNC and CRC match (R327). -/
def markerValid (w : Nat) : Bool :=
  bitsOf w 63 32 == 0x9E3CA5D1 && bitsOf w 7 0 == crc8 (beBytes 7 (w / 256))

/-- The logical channel that a physical one carries; 63 for none. -/
def Port.lchOf (x : Port) (c : Nat) : Nat := ((x.mapTx.find? (fun q => q.2 == c)).map (·.1)).getD 63

/-- The 45 markers of a frame. -/
def State.markers (s : State) (p : Nat) : List Word :=
  let x := s.port p
  (List.range 45).map (fun c => BitVec.ofNat 64 (markerWord (x.lchOf c) x.mapTx.length (s.fld .LNK_STATUS_GEN_TX p) p))

/-! ### The streams at a start, and hop-by-hop packets (R329, R333, R362) -/

/-- The streams' state at the start of a port: nothing is in the replay buffer, and the first slot of a stream is number 1
(DESIGN CHOICE: notes/assumptions/35.md). -/
def Port.freshStreams (x : Port) : Port :=
  { x with txD := ⟨1, [], []⟩, txC := ⟨1, [], []⟩, rxD := ⟨1, false, []⟩, rxC := ⟨1, false, []⟩, ctlQ := [], dataQ := [],
           spill := [], mapNext := none, seen := 0, gotMask := false, pauseUntil := none, pauseSince := none,
           pauseSaid := false, freed := [], credit := [], mixed := false, leaving := none }

/-- The packet of a LINE or BARRIER token that leaves by a port: for the neighbour there, of this module and its partition
(R361, R362, R379). -/
def State.hopPkt (s : State) (out type addr : Nat) (payload : List Byte) : Pkt :=
  { type := type, lane := false, vc := 0, dst := BitVec.ofNat 24 (s.fld .LNK_PEER_NODE_ID out),
    part := BitVec.ofNat 8 (s.fld .FAB_NODE_PART 0), src := BitVec.ofNat 24 s.selfNode, seq := 0, eop := false,
    poison := false, sflow := 0, dflow := 0, epoch := 0, ctx := 0, head := 0, len := BitVec.ofNat 16 payload.length,
    addr := BitVec.ofNat 64 addr, payload := payload, since := 0 }

/-- Hop-by-hop packets that wait at a port are sent, in their order, while VC0 lane 0 takes them (R364). -/
def State.sendHops (s : State) (out : Nat) : List Pkt → State
  | [] => s.setPort out { s.port out with hopQ := [] }
  | p :: t =>
    if s.canSend out 0 p.units then (s.stage out 0 p).sendHops out t
    else s.setPort out { s.port out with hopQ := p :: t }

/-- A hop-by-hop packet waits for its port and its credit, and goes at once where it has both. -/
def State.sendHop (s : State) (out : Nat) (p : Pkt) : State := s.sendHops out ((s.port out).hopQ ++ [p])

/-! ### Pass-through switches (R346) -/

/-- A port counts as enabled until a disable has sent LEAVING for 10 us (R347). -/
def State.portUsed (s : State) (p : Nat) : Bool := s.flag .LNK_CFG_ENABLE p || (s.port p).leaving.isSome

/-- Both ports of an axis are enabled. -/
def State.axisUsable (s : State) (a : Nat) : Bool := s.portUsed (2 * a) && s.portUsed (2 * a + 1)

/-- The assembly of an axis is driven to the local state when both ports are enabled and both guests admitted. -/
def State.axisLocal (s : State) (a : Nat) : Bool :=
  s.axisUsable a && s.flag .LNK_GUEST_ADMITTED (2 * a) && s.flag .LNK_GUEST_ADMITTED (2 * a + 1)

/-- Drive or release an axis's switch assembly. -/
def State.driveSwitch (s : State) (a : Nat) (on : Bool) : State :=
  if s.power.switches.getLsbD a = on then s
  else
    let v := if on then s.power.switches ||| (1#4 <<< a) else s.power.switches &&& ~~~(1#4 <<< a)
    { s.emit (.switchDrive a on) with power := { s.power with switches := v } }

/-- The switch of a port's axis: driven when both guests are admitted and both ports enabled, released when either port is
disabled. A guest that is lost or refused releases nothing (R346). -/
def State.switchUpdate (s : State) (p : Nat) : State :=
  let a := portAxis p
  if s.axisLocal a then s.driveSwitch a true else if s.axisUsable a then s else s.driveSwitch a false

/-! ### Packets that come in (R363, R365, R379) -/

/-- The units of a packet that leaves its input buffer are free. -/
def State.freePkt (s : State) (port : Nat) (p : Pkt) : State := s.freeUnits port (bufIndex p.vc p.lane) p.units

/-- A packet is dropped and counted. -/
def State.dropPkt (s : State) : State := s.satAdd .FAB_CNT1_DROPS 0 1

/-- A header that is refused: class 0x67. Its units are freed in the buffer that its VC and LANE name, where there is one (DESIGN
CHOICE: notes/assumptions/161.md). -/
def State.badHeader (s : State) (port : Nat) (p : Pkt) : State :=
  ((if p.vc ≤ 4 then s.freePkt port p else s).dropPkt).raiseNo 0x67 (linkUnit port) port

/-- A packet of another partition: class 0x61. -/
def State.badPart (s : State) (port : Nat) (p : Pkt) : State :=
  ((s.freePkt port p).dropPkt).raiseNo 0x61 (linkUnit port) (p.src.toNat + p.part.toNat * 2 ^ 24)

/-- The payload of a packet is cut to LEN; a SIGNAL has none (R361). -/
def cutPkt (h : Nat) (payload : List Byte) : Pkt :=
  let p := pktOf h payload
  if p.type = 4 then { p with payload := [] } else { p with payload := payload.take p.len.toNat }

/-- A packet of a type that stands, whole, at the front of the units that a port has received is taken from them and checked; one
that does not stand there changes nothing. -/
def State.checkPkt (s : State) (port type : Nat) (hdr : BitVec 256) (payload : List Byte) (act : State → Pkt → State) :
    State :=
  let x := s.port port
  let f := hdr :: unitsOf payload
  let p := cutPkt hdr.toNat payload
  let bad := headerBad hdr.toNat
  if s.portOpen port && (bad || p.type == type) && (unitsOf payload).length == payloadUnits p then
    match x.holds f with
    | none => s
    | some c =>
      let s1 := (s.setPort port (x.takeFrame c f.length)).count (16 + port) (32 * p.units)
      if bad then s1.badHeader port p
      else if p.part.toNat ≠ s.fld .FAB_NODE_PART 0 then s1.badPart port p
      else act s1 p
  else s

/-! ### A port going down (R348, R377) -/

/-- An event that changes the paths: a port going up or down, or a remap (R447). -/
def State.portChange (s : State) : State := s.satAdd .MGT_DET_EVT_PORT_CHANGES 0 1

/-- Set an axis in ring mode to a line with a break; LINE leaves on a port when it is there (R377). -/
def State.convertAxis (s : State) (a brk out : Nat) : State :=
  if s.flag .FAB_AXIS_LINE a || !(s.axisUsed a) then s
  else
    let s1 := ((s.setFlag .FAB_AXIS_LINE a true).setFld .FAB_AXIS_BREAK a brk).setFlag .FAB_AXIS_AUTO a true
    let s2 := if s1.portOpen out then s1.sendHop out (s1.hopPkt out 8 (brk + a * 2 ^ 8) []) else s1
    s2.raiseNo 0x66 (linkUnit out) (a % 256 + brk * 2 ^ 8)

/-- The coordinate before the link that a port ends. -/
def State.breakAt (s : State) (p : Nat) : Nat :=
  let a := portAxis p
  if portPlus p then s.coord a else (s.coord a + s.axisLen a - 1) % s.axisLen a

/-- The port's link is lost: its replay buffer is discarded and its axis becomes a line. -/
def State.portLost (s : State) (p : Nat) : State :=
  let s1 := s.setPort p { (s.port p).freshStreams with failedAt := some s.now, identOk := 0, lockCnt := [], lost := [] }
  let s2 := ((s1.setPortState p 7).setFlag .LNK_STATUS_PAUSED p false).portChange
  s2.convertAxis (portAxis p) (s.breakAt p) (portTwin p)

/-- A port goes down with a cause: class 0x52 and FAILED (R348). -/
def State.portDown (s : State) (p cause : Nat) : State :=
  if 1 ≤ s.portState p ∧ s.portState p ≤ 5 then
    ((s.setFlag .LNK_STATUS_DOWN_EVT p true).raiseNo 0x52 (linkUnit p) (linkDetail p 1 cause)).portLost p
  else s

/-- The port is stopped without a loss: disabled, refused or off. -/
def State.portOff (s : State) (p : Nat) : State :=
  let s1 := s.setPort p { (s.port p).freshStreams with failedAt := none, identOk := 0, lockCnt := [], lost := [] }
  (s1.setPortState p 0).setFlag .LNK_STATUS_PAUSED p false

/-- The transmit map that the last remap left: it is in force from the next marker on. -/
def Port.map (x : Port) : Table Nat := x.mapNext.getD x.mapTx

/-- NACT of a direction below MIN_CH takes the port down (R316, R348). -/
def State.nactCheck (s : State) (p : Nat) : State :=
  if 4 ≤ s.portState p ∧ s.portState p ≤ 5 ∧
      ((s.port p).map.length < s.minCh p ∨ s.fld .LNK_STATUS_NACT_RX p < s.minCh p) then s.portDown p 0
  else s

/-- The transmitter replaces the failed channels that its map uses (R337): a new generation, and the records. The old map stays
in force, and its channels go on carrying their words, until the next marker (R338). -/
def State.txRemap (s : State) (p : Nat) : State :=
  let x := s.port p
  let r := remap (s.failedCh p false) (List.range 32) x.map
  if r.2.isEmpty then s
  else
    let s1 := ((s.setPort p { x with mapNext := some r.1 }).wrapAdd .LNK_STATUS_GEN_TX p 1).satAdd .LNK_CNT2_REMAPS p 1
    ((s1.reportSwaps p 0 r.1.length r.2).portChange).nactCheck p

/-- A marker is sent: the map of the last remap takes effect, with the next frame (DESIGN CHOICE: notes/assumptions/158.md). -/
def State.mapSwitch (s : State) (p : Nat) : State :=
  let x := s.port p
  s.setPort p { x with mapTx := x.map, mapNext := none }

/-! ### Guest admission (R318-R320, R563) -/

/-- The guest is on the allow list of the running bundle. -/
def State.allowed (s : State) (g : GuestInfo) : Bool :=
  s.flag .SEC_STATUS_ALLOW_LOADED 0 &&
    (List.range 32).any (fun k => s.flag .SEC_ALLOW_VALID k && s.fld .SEC_ALLOW_VENDOR k == g.vendor.toNat &&
      s.fld .SEC_ALLOW_DEVICE k == g.device.toNat && decide (s.fld .SEC_ALLOW_MIN_FW k ≤ g.fw.toNat))

/-- The first step of admission that refuses the guest. Step 4 refuses none: R320 applies to a lost module. -/
def State.guestStep (s : State) (g : GuestInfo) : Option Nat :=
  if !g.sideband then some 1
  else if !(s.allowed g) then some 2
  else if !g.params || !(g.rate == 1 || g.rate == 2) then some 3
  else if !g.calibrated then some 5
  else none

/-- A UCIe module of a port is lost: eight channels leave both directions (R320). -/
def State.moduleLost (s : State) (p m : Nat) : State :=
  let x := s.port p
  let lost := x.modLost ||| (1#4 <<< m)
  let keep := fun (t : Table Nat) => t.filter (fun q => !(moduleHas lost q.1))
  let s1 := (s.setPort p { x with
      modLost := lost, mapTx := keep x.mapTx, mapNext := x.mapNext.map keep, mapRx := keep x.mapRx }).setFld
    .LNK_GUEST_MOD_OK p (15 - lost.toNat)
  let s2 := s1.setFld .LNK_STATUS_NACT_RX p (keep x.mapRx).length
  (s2.setFlag .LNK_STATUS_CH_REMOVED p true).raiseNo 0x58 (linkUnit p) (linkDetail p 0 m)

/-- What discovery has read of the guest. -/
def State.guestRead (s : State) (p : Nat) (g : GuestInfo) : State :=
  ((s.setFld .LNK_GUEST_VENDOR p g.vendor.toNat).setFld .LNK_GUEST_DEVICE p g.device.toNat).setFld .LNK_GUEST_FW p
    g.fw.toNat

/-- A refused guest: class 0x57, and the port stays OFF (R319). -/
def State.guestRefuse (s : State) (p step : Nat) (g : GuestInfo) : State :=
  let s1 := if step = 1 then s else s.guestRead p g
  let s2 := (((s1.setFld .LNK_GUEST_ADMIT p step).setFlag .LNK_GUEST_ADMITTED p false).setFld .LNK_GUEST_RATE p 0).setFld
    .LNK_GUEST_MOD_OK p 0
  (s2.portOff p).raiseNo 0x57 (linkUnit p)
    (linkDetail p 0 (step + g.vendor.toNat * 2 ^ 8 + g.device.toNat * 2 ^ 24))

/-- Admission of the guest of a port (R319): refused at a step, or admitted with the modules that trained. -/
def State.acceptGuest (s : State) (p : Nat) (g : GuestInfo) : State :=
  match s.guestStep g with
  | some step => s.guestRefuse p step g
  | none =>
    let s1 := (((((s.guestRead p g).setFld .LNK_GUEST_ADMIT p 0).setFlag .LNK_GUEST_ADMITTED p true).setFld
      .LNK_GUEST_RATE p g.rate.toNat).setFld .LNK_GUEST_MOD_OK p 15).setPort p { s.port p with modLost := 0 }
    let s2 := ((List.range 4).filter (fun m => !(bitAt g.modules.toNat m))).foldl (fun s m => s.moduleLost p m) s1
    s2.portOff p

end Sys2Proof.Machine
end

