-- ==== Sys2Proof/Machine/Barriers.lean ====
section
/-! DEFINITION. The step barrier (R211-R215), its stretch field (R502), and the recovery point at a release (R455). -/

namespace Sys2Proof.Machine

def State.barrier (s : State) (k : Nat) : Barrier := Tbl.get Barrier.reset s.barriers k

def State.setBarrier (s : State) (k : Nat) (b : Barrier) : State := { s with barriers := Tbl.put s.barriers k b }

/-- The round in progress: the one after ROUND. -/
def State.barRound (s : State) (k : Nat) : Nat := s.fld .GLM_BAR_STATUS_ROUND k + 1

def State.barCtx (s : State) (k : Nat) : Nat := s.fld .GLM_BAR_CFG0_CTX k

/-- A record of a barrier class: the slot, and the round as OPERAND (R207). -/
def State.barRaise (s : State) (cls k round : Nat) : State :=
  s.raiseGlume cls (s.barCtx k) 0xFFFF (glumeDetail k 0xFFFF (0xC000 + k) 0 round)

/-- The slot carries stretches (R502). -/
def State.stretches (s : State) (k : Nat) : Bool := s.flag .PWR_STRETCH_EN 0 && s.fld .PWR_STRETCH_SLOT 0 == k

/-! ### Configuration (R211) -/

/-- The effect of a write to CFG0 (0) or CFG1 (1) of a slot. -/
def State.doBarConfig (s : State) (k reg v : Nat) : State :=
  let r : Reg := if reg = 0 then .GLM_BAR_CFG0 else .GLM_BAR_CFG1
  if s.flag .GLM_BAR_CFG0_ENABLE k then
    if reg = 0 && !(bitAt v 63) then (s.writeReg r k fullMask v).setBarrier k Barrier.reset else s
  else
    let s1 := s.writeReg r k fullMask v
    if s1.flag .GLM_BAR_CFG0_ENABLE k then (s1.setFld .GLM_BAR_STATUS_ROUND k 0).setBarrier k Barrier.reset else s1

def execBarrierSlotConfig (org : Origin) (slot : Fin 16) (reg : Fin 2) (val : Word) (s : State) :
    Host.Outcome State Fault Refusal :=
  .next (s.regCmd org (if reg.val = 0 then .GLM_BAR_CFG0 else .GLM_BAR_CFG1) slot.val val.toNat (fun s =>
    s.doBarConfig slot.val reg.val val.toNat))

/-! ### Arrival (R212, R213) -/

/-- The ports of CHILDREN. -/
def State.barChildren (s : State) (k : Nat) : List Nat :=
  (List.range 8).filter (fun p => bitAt (s.fld .GLM_BAR_CFG0_CHILDREN k) p)

/-- The payload of a token's packet (R212, R213). -/
def tokenBytes (release : Bool) (k round t : Nat) (stretch : BitVec 16) : List Byte :=
  leBytes 32 (Config.tokenBody release k (round % 2 ^ 32) (t % 2 ^ 64) stretch.toNat).toNat

/-- Send a token by a port, as a BARRIER packet on VC0 (R212, R362; DESIGN CHOICE: a token whose port takes no packet waits for it:
notes/assumptions/70.md). -/
def State.sendToken (s : State) (p : Nat) (release : Bool) (k round t : Nat) (stretch : BitVec 16) : State :=
  s.sendHop p (s.hopPkt p 9 0 (tokenBytes release k round t stretch))

/-- Send a release token on every CHILDREN port. -/
def State.sendRelease (s : State) (k round t : Nat) (stretch : BitVec 16) : State :=
  (s.barChildren k).foldl (fun s p => s.sendToken p true k round t stretch) s

/-- The arrival Glume has reached ARRIVE_STEP x r. A threshold of 0 is not translated (R189); a translation that fails
raises its class, and the slot does not arrive (R196, R583). -/
def State.barWait (s : State) (k : Nat) : State × Bool :=
  let th := s.fld .GLM_BAR_CFG1_ARRIVE_STEP k * s.barRound k
  let vid := s.fld .GLM_BAR_CFG0_ARRIVE k
  if th = 0 then (s, true)
  else
    match s.glumeXlat rachisB (s.barCtx k) vid with
    | (s1, .ok pid) => (s1, decide (th ≤ s1.glumeValue pid))
    | (s1, .bad cls pid) =>
      (s1.raiseGlume cls (s.barCtx k) pid (glumeDetail vid pid (0xC000 + k) 0 th), false)

/-- The smallest multiple of 10 ns at or above a time. -/
def ceil10 (x : Nat) : Nat := (x + 9) / 10 * 10

/-- The module's own stretch request joined with its children's (R502). -/
def State.barStretch (s : State) (k : Nat) : BitVec 16 :=
  if s.stretches k then BitVec.ofNat 16 (max (s.fld .PWR_STRETCH_REQ 0) (s.barrier k).stretch.toNat % 256) else 0

/-- The module arrives: the root chooses T and releases its children; another module sends its token to its parent. -/
def State.barArrive (s : State) (k : Nat) : State :=
  let r := s.barRound k
  let st := s.barStretch k
  let b := { s.barrier k with arrivedAt := some s.now }
  if s.flag .GLM_BAR_CFG0_ROOT k then
    let t := ceil10 (s.now + s.fld .GLM_BAR_LEAD_LEAD_NS 0)
    (s.setBarrier k { b with release := some (t, st) }).sendRelease k r t st
  else
    (s.setBarrier k b).sendToken (s.fld .GLM_BAR_CFG0_PARENT k) false k r 0 st

/-- A slot whose arrival Glume and child tokens are in arrives once in the round. -/
def State.doArrive (s : State) (k : Nat) : State :=
  let b := s.barrier k
  if s.flag .GLM_BAR_CFG0_ENABLE k && b.arrivedAt.isNone &&
      (s.barChildren k).all (fun p => b.tokens.getLsbD p) then
    let w := s.barWait k
    if w.2 then w.1.barArrive k else w.1
  else s

def execBarrierArrive (slot : Fin 16) (s : State) : Host.Outcome State Fault Refusal := .next (s.doArrive slot.val)

/-! ### Tokens (R212, R213, R215) -/

/-- A token finds its slot: dropped and counted when the slot is not enabled, dropped with class 0x29 when it is of
another round. -/
def State.token (s : State) (k round : Nat) (act : State → State) : State :=
  if !(s.flag .GLM_BAR_CFG0_ENABLE k) then s.dropSignal
  else if round ≠ s.barRound k % 2 ^ 32 then (s.setFlag .GLM_BAR_STATUS_MISMATCH k true).barRaise 0x29 k round
  else act s

/-- A token comes in by a port as a BARRIER packet, which is consumed (R362, R365). -/
def State.tokenPkt (s : State) (port : Nat) (hdr : BitVec 256) (body : List Byte) (act : State → State) : State :=
  s.checkPkt port 9 hdr body (fun s p => act (s.freePkt port p))

/-- A child's arrival token counts toward the arrival, and brings its stretch. -/
def State.doArrivalToken (s : State) (p k round stretch : Nat) : State :=
  s.token k round (fun s =>
    let b := s.barrier k
    s.setBarrier k { b with
      tokens := b.tokens ||| (1#8 <<< p),
      stretch := if s.stretches k then BitVec.ofNat 8 (max b.stretch.toNat (stretch % 256)) else b.stretch })

def execArrivalToken (port : Fin 8) (hdr : BitVec 256) (slot : Fin 16) (round : BitVec 32) (stretch : BitVec 16)
    (s : State) : Host.Outcome State Fault Refusal :=
  .next (s.tokenPkt port.val hdr (tokenBytes false slot.val round.toNat 0 stretch) (fun s =>
    s.doArrivalToken port.val slot.val round.toNat stretch.toNat))

/-! ### Release (R214, R455, R502) -/

/-- The logged context's signal counts start again, and the log's records become unprotected (R455, R458). -/
def State.recoveryPoint (s : State) (k : Nat) : State :=
  if s.flag .HBM_LOG_CTRL_ENABLE 0 && s.fld .HBM_LOG_CTRL_SLOT 0 == k then
    let c := s.fld .HBM_LOG_CTRL_CTX 0
    ({ s with
        logRecs := [], logUsed := 0, logOvf := false,
        sendFlows := s.sendFlows.map (fun p => (p.1, if p.2.ctx.toNat = c then { p.2 with sigs := 0 } else p.2)),
        recvFlows := s.recvFlows.map (fun p => (p.1, if p.2.ctx.toNat = c then { p.2 with sigs := 0 } else p.2)) } :
      State).setFld .HBM_LOG_STATUS_RECORDS 0 0
  else s

/-- Add 1 to the release Glume: all twelve copies of a bank-15 Glume, an ordinary signal otherwise (R192, R214). -/
def State.releaseGlume (s : State) (k : Nat) : State :=
  let vid := s.fld .GLM_BAR_CFG0_RELEASE k
  let c := s.barCtx k
  let x := s.glumeXlat rachisB c vid
  match x.2 with
  | .ok pid =>
    if pid / 4096 = 15 then
      let s1 := x.1.glumeAdd pid ⟨BitVec.ofNat 12 c, BitVec.ofNat 16 vid, BitVec.ofNat 16 pid, 1, false⟩ 1
      s1.setCopies pid (s1.glume pid).value.toNat
    else s.sendSignal rachisB c vid 1
  | .bad _ _ => s.sendSignal rachisB c vid 1

/-- The stretch of the release of a round takes effect LEAD_US after T (R502). -/
def State.noteStretch (s : State) (k t round : Nat) (stretch : BitVec 16) : State :=
  if s.stretches k then
    { s with power := { s.power with
        stretchAt := s.power.stretchAt ++ [(t + s.fld .PWR_STRETCH_LEAD_US 0 * 1000, stretch.toNat % 256, round)] } }
  else s

/-- The release of the current round at T. -/
def State.release (s : State) (k t : Nat) (stretch : BitVec 16) : State :=
  let r := s.barRound k
  let s1 := (s.releaseGlume k).setBarrier k Barrier.reset
  let s2 := (s1.wrapAdd .GLM_BAR_STATUS_ROUND k 1).setFld .GLM_BAR_LAST_MTIME k t
  ((s2.useFree.recoveryPoint k).noteStretch k t r stretch).trace 8 (s.barCtx k) (s2.glumeUnit 0xFFFF) k r t

/-- A release token is forwarded at once; one that comes at or after T releases at once, with LATE and class 0x25. -/
def State.doReleaseToken (s : State) (k round t : Nat) (stretch : BitVec 16) : State :=
  s.token k round (fun s =>
    let s1 := s.sendRelease k round t stretch
    if t ≤ s.now then
      ((s1.setFlag .GLM_BAR_STATUS_LATE k true).barRaise 0x25 k round).release k t stretch
    else s1.setBarrier k { s1.barrier k with release := some (t, stretch) })

def execReleaseToken (port : Fin 8) (hdr : BitVec 256) (slot : Fin 16) (round : BitVec 32) (t : Word) (stretch : BitVec 16)
    (s : State) : Host.Outcome State Fault Refusal :=
  .next (s.tokenPkt port.val hdr (tokenBytes true slot.val round.toNat t.toNat stretch) (fun s =>
    s.doReleaseToken slot.val round.toNat t.toNat stretch))

/-- At MTIME T the module releases. -/
def State.doBarRelease (s : State) (k : Nat) : State :=
  match (s.barrier k).release with
  | some (t, stretch) => if s.flag .GLM_BAR_CFG0_ENABLE k && decide (t ≤ s.now) then s.release k t stretch else s
  | none => s

def execBarrierRelease (slot : Fin 16) (s : State) : Host.Outcome State Fault Refusal := .next (s.doBarRelease slot.val)

/-- A round that is not released within ARR_TMO_US of the module's own arrival: TIMEOUT and class 0x28, once. -/
def State.doRoundTimeout (s : State) (k : Nat) : State :=
  let b := s.barrier k
  match b.arrivedAt with
  | some t0 =>
    if s.flag .GLM_BAR_CFG0_ENABLE k && !b.timedOut &&
        decide (s.fld .GLM_BAR_LEAD_ARR_TMO_US 0 * 1000 ≤ s.now - t0) then
      ((s.setBarrier k { b with timedOut := true }).setFlag .GLM_BAR_STATUS_TIMEOUT k true).barRaise 0x28 k (s.barRound k)
    else s
  | none => s

def execBarrierRoundTimeout (slot : Fin 16) (s : State) : Host.Outcome State Fault Refusal :=
  .next (s.doRoundTimeout slot.val)

end Sys2Proof.Machine
end

