-- ==== Sys2Proof/Machine/Fabric.lean ====
section
/-! DEFINITION. Packets and paths (R359-R372, R376-R379): productive ports and lanes, credits, sending a packet on
a port, and what happens to one that cannot go on. -/

namespace Sys2Proof.Machine

/-! ### Paths (R360, R366-R368, R376) -/

/-- The distance from this module to coordinate d in the + direction of an axis. -/
def State.plusDistance (s : State) (a d : Nat) : Nat := (d + 64 * s.axisLen a - s.coord a) % s.axisLen a

/-- The link after BREAK lies on the way to coordinate d in the + direction. -/
def State.plusCrosses (s : State) (a d : Nat) : Bool :=
  decide ((s.axisBreak a + 64 * s.axisLen a - s.coord a) % s.axisLen a < s.plusDistance a d)

/-- Whether the + and the - direction of an axis are minimal toward coordinate d. -/
def State.minimal (s : State) (a d : Nat) : Bool × Bool :=
  let dp := s.plusDistance a d
  if dp = 0 ∨ !(s.axisUsed a) then (false, false)
  else if s.flag .FAB_AXIS_LINE a then (!(s.plusCrosses a d), s.plusCrosses a d)
  else (decide (2 * dp ≤ s.axisLen a), decide (s.axisLen a ≤ 2 * dp))

/-- The directions in which a packet may move on an axis: minimal ones that agree with HEAD. -/
def State.mayMove (s : State) (p : Pkt) (a : Nat) : Bool × Bool :=
  let m := s.minimal a (nodeCoord p.dst.toNat a)
  let h := p.headAt a
  (m.1 && h != 2, m.2 && h != 1)

/-- The productive ports of a packet. -/
def State.productive (s : State) (p : Pkt) : List Nat :=
  ((List.range 4).flatMap (fun a =>
    let m := s.mayMove p a
    (if m.1 then [2 * a] else []) ++ (if m.2 then [2 * a + 1] else []))).filter s.portOpen

/-- The first unfinished axis in the order X, Y, Z, W. -/
def State.firstAxis (s : State) (p : Pkt) : Option Nat :=
  (List.range 4).find? (fun a => s.axisUsed a && s.plusDistance a (nodeCoord p.dst.toNat a) != 0)

/-- The port of the dimension-ordered path: the committed direction, or the minimal one, with a tie going to +. -/
def State.orderedPort (s : State) (p : Pkt) : Option Nat :=
  (s.firstAxis p).bind (fun a =>
    let m := s.mayMove p a
    if m.1 then some (2 * a) else if m.2 then some (2 * a + 1) else none)

/-- The packet has crossed its axis's dateline with the hop that brought it in by port `inp`. -/
def State.crossedDateline (s : State) (inp : Nat) : Bool :=
  let a := portAxis inp
  let n := s.axisLen a
  let hops := s.fld .LNK_PEER_BYPASS inp + 1
  (List.range hops).any (fun k =>
    if portPlus inp then (s.coord a + k) % n == s.dateline a
    else (s.coord a + 64 * n - k - 1) % n == s.dateline a)

/-- The lane of the next hop of a VC0 or VC4 packet: lane 0 at the start of an axis, lane 1 after the dateline link (R368;
DEDUCED from the order of R372: notes/assumptions/37.md). -/
def State.nextLane (s : State) (inp : Nat) (p : Pkt) (out : Nat) : Bool :=
  decide (inp < 8) && portAxis inp == portAxis out && (p.lane || s.crossedDateline inp)

/-! ### Sending (R366, R367, R529) -/

/-- A packet event is traced: of a flow, its SEQ on the grid of SHIFT (R529). -/
def State.tracesPkt (s : State) (p : Pkt) : Bool :=
  flowType p.type && p.seq.toNat % 2 ^ s.fld .OBS_TRACE_SHIFT 0 == 0

/-- C of a packet event: LEN, TYPE, and a flow. -/
def Pkt.traceC (p : Pkt) (flow : Nat) : Nat := p.len.toNat % 8192 + p.type * 2 ^ 16 + flow * 2 ^ 20

/-- The event of a packet that leaves its source (R530). -/
def State.traceSent (s : State) (p : Pkt) (port : Nat) (resend : Bool) : State :=
  if s.tracesPkt p then
    s.trace 6 p.ctx.toNat (linkUnit port) p.sflow.toNat
      (p.seq.toNat + p.dst.toNat * 2 ^ 32 + port * 2 ^ 56 + (if resend then 2 ^ 59 else 0)) (p.traceC p.dflow.toNat)
  else s

/-- The packet with the direction of its first hop on an axis committed. -/
def Pkt.commit (p : Pkt) (out : Nat) : Pkt :=
  { p with head := p.head ||| BitVec.ofNat 8 ((if portPlus out then 1 else 2) * 4 ^ portAxis out) }

/-- Send a packet on a port in virtual channel vc and a lane. -/
def State.sendOn (s : State) (out : Nat) (p : Pkt) (vc : Nat) (lane : Bool) : State :=
  s.stage out (bufIndex vc lane) { p.commit out with vc := vc, lane := lane, since := 0, able := none, stuck := none }

/-- Among ports with the same credit, the one that the round-robin pointer names next. -/
def pickFrom (ptr : Nat) (l : List Nat) : Option Nat :=
  match l.find? (fun p => decide (ptr ≤ p)) with
  | some p => some p
  | none => l.head?

/-- The productive ports that take a packet now and have the most free credits on its VC (R367). -/
def State.bestPorts (s : State) (p : Pkt) : List Nat :=
  let b := bufIndex p.vc false
  let l := (s.productive p).filter (fun o => s.canSend o b p.units)
  let top := (l.map (fun o => s.creditFree o b)).foldl max 0
  l.filter (fun o => s.creditFree o b == top)

/-- The adaptive choice: a tie goes by the round-robin pointer of the lowest of the tied outputs (R367; DESIGN CHOICE:
notes/assumptions/163.md). -/
def State.adaptivePort (s : State) (p : Pkt) : Option Nat :=
  let l := s.bestPorts p
  pickFrom (Tbl.get 0 s.rrPtr (l.headD 0)) l

/-- The virtual channels that choose adaptively now. -/
def State.adaptive (s : State) (vc : Nat) : Bool := decide (1 ≤ vc) && decide (vc ≤ 3) && !s.strict

/-- The port and lane by which a packet leaves now, if it can. -/
def State.exitOf (s : State) (inp : Nat) (p : Pkt) : Option (Nat × Bool) :=
  if s.adaptive p.vc then (s.adaptivePort p).map (fun o => (o, false))
  else
    match s.orderedPort p with
    | none => none
    | some o =>
      let lane := (p.vc == 0 || p.vc == 4) && s.nextLane inp p o
      if s.canSend o (bufIndex p.vc lane) p.units then some (o, lane) else none

/-- The pointer that decided an adaptive choice among `l` moves on behind the port chosen. -/
def State.rrNext (s : State) (l : List Nat) (vc out : Nat) : State :=
  match l with
  | [] => s
  | o :: _ => if s.adaptive vc then { s with rrPtr := Tbl.put s.rrPtr o ((out + 1) % 8) } else s

/-- A head packet cannot move for want of credit on any productive port (R369). -/
def State.blocked (s : State) (p : Pkt) : Bool :=
  !((s.productive p).any (fun o => s.canSend o (bufIndex p.vc false) p.units))

/-- How long a head packet has been able to move, and how long stuck, with what holds now (R369, R371). -/
def State.reckon (s : State) (inp : Nat) (p : Pkt) : Pkt :=
  let since := fun (t : Option Nat) (b : Bool) => if b then some (t.getD s.now) else none
  { p with able := since p.able (s.exitOf inp p).isSome, stuck := since p.stuck (s.blocked p) }

/-- The head packets of every input buffer, at the end of an instant of MTIME. -/
def State.reckonHeads (s : State) : State :=
  { s with inbufs := s.inbufs.map (fun e => (e.1, match e.2 with
    | [] => []
    | p :: t => s.reckon (e.1 / 7) p :: t)) }

/-! ### This module's own packets -/

/-- Packets in an input buffer, or waiting in set 8. -/
def State.inbuf (s : State) (key : Nat) : List Pkt := Tbl.get [] s.inbufs key

def State.setInbuf (s : State) (key : Nat) (l : List Pkt) : State := { s with inbufs := Tbl.put s.inbufs key l }

/-- Put a packet at the end of a buffer. -/
def State.enqueuePkt (s : State) (inp : Nat) (p : Pkt) : State :=
  let k := bufKey inp (bufIndex p.vc p.lane)
  s.setInbuf k (s.inbuf k ++ [{ p with since := s.now, able := none, stuck := none }])

/-- The FAB_ALIAS entry for a destination (R464). -/
def State.aliasOf (s : State) (node : Nat) : Option Nat :=
  ((List.range 16).find? (fun k => s.flag .FAB_ALIAS_EN k && s.fld .FAB_ALIAS_FROM_NODE k == node)).map
    (fun k => s.fld .FAB_ALIAS_TO_NODE k)

/-- A packet that starts here: its source, partition and alias. -/
def State.originate (s : State) (p : Pkt) : Pkt :=
  let q := { p with src := BitVec.ofNat 24 s.selfNode, part := BitVec.ofNat 8 (s.fld .FAB_NODE_PART 0),
                    vc := typeVc p.type, lane := false, head := 0 }
  match s.aliasOf p.dst.toNat with
  | some n => { q with dst := BitVec.ofNat 24 n, dflow := q.dflow + 8192 }
  | none => q

/-- A packet that answers one of a flow: ACK, NAK or UNREACH to its source, with DFLOW its SFLOW (R362). -/
def answerTo (type : Nat) (node : BitVec 24) (flow : BitVec 14) (addr : Nat) : Pkt :=
  { type := type, lane := false, vc := 0, dst := node, part := 0, src := 0, seq := 0, eop := false, poison := false,
    sflow := 0, dflow := flow, epoch := 0, ctx := 0, head := 0, len := 0, addr := BitVec.ofNat 64 addr, payload := [],
    since := 0 }

/-- An ACK, NAK or UNREACH of this module waits for its port. -/
def State.answer (s : State) (type : Nat) (node : BitVec 24) (flow : BitVec 14) (addr : Nat) : State :=
  s.enqueuePkt 8 (s.originate (answerTo type node flow addr))

/-! ### Packets that go no further (R363, R370, R378, R379) -/

/-- The first axis on which a packet's destination is absent. -/
def State.absentAxis (s : State) (p : Pkt) : Option Nat :=
  (List.range 4).find? (fun a => bitAt (s.fld .FAB_ABSENT_ABSENT a) (nodeCoord p.dst.toNat a))

/-- A send flow fails with a class (R370, R375). -/
def State.failFlow (s : State) (f cls detail : Nat) (u : UnitRef) : State :=
  let x := s.sendFlow f
  (s.setSendFlow f { x with failed := true }).raiseCtx cls x.ctx.toNat u detail

/-- A packet to an absent coordinate is dropped; one of a flow is answered with UNREACH (R370). -/
def State.unreachable (s : State) (p : Pkt) (a : Nat) : State :=
  let s1 := s.dropPkt
  if flowType p.type then s1.answer 7 p.src p.sflow (nodeCoord p.dst.toNat a + a * 2 ^ 8) else s1

/-- A packet is stranded: a committed direction would cross the break, or every way on is a down port (R378). -/
def State.stranded (s : State) (p : Pkt) : Bool :=
  let open' := fun (o : Nat) => s.portState o == 5
  let ways := fun (a : Nat) =>
    let m := s.mayMove p a
    (if m.1 then [2 * a] else []) ++ (if m.2 then [2 * a + 1] else [])
  let unfinished := (List.range 4).filter (fun a => s.axisUsed a && s.plusDistance a (nodeCoord p.dst.toNat a) != 0)
  let axes := if s.adaptive p.vc then unfinished else unfinished.take 1
  let committed := axes.filter (fun a => p.headAt a != 0)
  (unfinished.filter (fun a => p.headAt a != 0)).any (fun a => (ways a).isEmpty) ||
    (!committed.isEmpty && (axes.flatMap ways).all (fun o => !(open' o)))

/-- A stranded packet is dropped with class 0x62. -/
def State.strand (s : State) (p : Pkt) (inp : Nat) : State :=
  (s.satAdd .FAB_CNT1_STRANDED 0 1).raiseNo 0x62 (linkUnit (min inp 7)) (p.dflow.toNat + p.seq.toNat * 2 ^ 32)

end Sys2Proof.Machine
end

