-- ==== Sys2Proof/Machine/Groups.lean ====
section
/-! DEFINITION. Collective groups (R391-R409): ranks and chunks, the reduction chains and their exact form, results and
rounds, and where a dispatch row lands. -/

namespace Sys2Proof.Machine

/-! ### Groups and ranks (R391-R393, R396, R465) -/

def State.group (s : State) (g : Nat) : Group := Tbl.get Group.reset s.groups g

def State.setGroup (s : State) (g : Nat) (x : Group) : State := { s with groups := Tbl.put s.groups g x }

/-- N of a group. -/
def State.ranks (s : State) (g : Nat) : Nat := s.fld .COL_GRP_CFG0_NRANK_M1 g + 1

/-- The node of rank r. -/
def State.member (s : State) (g r : Nat) : Nat := s.fld .COL_MEMBER_NODE_ID (g * 64 + r)

/-- The node that a group stands for here: this module's, or the one it is a proxy of. -/
def State.groupNode (s : State) (g : Nat) : Nat :=
  if s.flag .COL_GRP_PROXY_EN g then s.fld .COL_GRP_PROXY_PROXY_NODE g else s.selfNode

/-- The ranks that this module hosts. -/
def State.hosted (s : State) (g : Nat) : List Nat :=
  (List.range (s.ranks g)).filter (fun r => s.member g r == s.groupNode g)

def State.groupOp (s : State) (g : Nat) : Nat := s.fld .COL_GRP_CFG0_OP g

def State.groupCtx (s : State) (g : Nat) : Nat := s.fld .COL_GRP_CFG0_CTX g

def State.armed (s : State) (g : Nat) : Bool := s.flag .COL_GRP_CFG0_ARM g

def State.round (s : State) (g : Nat) : Nat := s.fld .COL_GRP_STATUS_ROUND g

def State.groupExact (s : State) (g : Nat) : Bool := s.flag .COL_GRP_CFG0_EXACT g && s.groupOp g != 1

/-- The Rachis of the axis's ports: A for X and Y, C for Z and W (R391). -/
def State.groupTile (s : State) (g : Nat) : Nat := if s.fld .COL_GRP_CFG0_AXIS g < 2 then 0 else 2

/-- A collective unit, by its tile. -/
def State.colUnit (s : State) (g : Nat) : UnitRef := ⟨6, s.groupTile g⟩

def State.colAcc (s : State) (g : Nat) : Accessor := Accessor.of (s.colUnit g) (some (s.groupCtx g))

/-- A record of a group (R415). -/
def State.colRaise (s : State) (cls g rank idx : Nat) : State :=
  s.raiseCtx cls (s.groupCtx g) (s.colUnit g) (colDetail g rank idx)

/-- The shard of chunk c, and whether the chunk travels in the + direction (R396). -/
def State.shardOf (s : State) (g c : Nat) : Nat := c / (s.fld .COL_GRP_CFG1_CHUNKS g / s.ranks g)

def State.goesPlus (s : State) (g c : Nat) : Bool :=
  let per := s.fld .COL_GRP_CFG1_CHUNKS g / s.ranks g
  decide (2 * (c % per) < per)

/-- The rank after r in the direction of chunk c. -/
def State.nextRank (s : State) (g c r : Nat) : Nat :=
  if s.goesPlus g c then (r + 1) % s.ranks g else (r + s.ranks g - 1) % s.ranks g

/-- The first rank of chunk c's chain (R398). -/
def State.firstRank (s : State) (g c : Nat) : Nat := s.nextRank g c (s.shardOf g c)

/-! ### Arming (R393) -/

/-- The reservation of a group in KiB. -/
def State.reservation (s : State) (g : Nat) : Nat :=
  if s.groupOp g = 3 then 128 else if s.flag .COL_GRP_CFG0_EXACT g then 768 else 512

/-- The reservations of the armed groups of a tile, in KiB. -/
def State.poolUsed (s : State) (tile : Nat) : Nat :=
  ((List.range 256).map (fun k => if s.armed k && s.groupTile k == tile then s.reservation k else 0)).sum

/-- The way from the member of rank r to that of the next rank in the + direction of the group's axis. -/
def State.stepPlus (s : State) (g r : Nat) : Nat :=
  let a := s.fld .COL_GRP_CFG0_AXIS g
  let n := s.axisLen a
  (nodeCoord (s.member g ((r + 1) % s.ranks g)) a + 64 * n - nodeCoord (s.member g r) a) % n

/-- The members follow the + direction: together their steps go once round the axis, or nowhere. -/
def State.followsPlus (s : State) (g : Nat) : Bool :=
  let sum := ((List.range (s.ranks g)).map (s.stepPlus g)).sum
  sum == s.axisLen (s.fld .COL_GRP_CFG0_AXIS g) || sum == 0

/-- A flow pair is open in the group's context. -/
def State.flowsOpen (s : State) (g f : Nat) : Bool :=
  let x := s.sendFlow f
  let y := Tbl.get RecvFlow.reset s.recvFlows f
  x.opened && y.opened && x.ctx.toNat == s.groupCtx g && y.ctx.toNat == s.groupCtx g

/-- The flows that the group needs are open. -/
def State.groupFlows (s : State) (g : Nat) : Bool :=
  if s.groupOp g = 3 then
    (List.range (s.ranks g)).all (fun d => (s.hosted g).contains d || s.flowsOpen g ((s.fld .COL_GRP_CFG1_FLOW_P g + d) % 16384))
  else (s.hosted g).length == s.ranks g ||
    (s.flowsOpen g (s.fld .COL_GRP_CFG1_FLOW_P g) && s.flowsOpen g (s.fld .COL_GRP_CFG1_FLOW_M g))

/-- The conditions that refuse ARM. -/
def State.armBad (s : State) (g : Nat) : Bool :=
  let n := s.ranks g
  let op := s.groupOp g
  let chunks := s.fld .COL_GRP_CFG1_CHUNKS g
  n < 2 ||
    (List.range n).any (fun r => (List.range 4).any (fun a => a != s.fld .COL_GRP_CFG0_AXIS g &&
      nodeCoord (s.member g r) a != nodeCoord (s.groupNode g) a)) ||
    !(s.followsPlus g) || decide (4 ≤ op) ||
    (op != 3 && (chunks == 0 || chunks % (2 * n) != 0)) ||
    (op == 3 && (s.flag .COL_GRP_CFG0_EXACT g || s.fld .COL_GRP_DISP_ROW32 g == 0 ||
      decide (2048 < s.fld .COL_GRP_DISP_ROW32 g) || s.fld .COL_GRP_DISP_CAP g == 0)) ||
    !(s.groupFlows g) ||
    decide (1024 * s.fld .COL_CFG_POOL_MIB 0 < s.poolUsed (s.groupTile g) + s.reservation g)

/-- Arm a group, or refuse with class 0x74. -/
def State.armGroup (s : State) (g : Nat) : State :=
  if s.armed g then s
  else if s.armBad g then (s.setFlag .COL_GRP_STATUS_REFUSED g true).colRaise 0x74 g 0 0
  else
    let s1 := if s.flag .COL_GRP_PROXY_EN g then s.setFld .COL_GRP_STATUS_ROUND g (s.fld .COL_GRP_PROXY_ROUND_SET g) else s
    (s1.setGroup g { Group.reset with start := s1.round g }).setFlag .COL_GRP_CFG0_ARM g true

/-- ARM is cleared: the round in progress is discarded with its buffers; ROUND stays (R465). -/
def State.disarmGroup (s : State) (g : Nat) : State :=
  (s.setGroup g Group.reset).setFlag .COL_GRP_CFG0_ARM g false

/-! ### Elements (R400-R402) -/

/-- FP32 elements of a payload. -/
def chunkElems (b : List PByte) : List TElem :=
  (List.range (b.length / 4)).map (fun k =>
    let w := (b.drop (4 * k)).take 4
    { val := BitVec.ofNat 64 (leNat (vals w)), poison := anyPoison w, sat := false })

/-- e_r of a block of 32 FP32 elements (R401). -/
def blockExp (l : List TElem) : Nat :=
  let es := l.map (fun e => bitsOf e.val.toNat 30 23)
  if es.any (· == 255) then 255 else es.foldl max 0

/-- The 32 exponent bytes of a chunk. -/
def chunkExps (l : List TElem) : List TElem :=
  (List.range 32).map (fun b =>
    let blk := (l.drop (32 * b)).take 32
    { val := BitVec.ofNat 64 (blockExp blk), poison := false, sat := false })

/-- q of a block (R57). -/
def expQ (eb : Nat) : Int := Int.ofNat eb - 127 - 53

/-- An FP32 element as W64 under its block's Eb (R58). -/
def toW64 (eb : Nat) (e : TElem) : TElem :=
  { val := BitVec.ofNat 64 (convInt 64 0 0 ((ofFp32 e.val.toNat).scale (-(expQ eb)))).bits, poison := e.poison, sat := false }

/-- A W64 sum as FP32 (R402). -/
def fromW64 (eb : Nat) (e : TElem) : TElem :=
  { e with val := BitVec.ofNat 64 (if eb = 255 then fp32.nanEnc else toFp32 (FVal.ofInt e.val.toInt (expQ eb))) }

/-- Apply a function with each element's Eb. -/
def withEb (ebs : List TElem) (f : Nat → TElem → TElem) (l : List TElem) : List TElem :=
  (List.range l.length).map (fun k => f (ebs.getD (k / 32) ⟨0, false, false⟩).val.toNat (l.getD k ⟨0, false, false⟩))

/-- The bytes of elements of w bytes. -/
def elemBytes (w : Nat) (l : List TElem) : List Byte := l.flatMap (fun e => leBytes w e.val.toNat)

def anyBad (l : List TElem) : Bool := l.any (·.poison)

/-! ### Hops (R398, R399, R404, R413, R414) -/

/-- The line plan: the hop from rank r to the next rank of a chunk's direction crosses the axis's break. -/
def State.hopCrosses (s : State) (g r : Nat) (plus : Bool) (nx : Nat) : Bool :=
  let a := s.fld .COL_GRP_CFG0_AXIS g
  let n := s.axisLen a
  let c := nodeCoord (s.member g r) a
  let d := nodeCoord (s.member g nx) a
  let b := s.axisBreak a
  if plus then decide ((b + 64 * n - c) % n < (d + 64 * n - c) % n)
  else decide ((b + 64 * n - d) % n < (c + 64 * n - d) % n)

/-- The flow of a hop: FLOW_P toward + and FLOW_M toward -; in the line plan a hop that would cross the break goes the
other way and is relayed. -/
def State.hopFlow (s : State) (g r nx : Nat) (plus : Bool) : Nat :=
  let way := if s.flag .COL_GRP_STATUS_LINE_PLAN g && s.hopCrosses g r plus nx then !plus else plus
  if way then s.fld .COL_GRP_CFG1_FLOW_P g else s.fld .COL_GRP_CFG1_FLOW_M g

/-- A collective packet of a flow (R414). -/
def colPkt (type ctx addr : Nat) (payload : List Byte) (bad : Bool) : Pkt :=
  { type := type, lane := false, vc := 3, dst := 0, part := 0, src := 0, seq := 0, eop := false, poison := bad, sflow := 0,
    dflow := 0, epoch := 0, ctx := BitVec.ofNat 12 ctx, head := 0, len := BitVec.ofNat 16 payload.length,
    addr := BitVec.ofNat 64 addr, payload := payload, since := 0 }

/-- ADDR of a collective packet: chunk, SUB, FINAL, destination rank, ROUND. -/
def colAddr (idx sub final rank round : Nat) : Nat :=
  idx % 2 ^ 22 + sub * 2 ^ 22 + final * 2 ^ 23 + rank % 64 * 2 ^ 24 + round % 256 * 2 ^ 32

/-- What a hop carries. -/
inductive HopKind where
  | partialSum | final | expPart | expFinal
  deriving DecidableEq, Repr

/-- The packets of a hop: an FP32 chunk is one, a W64 chunk two, exponent bytes one. -/
def State.hopPkts (s : State) (g : Nat) (k : HopKind) (c : Chunk) : List Pkt :=
  let ctx := s.groupCtx g
  let a := fun sub fin => colAddr c.idx sub fin c.rank c.round
  match k with
  | .partialSum =>
    if s.groupExact g then
      [colPkt 10 ctx (a 0 0) (elemBytes 8 (c.elems.take 512)) (anyBad (c.elems.take 512)),
        colPkt 10 ctx (a 1 0) (elemBytes 8 (c.elems.drop 512)) (anyBad (c.elems.drop 512))]
    else [colPkt 10 ctx (a 0 0) (elemBytes 4 c.elems) (anyBad c.elems)]
  | .final => [colPkt 11 ctx (a 0 1) (elemBytes 4 c.elems) (anyBad c.elems)]
  | .expPart => [colPkt 12 ctx (a 0 0) (elemBytes 1 c.elems) (anyBad c.elems)]
  | .expFinal => [colPkt 12 ctx (a 0 1) (elemBytes 1 c.elems) (anyBad c.elems)]

/-- A hop's data are at hand at a rank that this module hosts. -/
def Group.arrive (x : Group) (k : HopKind) (c : Chunk) : Group :=
  match k with
  | .partialSum => { x with partials := x.partials ++ [c] }
  | .expPart => { x with exps := x.exps ++ [c] }
  | .expFinal => { x with ebs := x.ebs ++ [c] }
  | .final => x

/-- Write a result of a chunk at a rank (R398, R399). -/
def State.writeResult (s : State) (g : Nat) (c : Chunk) : State :=
  let s1 := s.memWrite (s.colAcc g) (s.fld .COL_GRP_RES_RES_ADDR g + 4096 * c.idx)
    (c.elems.flatMap (fun e => (leBytes 4 e.val.toNat).map (fun b => ⟨b, e.poison⟩)))
  let x := s1.group g
  if c.round = s.round g % 256 then s1.setGroup g { x with written := x.written ++ [(c.idx, c.rank)] } else s1

/-- Send a hop from rank r to the next rank: to a flow, or within this module. The fuel bounds a final's way through the
ranks that this module hosts one after another. -/
def State.hop (s : State) (g r : Nat) (k : HopKind) (c : Chunk) : Nat → State
  | 0 => s
  | fuel + 1 =>
    let nx := s.nextRank g c.idx r
    let plus := s.goesPlus g c.idx
    let c1 := { c with rank := nx }
    if (s.hosted g).contains nx then
      match k with
      | .final =>
        let s1 := s.writeResult g c1
        if s.nextRank g c.idx nx = s.shardOf g c.idx then s1 else s1.hop g nx k c1 fuel
      | .expFinal =>
        let s1 := s.setGroup g ((s.group g).arrive k c1)
        if s.nextRank g c.idx nx = s.shardOf g c.idx then s1 else s1.hop g nx k c1 fuel
      | _ => s.setGroup g ((s.group g).arrive k c1)
    else
      let f := s.hopFlow g r nx plus
      (s.hopPkts g k c1).foldl (fun s p => s.queuePkt f p) s

/-! ### Residues (R403) -/

/-- Consecutive residue mismatches of one addition: each replay is counted with class 0x72; after the third replay's
mismatch the group fails. -/
def State.residue (s : State) (g rank idx n : Nat) : State :=
  let s1 := (List.range (min n 3)).foldl (fun s _ =>
    ((s.satAdd .COL_CNT_RESIDUE 0 1).setFlag .COL_GRP_STATUS_RESIDUE g true).colRaise 0x72 g rank idx) s
  if n ≤ 3 then s1
  else ((s1.disarmGroup g).setFlag .COL_GRP_STATUS_FAILED g true).colRaise 0x73 g rank idx

/-! ### The chains (R398-R402) -/

/-- Two chunks belong together. -/
def Chunk.same (a b : Chunk) : Bool := a.idx == b.idx && a.rank == b.rank && a.round == b.round

/-- Send a partial on, or finish the chunk at its owner. -/
def State.chainOut (s : State) (g : Nat) (c : Chunk) (result : List TElem) : State :=
  if c.rank = s.shardOf g c.idx then
    let f := { c with elems := result }
    let s1 := s.writeResult g f
    if s.groupOp g = 2 then s1.hop g c.rank .final f 64 else s1
  else s.hop g c.rank .partialSum c 64

/-- Remove a contribution, its partial and its exponents. -/
def Group.drop (x : Group) (c : Chunk) : Group :=
  { x with
    contrib := x.contrib.filter (fun d => !(d.same c))
    partials := x.partials.filter (fun d => !(d.same c))
    exps := x.exps.filter (fun d => !(d.same c))
    ebs := x.ebs.filter (fun d => !(d.same c))
    expSent := x.expSent.filter (fun d => d != (c.idx, c.rank, c.round)) }

/-- What a rank may do next with one of its contributions. -/
inductive Work where
  | exps (c : Chunk) (mine : List TElem)
  | first (c : Chunk)
  | sum (c : Chunk) (p : Chunk)

/-- The exponent step of a contribution: none when it has been made or waits for the bytes of the rank before. -/
def State.expWork (s : State) (g : Nat) (c : Chunk) : Option Work :=
  let x := s.group g
  let own := chunkExps c.elems
  if x.expSent.contains (c.idx, c.rank, c.round) then none
  else if c.rank = s.firstRank g c.idx then some (.exps c own)
  else
    (x.exps.find? (fun d => d.same c)).map (fun d =>
      .exps c (List.zipWith (fun a b => { a with val := BitVec.ofNat 64 (max a.val.toNat b.val.toNat) }) d.elems own))

/-- The addition step of a contribution. -/
def State.sumWork (s : State) (g : Nat) (c : Chunk) : Option Work :=
  if c.rank = s.firstRank g c.idx then some (.first c)
  else (((s.group g).partials).find? (fun d => d.same c)).map (fun d => .sum c d)

/-- A contribution as its chain adds it: FP32, or W64 once its Eb is agreed. -/
def State.ready? (s : State) (g : Nat) (c : Chunk) : Option (List TElem) :=
  if s.groupExact g then ((s.group g).ebs.find? (fun d => d.same c)).map (fun d => withEb d.elems toW64 c.elems)
  else some c.elems

/-- The work that a contribution allows now. -/
def State.workOf (s : State) (g : Nat) (c : Chunk) : Option Work :=
  if s.groupOp g = 1 then some (.first c)
  else
    match (if s.groupExact g then s.expWork g c else none) with
    | some w => some w
    | none => if (s.ready? g c).isSome then s.sumWork g c else none

/-- The result of a chunk at its owner. -/
def State.finish (s : State) (g : Nat) (c : Chunk) (sum : List TElem) : List TElem :=
  if s.groupExact g then
    match (s.group g).ebs.find? (fun d => d.same c) with
    | some d => withEb d.elems fromW64 sum
    | none => sum
  else sum

/-- Do one piece of work; `resid` is the number of residue mismatches of its addition. -/
def State.doWork (s : State) (g : Nat) (w : Work) (resid : Nat) : State :=
  match w with
  | .exps c e =>
    let x := s.group g
    let s1 := s.setGroup g { x with expSent := x.expSent ++ [(c.idx, c.rank, c.round)] }
    let d := { c with elems := e }
    if c.rank = s.shardOf g c.idx then
      (s1.setGroup g ((s1.group g).arrive .expFinal d)).hop g c.rank .expFinal d 64
    else s1.hop g c.rank .expPart d 64
  | .first c =>
    if s.groupOp g = 1 then
      ((s.setGroup g ((s.group g).drop c)).writeResult g c).hop g c.rank .final c 64
    else
      let v := (s.ready? g c).getD c.elems
      let r := s.finish g c v
      (s.setGroup g ((s.group g).drop c)).chainOut g { c with elems := v } r
  | .sum c p =>
    let s1 := s.residue g c.rank c.idx resid
    if 4 ≤ resid then s1
    else
      let v := List.zipWith (fun a b => accAdd (s.groupExact g) a b) p.elems ((s.ready? g c).getD c.elems)
      let r := s.finish g c v
      (s1.setGroup g ((s1.group g).drop c)).chainOut g { c with elems := v } r

/-- The work is an addition. -/
def Work.adds : Work → Bool
  | .sum _ _ => true
  | _ => false

/-- The first piece of work that a group's contributions allow. -/
def State.nextWork (s : State) (g : Nat) : Option Work := (s.group g).contrib.findSome? (fun c => s.workOf g c)

/-- Every chunk that this module must write in the round is written (R397). -/
def State.roundDone (s : State) (g : Nat) : Bool :=
  let w := (s.group g).written
  let h := s.hosted g
  !h.isEmpty && h.all (fun r =>
    (List.range (s.fld .COL_GRP_CFG1_CHUNKS g)).all (fun c =>
      (s.groupOp g == 0 && s.shardOf g c != r) || w.contains (c, r)))

/-- The round ends: DONE_VID is signalled and ROUND increments. -/
def State.endRound (s : State) (g : Nat) : State :=
  let x := s.group g
  let s1 := (s.setGroup g { x with written := [] }).wrapAdd .COL_GRP_STATUS_ROUND g 1
  s1.sendSignal (12 + s.groupTile g) (s.groupCtx g) (s.fld .COL_GRP_CFG0_DONE_VID g) 1

/-! ### The line plan (R413) -/

/-- At the start of a round the group takes the plan that its axis gives. -/
def State.choosePlan (s : State) (g : Nat) : State :=
  let x := s.group g
  if x.plan = s.round g + 1 then s
  else
    let line := s.flag .FAB_AXIS_LINE (s.fld .COL_GRP_CFG0_AXIS g)
    let s1 := s.setGroup g { x with plan := s.round g + 1 }
    if line && !(s.flag .COL_GRP_STATUS_LINE_PLAN g) then
      (s1.setFlag .COL_GRP_STATUS_LINE_PLAN g true).colRaise 0x76 g 0 0
    else s1.setFlag .COL_GRP_STATUS_LINE_PLAN g line

/-! ### Collective packets (R397, R405, R414) -/

/-- A collective packet's flow and kind are those of a group. -/
def State.colMatch (s : State) (p : Pkt) (g : Nat) : Bool :=
  if p.type = 13 then
    s.groupOp g == 3 && decide ((p.dflow.toNat + 16384 - s.fld .COL_GRP_CFG1_FLOW_P g) % 16384 < s.ranks g)
  else s.groupOp g != 3 && (s.fld .COL_GRP_CFG1_FLOW_P g == p.dflow.toNat || s.fld .COL_GRP_CFG1_FLOW_M g == p.dflow.toNat)

/-- The armed group that a collective packet belongs to: of the packet's context, with its flow. -/
def State.groupOfPkt (s : State) (p : Pkt) : Option Nat :=
  (List.range 256).find? (fun g => s.armed g && s.groupCtx g == p.ctx.toNat && s.colMatch p g)

def Pkt.colIdx (p : Pkt) : Nat := bitsOf p.addr.toNat 21 0
def Pkt.colSub (p : Pkt) : Nat := bitsOf p.addr.toNat 22 22
def Pkt.colFin (p : Pkt) : Bool := bitAt p.addr.toNat 23
def Pkt.colRank (p : Pkt) : Nat := bitsOf p.addr.toNat 29 24
def Pkt.colRound (p : Pkt) : Nat := bitsOf p.addr.toNat 39 32

/-- The packet belongs to a round that has not begun. -/
def State.aheadOf (s : State) (g : Nat) (p : Pkt) : Bool :=
  let d := (p.colRound + 256 - s.round g % 256) % 256
  decide (1 ≤ d) && decide (d < 128)

/-- The chunk, rank and round that a packet or half belongs to. -/
abbrev ChunkKey := Nat × Nat × Nat

def Chunk.key (c : Chunk) : ChunkKey := (c.idx, c.rank, c.round)
def Pkt.colKey (p : Pkt) : ChunkKey := (p.colIdx, p.colRank, p.colRound)

/-- The chunks that take the places of partial chunks in a group's buffer: partials, W64 halves, and the partials and finals held
for the next round; two halves of a chunk take one place. -/
def Group.places (x : Group) : List ChunkKey :=
  (x.partials.map Chunk.key ++ x.halves.map Chunk.key ++
    (x.later.filter (fun p => p.type != 12)).map Pkt.colKey).eraseDups

/-- The group has room for a packet: 64 partial chunks (R405). A final of the current round takes no place. -/
def State.colRoom (s : State) (p : Pkt) : Bool :=
  match s.groupOfPkt p with
  | none => true
  | some g =>
    let l := (s.group g).places
    !(p.type == 10 || (p.type == 11 && s.aheadOf g p)) || !((s.hosted g).contains p.colRank) || l.contains p.colKey ||
      decide (l.length < 64)

/-- The elements of a packet. -/
def Pkt.elems (p : Pkt) (w : Nat) : List TElem :=
  (List.range (p.payload.length / w)).map (fun k =>
    { val := BitVec.ofNat 64 (leNat ((p.payload.drop (w * k)).take w)), poison := p.poison, sat := false })

/-- A partial arrives: FP32 whole, W64 in two halves. -/
def State.takePartial (s : State) (g : Nat) (p : Pkt) : State :=
  let x := s.group g
  let c : Chunk := ⟨p.colIdx, p.colRank, p.colRound, p.colSub, p.elems (if s.groupExact g then 8 else 4)⟩
  if s.groupExact g then
    match x.halves.find? (fun d => d.same c && d.sub != c.sub) with
    | some d =>
      let whole := if d.sub = 0 then d.elems ++ c.elems else c.elems ++ d.elems
      s.setGroup g { x with
        halves := x.halves.filter (fun e => !(e.same c))
        partials := x.partials ++ [{ c with sub := 0, elems := whole }] }
    | none => s.setGroup g { x with halves := x.halves ++ [c] }
  else s.setGroup g { x with partials := x.partials ++ [c] }

/-- A packet for a rank that this module does not host is relayed in its direction of travel (R413). -/
def State.relay (s : State) (p : Pkt) : State :=
  s.queuePkt p.dflow.toNat { p with head := 0, lane := false }

/-- A packet of the current round, or of an earlier one whose chains still pass, reaches its rank. -/
def State.colTake (s : State) (g : Nat) (p : Pkt) : State :=
  let c : Chunk := ⟨p.colIdx, p.colRank, p.colRound, 0, p.elems (if p.type = 12 then 1 else 4)⟩
  if p.type = 10 then s.takePartial g p
  else if p.type = 11 then
    let s1 := s.writeResult g c
    if s.nextRank g c.idx c.rank = s.shardOf g c.idx then s1 else s1.hop g c.rank .final c 64
  else if p.colFin then
    let s1 := s.setGroup g ((s.group g).arrive .expFinal c)
    if s.nextRank g c.idx c.rank = s.shardOf g c.idx then s1 else s1.hop g c.rank .expFinal c 64
  else s.setGroup g ((s.group g).arrive .expPart c)

/-- Packets held for a round are taken when it is the current one: it begins with them, under the plan that the axis then gives
(R397, R413). -/
def State.takeLater (s : State) (g : Nat) : State :=
  let x := s.group g
  let now := x.later.filter (fun p => !(s.aheadOf g p))
  if now.isEmpty then s
  else
    now.foldl (fun s p => s.colTake g p)
      ((s.setGroup g { x with later := x.later.filter (fun p => s.aheadOf g p) }).choosePlan g)

/-- Work until nothing more can be done; residue mismatches strike the first addition. When a round ends, the packets held for the
next one begin it. -/
def State.colRun (s : State) (g resid : Nat) : Nat → State
  | 0 => s
  | fuel + 1 =>
    if s.armed g then
      if s.groupOp g ≠ 3 ∧ s.roundDone g then ((s.endRound g).takeLater g).colRun g resid fuel
      else
        match s.nextWork g with
        | some w => (s.doWork g w resid).colRun g (if w.adds then 0 else resid) fuel
        | none => s
    else s

/-- Steps that one event can set off: at most four for each rank and buffered chunk. -/
def colFuel : Nat := 65536

/-- A reduction packet is taken, held for its round, or relayed. -/
def State.colReduce (s : State) (g : Nat) (p : Pkt) (resid : Nat) : State :=
  if !((s.hosted g).contains p.colRank) then s.relay p
  else if s.aheadOf g p then
    let x := s.group g
    s.setGroup g { x with later := x.later ++ [p] }
  else ((s.choosePlan g).colTake g p).colRun g resid colFuel

/-- Bytes of a dispatch entry (R407). -/
def State.entryBytes (s : State) (g : Nat) : Nat := 32 + 32 * s.fld .COL_GRP_DISP_ROW32 g

/-- A part of a dispatch entry is written. -/
def State.colRow (s : State) (g : Nat) (p : Pkt) : State :=
  s.memWrite (s.colAcc g)
    (s.fld .COL_GRP_RES_RES_ADDR g + bitsOf p.addr.toNat 31 0 * s.entryBytes g + 32 * bitsOf p.addr.toNat 47 32)
    (p.payload.map (fun b => ⟨b, p.poison⟩))

/-- The group that a record of class 0x77 names: the first whose flow the packet carries, armed or not (DESIGN CHOICE:
notes/assumptions/166.md). -/
def State.strayGroup (s : State) (p : Pkt) : Nat := ((List.range 256).find? (s.colMatch p)).getD 0

/-- The rank and the chunk or entry that the record names; a COL_ROW carries its entry, and its flow the rank (R407, R414). -/
def State.strayAt (s : State) (p : Pkt) (g : Nat) : Nat × Nat :=
  if p.type = 13 then ((p.dflow.toNat + 16384 - s.fld .COL_GRP_CFG1_FLOW_P g) % 16384 % 64, bitsOf p.addr.toNat 31 0)
  else (p.colRank, p.colIdx)

/-- A collective packet in its flow's order: dropped with class 0x77 when no armed group takes it. -/
def State.colDeliver (s : State) (p : Pkt) (resid : Nat) : State :=
  match s.groupOfPkt p with
  | none =>
    let g := s.strayGroup p
    let w := s.strayAt p g
    s.raiseCtx 0x77 p.ctx.toNat (s.colUnit g) (colDetail g w.1 w.2)
  | some g =>
    let s1 := s.count 3 (if p.type = 10 ∨ p.type = 11 then 1 else 0)
    if p.type = 13 then s1.colRow g p else s1.colReduce g p resid

end Sys2Proof.Machine
end

