-- ==== Sys2Proof/Machine/Flows.lean ====
section
/-! DEFINITION. Flows (R373-R375, R201-R203): forming and injecting packets, the input log's writer (R457, R458), arrival,
reordering and delivery, acknowledgement and resending. -/

namespace Sys2Proof.Machine

/-! ### The input log (R258, R457, R458) -/

/-- The accessor of the log writer or of the mirror writer, at a port (R257). -/
def roleAcc (role : Role) (c port : Nat) : Accessor := { Accessor.of (linkUnit port) (some c) with role := role }

/-- A link engine's access for a context; `late` when far memory is not going to complete its next access (R255). -/
def State.linkAcc (s : State) (port c : Nat) : Accessor :=
  { Accessor.of (linkUnit port) (some c) with late := s.memCtl.farLate.getLsbD port }

/-- A link engine's access has been made: one to far memory has used up its timeout. -/
def State.linkDone (s : State) (port a : Nat) : State :=
  match s.region a with
  | .far _ => { s with memCtl := { s.memCtl with farLate := s.memCtl.farLate &&& ~~~(1#8 <<< port) } }
  | _ => s

def State.logBase (s : State) : Nat := s.fld .HBM_LOG_REGION_BASE_PG 0 * 2 ^ 21

def State.logBytes (s : State) : Nat := s.fld .HBM_LOG_REGION_SIZE_PG 0 * 2 ^ 21

/-- A page of the log region that the writer skips: a hole, or a retired page (R252, R259). -/
def State.logHole (s : State) (pg : Nat) : Bool :=
  let cls := s.accClass (roleAcc .log 0 0) (s.logBase + pg * 2 ^ 21)
  cls == 0x40 || cls == 0x44

/-- Bytes of the region that are no holes. -/
def State.logRoom (s : State) : Nat :=
  ((List.range (s.fld .HBM_LOG_REGION_SIZE_PG 0)).filter (fun k => !(s.logHole k))).length * 2 ^ 21

/-- The next place of a record of n bytes from a position on: within the region, not on a hole. -/
def State.logPlace (s : State) (n : Nat) : Nat → Nat → Nat
  | 0, pos => pos
  | fuel + 1, pos =>
    if s.logBytes < pos + n then s.logPlace n fuel 0
    else if s.logHole (pos / 2 ^ 21) then s.logPlace n fuel ((pos / 2 ^ 21 + 1) * 2 ^ 21)
    else if s.logHole ((pos + n - 1) / 2 ^ 21) then s.logPlace n fuel (((pos + n - 1) / 2 ^ 21 + 1) * 2 ^ 21)
    else pos

/-- The bytes of a log record. -/
def logBody (mb port mtime : Nat) (p : Pkt) : List PByte :=
  let pad := (32 - p.payload.length % 32) % 32
  clean (leBytes 4 mb ++ leBytes 4 p.seq.toNat ++ leBytes 2 p.sflow.toNat ++ leBytes 2 (p.ctx.toNat + port % 8 * 2 ^ 12) ++
    leBytes 2 p.payload.length ++ leBytes 2 p.epoch.toNat ++ leBytes 8 mtime ++ leBytes 8 0) ++
    p.payload.map (fun b => ⟨b, p.poison⟩) ++ clean (List.replicate pad 0)

/-- A packet that the log records. -/
def State.logged (s : State) (p : Pkt) : Bool :=
  s.flag .HBM_LOG_CTRL_ENABLE 0 && p.ctx.toNat == s.fld .HBM_LOG_CTRL_CTX 0 &&
    (p.type == 0 || p.type == 1 || p.type == 4 || p.type == 13)

/-- A record that would overwrite a protected one: OVF, and class 0x91 once in a step (R458). -/
def State.logOverflow (s : State) (flow mb : Nat) : State :=
  if s.logOvf then s.setFlag .HBM_LOG_STATUS_OVF 0 true
  else
    (({ s with logOvf := true } : State).setFlag .HBM_LOG_STATUS_OVF 0 true).raiseCtx 0x91 (s.fld .HBM_LOG_CTRL_CTX 0)
      (linkUnit 0) (flow + mb % 2 ^ 32 * 2 ^ 32)

/-- Record a packet at its first injection by a port. -/
def State.logWrite (s : State) (p : Pkt) (port : Nat) : State :=
  if s.logged p then
    let mb := (s.sendFlow p.sflow.toNat).sigs
    let n := 32 * p.units
    let pos := s.logPlace n (s.fld .HBM_LOG_REGION_SIZE_PG 0 + 2) s.logPos
    let used := s.logUsed + n + (if s.logPos ≤ pos then pos - s.logPos else pos + s.logBytes - s.logPos)
    if s.logRoom < used then s.logOverflow p.sflow.toNat mb
    else
      let s1 := ((s.memWrite (roleAcc .log p.ctx.toNat port) (s.logBase + pos) (logBody mb port s.now p)).count 6 n).satAdd
        .HBM_LOG_STATUS_RECORDS 0 1
      { s1 with logRecs := s1.logRecs ++ [⟨pos, n, mb, p⟩], logPos := pos + n, logUsed := used }
  else s

/-! ### Forming packets (R141, R152, R158, R361) -/

/-- The bytes at the front of an egress queue, up to n. -/
def frontBytes : Nat → List EItem → List PByte
  | 0, _ => []
  | n + 1, .byte b :: t => b :: frontBytes n t
  | _, _ => []

/-- A packet and what is left of an egress queue: a SIGNAL, or up to 4,096 bytes with the packet end that follows them. -/
def formPacket (f ctx : Nat) (pos : Nat) (l : List EItem) : Option (Pkt × List EItem) :=
  let base := { writePkt f pos [] false ctx with type := 1 }
  match l with
  | [] => none
  | .signal vid v :: t => some ({ base with type := 4, vc := 0, len := vid, addr := v }, t)
  | _ =>
    let b := frontBytes 4096 l
    let rest := l.drop b.length
    let eop := match rest with
      | .eop :: _ => true
      | _ => false
    some ({ base with payload := vals b, len := BitVec.ofNat 16 b.length, poison := anyPoison b, eop := eop },
      if eop then rest.drop 1 else rest)

/-- The egress queue, of a Tiller, that feeds a send flow and has something to send. -/
def State.egressOf (s : State) (f : Nat) : Option (Nat × Nat) :=
  s.tillers.findSome? (fun e =>
    ([24, 25, 26, 27].find? (fun q =>
      s.qkind e.1 q == .egress && descMode (s.desc e.1 q) == 0 && descFlow (s.desc e.1 q) == f &&
        !(Tbl.get [] e.2.egress q).isEmpty)).map (fun q => (e.1, q)))

/-- Where the next packet of a flow comes from. -/
inductive PktFrom where
  | replay | queued
  | egress (t q : Nat) (rest : List EItem)

/-- The next packet of a send flow: a replayed record first, then a formed packet, then the bound egress queue. -/
def State.nextPkt (s : State) (f : Nat) : Option (Pkt × PktFrom) :=
  let x := s.sendFlow f
  match x.replayQ, x.queue with
  | p :: _, _ => some (p, .replay)
  | [], p :: _ => some (p, .queued)
  | [], [] =>
    match s.egressOf f with
    | none => none
    | some (t, q) =>
      (formPacket f x.ctx.toNat x.streamPos (Tbl.get [] (s.til t).egress q)).map
        (fun r => (r.1, .egress t q r.2))

/-- Take the packet from its source. -/
def State.takePkt (s : State) (f : Nat) (p : Pkt) (w : PktFrom) : State :=
  let x := s.sendFlow f
  match w with
  | .replay => s.setSendFlow f { x with replayQ := x.replayQ.drop 1 }
  | .queued => s.setSendFlow f { x with queue := x.queue.drop 1 }
  | .egress t q rest =>
    let y := s.til t
    (s.setTil t ({ y with egress := Tbl.put y.egress q rest } : Tiller).admitSignals).setSendFlow f { x with
      streamPos := x.streamPos + p.payload.length }

/-! ### Injection (R373, R374, R464, R467) -/

/-- Unacknowledged bytes of a send flow, counted as in R364. -/
def SendFlow.open' (x : SendFlow) : Nat := (x.retain.map (fun p => 32 * p.2.units)).sum

/-- The packet as the flow sends it. -/
def State.addressed (s : State) (f : Nat) (p : Pkt) : Pkt :=
  let x := s.sendFlow f
  s.originate { p with
    dst := x.node, dflow := x.peer, sflow := BitVec.ofNat 14 f, ctx := x.ctx, seq := BitVec.ofNat 32 x.next,
    epoch := BitVec.ofNat 16 (s.fld .CTX_CFG_EPOCH x.ctx.toNat) }

/-- The flow's state after it has sent a packet: the next SEQ, the retained copy, the count of signals. -/
def State.flowSent (s : State) (f : Nat) (p : Pkt) : State :=
  let x := s.sendFlow f
  s.setSendFlow f { x with
    next := (x.next + 1) % 2 ^ 32
    retain := x.retain ++ [(p.seq.toNat, p)]
    lastAck := if x.retain.isEmpty then s.now else x.lastAck
    sigs := if p.type = 4 then x.sigs + 1 else x.sigs }

/-- A withheld packet is logged and goes no further; a withheld SIGNAL counts against SKIP. -/
def State.withhold (s : State) (f : Nat) (p : Pkt) : State :=
  let x := s.sendFlow f
  (s.logWrite p 0).setSendFlow f { x with skip := if p.type = 4 then x.skip - 1 else x.skip }

/-- The flow may inject. -/
def State.mayInject (s : State) (f : Nat) : Bool :=
  let x := s.sendFlow f
  s.linksRun && !(s.flag .FAB_CTRL_INJ_HOLD 0) && x.opened && !x.failed

/-! ### Delivery (R372, R374) -/

def State.recvFlow (s : State) (d : Nat) : RecvFlow := Tbl.get RecvFlow.reset s.recvFlows d

def State.setRecvFlow (s : State) (d : Nat) (x : RecvFlow) : State := { s with recvFlows := Tbl.put s.recvFlows d x }

/-- The ingress queue bound to a receive flow, of a Tiller whose resident program has read its descriptors: between two replays it
takes the bytes of the next one (R167, R395). -/
def State.ingressOf (s : State) (d : Nat) : Option (Nat × Nat) :=
  s.tillers.findSome? (fun e =>
    ([28, 29, 30, 31].find? (fun q => s.flag .TIL_PROG_IMAGE_NINST e.1 && e.2.desc.any (fun p => p.1 == q) &&
      s.qkind e.1 q == .ingress && descMode (s.desc e.1 q) == 0 && descFlow (s.desc e.1 q) == d)).map (fun q => (e.1, q)))

/-- The packet can be delivered now: its bytes enter an ingress queue with room, or its group has room. -/
def State.canDeliver (s : State) (p : Pkt) : Bool :=
  if p.type = 1 then
    match s.ingressOf p.dflow.toNat with
    | none => false
    | some (t, q) => decide ((Tbl.get [] (s.til t).ingress q).length + p.payload.length ≤ 16384)
  else if 10 ≤ p.type then s.colRoom p
  else true

/-- The payload with its poison. -/
def Pkt.bytes (p : Pkt) : List PByte := p.payload.map (fun b => ⟨b, p.poison⟩)

/-- The node ID of this module's -Z neighbour. -/
def State.minusZ (s : State) : Nat :=
  let c := s.coord 2
  s.selfNode - c * 2 ^ 12 + (c + s.axisLen 2 - 1) % s.axisLen 2 * 2 ^ 12

/-- A WRITE of the incoming mirror stream: it comes from the -Z neighbour, whose buddy this module is (R460, R463; DEDUCED:
notes/assumptions/145.md), and lands in the enabled mirror region: the block and the offset within it (R461). -/
def State.mirrorBlock (s : State) (p : Pkt) : Option (Nat × Nat) :=
  let a := p.addr.toNat
  let b := s.fld .HBM_MIR_REGION_BASE_PG 0 * 2 ^ 21
  if p.src.toNat = s.minusZ ∧ s.flag .HBM_MIR_REGION_ENABLE 0 ∧ b ≤ a ∧ a < b + s.fld .HBM_MIR_REGION_SIZE_PG 0 * 2 ^ 21 then
    some ((a - b) / 65536, (a - b) % 65536)
  else none

/-- The payload is written at the packet's device address. -/
def State.linkWrites (s : State) (port : Nat) (p : Pkt) : State :=
  (s.memWrite (s.linkAcc port p.ctx.toNat) p.addr.toNat p.bytes).linkDone port p.addr.toNat

/-- A WRITE lands: at its device address, or in the mirror writer's receive SRAM. -/
def State.writeLands (s : State) (port : Nat) (p : Pkt) : State :=
  match s.mirrorBlock p with
  | some (blk, off) =>
    let old := (Tbl.get (0, []) s.mirror.rx blk).2
    let cells := (List.range p.payload.length).map (fun k => (off + k, (⟨p.payload.getD k 0, p.poison⟩ : PByte)))
    { s with mirror := { s.mirror with rx := Tbl.put s.mirror.rx blk (p.dflow.toNat, old ++ cells) } }
  | none => s.linkWrites port p

/-- A stream's bytes enter the ingress queue. -/
def State.streamLands (s : State) (p : Pkt) : State :=
  match s.ingressOf p.dflow.toNat with
  | none => s
  | some (t, q) =>
    let y := s.til t
    let x := s.recvFlow p.dflow.toNat
    (s.setTil t { y with ingress := Tbl.put y.ingress q (Tbl.get [] y.ingress q ++ p.bytes) }).setRecvFlow p.dflow.toNat
      { x with tailBytes := x.tailBytes + p.payload.length }

/-- The pieces of a READ_RESP: at most 4,096 bytes each. -/
def respPieces (f ctx : Nat) : Nat → Nat → List PByte → List Pkt
  | 0, _, _ => []
  | fuel + 1, addr, b =>
    if b.isEmpty then []
    else
      let h := b.take 4096
      { writePkt f addr (vals h) (anyPoison h) ctx with type := 3, vc := 1 } :: respPieces f ctx fuel (addr + 4096) (b.drop 4096)

/-- A READ_REQ is served: its bytes are read and sent to the reply flow. -/
def State.readServed (s : State) (port : Nat) (p : Pkt) : State :=
  let n := leNat p.payload
  let f := Config.readRequest 0 n % 16384
  let len := Config.readRequest 2 n
  let r := s.memRead (s.linkAcc port p.ctx.toNat) p.addr.toNat len
  (respPieces f p.ctx.toNat (len / 4096 + 1) (Config.readRequest 1 n) r.2).foldl (fun s q => s.queuePkt f q)
    (r.1.linkDone port p.addr.toNat)

/-- A SIGNAL in its turn waits for its release (R202). -/
def State.signalHeld (s : State) (p : Pkt) : State :=
  let x := s.recvFlow p.dflow.toNat
  s.setRecvFlow p.dflow.toNat { x with held := x.held ++ [{ p with since := x.tailBytes }] }

/-- What delivery of a packet does, by its type. -/
def State.land (s : State) (port : Nat) (p : Pkt) (resid : Nat) : State :=
  match p.type with
  | 0 => s.writeLands port p
  | 1 => s.streamLands p
  | 2 => s.readServed port p
  | 3 => s.linkWrites port p
  | 4 => s.signalHeld p
  | _ => s.colDeliver p resid

/-- The gap timer of a receive flow: it runs while packets are parked and the expected one is missing. -/
def RecvFlow.gap (x : RecvFlow) (now : Nat) (moved : Bool) : RecvFlow :=
  if x.parked.isEmpty || x.parked.any (fun p => p.1 == x.expected) then { x with gapAt := none }
  else
    match x.gapAt with
    | some t => { x with gapAt := some (if moved then now else t) }
    | none => { x with gapAt := some now }

/-- The expected packet is delivered. -/
def State.deliverOne (s : State) (port : Nat) (p : Pkt) (resid : Nat) : State :=
  let d := p.dflow.toNat
  let x := s.recvFlow d
  let s1 := s.setRecvFlow d (RecvFlow.gap { x with
    expected := (x.expected + 1) % 2 ^ 32
    sinceAck := x.sinceAck + 32 * p.units
    parked := x.parked.filter (fun e => e.1 != p.seq.toNat) } s.now true)
  s1.land port p resid

/-- Deliver every parked packet that follows in sequence and can be delivered. -/
def State.drainFlow (s : State) (port d : Nat) : Nat → State
  | 0 => s
  | fuel + 1 =>
    let x := s.recvFlow d
    match x.parked.find? (fun p => p.1 == x.expected) with
    | none => s
    | some (_, p) => if s.canDeliver p then (s.deliverOne port p 0).drainFlow port d fuel else s

/-- A packet of a flow is refused with class 0x69 (R374). -/
def State.refusePkt (s : State) (port : Nat) (p : Pkt) : State :=
  (s.dropPkt).raiseNo 0x69 (linkUnit port) (p.dflow.toNat + p.seq.toNat * 2 ^ 32 + p.ctx.toNat * 2 ^ 64)

/-- The event of a packet that arrives at its destination (R530). -/
def State.traceGot (s : State) (port : Nat) (p : Pkt) (dup : Bool) : State :=
  if s.tracesPkt p then
    s.trace 7 p.ctx.toNat (linkUnit port) p.dflow.toNat
      (p.seq.toNat + p.src.toNat * 2 ^ 32 + port * 2 ^ 56 + (if dup then 2 ^ 59 else 0)) (p.traceC p.sflow.toNat)
  else s

/-- Park a packet. -/
def State.park (s : State) (p : Pkt) : State :=
  let x := s.recvFlow p.dflow.toNat
  s.setRecvFlow p.dflow.toNat (RecvFlow.gap { x with parked := x.parked ++ [(p.seq.toNat, p)] } s.now false)

/-- A packet of an old epoch is dropped; a SIGNAL among them counts as a dropped signal (R203, R297). -/
def State.dropEpoch (s : State) (p : Pkt) : State :=
  if p.type = 4 then s.dropPkt.dropSignal else s.dropPkt

/-- A packet reaches its receive flow (R374). Every copy that arrives is traced; DUP marks a duplicate (R531). -/
def State.flowArrive (s : State) (port : Nat) (p : Pkt) (resid : Nat) : State :=
  let d := p.dflow.toNat
  let x := s.recvFlow d
  let dist := (p.seq.toNat + 2 ^ 32 - x.expected) % 2 ^ 32
  let mine := x.opened && x.ctx == p.ctx && p.epoch.toNat == s.fld .CTX_CFG_EPOCH p.ctx.toNat
  let dup := decide (2 ^ 31 ≤ dist) || x.parked.any (fun e => e.1 == p.seq.toNat)
  let fits := decide ((x.parked.map (fun e => 32 * e.2.units)).sum + 32 * p.units ≤ x.win)
  let s0 := s.traceGot port p (mine && dup)
  if !x.opened || x.ctx != p.ctx then s0.refusePkt port p
  else if p.epoch.toNat ≠ s.fld .CTX_CFG_EPOCH p.ctx.toNat then s0.dropEpoch p
  else
    if dup then s0.satAdd .FAB_CNT0_DUPS 0 1
    else if dist = 0 ∧ s.canDeliver p then (s0.deliverOne port p resid).drainFlow port d (x.parked.length + 1)
    else if fits then s0.park p
    else s0.refusePkt port p

/-! ### Answers to a send flow (R370, R375) -/

/-- An ACK frees the retained packets up to a SEQ. -/
def State.ackGot (s : State) (f n : Nat) : State :=
  let x := s.sendFlow f
  let gone := fun (q : Nat) => decide ((n + 2 ^ 32 - q) % 2 ^ 32 < 2 ^ 31)
  if x.retain.any (fun p => gone p.1) then
    s.setSendFlow f { x with
      acked := (n + 1) % 2 ^ 32
      retain := x.retain.filter (fun p => !(gone p.1))
      resends := x.resends.filter (fun p => !(gone p.1))
      lastAck := s.now }
  else s

/-- A retained packet is sent again, or its flow fails when it has been resent RETRY_MAX times. -/
def State.resendPkt (s : State) (f q : Nat) (p : Pkt) : State :=
  let x := s.sendFlow f
  let n := Tbl.get 0 x.resends q
  if s.fld .FAB_TIMER_RETRY_MAX 0 ≤ n then s.failFlow f 0x64 (f + q * 2 ^ 32) (linkUnit 0)
  else
    let s1 := s.setSendFlow f { x with resends := Tbl.put x.resends q (n + 1) }
    (s1.satAdd .FAB_CNT0_RESENDS 0 1).enqueuePkt 8 { p with vc := typeVc p.type, lane := false, head := 0 }

/-- A NAK: the named packets are resent, with class 0x63. -/
def State.nakGot (s : State) (f first mask : Nat) : State :=
  let x := s.sendFlow f
  let named := fun (q : Nat) =>
    let k := (q + 2 ^ 32 - first) % 2 ^ 32
    k == 0 || (decide (k ≤ 32) && bitAt mask (k - 1))
  let l := x.retain.filter (fun p => named p.1)
  if x.failed || l.isEmpty then s
  else
    let s1 := s.raiseCtx 0x63 x.ctx.toNat (linkUnit 0) (f + first * 2 ^ 32)
    l.foldl (fun s p => if (s.sendFlow f).failed then s else s.resendPkt f p.1 p.2) s1

/-- UNREACH fails the flow that it names. -/
def State.unreachGot (s : State) (f : Nat) : State :=
  let x := s.sendFlow f
  if x.opened && !x.failed then s.failFlow f 0x60 (f + x.node.toNat * 2 ^ 32) (linkUnit 0) else s

/-- A packet for this module is consumed (R372). -/
def State.eject (s : State) (port : Nat) (p : Pkt) (resid : Nat) : State :=
  match p.type with
  | 5 => s.ackGot p.dflow.toNat (p.addr.toNat % 2 ^ 32)
  | 6 => s.nakGot p.dflow.toNat (p.addr.toNat % 2 ^ 32) (p.addr.toNat / 2 ^ 32)
  | 7 => s.unreachGot p.dflow.toNat
  | _ => if flowType p.type then s.flowArrive port p resid else s

end Sys2Proof.Machine
end

