-- ==== Sys2Proof/Machine/Routing.lean ====
section
/-! DEFINITION. The commands of routing and flows (R359-R390, R201-R203): injection, forwarding, escape and aging, packets
that arrive, timers, and the flow tables. -/

namespace Sys2Proof.Machine

/-! ### Forwarding (R366-R371, R378) -/

/-- The rank of a data buffer (R371). -/
def bufRank (b : Nat) : Nat := if b = 6 then 5 else if b = 5 then 6 else b

/-- A packet has been ready and able to move for AGE_NS (R371). -/
def State.aged (s : State) (p : Pkt) : Bool := p.able.any (fun t => decide (t + s.fld .FAB_CTRL_AGE_NS 0 ≤ s.now))

/-- The head packet of buffer b2 of input inp2 goes first on output o before a packet of buffer b of input inp: an aged one before
one that is not, otherwise by rank, and within a rank transit before this module's own packets, which are those of inputs 8
(resent) and 9 (to be injected). -/
def State.before (s : State) (o inp b : Nat) (p : Pkt) (inp2 b2 : Nat) : Bool :=
  match (s.inbuf (bufKey inp2 b2)).head? with
  | none => false
  | some q =>
    if s.aged p != s.aged q then s.aged q && (s.exitOf inp2 q).map (·.1) == some o
    else
      (decide (bufRank b2 < bufRank b) || (bufRank b2 == bufRank b && decide (inp2 < 8) && decide (8 ≤ inp))) &&
        q.dst.toNat != s.selfNode && (s.exitOf inp2 q).map (·.1) == some o

/-- Another head packet is served before this one on its output (R371). VC0 is not ranked. -/
def State.outranked (s : State) (o inp b : Nat) (p : Pkt) : Bool :=
  decide (2 ≤ b) && (List.range 9).any (fun i => (List.range 7).any (fun c =>
    decide (2 ≤ c) && !(i == inp && c == b) && s.before o inp b p i c))

/-- The head packet leaves its buffer: its units are freed. -/
def State.popHead (s : State) (inp b : Nat) (p : Pkt) : State :=
  (s.setInbuf (bufKey inp b) ((s.inbuf (bufKey inp b)).drop 1)).freeUnits inp b p.units

/-- A packet that leaves by a port. -/
def State.passOn (s : State) (inp b : Nat) (p : Pkt) (o vc : Nat) (lane : Bool) : State :=
  let s1 := ((s.popHead inp b p).sendOn o p vc lane).rrNext (s.bestPorts p) p.vc o
  if inp = 8 then s1.traceSent p o true else s1

/-- The head packet of a buffer goes on: ejected, dropped, or sent when nothing goes before it. -/
def State.serve (s : State) (inp b : Nat) (aging : Bool) : State :=
  match (s.inbuf (bufKey inp b)).head? with
  | none => s
  | some p =>
    if p.dst.toNat = s.selfNode then (s.popHead inp b p).eject (min inp 7) p 0
    else
      match s.absentAxis p with
      | some a => (s.popHead inp b p).unreachable p a
      | none =>
        if s.stranded p then (s.popHead inp b p).strand p inp
        else
          match s.exitOf inp p with
          | none => s
          | some (o, lane) => if !aging && s.outranked o inp b p then s else s.passOn inp b p o p.vc lane

def execPacketForward (inp : Fin 9) (buf : Fin 7) (s : State) : Host.Outcome State Fault Refusal :=
  .next (if s.linksRun then s.serve inp buf false else s)

/-- A head packet that has been ready for AGE_NS is served ahead of the order. -/
def State.doAging (s : State) (inp b : Nat) : State :=
  match (s.inbuf (bufKey inp b)).head? with
  | none => s
  | some p => if s.linksRun && s.aged p then s.serve inp b true else s

def execAgingServe (inp : Fin 9) (buf : Fin 7) (s : State) : Host.Outcome State Fault Refusal := .next (s.doAging inp buf)

/-- A head packet on VC1 to VC3 that has found no productive port with credit for ESC_WAIT_NS moves into VC4 lane 0 on the
dimension-ordered port (R369). -/
def State.doEscape (s : State) (inp b : Nat) : State :=
  match (s.inbuf (bufKey inp b)).head? with
  | none => s
  | some p =>
    if s.linksRun && decide (1 ≤ p.vc) && decide (p.vc ≤ 3) && p.dst.toNat != s.selfNode && s.blocked p &&
        p.stuck.any (fun t => decide (t + s.fld .FAB_CTRL_ESC_WAIT_NS 0 ≤ s.now)) then
      match s.orderedPort p with
      | none => s
      | some o => if s.canSend o 5 p.units then s.passOn inp b p o 4 false else s
    else s

def execEscapeMove (inp : Fin 9) (buf : Fin 7) (s : State) : Host.Outcome State Fault Refusal := .next (s.doEscape inp buf)

/-! ### Injection (R371, R373) -/

/-- The packet leaves for its flow: sent on a port where no packet goes before it, or delivered here. -/
def State.inject (s : State) (f : Nat) (p : Pkt) (w : PktFrom) : State :=
  let log := fun (s : State) (port : Nat) => match w with
    | .replay => s
    | _ => s.logWrite p port
  if p.dst.toNat = s.selfNode then
    (((log (s.takePkt f p w) 0).flowSent f p).traceSent p 0 false).eject 0 p 0
  else
    match (if (s.aliasOf (s.sendFlow f).node.toNat).isSome then none else s.absentAxis p) with
    | some _ =>
      ((s.takePkt f p w).dropPkt).failFlow f 0x60 (f + p.dst.toNat * 2 ^ 32) (linkUnit 0)
    | none =>
      match s.exitOf 8 p with
      | none => s
      | some (o, lane) =>
        if s.outranked o 9 (bufIndex p.vc lane) p then s
        else
          ((((log (s.takePkt f p w) o).flowSent f p).sendOn o p p.vc lane).rrNext (s.bestPorts p) p.vc o).traceSent p o
            false

/-- A send flow injects its next packet while the unacknowledged bytes stay within WIN. -/
def State.doInject (s : State) (f : Nat) : State :=
  if s.mayInject f then
    match s.nextPkt f with
    | none => s
    | some (p0, w) =>
      let x := s.sendFlow f
      let p := s.addressed f p0
      if 0 < x.skip then (s.takePkt f p w).withhold f p
      else if x.win < x.open' + 32 * p.units then s
      else s.inject f p w
  else s

def execPacketInject (flow : BitVec 14) (s : State) : Host.Outcome State Fault Refusal := .next (s.doInject flow.toNat)

/-! ### Arrival (R363, R379) -/

/-- A packet at its destination leaves the input buffer at once; any other waits there to be forwarded. -/
def State.arrive (s : State) (port type : Nat) (hdr : BitVec 256) (payload : List Byte) (resid : Nat) : State :=
  s.checkPkt port type hdr payload (fun s p =>
    if p.dst.toNat = s.selfNode then (s.freePkt port p).eject port p resid else s.enqueuePkt port p)

def execWrite (p : Fin 8) (hdr : BitVec 256) (payload : List Byte) (s : State) : Host.Outcome State Fault Refusal :=
  .next (s.arrive p 0 hdr payload 0)

def execStream (p : Fin 8) (hdr : BitVec 256) (payload : List Byte) (s : State) : Host.Outcome State Fault Refusal :=
  .next (s.arrive p 1 hdr payload 0)

def execReadReq (p : Fin 8) (hdr : BitVec 256) (payload : List Byte) (s : State) : Host.Outcome State Fault Refusal :=
  .next (s.arrive p 2 hdr payload 0)

def execReadResp (p : Fin 8) (hdr : BitVec 256) (payload : List Byte) (s : State) : Host.Outcome State Fault Refusal :=
  .next (s.arrive p 3 hdr payload 0)

def execRemoteSignal (p : Fin 8) (hdr : BitVec 256) (payload : List Byte) (s : State) :
    Host.Outcome State Fault Refusal := .next (s.arrive p 4 hdr payload 0)

def execAck (p : Fin 8) (hdr : BitVec 256) (payload : List Byte) (s : State) : Host.Outcome State Fault Refusal :=
  .next (s.arrive p 5 hdr payload 0)

def execNak (p : Fin 8) (hdr : BitVec 256) (payload : List Byte) (s : State) : Host.Outcome State Fault Refusal :=
  .next (s.arrive p 6 hdr payload 0)

def execUnreach (p : Fin 8) (hdr : BitVec 256) (payload : List Byte) (s : State) : Host.Outcome State Fault Refusal :=
  .next (s.arrive p 7 hdr payload 0)

/-- LINE is consumed: it converts an axis in ring mode and goes on by the opposite port (R377). -/
def State.lineGot (s : State) (port : Nat) (p : Pkt) : State :=
  (s.freePkt port p).convertAxis (bitsOf p.addr.toNat 9 8) (bitsOf p.addr.toNat 5 0) (portTwin port)

def execLine (p : Fin 8) (hdr : BitVec 256) (payload : List Byte) (s : State) : Host.Outcome State Fault Refusal :=
  .next (s.checkPkt p 8 hdr payload (fun s q => s.lineGot p q))

/-! ### Signals in their turn (R202-R204) -/

/-- A signal leaves its reorder buffer: it is translated and sent to its bank, or dropped and counted when its epoch is no
longer the context's (R203). -/
def State.releaseSignal (s : State) (cache : Nat) (p : Pkt) : State :=
  if p.epoch.toNat = s.fld .CTX_CFG_EPOCH p.ctx.toNat then s.sendSignal cache p.ctx.toNat p.len.toNat p.addr.toNat
  else s.dropSignal

/-- The first held signal of a receive flow is released. -/
def State.doRelease (s : State) (d : Nat) : State :=
  let s0 := s.drainFlow 0 d ((s.recvFlow d).parked.length + 1)
  let x := s0.recvFlow d
  match x.held with
  | [] => s0
  | p :: t =>
    if s.linksRun then
      let s1 := s0.setRecvFlow d { x with
        held := t.map (fun q => { q with since := q.since - p.since })
        sigs := x.sigs + 1
        tailBytes := x.tailBytes - p.since }
      s1.releaseSignal (if x.tile then 14 else 12) p
    else s0

def execRemoteSignalRelease (flow : BitVec 14) (s : State) : Host.Outcome State Fault Refusal :=
  .next (s.doRelease flow.toNat)

/-! ### Timers (R375) -/

/-- The ACK of a receive flow: a quarter of WIN has been delivered, or ACK_US has passed with delivery. -/
def State.doAckTimer (s : State) (d : Nat) : State :=
  let s0 := s.drainFlow 0 d ((s.recvFlow d).parked.length + 1)
  let x := s0.recvFlow d
  let due := decide (x.win ≤ 4 * x.sinceAck) ||
    (decide (0 < x.sinceAck) && decide (x.ackAt + 1000 * s.fld .FAB_TIMER_ACK_US 0 ≤ s.now))
  if s.linksRun && x.opened && due then
    (s0.setRecvFlow d { x with sinceAck := 0, ackAt := s.now }).answer 5 x.node x.peer ((x.expected + 2 ^ 32 - 1) % 2 ^ 32)
  else s0

def execAckTimer (flow : BitVec 14) (s : State) : Host.Outcome State Fault Refusal := .next (s.doAckTimer flow.toNat)

/-- MASK of a NAK: the missing numbers after FIRST, up to the one behind the last that is parked (DEDUCED from the worked
example of R378: notes/assumptions/40.md). -/
def RecvFlow.nakMask (x : RecvFlow) : Nat :=
  let off := fun (q : Nat) => (q + 2 ^ 32 - x.expected) % 2 ^ 32
  let last := (x.parked.map (fun p => off p.1)).foldl max 0
  ((List.range 32).filter (fun k => decide (k ≤ last) && !(x.parked.any (fun p => off p.1 == k + 1)))).foldl
    (fun a k => a + 2 ^ k) 0

/-- A gap has lasted GAP_US: a NAK, repeated while the gap lasts. -/
def State.doGap (s : State) (d : Nat) : State :=
  let x := s.recvFlow d
  match x.gapAt with
  | none => s
  | some t =>
    if s.linksRun && x.opened && decide (t + 1000 * s.fld .FAB_TIMER_GAP_US 0 ≤ s.now) then
      (s.setRecvFlow d { x with gapAt := some s.now }).answer 6 x.node x.peer (x.expected + x.nakMask * 2 ^ 32)
    else s

def execGapTimeout (flow : BitVec 14) (s : State) : Host.Outcome State Fault Refusal := .next (s.doGap flow.toNat)

/-- No ACK progress for RTO_US: the oldest packet is resent, and the time runs anew. -/
def State.doRto (s : State) (f : Nat) : State :=
  let x := s.sendFlow f
  match x.retain with
  | [] => s
  | (q, p) :: _ =>
    if s.linksRun && !x.failed && decide (x.lastAck + 1000 * s.fld .FAB_TIMER_RTO_US 0 ≤ s.now) then
      (s.setSendFlow f { x with lastAck := s.now }).resendPkt f q p
    else s

def execRtoExpire (flow : BitVec 14) (s : State) : Host.Outcome State Fault Refusal := .next (s.doRto flow.toNat)

/-! ### The flow tables (R373, R389) -/

/-- FAB_FLOW_SEL as a write with GO leaves it. -/
def State.selFlow (s : State) (rx : Bool) (op f : Nat) : State :=
  ((s.setFlag .FAB_FLOW_SEL_DIR 0 rx).setFld .FAB_FLOW_SEL_OP 0 op).setFld .FAB_FLOW_SEL_FLOW 0 f

/-- Read fills FAB_FLOW_DATA and FAB_FLOW_SEQ. -/
def State.flowRead (s : State) (rx : Bool) (f : Nat) : State :=
  let x := s.sendFlow f
  let y := s.recvFlow f
  let fill := fun (s : State) (peer win ctx : Nat) (tile : Bool) (node next mark : Nat) =>
    ((((((s.setFld .FAB_FLOW_DATA_PEER_FLOW 0 peer).setFld .FAB_FLOW_DATA_WIN_M1 0 (win / 4096 - 1)).setFld
      .FAB_FLOW_DATA_CTX 0 ctx).setFlag .FAB_FLOW_DATA_TILE 0 tile).setFld .FAB_FLOW_DATA_PEER_NODE 0 node).setFld
        .FAB_FLOW_SEQ_NEXT 0 next).setFld .FAB_FLOW_SEQ_MARK 0 mark
  let s1 := s.selFlow rx 0 f
  if rx then fill s1 y.peer.toNat y.win y.ctx.toNat y.tile y.node.toNat y.expected y.parked.length
  else fill s1 x.peer.toNat x.win x.ctx.toNat x.tile x.node.toNat x.next ((x.acked + 2 ^ 32 - 1) % 2 ^ 32)

/-- A code for a write of FAB_FLOW_SEL with GO. -/
def selData (rx : Bool) (op f : Nat) : Nat := 2 ^ 63 + (if rx then 2 ^ 62 else 0) + op * 2 ^ 60 + f

def execFlowRead (org : Origin) (rx : Bool) (flow : BitVec 14) (s : State) : Host.Outcome State Fault Refusal :=
  .next (s.regCmd org .FAB_FLOW_SEL 0 (selData rx 0 flow.toNat) (fun s => s.flowRead rx flow.toNat))

/-- WIN of FAB_FLOW_DATA in bytes. -/
def State.newWin (s : State) : Nat := (s.fld .FAB_FLOW_DATA_WIN_M1 0 + 1) * 4096

/-- The open windows of a tile. -/
def State.winSum (s : State) (rx tile : Bool) : Nat :=
  if rx then (s.recvFlows.map (fun p => if p.2.opened && p.2.tile == tile then p.2.win else 0)).sum
  else (s.sendFlows.map (fun p => if p.2.opened && p.2.tile == tile then p.2.win else 0)).sum

/-- The open is refused: the entry is open, or its window does not fit the pool of its tile. -/
def State.openBad (s : State) (rx : Bool) (f : Nat) : Bool :=
  let tile := s.flag .FAB_FLOW_DATA_TILE 0
  let pool := 2 ^ 20 * (if rx then s.fld .FAB_POOL_REORD_MIB 0 else s.fld .FAB_POOL_RETAIN_MIB 0)
  (if rx then (s.recvFlow f).opened else (s.sendFlow f).opened) || decide (pool < s.winSum rx tile + s.newWin)

/-- Open an entry with FAB_FLOW_DATA: its sequence numbers are 0. -/
def State.flowOpen (s : State) (rx : Bool) (f : Nat) : State :=
  let s1 := s.selFlow rx 1 f
  let node := BitVec.ofNat 24 (s.fld .FAB_FLOW_DATA_PEER_NODE 0)
  let peer := BitVec.ofNat 14 (s.fld .FAB_FLOW_DATA_PEER_FLOW 0)
  let c := BitVec.ofNat 12 (s.fld .FAB_FLOW_DATA_CTX 0)
  let tile := s.flag .FAB_FLOW_DATA_TILE 0
  if s.openBad rx f then
    (s1.setFlag .FAB_FLOW_SEL_REFUSED 0 true).raiseNo 0x65 (linkUnit 0) (f + (if rx then 2 ^ 16 else 0))
  else if rx then
    s1.setRecvFlow f { RecvFlow.reset with opened := true, node := node, peer := peer, ctx := c, win := s.newWin, tile := tile,
                                           ackAt := s.now }
  else
    s1.setSendFlow f { SendFlow.reset with opened := true, node := node, peer := peer, ctx := c, win := s.newWin, tile := tile,
                                           lastAck := s.now }

def execFlowOpen (org : Origin) (rx : Bool) (flow : BitVec 14) (s : State) : Host.Outcome State Fault Refusal :=
  .next (s.regCmd org .FAB_FLOW_SEL 0 (selData rx 1 flow.toNat) (fun s => s.flowOpen rx flow.toNat))

/-- Close an entry. -/
def State.flowClose (s : State) (rx : Bool) (f : Nat) : State :=
  let s1 := s.selFlow rx 2 f
  if rx then (s1.discardMirror f).setRecvFlow f RecvFlow.reset else s1.setSendFlow f SendFlow.reset

def execFlowClose (org : Origin) (rx : Bool) (flow : BitVec 14) (s : State) : Host.Outcome State Fault Refusal :=
  .next (s.regCmd org .FAB_FLOW_SEL 0 (selData rx 2 flow.toNat) (fun s => s.flowClose rx flow.toNat))

end Sys2Proof.Machine
end

