-- ==== Sys2Proof/Machine/Collectives.lean ====
section
/-! DEFINITION. The commands of collective groups (R391-R409, R465): arming, chunks that a program pushes, collective
packets, and expert dispatch. -/

namespace Sys2Proof.Machine

/-! ### Arming -/

def execGroupArm (org : Origin) (g : BitVec 8) (s : State) : Host.Outcome State Fault Refusal :=
  .next (s.regCmd org .COL_GRP_CFG0 g.toNat (s.regVal .COL_GRP_CFG0 g.toNat % 2 ^ 63 + 2 ^ 63)
    (fun s => s.armGroup g.toNat))

def execGroupDisarm (org : Origin) (g : BitVec 8) (s : State) : Host.Outcome State Fault Refusal :=
  .next (s.regCmd org .COL_GRP_CFG0 g.toNat (s.regVal .COL_GRP_CFG0 g.toNat % 2 ^ 63) (fun s => s.disarmGroup g.toNat))

/-! ### A collective egress queue (R394, R395) -/

/-- What an egress queue holds, without packet ends: they have no effect on a collective queue. -/
def State.colItems (s : State) (t q : Nat) : List EItem :=
  (Tbl.get [] (s.til t).egress q).filter (fun i => i != .eop)

/-- Leave these items in an egress queue. -/
def State.setItems (s : State) (t q : Nat) (l : List EItem) : State :=
  let x := s.til t
  s.setTil t ({ x with egress := Tbl.put x.egress q l } : Tiller).admitSignals

/-- The bytes at the front of a queue, up to its first signal. -/
def itemBytes : List EItem → List PByte
  | .byte b :: t => b :: itemBytes t
  | _ => []

/-- The group that serves an egress queue now: of the queue's descriptor, armed, of the program's context, and of the kind
that the descriptor's mode needs. A queue whose group is not armed keeps its bytes (DEDUCED: notes/assumptions/41.md). -/
def State.colGroup (s : State) (t q mode : Nat) : Option Nat :=
  let d := s.desc t q
  let g := descGroup d
  if s.linksRun && s.present t && s.qkind t q == .egress && descMode d == mode && s.armed g &&
      s.groupCtx g == s.tctx t && ((s.groupOp g == 3) == (mode == 2)) then some g
  else none

/-- PUSH_ERR and class 0x71. -/
def State.pushErr (s : State) (g rank idx : Nat) : State :=
  (s.setFlag .COL_GRP_STATUS_PUSH_ERR g true).colRaise 0x71 g rank idx

/-! ### Chunks that are pushed (R395-R397, R404, R405) -/

/-- The hosted rank that the next push of a chunk belongs to: the one that has pushed it least often since ARM, the lowest
first; under AG the owner of its shard. -/
def State.pushRank (s : State) (g c : Nat) : Option Nat :=
  let times := fun (r : Nat) => Tbl.get 0 (s.group g).pushes (r * 2 ^ 22 + c)
  let l := if s.groupOp g = 1 then (s.hosted g).filter (· == s.shardOf g c) else s.hosted g
  let least := (l.map times).foldl min (2 ^ 32)
  l.find? (fun r => times r == least)

/-- Contribute a chunk, or ignore it as a push error: outside the group's chunks, of another owner, or repeated. -/
def State.pushChunk (s : State) (g c : Nat) (b : List PByte) (resid : Nat) : State :=
  if s.fld .COL_GRP_CFG1_CHUNKS g ≤ c then s.pushErr g 0 c
  else
    match s.pushRank g c with
    | none => s.pushErr g 0 c
    | some r =>
      let x := s.group g
      let n := Tbl.get 0 x.pushes (r * 2 ^ 22 + c)
      if s.round g < x.start + n then s.pushErr g r c
      else
        let e : Chunk := ⟨c, r, (x.start + n) % 256, 0, chunkElems b⟩
        let s1 := s.setGroup g { x with pushes := Tbl.put x.pushes (r * 2 ^ 22 + c) (n + 1), contrib := x.contrib ++ [e] }
        (s1.choosePlan g).colRun g resid colFuel

/-- The element index of the next element of a collective queue. -/
def State.elemAt (s : State) (t q : Nat) : Nat := descEbase (s.desc t q) + Tbl.get 0 (s.til t).taken q

/-- Take n bytes from the front of a collective queue. -/
def State.takeBytes (s : State) (t q n : Nat) : State :=
  let s1 := s.setItems t q ((s.colItems t q).drop n)
  let x := s1.til t
  s1.setTil t { x with taken := Tbl.put x.taken q (Tbl.get 0 x.taken q + n / 4) }

/-- The next 4 KiB of a collective queue enter their chain. A rest that fills no chunk when END waits only for its queues is a
partial chunk at the round's end: a push error, and ignored (R397; DEDUCED: notes/assumptions/41.md). -/
def State.doChunkEnter (s : State) (t q resid : Nat) : State :=
  match s.colGroup t q 1 with
  | none => s
  | some g =>
    let b := itemBytes (s.colItems t q)
    let c := s.elemAt t q / 1024
    if 4096 ≤ b.length then
      if 64 ≤ (s.group g).contrib.length then s
      else (s.takeBytes t q 4096).pushChunk g c (b.take 4096) resid
    else if s.endWaits t && !b.isEmpty then (s.takeBytes t q b.length).pushErr g 0 c
    else if s.endWaits t then s.setItems t q []
    else s

def execChunkEnter (sh : Fin 12) (n : Fin 64) (q : BitVec 5) (resid : Fin 5) (s : State) :
    Host.Outcome State Fault Refusal := .next (s.doChunkEnter (tix sh n) q.toNat resid)

/-! ### Collective packets (R398-R403, R407, R414) -/

def execColPartial (p : Fin 8) (hdr : BitVec 256) (payload : List Byte) (resid : Fin 5) (s : State) :
    Host.Outcome State Fault Refusal := .next (s.arrive p 10 hdr payload resid)

def execColFinal (p : Fin 8) (hdr : BitVec 256) (payload : List Byte) (s : State) : Host.Outcome State Fault Refusal :=
  .next (s.arrive p 11 hdr payload 0)

def execColExp (p : Fin 8) (hdr : BitVec 256) (payload : List Byte) (s : State) : Host.Outcome State Fault Refusal :=
  .next (s.arrive p 12 hdr payload 0)

def execColRow (p : Fin 8) (hdr : BitVec 256) (payload : List Byte) (s : State) : Host.Outcome State Fault Refusal :=
  .next (s.arrive p 13 hdr payload 0)

/-! ### Dispatch (R406-R409) -/

/-- The source rank of this module's rows: the lowest rank that it hosts. -/
def State.sourceRank (s : State) (g : Nat) : Nat := (s.hosted g).headD 0

def Group.placed (x : Group) (lane d : Nat) : Nat := Tbl.get 0 x.laneCnt (lane * 64 + d)

def Group.dropped (x : Group) (lane d : Nat) : Nat := Tbl.get 0 x.laneDrop (lane * 64 + d)

/-- A record that is dropped with its row: a reserved field is set, or DRANK names no rank. -/
def State.recordBad (s : State) (g : Nat) (r : List Byte) : Bool :=
  let w := leNat (r.take 8)
  bitsOf w 62 56 != 0 || bitsOf w 49 32 != 0 || leNat (r.drop 8) != 0 || decide (s.ranks g ≤ bitsOf w 55 50)

/-- The entry of a row: SLOT, or by the lane's count. -/
def State.entryOf (s : State) (g lane d w : Nat) : Nat :=
  if bitAt w 63 then w % 2 ^ 32
  else (64 * s.sourceRank g + lane) * s.fld .COL_GRP_DISP_CAP g + (s.group g).placed lane d

/-- The row is dropped. -/
def State.rowOver (s : State) (g lane d w : Nat) : Bool :=
  let cap := s.fld .COL_GRP_DISP_CAP g
  if bitAt w 63 then decide (64 * s.ranks g * cap ≤ w % 2 ^ 32) else decide (cap ≤ (s.group g).placed lane d)

/-- A dropped row: counted; DROP and class 0x75 once in a lane's micro-batch. -/
def State.rowDrop (s : State) (g lane d e : Nat) : State :=
  let x := s.group g
  let s1 := (s.satAdd .COL_CNT_DROPS 0 1).setGroup g { x with
    laneDrop := Tbl.put x.laneDrop (lane * 64 + d) (x.dropped lane d + 1), laneSaid := Tbl.put x.laneSaid lane true }
  if Tbl.get false x.laneSaid lane then s1 else (s1.setFlag .COL_GRP_STATUS_DROP g true).colRaise 0x75 g d e

/-- The COL_ROW packets of an entry: pieces of at most 4,096 bytes. -/
def rowPkts (ctx e : Nat) : Nat → Nat → List PByte → List Pkt
  | 0, _, _ => []
  | fuel + 1, off, b =>
    if b.isEmpty then []
    else
      let h := b.take 4096
      colPkt 13 ctx (e + off / 32 * 2 ^ 32) (vals h) (anyPoison h) :: rowPkts ctx e fuel (off + 4096) (b.drop 4096)

/-- Write an entry at rank d: here, or by packets of flow FLOW_P + d. -/
def State.placeRow (s : State) (g d e : Nat) (entry : List PByte) : State :=
  if (s.hosted g).contains d then
    s.memWrite (s.colAcc g) (s.fld .COL_GRP_RES_RES_ADDR g + e * s.entryBytes g) entry
  else
    (rowPkts (s.groupCtx g) e (entry.length / 4096 + 1) 0 entry).foldl
      (fun s p => s.queuePkt ((s.fld .COL_GRP_CFG1_FLOW_P g + d) % 16384) p) s

/-- The entry's header: SLOT or TAG, the source rank, the lane. -/
def State.entryHeader (s : State) (g lane w : Nat) : List PByte :=
  clean (leBytes 4 (w % 2 ^ 32) ++ leBytes 1 (s.sourceRank g) ++ leBytes 1 lane ++ leBytes 26 0)

/-- A record with its row, from the queue with code `owner`. -/
def State.routeRow (s : State) (g lane owner : Nat) (r row : List PByte) : State :=
  let w := leNat ((vals r).take 8)
  let d := bitsOf w 55 50
  let x := s.group g
  let e := s.entryOf g lane d w
  if Tbl.get owner x.laneQ lane != owner || s.recordBad g (vals r) then s.pushErr g d e
  else
    let s0 := s.setGroup g { x with laneQ := Tbl.put x.laneQ lane owner }
    if s.rowOver g lane d w then s0.rowDrop g lane d e
    else
      let y := s0.group g
      (s0.setGroup g { y with laneCnt := Tbl.put y.laneCnt (lane * 64 + d) (y.placed lane d + 1) }).placeRow g d e
        (s.entryHeader g lane w ++ row)

/-- The next record of a dispatch queue with its row. A rest that a SIGNAL or the program's END cuts short is ignored as a
push error. -/
def State.doRoute (s : State) (t q : Nat) : State :=
  match s.colGroup t q 2 with
  | none => s
  | some g =>
    let l := s.colItems t q
    let b := itemBytes l
    let n := s.entryBytes g
    if n ≤ b.length then
      (s.setItems t q (l.drop n)).routeRow g (descLane (s.desc t q)) (t * 32 + q + 1) (b.take 32) ((b.take n).drop 32)
    else if !b.isEmpty && (decide (b.length < l.length) || s.endWaits t) then
      (s.setItems t q (l.drop b.length)).pushErr g 0 0
    else if l.isEmpty then s.setItems t q []
    else s

def execRouteRecord (sh : Fin 12) (n : Fin 64) (q : BitVec 5) (s : State) : Host.Outcome State Fault Refusal :=
  .next (s.doRoute (tix sh n) q.toNat)

/-- The tally word of a lane for rank d. -/
def Group.tally (x : Group) (lane d : Nat) : List Byte :=
  leBytes 4 (x.placed lane d) ++ leBytes 4 (x.dropped lane d)

/-- For rank d: the tally word, and the signal behind it. -/
def State.laneTell (s : State) (g lane vid v d : Nat) : State :=
  let off := 8 * (64 * s.sourceRank g + lane)
  let b := (s.group g).tally lane d
  if (s.hosted g).contains d then
    (s.memWrite (s.colAcc g) (s.fld .COL_GRP_TALLY_TALLY_ADDR g + off) (clean b)).sendSignal (12 + s.groupTile g)
      (s.groupCtx g) vid v
  else
    let f := (s.fld .COL_GRP_CFG1_FLOW_P g + d) % 16384
    (s.queuePkt f (writePkt f (Config.peerTally g d + off) b false (s.groupCtx g))).queuePkt f
      { writePkt f v [] false (s.groupCtx g) with type := 4, vc := 0, len := BitVec.ofNat 16 vid }

/-- The lane's counts are zero again, and no queue owns it. -/
def Group.laneClear (x : Group) (lane : Nat) : Group :=
  { x with
    laneCnt := x.laneCnt.filter (fun p => p.1 / 64 != lane)
    laneDrop := x.laneDrop.filter (fun p => p.1 / 64 != lane)
    laneSaid := Tbl.del lane x.laneSaid
    laneQ := Tbl.del lane x.laneQ }

/-- A SIGNAL at the front of a dispatch queue ends the lane's micro-batch. -/
def State.doLaneEnd (s : State) (t q : Nat) : State :=
  match s.colGroup t q 2, s.colItems t q with
  | some g, .signal vid v :: rest =>
    let lane := descLane (s.desc t q)
    let s1 := (List.range (s.ranks g)).foldl (fun s d => s.laneTell g lane vid.toNat v.toNat d) (s.setItems t q rest)
    s1.setGroup g ((s1.group g).laneClear lane)
  | _, _ => s

def execLaneEnd (sh : Fin 12) (n : Fin 64) (q : BitVec 5) (s : State) : Host.Outcome State Fault Refusal :=
  .next (s.doLaneEnd (tix sh n) q.toNat)

end Sys2Proof.Machine
end

