-- ==== Sys2Proof/Machine/Load.lean ====
section
/-! DEFINITION. Program images, patch lists and the start of a replay (R86, R163-R171), and GANG with the commands that
wait for it (R100). -/

namespace Sys2Proof.Machine

/-! ### Images (R163-R165) -/

/-- A program image as a list of bytes, read by offset. -/
def imgNat (b : List Byte) (off n : Nat) : Nat := leNat ((b.drop off).take n)

def imgId (b : List Byte) : Nat := imgNat b 0x08 4
def imgNinst (b : List Byte) : Nat := imgNat b 0x0C 4
def imgNpinit (b : List Byte) : Nat := imgNat b 0x10 2
def imgBase (b : List Byte) : Nat := imgNat b 0x18 4
def imgBind (b : List Byte) (q : Nat) : Nat := imgNat b (0x40 + 8 * q) 8
def imgPinit (b : List Byte) (k : Nat) : Nat := imgNat b (0x140 + 16 * k) 16
def imgInst (b : List Byte) (k : Nat) : Nat := imgNat b (0x140 + 16 * imgNpinit b + 16 * k) 16

/-- The header breaks R165: MAGIC, VERSION, reserved fields, the ranges of NINST, NPINIT and BASE. -/
def imgHeaderBad (b : List Byte) : Bool :=
  imgNat b 0 4 != 0xAE127105 || imgNat b 4 2 != 1 || imgNat b 6 2 != 0 || imgNat b 0x12 6 != 0 ||
    imgNat b 0x1C 36 != 0 || imgBase b % 16 != 0 || imgNinst b == 0 || decide (16384 < imgNinst b) ||
    decide (256 < imgNpinit b) || decide (0x200000 < imgBase b + 16 * imgNinst b)

/-- The bytes of a whole image, from its header. -/
def imgSize (b : List Byte) : Nat := 0x140 + 16 * imgNpinit b + 16 * imgNinst b

/-- A P initial value has a nonzero reserved byte. -/
def imgPinitBad (b : List Byte) : Bool :=
  (List.range (imgNpinit b)).any (fun k => bitsOf (imgPinit b k) 63 8 != 0)

def bindWindow (e : Nat) : Bool := bindKind e == 1 || bindKind e == 2

/-- A binding entry breaks R164. -/
def bindBad (q e : Nat) : Bool :=
  if q ≤ 8 then e != 0
  else
    match bindKind e with
    | 0 => e != 0
    | 1 | 2 =>
      !(decide (9 ≤ q) && decide (q ≤ 23)) || bitsOf e 47 42 != 0 || decide (bindLast e < bindBase e) ||
        decide (251 < bindPdesc e)
    | 3 => !(decide (24 ≤ q) && decide (q ≤ 27)) || bindAg e != 0 || bitsOf e 47 0 != 0
    | 4 => decide (q < 28) || bindAg e != 0 || bitsOf e 47 0 != 0
    | _ => true

/-- The window entries of an image. -/
def imgWindows (b : List Byte) : List Nat := ((List.range 32).map (imgBind b)).filter bindWindow

/-- The binding table breaks R165. -/
def imgBindBad (b : List Byte) : Bool :=
  (List.range 32).any (fun q => bindBad q (imgBind b q)) || !decide (((imgWindows b).map bindAg).Nodup)

/-- A window overlaps the instructions. -/
def imgOverlap (b : List Byte) : Bool :=
  (imgWindows b).any (fun e => decide (bindBase e < imgBase b + 16 * imgNinst b) && decide (imgBase b ≤ bindLast e))

def instOpc (w : Nat) : Nat := bitsOf w 127 120

/-- The level that a LOOP or an ENDL names. -/
def loopLevel (w : Nat) : Nat := bitsOf w 118 116

/-- ENDPC of a LOOP. -/
def loopEnd (w : Nat) : Nat := bitsOf w 47 32

/-- The loops of a program: head, ENDPC, level. -/
def loopsOf (ws : List (Nat × Nat)) : List (Nat × Nat × Nat) :=
  (ws.filter (fun p => instOpc p.2 == 2)).map (fun p => (p.1, loopEnd p.2, loopLevel p.2))

/-- The loop structure breaks R165. -/
def loopsBad (ws : List (Nat × Nat)) : Bool :=
  let ls := loopsOf ws
  let ends := (ws.filter (fun p => instOpc p.2 == 3)).map (fun p => (p.1, loopLevel p.2))
  ls.any (fun l => decide (l.2.1 ≤ l.1) || !(ends.contains (l.2.1, l.2.2))) ||
    ends.any (fun e => !(ls.any (fun l => l.2.1 == e.1))) ||
    ls.any (fun l =>
      let inside := ls.filter (fun m => decide (l.1 < m.1) && decide (m.1 < l.2.1))
      inside.any (fun m => decide (l.2.1 ≤ m.2.1) || m.2.2 == l.2.2) ||
        decide (8 ≤ (ls.filter (fun m => decide (m.1 < l.1) && decide (l.1 < m.2.1))).length))

/-- The program's structure breaks R165: its loops, and its last instruction is END. -/
def imgProgBad (b : List Byte) : Bool :=
  let n := imgNinst b
  let ws := (List.range n).map (fun k => (k, imgInst b k))
  loopsBad ws || instOpc (imgInst b (n - 1)) != 1

/-- The SUB of the first rule of R165 that a whole image breaks. -/
def imgBad (b : List Byte) : Option Nat :=
  if imgHeaderBad b then some 0
  else if imgPinitBad b then some 0
  else if imgBindBad b then some 1
  else if imgOverlap b then some 2
  else if imgProgBad b then some 3
  else none

/-! ### Loading (R86, R165, R166) -/

/-- A Tiller without a program: no instructions, state empty. -/
def State.unload (s : State) (t : Nat) : State :=
  (((s.setTil t (s.til t).clearQueues).noProgram t).setPc t 0).setTstate t 0

/-- All 256 P registers are zero. -/
def State.clearParams (s : State) (t : Nat) : State := (List.range 256).foldl (fun s k => s.setPreg t k 0) s

/-- A load of a good image: instructions, bindings, P registers. The next instruction to dispatch is the first (R180). -/
def State.loadImage (s : State) (t : Nat) (b : List Byte) : State :=
  let n := imgNinst b
  let code := (b.drop (0x140 + 16 * imgNpinit b)).take (16 * n)
  let s1 := s.memWrite (s.tilAcc t) (storeAddr t (imgBase b)) (clean code)
  let x := s1.til t
  let s2 := s1.setTil t { x.clearQueues with
    bind := (List.range 32).foldl (fun d q => Tbl.set 0 d q (BitVec.ofNat 64 (imgBind b q))) [], desc := [], job := none }
  let s3 := (List.range (imgNpinit b)).foldl (fun s k =>
    s.setPreg t (imgPinit b k % 256) (imgPinit b k / 2 ^ 64)) (s2.clearParams t)
  (((((s3.setFld .TIL_PROG_IMAGE_IMAGE_ID t (imgId b)).setFld .TIL_PROG_IMAGE_NINST t n).setFld
    .TIL_PROG_IMAGE_BASE16 t (imgBase b / 16)).setFld .TIL_PROG_STATUS_FAULT_CLASS t 0).setPc t 0).setTstate t 1

/-- A load is needed (R166). -/
def State.needsLoad (s : State) (t : Nat) (cmd : BitVec 512) : Bool :=
  s.fld .TIL_PROG_IMAGE_NINST t == 0 || s.fld .TIL_PROG_IMAGE_IMAGE_ID t != cmdImage cmd

/-- The record of a refused image or patch list (R165, R170, R176). -/
def State.refusedList (s : State) (r t sub count image : Nat) : State :=
  s.raiseCtx 0x3C (s.owner r) (tilUnit t) (tilDetail 0xFFFF 6 sub count (image % 2 ^ 32))

/-- A failed load leaves no program resident (R165). -/
def State.failLoads (s : State) (ts : List Nat) : State :=
  ts.foldl (fun s t => (s.unload t).setFld .TIL_PROG_STATUS_FAULT_CLASS t 0) s

/-! ### Patch lists (R169, R170) -/

/-- A patch entry: its 32 bytes as a number. -/
def patchBad (e : Nat) : Bool :=
  decide (4 ≤ bitsOf e 11 8) || (decide (12 ≤ bitsOf e 15 12) && decide (bitsOf e 15 12 ≤ 14)) ||
    decide (bitsOf e 29 24 < bitsOf e 21 16) || bitsOf e 23 22 != 0 || bitsOf e 63 30 != 0 || bitsOf e 255 192 != 0

/-- The new value of a P register under MODE. -/
def patchVal (mode old v : Nat) : Nat :=
  match mode with
  | 0 => v
  | 1 => (old + v) % 2 ^ 64
  | 2 => old / 2 ^ 32 * 2 ^ 32 + v % 2 ^ 32
  | _ => v / 2 ^ 32 * 2 ^ 32 + old % 2 ^ 32

/-- One entry, applied to the Tillers of the command that it selects (DEDUCED: notes/assumptions/31.md). -/
def State.patchEntry (s : State) (ts : List Nat) (e : Nat) : State :=
  let sel := ts.filter (fun t =>
    (bitsOf e 15 12 == 15 || bitsOf e 15 12 == t / 64) && decide (bitsOf e 21 16 ≤ t % 64) &&
      decide (t % 64 ≤ bitsOf e 29 24))
  sel.foldl (fun s t =>
    let v := (bitsOf e 127 64 + (t % 64 - bitsOf e 21 16) * bitsOf e 191 128) % 2 ^ 64
    s.setPreg t (bitsOf e 7 0) (patchVal (bitsOf e 11 8) (s.preg t (bitsOf e 7 0)) v)) s

/-- Apply entries in order up to the first bad one; its index is given. -/
def State.patchList (s : State) (ts : List Nat) : List Nat → Nat → State × Option Nat
  | [], _ => (s, none)
  | e :: rest, k => if patchBad e then (s, some k) else (s.patchEntry ts e).patchList ts rest (k + 1)

/-! ### The start of a replay (R167, R171) -/

/-- Every bound generator is loaded from its descriptor, and the flow descriptors are read (R160, R167, R395). -/
def State.reloadAgs (s : State) (t : Nat) : State :=
  let x := s.til t
  let qs := (List.range 32).filter (fun q => bindWindow (s.binding t q))
  let ls := (List.range 32).filter (fun q => bindKind (s.binding t q) == 3 || bindKind (s.binding t q) == 4)
  s.setTil t { x with
    ags := qs.foldl (fun d q => Tbl.put d (bindAg (s.binding t q)) (s.agLoad t (bindPdesc (s.binding t q)))) [],
    desc := ls.foldl (fun d q => Tbl.put d q (BitVec.ofNat 64 (s.preg t (bindPdesc (s.binding t q))))) [],
    loopCnt := [], loopHead := [] }

/-- The break registers match the starting command (R171). -/
def State.breakHit (s : State) (t c tag : Nat) : Bool :=
  let onCmd := s.flag .TIL_BRK_CTRL_ON_CMD t && s.fld .TIL_CMD_COUNT_COUNT t == s.fld .TIL_BRK_CMD_COUNT t
  let onTag := s.flag .TIL_BRK_CTRL_ON_TAG t &&
    (tag ^^^ s.fld .TIL_BRK_TAG_TAG t) &&& s.fld .TIL_BRK_TAG_MASK t == 0
  (onCmd || onTag) && (s.flag .TIL_BRK_CTRL_CTX_ANY t || s.fld .TIL_BRK_CTRL_CTX t == c)

/-- Steps 3 to 5 of R167: generators, loop levels, arrays and queues; the count and the break check; dispatch from
instruction 0. -/
def State.startReplay (s : State) (t : Nat) (j : Job) : State :=
  let s1 := s.setTil t { (s.til t).clearQueues with job := some j, lastCtx := some j.ctx }
  let s2 := ((s1.reloadAgs t).wrapAdd .TIL_CMD_COUNT_COUNT t 1).setPc t 0
  if s2.breakHit t j.ctx.toNat j.tag.toNat then
    let s3 := s2.setTstate t 6
    if s3.flag .TIL_BRK_CTRL_ONCE t then
      (s3.setFlag .TIL_BRK_CTRL_ON_CMD t false).setFlag .TIL_BRK_CTRL_ON_TAG t false
    else s3
  else s2.setTstate t 4

/-! ### GANG and the commands that wait for it (R100) -/

/-- The effect of a write to GANG and CMP; commands that GANG held may become ready. -/
def State.doGang (s : State) (t : Nat) (g : Nat) (cmp : Bool) : State :=
  if s.runsProgram t then
    if s.fld .TIL_MA_CTRL_GANG t = g && s.flag .TIL_MA_CTRL_CMP t == cmp then s
    else s.setFlag .TIL_MA_STATUS_GANG_REFUSED t true
  else
    (s.rings.map (·.1)).foldl (fun s r => s.markReady r)
      ((s.setFld .TIL_MA_CTRL_GANG t g).setFlag .TIL_MA_CTRL_CMP t cmp)

def execGangCmpWrite (sh : Fin 12) (n : Fin 64) (org : Origin) (gang : BitVec 2) (cmp : Bool) (s : State) :
    Host.Outcome State Fault Refusal :=
  .next (s.regCmd org .TIL_MA_CTRL (tix sh n) (gang.toNat * 16 + (if cmp then 8 else 0)) (fun s =>
    s.doGang (tix sh n) gang.toNat cmp))

end Sys2Proof.Machine
end

