-- ==== Sys2Proof/Machine/Commands.lean ====
section
/-! DEFINITION. The commands of the rings (R276-R290): doorbells, enabling, fetching, starting NOP, RUN and XFER,
completing, cancelling, retiring and resuming. -/

namespace Sys2Proof.Machine

/-! ### Reads on behalf of a ring (R286, R287, R302) -/

/-- What a read by context virtual address gives. -/
inductive Got where
  | held | poisoned
  | ok (bytes : List Byte)
  deriving DecidableEq, Repr

/-- Read n bytes by CVA for a ring; `acc` is the access code of R302, and `h` a host read that fails. -/
def State.readFor (s : State) (r cva n acc : Nat) (h : Option HostErr) : State × Got :=
  let p := s.readCva (s.home r) (s.owner r) cva n acc (s.ringAcc r h) (pagesOf n)
  match p.2 with
  | none => (p.1, .held)
  | some l => (p.1, if anyPoison l then .poisoned else .ok (vals l))

/-- Read the first n bytes of the head's image, or of its list, for its start: only what has not been read is read (R288). -/
def State.readOn (s : State) (r : Nat) (list : Bool) (cva n acc : Nat) (h : Option HostErr) : State × Got :=
  let buf := if list then (s.ring r).listBuf else (s.ring r).imgBuf
  let p := s.readPart (s.home r) (s.owner r) (cva + buf.length) (n - buf.length) acc (s.ringAcc r h) (pagesOf n)
  let b := buf ++ p.2.1
  let x := p.1.ring r
  let s1 := p.1.setRing r (if list then { x with listBuf := b } else { x with imgBuf := b })
  (s1, if !p.2.2 then .held else if anyPoison (b.take n) then .poisoned else .ok (vals (b.take n)))

/-- The host address that a CVA of a ring's owner translates to. -/
def State.hostAddr (s : State) (r cva : Nat) : Option Nat :=
  match s.walk (s.owner r) cva false with
  | .ok dev _ _ _ _ =>
    match s.region dev with
    | .host off => some off
    | _ => none
  | .fault _ _ _ => none

/-! ### Doorbells (R276, R278) -/

/-- The ring's doorbell is looked at. -/
def State.ringWatched (s : State) (r : Nat) : Bool :=
  s.ready && s.flag .CTX_RING_BASE_ENABLE r && decide (s.home r < 12) &&
    !(s.flag .MGT_DET_DUMAP_HI_FENCED (s.home r)) && s.flag .CTX_CFG_ENABLE (s.owner r) &&
    s.fld .CTX_STATUS_STATE (s.owner r) == 1

/-- A TAIL is observed: out of range, it is ignored with class 0x16 once for each value (R278). -/
def State.newTail (s : State) (r v : Nat) : State :=
  let x := s.ring r
  if v < x.tail ∨ s.headShown r + s.cmdEntries r < v then
    if x.badTails.contains (BitVec.ofNat 64 v) then s
    else
      (s.setRing r { x with badTails := x.badTails ++ [BitVec.ofNat 64 v] }).raiseCtx 0x16 (s.owner r) (s.cmdUnit r)
        (v % 2 ^ 64 + r * 2 ^ 64)
  else s.setRing r { x with tail := v }

/-- The instances of a field that do not read as its reset value. -/
def State.listed (s : State) (f : Fld) : List Nat :=
  s.regs.filterMap (fun p => if p.1 % 1024 = f.ctorIdx then some (p.1 / 1024) else none)

/-- The CVA of a ring's doorbell. -/
def State.dbAddr (s : State) (r : Nat) : Nat := s.fld .CTX_RING_CFG_DB_ADDR r * 8

/-- The line of a ring's doorbell: by device address, or by context and CVA while it does not translate. -/
def State.dbLine (s : State) (r : Nat) : Nat × Nat :=
  match s.walk (s.owner r) (s.dbAddr r) false with
  | .ok dev _ _ _ _ => (0, dev / 64)
  | .fault _ _ _ => (1 + s.owner r, s.dbAddr r / 64)

/-- The rings that one read of ring r's line serves: those watched in the same mode whose doorbells share it, in poll mode with
the same home Sheaf (R276). -/
def State.lineRings (s : State) (r : Nat) : List Nat :=
  (s.listed .CTX_RING_BASE_ENABLE).filter (fun k =>
    s.ringWatched k && s.flag .CTX_RING_BASE_DBMODE k == s.flag .CTX_RING_BASE_DBMODE r &&
      (!(s.flag .CTX_RING_BASE_DBMODE r) || s.home k == s.home r) && decide (s.dbLine k = s.dbLine r))

/-- A ring takes its doorbell word from the line; a poisoned one is ignored. -/
def State.takeDoorbell (s : State) (line : List PByte) (k : Nat) : State :=
  let w := (line.drop (s.dbAddr k % 64)).take 8
  let s1 := s.setRing k { s.ring k with polledAt := s.now }
  if anyPoison w then s1 else s1.newTail k (leNat (vals w))

/-- Read the 64-byte line of a ring's doorbell for every ring that shares it (R276). -/
def State.readDoorbell (s : State) (r : Nat) (h : Option HostErr) : State :=
  let ks := s.lineRings r
  let p := s.readCva (s.home r) (s.owner r) (s.dbAddr r / 64 * 64) 64 0 (s.ringAcc r h) (pagesOf 64)
  match p.2 with
  | none => p.1
  | some l => ks.foldl (fun s k => s.takeDoorbell l k) p.1

/-- Watch mode: the host's write has snooped the line away. -/
def State.doSnoop (s : State) (r : Nat) (h : Option HostErr) : State :=
  if s.ringWatched r && !(s.flag .CTX_RING_BASE_DBMODE r) then s.readDoorbell r h else s

def execDoorbellSnoop (ring : BitVec 14) (hostErr : Option HostErr) (s : State) : Host.Outcome State Fault Refusal :=
  .next (s.doSnoop ring.toNat hostErr)

/-- The poll interval; lower values act as 100 ns (R307). -/
def State.pollNs (s : State) : Nat := max 100 (s.fld .CMD_CFG_POLL_NS 0)

/-- Poll mode: the line is read again when its interval has passed. -/
def State.doPoll (s : State) (r : Nat) (h : Option HostErr) : State :=
  let x := s.ring r
  if s.ringWatched r && s.flag .CTX_RING_BASE_DBMODE r && decide (x.polledAt + s.pollNs ≤ s.now) then
    (s.setRing r { x with polledAt := s.now }).readDoorbell r h
  else s

def execDoorbellPoll (ring : BitVec 14) (hostErr : Option HostErr) (s : State) : Host.Outcome State Fault Refusal :=
  .next (s.doPoll ring.toNat hostErr)

/-! ### Enabling (R277) -/

/-- The doorbell translates into the host window. -/
def State.dbHost (s : State) (r : Nat) : Bool := (s.hostAddr r (s.dbAddr r)).isSome

/-- The lines of the enabled rings of a mode, of one home Sheaf in poll mode. -/
def State.dbLines (s : State) (poll : Bool) (home : Nat) : List (Nat × Nat) :=
  (((s.listed .CTX_RING_BASE_ENABLE).filter (fun k =>
    s.flag .CTX_RING_BASE_ENABLE k && s.flag .CTX_RING_BASE_DBMODE k == poll && (!poll || s.home k == home))).map
      s.dbLine).eraseDups

/-- The reason why ENABLE does not take effect (R277, R302). -/
def State.enableRefused (s : State) (r : Nat) : Option Nat :=
  let poll := s.flag .CTX_RING_BASE_DBMODE r
  let ls := s.dbLines poll (s.home r)
  let full := !(ls.contains (s.dbLine r))
  if !poll && !(s.flag .CMD_CFG_CXL 0) then some 0
  else if !poll && !(s.dbHost r) then some 1
  else if !poll && full && decide (4096 ≤ ls.length) then some 2
  else if poll && full && decide (64 ≤ ls.length) then some 3
  else none

/-- A write that sets ENABLE. -/
def State.doRingEnable (s : State) (r : Nat) : State :=
  if s.flag .CTX_RING_BASE_ENABLE r then s
  else
    match s.enableRefused r with
    | some reason => s.raiseCtx 0x17 (s.owner r) (s.cmdUnit r) (r + reason * 2 ^ 64)
    | none =>
      (s.setRing r { s.ring r with polledAt := s.now }).setFlag .CTX_RING_BASE_ENABLE r true

def execRingEnable (org : Origin) (ring : BitVec 14) (s : State) : Host.Outcome State Fault Refusal :=
  .next (s.ringAccess org ring.toNat (fun s => s.doRingEnable ring.toNat))

/-! ### Fetching (R286, R287) -/

/-- The next position to fetch: at most 64 beyond the head. -/
def State.nextFetch (s : State) (r : Nat) : Option Nat :=
  let x := s.ring r
  ((List.range 65).map (fun k => s.ringHead r + k)).find? (fun p =>
    decide (p < x.tail) && !(x.fetched.any (fun e => e.1 == p)))

/-- Bytes that a read takes without any fault, record or correction. -/
def State.quiet (s : State) (w : Accessor) (a n : Nat) : Bool :=
  (List.range n).all (fun k => s.accClass w (a + k) == 0 && !(s.poisoned (a + k)) && !(s.hostHit w.hostErr (a + k)) &&
    Tbl.get EccErr.clean s.ecc (s.wordKey (a + k)) == .clean)

def State.putFetched (s : State) (r p : Nat) (b : List Byte) : State :=
  let x := s.ring r
  s.setRing r { x with fetched := Tbl.put x.fetched p ⟨BitVec.ofNat 512 (leNat b)⟩ }

/-- Run-ahead of a command beyond the head: a fault is not raised and nothing of it is kept, and a DEVICE page or a device region
is not read (R286, R287). -/
def State.fetchAhead (s : State) (r p : Nat) (h : Option HostErr) : State :=
  match s.walkWith h (s.owner r) (s.cmdAddr r p) false with
  | .ok dev _ device _ _ =>
    if device || s.deviceRegion dev || !(s.quiet (s.ringAcc r h) dev 64) then s
    else (s.countRead dev 64).putFetched r p (s.peekBytes dev 64)
  | .fault _ _ _ => s

/-- The fetch of the head itself. -/
def State.fetchHead (s : State) (r p : Nat) (h : Option HostErr) : State :=
  match s.readFor r (s.cmdAddr r p) 64 2 h with
  | (s1, .ok b) => (s1.putFetched r p b).settleHead r
  | (s1, .poisoned) => s1.headFault r 0x14
  | (s1, .held) => s1

/-- Fetch the next command. -/
def State.doFetch (s : State) (r : Nat) (h : Option HostErr) : State :=
  if s.ringLive r then
    match s.nextFetch r with
    | some p => if p = s.ringHead r then s.fetchHead r p h else s.fetchAhead r p h
    | none => s
  else s

def execCommandFetch (ring : BitVec 14) (hostErr : Option HostErr) (s : State) : Host.Outcome State Fault Refusal :=
  .next (s.doFetch ring.toNat hostErr)

/-! ### NOP, RUN, XFER (R280, R283, R284) -/

/-- NOP has no work. It also stands for the start of a command of a reserved KIND, which is refused (R281). -/
def State.doCmdNop (s : State) (r : Nat) : State :=
  s.tryStart r (fun k => k == 0 || decide (3 ≤ k)) (fun s cmd => s.startHead r cmd [] 0)

def execCommandNop (ring : BitVec 14) (s : State) : Host.Outcome State Fault Refusal := .next (s.doCmdNop ring.toNat)

/-- The image of a RUN: its header first, and the rest when the header is good. -/
def State.readImage (s : State) (r cva : Nat) (h : Option HostErr) : State × Got :=
  match s.readOn r false cva 0x140 3 h with
  | (s1, .ok hd) => if imgHeaderBad hd then (s1, .ok hd) else s1.readOn r false cva (imgSize hd) 3 h
  | x => x

/-- The entries of a list of n-byte records. -/
def splitNats (n : Nat) : Nat → List Byte → List Nat
  | 0, _ => []
  | k + 1, b => leNat (b.take n) :: splitNats n k (b.drop n)

/-- The job that a command gives a Tiller. -/
def State.jobOf (s : State) (r : Nat) (cmd : BitVec 512) : Job :=
  { ring := BitVec.ofNat 14 r, pos := s.ringHead r, ctx := BitVec.ofNat 12 (s.owner r),
    layer := BitVec.ofNat 16 (cmdLayer cmd), operator := BitVec.ofNat 16 (cmdOperator cmd),
    tag := BitVec.ofNat 32 (cmdTag cmd) }

/-- The start of a RUN whose image and patch list are at hand: loads, patches, replays. The record of a refused image names the first
Tiller that needs it, that of a refused patch list the command's first (R176; notes/assumptions/63.md). -/
def State.runTillers (s : State) (r : Nat) (cmd : BitVec 512) (img patches : List Byte) : State :=
  let ts := cmdTillers cmd
  let need := ts.filter (fun t => s.needsLoad t cmd)
  let t0 := ts.headD 0
  match (if need.isEmpty then none else imgBad img) with
  | some sub => ((s.failLoads need).refusedList r (need.headD t0) sub 0 (cmdImage cmd)).headFault r 0x3C
  | none =>
    let s1 := need.foldl (fun s t => s.loadImage t img) s
    let p := s1.patchList ts (splitNats 32 (cmdNPatch cmd) patches) 0
    match p.2 with
    | some k => (p.1.refusedList r t0 4 k (cmdImage cmd)).headFault r 0x3C
    | none => (ts.foldl (fun s t => s.startReplay t (s.jobOf r cmd)) p.1).startHead r cmd ts 0

/-- A read for the head: go on with its bytes; held, the command waits; poisoned or failed, it is faulted (R290, R305). -/
def onRead (r : Nat) (x : State × Got) (k : State → List Byte → State) : State :=
  match x.2 with
  | .held => x.1
  | .poisoned => x.1.headFault r 0x14
  | .ok b => k x.1 b

/-- RUN starts when its Tillers hold no other command. -/
def State.doRun (s : State) (r : Nat) (h : Option HostErr) : State :=
  s.tryStart r (fun k => k == 1) (fun s cmd =>
    let ts := cmdTillers cmd
    if ts.any (fun t => (s.til t).job.isSome) then s
    else
      let img := if ts.any (fun t => s.needsLoad t cmd) then s.readImage r (cmdProg cmd) h else (s, .ok [])
      onRead r img (fun s b =>
        let pl := if cmdNPatch cmd = 0 then (s, .ok []) else s.readOn r true (cmdPatch cmd) (32 * cmdNPatch cmd) 3 h
        onRead r pl (fun s l => s.runTillers r cmd b l)))

def execRun (ring : BitVec 14) (hostErr : Option HostErr) (s : State) : Host.Outcome State Fault Refusal :=
  .next (s.doRun ring.toNat hostErr)

/-- Put the operations of an XFER into the engines of its Sheafs (R280). -/
def State.queueOps (s : State) (r : Nat) (cmd : BitVec 512) (ops : List Nat) : State :=
  let sh := cmdSheafList cmd
  (List.range ops.length).foldl (fun s j =>
    let k := sh.getD (j % sh.length) 0
    let o : XferOp := { ring := BitVec.ofNat 14 r, pos := s.ringHead r, idx := j, ctx := BitVec.ofNat 12 (s.owner r),
                        op := BitVec.ofNat 512 (ops.getD j 0), work := none, performed := false }
    { s with engines := Tbl.put s.engines k (Tbl.get [] s.engines k ++ [o]) }) s

/-- XFER starts with its list of operations. -/
def State.doXfer (s : State) (r : Nat) (h : Option HostErr) : State :=
  s.tryStart r (fun k => k == 2) (fun s cmd =>
    let n := cmdNPatch cmd
    onRead r (s.readOn r true (cmdProg cmd) (64 * n) 2 h) (fun s b =>
      (s.queueOps r cmd (splitNats 64 n b)).startHead r cmd [] n))

def execXfer (ring : BitVec 14) (hostErr : Option HostErr) (s : State) : Host.Outcome State Fault Refusal :=
  .next (s.doXfer ring.toNat hostErr)

/-! ### Completing (R285) -/

/-- Everything that a command started is done. -/
def Running.done (c : Running) : Bool := c.fault.isNone && c.ops == 0 && c.tillers.all (fun p => p.2 == 1)

def State.dropRunning (s : State) (r pos : Nat) : State :=
  let x := s.ring r
  s.setRing r { x with running := x.running.filter (fun c => c.pos != pos) }

/-- A command whose work is done sends its signals, writes its records and sends its vector. -/
def State.doComplete (s : State) (r pos : Nat) : State :=
  match (s.ring r).running.find? (fun c => c.pos == pos) with
  | some c =>
    if s.ready && c.done then
      let own := s.owner r
      let s1 := (s.sendSigs r c.cmd).completion own c.cmd pos r false false 0 (s.now - c.start)
      let s2 := (s1.trace 2 own (s.cmdUnit r) r pos 0).cmdRecord r pos c.cmd c.start c.base false false
      (s2.dropRunning r pos).markReady r
    else s
  | none => s

def execCommandComplete (ring : BitVec 14) (pos : Word) (s : State) : Host.Outcome State Fault Refusal :=
  .next (s.doComplete ring.toNat pos.toNat)

/-! ### Cancelling and resuming (R208, R289, R290) -/

/-- Every command below UPTO that has not started is cancelled; an UPTO that is not above the last has no effect. The run-ahead
of the commands that it covers is discarded (R287, R289). -/
def State.doCancel (s : State) (r upto : Nat) : State :=
  let x := s.ring r
  if x.upto < upto then
    let s1 := s.setRing r { x with
      upto := upto, fetched := x.fetched.filter (fun p => p.1 == s.ringHead r || decide (upto ≤ p.1)) }
    if s1.headCancelled r then
      s1.setRing r { s1.ring r with waits := [], readyAt := none, imgBuf := [], listBuf := [] }
    else s1
  else s

def execRingCancel (org : Origin) (ring : BitVec 14) (upto : Word) (s : State) : Host.Outcome State Fault Refusal :=
  .next (s.ringAccess org ring.toNat (fun s =>
    (s.latch .CTX_RING_CANCEL ring.toNat upto.toNat).doCancel ring.toNat upto.toNat))

/-- A cancelled head that has been fetched retires: its signals are sent and its record carries CANCELLED. -/
def State.doRetire (s : State) (r : Nat) : State :=
  if s.ringWatched r && (s.ring r).stopped.isEmpty && s.headCancelled r then
    match s.headCmd r with
    | none => s
    | some cmd =>
      let p := s.ringHead r
      let own := s.owner r
      let s1 := (s.sendSigs r cmd).completion own cmd p r true false 0 0
      let s2 := (s1.trace 2 own (s.cmdUnit r) r p 1).cmdRecord r p cmd s.now [] true false
      (s2.dropHead r).settleHead r
  else s

def execCancelledRetire (ring : BitVec 14) (s : State) : Host.Outcome State Fault Refusal := .next (s.doRetire ring.toNat)

/-- RESUME retires the faulted command and lets the ring go on. A command that was never started is the head. -/
def State.doRingResume (s : State) (r : Nat) : State :=
  let x := s.ring r
  match x.stopped with
  | [] => s
  | (p, _) :: rest =>
    let s1 := s.setRing r { x with stopped := rest }
    match x.running.find? (fun c => c.pos == p) with
    | some c => ((s1.cmdRecord r p c.cmd c.start c.base false true).dropRunning r p).settleHead r
    | none =>
      let s2 := match s.headCmd r with
        | some cmd => s1.cmdRecord r p cmd s.now [] false true
        | none => s1
      (s2.dropHead r).settleHead r

def execRingResume (org : Origin) (ring : BitVec 14) (s : State) : Host.Outcome State Fault Refusal :=
  .next (s.ringAccess org ring.toNat (fun s => s.doRingResume ring.toNat))

end Sys2Proof.Machine
end

