-- ==== Sys2Proof/Machine/Contexts.lean ====
section
/-! DEFINITION. Contexts (R273, R274, R294-R298): enabling, translation resume and invalidation, reset, and MSI-X
messages (R303, R304). -/

namespace Sys2Proof.Machine

/-! ### Enabling (R274, R310, R544) -/

/-- The anomaly totals of a context start at zero. -/
def State.clearAnom (s : State) (c : Nat) : State :=
  (List.range 7).foldl (fun s k => s.setFld .OBS_CTX_ANOM_COUNT (c * 7 + k) 0) s

/-- The PF enables or disables a context. -/
def State.doCtxEnable (s : State) (c : Nat) (en : Bool) : State :=
  let s1 := s.setFlag .CTX_CFG_ENABLE c en
  let s2 := if s1.fld .CTX_STATUS_STATE c = 2 then s1 else s1.setFld .CTX_STATUS_STATE c (if en then 1 else 0)
  if en then s2.clearAnom c else s2

def execContextEnable (org : Origin) (c : BitVec 12) (en : Bool) (s : State) : Host.Outcome State Fault Refusal :=
  .next (s.regCmd org .CTX_CFG c.toNat ((if en then 2 ^ 63 else 0) + s.fld .CTX_CFG_EPOCH c.toNat) (fun s =>
    s.doCtxEnable c.toNat en))

/-! ### Translation (R294, R295, R313) -/

/-- Retry one held walk; one that faults again freezes the translation again with a new record. -/
def State.retryWalk (s : State) (c : Nat) (h : Nat × BitVec 4 × UnitRef) : State :=
  let p := s.walkReads none c h.1 h.2.2
  let s := p.1.raiseAll p.2
  match s.walk c h.1 (h.2.1 == 1#4) with
  | .ok _ _ _ _ _ => s
  | .fault cls ptr lv => s.freezeCtx c cls h.1 ptr lv h.2.1.toNat h.2.2

/-- RESUME of CTX_CTRL: every held walk is retried, and then every record that waits for its queue. -/
def State.doXlatResume (s : State) (c : Nat) : State :=
  if s.flag .CTX_STATUS_FROZEN c then
    let x := s.ctx c
    (x.heldWalks.foldl (fun s h => s.retryWalk c h)
      ((s.setCtx c { x with heldWalks := [] }).setFlag .CTX_STATUS_FROZEN c false)).flushHeld c
  else s

def execTranslationResume (c : BitVec 12) (s : State) : Host.Outcome State Fault Refusal :=
  .next (if s.window c.toNat then s.doXlatResume c.toNat else s)

/-- Remove a context's entries, or those of one page, from every translation cache. -/
def State.dropTlb (s : State) (c : Nat) (all : Bool) (page : Nat) : State :=
  { s with tlbs := s.tlbs.map (fun p =>
      (p.1, p.2.filter (fun e => !(e.ctx.toNat == c && (all || e.page == page))))) }

/-- A write to CTX_TLB_INVAL starts an invalidation; one in progress is finished first. -/
def State.doTlbInval (s : State) (c : Nat) (all : Bool) (page : Nat) : State :=
  let x := s.ctx c
  let s1 := match x.tlbInval with
    | some v => s.dropTlb c v.1 v.2
    | none => s
  s1.setCtx c { x with tlbInval := some (all, page) }

def execTlbInval (c : BitVec 12) (all : Bool) (cva : Word) (s : State) : Host.Outcome State Fault Refusal :=
  .next (if s.window c.toNat then
      (s.latch .CTX_TLB_INVAL c.toNat cva.toNat).doTlbInval c.toNat all (bitsOf cva.toNat 47 12)
    else s)

/-- The invalidation has reached every cache, and BUSY clears. -/
def State.doTlbDone (s : State) (c : Nat) : State :=
  let x := s.ctx c
  match x.tlbInval with
  | some v => (s.dropTlb c v.1 v.2).setCtx c { x with tlbInval := none }
  | none => s

def execTlbInvalComplete (c : BitVec 12) (s : State) : Host.Outcome State Fault Refusal := .next (s.doTlbDone c.toNat)

/-! ### Context reset (R195, R210, R296-R298) -/

/-- Phase 1: STATE, EPOCH, and the context's held accesses and run-ahead discarded (R296, R298). -/
def State.resetPhase1 (s : State) (c : Nat) : State :=
  let x := s.ctx c
  let s1 := s.setCtx c { x with heldWalks := [], heldRecs := [], resetAt := some s.now }
  ((s1.setFld .CTX_STATUS_STATE c 2).setFlag .CTX_STATUS_FROZEN c false).wrapAdd .CTX_CFG_EPOCH c 1

/-- Its commands neither complete nor signal: its rings keep HEAD and TAIL and lose what they fetched and ran. -/
def State.resetRings (s : State) (c : Nat) : State :=
  { s with rings := s.rings.map (fun p =>
      (p.1, if s.owner p.1 = c then
          { p.2 with fetched := [], running := [], waits := [], readyAt := none, stopped := [], imgBuf := [], listBuf := [] }
        else p.2)) }

/-- Phase 2: its Glumes freeze, and its notify is discarded. -/
def State.resetGlumes (s : State) (c : Nat) : State :=
  ({ s with glumes := s.glumes.map (fun p =>
      (p.1, if p.2.st = .owned ∧ p.2.owner.toNat = c then { p.2 with st := .frozen } else p.2)) } : State).disarm c

/-- A Tiller after phase 3: nothing in flight, every queue empty, no program. -/
def State.resetTiller (s : State) (t : Nat) : State :=
  let s1 := s.unload t
  s1.setTil t { s1.til t with job := none, lastCtx := none, ingress := [], taken := [] }

/-- Phase 3: the Tillers of its programs stop. -/
def State.resetTillers (s : State) (c : Nat) : State :=
  (s.tillers.filter (fun p => p.2.lastCtx.any (fun o => o.toNat == c))).foldl (fun s p => s.resetTiller p.1) s

/-- The remote signals that the receive flows of a context hold, in their turn or before it. -/
def State.heldSignals (s : State) (c : Nat) : Nat :=
  ((s.recvFlows.filter (fun p => p.2.ctx.toNat == c)).map (fun p =>
    p.2.held.length + (p.2.parked.filter (fun e => e.2.type == 4)).length)).sum

/-- A packet of this module's own that context c sends and that has not left it. -/
def State.unsent (s : State) (c key : Nat) (p : Pkt) : Bool :=
  decide (56 ≤ key) && p.src.toNat == s.selfNode && p.ctx.toNat == c

/-- The incomplete mirror blocks of a context's receive flows, which close (R373, R461). -/
def State.resetMirror (s : State) (c : Nat) : State :=
  (s.recvFlows.filter (fun p => p.2.ctx.toNat == c)).foldl (fun s p => s.discardMirror p.1) s

/-- Phases 4 and 5: its transfer operations are discarded, its flows closed with what they hold, its packets that have not
left the module discarded, and its groups' rounds discarded (R373, R415). The signals that its reorder buffers held count as
dropped (R203). -/
def State.resetTraffic (s : State) (c : Nat) : State :=
  ({ s with
    engines := s.engines.map (fun p => (p.1, p.2.filter (fun o => o.ctx.toNat != c)))
    sendFlows := s.sendFlows.filter (fun p => p.2.ctx.toNat != c)
    recvFlows := s.recvFlows.filter (fun p => p.2.ctx.toNat != c)
    inbufs := s.inbufs.map (fun p => (p.1, p.2.filter (fun q => !(s.unsent c p.1 q))))
    groups := s.groups.filter (fun p => s.fld .COL_GRP_CFG0_CTX p.1 != c) } : State).satAdd .GLM_STATUS_DROPPED 0
      (s.heldSignals c)

/-- Its groups are no longer armed (R415). -/
def State.disarmGroups (s : State) (c : Nat) : State :=
  (List.range 256).foldl (fun s g =>
    if s.fld .COL_GRP_CFG0_CTX g = c then s.setFlag .COL_GRP_CFG0_ARM g false else s) s

/-- Phase 6: its translation caches. -/
def State.resetCaches (s : State) (c : Nat) : State :=
  let s1 := s.dropTlb c true 0
  { s1 with gcaches := s1.gcaches.map (fun p => (p.1, p.2.filter (fun e => e.ctx.toNat != c))) }

/-- A reset of a context up to its phase 6, with its audit entry (R551); one that arrives during a reset is ignored. -/
def State.doCtxReset (s : State) (c off : Nat) : State :=
  if s.fld .CTX_STATUS_STATE c = 2 then s
  else
    ((((((((s.resetPhase1 c).resetRings c).resetGlumes c).resetTillers c).resetMirror c).resetTraffic c).disarmGroups c).resetCaches
      c).audit! true (if c = 0 then ⟨0, 0⟩ else ⟨1, c⟩) 0 off 0 2 0

/-- The offset of CTX_CTRL: in PF BAR0 for the PF, in its own BAR0 for a VF. -/
def ctrlOff (c : Nat) : Nat := if c = 0 then Reg.off .CTX_CTRL 0 else (Reg.info .CTX_CTRL).base

def execContextReset (c : BitVec 12) (s : State) : Host.Outcome State Fault Refusal :=
  .next (if s.window c.toNat then s.doCtxReset c.toNat (ctrlOff c.toNat) else s)

/-- A function-level reset of a VF resets its context; one of the PF resets all 4,096. -/
def State.doFlr (s : State) (c : Nat) : State :=
  if s.hostPort then
    if c = 0 then (List.range 4096).foldl (fun s k => s.doCtxReset k 0xFFFFFFFF) s
    else s.doCtxReset c 0xFFFFFFFF
  else s

def execFunctionLevelReset (c : BitVec 12) (s : State) : Host.Outcome State Fault Refusal := .next (s.doFlr c.toNat)

/-- Its rings are no longer enabled. -/
def State.disableRings (s : State) (c : Nat) : State :=
  (s.listed .CTX_RING_BASE_ENABLE).foldl (fun s r =>
    if s.owner r = c then s.setFlag .CTX_RING_BASE_ENABLE r false else s) s

/-- Phase 7: rings disabled, STATE back, class 0x19 to the PF. -/
def State.doResetDone (s : State) (c : Nat) : State :=
  if s.fld .CTX_STATUS_STATE c = 2 then
    let x := s.ctx c
    let dur := s.now - x.resetAt.getD s.now
    let s1 := ((s.disableRings c).setCtx c { x with resetAt := none }).setFld .CTX_STATUS_STATE c
      (if s.flag .CTX_CFG_ENABLE c then 1 else 0)
    s1.raiseNo 0x19 ⟨7, 0⟩ (c + s1.fld .CTX_CFG_EPOCH c * 2 ^ 16 + dur % 2 ^ 32 * 2 ^ 32)
  else s

def execContextResetDone (c : BitVec 12) (s : State) : Host.Outcome State Fault Refusal := .next (s.doResetDone c.toNat)

/-! ### MSI-X (R303, R304) -/

/-- A word of the MSI-X table: entry `vec` of a function is the words 2 vec (address) and 2 vec + 1 (data and vector
control). An entry is masked until software unmasks it (PRESUMED, PCI Express: notes/assumptions/32.md). -/
def State.msixWord (s : State) (c k : Nat) : Nat :=
  (Tbl.get (if k % 2 = 1 then 0x100000000 else 0) s.msix (c * 256 + k)).toNat

def State.setMsixWord (s : State) (c k v : Nat) : State :=
  { s with msix := Tbl.put s.msix (c * 256 + k) (BitVec.ofNat 64 v) }

/-- The vectors of a function: 0-2 of a VF, 0-7 of the PF. -/
def vectorExists (c vec : Nat) : Bool := c == 0 || decide (vec ≤ 2)

/-- A pending vector sends its message when it is unmasked and its interval has passed. -/
def State.doMsix (s : State) (c vec : Nat) : State :=
  let x := s.ctx c
  let ctl := s.msixWord c (2 * vec + 1)
  let due := !(x.vecLast.any (fun p => p.1 == vec)) || decide (Tbl.get 0 x.vecLast vec + s.fld .CMD_CFG_IRQ_NS 0 ≤ s.now)
  if s.power.hostUp && vectorExists c vec && x.vecPending.getLsbD vec && !(bitAt ctl 32) && due then
    (s.setCtx c { x with vecPending := x.vecPending &&& ~~~(1#8 <<< vec), vecLast := Tbl.put x.vecLast vec s.now }).emit
      (.msix (BitVec.ofNat 12 c) vec (BitVec.ofNat 64 (s.msixWord c (2 * vec))) (BitVec.ofNat 32 ctl))
  else s

def execMsixMessage (c : BitVec 12) (vec : Fin 8) (s : State) : Host.Outcome State Fault Refusal :=
  .next (s.doMsix c.toNat vec.val)

end Sys2Proof.Machine
end

