-- ==== Sys2Proof/Machine/Determinism.lean ====
section
/-! DEFINITION. The modes STRICT and PORTABLE with what they count (R426-R431, R445-R447), and changes of ck_core
(R495-R497, R502). -/

namespace Sys2Proof.Machine

/-- The management controller, which reports what belongs to no other unit. -/
def mgtUnit : UnitRef := ⟨8, 0⟩

/-! ### The modes (R427, R445, R446) -/

/-- A Tiller of the module runs, waits or is stopped in a program: STATE 4, 5 or 6 (R180). -/
def State.tillersRun (s : State) : Bool :=
  (List.range 768).any (fun t => decide (4 ≤ s.tstate t) && decide (s.tstate t ≤ 6))

/-- The conditions under which a mode may change. -/
def State.modeFree (s : State) : Bool := s.drained && !(s.tillersRun)

/-- The clock plan less the stretch in force, at least 600 MHz. -/
def State.planFreq (s : State) (stretch : Nat) : Nat := max 600 (s.fld .PWR_CLK_PLAN_FREQ_REQ_MHZ 0 - 25 * stretch)

/-- A ck_core frequency is asked for; the change comes at a dispatch boundary. -/
def State.askClock (s : State) (mhz : Nat) : State :=
  { s with power := { s.power with
      freqNext := if s.fld .PWR_CLK_PLAN_FREQ_NOW_MHZ 0 = mhz then none else some mhz } }

/-- STRICT begins: ck_core goes to the clock plan, whatever the power policy had asked for, and holds it (R426). -/
def State.holdPlan (s : State) : State :=
  if 8 ≤ s.fld .PWR_STATUS_START_STEP 0 then
    ({ s with power := { s.power with thermLow := false } } : State).askClock (s.planFreq (s.fld .PWR_STRETCH_LAST 0))
  else s

/-- The modes take a value; a held mode that ends is held no longer. -/
def State.setModes (s : State) (strict portable : Bool) : State :=
  let s1 := (s.setFlag .MGT_DET_CTRL_STRICT 0 strict).setFlag .MGT_DET_CTRL_PORTABLE 0 portable
  let s2 := if strict then (if s.strict then s1 else s1.holdPlan) else s1.setFlag .MGT_DET_STATUS_STRICT_HELD 0 false
  if portable then s2 else s2.setFlag .MGT_DET_STATUS_PORTABLE_HELD 0 false

/-- EVT_CLR: the event counts are cleared, and the held bits take the current modes. -/
def State.evtClear (s : State) : State :=
  (((((s.setFld .MGT_DET_EVT_STRETCHES 0 0).setFld .MGT_DET_EVT_HOLDS 0 0).setFld .MGT_DET_EVT_DUMAP_CHANGES 0 0).setFld
    .MGT_DET_EVT_PORT_CHANGES 0 0).setFld .MGT_DET_STATUS_STRICT_HELD 0 (s.fld .MGT_DET_CTRL_STRICT 0)).setFld
      .MGT_DET_STATUS_PORTABLE_HELD 0 (s.fld .MGT_DET_CTRL_PORTABLE 0)

/-- A refused write of the modes. -/
def State.modeRefuse (s : State) (val : Nat) : State :=
  (s.setFlag .MGT_DET_STATUS_REFUSED 0 true).raiseNo 0x80 mgtUnit val

/-- A write of MGT_DET_CTRL: the modes when it names them, then EVT_CLR. Every write is audited. A write of EVT_CLR that
leaves both modes as they are is no write of the modes (DEDUCED: notes/assumptions/42.md). -/
def State.detWrite (s : State) (org : Origin) (val : Nat) : State :=
  s.access org .MGT_DET_CTRL (fun s =>
    let old := s.regVal .MGT_DET_CTRL 0
    let clr := bitAt val 2
    let names := !(clr && val % 4 == old % 4)
    let took := s.modeFree || !names
    let s1 := if names then (if s.modeFree then s.setModes (bitAt val 0) (bitAt val 1) else s.modeRefuse val) else s
    (if clr then s1.evtClear else s1).audit! (took || clr) (Origin.audit org) 0 (Reg.off .MGT_DET_CTRL 0) old val 0)

def execModeWrite (org : Origin) (strict : Bool) (portable : Bool) (s : State) : Host.Outcome State Fault Refusal :=
  .next (s.detWrite org ((if strict then 1 else 0) + (if portable then 2 else 0)))

def execEvtClr (org : Origin) (s : State) : Host.Outcome State Fault Refusal :=
  .next (s.detWrite org (4 + s.fld .MGT_DET_CTRL_STRICT 0 + 2 * s.fld .MGT_DET_CTRL_PORTABLE 0))

/-- A change of the disabled-unit map (R431, R447): physical Tiller 0xFF stands for a Sheaf. -/
def State.dumapChanged (s : State) (sh p : Nat) : State :=
  let s1 := s.satAdd .MGT_DET_EVT_DUMAP_CHANGES 0 1
  if s.flag .MGT_DET_CTRL_PORTABLE 0 then s1
  else (s1.setFlag .MGT_DET_STATUS_DUMAP_CHG 0 true).raiseNo 0x84 mgtUnit (sh + p * 2 ^ 8)

/-- A step stretch or a hold under STRICT is counted (R428). -/
def State.countTime (s : State) (ev : Fld) : State :=
  (s.satAdd ev 0 1).setFlag .MGT_DET_STATUS_STRETCH_SEEN 0 true

/-- The record of a stretch or of a hold: cause 0 thermal, 1 brown-out; duration in ns; round. -/
def State.timeRecord (s : State) (cause dur round : Nat) : State :=
  s.raiseNo 0x82 mgtUnit (cause + dur % 2 ^ 56 * 2 ^ 8 + round % 2 ^ 32 * 2 ^ 64)

/-- A hold that ends is counted and reported under STRICT, with the round in progress of the stretch slot. -/
def State.holdEvent (s : State) (cause dur : Nat) : State :=
  if s.strict then
    (s.countTime .MGT_DET_EVT_HOLDS).timeRecord cause dur (s.barRound (s.fld .PWR_STRETCH_SLOT 0))
  else s

/-! ### ck_core (R495-R497) -/

/-- Class 0x04 with a cause (R508). -/
def State.overridden (s : State) (cause : Nat) : State :=
  (s.setFlag .PWR_STATUS_CLAMPED 0 true).raiseNo 0x04 mgtUnit cause

/-- VID of a frequency in 1/24 mV, interpolated between the rows of R496. -/
def vid24 (mhz : Nat) : Nat :=
  if mhz ≤ 600 then 13200
  else if mhz ≤ 1000 then 13200 + (mhz - 600) * 1680 / 400
  else if mhz ≤ 1400 then 14880 + (mhz - 1000) * 1680 / 400
  else if mhz ≤ 1800 then 16560 + (mhz - 1400) * 1440 / 400
  else 18000 + (mhz - 1800) * 1680 / 300

/-- The voltage of a Sheaf's rail: VID plus the margin loop's offset. -/
def State.railNow (s : State) (sh : Nat) : Int :=
  (vid24 (s.fld .PWR_CLK_PLAN_FREQ_NOW_MHZ 0) : Int) + 24 * Tbl.get 0 s.power.vOffset sh

/-- ck_core changes: every Tiller holds dispatch for 0.5 us, each margin offset is 0, and the rails stand at the new
VID (R497, R498). -/
def State.changeClock (s : State) (mhz : Nat) : State :=
  if s.fld .PWR_CLK_PLAN_FREQ_NOW_MHZ 0 = mhz then { s with power := { s.power with freqNext := none } }
  else
    let s1 := ({ s with power := { s.power with
      freqNext := none, vOffset := [], slackSince := [], clockHold := s.now + 500 } } : State).setFld
        .PWR_CLK_PLAN_FREQ_NOW_MHZ 0 mhz
    (List.range 12).foldl (fun s k => s.emit (.rail k (s.railNow k))) s1

/-- The dispatch boundary of a change that was asked for. -/
def State.doClockChange (s : State) : State :=
  match s.power.freqNext with
  | some f => if s.ready then s.changeClock f else s
  | none => s

def execClockChange (s : State) : Host.Outcome State Fault Refusal := .next s.doClockChange

/-! ### The step stretch (R502) -/

/-- The stretch in force ends: its record carries its duration, which is known only now (R428, R502; DEDUCED:
notes/assumptions/43.md). -/
def State.endStretch (s : State) : State :=
  match s.power.stretchOn with
  | some (t, round) =>
    let s1 : State := { s with power := { s.power with stretchOn := none } }
    s1.timeRecord 0 (s1.now - t) round
  | none => s

/-- A stretch of k steps, carried by the release of a round, comes into force: under STRICT it is counted. -/
def State.beginStretch (s : State) (k round : Nat) : State :=
  if k ≠ 0 ∧ s.strict then
    ({ s with power := { s.power with stretchOn := some (s.now, round) } } : State).countTime .MGT_DET_EVT_STRETCHES
  else s

/-- At T + LEAD_US the stretch of a release is in force, until the same point after the slot's next release. -/
def State.doStretch (s : State) : State :=
  match s.power.stretchAt with
  | (t, k, round) :: rest =>
    if s.linksRun && decide (t ≤ s.now) then
      let s1 := ({ s with power := { s.power with stretchAt := rest } } : State).setFld .PWR_STRETCH_LAST 0 k
      ((s1.changeClock (s1.planFreq k)).endStretch).beginStretch k round
    else s
  | [] => s

def execStretchApply (s : State) : Host.Outcome State Fault Refusal := .next s.doStretch

end Sys2Proof.Machine
end

