-- ==== Sys2Proof/Machine/Hbm.lean ====
section
/-! DEFINITION. Memory health: the patrol scrubber (R249), row repair (R250, R266), retirement (R252, R265) and the
reserved regions (R256, R267). -/

namespace Sys2Proof.Machine

/-! ### The patrol scrubber (R249-R251) -/

/-- The controller of the stack that an address maps to, as the scrubber's accessor. -/
def State.scrubAcc (s : State) (a : Nat) : Accessor := Accessor.of ⟨4, (s.hbmMap a).stack⟩ none

/-- The error that a scrub read meets: one that strikes now, or the one that stands in the sector. -/
def State.scrubSees (s : State) (a : Nat) (found : EccErr) : EccErr :=
  if found = .clean then Tbl.get EccErr.clean s.ecc (s.wordKey a) else found

/-- A scrub read of one sector. The write-back is dropped when a write arrived after the read. -/
def State.doScrub (s : State) (a : Nat) (found : EccErr) (newer : Bool) : State :=
  if s.ready && decide (a < 0x9000000000) && s.fld .HBM_CFG_SCRUB_H 0 != 0 &&
      !(bitAt (s.fld .HBM_STATUS_FENCED 0) (s.hbmMap a).stack) then
    let s0 := s.count 0 32
    let w := s.scrubAcc a
    match s.scrubSees a found with
    | .clean => s0
    | .single => raised (if newer then s0.rowCe w a false true else s0.wordFixed w a false true)
    | .double =>
      let p := s0.wordLost w a false true
      raised (if newer then { p.1 with poison := s.poison, ecc := s.ecc, memCtl := s.memCtl } else p.1, p.2)
  else s

def execScrubRead (sector : BitVec 40) (found : EccErr) (newer : Bool) (s : State) : Host.Outcome State Fault Refusal :=
  .next (s.doScrub (sector.toNat / 32 * 32) found newer)

/-! ### Repair (R250, R266) -/

/-- The row that HBM_REPAIR names, as `rowCode` codes it. -/
def State.repairRow (s : State) : Nat :=
  s.fld .HBM_REPAIR_ROW 0 + s.fld .HBM_REPAIR_BANK 0 * 2 ^ 16 + s.fld .HBM_REPAIR_PC 0 * 2 ^ 20 +
    s.fld .HBM_REPAIR_CHANNEL 0 * 2 ^ 21 + s.fld .HBM_REPAIR_STACK 0 * 2 ^ 26

/-- HBM_REPAIR names a row of a stack that is there. -/
def State.repairNamed (s : State) : Bool :=
  decide (s.fld .HBM_REPAIR_STACK 0 < 12) && decide (s.fld .HBM_REPAIR_ROW 0 < 49152) &&
    !(bitAt (s.fld .HBM_STATUS_FENCED 0) (s.fld .HBM_REPAIR_STACK 0))

/-- LEFT is what the named bank's stack reports: a free value. -/
def State.repairLeft (s : State) : State := s.useFree.setFld .HBM_REPAIR_LEFT 0 s.freeWord.toNat

/-- A write of HBM_REPAIR: its plain fields, and the start of a repair. -/
def State.repairWrite (s : State) (mask val : Nat) (start hard : Bool) : State :=
  if s.flag .HBM_REPAIR_BUSY 0 then s
  else
    let s1 := (s.writeReg .HBM_REPAIR 0 mask val).repairLeft
    if start then { s1.setFlag .HBM_REPAIR_BUSY 0 true with repairHard := hard } else s1

def execGoSoft (org : Origin) (val : Word) (s : State) : Host.Outcome State Fault Refusal :=
  .next (s.regCmd org .HBM_REPAIR 0 val.toNat (fun s => s.repairWrite fullMask val.toNat true false))

/-- GO_HARD: its plain fields are written; the hard repair starts only under presence, and the write is audited. -/
def State.doGoHard (s : State) (org : Origin) (mask val : Nat) : State :=
  s.access org .HBM_REPAIR (fun s =>
    let old := s.regVal .HBM_REPAIR 0
    let took := s.flag .MGT_PRESENCE_OPEN 0
    (s.repairWrite mask val took true).audit! took (if took then Origin.presence org else Origin.audit org) 0
      (Reg.off .HBM_REPAIR 0) old val 0)

def execGoHard (org : Origin) (val : Word) (s : State) : Host.Outcome State Fault Refusal :=
  .next (s.doGoHard org fullMask val.toNat)

/-- The row is read through ECC and written back: every error of its sectors is corrected, or found. -/
def State.sweepRow (s : State) (code : Nat) : State :=
  raised (gather (fun s p => s.checkWord (s.scrubAcc (p.1 * 8)) (p.1 * 8) false) s
    (s.ecc.filter (fun p => decide (p.1 * 8 < 0x9000000000) && rowCode (s.hbmMap (p.1 * 8)) == code)))

/-- A soft repair joins the list that management firmware replays at each start. -/
def State.addSoft (s : State) (code : Nat) : State :=
  if s.softRepairs.contains (BitVec.ofNat 64 code) then s
  else { s with softRepairs := s.softRepairs ++ [BitVec.ofNat 64 code] }

/-- The detail of class 0x48: the row of a code, without an address (R261). -/
def repairDetail (code : Nat) : Nat :=
  ones 64 + code / 2 ^ 26 * 2 ^ 64 + code / 2 ^ 21 % 32 * 2 ^ 72 + (code / 2 ^ 16 % 16 * 2 + code / 2 ^ 20 % 2) * 2 ^ 80 +
    ones 8 * 2 ^ 88 + code % 2 ^ 16 * 2 ^ 96

/-- A repair of a row fails: FAIL, and class 0x48. -/
def State.repairFails (s : State) (code : Nat) : State :=
  (s.setFlag .HBM_REPAIR_FAIL 0 true).raiseNo 0x48 ⟨4, code / 2 ^ 26⟩ (repairDetail code)

/-- The oldest row that waits for its automatic soft repair has had it, or could not have it (R250). -/
def State.autoRepairDone (s : State) (ok : Bool) : State :=
  match s.memCtl.autoSoft with
  | [] => s
  | code :: rest =>
    let s1 : State := { s with memCtl := { s.memCtl with autoSoft := rest } }
    if ok then (s1.sweepRow code.toNat).addSoft code.toNat else s1.repairFails code.toNat

/-- A repair ends: the row is whole again, or class 0x48 is raised and the row stays as it was. It is the repair of
HBM_REPAIR while BUSY is set, and otherwise the oldest automatic one (DESIGN CHOICE: notes/assumptions/143.md). -/
def State.doRepairDone (s : State) (ok : Bool) : State :=
  if s.flag .HBM_REPAIR_BUSY 0 then
    let s1 := s.setFlag .HBM_REPAIR_BUSY 0 false
    let row := s.repairRow
    if ok && s.repairNamed then
      let s2 := s1.sweepRow row
      if s.repairHard then s2.repairLeft else s2.addSoft row
    else s1.repairFails row
  else s.autoRepairDone ok

def execHbmRepairDone (ok : Bool) (s : State) : Host.Outcome State Fault Refusal := .next (s.doRepairDone ok)

/-! ### Retirement (R252, R265) -/

/-- Add a tile page to the list: ignored when the list is full, when it holds the page, and for no page of the module. -/
def State.retirePage (s : State) (pg : Nat) : State :=
  if s.retired.length ≥ 512 ∨ pg ∈ s.retired ∨ 294911 < pg then s else { s with retired := s.retired ++ [pg] }

def execHbmRetire (org : Origin) (page : BitVec 19) (s : State) : Host.Outcome State Fault Refusal :=
  .next (s.regCmd org .HBM_RETIRE 0 page.toNat (fun s => s.retirePage page.toNat))

def State.clearRetired (s : State) : State := { s with retired := [] }

def execHbmRetireClr (org : Origin) (s : State) : Host.Outcome State Fault Refusal :=
  .next (s.rwpCmd org .HBM_RETIRE_CLR 0 1 State.clearRetired)

/-! ### The input-log and mirror regions (R256, R267) -/

/-- The fields of one of the two regions. -/
structure RegionFld where
  reg : Reg
  enable : Fld
  base : Fld
  size : Fld

def logRegion : RegionFld := ⟨.HBM_LOG_REGION, .HBM_LOG_REGION_ENABLE, .HBM_LOG_REGION_BASE_PG, .HBM_LOG_REGION_SIZE_PG⟩

def mirRegion : RegionFld := ⟨.HBM_MIR_REGION, .HBM_MIR_REGION_ENABLE, .HBM_MIR_REGION_BASE_PG, .HBM_MIR_REGION_SIZE_PG⟩

/-- Two page ranges share a page. -/
def rangesMeet (b1 n1 b2 n2 : Nat) : Bool :=
  n1 != 0 && n2 != 0 && decide (b1 < b2 + n2) && decide (b2 < b1 + n1)

/-- A base and a size are good for a region: within HBM, at most its limit, clear of the other region (R256; the end of
HBM limits both: notes/assumptions/34.md). -/
def State.regionGood (s : State) (mirror : Bool) (base size : Nat) : Bool :=
  let other := if mirror then logRegion else mirRegion
  decide (base + size ≤ 294912) && (!mirror || decide (size ≤ 73728)) &&
    !(rangesMeet base size (s.fld other.base 0) (s.fld other.size 0))

/-- The log writer starts anew at the region's first byte. -/
def State.logRestart (s : State) : State := { s with logRecs := [], logPos := 0, logUsed := 0, logOvf := false }

/-- A write of a region register. While ENABLE is 1 only ENABLE takes the write. -/
def State.regionWrite (s : State) (mirror : Bool) (mask val : Nat) : State :=
  let q := if mirror then mirRegion else logRegion
  if s.flag q.enable 0 then s.writeFld q.enable 0 mask val
  else
    let s1 := s.writeReg q.reg 0 mask val
    if s1.regionGood mirror (s1.fld q.base 0) (s1.fld q.size 0) then
      if !mirror && (s1.fld q.base 0 != s.fld q.base 0 || s1.fld q.size 0 != s.fld q.size 0) then s1.logRestart else s1
    else s.setFlag .HBM_STATUS_REGION_ERR 0 true

def execRegionWrite (org : Origin) (mirror : Bool) (val : Word) (s : State) : Host.Outcome State Fault Refusal :=
  .next (s.regCmd org (if mirror then .HBM_MIR_REGION else .HBM_LOG_REGION) 0 val.toNat
    (fun s => s.regionWrite mirror fullMask val.toNat))

end Sys2Proof.Machine
end

