-- ==== Sys2Proof/Machine/Links.lean ====
section
/-! DEFINITION. The events of the optical ports (R314-R358): markers, slots, link-control flits, channel failures, pauses,
bring-up, retraining, disabling and loss. -/

namespace Sys2Proof.Machine

/-! ### Markers and locks (R327, R336, R337) -/

/-- A physical channel is locked: four valid markers in a row. -/
def Port.locked (x : Port) (c : Nat) : Bool := decide (4 ≤ Tbl.get 0 x.lockCnt c)

/-- The receiver declares a physical channel failed: it joins the failure mask, which is sent at once (R336). -/
def State.rxFail (s : State) (p c : Nat) : State :=
  if bitAt (s.failedCh p true) c then s
  else
    let x := s.port p
    (s.setPort p { x with startRx := x.startRx ||| (1#45 <<< c) }).urgentLcf p none

/-- No channel of the port is locked. -/
def Port.dark (x : Port) : Bool := (List.range 45).all (fun c => !(x.locked c))

/-- A channel loses lock: class 0x54, and it has failed. A port without any lock is down. -/
def State.lockLost (s : State) (p c : Nat) : State :=
  let x := s.port p
  let s1 := (s.setPort p { x with lockCnt := Tbl.put x.lockCnt c 0, lost := Tbl.put x.lost c 0 }).raiseNo 0x54
    (linkUnit p) (linkDetail p 1 c)
  let s2 := s1.rxFail p c
  if (s2.port p).dark then s2.portDown p 2 else s2

/-- The receiver learns the map from a valid marker on a locked channel (R337). Once as many logical channels as NACT names have
shown themselves under the generation, an entry that has not, as that of a dead channel, is no longer active (DEDUCED:
notes/assumptions/36.md). -/
def State.learnMap (s : State) (p c w : Nat) : State :=
  let x := s.port p
  let lch := bitsOf w 31 26
  let gen := bitsOf w 19 16
  let nact := bitsOf w 25 20
  let m := x.mapRx.filter (fun q => q.2 != c)
  let m1 := if lch < 32 then Tbl.put m lch c else m
  let seen := (if gen = s.fld .LNK_STATUS_GEN_RX p then x.seen else 0) ||| (1#45 <<< c)
  let now := m1.filter (fun q => seen.getLsbD q.2)
  let s1 := (s.setPort p { x with mapRx := if nact ≤ now.length then now else m1, seen := seen }).setFld .LNK_STATUS_GEN_RX p
    gen
  (s1.setFld .LNK_STATUS_NACT_RX p nact).nactCheck p

/-- Line bits between one marker and the next (R327). -/
def markerGap : Nat := 44800

/-- The valid markers in a row on a channel that is not locked, after a candidate that stands `gap` line bits behind the last: one
that breaks the spacing or the CRC restarts the count from the next (R327). -/
def markerCount (cnt gap : Nat) (ok : Bool) : Nat := if ok && (cnt == 0 || gap == markerGap) then cnt + 1 else 0

/-- The codewords since the last marker, with the symbols corrected in them (R357). -/
def State.countWords (s : State) (p corr uncorr : Nat) : State :=
  (s.satAdd .LNK_CNT_CORR_SYM p corr).satAdd .LNK_CNT_UNCORR p uncorr

/-- A marker word on a channel: a candidate while the channel is not locked, the due word once it is. -/
def State.doMarker (s : State) (p c w gap corr uncorr : Nat) : State :=
  if s.linksRun && decide (1 ≤ s.portState p) && decide (s.portState p ≤ 5) then
    let x := s.port p
    let ok := markerValid w
    if x.locked c then
      let s0 := s.countWords p corr uncorr
      if ok then
        let s1 := s0.setPort p { x with lost := Tbl.put x.lost c 0 }
        if 4 ≤ s.portState p then s1.learnMap p c w else s1
      else if Tbl.get 0 x.lost c = 0 then s0.setPort p { x with lost := Tbl.put x.lost c 1 }
      else s0.lockLost p c
    else s.setPort p { x with
      lockCnt := Tbl.put x.lockCnt c (markerCount (Tbl.get 0 x.lockCnt c) gap ok), lost := Tbl.put x.lost c 0 }
  else s

def execMarkerReceive (p : Fin 8) (ch : Fin 45) (word : Word) (gap : Nat) (corr : Fin 241) (uncorr : Fin 9) (s : State) :
    Host.Outcome State Fault Refusal := .next (s.doMarker p ch word.toNat gap corr uncorr)

/-- A channel is declared failed under the codeword rule, or by a lost lock. -/
def State.doChannelFail (s : State) (p c : Nat) (lostLock : Bool) : State :=
  if s.linksRun && decide (3 ≤ s.portState p) && decide (s.portState p ≤ 5) then
    if lostLock then s.lockLost p c else s.rxFail p c
  else s

def execChannelFail (p : Fin 8) (ch : Fin 45) (lostLock : Bool) (s : State) : Host.Outcome State Fault Refusal :=
  .next (s.doChannelFail p ch lostLock)

/-- A channel is declared failed under the corrected-symbol rule (R336, R338). -/
def State.doSymbolFail (s : State) (p c : Nat) : State :=
  if s.linksRun && decide (3 ≤ s.portState p) && decide (s.portState p ≤ 5) then s.rxFail p c else s

def execChannelSymbolRateFail (p : Fin 8) (ch : Fin 45) (s : State) : Host.Outcome State Fault Refusal :=
  .next (s.doSymbolFail p ch)

/-- One of the port's own lasers has failed: its channel is replaced (R337). -/
def State.doLaserFail (s : State) (p c : Nat) : State :=
  if s.linksRun && s.flag .LNK_GUEST_ADMITTED p then
    let x := s.port p
    (s.setPort p { x with startTx := x.startTx ||| (1#45 <<< c) }).txRemap p
  else s

def execLaserFail (p : Fin 8) (ch : Fin 45) (s : State) : Host.Outcome State Fault Refusal := .next (s.doLaserFail p ch)

/-- A UCIe module of the guest link is lost (R320). -/
def State.doModuleLost (s : State) (p m : Nat) : State :=
  if s.linksRun && s.flag .LNK_GUEST_ADMITTED p && !(bitAt (s.port p).modLost.toNat m) then
    (s.moduleLost p m).nactCheck p
  else s

def execUcieModuleLost (p : Fin 8) (m : Fin 4) (s : State) : Host.Outcome State Fault Refusal := .next (s.doModuleLost p m)

/-! ### Slots (R329, R334, R340) -/

/-- Units that lie in the input buffers of a port. -/
def State.bufferedUnits (s : State) (p : Nat) : Nat :=
  ((List.range 7).map (fun b => ((Tbl.get [] s.inbufs (bufKey p b)).map Pkt.units).sum)).sum

/-- The receive buffer passes 90 % full: a pause is asked for (R340). -/
def State.pauseIfFull (s : State) (p : Nat) : State :=
  let total := ((List.range 7).map bufUnits).sum
  if 9 * total < 10 * s.bufferedUnits p then s.sendPause p else s

/-- A slot of a stream arrives: taken in order, with its units; a bad one, or one after a missing one, is discarded and named in a
NAK once. -/
def State.doSlot (s : State) (p : Nat) (control : Bool) (seq : Nat) (bad : Bool) (units : List (Option (BitVec 256))) :
    State :=
  if s.linksRun && decide (4 ≤ s.portState p) && decide (s.portState p ≤ 5) then
    let x := s.port p
    let r := if control then x.rxC else x.rxD
    let put := fun (r : RxStream) => s.setPort p (if control then { x with rxC := r } else { x with rxD := r })
    if !bad && seq == r.expect then (put (r.take units)).pauseIfFull p
    else if !bad && decide ((r.expect + 2 ^ 48 - seq) % 2 ^ 48 ≤ 2 ^ 47) then s
    else if r.nak then s
    else (put { r with nak := true }).urgentLcf p none
  else s

def execSlotReceive (p : Fin 8) (control : Bool) (seq : BitVec 48) (bad : Bool) (units : List (Option (BitVec 256)))
    (s : State) : Host.Outcome State Fault Refusal := .next (s.doSlot p control seq.toNat bad units)

/-! ### Link-control flits (R332-R345, R429) -/

/-- A field of an LCF by byte offset and bits. -/
def lcfField (b : List Byte) (off hi lo : Nat) : Nat := bitsOf (leNat b) (8 * off + hi) (8 * off + lo)

/-- An LCF of a known type with a good CRC. -/
def lcfGood (b : List Byte) : Bool :=
  b.length == 256 && (lcfField b 0 7 0 == 1 || lcfField b 0 7 0 == 2) &&
    lcfField b 0xFC 31 0 == crc32 (b.take 0xFC)

/-- The distance from this module to a peer node along a port's axis, toward the port's direction. -/
def State.peerDistance (s : State) (p node : Nat) : Nat :=
  let a := portAxis p
  let n := s.axisLen a
  if portPlus p then (nodeCoord node a + n - s.coord a % n) % n else (s.coord a + n - nodeCoord node a % n) % n

/-- The identity rules of R344. -/
def State.identityGood (s : State) (p node txport boot : Nat) : Bool :=
  txport == portTwin p &&
    (List.range 4).all (fun a => a == portAxis p || nodeCoord node a == s.coord a) &&
    decide (1 ≤ s.peerDistance p node) && decide (s.peerDistance p node ≤ 3) &&
    (s.portState p != 5 || (node == s.fld .LNK_PEER_NODE_ID p && boot == s.fld .LNK_PEER_BOOT p))

/-- The coordinates that a port's link bypasses are absent (R385). -/
def State.markBypassed (s : State) (p d : Nat) : State :=
  let a := portAxis p
  let n := s.axisLen a
  (List.range (d - 1)).foldl (fun s k =>
    s.setBit .FAB_ABSENT_ABSENT a (if portPlus p then (s.coord a + k + 1) % n else (s.coord a + n * 64 - k - 1) % n)) s

/-- The identity is accepted: LNK_PEER, and a change of the bypass count (R345). -/
def State.acceptPeer (s : State) (p node boot txport : Nat) : State :=
  let d := s.peerDistance p node
  let old := s.fld .LNK_PEER_BYPASS p
  let s1 := (((s.setFld .LNK_PEER_BOOT p boot).setFld .LNK_PEER_TXPORT p txport).setFld .LNK_PEER_NODE_ID p node).setFld
    .LNK_PEER_BYPASS p (d - 1)
  if old = d - 1 then s1
  else
    ((s1.setFlag .LNK_STATUS_BYPASS_CHG p true).markBypassed p d).raiseNo 0x56 (linkUnit p)
      (linkDetail p 1 (old + (d - 1) * 2 ^ 8))

/-- The peer's STRICT flag against this module's (R429). -/
def State.strictCheck (s : State) (p : Nat) (strict : Bool) : State :=
  let x := s.port p
  if strict = s.strict then s.setPort p { x with mixed := false }
  else if x.mixed then s
  else ((s.setPort p { x with mixed := true }).setFlag .MGT_DET_STATUS_MIXED 0 true).raiseNo 0x83 (linkUnit p) p

/-- The peer's failure mask names channels of the transmit map (R337, R338). -/
def State.peerFails (s : State) (p mask : Nat) : State :=
  let x := s.port p
  (s.setPort p { x with startTx := x.startTx ||| BitVec.ofNat 45 mask }).txRemap p

/-- The sending side of a stream. -/
def Port.tx (x : Port) (control : Bool) : TxStream := if control then x.txC else x.txD

def State.setTx (s : State) (p : Nat) (control : Bool) (r : TxStream) : State :=
  let x := s.port p
  s.setPort p (if control then { x with txC := r } else { x with txD := r })

/-- Slots up to n of a stream are acknowledged. -/
def State.slotAck (s : State) (p : Nat) (control : Bool) (n : Nat) : State :=
  s.setTx p control (((s.port p).tx control).acked n)

/-- A NAK: the stream is resent from the named slot, unless that is under way (DEDUCED: notes/assumptions/167.md); after 16 resends
the port is down. -/
def State.slotNak (s : State) (p : Nat) (control : Bool) (n : Nat) : State :=
  let r := (s.port p).tx control
  match r.sent.find? (fun e => e.seq == n) with
  | none => s
  | some e =>
    if r.resend.contains n then s
    else if 16 ≤ e.tries then s.portDown p 3
    else
      ((s.setTx p control { r with resend := r.from' n }).satAdd .LNK_CNT2_REPLAYS p 1).raiseNo 0x53 (linkUnit p)
        (linkDetail p 0 (n + (if control then 2 ^ 48 else 0)))

/-- A received pause (R341). -/
def State.pauseGot (s : State) (p n : Nat) : State :=
  let x := s.port p
  if n = 0 then
    (s.setPort p { x with pauseUntil := none, pauseSince := none, pauseSaid := false }).setFlag .LNK_STATUS_PAUSED p false
  else
    let since := match x.pauseSince with
      | some t => some t
      | none => some s.now
    (s.setPort p { x with pauseUntil := some (s.now + 10 * n), pauseSince := since }).setFlag .LNK_STATUS_PAUSED p true

/-- The credits that the peer has returned. -/
def State.creditsGot (s : State) (p : Nat) (b : List Byte) : State :=
  let x := s.port p
  s.setPort p { x with credit :=
    (List.range 7).foldl (fun t k => Tbl.put t k (lcfField b (0x80 + 4 * k) 31 0)) x.credit }

/-- What an LCF carries besides identity. -/
def State.lcfTake (s : State) (p : Nat) (b : List Byte) : State :=
  let s1 := s.peerFails p (lcfField b 0x10 44 0)
  if 4 ≤ s1.portState p ∧ s1.portState p ≤ 5 then
    let s2 := ((s1.slotAck p false (lcfField b 0x18 47 0)).slotAck p true (lcfField b 0x20 47 0)).creditsGot p b
    let s3 := if lcfField b 1 5 5 = 1 then s2.pauseGot p (lcfField b 2 15 0) else s2
    let s4 := if lcfField b 1 3 3 = 1 then s3.slotNak p false (lcfField b 0x28 47 0) else s3
    if lcfField b 1 4 4 = 1 then s4.slotNak p true (lcfField b 0x30 47 0) else s4
  else s1

/-- An LCF that fails the identity check (R344). -/
def State.identityFail (s : State) (p node txport : Nat) : State :=
  ((s.setFlag .LNK_STATUS_IDENT_ERR p true).raiseNo 0x55 (linkUnit p) (linkDetail p 1 (node + txport * 2 ^ 24))).portDown
    p 4

/-- What an accepted LCF does: in IDENT and ACTIVE a TYPE 1 LCF counts toward identity and carries everything; in LOCK and
DESKEW, and for a training LCF at any time, the failure mask is taken (R343). -/
def State.lcfAccepted (s : State) (p : Nat) (b : List Byte) : State :=
  let x := s.port p
  let mask := lcfField b 0x10 44 0
  if s.portState p ≤ 3 then
    s.setPort p { x with startTx := x.startTx ||| BitVec.ofNat 45 mask, gotMask := true }
  else if lcfField b 0 7 0 = 1 then
    (s.setPort p { x with lastLcf := s.now, identOk := x.identOk + 1 }).lcfTake p b
  else s.peerFails p mask

/-- An LCF with a good CRC, checked by R344; one with LEAVING takes the port down without a loss (R347). -/
def State.lcfIdentified (s : State) (p : Nat) (b : List Byte) : State :=
  let node := lcfField b 4 23 0
  let txport := lcfField b 4 26 24
  let boot := lcfField b 8 15 0
  if s.identityGood p node txport boot then
    let s1 := s.acceptPeer p node boot txport
    if lcfField b 1 1 1 = 1 then s1.portLost p
    else (s1.strictCheck p (lcfField b 1 2 2 == 1)).lcfAccepted p b
  else s.identityFail p node txport

/-- An LCF arrives, from LOCK on. A bad one is discarded. -/
def State.doLcf (s : State) (p : Nat) (b : List Byte) : State :=
  if s.linksRun && lcfGood b && decide (2 ≤ s.portState p) && decide (s.portState p ≤ 5) then s.lcfIdentified p b else s

def execLcfReceive (p : Fin 8) (bytes : List Byte) (s : State) : Host.Outcome State Fault Refusal :=
  .next (s.doLcf p bytes)

/-- No valid LCF for 10 us (R348). -/
def State.doLcfTimeout (s : State) (p : Nat) : State :=
  if s.linksRun && decide (4 ≤ s.portState p) && decide (s.portState p ≤ 5) &&
      decide ((s.port p).lastLcf + 10000 ≤ s.now) then s.portDown p 1
  else s

def execLcfTimeout (p : Fin 8) (s : State) : Host.Outcome State Fault Refusal := .next (s.doLcfTimeout p)

/-! ### Pauses (R340-R342) -/

def execPauseGo (org : Origin) (p : Fin 8) (s : State) : Host.Outcome State Fault Refusal :=
  .next (s.regCmd org .LNK_CFG p (2 ^ 60) (fun s =>
    if s.linksRun && decide (4 ≤ s.portState p) && decide (s.portState p ≤ 5) then s.sendPause p else s))

/-- A pause has run out. -/
def State.doPauseExpire (s : State) (p : Nat) : State :=
  match (s.port p).pauseUntil with
  | some t => if s.linksRun ∧ t ≤ s.now then s.pauseGot p 0 else s
  | none => s

def execPauseExpire (p : Fin 8) (s : State) : Host.Outcome State Fault Refusal := .next (s.doPauseExpire p)

/-- The data stream has been paused for PAUSE_MAX_US: class 0x59 once. -/
def State.doPauseLimit (s : State) (p : Nat) : State :=
  let x := s.port p
  match x.pauseSince with
  | some t =>
    if s.linksRun && !x.pauseSaid && decide (t + 1000 * s.fld .LNK_CFG_PAUSE_MAX_US p ≤ s.now) then
      ((s.setPort p { x with pauseSaid := true }).setFlag .LNK_STATUS_PAUSE_LONG p true).raiseNo 0x59 (linkUnit p)
        (linkDetail p 0 ((s.now - t) / 1000))
    else s
  | none => s

def execPauseLimit (p : Fin 8) (s : State) : Host.Outcome State Fault Refusal := .next (s.doPauseLimit p)

/-! ### Bring-up (R343) -/

def popCount (w : Nat) : Nat := ((List.range 45).filter (fun k => bitAt w k)).length

/-- Every lit channel is locked. -/
def State.litLocked (s : State) (p : Nat) (lit : Nat) : Bool :=
  (List.range 45).all (fun c => !(bitAt lit c) || (s.port p).locked c)

/-- LOCK ends: the start test's failures join the start map. -/
def State.lockDone (s : State) (p : Nat) (v : PortView) : State :=
  let x := s.port p
  (s.setPort p { x with startRx := x.startRx ||| v.testFailed }).setPortState p 3

/-- Of the channels that a first assignment moved, those that were removed: a start raises no record of a spare in use. -/
def removedOf (l : List Swap) : List Swap := l.filter (fun w => w.2.2.isNone)

/-- DESKEW ends, once the peer's failure mask has come in: the maps of both directions as the exchanged masks give them, with the
removed channels of both reported (R315, R316, R343, R350). -/
def State.deskewed (s : State) (p : Nat) (v : PortView) : State :=
  let x := s.port p
  let tx := assignMap (s.failedCh p false) x.modLost (s.chCap p)
  let rx := assignMap (s.failedCh p true) x.modLost (s.chCap p)
  if tx.1.length < s.minCh p ∨ rx.1.length < s.minCh p ∨ !v.deskewed ∨ !x.gotMask then s
  else
    let s1 := s.setPort p { x.freshStreams with mapTx := tx.1, mapRx := rx.1, identOk := 0, lastLcf := s.now }
    (((s1.setFld .LNK_STATUS_NACT_RX p rx.1.length).reportSwaps p 0 tx.1.length (removedOf tx.2)).reportSwaps p 1
      rx.1.length (removedOf rx.2)).setPortState p 4

/-- A start of the port: the start map is rebuilt, and the counters of R357 count from zero (R317, R357). -/
def State.portStart (s : State) (p : Nat) : State :=
  let s1 := s.setPort p { s.port p with startTx := 0, startRx := 0, gotMask := false }
  let s2 := (s1.setFld .LNK_CNT_UNCORR p 0).setFld .LNK_CNT_CORR_SYM p 0
  ((s2.setFld .LNK_CNT2_REPLAYS p 0).setFld .LNK_CNT2_REMAPS p 0).setPortState p 1

/-- A port moves to its next state when that state's condition holds. -/
def State.doPortAdvance (s : State) (p : Nat) (v : PortView) : State :=
  if s.linksRun then
    match s.portState p with
    | 0 => if s.flag .LNK_CFG_ENABLE p && s.flag .LNK_GUEST_ADMITTED p then s.portStart p else s
    | 1 => if s.minCh p ≤ popCount v.lit.toNat then s.setPortState p 2 else s
    | 2 => if v.lit ≠ 0 ∧ s.litLocked p v.lit.toNat ∧ v.testDone then s.lockDone p v else s
    | 3 => s.deskewed p v
    | 4 => if 3 ≤ (s.port p).identOk then (s.setPortState p 5).portChange else s
    | _ => s
  else s

def execPortStateAdvance (p : Fin 8) (view : PortView) (s : State) : Host.Outcome State Fault Refusal :=
  .next (s.doPortAdvance p view)

/-- Retraining: the guest is admitted anew, and bring-up starts from OFF. -/
def State.retrainPort (s : State) (p : Nat) (g : GuestInfo) : State := (s.acceptGuest p g).switchUpdate p

/-- 1 ms after FAILED, AUTO_RETRAIN retrains the port. -/
def State.doAutoRetrain (s : State) (p : Nat) (g : GuestInfo) : State :=
  match (s.port p).failedAt with
  | some t =>
    if s.linksRun && s.portState p == 7 && s.flag .LNK_CFG_AUTO_RETRAIN p && decide (t + 1000000 ≤ s.now) then
      s.retrainPort p g
    else s
  | none => s

def execAutoRetrain (p : Fin 8) (g : GuestInfo) (s : State) : Host.Outcome State Fault Refusal := .next (s.doAutoRetrain p g)

def execRetrain (org : Origin) (p : Fin 8) (g : GuestInfo) (s : State) : Host.Outcome State Fault Refusal :=
  .next (s.regCmd org .LNK_CFG p (2 ^ 61) (fun s => if s.linksRun then s.retrainPort p g else s))

/-! ### Enabling, fusing, loss of the guest (R317, R346-R348) -/

/-- The port has sent LEAVING for 10 us: it is OFF, and its switch is released (R346, R347). -/
def State.leaveDone (s : State) (p : Nat) : State := (s.portOff p).switchUpdate p

/-- The port sends LEAVING, from an urgent LCF on, in every LCF for 10 us (R347). -/
def State.leave (s : State) (p : Nat) : State :=
  (s.setPort p { s.port p with leaving := some (s.now + 10000) }).urgentLcf p none

/-- A port is disabled: one that carries a stream sends LEAVING first; any other is OFF at once (R346, R347). -/
def State.disablePort (s : State) (p : Nat) : State :=
  let s1 := s.setFlag .LNK_CFG_ENABLE p false
  if 4 ≤ s.portState p ∧ s.portState p ≤ 5 then
    if (s.port p).leaving.isSome then s1 else (s1.leave p).portChange
  else s1.leaveDone p

/-- A write of LNK_CFG.ENABLE. -/
def State.portEnable (s : State) (p : Nat) (en : Bool) : State :=
  if en then (s.setFlag .LNK_CFG_ENABLE p true).switchUpdate p else s.disablePort p

def execPortEnableWrite (org : Origin) (p : Fin 8) (en : Bool) (s : State) : Host.Outcome State Fault Refusal :=
  .next (s.regCmd org .LNK_CFG p (if en then 2 ^ 63 else 0) (fun s => s.portEnable p en))

/-- The start map of a direction joins the fused map. -/
def State.fuseChannels (s : State) (p : Nat) (rx : Bool) : State :=
  if rx then s.setFld .LNK_CHFUSE_RX_FUSED p (s.failedCh p true) else s.setFld .LNK_CHFUSE_TX_FUSED p (s.failedCh p false)

def execChannelFuse (org : Origin) (p : Fin 8) (rx : Bool) (s : State) : Host.Outcome State Fault Refusal :=
  .next (s.rwpCmd org (if rx then .LNK_CHFUSE_RX else .LNK_CHFUSE_TX) p (2 ^ 63) (fun s => s.fuseChannels p rx))

/-- The guest is lost: its link is down with every module, and so is its port (R348, R358). -/
def State.doGuestLost (s : State) (p : Nat) : State :=
  if s.linksRun && s.flag .LNK_GUEST_ADMITTED p then
    (((s.setFlag .LNK_GUEST_ADMITTED p false).setFld .LNK_GUEST_RATE p 0).setFld .LNK_GUEST_MOD_OK p 0).portDown p 5
  else s

def execGuestLost (p : Fin 8) (s : State) : Host.Outcome State Fault Refusal := .next (s.doGuestLost p)

/-! ### The frame (R321-R326, R330, R341, R343) -/

/-- The training LCFs of a frame: a complete one on each channel in LOCK and DESKEW (R343). -/
def State.training (s : State) (p : Nat) (lcf : List Byte) : List (Nat × List Byte) :=
  if s.portState p = 2 ∨ s.portState p = 3 then (List.range 45).map (fun c => (c, lcf)) else []

/-- When a VC0 frame may take a data slot: after CTL_WAIT_NS, unless STRICT is set (R330). -/
def State.ctlWait (s : State) (p : Nat) : Option Nat := if s.strict then none else some (s.fld .LNK_CFG_CTL_WAIT_NS p)

/-- The words of a frame of a port whose stream works, and the port after it: the LCF and the control slots from word period 1 on,
and the data stream, which a pause stops with its replays (R321, R341). -/
def State.frameWords (s : State) (p : Nat) (lcf : List Byte) : List (Nat × Nat × Word) × Port :=
  let chs := (s.port p).mapTx.map (·.1)
  let c := (s.port p).window s.now chs.length
  let d := if s.flag .LNK_STATUS_PAUSED p then ([], c.2) else c.2.dataWords s.now chs.length (s.ctlWait p)
  (deal (· + 1) chs (lcfWords lcf ++ c.1.flatMap Slot.words) ++ deal dataPeriod chs d.1, d.2)

/-- One frame: markers with the map now in force; training LCFs before the stream works, or the words of the stream. -/
def State.sendFrame (s : State) (p : Nat) : State :=
  let s0 := (s.mapSwitch p).sendHops p ((s.mapSwitch p).port p).hopQ
  if s.portState p ≤ 3 then
    s0.emit (.frame p s.now (s0.markers p) (s0.training p (s0.lcfBytes p 2 false none)) [])
  else
    let lcf := s0.lcfBytes p 1 false none
    let r := s0.frameWords p lcf
    ((s0.setPort p r.2).emit (.frame p s.now (s0.markers p) [] r.1)).creditsTold p

/-- A frame starts at a multiple of 1,000 ns of MTIME (R322). A port that has sent LEAVING for 10 us sends none. -/
def State.doFrame (s : State) (p : Nat) : State :=
  if s.linksRun && decide (1 ≤ s.portState p) && decide (s.portState p ≤ 5) && s.now % 1000 == 0 then
    if (s.port p).leaving.any (fun t => decide (t ≤ s.now)) then s.leaveDone p else s.sendFrame p
  else s

def execLinkFrame (p : Fin 8) (s : State) : Host.Outcome State Fault Refusal := .next (s.doFrame p)

end Sys2Proof.Machine
end

