-- ==== Sys2Proof/Machine/Spares.lean ====
section
/-! DEFINITION. Spare Tillers, absent Tillers, fenced Sheafs and fenced stacks (R26, R237, R253, R431, R449-R454, R476). -/

namespace Sys2Proof.Machine

/-! ### A Tiller's own state -/

/-- Registers of a Tiller's window (R103), with their instances. -/
def tilRegs : List RegInfo := regTable.filter (fun x => x.space == .til)

/-- The places in the register table that belong to Tiller t. -/
def tilKey (t k : Nat) : Bool :=
  tilRegs.any (fun x => decide (k / 1024 / max 1 x.count1 = t) && x.reg.flds.any (fun f => f.ctorIdx == k % 1024))

/-- The bytes of a Tiller's store. -/
def inStore (t a : Nat) : Bool := decide (storeAddr t 0 ≤ a) && decide (a < storeAddr t 0x200000)

/-- A logical Tiller that another physical one takes over: no program, registers at reset, the store's data lost (R452). -/
def State.freshTiller (s : State) (t : Nat) : State :=
  { s with
    tillers := Tbl.del t s.tillers
    regs := s.regs.filter (fun p => !(tilKey t p.1))
    mem := s.mem.filter (fun p => !(inStore t p.1))
    poison := s.poison.filter (fun p => !(inStore t (8 * p.1)))
    ecc := s.ecc.filter (fun p => !(inStore t (8 * p.1))) }

/-! ### Physical numbers (R25, R26) -/

/-- The physical Tiller of a logical number. -/
def State.physOf (s : State) (sh n : Nat) : Nat := Tbl.get n s.phys (sh * 64 + n)

/-! ### The folds of partial accumulators (R91, R430) -/

/-- The partials that stand, in an order, combined by FP32 additions from the left: `parts` gives the bits of each. -/
def foldPartials (parts : Nat → Option Nat) (order : List Nat) : Option Nat :=
  (order.filterMap parts).foldl (fun acc x => some (match acc with
    | none => x
    | some a => addFp32 a x)) none

/-- The logical Tillers of a Sheaf in the order in which its transfer engine folds their partials: ascending physical
number, or ascending logical number under PORTABLE. -/
def State.foldOrder (s : State) (sh : Nat) : List Nat :=
  let here := (List.range 64).filter (fun n => !(Tbl.get false s.absent (sh * 64 + n)))
  if s.flag .MGT_DET_CTRL_PORTABLE 0 then here
  else (List.range 68).flatMap (fun p => here.filter (fun n => s.physOf sh n == p))

/-- The fold of a Sheaf: `parts` gives the partial of a logical Tiller. -/
def State.sheafFold (s : State) (sh : Nat) (parts : Nat → Option Nat) : Option Nat := foldPartials parts (s.foldOrder sh)

/-- The fold of the module: the Sheafs' folds in ascending Sheaf number. -/
def State.moduleFold (s : State) (parts : Nat → Nat → Option Nat) : Option Nat :=
  foldPartials (fun sh => s.sheafFold sh (parts sh)) (List.range 12)

/-! ### Spares (R452, R453) -/

/-- The lowest-numbered unused spare of a Sheaf. -/
def State.freeSpare (s : State) (sh : Nat) : Option Nat :=
  [64, 65, 66, 67].find? (fun p => !(Tbl.get false s.used (sh * 68 + p)))

/-- A logical number becomes absent: class 0x95. -/
def State.tillerAbsent (s : State) (sh n : Nat) : State :=
  let s1 := s.freshTiller (sh * 64 + n)
  ({ s1 with absent := Tbl.set false s1.absent (sh * 64 + n) true } : State).raiseNo 0x95 mgtUnit (sh + n * 2 ^ 8)

/-- A spare takes a logical number: class 0x94, and a change of the disabled-unit map. -/
def State.tillerMapped (s : State) (sh n p : Nat) : State :=
  let s1 := s.freshTiller (sh * 64 + n)
  let s2 : State := { s1 with
    phys := Tbl.put s1.phys (sh * 64 + n) p
    used := Tbl.set false s1.used (sh * 68 + p) true
    absent := Tbl.set false s1.absent (sh * 64 + n) false }
  (s2.raiseNo 0x94 mgtUnit (sh + n * 2 ^ 8 + p * 2 ^ 16)).dumapChanged sh p

/-- A spare replaces a logical Tiller, or there is none left. -/
def State.replaceTiller (s : State) (sh n : Nat) : State :=
  match s.freeSpare sh with
  | some p => s.tillerMapped sh n p
  | none => (s.tillerAbsent sh n).satAdd .MGT_DET_EVT_DUMAP_CHANGES 0 1

/-- A Tiller of the Sheaf has a STATE between two values. -/
def State.sheafStates (s : State) (sh lo hi : Nat) : Bool :=
  (List.range 64).any (fun n => decide (lo ≤ s.tstate (sh * 64 + n)) && decide (s.tstate (sh * 64 + n) ≤ hi))

/-- A write of MAP. It is refused while a Tiller of the Sheaf has STATE 2 to 6, and while a mapping is in progress. -/
def State.mapSpare (s : State) (sh n : Nat) : State :=
  if s.sheafStates sh 2 6 || s.flag .SHF_SPARE_BUSY sh then s
  else
    ({ s with power := { s.power with mapping := Tbl.put s.power.mapping sh n } } : State).setFlag .SHF_SPARE_BUSY sh true

/-- The mapping takes effect. -/
def State.mapDone (s : State) (sh : Nat) : State :=
  if s.flag .SHF_SPARE_BUSY sh then (s.setFlag .SHF_SPARE_BUSY sh false).replaceTiller sh (Tbl.get 0 s.power.mapping sh) else s

/-- FUSE under presence makes a Sheaf's mappings permanent. -/
def State.fuseSheaf (s : State) (sh : Nat) : State :=
  let mine := fun (k : Nat) => decide (sh * 64 ≤ k) && decide (k < sh * 64 + 64)
  let spares := fun (k : Nat) => decide (sh * 68 ≤ k) && decide (k < sh * 68 + 68)
  { s with power := { s.power with
      fusedPhys := (s.phys.filter (fun p => mine p.1)).foldl (fun t p => Tbl.put t p.1 p.2) s.power.fusedPhys
      fusedUsed := (s.used.filter (fun p => spares p.1)).foldl (fun t p => Tbl.put t p.1 p.2) s.power.fusedUsed } }

/-! ### RENUMBER (R453) -/

/-- The enabled logical numbers of a Sheaf in ascending physical order. -/
def State.byPhysical (s : State) (sh : Nat) : List Nat :=
  (List.range 68).filterMap (fun p =>
    (List.range 64).find? (fun n => !(Tbl.get false s.absent (sh * 64 + n)) && s.physOf sh n == p))

/-- The new logical Tiller of an old one: its rank in the list; an absent one takes a number above. -/
def newIndex (l : List Nat) (sh t : Nat) : Nat :=
  if t / 64 ≠ sh then t
  else
    match l.findIdx? (· == t % 64) with
    | some k => sh * 64 + k
    | none => sh * 64 + l.length + ((List.range (t % 64)).filter (fun n => !(l.contains n))).length

/-- A table whose keys move. -/
def rekey {α : Type} (f : Nat → Nat) (t : Table α) : Table α := t.foldl (fun d p => Tbl.put d (f p.1) p.2) []

/-- A device address after Tillers have moved. -/
def movedAddr (f : Nat → Nat) (a : Nat) : Nat :=
  if 0x100000000000 ≤ a ∧ a < 0x100C00000000 then
    let o := a - 0x100000000000
    storeAddr (f (o / 2 ^ 32 * 64 + o / 2 ^ 24 % 256)) (o % 2 ^ 24)
  else a

/-- A place in the register table after Tillers have moved. -/
def movedReg (f : Nat → Nat) (k : Nat) : Nat :=
  match tilRegs.find? (fun x => x.reg.flds.any (fun g => g.ctorIdx == k % 1024)) with
  | some x =>
    let n := max 1 x.count1
    (f (k / 1024 / n) * n + k / 1024 % n) * 1024 + k % 1024
  | none => k

/-- The key of an observation counter after Tillers have moved. -/
def movedCount (f : Nat → Nat) (k : Nat) : Nat :=
  if 65536 ≤ k then cycKey (f ((k - 65536) / 16) * 16 + (k - 65536) % 16)
  else if 1024 ≤ k then tcKey (f ((k - 1024) / 32)) ((k - 1024) % 32)
  else k

/-- The Tillers of a Sheaf, with all they hold, take other logical numbers. -/
def State.moveTillers (s : State) (f : Nat → Nat) : State :=
  { s with
    tillers := rekey f s.tillers
    regs := rekey (movedReg f) s.regs
    mem := rekey (movedAddr f) s.mem
    poison := rekey (fun k => movedAddr f (8 * k) / 8) s.poison
    ecc := rekey (fun k => movedAddr f (8 * k) / 8) s.ecc
    obs := { s.obs with cnt := rekey (movedCount f) s.obs.cnt } }

/-- RENUMBER: while every Tiller of the Sheaf has STATE 0 or 1, the enabled ones are numbered in physical order, and the
numbers above them are absent. -/
def State.renumber (s : State) (sh : Nat) : State :=
  if s.sheafStates sh 2 7 then s
  else
    let l := s.byPhysical sh
    let ps := l.map (s.physOf sh)
    let s1 := s.moveTillers (newIndex l sh)
    (List.range 64).foldl (fun s n =>
      { s with
        phys := Tbl.put s.phys (sh * 64 + n) (ps.getD n n)
        absent := Tbl.set false s.absent (sh * 64 + n) (decide (l.length ≤ n)) }) s1

/-! ### Fences (R454, R237, R253) -/

/-- A Sheaf is fenced: its stores are holes, its Tillers stop, its Glume bank fails its waits, class 0x96. -/
def State.fenceSheaf (s : State) (sh : Nat) : State :=
  if s.flag .MGT_DET_DUMAP_HI_FENCED sh then s
  else
    let s1 := ((s.setFlag .SHF_SPARE_FENCE sh true).setFlag .MGT_DET_DUMAP_HI_FENCED sh true).raiseNo 0x96 mgtUnit sh
    let s2 := s1.dumapChanged sh 0xFF
    let pids := (s2.glumes.map (·.1)).filter (fun p => p / 4096 == sh)
    pids.foldl (fun s p => s.failWaits p 0x21) s2

/-- A stack is fenced: an access that maps to it fails with class 0x49 until its tile is laid anew (R253). -/
def State.fenceOnly (s : State) (h : Nat) : State := s.setBit .HBM_STATUS_FENCED 0 h

/-- The tile of a fenced stack is laid anew (R237). -/
def State.relayStack (s : State) (h : Nat) : State :=
  { s.fenceOnly h with power := { s.power with relaid := s.power.relaid ||| (1#12 <<< h) } }

/-- A page of a region becomes a hole by the fence of a stack (R237, R259). -/
def holedBy (h base size : Nat) : Bool :=
  decide (base + size > 221184) &&
    (List.range size).any (fun k => (base + k) % 3 == h / 4 && decide (73728 ≤ (base + k) / 3))

/-- The fence of stack h takes pages from an enabled region (R259). -/
def State.regionHoled (s : State) (h : Nat) : Bool :=
  (s.flag .HBM_LOG_REGION_ENABLE 0 && holedBy h (s.fld .HBM_LOG_REGION_BASE_PG 0) (s.fld .HBM_LOG_REGION_SIZE_PG 0)) ||
    (s.flag .HBM_MIR_REGION_ENABLE 0 && holedBy h (s.fld .HBM_MIR_REGION_BASE_PG 0) (s.fld .HBM_MIR_REGION_SIZE_PG 0))

/-- A log record has a byte on a stack, or on a page that is a hole while its tile has a fenced stack (R237, R259). -/
def State.recOnStack (s : State) (h : Nat) (r : LogRec) : Bool :=
  (List.range (r.size / 32)).any (fun k =>
    let a := s.fld .HBM_LOG_REGION_BASE_PG 0 * 2 ^ 21 + r.off + 32 * k
    (s.hbmMap a).stack == h || holedBy h (a / 2 ^ 21) 1)

/-- The protected records that lay on the fenced stack are lost: OVF, and class 0x91 for the first of them (R259). -/
def State.logLost (s : State) (h : Nat) : State :=
  match s.logRecs.find? (s.recOnStack h) with
  | none => s
  | some r =>
    (({ s with logOvf := true } : State).setFlag .HBM_LOG_STATUS_OVF 0 true).raiseCtx 0x91 (s.fld .HBM_LOG_CTRL_CTX 0)
      (linkUnit 0) (r.pkt.sflow.toNat + r.mb % 2 ^ 32 * 2 ^ 32)

/-- A stack is fenced in service (R237, R253, R259). -/
def State.fenceStack (s : State) (h : Nat) : State :=
  if bitAt (s.fld .HBM_STATUS_FENCED 0) h then s
  else
    let s1 := s.fenceOnly h
    let s2 : State := { s1 with memCtl := { s1.memCtl with fencedAt := Tbl.put s1.memCtl.fencedAt h s.now } }
    (if s.regionHoled h then s2.setFlag .HBM_STATUS_REGION_ERR 0 true else s2).logLost h

/-- The stack waits for its tile to be laid anew: fenced, the only one of its tile, in its old place (R237). -/
def State.relayWaits (s : State) (h : Nat) : Bool :=
  bitAt (s.fld .HBM_STATUS_FENCED 0) h && !(s.power.relaid.getLsbD h) &&
    ((List.range 4).filter (fun k => bitAt (s.fld .HBM_STATUS_FENCED 0) (h / 4 * 4 + k))).length == 1

/-- The tile of a stack fenced in service is laid anew: the data of its three other stacks moves with its addresses, and what
lay on the fenced stack is lost (R237, R450; DESIGN CHOICE: notes/assumptions/87.md). -/
def State.relayInService (s : State) (h : Nat) : State :=
  let gone := fun (a : Nat) => decide (a < 0x9000000000) &&
    ((s.hbmMap a).stack == h || (a / 2 ^ 21 % 3 == h / 4 && decide (73728 ≤ a / 2 ^ 21 / 3)))
  let s1 : State := { s with
    mem := s.mem.filter (fun p => !(gone p.1))
    poison := s.poison.filter (fun p => !(gone (8 * p.1)))
    ecc := s.ecc.filter (fun p => !(gone (8 * p.1)))
    memCtl := { s.memCtl with
      lostShare := s.memCtl.lostShare ||| (1#12 <<< h), fencedAt := Tbl.del h s.memCtl.fencedAt } }
  s1.relayStack h

/-- A tile that waits is laid anew at a moment that the spec leaves open, at the latest 2 s after the fence (R450). -/
def State.relayEdge (s : State) : State :=
  (List.range 12).foldl (fun s h =>
    if s.relayWaits h then
      let s1 := s.useFree
      if s.freeBool || decide (Tbl.get 0 s.memCtl.fencedAt h + 2000000000 ≤ s.now) then s1.relayInService h else s1
    else s) s

end Sys2Proof.Machine
end

