-- ==== Sys2Proof/Machine/Resilience.lean ====
section
/-! DEFINITION. The commands of fault tolerance (R450-R473): lanes, spares and fences, the buddy mirror, takeover, the input
log's replay, and measured margins. -/

namespace Sys2Proof.Machine

/-! ### Lanes, spares and fences (R451-R454, R476) -/

/-- The table key of a connection: a bundle, a UCIe module of a crossing, or one of an optical engine. -/
def laneKey : D2d → Nat
  | .vertical s b => 3 * (s.val + 12 * b)
  | .crossing m => 3 * m.val + 1
  | .engine p m => 3 * (4 * p.val + m.val) + 2

/-- Spare lanes of a connection (R28). -/
def laneSpares : D2d → Nat
  | .vertical _ _ => 4
  | .crossing _ => Config.ucieSpares
  | .engine _ _ => Config.ucieSpares

/-- The lanes of a connection that its spares carry, spare 0 first: those that assembly test fused, then those of the start
map. A lane that stands twice has lost its first spare too. -/
def State.laneMap (s : State) (d : D2d) : List Nat :=
  Tbl.get [] s.power.fusedLanes (laneKey d) ++ Tbl.get [] s.power.spareLanes (laneKey d)

/-- A connection without a spare for a failed lane: the Sheaf of a vertical bundle is lost, a UCIe module of a crossing is
removed (R451), and one of an optical engine leaves its port (R320). -/
def State.connectionLost (s : State) : D2d → State
  | .vertical sh _ => s.fenceSheaf sh.val
  | .crossing m => { s with power := { s.power with crossLost := s.power.crossLost ||| (1#32 <<< m.val) } }
  | .engine p m => s.doModuleLost p.val m.val

/-- A lane, or the spare that carries it, fails: the next spare takes it, and it joins the start map (R29, R451). -/
def State.laneRepair (s : State) (d : D2d) (lane : Nat) : State :=
  if (s.laneMap d).length < laneSpares d then
    { s with power := { s.power with
        spareLanes := Tbl.put s.power.spareLanes (laneKey d) (Tbl.get [] s.power.spareLanes (laneKey d) ++ [lane]) } }
  else s.connectionLost d

def execD2dLaneRepair (d : D2d) (lane : Fin 64) (s : State) : Host.Outcome State Fault Refusal :=
  .next (if s.linksRun then s.laneRepair d lane.val else s)

/-- A write of SHF_SPARE with a bit set: N, then the command. -/
def State.spareCmd (s : State) (org : Origin) (sh bit n : Nat) (act : State → State) : State :=
  s.regCmd org .SHF_SPARE sh (2 ^ bit + n * 2 ^ 53) (fun s => act (s.setFld .SHF_SPARE_N sh n))

def execMap (org : Origin) (sh : Fin 12) (n : Fin 64) (s : State) : Host.Outcome State Fault Refusal :=
  .next (s.spareCmd org sh 63 n (fun s => s.mapSpare sh n))

def execSpareMapComplete (sh : Fin 12) (s : State) : Host.Outcome State Fault Refusal := .next (s.mapDone sh)

def execFuse (org : Origin) (sh : Fin 12) (s : State) : Host.Outcome State Fault Refusal :=
  .next (s.rwpCmd org .SHF_SPARE sh (2 ^ 62) (fun s => s.fuseSheaf sh))

def execRenumber (org : Origin) (sh : Fin 12) (s : State) : Host.Outcome State Fault Refusal :=
  .next (s.spareCmd org sh 61 (s.fld .SHF_SPARE_N sh) (fun s => s.renumber sh))

def execFenceSheaf (org : Origin) (sh : Fin 12) (s : State) : Host.Outcome State Fault Refusal :=
  .next (s.spareCmd org sh 60 (s.fld .SHF_SPARE_N sh) (fun s => s.fenceSheaf sh))

/-! ### The buddy mirror at its source (R459, R460) -/

def State.mirCtx (s : State) : Nat := s.fld .HBM_MIR_CTRL_CTX 0

/-- The Glume cache of the mirror writer's tile: C, whose Z port its flow uses (DEDUCED: notes/assumptions/44.md). -/
def mirCache : Nat := 14

/-- The value of SYNC_VID's Glume. -/
def State.syncValue (s : State) : State × Nat :=
  match s.glumeXlat mirCache s.mirCtx (s.fld .HBM_MIR_CTRL_SYNC_VID 0) with
  | (s1, .ok pid) => (s1, s1.glumeValue pid)
  | (s1, .bad cls pid) =>
    (s1.raiseGlume cls s.mirCtx pid
      (glumeDetail (s.fld .HBM_MIR_CTRL_SYNC_VID 0) pid 0 0 0), s.mirror.lastSync)

/-- A write of HBM_MIR_CTRL: while ENABLE is 1 only ENABLE takes it. Setting ENABLE marks every block dirty. -/
def State.mirrorCtrl (s : State) (mask val : Nat) : State :=
  if s.flag .HBM_MIR_CTRL_ENABLE 0 then s.writeFld .HBM_MIR_CTRL_ENABLE 0 mask val
  else
    let s1 := s.writeReg .HBM_MIR_CTRL 0 mask val
    if s1.flag .HBM_MIR_CTRL_ENABLE 0 then
      let v := s1.syncValue
      { v.1 with mirror := { v.1.mirror with dirty := [], allDirty := true, lastSync := v.2, sync := none } }
    else s1

def execMirrorEnable (org : Origin) (val : Word) (s : State) : Host.Outcome State Fault Refusal :=
  .next (s.regCmd org .HBM_MIR_CTRL 0 val.toNat (fun s => s.mirrorCtrl fullMask val.toNat))

/-- The enabled mirror ranges, each with its first 64 KiB block, its blocks, and its offset in their concatenation. -/
def State.mirRanges (s : State) : List (Nat × Nat × Nat) :=
  ((List.range 8).foldl (fun (p : List (Nat × Nat × Nat) × Nat) k =>
    if s.flag .HBM_MIR_SRC_EN k then
      let n := 32 * s.fld .HBM_MIR_SRC_SIZE_PG k
      (p.1 ++ [(32 * s.fld .HBM_MIR_SRC_BASE_PG k, n, p.2)], p.2 + n)
    else p) ([], 0)).1

/-- The offset of a block in the concatenation of the ranges, in blocks. -/
def State.mirOffset (s : State) (b : Nat) : Option Nat :=
  (s.mirRanges.find? (fun r => decide (r.1 ≤ b) && decide (b < r.1 + r.2.1))).map (fun r => r.2.2 + (b - r.1))

/-- The dirty blocks. -/
def State.dirtyBlocks (s : State) : List Nat :=
  if s.mirror.allDirty then s.mirRanges.flatMap (fun r => (List.range r.2.1).map (fun k => r.1 + k))
  else s.mirror.dirty.map (·.1)

/-- Send one block to the buddy's region, as sixteen WRITE packets. -/
def State.sendBlock (s : State) (b : Nat) : State :=
  match s.mirOffset b with
  | none => s
  | some o =>
    let f := s.fld .HBM_MIR_CTRL_FLOW 0
    let r := s.memRead (roleAcc .mirror s.mirCtx 4) (b * 65536) 65536
    (List.range 16).foldl (fun s j =>
      let h := (r.2.drop (4096 * j)).take 4096
      s.queuePkt f (writePkt f (Config.buddyBase + o * 65536 + 4096 * j) (vals h) (anyPoison h) s.mirCtx))
      (r.1.count 7 65536)

/-- An increase of SYNC_VID starts one sync, unless one is in progress. -/
def State.doSync (s : State) : State :=
  if s.ready && s.flag .HBM_MIR_CTRL_ENABLE 0 && s.mirror.sync.isNone then
    let v := s.syncValue
    if s.mirror.lastSync < v.2 then
      let l := s.dirtyBlocks
      l.foldl (fun s b => s.sendBlock b) { v.1 with mirror := { v.1.mirror with
        dirty := [], allDirty := false, lastSync := s.mirror.lastSync + 1,
        sync := some (s.fld .HBM_MIR_STATUS_GEN 0 + 1) } }
    else v.1
  else s

def execMirrorSync (s : State) : Host.Outcome State Fault Refusal := .next s.doSync

/-- The buddy has every block of the sync: the flow has nothing waiting and nothing unacknowledged (DEDUCED:
notes/assumptions/45.md). DONE_VID is signalled and GEN increments. -/
def State.doSyncDone (s : State) : State :=
  let x := s.sendFlow (s.fld .HBM_MIR_CTRL_FLOW 0)
  if s.linksRun && s.mirror.sync.isSome && x.queue.isEmpty && x.retain.isEmpty then
    (({ s with mirror := { s.mirror with sync := none } } : State).wrapAdd .HBM_MIR_STATUS_GEN 0 1).sendSignal mirCache
      s.mirCtx (s.fld .HBM_MIR_CTRL_DONE_VID 0) 1
  else s

def execMirrorSyncComplete (s : State) : Host.Outcome State Fault Refusal := .next s.doSyncDone

/-! ### The buddy mirror at the buddy (R461) -/

/-- The first byte of the tag table. -/
def State.tagBase (s : State) : Nat :=
  let n := s.fld .HBM_MIR_REGION_SIZE_PG 0 * 2 ^ 21
  s.fld .HBM_MIR_REGION_BASE_PG 0 * 2 ^ 21 + n - n / 16384

/-- A block whose 64 KiB have all arrived is written to the region, and then its tag; one that maps to a holed page is discarded
with class 0x93 and DISCARD, and its tag keeps its value (R259, R461, R477). Its sync number is a free value: no packet carries it
(notes/assumptions/2.md). -/
def State.doCommit (s : State) (blk : Nat) : State :=
  let cells := (Tbl.get (0, []) s.mirror.rx blk).2
  if s.linksRun && s.flag .HBM_MIR_REGION_ENABLE 0 && decide (65536 ≤ cells.length) then
    let base := s.fld .HBM_MIR_REGION_BASE_PG 0 * 2 ^ 21 + blk * 65536
    if s.accClass (roleAcc .mirror 0 5) base = 0x40 then
      (({ s with mirror := { s.mirror with rx := Tbl.del blk s.mirror.rx } } : State).setFlag .HBM_MIR_STATUS_DISCARD 0
        true).raiseNo 0x93 (linkUnit 5) blk
    else
    let s1 := (s.memWriteCells (roleAcc .mirror 0 5) (cells.map (fun p => (base + p.1, p.2)))).wrote base 65536
    let s2 := s1.useFree.memWrite (roleAcc .mirror 0 5) (s.tagBase + 4 * blk) (clean (leBytes 4 (Config.syncNumber s1.fresh % 2 ^ 32)))
    { s2 with mirror := { s2.mirror with rx := Tbl.del blk s2.mirror.rx } }
  else s

def execMirrorBlockCommit (block : Nat) (s : State) : Host.Outcome State Fault Refusal := .next (s.doCommit block)

/-! ### Takeover (R463, R466-R468) -/

/-- The -Z port is ACTIVE with BYPASS, and the management path reports that neighbour unreachable or gives no answer. -/
def State.doNeighbourLost (s : State) : State :=
  if s.linksRun && s.portState 5 == 5 && s.fld .LNK_PEER_BYPASS 5 != 0 && !(s.flag .MGT_PEER_BUSY 0) &&
      s.fld .MGT_PEER_NODE 0 == s.minusZ && s.fld .MGT_PEER_RESULT 0 != 0 then
    s.raiseNo 0x90 (linkUnit 5) s.minusZ
  else s

def execNeighbourLost (s : State) : Host.Outcome State Fault Refusal := .next s.doNeighbourLost

/-- The bytes behind the last released signal leave the flow's ingress queue. -/
def State.trimQueue (s : State) (d : Nat) : State :=
  match s.ingressOf d with
  | none => s
  | some (t, q) =>
    let y := s.til t
    let l := Tbl.get [] y.ingress q
    s.setTil t { y with ingress := Tbl.put y.ingress q (l.take (l.length - (s.recvFlow d).tailBytes)) }

/-- Trim a receive flow: it closes, what it parked and what its queue holds past its last signal are discarded. -/
def State.flowTrim (s : State) (d : Nat) : State :=
  let s1 := (s.setFld .FAB_FLOW_TRIM_FLOW 0 d).setFld .FAB_FLOW_TRIM_SIGS 0 (s.recvFlow d).sigs
  ((s1.trimQueue d).discardMirror d).setRecvFlow d RecvFlow.reset

def execFlowTrim (org : Origin) (flow : BitVec 14) (s : State) : Host.Outcome State Fault Refusal :=
  .next (s.regCmd org .FAB_FLOW_TRIM 0 (2 ^ 63 + flow.toNat * 2 ^ 32) (fun s => s.flowTrim flow.toNat))

/-- An open send flow withholds packets until it has withheld SKIP signals. -/
def State.flowSkip (s : State) (f skip : Nat) : State :=
  let s1 := (s.setFld .FAB_FLOW_SKIP_FLOW 0 f).setFld .FAB_FLOW_SKIP_SKIP 0 skip
  let x := s.sendFlow f
  if x.opened then s1.setSendFlow f { x with skip := skip } else s1

def execFlowSkip (org : Origin) (flow : BitVec 14) (skip : BitVec 32) (s : State) : Host.Outcome State Fault Refusal :=
  .next (s.regCmd org .FAB_FLOW_SKIP 0 (2 ^ 63 + flow.toNat * 2 ^ 32 + skip.toNat) (fun s =>
    s.flowSkip flow.toNat skip.toNat))

/-- A log record can be read back. -/
def State.recReadable (s : State) (r : LogRec) : Bool :=
  s.accClass (roleAcc .log 0 0) (s.logBase + r.off) == 0 && !(s.poisoned (s.logBase + r.off))

/-- Start a replay of an open send flow's records; a record that is missing stops it with class 0x92. -/
def State.logReplay (s : State) (f : Nat) : State :=
  let s1 := s.setFld .HBM_LOG_REPLAY_FLOW 0 f
  let x := s.sendFlow f
  if s.flag .HBM_LOG_REPLAY_BUSY 0 || !x.opened then s1
  else
    let l := s.logRecs.filter (fun r => r.pkt.sflow.toNat == f)
    let good := l.takeWhile s.recReadable
    let s2 := s1.setSendFlow f { x with replayQ := x.replayQ ++ good.map (·.pkt) }
    if good.length < l.length || s.logOvf then
      (s2.setFlag .HBM_LOG_REPLAY_FAIL 0 true).raiseCtx 0x92 (s.fld .HBM_LOG_CTRL_CTX 0) (linkUnit 0)
        (f + ((l.drop good.length).head?.map (·.mb)).getD x.sigs * 2 ^ 32)
    else s2.setFlag .HBM_LOG_REPLAY_BUSY 0 true

def execLogReplay (org : Origin) (flow : BitVec 14) (s : State) : Host.Outcome State Fault Refusal :=
  .next (s.regCmd org .HBM_LOG_REPLAY 0 (2 ^ 63 + flow.toNat) (fun s => s.logReplay flow.toNat))

/-- The replay is over when its flow has injected every record. -/
def State.doReplayDone (s : State) : State :=
  if s.flag .HBM_LOG_REPLAY_BUSY 0 && (s.sendFlow (s.fld .HBM_LOG_REPLAY_FLOW 0)).replayQ.isEmpty then
    s.setFlag .HBM_LOG_REPLAY_BUSY 0 false
  else s

def execLogReplayComplete (s : State) : Host.Outcome State Fault Refusal := .next s.doReplayDone

/-! ### Measured margins (R472, R473) -/

/-- A margin below its warning and its limit: WARN with class 0x98, LIMIT with class 0x99. -/
def State.marginCheck (s : State) (warn limit : Fld) (i v w l detail : Nat) : State :=
  let s1 := if v < w then (s.setFlag warn i true).raiseNo 0x98 mgtUnit detail else s
  if v < l then (s1.setFlag limit i true).raiseNo 0x99 mgtUnit detail else s1

/-- The detail of a margin record: kind (0 timing, 1 voltage, 2 optical), unit, value. -/
def marginDetail (kind unit v : Nat) : Nat := kind + unit % 2 ^ 16 * 2 ^ 16 + v % 2 ^ 32 * 2 ^ 32

/-- One reading is checked. -/
def State.marginOne (s : State) : MarginReading → State
  | .timing sh n ps =>
    s.marginCheck .HLT_MARGIN_SHF_WARN .HLT_MARGIN_SHF_LIMIT sh ps 30 12 (marginDetail 0 (sh.val * 64 + n.val) ps)
  | .voltage sh mv =>
    (s.setFld .HLT_MARGIN_SHF_V_MV sh (min mv 255)).marginCheck .HLT_MARGIN_SHF_WARN .HLT_MARGIN_SHF_LIMIT sh mv 40 15
      (marginDetail 1 sh.val mv)
  | .optical p c db =>
    let s1 := s.marginCheck .HLT_MARGIN_PORT_WARN .HLT_MARGIN_PORT_LIMIT p db 20 5 (marginDetail 2 (p.val * 64 + c.val) db)
    if db < 5 then s1.doSymbolFail p c else s1

/-- The least reading of a list of (unit, value). -/
def leastOf : List (Nat × Nat) → Option (Nat × Nat)
  | [] => none
  | x :: t =>
    match leastOf t with
    | none => some x
    | some y => some (if y.2 < x.2 then y else x)

/-- The worst Tiller of each Sheaf and the worst channel of each port in one measurement. -/
def State.marginWorst (s : State) (l : List MarginReading) : State :=
  let s1 := (List.range 12).foldl (fun s k =>
    match leastOf (l.filterMap (fun r => match r with
      | .timing sh n ps => if sh.val = k then some (n.val, ps) else none
      | _ => none)) with
    | some (n, ps) => (s.setFld .HLT_MARGIN_SHF_T_PS k (min ps 48)).setFld .HLT_MARGIN_SHF_T_TILLER k n
    | none => s) s
  (List.range 8).foldl (fun s k =>
    match leastOf (l.filterMap (fun r => match r with
      | .optical p c db => if p.val = k then some (c.val, db) else none
      | _ => none)) with
    | some (c, db) => (s.setFld .HLT_MARGIN_PORT_O_DB10 k (min db 255)).setFld .HLT_MARGIN_PORT_O_CH k c
    | none => s) s1

/-- PERIOD_S seconds have passed since the last measurement; the first one is due at once (notes/assumptions/169.md). -/
def State.marginDue (s : State) : Bool :=
  match s.power.marginAt with
  | none => true
  | some t => decide (t + s.fld .HLT_MARGIN_CFG_PERIOD_S 0 * 1000000000 ≤ s.now)

/-- The time of a measurement is kept. -/
def State.marginTaken (s : State) : State := { s with power := { s.power with marginAt := some s.now } }

/-- A measurement, once every PERIOD_S seconds while EN is 1. -/
def State.doMargins (s : State) (l : List MarginReading) : State :=
  if s.linksRun && s.flag .HLT_MARGIN_CFG_EN 0 && s.marginDue then
    l.foldl (fun s r => s.marginOne r) (s.marginTaken.marginWorst l)
  else s

def execMarginMeasure (readings : List MarginReading) (s : State) : Host.Outcome State Fault Refusal :=
  .next (s.doMargins readings)

end Sys2Proof.Machine
end

