-- ==== Sys2Proof/Machine/Startup.lean ====
section
/-! DEFINITION. Supplies, main power and start-up (R482-R492, R559, R568): what a reset keeps, how main power comes and
goes, and the steps of start-up. -/

namespace Sys2Proof.Machine

/-! ### What a reset of the main domain keeps (R482, R491) -/

/-- The fields whose values are fused, or lie in flash. -/
def fusedFlds : List Fld :=
  [.LNK_CHFUSE_TX_FUSED, .LNK_CHFUSE_RX_FUSED, .SEC_KEYHASH_HASH, .SEC_STATUS_KEY_FUSED, .PWR_CLK_PLAN_FMAX_MHZ,
    .MGT_FW_VER_MIN_VER, .MGT_FW_VER_STAGED_VER, .MGT_FW_SLOT, .MGT_FW_RUN_VER, .MGT_FW_TRIAL, .MGT_FW_STAGE,
    .MGT_AUDIT_SEQ_NEXT]

/-- A register of the always-on domain: MGT, PWR and HLT but the mode registers MGT_DET (DEDUCED:
notes/assumptions/46.md). -/
def Reg.stays (r : Reg) : Bool :=
  r.alwaysOn && !(decide (0x400 ≤ r.info.base) && decide (r.info.base < 0x500))

/-- Fields that a module reset and a cold start clear although their register stays. -/
def clearedFlds : List Fld :=
  [.MGT_FENCED_SHEAF, .MGT_FENCED_STACK, .MGT_FENCED_PORT, .PWR_STATUS_READY,
    .PWR_STATUS_START_STEP, .PWR_STATUS_HOLDOVER, .PWR_STATUS_MAIN_GOOD, .PWR_STATUS_STATE,
    .PWR_CLK_PLAN_FREQ_NOW_MHZ, .PWR_STRETCH_LAST, .PWR_STRETCH_REQ, .PWR_LASER_APPLIED, .PWR_MTIME_MTIME,
    .MGT_AUDIT_STAT_MTIME_UNSET]

/-- The codes of the fields that a reset of the main domain keeps. -/
def keptCodes : List Nat :=
  ((regTable.filter (fun x => x.reg.stays)).flatMap (fun x => x.reg.flds.map (·.ctorIdx)) ++ fusedFlds.map (·.ctorIdx)).filter
    (fun k => !((clearedFlds.map (·.ctorIdx)).contains k))

/-- Far and host memory are not the module's (R11). -/
def outside (a : Nat) : Bool := decide (0x400000000000 ≤ a)

/-- The power state after a reset of the main domain. -/
def Power.mainReset (p : Power) : Power :=
  { p with
    holdAt := none, thermAt := none, hostUp := false, slew := none, mtimeSet := none, settime := false, emergency := false,
    thermLow := false, freqNext := none, clockHold := 0, vOffset := [], slackSince := [], marginAt := none, capOver := 0, stretchAt := [], stretchOn := none,
    switches := 0, crossLost := 0, farWays := 0, farBifur := 0, mapping := [], viewBad := [], relaid := 0 }

/-- The optical switches are released. -/
def State.releaseSwitches (s : State) : State := (List.range 4).foldl (fun s a => s.driveSwitch a false) s

/-- The whole main domain is reset: its registers, memory and units. The always-on domain, flash, the fused maps and the
retirement list are kept (R491). -/
def State.resetMain (s : State) : State :=
  let s0 := s.releaseSwitches
  { State.reset with
    pending := s0.pending
    regs := s0.regs.filter (fun p => keptCodes.contains (p.1 % 1024))
    mem := s0.mem.filter (fun p => outside p.1)
    poison := s0.poison.filter (fun p => outside (8 * p.1))
    ecc := s0.ecc.filter (fun p => outside (8 * p.1))
    fresh := s0.fresh
    retired := s0.retired
    softRepairs := s0.softRepairs
    power := s0.power.mainReset
    audit := s0.audit
    flash := s0.flash
    auditPrev := s0.auditPrev
    flashed := s0.flashed
    out := s0.out }

/-! ### Firmware slots at a start (R559, R563) -/

/-- Fill entry k of the allow list. -/
def State.fillAllow (s : State) (k e : Nat) : State :=
  (((s.setFld .SEC_ALLOW_VENDOR k (bitsOf e 63 48)).setFld .SEC_ALLOW_DEVICE k (bitsOf e 47 32)).setFld
    .SEC_ALLOW_MIN_FW k (bitsOf e 31 16)).setFld .SEC_ALLOW_VALID k (e % 2)

/-- Load the guest allow list of the running bundle. -/
def State.loadAllow (s : State) : State :=
  let v := s.fld .MGT_FW_RUN_VER 0
  let s1 := (List.range 32).foldl (fun s k => s.fillAllow k (Config.allowEntry v k).toNat) s
  (s1.setFld .SEC_STATUS_ALLOW_COUNT 0 ((List.range 32).filter (fun k => s1.flag .SEC_ALLOW_VALID k)).length).setFlag
    .SEC_STATUS_ALLOW_LOADED 0 true

/-- The other firmware slot. -/
def State.otherSlot (s : State) : Nat := 1 - s.fld .MGT_FW_SLOT 0

/-- A start of the part: a slot that was activated takes over. -/
def State.startFirmware (s : State) : State :=
  if s.power.activated then
    let v := s.fld .MGT_FW_VER_STAGED_VER 0
    ((((({ s with power := { s.power with activated := false } } : State).setFld .MGT_FW_SLOT 0 s.otherSlot).setFld
      .MGT_FW_RUN_VER 0 v).setFlag .MGT_FW_TRIAL 0 true).setFld .MGT_FW_STAGE 0 0).loadAllow
  else s.loadAllow

/-! ### Main power -/

/-- The five groups of main rails come up in order (R489). -/
def State.railsUp (s : State) : State :=
  ((((s.emit (.rails 1 true)).emit (.rails 2 true)).emit (.rails 3 true)).emit (.rails 4 true)).emit (.rails 5 true)

/-- The groups go down in the reverse order (R489). -/
def State.railsDown (s : State) : State :=
  ((((s.emit (.rails 5 false)).emit (.rails 4 false)).emit (.rails 3 false)).emit (.rails 2 false)).emit (.rails 1 false)

/-- Main power goes off. -/
def State.mainOff (s : State) : State := s.resetMain.railsDown

/-- A reading stands at or above its sensor's warning. -/
def sensorLimits (code : Nat) : Nat × Nat × Nat :=
  if code < 128 then (95, 105, 115) else if code < 160 then (85, 95, 105) else (70, 75, 85)

/-- The level of a reading: 0 normal, 1 warning, 2 emergency, 3 trip (R500). -/
def sensorLevel (code t : Nat) : Nat :=
  let l := sensorLimits code
  if l.2.2 ≤ t then 3 else if l.2.1 ≤ t then 2 else if l.1 ≤ t then 1 else 0

/-- Main power may be released: both supplies good, seated, and after a trip every sensor below its warning (R482, R503,
R568). -/
def State.mayRelease (s : State) : Bool :=
  s.power.auxGood && s.power.vinGood && s.power.seated && s.fld .PWR_STATUS_STATE 0 == 0 &&
    (!s.power.thermtrip || s.power.temps.all (fun p => sensorLevel p.1 p.2 == 0))

/-- A module reset or a cold start clears UNLOCKED, and the lock is an audited event (R551, R560). -/
def State.relock (s : State) : State :=
  if s.flag .MGT_DEBUG_UNLOCKED 0 then
    (s.setFlag .MGT_DEBUG_UNLOCKED 0 false).audit! true ⟨5, mgtUnit.kind * 4096 + mgtUnit.idx⟩ 0 0xFFFFFFFF 0 0 0
  else s

/-- Main power is released: start-up begins (R488), with debug locked (R560). -/
def State.releaseMain (s : State) : State :=
  let s0 := s.relock
  let s1 := if s0.power.thermtrip then s0.emit (.thermtrip false) else s0
  (({ s1 with power := { s1.power with thermtrip := false, boots := s1.power.boots + 1 } } : State).startFirmware).setFld
    .PWR_STATUS_STATE 0 1

/-- The controller finds 48 V good for 100 ms and the module seated. -/
def State.doMainRelease (s : State) : State :=
  let s1 : State := { s with power := { s.power with vinGood := true, seated := true } }
  if s1.mayRelease && s1.flag .PWR_CFG_AUTO_ON 0 then s1.releaseMain else s1

def execMainRelease (s : State) : Host.Outcome State Fault Refusal := .next s.doMainRelease

/-- MAIN_ON releases main power under the same conditions. -/
def execMainOn (org : Origin) (s : State) : Host.Outcome State Fault Refusal :=
  .next (s.regCmd org .PWR_CTRL 0 4 (fun s => if s.mayRelease then s.releaseMain else s))

/-- Every port that carries a stream sends LEAVING; the 10 us of R347 pass within the step (DESIGN CHOICE:
notes/assumptions/164.md). -/
def State.leaveAll (s : State) : State :=
  ((List.range 8).filter (fun p => decide (4 ≤ s.portState p) && decide (s.portState p ≤ 5))).foldl State.leave s

/-- An orderly shutdown (R487): hold, LEAVING on every ACTIVE port, switches, the audited record, rails off. Cause: 0
brown-out, 1 hold limit or software. -/
def State.shutdown (s : State) (cause : Nat) : State :=
  if s.fld .PWR_STATUS_STATE 0 = 0 then s
  else
    let s1 := s.setFld .PWR_STATUS_STATE 0 7
    let s2 := s1.leaveAll
    (s2.releaseSwitches.raiseNo 0x03 mgtUnit cause).mainOff

/-- The input has fallen to 38.0 V: an orderly shutdown. -/
def State.doInputLow (s : State) : State :=
  let s1 := s.shutdown 0
  { s1 with power := { s1.power with vinGood := false } }

def execOrderlyShutdown (s : State) : Host.Outcome State Fault Refusal := .next s.doInputLow

def execOff (org : Origin) (s : State) : Host.Outcome State Fault Refusal :=
  .next (s.regCmd org .PWR_CTRL 0 2 (fun s => s.shutdown 1))

/-- SEATED_N rises. -/
def State.doUnseated (s : State) : State :=
  let s1 := s.shutdown 1
  { s1 with power := { s1.power with seated := false } }

def execSeatedRelease (s : State) : Host.Outcome State Fault Refusal := .next s.doUnseated

/-- The input falls below 42.0 V while start-up runs: main goes off. -/
def State.doStartBrownout (s : State) : State :=
  if s.fld .PWR_STATUS_STATE 0 = 1 then s.mainOff else s

def execBrownoutBeforeReady (s : State) : Host.Outcome State Fault Refusal := .next s.doStartBrownout

/-- The input rises above 60 V: class 0x01, main off at once. -/
def State.doOvervoltage (s : State) : State :=
  let s1 := s.raiseNo 0x01 mgtUnit 2
  let s2 := if s1.fld .PWR_STATUS_STATE 0 = 0 then s1 else s1.mainOff
  { s2 with power := { s2.power with vinGood := false } }

def execInputOvervoltage (s : State) : Host.Outcome State Fault Refusal := .next s.doOvervoltage

/-! ### Aux (R483) -/

/-- Aux becomes good: management boots with the address straps. -/
def State.doAuxRise (s : State) (addr : BitVec 3) : State :=
  if s.power.auxGood then s else { s with power := { s.power with auxGood := true, straps := addr } }

def execAuxRise (addr : BitVec 3) (s : State) : Host.Outcome State Fault Refusal := .next (s.doAuxRise addr)

/-- The SMBus address, and the I3C static address, that the straps give (R576). -/
def State.smbAddr (s : State) : Nat := 0x58 + s.power.straps.toNat

/-- ALERT_N is asserted, as far as PWR_STATUS.THERM asserts it (R575); which PLDM event messages wait is not stated. -/
def State.alertPin (s : State) : Bool := s.power.auxGood && s.fld .PWR_STATUS_THERM 0 != 0

/-- Aux is lost; with 48 V present the always-on domain takes its feed. -/
def State.doAuxLost (s : State) : State :=
  if s.power.auxGood then
    let s1 : State := { s with power := { s.power with auxGood := false } }
    if s.power.vinGood then (s1.setFlag .PWR_STATUS_AUX_ON_MAIN 0 true).raiseNo 0x01 mgtUnit 0 else s1
  else s

def execAuxLost (s : State) : Host.Outcome State Fault Refusal := .next s.doAuxLost

/-- Aux returns. -/
def State.doAuxReturn (s : State) : State :=
  if s.power.auxGood then s
  else
    (({ s with power := { s.power with auxGood := true } } : State).setFlag .PWR_STATUS_AUX_ON_MAIN 0 false).raiseNo 0x01
      mgtUnit 1

def execAuxReturn (s : State) : Host.Outcome State Fault Refusal := .next s.doAuxReturn

/-! ### The audit log's way to flash (R554) -/

/-- Copy one entry to the flash ring of 1,048,576 entries. -/
def State.flashOne (s : State) (seq : Nat) : State :=
  { s with
    flash := Tbl.put s.flash (s.flashed % 1048576) (Tbl.get 0 s.audit (seq % 4096))
    flashed := s.flashed + 1 }

/-- Copy every unflushed entry. A ring that wraps sets WRAP with class 0x0C. -/
def State.auditFlush (s : State) : State :=
  let n := s.fld .MGT_AUDIT_STAT_UNFLUSHED 0
  let first := s.fld .MGT_AUDIT_SEQ_NEXT 0 - n
  let s1 := ((List.range n).foldl (fun s k => s.flashOne (first + k)) s).setFld .MGT_AUDIT_STAT_UNFLUSHED 0 0
  if (s.flashed - 1) / 1048576 < (s1.flashed - 1) / 1048576 then
    (s1.setFlag .MGT_AUDIT_STAT_WRAP 0 true).raiseNo 0x0C mgtUnit 0
  else s1

/-- The hold-up ends with both supplies lost: the unflushed audit entries are in flash, and the always-on domain stops.
What is fused or in flash stays. -/
def State.doHoldup (s : State) : State :=
  if s.power.auxGood || s.power.vinGood then s
  else
    let s1 := s.auditFlush.mainOff
    let keep := fusedFlds.map (·.ctorIdx)
    { s1 with
      regs := s1.regs.filter (fun p => keep.contains (p.1 % 1024))
      audit := []
      power := { Power.reset with
        perst := s1.power.perst, rackref := s1.power.rackref, refclk := s1.power.refclk, cxl := s1.power.cxl,
        bar2 := s1.power.bar2, hdmBase := s1.power.hdmBase, hdmSize := s1.power.hdmSize,
        spareLanes := s1.power.fusedLanes, fusedLanes := s1.power.fusedLanes, seated := s1.power.seated,
        fusedPhys := s1.power.fusedPhys, fusedUsed := s1.power.fusedUsed, age := s1.power.age,
        activated := s1.power.activated, slotVer := s1.power.slotVer, startFails := s1.power.startFails,
        boots := s1.power.boots } }

def execHoldupExpire (s : State) : Host.Outcome State Fault Refusal := .next s.doHoldup

/-! ### Module reset and PERST_N (R490-R492) -/

/-- A module reset: LEAVING on the ports (R347), the main domain is reset, and start-up runs again from step 2. -/
def State.moduleReset (s : State) : State :=
  if s.fld .PWR_STATUS_STATE 0 = 0 then s
  else
    let s1 := s.relock.leaveAll.resetMain
    ((({ s1 with power := { s1.power with boots := s1.power.boots + 1 } } : State).startFirmware).setFld
      .PWR_STATUS_STATE 0 1).setFld .PWR_STATUS_START_STEP 0 1

def execModuleReset (org : Origin) (s : State) : Host.Outcome State Fault Refusal :=
  .next (s.regCmd org .PWR_CTRL 0 1 (fun s => s.moduleReset))

/-- PERST_N is asserted: a Dormant part wakes first; the host port stops, and every context is reset. -/
def State.doPerst (s : State) : State :=
  let s1 := s.wakeUp 5
  let s2 : State := { s1 with power := { s1.power with
    perst := true, hostUp := false, bar2 := Power.reset.bar2, hdmBase := 0, hdmSize := 0 } }
  (List.range 4096).foldl (fun s c => s.doCtxReset c 0xFFFFFFFF) s2

def execPerstAssert (s : State) : Host.Outcome State Fault Refusal := .next s.doPerst

/-- The host port trains once PERST_N is deasserted and start-up step 3 has passed with REFCLK. -/
def State.hostTrains (s : State) : State :=
  if !s.power.perst && s.power.refclk && decide (3 ≤ s.fld .PWR_STATUS_START_STEP 0) then
    ({ s with power := { s.power with hostUp := true } } : State).setFlag .CMD_CFG_CXL 0 s.power.cxl
  else s

/-- What the host chooses when PERST_N is deasserted: PCIe or CXL, the size of BAR2 when it resizes it, and the HBM range of
the HDM decoder (R270, R271). Its configuration writes have no rows of their own (DESIGN CHOICE:
notes/assumptions/146.md). -/
def State.hostChooses (s : State) (cxl : Bool) (bar2 : Option (Fin 10)) (hdmBase hdmSize : Nat) : State :=
  { s with power := { s.power with
      perst := false, cxl := cxl, bar2 := (bar2.map (·.val)).getD Power.reset.bar2, hdmBase := hdmBase, hdmSize := hdmSize } }

def execPerstDeassert (cxl : Bool) (bar2 : Option (Fin 10)) (hdmBase hdmSize : BitVec 40) (s : State) :
    Host.Outcome State Fault Refusal :=
  .next (s.hostChooses cxl bar2 hdmBase.toNat hdmSize.toNat).hostTrains

/-! ### The steps of start-up (R488) -/

/-- Class 0x00: the step, and the unit. -/
def State.startRaise (s : State) (step unit : Nat) : State := s.raiseNo 0x00 mgtUnit (step + unit * 2 ^ 16)

/-- Start-up turns main off. -/
def State.startOff (s : State) (step : Nat) : State :=
  let s1 := (s.startRaise step 0).mainOff
  { s1 with power := { s1.power with startFails := s1.power.startFails + 1 } }

/-- The unit of a class 0x00 record for a Tiller: Sheaf and logical number as R299 codes them, since R25 keeps physical
numbers out of this record; a spare has no logical number and is named by 255 (DESIGN CHOICE: notes/assumptions/119.md). -/
def startTiller (sh : Nat) : Option Nat → Nat
  | some n => sh * 256 + n
  | none => sh * 256 + 255

/-- A physical Tiller fails a start-up test: a spare takes its number, or the number is absent; a spare that fails is never
used. -/
def State.tillerFails (s : State) (step sh p : Nat) : State :=
  let named := (List.range 64).find? (fun n => !(Tbl.get false s.absent (sh * 64 + n)) && s.physOf sh n == p)
  let s1 := s.startRaise step (startTiller sh named)
  match named with
  | some n => s1.replaceTiller sh n
  | none => { s1 with used := Tbl.set false s1.used (sh * 68 + p) true }

/-- The failing Tillers of a test, spares first. -/
def State.tillersFail (s : State) (step : Nat) (found : List StartFault) : State :=
  let l := found.filterMap (fun f => match f with
    | .tillerBad sh p => some (sh.val, p.val)
    | _ => none)
  (l.filter (fun x => decide (64 ≤ x.2)) ++ l.filter (fun x => decide (x.2 < 64))).foldl
    (fun s x => s.tillerFails step x.1 x.2) s

/-- The expansion port starts: it reads FAR_CFG, whose BIFUR 3 is x16 like 0, and finds a rate and a capacity of at most
4,096 GiB, which are the expander's: free values (R254, R269). -/
def State.startFar (s : State) : State :=
  let b := s.fld .FAR_CFG_BIFUR 0
  let s1 : State := { s with power := { s.power with
    farWays := s.fld .FAR_CFG_WAYS 0, farBifur := if b = 3 then 0 else b } }
  let s2 := s1.useFree.setFld .FAR_STATUS_RATE 0 s1.freeWord.toNat
  s2.useFree.setFld .FAR_STATUS_CAP_GIB 0 (s2.freeWord.toNat % 4097)

/-- Step 3: the PLLs lock, ck_core stands at 600 MHz, and the host port and the far-memory link may train. -/
def State.startClocks (s : State) (found : List StartFault) : State :=
  let ref := !(found.contains .refclkAbsent)
  let s1 := if ref then s else s.startRaise 3 1
  let s2 := (({ s1 with power := { s1.power with refclk := ref, rackref := true } } : State).setFld
    .PWR_CLK_PLAN_FREQ_NOW_MHZ 0 600).setFld .PWR_STATUS_START_STEP 0 3
  let s3 := (List.range 12).foldl (fun s k => s.emit (.rail k (s.railNow k))) s2
  if ref then s3.startFar.hostTrains else s3

/-- The number that names a UCIe module of a crossing in class 0x00: R508 says 'unit' and gives no code, the model takes
256 + m (DESIGN CHOICE: notes/assumptions/119.md). -/
def crossingUnit (m : Fin 32) : Nat := 256 + m.val

/-- Step 4: the fused maps are distributed, and every die-to-die lane is tested anew: a lane that fails joins the spare map
(R29), and a connection without a spare is lost under R451. -/
def State.startFuses (s : State) (found : List StartFault) : State :=
  let s1 : State := { s with phys := s.power.fusedPhys, used := s.power.fusedUsed, absent := [] }
  found.foldl (fun s f => match f with
    | .sheafLost sh => (s.startRaise 4 sh.val).fenceSheaf sh.val
    | .crossingLost m => (s.startRaise 4 (crossingUnit m)).connectionLost (.crossing m)
    | .laneBad d lane => s.laneRepair d lane.val
    | _ => s) s1

/-- Step 6: HBM trains; the tile of a stack that fails is laid over the other three. -/
def State.startHbm (s : State) (found : List StartFault) : State :=
  found.foldl (fun s f => match f with
    | .stackBad h => (s.startRaise 6 h.val).relayStack h.val
    | _ => s) s

/-- Step 7: the guest of each port is admitted, or refused with its port OFF. -/
def State.startGuests (s : State) (found : List StartFault) (guests : List GuestInfo) : State :=
  (List.range 8).foldl (fun s p =>
    match guests[p]? with
    | none => s
    | some g =>
      match found.findSome? (fun f => match f with
        | .guestRefused q k => if q.val = p then some k.val else none
        | _ => none) with
      | some k => (s.guestRefuse p k g).startRaise 7 p
      | none => s.acceptGuest p g) s

/-- Step 8: ck_core rises to the clock plan, and MTIME must have been set. -/
def State.startPlan (s : State) (found : List StartFault) : State :=
  let s1 := if found.contains .stepFails then (s.startRaise 8 0).overridden 0 else s.changeClock (s.planFreq 0)
  if s1.power.settime then s1
  else (s1.setFlag .MGT_AUDIT_STAT_MTIME_UNSET 0 true).raiseNo 0x0E mgtUnit 0

/-- Step 10: the switches are driven, and the ports brought up. -/
def State.startPorts (s : State) (found : List StartFault) : State :=
  let s1 := (List.range 4).foldl (fun s a => s.driveSwitch a (s.axisLocal a)) s
  found.foldl (fun s f => match f with
    | .portFailed p =>
      ((s.setPort p { s.port p with failedAt := some s.now }).setPortState p 7).startRaise 10 p
    | _ => s) s1

/-- Every step has passed: READY. -/
def State.becomeReady (s : State) : State :=
  ((({ s with power := { s.power with readyAt := s.now, startFails := 0 } } : State).setFld .PWR_STATUS_STATE 0 2).setFlag
    .PWR_STATUS_READY 0 true).setFld .PWR_STATUS_START_STEP 0 10

/-- The next step of start-up. -/
def State.startStep (s : State) (found : List StartFault) (guests : List GuestInfo) : State :=
  let k := s.fld .PWR_STATUS_START_STEP 0 + 1
  let passed := fun (s : State) => s.setFld .PWR_STATUS_START_STEP 0 k
  let bare := fun (s : State) => if found.contains .stepFails then s.startRaise k 0 else s
  if k ≤ 3 ∧ found.contains .stepFails then s.startOff k
  else
    match k with
    | 1 => passed s
    | 2 => passed ((s.setFlag .PWR_STATUS_MAIN_GOOD 0 true).railsUp)
    | 3 => s.startClocks found
    | 4 => passed ((bare s).startFuses found)
    | 5 => passed ((bare s).tillersFail 5 found)
    | 6 => passed ((bare s).startHbm found)
    | 7 => passed ((bare s).startGuests found guests)
    | 8 => passed (s.startPlan found)
    | 9 => passed ((bare s).tillersFail 9 found)
    | _ => ((bare s).startPorts found).becomeReady

def execStartupStep (found : List StartFault) (guests : List GuestInfo) (s : State) :
    Host.Outcome State Fault Refusal :=
  .next (if s.fld .PWR_STATUS_STATE 0 = 1 then s.startStep found guests else s)

end Sys2Proof.Machine
end

