-- ==== Sys2Proof/Machine/PowerCtl.lean ====
section
/-! DEFINITION. Power, clock and health while the part runs (R484-R486, R493-R507): holds, MTIME, the clock plan, the
voltage, power, thermal and laser loops, Dormant, and ageing. -/

namespace Sys2Proof.Machine

/-! ### Holds (R484-R486, R501) -/

/-- The input has fallen below 42.0 V while READY: the part holds. -/
def State.doHold (s : State) : State :=
  if s.flag .PWR_STATUS_READY 0 && (s.fld .PWR_STATUS_STATE 0 == 2 || s.fld .PWR_STATUS_STATE 0 == 3) &&
      s.power.holdAt.isNone then
    ({ s with power := { s.power with holdAt := some s.now } } : State).setFld .PWR_STATUS_STATE 0 3
  else s

def execBrownoutHold (s : State) : Host.Outcome State Fault Refusal := .next s.doHold

/-- A hold ends: READY when no other hold stands. -/
def State.endHold (s : State) : State :=
  if s.power.holdAt.isNone && s.power.thermAt.isNone && s.fld .PWR_STATUS_STATE 0 == 3 then s.setFld .PWR_STATUS_STATE 0 2
  else s

/-- The input has been above 43.0 V for 20 us: resume, with class 0x02. -/
def State.doResumeHold (s : State) (lowest : Nat) : State :=
  match s.power.holdAt with
  | some t =>
    let s1 := ({ s with power := { s.power with holdAt := none } } : State).endHold
    let s2 := (s1.setFlag .PWR_STATUS_HOLD_SEEN 0 true).raiseNo 0x02 mgtUnit ((s.now - t) % 2 ^ 64 + lowest * 2 ^ 64)
    s2.holdEvent 1 (s.now - t)
  | none => s

def execBrownoutResume (lowest : BitVec 10) (s : State) : Host.Outcome State Fault Refusal :=
  .next (s.doResumeHold lowest.toNat)

/-- A hold that has lasted HOLD_MAX_MS ends in an orderly shutdown. -/
def State.doHoldLimit (s : State) : State :=
  match s.power.holdAt with
  | some t => if s.fld .PWR_CFG_HOLD_MAX_MS 0 * 1000000 ≤ s.now - t then s.shutdown 1 else s
  | none => s

def execHoldLimit (s : State) : Host.Outcome State Fault Refusal := .next s.doHoldLimit

/-! ### RACKREF and MTIME (R493, R494) -/

/-- No RACKREF edge for 100 ns while main is on: holdover, with class 0x07. -/
def State.doHoldover (s : State) : State :=
  if s.fld .PWR_STATUS_STATE 0 != 0 && !(s.flag .PWR_STATUS_HOLDOVER 0) then
    (({ s with power := { s.power with rackref := false, slew := none } } : State).setFlag .PWR_STATUS_HOLDOVER 0 true).raiseNo
      0x07 mgtUnit 0
  else s

def execHoldoverEnter (s : State) : Host.Outcome State Fault Refusal := .next s.doHoldover

/-- RACKREF edges return in holdover: MTIME slews toward the RACKREF count. -/
def State.doRackref (s : State) (count : Nat) : State :=
  if s.flag .PWR_STATUS_HOLDOVER 0 then { s with power := { s.power with rackref := true, slew := some count } } else s

def execRackrefReturn (count : Word) (s : State) : Host.Outcome State Fault Refusal := .next (s.doRackref count.toNat)

/-- MTIME agrees with the RACKREF count: HOLDOVER clears. -/
def State.doHoldoverExit (s : State) : State :=
  if s.flag .PWR_STATUS_HOLDOVER 0 && s.power.rackref && s.power.slew == some s.now then
    ({ s with power := { s.power with slew := none } } : State).setFlag .PWR_STATUS_HOLDOVER 0 false
  else s

def execHoldoverExit (s : State) : Host.Outcome State Fault Refusal := .next s.doHoldoverExit

/-- A value for MTIME is taken at the n-th RACKREF edge from now; after READY it is ignored. -/
def State.takeMtime (s : State) (n : Nat) (v : Word) : State :=
  if s.flag .PWR_STATUS_READY 0 then s else { s with power := { s.power with mtimeSet := some (n, v) } }

def execMtimeSet (org : Origin) (val : Word) (s : State) : Host.Outcome State Fault Refusal :=
  .next (s.regCmd org .PWR_MTIME_SET 0 val.toNat (fun s => s.takeMtime 1 val))

/-! ### The clock plan (R495) -/

/-- A write of FREQ_REQ_MHZ: under STRICT it is refused outside R427; else it is rounded down to 25 MHz and clamped. -/
def State.planWrite (s : State) (mhz : Nat) : State :=
  if s.strict && !(s.modeFree) then s.overridden 3
  else
    let r := mhz / 25 * 25
    let fmax := s.fld .PWR_CLK_PLAN_FMAX_MHZ 0
    let v := min fmax (max 600 r)
    let s1 := s.setFld .PWR_CLK_PLAN_FREQ_REQ_MHZ 0 v
    let s2 := if v = r then s1 else s1.overridden 0
    if 8 ≤ s.fld .PWR_STATUS_START_STEP 0 then s2.askClock (s2.planFreq (s.fld .PWR_STRETCH_LAST 0)) else s2

def execClockPlanWrite (org : Origin) (mhz : BitVec 16) (s : State) : Host.Outcome State Fault Refusal :=
  .next (s.regCmd org .PWR_CLK_PLAN 0 (mhz.toNat * 2 ^ 48) (fun s => s.planWrite mhz.toNat))

/-! ### The voltage-margin loop (R498) -/

/-- A rail's offset takes a value, 0 to -60 mV. -/
def State.setOffset (s : State) (sh : Nat) (v : Int) : State :=
  let old := Tbl.get 0 s.power.vOffset sh
  let s1 : State := { s with power := { s.power with vOffset := Tbl.set 0 s.power.vOffset sh v } }
  if old = v then s1 else s1.emit (.rail sh (s1.railNow sh))

/-- The slack that stands for V_TARGET_MV, in ps. -/
def State.targetSlack (s : State) (sh : Nat) : Nat := s.fld .PWR_CFG_V_TARGET_MV 0 * Config.railFactor sh / 1000

/-- The voltage margin is below its warning, 40 mV: that of a reading, its slack over the rail's factor, or the last one
measured while margins are (R472, notes/assumptions/168.md). -/
def State.marginLow (s : State) (sh ps : Nat) : Bool :=
  decide (ps * 1000 < 40 * Config.railFactor sh) || (s.flag .HLT_MARGIN_CFG_EN 0 && decide (s.fld .HLT_MARGIN_SHF_V_MV sh < 40))

/-- The time since which a rail's slack has been above its target. -/
def State.setSince (s : State) (sh : Nat) (t : Option Nat) : State :=
  { s with power := { s.power with slackSince := match t with
      | some x => Tbl.put s.power.slackSince sh x
      | none => Tbl.del sh s.power.slackSince } }

/-- One reading of a rail's worst slack. -/
def State.doVloop (s : State) (sh ps : Nat) : State :=
  if s.linksRun && s.flag .PWR_CFG_VLOOP_EN 0 then
    let old := Tbl.get 0 s.power.vOffset sh
    if ps < 12 then (s.setSince sh none).setOffset sh 0
    else if ps < 18 then (s.setSince sh none).setOffset sh (min 0 (old + 10))
    else if ps ≤ s.targetSlack sh then s.setSince sh none
    else
      match s.power.slackSince.find? (fun p => p.1 == sh) with
      | none => s.setSince sh (some s.now)
      | some (_, t) =>
        if t + 1000000 ≤ s.now then
          let s1 := s.setSince sh (some s.now)
          if s.marginLow sh ps ∨ old ≤ -60 then s1 else s1.setOffset sh (max (-60) (old - 5))
        else s
  else s

def execVloopAdjust (sh : Fin 12) (slackPs : Nat) (s : State) : Host.Outcome State Fault Refusal :=
  .next (s.doVloop sh.val slackPs)

/-! ### Power cap and thermal limits (R499-R503) -/

/-- The frequency that ck_core has or is about to have. -/
def State.freqAim (s : State) : Nat := s.power.freqNext.getD (s.fld .PWR_CLK_PLAN_FREQ_NOW_MHZ 0)

/-- What a thermal emergency does: ck_core falls by 100 MHz every 100 us; under STRICT a step stretch is requested instead.
The steps that the emergency needs, one at least, are a free value (notes/assumptions/47.md). -/
def State.emergencyAct (s : State) (fresh : Bool) : State :=
  if s.strict then
    if fresh then s.useFree.setFld .PWR_STRETCH_REQ 0 (s.freeWord.toNat % 255 + 1) else s
  else if fresh || decide (s.power.thermStep + 100000 ≤ s.now) then
    ({ s with power := { s.power with thermLow := true, thermStep := s.now } } : State).askClock (max 600 (s.freqAim - 100))
  else s

/-- A thermal emergency begins or goes on. -/
def State.emergencyOn (s : State) : State :=
  ({ s with power := { s.power with emergency := true } } : State).emergencyAct (!s.power.emergency)

/-- Without an emergency: no stretch is requested, and ck_core rises again by 25 MHz per 1 ms. -/
def State.emergencyOff (s : State) : State :=
  let s1 := ({ s with power := { s.power with emergency := false } } : State).setFld .PWR_STRETCH_REQ 0 0
  let plan := s.planFreq (s.fld .PWR_STRETCH_LAST 0)
  if s.power.thermLow && !s.strict && decide (s.power.thermStep + 1000000 ≤ s.now) then
    let f := min plan (s.freqAim + 25)
    ({ s1 with power := { s1.power with thermStep := s.now, thermLow := decide (f < plan) } } : State).askClock f
  else s1

/-- The cap against the 1 ms average: steps of 25 MHz, or under STRICT an excursion after 10 ms. -/
def State.capCheck (s : State) (avg : Nat) : State :=
  let cap := max 1200 (s.fld .PWR_CAP_CAP_W 0)
  let plan := s.planFreq (s.fld .PWR_STRETCH_LAST 0)
  if s.strict then
    let n := if cap < avg then s.power.capOver + 1 else 0
    let s1 : State := { s with power := { s.power with capOver := n } }
    if n = 100 then (s1.satAdd .PWR_CAP_EXCURSIONS 0 1).overridden 1 else s1
  else if cap < avg then s.askClock (max 600 (s.freqAim - 25))
  else if avg * 100 < cap * 98 ∧ s.freqAim < plan ∧ !s.power.emergency ∧ !s.power.thermLow then
    s.askClock (min plan (s.freqAim + 25))
  else s

/-- Every 100 us. -/
def State.doPowerCheck (s : State) (avg1ms avg100us : Nat) : State :=
  if s.linksRun then
    let s1 := (s.setFld .PWR_STATUS_POWER_W 0 avg1ms).capCheck avg1ms
    if 2860 < avg100us then s1.emergencyOn else s1
  else s

def execPowerCapCheck (avg1ms : BitVec 16) (avg100us : BitVec 16) (s : State) : Host.Outcome State Fault Refusal :=
  .next (s.doPowerCheck avg1ms.toNat avg100us.toNat)

/-- The code of a sensor: a die's eight from 0, a stack's from 128, an engine's from 160. -/
def sensorCode : Sensor → Nat
  | .die d k => d.val * 8 + k.val
  | .stack h => 128 + h.val
  | .engine p => 160 + p.val

/-- One reading: a level crossed raises class 0x05; an engine at its emergency level requests a pause. -/
def State.thermalOne (s : State) (code t : Nat) : State :=
  let old := sensorLevel code (Tbl.get 0 s.power.temps code)
  let new := sensorLevel code t
  let s1 : State := { s with power := { s.power with temps := Tbl.put s.power.temps code t } }
  if old = new then s1
  else
    let s2 := s1.raiseNo 0x05 mgtUnit (code + new * 2 ^ 16 + t % 2 ^ 32 * 2 ^ 32)
    if 160 ≤ code ∧ 2 ≤ new ∧ old < 2 then s2.sendPause (code - 160) else s2

/-- The die temperatures. -/
def State.junctions (s : State) : List Nat := (s.power.temps.filter (fun p => decide (p.1 < 128))).map (·.2)

/-- The highest level among the sensors. -/
def State.topLevel (s : State) : Nat := (s.power.temps.map (fun p => sensorLevel p.1 p.2)).foldl max 0

/-- TJ_MAX and THERM. -/
def State.thermStatus (s : State) : State :=
  (s.setFld .PWR_STATUS_TJ_MAX 0 (min 255 (s.junctions.foldl max 0))).setFld .PWR_STATUS_THERM 0 (min 2 s.topLevel)

/-- A trip: THERMTRIP_N, the record, and the rails off without LEAVING. -/
def State.trip (s : State) : State :=
  let s1 := ((s.emit (.thermtrip true)).raiseNo 0x03 mgtUnit 2).mainOff
  { s1 with power := { s1.power with thermtrip := true } }

/-- The emergency level of a die or a stack stands, or every junction is not yet below 103 C. -/
def State.hotNow (s : State) : Bool :=
  s.power.temps.any (fun p => decide (p.1 < 160) && decide (2 ≤ sensorLevel p.1 p.2)) ||
    (s.power.emergency && s.junctions.any (fun t => decide (103 ≤ t)))

/-- Under STRICT a junction at 110 C before the stretch is in force holds the module until it is below 108 C. -/
def State.thermalHold (s : State) : State :=
  match s.power.thermAt with
  | some t =>
    if s.junctions.all (fun x => decide (x < 108)) then
      (({ s with power := { s.power with thermAt := none } } : State).endHold).holdEvent 0 (s.now - t)
    else s
  | none =>
    if s.strict && s.fld .PWR_STATUS_STATE 0 == 2 && s.junctions.any (fun x => decide (110 ≤ x)) &&
        decide (s.fld .PWR_STRETCH_LAST 0 < s.fld .PWR_STRETCH_REQ 0) then
      ({ s with power := { s.power with thermAt := some s.now } } : State).setFld .PWR_STATUS_STATE 0 3
    else s

/-- Every 10 us the sensors are read. A trip does not wait for the clocks: it turns main off in Dormant too (R503). -/
def State.doThermal (s : State) (l : List (Sensor × Nat)) : State :=
  let s1 := (l.foldl (fun s p => s.thermalOne (sensorCode p.1) p.2) s).thermStatus
  if s.fld .PWR_STATUS_STATE 0 ≠ 0 ∧ 3 ≤ s1.topLevel then s1.trip
  else if s.linksRun then (if s1.hotNow then s1.emergencyOn else s1.emergencyOff).thermalHold
  else s1

def execThermalCheck (readings : List (Sensor × Nat)) (s : State) : Host.Outcome State Fault Refusal :=
  .next (s.doThermal readings)

/-! ### The laser-bias loop (R504) -/

/-- A laser's bias holds the floor plus the target; a laser that cannot reach the floor has failed. -/
def State.doLaser (s : State) (p c : Nat) (reaches : Bool) : State :=
  if s.linksRun && s.flag .LNK_GUEST_ADMITTED p then
    let v := s.fld .PWR_LASER_TARGET_DB10 0
    let s1 := (s.setFld .PWR_LASER_APPLIED 0 v).emit (.laser p c v)
    if reaches then s1 else s1.doLaserFail p c
  else s

def execLaserBiasAdjust (p : Fin 8) (ch : Fin 45) (reaches : Bool) (s : State) : Host.Outcome State Fault Refusal :=
  .next (s.doLaser p ch reaches)

/-! ### Dormant (R505, R506) -/

/-- The conditions of an entry. -/
def State.mayEnter (s : State) : Bool :=
  s.ready && (List.range 8).all (fun p => !(s.flag .LNK_CFG_ENABLE p)) && s.drained &&
    (List.range 768).all (fun t => !(decide (2 ≤ s.tstate t) && decide (s.tstate t ≤ 6))) &&
    (s.listed .CTX_RING_BASE_ENABLE).all (fun r => s.ringState r != 2 && s.ringState r != 3) &&
    s.engines.all (fun p => p.2.isEmpty)

/-- ENTER begins the entry, or is refused. -/
def State.enterDormant (s : State) : State :=
  if s.mayEnter then (s.setFld .PWR_STATUS_STATE 0 5).setFlag .PWR_STATUS_READY 0 false
  else s.setFlag .PWR_DORMANT_REFUSED 0 true

def execEnter (org : Origin) (s : State) : Host.Outcome State Fault Refusal :=
  .next (s.regCmd org .PWR_DORMANT 0 (2 ^ 63) (fun s => s.enterDormant))

/-- Clocks are gated and HBM refreshes itself; a port that was still sending LEAVING is OFF. -/
def State.entered (s : State) : State :=
  if s.fld .PWR_STATUS_STATE 0 = 5 then
    (((List.range 8).filter (fun p => (s.port p).leaving.isSome)).foldl State.leaveDone s).setFld .PWR_STATUS_STATE 0 4
  else s

def execDormantEntryComplete (s : State) : Host.Outcome State Fault Refusal := .next s.entered

def execWake (org : Origin) (s : State) : Host.Outcome State Fault Refusal :=
  .next (s.regCmd org .PWR_DORMANT 0 (2 ^ 62) (fun s => s.wakeUp 0))

/-- A wake cause: the timer only once PWR_WAKE_AT has been reached. -/
def State.doWakeCause (s : State) (cause : Nat) : State :=
  let at' := s.fld .PWR_WAKE_AT_MTIME 0
  if cause = 4 ∧ (at' = 0 ∨ s.now < at') then s
  else if cause = 5 then s.doPerst
  else if cause ≤ 4 then s.wakeUp cause
  else s

def execDormantWake (cause : BitVec 3) (s : State) : Host.Outcome State Fault Refusal := .next (s.doWakeCause cause.toNat)

/-! ### Ageing (R507) -/

/-- The records of an item, newest first. -/
def Power.itemAge (p : Power) (kind unit : Nat) : List (Nat × Nat × Nat) :=
  p.age.filter (fun r => r.1 == kind && r.2.1 == unit)

/-- Add a daily record of an item; its last 90 are kept. -/
def Power.addAge (p : Power) (kind unit v : Nat) : Power :=
  { p with age := ((kind, unit, v) :: p.itemAge kind unit).take 90 ++
      p.age.filter (fun r => !(r.1 == kind && r.2.1 == unit)) }

/-- The item with the shortest prediction: months, kind, unit. -/
def Power.shortest (p : Power) : Nat × Nat × Nat :=
  ((p.age.map (fun r => (r.1, r.2.1))).eraseDups).foldl (fun b i =>
    let m := min 255 (Config.predictMonths (p.itemAge i.1 i.2) i.1 i.2)
    if m < b.1 then (m, i.1, i.2) else b) (255, 0, 0)

/-- A daily record: the prediction anew; falling to WARN_MONTHS sets WARN with class 0x07. -/
def State.doAgeing (s : State) (kind unit v : Nat) : State :=
  if 1 ≤ kind ∧ kind ≤ 5 then
    let s1 : State := { s with power := s.power.addAge kind unit v }
    let b := s1.power.shortest
    let s2 := ((s1.setFld .HLT_EOL_MONTHS 0 b.1).setFld .HLT_EOL_KIND 0 b.2.1).setFld .HLT_EOL_UNIT 0 b.2.2
    let lim := s.fld .HLT_EOL_WARN_MONTHS 0
    if b.1 ≤ lim ∧ lim < s.fld .HLT_EOL_MONTHS 0 then
      (s2.setFlag .HLT_EOL_WARN 0 true).raiseNo 0x07 mgtUnit (1 + b.2.1 * 2 ^ 8 + b.2.2 * 2 ^ 16 + b.1 * 2 ^ 32)
    else s2
  else s

def execAgeingRecord (kind : BitVec 4) (unit : BitVec 12) (value : Nat) (s : State) : Host.Outcome State Fault Refusal :=
  .next (s.doAgeing kind.toNat unit.toNat value)

end Sys2Proof.Machine
end

