-- ==== Sys2Proof/Machine/Manage.lean ====
section
/-! DEFINITION. The management controller (R545-R560): rack time and neighbours, the two views of a unit, the audit log's
flush and clear, physical presence, firmware slots, and the debug lock. -/

namespace Sys2Proof.Machine

/-- The always-on domain has a supply: the controller answers in every power state (R482). -/
def State.mgtOn (s : State) : Bool := s.power.auxGood || s.power.vinGood

/-- An act of the controller. -/
def State.mgt (s : State) (act : State → State) : State := if s.mgtOn then act s else s

/-- The audit entry of an event that is no register write (R551). -/
def State.auditEvent (s : State) (o : AuditOrg) (cls data detail : Nat) : State :=
  s.audit! true o cls 0xFFFFFFFF 0 data detail

/-- ORIGIN 5 with the controller's unit (R553). -/
def hardOrigin : AuditOrg := ⟨5, mgtUnit.kind * 4096 + mgtUnit.idx⟩

/-! ### Rack time (R547, R549) -/

/-- The value of a SETTIME body with this command code and these flags; none when the message is discarded. -/
def settimeValue (code flags : Nat) (body : List Byte) : Option Word :=
  if body.length = 10 ∧ (body.getD 0 0).toNat = code ∧ (body.getD 1 0).toNat = flags then
    some (BitVec.ofNat 64 (leNat (body.drop 2)))
  else none

/-- V is taken for the RACKREF edge 1,000 edges after the first one that follows STOP. -/
def State.settime (s : State) (v : Word) : State :=
  let s1 := s.takeMtime 1001 v
  { s1 with power := { s1.power with settime := true } }

/-- A broadcast SETTIME over I3C before READY is taken; it has no answer. -/
def State.doSettimeBroadcast (s : State) (tr : Transport) (body : List Byte) : State :=
  s.mgt (fun s =>
    match settimeValue 0x01 0x00 body with
    | some v => if tr = .i3c && !(s.flag .PWR_STATUS_READY 0) then s.settime v else s
    | none => s)

def execSettimeBroadcast (tr : Transport) (body : List Byte) (s : State) : Host.Outcome State Fault Refusal :=
  .next (s.doSettimeBroadcast tr body)

/-- A directed SETTIME over I3C is answered: 0x00 taken, 0x02 READY already set, 0x01 discarded. -/
def State.doSettimeDirected (s : State) (tr : Transport) (body : List Byte) : State :=
  s.mgt (fun s =>
    if tr ≠ .i3c then s
    else
      match settimeValue 0x02 0x01 body with
      | none => s.emit (.mctp [0x82, 0x01])
      | some v =>
        if s.flag .PWR_STATUS_READY 0 then s.emit (.mctp [0x82, 0x02])
        else (s.settime v).emit (.mctp [0x82, 0x00]))

def execSettimeDirected (tr : Transport) (body : List Byte) (s : State) : Host.Outcome State Fault Refusal :=
  .next (s.doSettimeDirected tr body)

/-! ### Neighbours (R548, R549) -/

/-- GO sends a PEER_QUERY for node NODE. -/
def State.askPeer (s : State) (node : Nat) : State :=
  let s1 := ((s.setFld .MGT_PEER_NODE 0 node).setFlag .MGT_PEER_BUSY 0 true).emit
    (.mctp ([0x03] ++ leBytes 3 node ++ [0x00]))
  { s1 with power := { s1.power with peerAt := s1.power.clock } }

def execPeerQuery (org : Origin) (node : BitVec 24) (s : State) : Host.Outcome State Fault Refusal :=
  .next (s.regCmd org .MGT_PEER 0 (2 ^ 63 + node.toNat) (fun s => s.askPeer node.toNat))

/-- The query ends with a result. -/
def State.peerResult (s : State) (r : Nat) : State := (s.setFld .MGT_PEER_RESULT 0 r).setFlag .MGT_PEER_BUSY 0 false

/-- The rack manager's answer to the query in progress; another message is discarded. -/
def State.doPeerResponse (s : State) (body : List Byte) : State :=
  s.mgt (fun s =>
    let st := (body.getD 4 0).toNat
    if body.length = 5 ∧ (body.getD 0 0).toNat = 0x83 ∧ st ≤ 1 ∧ s.flag .MGT_PEER_BUSY 0 ∧
        leNat ((body.drop 1).take 3) = s.fld .MGT_PEER_NODE 0 then s.peerResult st
    else s)

def execPeerQueryResponse (body : List Byte) (s : State) : Host.Outcome State Fault Refusal :=
  .next (s.doPeerResponse body)

/-- No answer within 250 ms. -/
def State.doPeerTimeout (s : State) : State :=
  if s.flag .MGT_PEER_BUSY 0 && decide (s.power.peerAt + 250000000 ≤ s.power.clock) then s.peerResult 2 else s

def execPeerQueryTimeout (s : State) : Host.Outcome State Fault Refusal := .next (s.mgt State.doPeerTimeout)

/-! ### Two views of a unit (R550) -/

/-- The kind and the number of a unit. -/
def viewCode : ViewUnit → Nat × Nat
  | .sheaf sh => (0, sh.val)
  | .stack h => (1, h.val)
  | .port p => (2, p.val)

/-- The step of start-up after which a unit is compared. -/
def viewStep : ViewUnit → Nat
  | .sheaf _ => 4
  | .stack _ => 6
  | .port _ => 7

/-- The unit is fenced. A port goes down with the cause of a lost guest (DESIGN CHOICE: notes/assumptions/48.md). -/
def State.fenceUnit (s : State) : ViewUnit → State
  | .sheaf sh => (s.fenceSheaf sh.val).setBit .MGT_FENCED_SHEAF 0 sh.val
  | .stack h => (s.fenceStack h.val).setBit .MGT_FENCED_STACK 0 h.val
  | .port p => ((s.portDown p.val 5).setBit .FAB_CTRL_FENCE 0 p.val).setBit .MGT_FENCED_PORT 0 p.val

/-- The fence of a unit whose views disagree, with class 0x08. -/
def State.fenceView (s : State) (v : ViewUnit × Bool × Bool) : State :=
  ((s.fenceUnit v.1).setFlag .MGT_FENCED_EVT 0 true).raiseNo 0x08 mgtUnit
    ((viewCode v.1).1 + (viewCode v.1).2 * 2 ^ 8 + (if v.2.1 then 2 ^ 16 else 0) + (if v.2.2 then 2 ^ 17 else 0))

/-- A unit has been fenced by R550 already. -/
def State.viewFenced (s : State) : ViewUnit → Bool
  | .sheaf sh => bitAt (s.fld .MGT_FENCED_SHEAF 0) sh.val
  | .stack h => bitAt (s.fld .MGT_FENCED_STACK 0) h.val
  | .port p => bitAt (s.fld .MGT_FENCED_PORT 0) p.val

/-- A unit's views disagree, and it is compared. -/
def State.viewDiffers (s : State) (v : ViewUnit × Bool × Bool) : Bool :=
  v.2.1 != v.2.2 && decide (viewStep v.1 ≤ s.fld .PWR_STATUS_START_STEP 0) && !(s.viewFenced v.1)

/-- One comparison: a unit whose views disagreed at the last one too is fenced. -/
def State.compareViews (s : State) (views : List (ViewUnit × Bool × Bool)) : State :=
  let bad := views.filter s.viewDiffers
  let s1 := (bad.filter (fun v => s.power.viewBad.contains v.1)).foldl State.fenceView s
  { s1 with power := { s1.power with viewBad := (bad.map (·.1)).filter (fun u => !(s.power.viewBad.contains u)) } }

def execViewCompare (views : List (ViewUnit × Bool × Bool)) (s : State) : Host.Outcome State Fault Refusal :=
  .next (s.mgt (fun s => s.compareViews views))

/-! ### The audit log (R554, R555) -/

def execAuditFlush (s : State) : Host.Outcome State Fault Refusal := .next (s.mgt State.auditFlush)

/-- SRAM and flash ring are emptied, and one entry records it; SEQ and CHAIN carry on. -/
def State.auditClear (s : State) (o : AuditOrg) : State :=
  (({ s with audit := [], flash := [], flashed := 0 } : State).setFld .MGT_AUDIT_STAT_UNFLUSHED 0 0).auditEvent o 0 1 0

/-- CLEAR under presence: the write's own entry goes with the others. -/
def State.clearCmd (s : State) (o : Origin) : State :=
  s.access o .MGT_AUDIT_STAT (fun s =>
    let old := s.regVal .MGT_AUDIT_STAT 0
    let off := Reg.off .MGT_AUDIT_STAT 0
    if s.flag .MGT_PRESENCE_OPEN 0 then
      (s.audit! true (Origin.presence o) 0 off old 1 0).auditClear (Origin.presence o)
    else s.audit! false (Origin.audit o) 0 off old 1 0)

def execClear (org : Origin) (s : State) : Host.Outcome State Fault Refusal := .next (s.clearCmd org)

/-! ### Physical presence (R556) -/

/-- The window opens, or its 60 s start again. -/
def State.presenceOpens (s : State) : State :=
  let s1 : State := { s with power := { s.power with presenceAt := some s.power.clock } }
  if s.flag .MGT_PRESENCE_OPEN 0 then s1
  else ((s1.setFlag .MGT_PRESENCE_OPEN 0 true).raiseNo 0x09 mgtUnit 0).auditEvent hardOrigin 0x09 1 0

def execPresenceOpen (s : State) : Host.Outcome State Fault Refusal := .next (s.mgt State.presenceOpens)

/-- The window closes after 60 s. -/
def State.presenceCloses (s : State) : State :=
  match s.power.presenceAt with
  | some t =>
    if s.flag .MGT_PRESENCE_OPEN 0 && decide (t + 60000000000 ≤ s.power.clock) then
      ((({ s with power := { s.power with presenceAt := none } } : State).setFlag .MGT_PRESENCE_OPEN 0 false).raiseNo 0x09
        mgtUnit 1).auditEvent hardOrigin 0x09 0 1
    else s
  | none => s

def execPresenceClose (s : State) : Host.Outcome State Fault Refusal := .next (s.mgt State.presenceCloses)

/-- A write to an RWP field whose action may be refused: it took effect only in the window and when `may` holds. -/
def State.rwpTry (s : State) (o : Origin) (r : Reg) (data : Nat) (may : State → Bool) (act refuse : State → State) : State :=
  s.access o r (fun s =>
    let old := s.regVal r 0
    if !(s.flag .MGT_PRESENCE_OPEN 0) then s.audit! false (Origin.audit o) 0 (r.off 0) old data 0
    else if may s then (act s).audit! true (Origin.presence o) 0 (r.off 0) old data 0
    else (refuse s).audit! false (Origin.audit o) 0 (r.off 0) old data 0)

/-! ### Firmware slots (R558, R559) -/

/-- Class 0x0B with a reason: 0 signature, 1 version, 2 TRIAL, 3 STAGE. -/
def State.refuseBundle (s : State) (reason version : Nat) : State := s.raiseNo 0x0B mgtUnit (reason + version * 2 ^ 32)

/-- A transfer into the slot that does not run: in progress, or complete and checked. -/
def State.transferFw (s : State) (version : Nat) (done sigOk : Bool) : State :=
  let s1 : State := { s with power := { s.power with activated := false } }
  if !done then s1.setFld .MGT_FW_STAGE 0 1
  else
    let s2 := ({ s1 with power := { s1.power with slotVer := s1.power.slotVer.set s.otherSlot version } } : State).setFld
      .MGT_FW_VER_STAGED_VER 0 version
    if !(s.flag .SEC_STATUS_KEY_FUSED 0) || !sigOk then (s2.setFld .MGT_FW_STAGE 0 3).refuseBundle 0 version
    else if version < s.fld .MGT_FW_VER_MIN_VER 0 then (s2.setFld .MGT_FW_STAGE 0 3).refuseBundle 1 version
    else s2.setFld .MGT_FW_STAGE 0 2

def execFirmwareTransfer (version : BitVec 31) (done : Bool) (sigOk : Bool) (s : State) :
    Host.Outcome State Fault Refusal :=
  .next (s.mgt (fun s => s.transferFw version.toNat done sigOk))

/-- ACTIVATE is refused while TRIAL is 1 or STAGE is not VERIFIED. -/
def State.mayActivate (s : State) : Bool := !(s.flag .MGT_FW_TRIAL 0) && s.fld .MGT_FW_STAGE 0 == 2

/-- The staged slot is marked. -/
def State.doActivate (s : State) (o : Origin) : State :=
  ({ s with power := { s.power with activated := true } } : State).auditEvent (Origin.audit o) 0
    (s.fld .MGT_FW_VER_STAGED_VER 0) 0

def State.activateCmd (s : State) (org : Origin) : State :=
  s.rwpTry org .MGT_FW (2 ^ 63) State.mayActivate (fun s => s.doActivate org) (fun s =>
    s.refuseBundle (if s.flag .MGT_FW_TRIAL 0 then 2 else 3) (s.fld .MGT_FW_VER_STAGED_VER 0))

def execActivate (org : Origin) (s : State) : Host.Outcome State Fault Refusal := .next (s.activateCmd org)

/-- CONFIRM ends the trial. -/
def State.doConfirm (s : State) (o : Origin) : State :=
  if s.flag .MGT_FW_TRIAL 0 then
    (s.setFlag .MGT_FW_TRIAL 0 false).auditEvent (Origin.audit o) 0 (s.fld .MGT_FW_RUN_VER 0) 0
  else s

def execConfirm (org : Origin) (s : State) : Host.Outcome State Fault Refusal :=
  .next (s.regCmd org .MGT_FW 0 (2 ^ 62) (fun s => s.doConfirm org))

/-- RAISE sets MIN_VER to the running version, only while TRIAL is 0. -/
def State.raiseCmd (s : State) (org : Origin) : State :=
  s.rwpTry org .MGT_FW_VER (2 ^ 63) (fun s => !(s.flag .MGT_FW_TRIAL 0))
    (fun s => s.setFld .MGT_FW_VER_MIN_VER 0 (s.fld .MGT_FW_RUN_VER 0)) id

def execRaise (org : Origin) (s : State) : Host.Outcome State Fault Refusal := .next (s.raiseCmd org)

/-- The cause of a reversion: 0 no CONFIRM within 600 s of READY, 1 start-up turned main off twice in a row. -/
def State.revertCause (s : State) : Option Nat :=
  if !(s.flag .MGT_FW_TRIAL 0) || decide (s.power.slotVer.getD s.otherSlot 0 < s.fld .MGT_FW_VER_MIN_VER 0) then none
  else if s.flag .PWR_STATUS_READY 0 && decide (s.power.readyAt + 600000000000 ≤ s.now) then some 0
  else if 2 ≤ s.power.startFails then some 1
  else none

/-- The part reverts to the other slot: class 0x0A, and the module is reset. -/
def State.revertFw (s : State) : State :=
  match s.revertCause with
  | none => s
  | some c =>
    let v := s.power.slotVer.getD s.otherSlot 0
    let s1 := (((s.setFld .MGT_FW_SLOT 0 s.otherSlot).setFld .MGT_FW_RUN_VER 0 v).setFlag .MGT_FW_TRIAL 0 false).raiseNo
      0x0A mgtUnit (c + s.fld .MGT_FW_RUN_VER 0 % 2 ^ 28 * 2 ^ 8 + v % 2 ^ 28 * 2 ^ 36)
    ({ s1 with power := { s1.power with startFails := 0 } } : State).moduleReset

def execFirmwareRevert (s : State) : Host.Outcome State Fault Refusal := .next (s.mgt State.revertFw)

/-! ### The debug lock (R560) -/

/-- The path of an unlock: 0 PF, 1 management, 0xFFFF JTAG (R553). -/
def unlockPath (o : Origin) : Nat := (Origin.presence o).id

/-- UNLOCK sets UNLOCKED and raises class 0x0D. -/
def State.doUnlock (s : State) (o : Origin) : State :=
  (s.setFlag .MGT_DEBUG_UNLOCKED 0 true).raiseNo 0x0D mgtUnit (unlockPath o)

def execUnlock (org : Origin) (s : State) : Host.Outcome State Fault Refusal :=
  .next (s.rwpCmd org .MGT_DEBUG 0 (2 ^ 63) (fun s => s.doUnlock org))

/-- LOCK clears it. -/
def State.doLock (s : State) (o : Origin) : State :=
  (s.setFlag .MGT_DEBUG_UNLOCKED 0 false).auditEvent (Origin.audit o) 0 0 0

def execLock (org : Origin) (s : State) : Host.Outcome State Fault Refusal :=
  .next (s.regCmd org .MGT_DEBUG 0 (2 ^ 62) (fun s => s.doLock org))

end Sys2Proof.Machine
end

