-- ==== Sys2Proof/Machine/Observe.lean ====
section
/-! DEFINITION. Samples of the job counters (R524, R525, R527) and the counters of a Tiller (R543). -/

namespace Sys2Proof.Machine

/-! ### Samples (R524, R525, R527) -/

/-- PERIOD_NS, taken to the nearer bound outside 1,000 to 1,000,000,000 (R540). -/
def State.samplePeriod (s : State) : Nat := max 1000 (min 1000000000 (s.fld .OBS_SAMPLE_PERIOD_NS 0))

/-- The main domain runs and is not in Dormant: a sample can be written (R505, R524). -/
def State.samples (s : State) (source : Nat) : Bool :=
  decide (1 ≤ s.fld .PWR_STATUS_STATE 0) && decide (s.fld .PWR_STATUS_STATE 0 ≤ 3) && s.flag .OBS_SAMPLE_EN 0 &&
    bitAt (s.fld .OBS_SAMPLE_SOURCES 0) source && s.now % s.samplePeriod == 0

/-- A write that sets EN starts the totals of every sample anew (R525). -/
def State.sampleBase (s : State) : State := { s with obs := { s.obs with base := s.obs.cnt } }

/-- The total of one counter since EN was last set. -/
def State.since (s : State) (k : Nat) : Nat := Tbl.get 0 s.obs.cnt k - Tbl.get 0 s.obs.base k

/-- The total of counter k of a Sheaf's Tillers since EN was last set. -/
def State.sheafTotal (s : State) (sh k : Nat) : Nat :=
  ((List.range 64).map (fun n => s.since (tcKey (sh * 64 + n) k))).sum / countScale k

/-- A Sheaf sample: the command most recently started on the Sheaf, the counters, and the commands completed. -/
def State.sheafSample (s : State) (sh : Nat) : Nat :=
  let l := Tbl.get [] s.obs.lastCmd sh
  telHeader s.now 1 sh 0 +
    (l.getD 0 0 + l.getD 1 0 * 2 ^ 32 + l.getD 2 0 * 2 ^ 48 + l.getD 3 0 * 2 ^ 64) * 2 ^ 128 +
    countBody (fun j => s.sheafTotal sh (recordKeys.getD j 0)) +
    s.sheafTotal sh 19 % 2 ^ 64 * 2 ^ (8 * 0xB8)

/-- A module sample: the eight totals, the bytes of each port, and the bytes of observation. -/
def State.moduleSample (s : State) : Nat :=
  telHeader s.now 1 12 0 +
    ((List.range 8).map (fun k => s.since k % 2 ^ 64 * 2 ^ (8 * (0x20 + 8 * k)))).sum +
    ((List.range 8).map (fun p => s.since (8 + p) % 2 ^ 64 * 2 ^ (8 * (0x60 + 8 * p)))).sum +
    ((List.range 8).map (fun p => s.since (16 + p) % 2 ^ 64 * 2 ^ (8 * (0xA0 + 8 * p)))).sum +
    s.since 24 % 2 ^ 64 * 2 ^ (8 * 0xE0)

/-- A selected source writes its record at a multiple of the period. -/
def State.takeSample (s : State) (source : Nat) : State :=
  if s.samples source then
    s.telPut source (if source = 12 then s.moduleSample else s.sheafSample source)
  else s

def execTelemetrySample (source : Fin 13) (s : State) : Host.Outcome State Fault Refusal :=
  .next (s.takeSample source.val)

/-! ### The counters of a Tiller (R543) -/

/-- CLR clears all the counters of a Tiller together. -/
def State.clearTilObs (s : State) (t : Nat) : State :=
  let s1 : State := { s with obs := { s.obs with
    cnt := (List.range 16).foldl (fun c k => Tbl.del (cycKey (16 * t + k)) c) s.obs.cnt } }
  ((s1.setFld .TIL_OBS_MAC_MACS t 0).setFld .TIL_OBS_INST_INSTR t 0).setFld .TIL_OBS_BANK_CYCLES t 0

def execObsClr (sh : Fin 12) (n : Fin 64) (s : State) : Host.Outcome State Fault Refusal :=
  .next (s.access .pf .TIL_OBS_CTRL (fun s => s.clearTilObs (tix sh n)))

end Sys2Proof.Machine
end

