-- ==== Sys2Proof/Machine/Elementary.lean ====
section
/-! DEFINITION. RCP, SQRT, RSQRT, EXP, EXP2, LOG, LOG2, TANH and SIGM, correctly rounded to FP32 (R119), and the
Philox generator of stochastic rounding (R67). A transcendental value is enclosed between two multiples of 2^-p, with p
raised until both ends round to one FP32 value. -/

namespace Sys2Proof.Machine

/-! ### Square root and reciprocal -/

/-- Integer square root by binary search over `fuel` bits, from the bit 2^fuel down. -/
def isqrt : Nat → Nat → Nat → Nat
  | 0, _, acc => acc
  | fuel + 1, n, acc =>
    let c := acc + 2 ^ fuel
    isqrt fuel n (if c * c ≤ n then c else acc)

/-- A value known up to a sticky bit: y * 2^e when exact, else strictly between y * 2^e and (y+1) * 2^e. -/
def sticky (neg exact : Bool) (y : Nat) (e : Int) : FVal := .fin neg (2 * y + (if exact then 0 else 1)) (e - 1)

/-- RCP (R119). -/
def fnRcp : FVal → Nat
  | .nan => fp32.nanEnc
  | .inf n => fp32.signBit n
  | .fin n 0 _ => fp32.signBit n + fp32.infEnc
  | .fin n m e => toFp32 (sticky n (decide (2 ^ 80 % m = 0)) (2 ^ 80 / m) (-80 - e))

/-- m * 2^e with an even exponent and a mantissa of 2k more bits. -/
def evenExp (k m : Nat) (e : Int) : Nat × Int :=
  if e % 2 = 0 then (m * 2 ^ (2 * k), e - 2 * k) else (m * 2 ^ (2 * k + 1), e - 2 * k - 1)

/-- SQRT (R119). -/
def fnSqrt : FVal → Nat
  | .nan => fp32.nanEnc
  | .inf n => if n then fp32.nanEnc else fp32.infEnc
  | .fin n 0 _ => fp32.signBit n
  | .fin true _ _ => fp32.nanEnc
  | .fin false m e =>
    let a := evenExp 40 m e
    let y := isqrt 64 a.1 0
    toFp32 (sticky false (decide (y * y = a.1)) y (a.2 / 2))

/-- RSQRT (R119); 1 / sqrt(±0) is ±Inf. -/
def fnRsqrt : FVal → Nat
  | .nan => fp32.nanEnc
  | .inf n => if n then fp32.nanEnc else 0
  | .fin n 0 _ => fp32.signBit n + fp32.infEnc
  | .fin true _ _ => fp32.nanEnc
  | .fin false m e =>
    let a := evenExp 0 m e
    let y := isqrt 64 (2 ^ 120 / a.1) 0
    toFp32 (sticky false (decide (y * y * a.1 = 2 ^ 120)) y (-60 - a.2 / 2))

/-! ### Enclosures in fixed point with p fraction bits -/

/-- atanh(a/b) for 0 ≤ a/b ≤ 1/3, from below, in units of 2^-p: the sum of z^(2k+1)/(2k+1). `t` is z^(2k+1). The
error is below 2 units for each term. -/
def atanhSum (a b : Nat) : Nat → Nat → Nat → Nat
  | 0, _, _ => 0
  | fuel + 1, k, t => t / (2 * k + 1) + atanhSum a b fuel (k + 1) (t * a / b * a / b)

/-- ln 2 from below. -/
def ln2Fix (p : Nat) : Nat := 2 * atanhSum 1 3 p 0 (2 ^ p / 3)

/-- exp(r) for 0 ≤ r < 1, from below, r in units of 2^-p. `t` is r^k/k!. -/
def expSum (p r : Nat) : Nat → Nat → Nat → Nat
  | 0, _, _ => 0
  | fuel + 1, k, t => t + expSum p r fuel (k + 1) (t * r / 2 ^ p / (k + 1))

/-- An enclosure (lo, width, exponent): the value lies in [lo, lo + width] * 2^exponent. -/
structure Encl where
  neg : Bool
  lo : Nat
  width : Nat
  exp : Int
  deriving DecidableEq, Repr

/-- exp of (-1)^neg * x, with x in units of 2^-p: 2^k times exp(r) with 0 ≤ r < ln 2. -/
def expEncl (p : Nat) (neg : Bool) (x : Nat) : Encl :=
  let l := ln2Fix p
  let k := x / l + (if neg then 1 else 0)
  let r := if neg then k * l - x else x - k * l
  let w := 16 * p + 8 * p * k + 64
  ⟨false, expSum p r p 0 (2 ^ p) - w, 2 * w, (if neg then -(k : Int) else (k : Int)) - p⟩

/-- ln of m * 2^e (m > 0) as a signed fixed-point number: (negative?, lo, width). -/
def lnEncl (p m : Nat) (e : Int) : Encl :=
  let g := Nat.log2 m
  let one := 2 ^ g
  let lm := 2 * atanhSum (m - one) (m + one) p 0 (2 ^ p * (m - one) / (m + one))
  let k : Int := e + g
  let l := ln2Fix p
  if 0 ≤ k then ⟨false, k.toNat * l + lm, 16 * p + 16 * p * k.toNat + 64, -(p : Int)⟩
  else
    let w := 16 * p + 16 * p * k.natAbs + 64
    ⟨true, k.natAbs * l - lm - w, 2 * w, -(p : Int)⟩

/-- Round both ends to FP32; raise the precision while they differ. -/
def zivRound (f : Nat → Encl) : List Nat → Nat
  | [] => fp32.nanEnc
  | [p] => let v := f p; toFp32 (.fin v.neg (2 * v.lo + v.width) (v.exp - 1))
  | p :: ps =>
    let v := f p
    let a := toFp32 (.fin v.neg v.lo v.exp)
    let b := toFp32 (.fin v.neg (v.lo + v.width) v.exp)
    if a = b then a else zivRound f ps

/-- The precisions tried. -/
def zivSteps : List Nat := [96, 160, 256]

/-- |x| in units of 2^-p, rounded down. -/
def fixOf (p m : Nat) (e : Int) : Nat :=
  if 0 ≤ e + p then m * 2 ^ (e + p).toNat else m / 2 ^ (-(e + p)).toNat

/-- |x| ≥ 2^k. -/
def magGe (m : Nat) (e k : Int) : Bool := !(magLt m e 1 k)

/-- EXP (R119). -/
def fnExp : FVal → Nat
  | .nan => fp32.nanEnc
  | .inf n => if n then 0 else fp32.infEnc
  | .fin n m e =>
    if m = 0 then 0x3F800000
    else if magGe m e 8 then (if n then 0 else fp32.infEnc)
    else if !(magGe m e (-30)) then 0x3F800000
    else zivRound (fun p => expEncl p n (fixOf p m e)) zivSteps

/-- EXP2 (R119); exact at integers. -/
def fnExp2 : FVal → Nat
  | .nan => fp32.nanEnc
  | .inf n => if n then 0 else fp32.infEnc
  | .fin n m e =>
    if m = 0 then 0x3F800000
    else if magGe m e 9 then (if n then 0 else fp32.infEnc)
    else if !(magGe m e (-30)) then 0x3F800000
    else
      let fl := fixOf 64 m e
      if fixOf 200 m e % 2 ^ 200 = 0 then
        toFp32 (.fin false 1 (sgnInt n (fl / 2 ^ 64)))
      else
        zivRound (fun p =>
          let x := fixOf p m e
          let k := x / 2 ^ p + (if n then 1 else 0)
          let r := if n then k * 2 ^ p - x else x - k * 2 ^ p
          ⟨false, expSum p (r * ln2Fix p / 2 ^ p) p 0 (2 ^ p) - (16 * p + 64), 32 * p + 128,
            (if n then -(k : Int) else (k : Int)) - p⟩) zivSteps

/-- LOG (R119). -/
def fnLog : FVal → Nat
  | .nan => fp32.nanEnc
  | .inf n => if n then fp32.nanEnc else fp32.infEnc
  | .fin n m e =>
    if m = 0 then fp32.signBit true + fp32.infEnc
    else if n then fp32.nanEnc
    else if m = 2 ^ Nat.log2 m && decide (e + Nat.log2 m = 0) then 0
    else zivRound (fun p => lnEncl p m e) zivSteps

/-- LOG2 (R119); exact at powers of two. -/
def fnLog2 : FVal → Nat
  | .nan => fp32.nanEnc
  | .inf n => if n then fp32.nanEnc else fp32.infEnc
  | .fin n m e =>
    let g := Nat.log2 m
    if m = 0 then fp32.signBit true + fp32.infEnc
    else if n then fp32.nanEnc
    else if m = 2 ^ g then toFp32 (FVal.ofInt (e + g) 0)
    else
      zivRound (fun p =>
        let k : Int := e + g
        let one := 2 ^ g
        let lm := 2 * atanhSum (m - one) (m + one) p 0 (2 ^ p * (m - one) / (m + one))
        let f := lm * 2 ^ p / ln2Fix p
        let w := 32 * p + 64
        if 0 ≤ k then ⟨false, k.toNat * 2 ^ p + (f - w), 2 * w, -(p : Int)⟩
        else ⟨true, k.natAbs * 2 ^ p - f - w, 2 * w, -(p : Int)⟩) zivSteps

/-- TANH (R119): (E - 1) / (E + 1) with E = exp(2|x|). Below 2^-13 the result rounds to x itself. -/
def fnTanh : FVal → Nat
  | .nan => fp32.nanEnc
  | .inf n => fp32.signBit n + 0x3F800000
  | .fin n m e =>
    if magGe m e 5 then fp32.signBit n + 0x3F800000
    else if !(magGe m e (-13)) then toFp32 (.fin n m e)
    else
      zivRound (fun p =>
        let v := expEncl p false (fixOf p m (e + 1))
        let a := v.lo * 2 ^ (v.exp + p).toNat
        let w := v.width * 2 ^ (v.exp + p).toNat
        let one := 2 ^ p
        let lo := 2 ^ (2 * p) * (a - one) / (a + one)
        let hi := 2 ^ (2 * p) * (a + w - one) / (a + w + one) + 1
        ⟨n, lo, hi - lo, -(2 * p : Int)⟩) zivSteps

/-- SIGM (R119): 1 / (1 + exp(-x)). -/
def fnSigm : FVal → Nat
  | .nan => fp32.nanEnc
  | .inf n => if n then 0 else 0x3F800000
  | .fin n m e =>
    if m = 0 then 0x3F000000
    else if !(magGe m e (-30)) then 0x3F000000
    else if magGe m e 8 then (if n then 0 else 0x3F800000)
    else
      zivRound (fun p =>
        let v := expEncl p false (fixOf p m e)
        let sh := 2 ^ (v.exp + p).toNat
        let a := v.lo * sh
        let b := (v.lo + v.width) * sh
        let one := 2 ^ p
        if n then ⟨false, 2 ^ (4 * p) / (b + one), 2 ^ (4 * p) / (a + one) + 1 - 2 ^ (4 * p) / (b + one), -(3 * p : Int)⟩
        else ⟨false, 2 ^ p * a / (a + one), 2 ^ p * b / (b + one) + 1 - 2 ^ p * a / (a + one), -(p : Int)⟩) zivSteps

/-! ### Philox (R67) -/

/-- One round of R67 on the counter words and the key. -/
def philoxRound (c : Nat × Nat × Nat × Nat) (k : Nat × Nat) : Nat × Nat × Nat × Nat :=
  let p0 := 0xD2511F53 * c.1
  let p1 := 0xCD9E8D57 * c.2.2.1
  (((p1 / 2 ^ 32) ^^^ c.2.1) ^^^ k.1, p1 % 2 ^ 32, ((p0 / 2 ^ 32) ^^^ c.2.2.2) ^^^ k.2, p0 % 2 ^ 32)

def philoxLoop : Nat → Nat × Nat × Nat × Nat → Nat × Nat → Nat × Nat × Nat × Nat
  | 0, c, _ => c
  | n + 1, c, k => philoxLoop n (philoxRound c k) ((k.1 + 0x9E3779B9) % 2 ^ 32, (k.2 + 0xBB67AE85) % 2 ^ 32)

/-- The random word of element i (R67). -/
def philox (seed tensorId step salt i : Nat) : Nat :=
  let j := i / 4
  let c := philoxLoop 10 (j % 2 ^ 32, salt * 65536 + (j / 2 ^ 32) % 65536, tensorId, step)
    (seed % 2 ^ 32, seed / 2 ^ 32)
  match i % 4 with
  | 0 => c.1
  | 1 => c.2.1
  | 2 => c.2.2.1
  | _ => c.2.2.2

end Sys2Proof.Machine
end

