-- ==== Sys2Proof/Machine/Flags.lean ====
section
/-! DEFINITION. What a conversion and a statistic record count (R70-R72): the anomaly counters of each element, and the
sums and maxima that the reduction unit takes (R127, R128). -/

namespace Sys2Proof.Machine

/-- The seven counters of R70 in its order: OVF, SAT, UFZ, SUBN, INF, NAN, NANIN. -/
abbrev Counts := List Nat

def Counts.zero : Counts := [0, 0, 0, 0, 0, 0, 0]

def Counts.add (a b : Counts) : Counts := List.zipWith (· + ·) a b

def one (b : Bool) : Nat := if b then 1 else 0

/-- A nonzero subnormal by the element's own encoding (R70): e = 0 and m ≠ 0 of a floating-point element. -/
def isSubnormal (fmt bits : Nat) : Bool :=
  match elemFmt fmt with
  | some (.float f) => (bits / 2 ^ f.mbits) % 2 ^ f.ebits == 0 && bits % 2 ^ f.mbits != 0
  | _ => false

/-- What one converted element counts (R70). `marked` is the W64 saturation mark, `nanBlock` says that its block is a
NaN block. -/
def convCounts (fmt : Nat) (src : FVal) (marked nanBlock : Bool) (c : ElemConv) : Counts :=
  let v := decodeElem fmt c.bits
  [one (c.ovf || marked), one c.sat, one (!nanBlock && v.isZero && src.finite && !src.isZero),
    one (!nanBlock && isSubnormal fmt c.bits), one (!nanBlock && v.isInf), one (nanBlock || v.isNan), one src.isNan]

/-- The square of a value that is neither NaN nor infinite. -/
def square : FVal → FVal
  | .fin _ m e => .fin false (m * m) (2 * e)
  | x => x

/-- Pairwise levels over a list in binary64 (R128). -/
def fp64Level : List Word → List Word
  | a :: b :: t => addFp64 a b :: fp64Level t
  | l => l

/-- `n` pairwise levels. -/
def fp64Tree : Nat → List Word → Word
  | 0, l => l.headD 0
  | n + 1, l => fp64Tree n (fp64Level l)

/-- The larger of two magnitudes held as FP32 words. -/
def maxMag (a b : Nat) : Nat := if (ofFp32 a).ltVal (ofFp32 b) then b else a

end Sys2Proof.Machine
end

