-- ==== Sys2Proof/Machine/Operands.lean ====
section
/-! DEFINITION. The operands of a vector instruction (R108-R114, R120-R122, R143, R148, R154): the operation's shape,
the conversion block, the chunk, and the reading of tile registers, masks, scalars, the tile queue, windows and ingress
queues. -/

namespace Sys2Proof.Machine

/-! ### Fields (R153, R154, R69) -/

def veEop (e : Enc) : Bool := bitAt e.mod 7
def veCond (e : Enc) : Nat := bitsOf e.mod 5 3
def veMode16 (e : Enc) : Bool := bitAt e.mod 2
def veConv (e : Enc) : Bool := bitAt e.mod 1
def veTap (e : Enc) : Bool := bitAt e.mod 0
def veE (e : Enc) : Nat := bitsOf e.imm 63 48
def veScalp (e : Enc) : Nat := bitsOf e.imm 47 40
def veGfmt (e : Enc) : Nat := bitsOf e.imm 39 36

/-- What an opcode computes on. -/
inductive VKind where
  | arith | float | compare | select | convert | elementary | int | w64 | row | mask | gather
  deriving DecidableEq, Repr

def vkind (o : Nat) : VKind :=
  if o ≤ 0x43 then .arith
  else if o ≤ 0x48 then .float
  else if o = 0x49 then .compare
  else if o = 0x4A then .select
  else if o = 0x4B then .convert
  else if o ≤ 0x58 then .elementary
  else if o ≤ 0x68 then .int
  else if o = 0x6A then .w64
  else if o = 0x6B then .convert
  else if o ≤ 0x73 then .row
  else if o ≤ 0x7B then .mask
  else .gather

/-- Source operands that an opcode takes. -/
def vsources (o : Nat) : Nat :=
  if o = 0x43 ∨ o = 0x4A then 3
  else if o = 0x46 ∨ o = 0x47 ∨ vkind o = .elementary ∨ vkind o = .convert ∨ vkind o = .row ∨ o = 0x7B ∨ o = 0x7C then 1
  else 2

/-- The instruction writes through the conversion block: CONV, or CVT and WCVT always (notes/assumptions/16.md). -/
def converts (e : Enc) : Bool := veConv e || vkind e.opc == .convert

/-- The instruction reads P registers through PX (R147, R154, R156). -/
def veUsesPx (e : Enc) : Bool := converts e || veTap e || vkind e.opc == .gather

/-- The conversion word (R69) of five P registers. -/
def cword (conv : List Word) : Nat := (conv.headD 0).toNat

def cwSalt (w : Nat) : Nat := bitsOf w 63 48
def cwGnsAcc (w : Nat) : Bool := bitAt w 36
def cwGnsMb (w : Nat) : Bool := bitAt w 35
def cwStats (w : Nat) : Bool := bitAt w 34
def cwSat (w : Nat) : Bool := bitAt w 33
def cwW64 (w : Nat) : Bool := bitAt w 32
def cwQfix (w : Nat) : Int := signedOf 8 (w / 2 ^ 24)
def cwRound (w : Nat) : Nat := bitsOf w 10 8
def cwSrc (w : Nat) : Nat := bitsOf w 7 4
def cwDst (w : Nat) : Nat := bitsOf w 3 0

/-- Register k of the conversion block. -/
def cblock (conv : List Word) (k : Nat) : Nat := (conv.getD k 0).toNat

def cbSeed (conv : List Word) : Nat := cblock conv 1
def cbTensor (conv : List Word) : Nat := cblock conv 2 % 2 ^ 32
def cbStep (conv : List Word) : Nat := cblock conv 2 / 2 ^ 32
def cbStride (conv : List Word) : Nat := cblock conv 3 / 2 ^ 32
def cbRecord (conv : List Word) : Nat := bitsOf (cblock conv 3) 20 0 / 64 * 64
def cbBase (conv : List Word) : Nat := cblock conv 4 % 2 ^ 50

/-- The linear index of element e in its tensor (R155). -/
def tensorIndex (conv : List Word) (e : Nat) : Nat := cbBase conv + e / 64 * cbStride conv + e % 64

/-! ### Widths and chunks (R108, R109) -/

/-- What an open value of an instruction depends on: its encoding. -/
def Enc.key (e : Enc) : List Nat := [e.opc, e.mod, e.dst, e.a, e.b, e.c]

/-- SEL selects W64 elements (R117): by SRC_W64 of its conversion word; without one the encoding does not say
(notes/assumptions/153.md). -/
def selW64 (e : Enc) (conv : List Word) : Bool :=
  e.opc == 0x4A && !(veMode16 e) && (if converts e then cwW64 (cword conv) else Config.selectW64 e.key)

/-- A converting operation reads W64 elements: WCVT always, CVT and SEL by SRC_W64. -/
def srcW64 (e : Enc) (conv : List Word) : Bool :=
  e.opc == 0x6B || (e.opc == 0x4B && cwW64 (cword conv)) || selW64 e conv

/-- The operation runs in W64 mode. -/
def w64Mode (e : Enc) (conv : List Word) : Bool := vkind e.opc == .w64 || srcW64 e conv

/-- What is written are W64 elements. -/
def dstW64 (e : Enc) (conv : List Word) : Bool := vkind e.opc == .w64 || (selW64 e conv && !(converts e))

/-- The 16-bit mode is in force: it has no meaning for conversions, mask and W64 operations (R117). -/
def mode16 (e : Enc) : Bool :=
  veMode16 e && (match vkind e.opc with
    | .convert => false
    | .mask => false
    | .w64 => false
    | _ => true)

/-- Operations with a 16-bit mode (R117). -/
def has16 (o : Nat) : Bool :=
  match vkind o with
  | .elementary => false
  | .int => false
  | _ => true

/-- The format code of 16-bit operand k, 3 for the destination: what SRC of a conversion word names; where none names BF16 or
FP16, the encoding does not say (R120; notes/assumptions/17.md). -/
def fmt16 (e : Enc) (conv : List Word) (k : Nat) : Nat :=
  let f := cwSrc (cword conv)
  if converts e && (f == 1 || f == 2) then f else if Config.operandFp16 e.key k then 2 else 1

/-- How the elements of a source operand are held. -/
inductive EShape where
  | packed (w : Nat) (fmt : Option Nat)
  | w64
  | block (fmt : Nat)
  deriving DecidableEq, Repr

/-- The shape of data source k; the sources of an instruction differ at most in their 16-bit format. SRC and SRC_W64 say what
CVT reads, and SRC_W64 what SEL reads; every other operation with CONV reads the operands of its mode and ignores both (DESIGN
CHOICE: notes/assumptions/154.md). -/
def srcShape (e : Enc) (conv : List Word) (k : Nat) : EShape :=
  if w64Mode e conv then .w64
  else
    match vkind e.opc with
    | .convert =>
      let f := cwSrc (cword conv)
      if isBlock f then .block f else .packed (elemBits f) (some f)
    | .int => .packed 32 none
    | .gather => .packed 32 none
    | _ => if mode16 e then .packed 16 (some (fmt16 e conv k)) else .packed 32 (some 0)

/-- Bytes of `n` elements from a chunk boundary on. -/
def EShape.bytes : EShape → Nat → Nat
  | .packed w _, n => (n * w + 7) / 8
  | .w64, n => 8 * n
  | .block f, n => fmtBytes f n

/-- The format that is written: DST of the conversion, or FP32 or the 16-bit format; none for integers, W64 and masks. -/
def dstFmt (e : Enc) (conv : List Word) : Option Nat :=
  if converts e then some (cwDst (cword conv))
  else
    match vkind e.opc with
    | .int => none
    | .w64 => none
    | .mask => none
    | .compare => none
    | .row => some 0
    | _ => if selW64 e conv then none else if mode16 e then some (fmt16 e conv 3) else some 0

/-- Elements of a chunk: 64, 128 or 32; a mask operation takes all its bits at once. A chunk that is written in a block format
holds whole blocks: a row reduction, which gives one result for each 64 elements, takes the rows of a block together (R579;
DEDUCED: notes/assumptions/155.md). -/
def chunkSize (e : Enc) (conv : List Word) : Nat :=
  let c := if vkind e.opc = .mask then 4096 else if w64Mode e conv then 32 else if mode16 e then 128 else 64
  let d := cwDst (cword conv)
  if converts e && isBlock d then max c (blockElems d * (if vkind e.opc = .row then 64 else 1)) else c

/-- Chunks of an instruction. -/
def chunks (e : Enc) (conv : List Word) : Nat := (veE e + chunkSize e conv - 1) / chunkSize e conv

/-! ### Elements in the lanes -/

/-- An input element: its bits, the value they stand for, its poison and its saturation mark. -/
structure VIn where
  bits : Nat
  val : FVal
  poison : Bool
  sat : Bool
  deriving DecidableEq, Repr, Inhabited

/-- The W64 value N × 2^q of a source (R57). -/
def w64Val (q : Int) (n : Nat) : FVal := FVal.ofInt (signedOf 64 n) q

/-- The exponent of a W64 source: 0 for the integer products of the tile queue, and QFIX for every other (R57, R92; DEDUCED:
notes/assumptions/18.md). -/
def sourceQ (conv : List Word) (opnd : Nat) : Int :=
  if (opKind opnd == 1 || opKind opnd == 2) && opIdx opnd == 8 then 0 else cwQfix (cword conv)

/-- The bits of element j itself, from the first byte of its chunk: the first bit and how many. -/
def EShape.body (sh : EShape) (j : Nat) : Nat × Nat :=
  match sh with
  | .packed w _ => (j * w, w)
  | .w64 => (64 * j, 64)
  | .block f =>
    (8 * (j / blockElems f * blockBytes f + headerBytes f) + j % blockElems f * elemBits f, elemBits f)

/-- The scale and nudge bits that element j shares with its block. -/
def EShape.header (sh : EShape) (j : Nat) : Nat × Nat :=
  match sh with
  | .block f => (8 * (j / blockElems f * blockBytes f), 8 * headerBytes f)
  | _ => (0, 0)

/-- The bits and the values of n elements. -/
def EShape.values (sh : EShape) (q : Int) (n : Nat) (bytes : List Byte) : List (Nat × FVal) :=
  match sh with
  | .packed w fmt => (unpack w n (leNat bytes)).map (fun v =>
      (v, match fmt with
        | some f => decodeElem f v
        | none => FVal.ofInt (signedOf w v) 0))
  | .w64 => (unpack 64 n (leNat bytes)).map (fun v => (v, w64Val q v))
  | .block f =>
    let k := (n + blockElems f - 1) / blockElems f
    (((List.range k).flatMap (fun j => decodeBlock f ((bytes.drop (j * blockBytes f)).take (blockBytes f)))).take n).map
      (fun v => (0, v))

/-- Elements in the lanes: an element is poisoned when its own bits or those of its block's header are (R124, R581); `bad` tells
of a span of bits, `sats` holds the W64 marks. -/
def shapeElems (sh : EShape) (q : Int) (n : Nat) (bytes : List Byte) (bad : Nat × Nat → Bool) (sats : List Bool) :
    List VIn :=
  ((sh.values q n bytes).zip (List.range n)).map (fun p =>
    { bits := p.1.1, val := p.1.2, poison := bad (sh.body p.2) || bad (sh.header p.2), sat := sats.getD p.2 false })

/-- A span of bits touches a poisoned byte. -/
def spanPoison (bytes : List PByte) (p : Nat × Nat) : Bool :=
  decide (0 < p.2) && anyPoison ((bytes.drop (p.1 / 8)).take ((p.1 + p.2 + 7) / 8 - p.1 / 8))

/-- Elements from bytes that carry their poison. -/
def byteElems (sh : EShape) (q : Int) (n : Nat) (bytes : List PByte) (sats : List Bool) : List VIn :=
  shapeElems sh q n (vals bytes) (spanPoison bytes) sats

/-- Bit i of mask register k: VM0 reads as all ones (R121). -/
def Tiller.maskBit (x : Tiller) (k i : Nat) : Bool := k == 0 || (Tbl.get 0 x.vm k).getLsbD i

/-- Element i of an instruction is unmasked (R110, R121). -/
def Tiller.live (x : Tiller) (e : Enc) (i : Nat) : Bool :=
  decide (i < veE e) && (!e.men || x.maskBit e.midx i)

/-- Byte b of n elements from element e0 on belongs to an unmasked element (R122). -/
def Tiller.byteLive (x : Tiller) (e : Enc) (sh : EShape) (e0 b : Nat) : Bool :=
  match sh with
  | .packed w _ =>
    let lo := b * 8 / w
    let hi := (b * 8 + 7) / w
    (List.range (hi + 1 - lo)).any (fun k => x.live e (e0 + lo + k))
  | .w64 => x.live e (e0 + b / 8)
  | .block f =>
    let r := b / blockBytes f * blockElems f
    (List.range (blockElems f)).any (fun k => x.live e (e0 + r + k))

/-- What reading an operand gives. -/
inductive VRead where
  | ok (s : State) (els : List VIn)
  | run (q : Nat) (a : Int)

/-- Bytes of a tile register from an offset on, its poison marks and the W64 marks of its elements. -/
def Tiller.vtBytes (x : Tiller) (k off n : Nat) : List Byte :=
  (List.range n).map (fun j => Tbl.get 0 x.vt (k * 16384 + off + j))

def Tiller.vtBad (x : Tiller) (k off : Nat) (p : Nat × Nat) : Bool :=
  (List.range (p.2 / 2)).any (fun j => Tbl.get false x.vtPoison (k * 65536 + off * 4 + p.1 / 2 + j))

def Tiller.vtSats (x : Tiller) (k e0 n : Nat) : List Bool :=
  (List.range n).map (fun j => Tbl.get false x.vtSat (k * 2048 + e0 + j))

/-- Bytes of the tile at the head, from an offset on. -/
def Tile.slice (k : Tile) (off n : Nat) : List PByte :=
  (List.range n).map (fun j =>
    let w := if k.w64 then 8 else 4
    let el := k.elem ((off + j) / w)
    ⟨BitVec.ofNat 8 (el.val.toNat / 2 ^ (8 * ((off + j) % w))), el.poison⟩)

/-- The W64 marks of a tile's elements. -/
def Tile.sats (k : Tile) (e0 n : Nat) : List Bool := (List.range n).map (fun j => k.w64 && (k.elem (e0 + j)).sat)

/-- A P register broadcast in the element width of the operation (R148). -/
def scalarElems (sh : EShape) (q : Int) (n v : Nat) : List VIn :=
  let one : VIn := match sh with
    | .packed w (some f) => { bits := v % 2 ^ w, val := decodeElem f (v % 2 ^ w), poison := false, sat := false }
    | .packed w none => { bits := v % 2 ^ w, val := FVal.ofInt (signedOf w v) 0, poison := false, sat := false }
    | .w64 => { bits := v, val := w64Val q v, poison := false, sat := false }
    | .block _ => { bits := 0, val := .nan, poison := false, sat := false }
  List.replicate n one

/-- Read n elements from element e0 on of a source operand (R143). A pop takes the data; a peek walks on within its
instruction and leaves the queue as it was (DEDUCED: notes/assumptions/19.md). -/
def State.readSource (s : State) (t : Nat) (i : Inst) (e : Enc) (sh : EShape) (opnd e0 n : Nat) : VRead :=
  let x := s.til t
  let k := opIdx opnd
  let off := sh.bytes e0
  let nb := sh.bytes n
  let z := sourceQ i.conv opnd
  if opKind opnd = 3 then .ok s (shapeElems sh z n (x.vtBytes k off nb) (x.vtBad k off) (x.vtSats k e0 n))
  else if opKind opnd = 5 then .ok s (scalarElems sh z n i.scal.toNat)
  else if k = 8 then
    match x.headTile with
    | some tl => .ok s (byteElems sh z n (tl.slice off nb) (tl.sats e0 n))
    | none => .ok s []
  else if k ≤ 23 then
    let pop := opKind opnd == 1
    let skip := if pop then 0 else off
    match agTake (s.binding t k) (skip + nb + 1) (s.ag t k) (skip + nb) with
    | .error a => .run k a
    | .ok (offs, g) =>
      let wants := (List.range nb).map (fun b => x.byteLive e sh e0 b)
      let r := s.storeRead t ((offs.drop skip).zip wants)
      .ok (if pop then r.1.setAg t k g else r.1) (byteElems sh z n r.2 [])
  else
    let l := Tbl.get [] x.ingress k
    let pop := opKind opnd == 1
    let skip := if pop then 0 else off
    let s1 := if pop then s.setTil t { x with ingress := Tbl.put x.ingress k (l.drop nb) } else s
    .ok s1 (byteElems sh z n ((l.drop skip).take nb) [])

/-- A source has the data of a chunk (R141, R142). -/
def Tiller.sourceReady (x : Tiller) (sh : EShape) (opnd e0 n : Nat) : Bool :=
  if opKind opnd = 1 ∨ opKind opnd = 2 then
    let k := opIdx opnd
    if k = 8 then x.headTile.isSome
    else if 28 ≤ k then
      decide ((if opKind opnd = 1 then 0 else sh.bytes e0) + sh.bytes n ≤ (Tbl.get [] x.ingress k).length)
    else true
  else true

/-- Bytes of ingress queue k that a chunk needs for all the operands that name it: every pop takes its own (R141, R143). -/
def ingressNeed (sh : EShape) (ops : List Nat) (k e0 n : Nat) : Nat :=
  ((ops.filter (fun o => opKind o == 1 && opIdx o == k)).map (fun _ => sh.bytes n)).sum +
    (if ops.any (fun o => opKind o == 2 && opIdx o == k) then sh.bytes e0 + sh.bytes n else 0)

/-- The ingress queues hold the bytes of a chunk. -/
def Tiller.ingressReady (x : Tiller) (sh : EShape) (ops : List Nat) (e0 n : Nat) : Bool :=
  [28, 29, 30, 31].all (fun k => decide (ingressNeed sh ops k e0 n ≤ (Tbl.get [] x.ingress k).length))

/-- The data operands of an instruction: SEL's third source is its mask (DEDUCED: notes/assumptions/20.md). -/
def dataOperands (e : Enc) : List Nat :=
  if vkind e.opc = .mask then []
  else if e.opc = 0x4A then [e.a, e.b]
  else [e.a, e.b, e.c].take (vsources e.opc)

end Sys2Proof.Machine
end

