-- ==== Sys2Proof/Machine/Vector.lean ====
section
/-! DEFINITION. The vector engine (R108-R131): the dispatch of every vector instruction with its checks (R147-R156,
R579, R582), the chunk, and the statistic record. -/

namespace Sys2Proof.Machine

/-! ### Checks at dispatch -/

/-- A source operand kind that its position allows: a queue end, a tile register or a scalar; a mask register in a mask
position. -/
def srcKindOk (mask : Bool) (x : Nat) : Bool :=
  if mask then opKind x == 4 && decide (opIdx x < 8)
  else opKind x == 1 || opKind x == 2 || (opKind x == 3 && decide (opIdx x < 8)) || (opKind x == 5 && opIdx x == 0)

/-- A destination kind that the operation allows. -/
def dstKindOk (o x : Nat) : Bool :=
  if vkind o = .mask ∨ vkind o = .compare then opKind x == 4 && decide (opIdx x < 8)
  else opKind x == 1 || (opKind x == 3 && decide (opIdx x < 8))

/-- Position k of an opcode takes a mask register. -/
def maskPos (o k : Nat) : Bool := vkind o == .mask || (o == 0x4A && k == 2)

/-- The encoding checks (R147, R148, R153, R154, R38). -/
def vecEncBad (e : Enc) : List (Bool × Bad) :=
  let ns := vsources e.opc
  let src := [e.a, e.b, e.c]
  [(e.res != 0, badField), (bitAt e.mod 6, badField), (e.opc != 0x49 && veCond e != 0, badField),
    (e.opc == 0x49 && decide (3 < veCond e), badField), (bitsOf e.imm 35 0 != 0, badField),
    (e.opc != 0x7C && veGfmt e != 0, badField), (e.opc == 0x7C && veGfmt e == 15, badField),
    (veScalp e != 0 && !(src.any (fun x => opKind x == 5)), badField), (e.px != 0 && !(veUsesPx e), badField),
    ((src.drop ns).any (fun x => x != 0), badField),
    (!(dstKindOk e.opc e.dst), ⟨0x38, 2, 5⟩),
    (!(((src.take ns).zip (List.range ns)).all (fun p => srcKindOk (maskPos e.opc p.2) p.1)), ⟨0x38, 2, 5⟩),
    ((converts e || veTap e) && decide (251 < e.px), ⟨0x38, 2, 5⟩)]

/-- The queue-end rules (R144). -/
def State.vecQueueBad (s : State) (t : Nat) (e : Enc) : List (Bool × Bad) :=
  (opKind e.dst == 1 && !(s.qkind t (opIdx e.dst) == .writeWin || s.qkind t (opIdx e.dst) == .egress),
      ⟨0x39, opIdx e.dst, 5⟩) ::
    ([e.a, e.b, e.c].map (fun x =>
      ((opKind x == 1 || opKind x == 2) &&
        !(s.qkind t (opIdx x) == .tile || s.qkind t (opIdx x) == .readWin || s.qkind t (opIdx x) == .ingress),
        ⟨0x39, opIdx x, 5⟩)))

/-- P(PX) to P(PX+4), as read at dispatch (R140, R154). -/
def State.convBlock (s : State) (t : Nat) (e : Enc) : List Word :=
  if veUsesPx e then
    (List.range 5).map (fun k => if e.px + k ≤ 255 then BitVec.ofNat 64 (s.preg t (e.px + k)) else 0)
  else []

/-- Bytes of n written elements. -/
def dstBytes (e : Enc) (conv : List Word) (n : Nat) : Nat :=
  match dstFmt e conv with
  | some f => fmtBytes f n
  | none => if dstW64 e conv then 8 * n else 4 * n

/-- The shape and operand checks of class 0x36 (R109, R114, R117, R130, R579). -/
def vecShapeBad (e : Enc) (conv : List Word) : List (Bool × Bad) :=
  let b : Bad := ⟨0x36, 0, 4⟩
  let k := vkind e.opc
  let sh := srcShape e conv 0
  let isBlk : Bool := match sh with
    | .block _ => true
    | _ => false
  let d := cwDst (cword conv)
  let blk := blockElems d
  [(decide (4096 < veE e), b),
    (veConv e && (k == .int || k == .compare || k == .mask || k == .w64 || k == .gather), b),
    (mode16 e && !(has16 e.opc), b),
    (veTap e && converts e && cwStats (cword conv), b),
    (converts e && isBlock d && (cbBase conv % blk != 0 || cbStride conv % blk != 0), b),
    (decide (16384 < sh.bytes (veE e)) && (dataOperands e).any (fun x => opKind x == 3), b),
    (decide (16384 < dstBytes e conv (veE e)) && opKind e.dst == 3, b),
    (isBlk && (dataOperands e).any (fun x => opKind x == 5), b)]

/-- A conversion that names no format or a reserved rounding mode (R38). -/
def convReserved (e : Enc) (conv : List Word) : Bool :=
  let w := cword conv
  converts e && (cwDst w == 15 || decide (5 ≤ cwRound w) || (!(cwW64 w) && e.opc != 0x6B && cwSrc w == 15))

/-- The capture slots that an instruction matches (R533). -/
def State.captures (s : State) (t : Nat) (e : Enc) (conv : List Word) : List Nat :=
  if converts e || veTap e then
    (List.range 8).filter (fun k =>
      s.flag .OBS_CAPT_CTRL_ARM k && s.fld .OBS_CAPT_CTRL_TENSOR_ID k == cbTensor conv &&
        s.fld .OBS_CAPT_STEP_STEP k == cbStep conv &&
        (!(s.flag .OBS_CAPT_CTRL_SALT_EN k) || s.fld .OBS_CAPT_CTRL_SALT k == cwSalt (cword conv)) &&
        s.fld .OBS_CAPT_CTRL_CTX k == s.tctx t)
  else []

/-- The format in which the elements are captured: as written, or FP32 for TAP. -/
def captFmt (e : Enc) (conv : List Word) : Nat := if converts e then cwDst (cword conv) else 0

/-- MATCHES and, at the first match, FMT (R533, R534, R542). -/
def State.noteMatch (s : State) (k f : Nat) : State :=
  let s1 := if s.fld .OBS_CAPT_STATUS_MATCHES k = 0 then s.setFld .OBS_CAPT_STATUS_FMT k f else s
  s1.satAdd .OBS_CAPT_STATUS_MATCHES k 1

/-- The dispatch of a vector instruction (R138, R582). One whose conversion R38 refuses is not performed as a whole: it pops none of
its sources, and the next instruction follows (DESIGN CHOICE: notes/assumptions/152.md). -/
def State.doVector (s : State) (t opc : Nat) : State :=
  s.frontEnd t opc (fun s e => firstBad (vecEncBad e ++ s.vecQueueBad t e ++ vecShapeBad e (s.convBlock t e)))
    (fun s e pc =>
      let conv := s.convBlock t e
      if veE e = 0 then s.nextPc t pc
      else if convReserved e conv then
        (s.raiseCtx 0x3E (s.tctx t) (tilUnit t) (tilDetail pc 4 0 0 (cword conv))).nextPc t pc
      else
        let cap := s.captures t e conv
        let s1 := cap.foldl (fun s k => s.noteMatch k (captFmt e conv)) s
        let id := (s1.til t).nextId
        let s2 := s1.enqueue t pc vectorUnit (chunks e conv) 0 (s1.fetch t pc) conv
          (BitVec.ofNat 64 (s1.preg t (veScalp e)))
        let x := s2.til t
        (s2.setTil t { x with insts := x.insts.map (fun i => if i.id == id then { i with capt := cap } else i) }).nextPc
          t pc)

/-! ### The lanes (R117-R119, R121, R123, R131) -/

def VIn.none : VIn := { bits := 0, val := .fin false 0 0, poison := false, sat := false }

/-- The correctly rounded functions (R119). -/
def elemFn (o : Nat) (x : FVal) : Nat :=
  match o with
  | 0x50 => fnRcp x
  | 0x51 => fnSqrt x
  | 0x52 => fnRsqrt x
  | 0x53 => fnExp x
  | 0x54 => fnExp2 x
  | 0x55 => fnLog x
  | 0x56 => fnLog2 x
  | 0x57 => fnTanh x
  | _ => fnSigm x

/-- What a rounded function's FP32 result counts as source: an overflow of a finite value, an underflow of a nonzero one,
else the result itself (R70, R130). -/
def elemSource (o : Nat) (x : FVal) (r : Nat) : FVal × Bool :=
  let v := ofFp32 r
  if v.isInf && x.finite && !x.isZero then (.fin false 1 0, true)
  else if v.isZero && x.finite && (o == 0x53 || o == 0x54 || o == 0x58) then (.fin false 1 (-200), false)
  else (v, false)

/-- The sign of another element on a magnitude; a NaN stays the canonical NaN (R41). -/
def withSign (x : FVal) (neg : Bool) : FVal := if neg then x.abs.negate else x.abs

/-- The exact value of a floating-point operation (R117, R118); `w` is the operand width, `sel` the mask bit of SEL. -/
def floatOp (o w : Nat) (zneg sel : Bool) (a b c : VIn) : FVal :=
  match o with
  | 0x40 => a.val.add zneg b.val
  | 0x41 => a.val.add zneg b.val.negate
  | 0x42 => a.val.mul b.val
  | 0x43 => (a.val.mul b.val).add zneg c.val
  | 0x44 => a.val.min b.val
  | 0x45 => a.val.max b.val
  | 0x46 => a.val.abs
  | 0x47 => a.val.negate
  | 0x48 => withSign a.val (bitAt b.bits (w - 1))
  | 0x4A => if sel then a.val else b.val
  | _ => a.val

/-- FCMP's conditions. -/
def compareOp (cond : Nat) (a b : FVal) : Bool :=
  match cond with
  | 0 => a.eqVal b
  | 1 => a.ltVal b
  | 2 => a.ltVal b || a.eqVal b
  | _ => a.isNan || b.isNan

/-- The 32-bit integer operations: two's complement, wrapping; shift counts are the low five bits and SHR is logical
(DEDUCED: notes/assumptions/21.md). -/
def intOp (o a b : Nat) : Nat :=
  match o with
  | 0x60 => (a + b) % 2 ^ 32
  | 0x61 => (a + 2 ^ 32 - b) % 2 ^ 32
  | 0x62 => if signedOf 32 a ≤ signedOf 32 b then a else b
  | 0x63 => if signedOf 32 a ≤ signedOf 32 b then b else a
  | 0x64 => a &&& b
  | 0x65 => a ||| b
  | 0x66 => a ^^^ b
  | 0x67 => (a * 2 ^ (b % 32)) % 2 ^ 32
  | _ => a / 2 ^ (b % 32)

/-- One result on its way to the destination. `src` is the value that is converted or counted, `bits` the encoding where
nothing is converted. -/
structure VRes where
  src : FVal
  bits : Nat
  ovf : Bool
  poison : Bool
  sat : Bool
  live : Bool
  deriving DecidableEq, Repr, Inhabited

/-- Level by level, values of a row in binary64 (R128, R131). -/
def rowTree (max : Bool) : Nat → List FVal → FVal
  | 0, l => l.headD (.fin false 0 0)
  | n + 1, l =>
    let rec level : List FVal → List FVal
      | a :: b :: t => (if max then a.max b else fp64.decode (toFp64 (a.add false b))) :: level t
      | l => l
    rowTree max n (level l)

/-- What an element gives to its row; a masked one or one beyond E gives what an empty row gives (R131; DEDUCED:
notes/assumptions/22.md). -/
def rowInput (o : Nat) (live : Bool) (x : FVal) : FVal :=
  match o with
  | 0x70 => if live then x else .fin false 0 0
  | 0x71 => if live then square (if x.isInf then .inf false else x) else .fin false 0 0
  | 0x72 => if live then x else .inf true
  | _ => if live then x.abs else .fin false 0 0

/-- The results of a chunk of rows (R131). -/
def rowResults (o : Nat) (els : List (VIn × Bool)) : List VRes :=
  (List.range ((els.length + 63) / 64)).map (fun r =>
    let row := (els.drop (64 * r)).take 64
    let xs := row.map (fun p => rowInput o p.2 p.1.val)
    let pad := List.replicate (64 - xs.length) (rowInput o false (.fin false 0 0))
    let v := rowTree (decide (0x72 ≤ o)) 6 (xs ++ pad)
    { src := v, bits := toFp32 v, ovf := false, poison := row.any (fun p => p.2 && p.1.poison), sat := false, live := true })

/-- The bits of a selected element: as they are, a NaN's too (DESIGN CHOICE: notes/assumptions/156.md), or converted where its
16-bit format is not the destination's (R120). -/
def selectBits (e : Enc) (conv : List Word) (k : Nat) (y : VIn) : Nat :=
  match dstFmt e conv with
  | some f =>
    if converts e || (mode16 e && fmt16 e conv k != f) then (convScalar f 0 false 0 y.val).bits else y.bits
  | none => y.bits

/-- The results of a chunk element by element; an unmasked operation with any poisoned input gives a poisoned result (R124). -/
def laneResults (e : Enc) (conv : List Word) (zneg : Bool) (ins : List (List VIn)) (lives sels : List Bool) : List VRes :=
  let w := if mode16 e then 16 else 32
  (lives.zip (List.range lives.length)).map (fun p =>
    let at_ := fun k => (ins.getD k []).getD p.2 VIn.none
    let a := at_ 0
    let b := at_ 1
    let c := at_ 2
    let n := (dataOperands e).length
    let poison := p.1 && (a.poison || (decide (2 ≤ n) && b.poison) || (decide (3 ≤ n) && c.poison))
    let sel := sels.getD p.2 false
    match vkind e.opc with
    | .int => { src := .fin false 0 0, bits := intOp e.opc a.bits b.bits, ovf := false, poison := poison, sat := false, live := p.1 }
    | .w64 =>
      let r := w64Add (BitVec.ofNat 64 a.bits) (BitVec.ofNat 64 b.bits)
      { src := .fin false 0 0, bits := r.1.toNat, ovf := false, poison := poison, sat := a.sat || b.sat || r.2, live := p.1 }
    | .compare =>
      { src := .fin false 0 0, bits := one (compareOp (veCond e) a.val b.val), ovf := false, poison := poison, sat := false,
        live := p.1 }
    | .elementary =>
      let r := elemFn e.opc a.val
      let q := elemSource e.opc a.val r
      { src := if converts e then ofFp32 r else q.1, bits := r, ovf := !(converts e) && q.2, poison := poison, sat := false,
        live := p.1 }
    | .select =>
      let y := if sel then a else b
      { src := y.val, bits := selectBits e conv (if sel then 0 else 1) y, ovf := false, poison := poison
        sat := y.sat && selW64 e conv, live := p.1 }
    | .gather =>
      { src := a.val, bits := 0, ovf := false, poison := poison, sat := false, live := p.1 }
    | _ =>
      let v := floatOp e.opc w zneg sel a b c
      { src := v, bits := 0, ovf := false, poison := poison, sat := a.sat && srcW64 e conv, live := p.1 })

/-! ### Gather (R123, R156, R580) -/

/-- Bits of an element of a gather, and where element k lies from the base: for a block format in its packed record
(DEDUCED: notes/assumptions/23.md). -/
def gatherBytes (fmt : Nat) (k : Int) : Int × Nat :=
  if isBlock fmt then (k / blockElems fmt * blockBytes fmt, blockBytes fmt)
  else
    let w := elemBits fmt
    (k * w / 8, ((k * w % 8).toNat + w + 7) / 8)

/-- One lane of a gather: its element and whether its index failed the bound. The lane reads its bytes in one access; an index below
the bound, a negative one too, reads where its address lies (R123). -/
def State.gatherLane (s : State) (t : Nat) (conv : List Word) (fmt : Nat) (ix : VIn) (live : Bool) :
    State × VIn × Bool :=
  let base := bitsOf (cblock conv 0) 20 0
  let bound := bitsOf (cblock conv 0) 63 32
  let k := signedOf 32 ix.bits
  if !live then (s, VIn.none, false)
  else if ix.poison then (s, { VIn.none with poison := true }, false)
  else if (bound : Int) ≤ k then (s, { VIn.none with poison := true }, true)
  else
    let p := gatherBytes fmt k
    let r := s.memRead (s.tilAcc t) (ownAddr t (base + p.1) p.2) p.2
    let el :=
      if isBlock fmt then (recordOperands fmt r.2).getD (k % blockElems fmt).toNat ⟨.fin false 0 0, true⟩
      else
        let w := elemBits fmt
        { val := decodeElem fmt (leNat (vals r.2) / 2 ^ (k * w % 8).toNat % 2 ^ w), poison := anyPoison r.2 }
    (r.1, { bits := 0, val := el.val, poison := el.poison, sat := false }, false)

/-- The lanes of a gather chunk; the first lane that fails the bound, with its index value. -/
def State.gather (s : State) (t : Nat) (conv : List Word) (fmt e0 : Nat) :
    List (VIn × Bool) → State × List VIn × Option (Nat × Nat)
  | [] => (s, [], none)
  | (ix, live) :: rest =>
    let r := s.gatherLane t conv fmt ix live
    let q := r.1.gather t conv fmt (e0 + 1) rest
    (q.1, r.2.1 :: q.2.1, if r.2.2 then some (e0, ix.bits) else q.2.2)

/-! ### Conversion of a chunk (R60-R64, R121, R579) -/

/-- A converted chunk: its bytes as they would lie in a stream, one ElemConv per element, the values as written, and
which elements lie in a NaN block. -/
structure VConv where
  elems : List ElemConv
  written : List FVal
  nans : List Bool
  records : List (List Byte)
  deriving DecidableEq, Repr

/-- The random word of element d of an instruction (R66, R67). -/
def randomWord (conv : List Word) (d : Nat) : Nat :=
  if cwRound (cword conv) = 4 then
    philox (cbSeed conv) (cbTensor conv) (cbStep conv) (cwSalt (cword conv)) (tensorIndex conv d)
  else 0

/-- FP32 first for every operation that is not exact before rounding (R118, R580). -/
def convSource (e : Enc) (v : FVal) : FVal :=
  match vkind e.opc with
  | .arith => v
  | .convert => v
  | _ => ofFp32 (toFp32 v)

/-- Convert the results of a chunk that starts at destination element d0 through the conversion word. -/
def convChunk (e : Enc) (conv : List Word) (d0 : Nat) (rs : List VRes) : VConv :=
  let w := cword conv
  let f := cwDst w
  let mode := cwRound w
  if isBlock f then
    let n := blockElems f
    let nb := (rs.length + n - 1) / n
    let bs := (List.range nb).map (fun k =>
      let blk := (rs.drop (n * k)).take n
      let xs := blk.map (fun r => if r.live then convSource e r.src else .fin false 0 0) ++
        List.replicate (n - blk.length) (FVal.fin false 0 0)
      convBlock f mode ((List.range n).map (fun j => randomWord conv (d0 + n * k + j))) xs)
    { elems := (bs.flatMap (·.elems)).take rs.length
      written := (bs.flatMap (fun b => decodeBlock f b.record)).take rs.length
      nans := (bs.flatMap (fun b => b.elems.map (fun _ => b.nanBlock))).take rs.length
      records := bs.map (·.record) }
  else
    let cs := (rs.zip (List.range rs.length)).map (fun p =>
      convScalar f mode (cwSat w) (randomWord conv (d0 + p.2)) (convSource e p.1.src))
    { elems := cs, written := cs.map (fun c => decodeElem f c.bits), nans := cs.map (fun _ => false), records := [] }

/-- The chunk without a conversion word: FP32 or a 16-bit format with round-to-nearest-even, or the bits as they are. -/
def plainChunk (e : Enc) (conv : List Word) (rs : List VRes) : VConv :=
  let f := (dstFmt e conv).getD 0
  let cs := rs.map (fun r =>
    match vkind e.opc with
    | .int => ⟨r.bits, false, false⟩
    | .w64 => ⟨r.bits, false, false⟩
    | .compare => ⟨r.bits, false, false⟩
    | .select => ⟨r.bits, false, false⟩
    | .elementary => ⟨r.bits, r.ovf, false⟩
    | _ => convScalar f 0 false 0 r.src)
  { elems := cs, written := cs.map (fun c => decodeElem f c.bits), nans := cs.map (fun _ => false), records := [] }

/-! ### Writing the destination (R121, R141, R160) -/

/-- Width in bits of a written scalar element. -/
def dstWidth (e : Enc) (conv : List Word) : Nat :=
  match dstFmt e conv with
  | some f => elemBits f
  | none => if dstW64 e conv then 64 else 32

/-- Elements of w bits that touch byte b. -/
def elemsOfByte (w b : Nat) : List Nat :=
  (List.range ((b * 8 + 7) / w + 1 - b * 8 / w)).map (fun k => b * 8 / w + k)

/-- The bytes of a scalar chunk with what a masked element writes: nothing (`none`) or encoding 0. -/
def streamBytes (w : Nat) (skip : Bool) (els : List (Nat × Bool × Bool)) : List (Option PByte) :=
  let packed := packNat w (els.map (fun p => if p.2.1 then p.1 else 0))
  let nb := (els.length * w + 7) / 8
  (List.range nb).map (fun b =>
    let mine := (elemsOfByte w b).filterMap (fun k => els[k]?)
    if skip && decide (8 ≤ w) && !(mine.any (fun p => p.2.1)) then none
    else some ⟨BitVec.ofNat 8 (packed / 2 ^ (8 * b)), mine.any (fun p => p.2.1 && p.2.2)⟩)

/-- The shape in which a chunk's results are written. -/
def dstShape (e : Enc) (conv : List Word) : EShape :=
  let d := cwDst (cword conv)
  if converts e && isBlock d then .block d else if dstW64 e conv then .w64 else .packed (dstWidth e conv) none

/-- Block records as bytes; a poisoned element marks the bytes that hold it (R114, R124, R234; notes/assumptions/24.md). -/
def recordBytes (f : Nat) (recs : List (List Byte)) (rs : List VRes) : List PByte :=
  let bad := ((rs.zip (List.range rs.length)).filter (fun p => p.1.live && p.1.poison)).map (fun p => (EShape.block f).body p.2)
  ((recs.flatten).zip (List.range recs.flatten.length)).map (fun p =>
    ⟨p.1, bad.any (fun b => decide (b.1 / 8 ≤ p.2) && decide (p.2 ≤ (b.1 + b.2 - 1) / 8))⟩)

/-- Merge a scalar chunk into the bytes of a tile register: a masked element and the bits beyond the chunk stay. -/
def vtMerge (w : Nat) (els : List (Nat × Bool × Bool)) (old : List Byte) : List Byte :=
  let oldN := leNat old
  let n := els.length * w
  leBytes old.length (packNat w ((els.zip (unpack w els.length oldN)).map (fun p => if p.1.2.1 then p.1.1 else p.2)) +
    oldN / 2 ^ n * 2 ^ n)

/-- Write bytes into a tile register, with the valid bits of its chunks (R114). -/
def Tiller.vtWrite (x : Tiller) (k off : Nat) (bytes : List Byte) : Tiller :=
  { x with
    vt := ((bytes.zip (List.range bytes.length)).foldl (fun v p => Tbl.set 0 v (k * 16384 + off + p.2) p.1) x.vt)
    vtValid := ((List.range ((bytes.length + 255) / 256)).foldl (fun v j =>
      Tbl.set false v (k * 64 + off / 256 + j) true) x.vtValid) }

/-- Mark a span of bits of a tile register, from a byte offset on, poisoned or not (R124). -/
def Tiller.vtMark (x : Tiller) (k off : Nat) (p : Nat × Nat) (bad : Bool) : Tiller :=
  { x with vtPoison := (List.range (p.2 / 2)).foldl (fun v j =>
      Tbl.set false v (k * 65536 + off * 4 + p.1 / 2 + j) bad) x.vtPoison }

/-- The poison marks of a chunk in a tile register: every written element has its own; a block record is written whole. -/
def Tiller.vtPoisonMarks (x : Tiller) (k off n : Nat) (sh : EShape) (rs : List VRes) : Tiller :=
  let x1 := match sh with
    | .block _ => x.vtMark k off (0, 8 * n) false
    | _ => x
  (rs.zip (List.range rs.length)).foldl (fun x p => if p.1.live then x.vtMark k off (sh.body p.2) p.1.poison else x) x1

/-- Write the W64 marks of a tile register. -/
def Tiller.vtMarks (x : Tiller) (k d0 : Nat) (rs : List VRes) : Tiller :=
  { x with vtSat := (rs.zip (List.range rs.length)).foldl (fun v p =>
      if p.1.live then Tbl.set false v (k * 2048 + d0 + p.2) p.1.sat else v) x.vtSat }

/-- Write bits d0.. of a mask register; VM0 ignores writes (R121). -/
def Tiller.vmWrite (x : Tiller) (k d0 : Nat) (bits : List Bool) : Tiller :=
  if k = 0 then x
  else
    { x with vm := Tbl.set 0 x.vm k ((bits.zip (List.range bits.length)).foldl (fun v p =>
        let m : BitVec 4096 := 1#4096 <<< (d0 + p.2)
        if p.1 then v ||| m else v &&& ~~~m) (Tbl.get 0 x.vm k)) }

/-- The bytes of a scalar chunk on their way to a window: where the last byte also holds bits of elements beyond E, those stay as the
store has them (R110). -/
def State.keepBits (s : State) (t bits : Nat) (offs : List Nat) (bytes : List (Option PByte)) : List (Option PByte) :=
  if bits % 8 = 0 then bytes
  else
    match offs.getLast?, bytes.getLast? with
    | some o, some (some b) =>
      let m := 2 ^ (bits % 8)
      bytes.dropLast ++ [some ⟨BitVec.ofNat 8 (b.val.toNat % m + (s.peek (storeAddr t o)).toNat / m * m), b.poison⟩]
    | _, _ => bytes

/-- What writing a chunk gives. -/
inductive VWrite where
  | ok (s : State)
  | run (q : Nat) (a : Int)

/-- Write a chunk's results to the destination, from destination element d0 on. -/
def State.writeDest (s : State) (t : Nat) (i : Inst) (e : Enc) (d0 : Nat) (rs : List VRes) (c : VConv) : VWrite :=
  let x := s.til t
  let k := opIdx e.dst
  let w := dstWidth e i.conv
  let blk := converts e && isBlock (cwDst (cword i.conv))
  let els := (c.elems.zip rs).map (fun p => (p.1.bits, p.2.live, p.2.poison))
  if opKind e.dst = 4 then
    .ok (s.setTil t (x.vmWrite k d0 (els.map (fun p => p.2.1 && p.1 == 1))))
  else if opKind e.dst = 3 then
    let off := dstBytes e i.conv d0
    let bytes := if blk then c.records.flatten else vtMerge w els (x.vtBytes k off ((els.length * w + 7) / 8))
    let x1 := (x.vtWrite k off bytes).vtPoisonMarks k off bytes.length (dstShape e i.conv) rs
    .ok (s.setTil t (if dstW64 e i.conv then x1.vtMarks k d0 rs else x1))
  else
    let win := s.qkind t k == .writeWin
    let bytes := if blk then (recordBytes (cwDst (cword i.conv)) c.records rs).map some else streamBytes w win els
    if win then
      match agTake (s.binding t k) (bytes.length + 1) (s.ag t k) bytes.length with
      | .error a => .run k a
      | .ok (offs, g) =>
        let bits := if blk then 0 else els.length * w
        .ok ((s.setAg t k g).storeWrite t (offs.zip (s.keepBits t bits offs bytes)))
    else
      let eop := if veEop e && decide (i.steps ≤ i.done + 1) then [EItem.eop] else []
      let items := bytes.map (fun b => EItem.byte (b.getD ⟨0, false⟩)) ++ eop
      .ok (s.setTil t (x.push k items))

/-! ### Counters and statistics (R70, R71, R127, R130, R544) -/

/-- Live elements that are not poisoned, with what each counts. -/
def chunkCounts (f : Nat) (rs : List VRes) (srcs : List FVal) (c : VConv) : Counts :=
  ((rs.zip srcs).zip (c.elems.zip c.nans)).foldl (fun a p =>
    if p.1.1.live && !p.1.1.poison then
      Counts.add a (convCounts f p.1.2 p.1.1.sat p.2.2 p.2.1)
    else a) Counts.zero

/-- Conversions count per context and per Tiller, whatever STATS says (R70, R544). -/
def State.countAnomalies (s : State) (t : Nat) (c : Counts) : State :=
  (c.zip (List.range 7)).foldl (fun s p =>
    if p.1 = 0 then s
    else (s.satAdd .OBS_CTX_ANOM_COUNT (s.tctx t * 7 + p.2) p.1).count (tcKey t (20 + p.2)) p.1) s

def StatBank.empty : StatBank :=
  { busy := false, inst := 0, sums := [], maxs := [], cnts := Counts.zero, elements := 0, ready := false }

/-- The instruction taps its FP32 results (R130); TAP has no meaning for another destination. -/
def taps (e : Enc) (conv : List Word) : Bool := veTap e && dstFmt e conv == some 0

/-- The reduction unit watches the instruction (R127). -/
def watched (e : Enc) (conv : List Word) : Bool := (converts e && cwStats (cword conv)) || taps e conv

/-- A bank takes the values of a chunk: element d adds into accumulator d mod 512 (R127, R72, R125). -/
def StatBank.take (b : StatBank) (d0 : Nat) (rs : List VRes) (c : VConv) (cnt : Counts) : StatBank :=
  let vs := (rs.zip c.written).zip (List.range rs.length)
  vs.foldl (fun b p =>
    let r := p.1.1
    let v := p.1.2
    if r.live then
      let b1 := { b with elements := b.elements + 1 }
      if r.poison || !v.finite then b1
      else
        let a := (d0 + p.2) % 512
        { b1 with
          sums := Tbl.put b1.sums a (addFp64 (Tbl.get 0 b1.sums a) (BitVec.ofNat 64 (toFp64 (square v))))
          maxs := Tbl.put b1.maxs a (BitVec.ofNat 64 (maxMag (Tbl.get 0 b1.maxs a).toNat (toFp32 v.abs))) }
    else b) { b with cnts := Counts.add b.cnts cnt }

/-! ### Capture (R533, R534) -/

/-- Bytes that a capture may write now (R536). -/
def State.captureRoom (s : State) (slots n : Nat) : Bool :=
  let s1 := s.obsWindow
  slots == 0 || decide (s1.obs.hbmUsed + slots * n ≤ s1.obsLimit)

/-- Write w bits at a bit offset from a device address. -/
def State.captureBits (s : State) (base bit w v : Nat) (poison : Bool) : State :=
  let a := base + bit / 8
  let nb := (bit % 8 + w + 7) / 8
  let old := s.peekNat a nb
  let sh := 2 ^ (bit % 8)
  let new := old - old / sh % 2 ^ w * sh + v % 2 ^ w * sh
  s.memWrite obsAcc a ((leBytes nb new).map (fun b => ⟨b, poison⟩))

/-- One slot receives a row of at most 64 elements that starts at destination element d. -/
def State.captureRow (s : State) (k f d : Nat) (conv : List Word) (els : List (Nat × Bool × Bool))
    (recs : List (List PByte)) : State :=
  let i0 := tensorIndex conv d
  let base := s.fld .OBS_CAPT_BASE_BASE k
  let len := s.fld .OBS_CAPT_LEN_LEN k
  let bad := if isBlock f then i0 % blockElems f != 0 else decide (elemBits f < 8) && i0 % 8 != 0
  if bad then s.setFlag .OBS_CAPT_STATUS_ALIGN k true
  else if isBlock f then
    (recs.zip (List.range recs.length)).foldl (fun s p =>
      let i := i0 + blockElems f * p.2
      if len ≤ i then s.setFlag .OBS_CAPT_STATUS_OVER k true
      else (s.memWrite obsAcc (base + i / blockElems f * blockBytes f) p.1).satAdd .OBS_CAPT_COUNT_ELEMENTS k
        (min (blockElems f) (els.length - blockElems f * p.2))) s
  else
    (els.zip (List.range els.length)).foldl (fun s p =>
      let i := i0 + p.2
      if !p.1.2.1 then s
      else if len ≤ i then s.setFlag .OBS_CAPT_STATUS_OVER k true
      else (s.captureBits base (i * elemBits f) (elemBits f) p.1.1 p.1.2.2).satAdd .OBS_CAPT_COUNT_ELEMENTS k 1) s

/-- One slot receives a chunk. -/
def State.captureChunk (s : State) (k f d0 : Nat) (conv : List Word) (rs : List VRes) (c : VConv) : State :=
  if s.fld .OBS_CAPT_STATUS_FMT k ≠ f then s.setFlag .OBS_CAPT_STATUS_FMT_MISMATCH k true
  else
    let els := (c.elems.zip rs).map (fun p => (p.1.bits, p.2.live, p.2.poison))
    let n := blockElems f
    let recs := (c.records.zip (List.range c.records.length)).map (fun p => recordBytes f [p.1] ((rs.drop (n * p.2)).take n))
    let b := if isBlock f then (recs.map List.length).sum else els.length * elemBits f / 8
    let s1 := (s.obsWindow.obsTake false b).count 24 b
    (List.range ((rs.length + 63) / 64)).foldl (fun s r =>
      s.captureRow k f (d0 + 64 * r) conv ((els.drop (64 * r)).take 64) ((recs.drop (64 / n * r)).take (64 / n))) s1

/-! ### The chunk (R116, R141) -/

/-- Masked and padding lanes of the chunk. -/
def Tiller.lives (x : Tiller) (e : Enc) (e0 n : Nat) : List Bool := (List.range n).map (fun k => x.live e (e0 + k))

/-- A reading past the rows of the tile at the head (R112): by the bytes that the instruction reads, also where its elements have
another width than the tile's (DESIGN CHOICE: notes/assumptions/157.md). -/
def State.tileShort (s : State) (t : Nat) (e : Enc) (conv : List Word) : Bool :=
  (dataOperands e).any (fun x => (opKind x == 1 || opKind x == 2) && opIdx x == 8) &&
    (match (s.til t).headTile with
      | some k => decide (64 * k.rows * (if k.w64 then 8 else 4) < (srcShape e conv 0).bytes (veE e))
      | none => false)

/-- Read the data operands in their order, from operand k on. -/
def State.readAll (s : State) (t : Nat) (i : Inst) (e : Enc) (e0 n k : Nat) :
    List Nat → Except (Nat × Int) (State × List (List VIn))
  | [] => .ok (s, [])
  | o :: rest =>
    match s.readSource t i e (srcShape e i.conv k) o e0 n with
    | .run q a => .error (q, a)
    | .ok s1 els =>
      match s1.readAll t i e e0 n (k + 1) rest with
      | .error x => .error x
      | .ok (s2, l) => .ok (s2, els :: l)

/-- Mask logic on bits 0 to E - 1 (R117, R121). -/
def State.maskChunk (s : State) (t : Nat) (i : Inst) (e : Enc) : State :=
  let x := s.til t
  let bit := fun (o k : Nat) => x.maskBit (opIdx o) k
  let f := fun (k : Nat) =>
    match e.opc with
    | 0x78 => bit e.a k && bit e.b k
    | 0x79 => bit e.a k || bit e.b k
    | 0x7A => bit e.a k != bit e.b k
    | _ => !(bit e.a k)
  let s1 := s.setTil t (x.vmWrite (opIdx e.dst) 0 ((List.range (veE e)).map (fun k => x.live e k && f k)))
  s1.retire t i.id

/-- A link descriptor of an instruction that R394 refuses: the queue. -/
def State.vecDescBad (s : State) (t : Nat) (e : Enc) : Option Nat :=
  if opKind e.dst == 1 && decide (24 ≤ opIdx e.dst) && descBad true (s.desc t (opIdx e.dst)) then some (opIdx e.dst)
  else
    ((dataOperands e).filter (fun x => (opKind x == 1 || opKind x == 2) && decide (28 ≤ opIdx x))).map opIdx |>.find?
      (fun q => descBad false (s.desc t q))

/-- Everything the chunk needs is there (R113, R116, R129, R141, R534). -/
def State.chunkReady (s : State) (t : Nat) (i : Inst) (e : Enc) (e0 n : Nat) : Bool :=
  let x := s.til t
  let sh := srcShape e i.conv 0
  let out := dstBytes e i.conv (if vkind e.opc = .row then (n + 63) / 64 else n)
  (dataOperands e).all (fun o => x.sourceReady sh o e0 n) && x.ingressReady sh (dataOperands e) e0 n &&
    (!(opKind e.dst == 1 && decide (24 ≤ opIdx e.dst)) || x.egressRoom (opIdx e.dst) out) &&
    (!(watched e i.conv) || i.watch.isSome || !(Tbl.get StatBank.empty x.banks x.bankNext).busy) &&
    s.captureRoom i.capt.length out

/-- The watched instruction takes the next bank at its first chunk (R127, R129). -/
def State.takeBank (s : State) (t : Nat) (i : Inst) (e : Enc) : State × Inst :=
  if watched e i.conv && i.watch.isNone then
    let x := s.til t
    (s.setTil t { x with banks := Tbl.put x.banks x.bankNext { StatBank.empty with busy := true, inst := i.id },
                         bankNext := 1 - x.bankNext }, { i with watch := some x.bankNext })
  else (s, i)

/-- Poisoned unmasked inputs of a chunk (R125). -/
def poisonedInputs (ins : List (List VIn)) (lives : List Bool) : Nat :=
  ins.foldl (fun a l => a + ((l.zip lives).filter (fun p => p.2 && p.1.poison)).length) 0

/-- The tile at the head, popped by an instruction, is released after its last row has been read (R111, R143): an instruction that
stops before that row leaves it. -/
def State.releaseTile (s : State) (t : Nat) (i : Inst) (e : Enc) : State :=
  let x := s.til t
  if (dataOperands e).any (fun o => opKind o == 1 && opIdx o == 8) &&
      x.headTile.any (fun k => decide (64 * (k.rows - 1) * (if k.w64 then 8 else 4) < (srcShape e i.conv 0).bytes (veE e)))
  then s.setTil t x.popTile else s

/-- An instruction that has consumed n poisoned inputs: they add to POISON_IN, and the first such instruction, while POISON_SEEN is
clear, raises class 0x35 (R125, R134). -/
def State.poisonSeen (s : State) (t pc n : Nat) : State :=
  if n = 0 then s
  else
    let s1 := (s.setFlag .TIL_VE_STATUS_POISON_SEEN t true).satAdd .TIL_VE_STATUS_POISON_IN t n
    if s.flag .TIL_VE_STATUS_POISON_SEEN t then s1 else s1.raiseCtx 0x35 (s.tctx t) (tilUnit t) (tilDetail pc 4 0 n 0)

/-- Class 0x37, once for an instruction: the first failing lane and its index (R123, R176). -/
def State.gatherBad (s : State) (t : Nat) (i : Inst) (b : Option (Nat × Nat)) : State × Inst :=
  match b with
  | none => (s, i)
  | some (lane, ix) =>
    if i.gfault then (s, i)
    else ((s.setFlag .TIL_VE_STATUS_GATHER_BOUND t true).raiseCtx 0x37 (s.tctx t) (tilUnit t)
      (tilDetail i.pc 4 0 lane ix), { i with gfault := true })

/-- After the chunk: the instruction goes on, awaits its record, or completes (R139). -/
def State.endChunk (s : State) (t : Nat) (i : Inst) (e : Enc) : State :=
  if i.done + 1 < i.steps then (s.setInst t { i with done := i.done + 1 }).stepped t
  else
    let s1 := ((s.setInst t { i with done := i.done + 1 }).releaseTile t i e).poisonSeen t i.pc i.poisoned
    let s2 := s1.stepped t
    match i.watch with
    | some b =>
      let x := s2.til t
      s2.setTil t { x with banks := Tbl.put x.banks b { Tbl.get StatBank.empty x.banks b with ready := true } }
    | none => s2.retire t i.id

/-- Convert, write, count and capture the results of a chunk. -/
def State.finishChunk (s : State) (t : Nat) (i : Inst) (e : Enc) (d0 : Nat) (rs : List VRes) : State :=
  let f := (dstFmt e i.conv).getD 0
  let c := if converts e then convChunk e i.conv d0 rs else plainChunk e i.conv rs
  match s.writeDest t i e d0 rs c with
  | .run q a => s.runFault t i.pc q a
  | .ok s1 =>
    let cnt := chunkCounts f rs (rs.map (fun r => if converts e then convSource e r.src else r.src)) c
    let s2 := if converts e then s1.countAnomalies t cnt else s1
    let s3 := match i.watch with
      | some b =>
        let x := s2.til t
        s2.setTil t { x with banks := Tbl.put x.banks b ((Tbl.get StatBank.empty x.banks b).take d0 rs c cnt) }
      | none => s2
    let s4 := i.capt.foldl (fun s k => s.captureChunk k f d0 i.conv rs c) s3
    s4.endChunk t i e

/-- The next chunk of the instruction at the head of the vector engine. -/
def State.doChunk (s : State) (t : Nat) : State :=
  match s.unitStep t vectorUnit with
  | none => s
  | some i =>
    let e := encOf i.word
    if vkind e.opc = .mask then (s.stepped t).maskChunk t i e
    else
      let sz := chunkSize e i.conv
      let e0 := i.done * sz
      let n := min sz (veE e - e0)
      match s.vecDescBad t e with
      | some q => s.descFault t i.pc q
      | none =>
        if s.tileShort t e i.conv then s.badInst t i.pc ⟨0x36, 0, 4⟩
        else if !(s.chunkReady t i e e0 n) then s
        else
          let lives := (s.til t).lives e e0 n
          match s.readAll t i e e0 n 0 (dataOperands e) with
          | .error (q, a) => s.runFault t i.pc q a
          | .ok (s1, ins) =>
            let g := if vkind e.opc = .gather then s1.gather t i.conv (veGfmt e) e0 ((ins.getD 0 []).zip lives)
              else (s1, [], none)
            let bad := poisonedInputs ins lives
            if bad ≠ 0 && s.flag .TIL_VE_CTRL_POISON_FAULT t then
              ((s.setFlag .TIL_VE_STATUS_POISON_SEEN t true).satAdd .TIL_VE_STATUS_POISON_IN t (i.poisoned + bad)).progFault
                t 0x35 i.pc (tilDetail i.pc 4 0 (i.poisoned + bad) 0)
            else
              let q := g.1.gatherBad t i g.2.2
              let k := q.1.takeBank t { q.2 with poisoned := i.poisoned + bad } e
              let sels := (List.range n).map (fun j => (s.til t).maskBit (opIdx e.c) (e0 + j))
              let zneg := converts e && cwRound (cword i.conv) == 2
              let els := if vkind e.opc = .gather then [g.2.1] else ins
              let s2 := k.1.count (tcKey t 17) n
              if vkind e.opc = .row then
                s2.finishChunk t k.2 e (e0 / 64) (rowResults e.opc ((ins.getD 0 []).zip lives))
              else s2.finishChunk t k.2 e e0 (laneResults e i.conv zneg els lives sels)

def execVectorChunkIssue (sh : Fin 12) (n : Fin 64) (s : State) : Host.Outcome State Fault Refusal :=
  .next (s.doChunk (tix sh n))

/-! ### The statistic record (R71, R128, R130) -/

/-- The 64 bytes of a tensor statistic or tap record. -/
def statRecord (conv : List Word) (tap : Bool) (layer operator : Nat) (b : StatBank) : List Byte :=
  let w := cword conv
  let gns := if tap then 0 else if cwGnsAcc w then 2 else if cwGnsMb w then 1 else 0
  let how := if tap then 0
    else gns * 2 ^ 10 + one (cwSat w) * 2 ^ 9 + cwRound w * 2 ^ 6 + cwDst w
  let sum := fp64Tree 9 ((List.range 512).map (fun k => Tbl.get 0 b.sums k))
  let mx := (b.maxs.map (fun p => p.2.toNat)).foldl maxMag 0
  leBytes 4 (cbTensor conv) ++ leBytes 2 layer ++ leBytes 2 operator ++ leBytes 4 (cbStep conv) ++ leBytes 4 how ++
    leBytes 8 b.elements ++ leBytes 8 sum.toNat ++ leBytes 4 mx ++
    (b.cnts.flatMap (fun c => leBytes 4 (min c (2 ^ 32 - 1))))

/-- The bank that waits longest for its record. -/
def Tiller.readyBank (x : Tiller) : Option (Nat × StatBank) :=
  match (x.banks.filter (fun p => p.2.ready)) with
  | [] => none
  | p :: rest => some (rest.foldl (fun a q => if q.2.inst < a.2.inst then q else a) p)

/-- The statistics tree folds a bank and the record is written at the store offset in P(PX+3) (R128, R154); the
instruction completes (R139). -/
def State.doStatRecord (s : State) (t : Nat) : State :=
  if s.unitsRun t then
    let x := s.til t
    match x.readyBank with
    | none => s
    | some (k, b) =>
      match x.insts.find? (fun i => i.id == b.inst) with
      | none => s.setTil t { x with banks := Tbl.put x.banks k StatBank.empty }
      | some i =>
        let e := encOf i.word
        let lo := match x.job with
          | some j => (j.layer.toNat, j.operator.toNat)
          | none => (0, 0)
        let recBytes := statRecord i.conv (taps e i.conv) lo.1 lo.2 b
        let offs := (List.range 64).map (fun j => cbRecord i.conv + j)
        let s1 := s.setTil t { x with banks := Tbl.put x.banks k StatBank.empty }
        ((s1.storeWrite t (offs.zip ((clean recBytes).map some))).stepped t).retire t i.id
  else s

def execStatisticRecordWrite (sh : Fin 12) (n : Fin 64) (s : State) : Host.Outcome State Fault Refusal :=
  .next (s.doStatRecord (tix sh n))

/-- STALL_CLR clears TIL_VE_TQ_WAIT and TIL_VE_STAT_STALL (R133). -/
def execVeStallClr (sh : Fin 12) (n : Fin 64) (s : State) : Host.Outcome State Fault Refusal :=
  .next (s.access .pf .TIL_VE_CTRL (fun s =>
    (s.setFld .TIL_VE_TQ_WAIT_CYCLES (tix sh n) 0).setFld .TIL_VE_STAT_STALL_CYCLES (tix sh n) 0))

/-! ### The instructions (R149, R153): each is dispatched to the vector engine, whose chunks perform it -/

/-- FADD: add, rounded once (R118). -/
def execFadd (sh : Fin 12) (n : Fin 64) (s : State) : Host.Outcome State Fault Refusal :=
  .next (s.doVector (tix sh n) 0x40)

/-- FSUB: subtract, rounded once (R118). -/
def execFsub (sh : Fin 12) (n : Fin 64) (s : State) : Host.Outcome State Fault Refusal :=
  .next (s.doVector (tix sh n) 0x41)

/-- FMUL: multiply, rounded once (R118). -/
def execFmul (sh : Fin 12) (n : Fin 64) (s : State) : Host.Outcome State Fault Refusal :=
  .next (s.doVector (tix sh n) 0x42)

/-- FMA: fused multiply-add, rounded once (R118). -/
def execFma (sh : Fin 12) (n : Fin 64) (s : State) : Host.Outcome State Fault Refusal :=
  .next (s.doVector (tix sh n) 0x43)

/-- FMIN: minimum, -0 below +0 (R117). -/
def execFmin (sh : Fin 12) (n : Fin 64) (s : State) : Host.Outcome State Fault Refusal :=
  .next (s.doVector (tix sh n) 0x44)

/-- FMAX: maximum, -0 below +0 (R117). -/
def execFmax (sh : Fin 12) (n : Fin 64) (s : State) : Host.Outcome State Fault Refusal :=
  .next (s.doVector (tix sh n) 0x45)

/-- FABS: absolute value (R117). -/
def execFabs (sh : Fin 12) (n : Fin 64) (s : State) : Host.Outcome State Fault Refusal :=
  .next (s.doVector (tix sh n) 0x46)

/-- FNEG: negate (R117). -/
def execFneg (sh : Fin 12) (n : Fin 64) (s : State) : Host.Outcome State Fault Refusal :=
  .next (s.doVector (tix sh n) 0x47)

/-- FSGN: the magnitude of SRCA with the sign of SRCB (R117). -/
def execFsgn (sh : Fin 12) (n : Fin 64) (s : State) : Host.Outcome State Fault Refusal :=
  .next (s.doVector (tix sh n) 0x48)

/-- FCMP: compare to a mask (R117). -/
def execFcmp (sh : Fin 12) (n : Fin 64) (s : State) : Host.Outcome State Fault Refusal :=
  .next (s.doVector (tix sh n) 0x49)

/-- SEL: select by mask (R117). -/
def execSel (sh : Fin 12) (n : Fin 64) (s : State) : Host.Outcome State Fault Refusal :=
  .next (s.doVector (tix sh n) 0x4A)

/-- CVT: convert by the conversion word (R117, R69). -/
def execCvt (sh : Fin 12) (n : Fin 64) (s : State) : Host.Outcome State Fault Refusal :=
  .next (s.doVector (tix sh n) 0x4B)

/-- RCP: reciprocal (R119). -/
def execRcp (sh : Fin 12) (n : Fin 64) (s : State) : Host.Outcome State Fault Refusal :=
  .next (s.doVector (tix sh n) 0x50)

/-- SQRT: square root (R119). -/
def execSqrt (sh : Fin 12) (n : Fin 64) (s : State) : Host.Outcome State Fault Refusal :=
  .next (s.doVector (tix sh n) 0x51)

/-- RSQRT: reciprocal square root (R119). -/
def execRsqrt (sh : Fin 12) (n : Fin 64) (s : State) : Host.Outcome State Fault Refusal :=
  .next (s.doVector (tix sh n) 0x52)

/-- EXP: exponential (R119). -/
def execExp (sh : Fin 12) (n : Fin 64) (s : State) : Host.Outcome State Fault Refusal :=
  .next (s.doVector (tix sh n) 0x53)

/-- EXP2: base-2 exponential (R119). -/
def execExp2 (sh : Fin 12) (n : Fin 64) (s : State) : Host.Outcome State Fault Refusal :=
  .next (s.doVector (tix sh n) 0x54)

/-- LOG: natural logarithm (R119). -/
def execLog (sh : Fin 12) (n : Fin 64) (s : State) : Host.Outcome State Fault Refusal :=
  .next (s.doVector (tix sh n) 0x55)

/-- LOG2: base-2 logarithm (R119). -/
def execLog2 (sh : Fin 12) (n : Fin 64) (s : State) : Host.Outcome State Fault Refusal :=
  .next (s.doVector (tix sh n) 0x56)

/-- TANH: hyperbolic tangent (R119). -/
def execTanh (sh : Fin 12) (n : Fin 64) (s : State) : Host.Outcome State Fault Refusal :=
  .next (s.doVector (tix sh n) 0x57)

/-- SIGM: logistic function (R119). -/
def execSigm (sh : Fin 12) (n : Fin 64) (s : State) : Host.Outcome State Fault Refusal :=
  .next (s.doVector (tix sh n) 0x58)

/-- IADD: wrapping add (R117). -/
def execIadd (sh : Fin 12) (n : Fin 64) (s : State) : Host.Outcome State Fault Refusal :=
  .next (s.doVector (tix sh n) 0x60)

/-- ISUB: wrapping subtract (R117). -/
def execIsub (sh : Fin 12) (n : Fin 64) (s : State) : Host.Outcome State Fault Refusal :=
  .next (s.doVector (tix sh n) 0x61)

/-- IMIN: signed minimum (R117). -/
def execImin (sh : Fin 12) (n : Fin 64) (s : State) : Host.Outcome State Fault Refusal :=
  .next (s.doVector (tix sh n) 0x62)

/-- IMAX: signed maximum (R117). -/
def execImax (sh : Fin 12) (n : Fin 64) (s : State) : Host.Outcome State Fault Refusal :=
  .next (s.doVector (tix sh n) 0x63)

/-- AND: bitwise and (R117). -/
def execAnd (sh : Fin 12) (n : Fin 64) (s : State) : Host.Outcome State Fault Refusal :=
  .next (s.doVector (tix sh n) 0x64)

/-- OR: bitwise or (R117). -/
def execOr (sh : Fin 12) (n : Fin 64) (s : State) : Host.Outcome State Fault Refusal :=
  .next (s.doVector (tix sh n) 0x65)

/-- XOR: bitwise exclusive or (R117). -/
def execXor (sh : Fin 12) (n : Fin 64) (s : State) : Host.Outcome State Fault Refusal :=
  .next (s.doVector (tix sh n) 0x66)

/-- SHL: shift left (R117). -/
def execShl (sh : Fin 12) (n : Fin 64) (s : State) : Host.Outcome State Fault Refusal :=
  .next (s.doVector (tix sh n) 0x67)

/-- SHR: shift right (R117). -/
def execShr (sh : Fin 12) (n : Fin 64) (s : State) : Host.Outcome State Fault Refusal :=
  .next (s.doVector (tix sh n) 0x68)

/-- WADD: saturating W64 add (R59, R117). -/
def execWadd (sh : Fin 12) (n : Fin 64) (s : State) : Host.Outcome State Fault Refusal :=
  .next (s.doVector (tix sh n) 0x6A)

/-- WCVT: W64 to a storage format (R117). -/
def execWcvt (sh : Fin 12) (n : Fin 64) (s : State) : Host.Outcome State Fault Refusal :=
  .next (s.doVector (tix sh n) 0x6B)

/-- RSUM: row sum (R131). -/
def execRsum (sh : Fin 12) (n : Fin 64) (s : State) : Host.Outcome State Fault Refusal :=
  .next (s.doVector (tix sh n) 0x70)

/-- RSUMSQ: row sum of squares (R131). -/
def execRsumsq (sh : Fin 12) (n : Fin 64) (s : State) : Host.Outcome State Fault Refusal :=
  .next (s.doVector (tix sh n) 0x71)

/-- RMAX: row maximum (R131). -/
def execRmax (sh : Fin 12) (n : Fin 64) (s : State) : Host.Outcome State Fault Refusal :=
  .next (s.doVector (tix sh n) 0x72)

/-- RMAXABS: row maximum magnitude (R131). -/
def execRmaxabs (sh : Fin 12) (n : Fin 64) (s : State) : Host.Outcome State Fault Refusal :=
  .next (s.doVector (tix sh n) 0x73)

/-- MAND: mask and (R117). -/
def execMand (sh : Fin 12) (n : Fin 64) (s : State) : Host.Outcome State Fault Refusal :=
  .next (s.doVector (tix sh n) 0x78)

/-- MOR: mask or (R117). -/
def execMor (sh : Fin 12) (n : Fin 64) (s : State) : Host.Outcome State Fault Refusal :=
  .next (s.doVector (tix sh n) 0x79)

/-- MXOR: mask exclusive or (R117). -/
def execMxor (sh : Fin 12) (n : Fin 64) (s : State) : Host.Outcome State Fault Refusal :=
  .next (s.doVector (tix sh n) 0x7A)

/-- MNOT: mask not (R117). -/
def execMnot (sh : Fin 12) (n : Fin 64) (s : State) : Host.Outcome State Fault Refusal :=
  .next (s.doVector (tix sh n) 0x7B)

/-- VGATH: gather from the store (R123, R156). -/
def execVgath (sh : Fin 12) (n : Fin 64) (s : State) : Host.Outcome State Fault Refusal :=
  .next (s.doVector (tix sh n) 0x7C)

end Sys2Proof.Machine
end

