-- ==== Sys2Proof/Machine/TillerCtl.lean ====
section
/-! DEFINITION. Control of a Tiller from outside: P registers, halt, step and resume, break registers (R172,
R178-R185), and the watchdog (R174). -/

namespace Sys2Proof.Machine

/-! ### Watchdog (R174) -/

/-- The oldest instruction of a unit waits for the bytes of an ingress queue. -/
def Tiller.waitsIngress (x : Tiller) : Bool :=
  x.insts.any (fun i =>
    decide (i.done < i.steps) && (x.unitHead i.unit).any (fun h => h.id == i.id) &&
      (let e := encOf i.word
       if i.unit = storeMover then
         decide (28 ≤ opIdx e.a) &&
           decide ((Tbl.get [] x.ingress (opIdx e.a)).length < peekSkip e i (ldBytes e) + ldBytes e)
       else if i.unit = vectorUnit then
         let e0 := i.done * chunkSize e i.conv
         !(x.ingressReady (srcShape e i.conv 0) (dataOperands e) e0 (min (chunkSize e i.conv) (veE e - e0)))
       else false))

/-- Cycles that the watchdog does not count: a WAIT holds dispatch, a step waits for ingress bytes, or END waits for an
egress queue (R174). -/
def State.wdogHeld (s : State) (t : Nat) : Bool :=
  (s.til t).wait.isSome || (s.til t).waitsIngress || s.endWaits t

/-- The count of R174 has reached LIMIT x 1,024 cycles; the count is kept in hundredths of a cycle. -/
def State.wdogOver (s : State) (t : Nat) : Bool :=
  s.flag .TIL_WDOG_LIMIT t && decide (s.fld .TIL_WDOG_LIMIT t * 102400 ≤ (s.til t).wdog)

/-- The watchdog of a Tiller that runs a program, stopped or not, expires: class 0x3D as a program fault. -/
def State.doWatchdog (s : State) (t : Nat) : State :=
  if s.unitsRun t && s.wdogOver t && !(s.wdogHeld t) then
    s.progFault t 0x3D (s.pc t) (tilDetail (s.pc t) 5 0 0 0)
  else s

def execWatchdogExpiry (sh : Fin 12) (n : Fin 64) (s : State) : Host.Outcome State Fault Refusal :=
  .next (s.doWatchdog (tix sh n))

/-! ### HALT, STEP, RESUME (R172) -/

/-- HALT stops a running Tiller at once, since a command finds it between dispatches, and one that waits on a Glume
after its WAIT. -/
def State.doHalt (s : State) (t : Nat) : State :=
  if s.tstate t = 4 then s.setTstate t 6
  else if s.tstate t = 5 then s.setTil t { s.til t with halting := true }
  else s

def execHalt (sh : Fin 12) (n : Fin 64) (s : State) : Host.Outcome State Fault Refusal :=
  .next (s.access .pf .TIL_PROG_CTRL (fun s => s.doHalt (tix sh n)))

/-- STEP lets a stopped Tiller dispatch one instruction and stop again. -/
def State.doStep (s : State) (t : Nat) : State :=
  if s.tstate t = 6 then s.setTil t { s.til t with stepping := true } else s

def execStep (sh : Fin 12) (n : Fin 64) (s : State) : Host.Outcome State Fault Refusal :=
  .next (s.access .pf .TIL_PROG_CTRL (fun s => s.doStep (tix sh n)))

/-- RESUME leaves the break. -/
def State.doResume (s : State) (t : Nat) : State :=
  if s.tstate t = 6 then (s.setTil t { s.til t with stepping := false, halting := false }).setTstate t 4 else s

def execResume (sh : Fin 12) (n : Fin 64) (s : State) : Host.Outcome State Fault Refusal :=
  .next (s.access .pf .TIL_PROG_CTRL (fun s => s.doResume (tix sh n)))

/-! ### TIL_PARAM (R178) and the break registers (R172, R183-R185) -/

/-- A write to a P register takes effect while no program runs or the Tiller is stopped. -/
def State.doParam (s : State) (t k v : Nat) : State :=
  if 2 ≤ s.tstate t ∧ s.tstate t ≤ 5 then s.setFlag .TIL_PROG_STATUS_PWRITE_REFUSED t true else s.setPreg t k v

def execParamWrite (sh : Fin 12) (n : Fin 64) (k : BitVec 8) (val : Word) (s : State) :
    Host.Outcome State Fault Refusal :=
  .next (s.access .pf .TIL_PARAM (fun s => s.doParam (tix sh n) k.toNat val.toNat))

/-- The break register of a number: TIL_BRK_CTRL, TIL_BRK_CMD, TIL_BRK_TAG. -/
def brkReg : Nat → Reg
  | 0 => .TIL_BRK_CTRL
  | 1 => .TIL_BRK_CMD
  | _ => .TIL_BRK_TAG

/-- A write to a break register takes effect only while debug is unlocked. -/
def State.doBreakWrite (s : State) (t : Nat) (r : Reg) (v : Nat) : State :=
  if s.flag .MGT_DEBUG_UNLOCKED 0 then s.writeReg r t fullMask v else s

def execBreakRegisterWrite (sh : Fin 12) (n : Fin 64) (org : Origin) (reg : Fin 3) (val : Word) (s : State) :
    Host.Outcome State Fault Refusal :=
  .next (s.regCmd org (brkReg reg.val) (tix sh n) val.toNat (fun s =>
    s.doBreakWrite (tix sh n) (brkReg reg.val) val.toNat))

end Sys2Proof.Machine
end

