-- ==== Sys2Proof/Machine/Registers.lean ====
section
/-! DEFINITION. A write of a register by its offset (R14-R22, R272, R551): where the offset lies, what each register does
with a write, the latching registers, and the audit entry. -/

namespace Sys2Proof.Machine

/-! ### Where an offset lies (R14, R103, R272, R309) -/

/-- The place of an 8-byte aligned offset: a register with the index of its instance, a word of a context's MSI-X table or
of its pending-bit array (R272), or a word of the audit SRAM (R554). -/
inductive Place where
  | reg (r : Reg) (i : Nat)
  | msix (c k : Nat)
  | pba (c k : Nat)
  | audit (k : Nat)
  deriving DecidableEq, Repr

/-- The instance of a register at an offset of its space. -/
def RegInfo.instAt (x : RegInfo) (o : Nat) : Option Nat :=
  if o < x.base then none
  else
    let d := o - x.base
    let i := if x.stride1 = 0 then 0 else d / x.stride1
    let e := d - i * x.stride1
    let j := if x.stride2 = 0 then 0 else e / x.stride2
    if e = j * x.stride2 ∧ i < x.count1 ∧ j < x.count2 then some (i * x.count2 + j) else none

/-- The register of a space at an offset; in a window the unit comes first in the index. -/
def findReg (sp : Space) (unit o : Nat) : Option Place :=
  regTable.findSome? (fun x =>
    if x.space = sp then (x.instAt o).map (fun i => .reg x.reg (unit * x.count1 * x.count2 + i)) else none)

/-- The j-th ring that a context owns. -/
def State.ringOf (s : State) (c j : Nat) : Option Nat :=
  (((s.listed .CTX_RING_CFG_CTX).filter (fun r => s.owner r == c))[j]?).orElse (fun _ =>
    if c = 0 then ((List.range 16384).filter (fun r => s.owner r == 0))[j]? else none)

/-- A ring register by its offset in the ring's slot. -/
def ringReg (o : Nat) : Option Reg :=
  if o = 0 then some .CTX_RING_BASE else if o = 8 then some .CTX_RING_CFG else if o = 16 then some .CTX_RING_HEAD
  else if o = 24 then some .CTX_RING_CANCEL else none

/-- The place of an offset of context c's window. -/
def State.winPlace (s : State) (c o : Nat) : Option Place :=
  if 0x1000 ≤ o ∧ o < 0x1800 then
    (s.ringOf c ((o - 0x1000) / 0x20)).bind (fun r => (ringReg (o % 0x20)).map (fun g => .reg g r))
  else if 0xF000 ≤ o ∧ o < 0xF800 then
    if vectorExists c ((o - 0xF000) / 16) then some (.msix c ((o - 0xF000) / 8)) else none
  else if 0xF800 ≤ o ∧ o < 0xF900 then some (.pba c ((o - 0xF800) / 8))
  else findReg .ctx c o

/-- The place of an offset of PF BAR0. -/
def State.barPlace (s : State) (o : Nat) : Option Place :=
  if 0x110000 ≤ o ∧ o < 0x190000 then (ringReg (o % 0x20)).map (fun g => .reg g ((o - 0x110000) / 0x20))
  else if 0x1A0000 ≤ o ∧ o < 0x1B0000 then s.winPlace 0 (o - 0x1A0000)
  else if 0x80000 ≤ o ∧ o < 0xC0000 then some (.audit ((o - 0x80000) / 8))
  else if 0x1000000 ≤ o ∧ o < 0x1C00000 ∧ 0x40000 ≤ o % 0x100000 ∧ o % 0x100000 < 0x80000 then
    findReg .til ((o - 0x1000000) / 0x100000 * 64 + (o % 0x100000 - 0x40000) / 0x1000) (o % 0x1000)
  else findReg .bar0 0 o

/-! ### Written bits -/

/-- Bit b is written as 1. -/
def wr1 (mask val b : Nat) : Bool := bitAt mask b && bitAt val b

/-- A field's bits as they will stand: the written ones from val, the others from the register. -/
def State.newBits (s : State) (f : Fld) (i mask val : Nat) : Nat :=
  let m := mask / 2 ^ f.info.lo % 2 ^ f.width
  ((s.fld f i ^^^ (s.fld f i &&& m)) ||| (val / 2 ^ f.info.lo % 2 ^ f.width &&& m))

/-- A register's 64 bits as they will stand. -/
def State.newReg (s : State) (r : Reg) (i mask val : Nat) : Nat :=
  let old := s.regVal r i
  (old ^^^ (old &&& mask)) ||| (val &&& mask)

/-- Write some fields of a register. -/
def State.writeFlds (s : State) (l : List Fld) (i mask val : Nat) : State :=
  l.foldl (fun s f => s.writeFld f i mask val) s

/-- Do an action when its bit is written as 1. -/
def State.onBit (s : State) (mask val b : Nat) (act : State → State) : State := if wr1 mask val b then act s else s

/-- Do an action when its RWP bit is written as 1 in the presence window (R556). -/
def State.onKey (s : State) (mask val b : Nat) (act : State → State) : State :=
  if wr1 mask val b && s.flag .MGT_PRESENCE_OPEN 0 then act s else s

/-! ### What a write does, block by block -/

/-- A write to TIL_MA_STATUS: one that clears an ACC_DUE bit that was set clears ACC_CE too (R105). -/
def State.arrayStatusWrite (s : State) (t mask val : Nat) : State :=
  let s1 := s.writeReg .TIL_MA_STATUS t mask val
  if s1.fld .TIL_MA_STATUS_ACC_DUE t = s.fld .TIL_MA_STATUS_ACC_DUE t then s1 else s1.setFld .TIL_MA_STATUS_ACC_CE t 0

/-- A write to TIL_VE_STATUS: POISON_IN is cleared with POISON_SEEN (R134). -/
def State.vectorStatusWrite (s : State) (t mask val : Nat) : State :=
  let s1 := s.writeReg .TIL_VE_STATUS t mask val
  if wr1 mask val 1 then s1.setFld .TIL_VE_STATUS_POISON_IN t 0 else s1

/-- The Tiller window (R100, R104, R133, R172, R178, R183, R543). -/
def State.actTil (s : State) (r : Reg) (i mask val : Nat) (next : State) : State :=
  match r with
  | .TIL_MA_CTRL =>
    let s1 := s.doGang i (s.newBits .TIL_MA_CTRL_GANG i mask val) (s.newBits .TIL_MA_CTRL_CMP i mask val != 0)
    s1.onBit mask val 8 (fun s => s.setFld .TIL_MA_FRONT_STALL_CYCLES i 0)
  | .TIL_MA_STATUS => s.arrayStatusWrite i mask val
  | .TIL_VE_STATUS => s.vectorStatusWrite i mask val
  | .TIL_VE_CTRL =>
    (s.writeReg r i mask val).onBit mask val 0 (fun s =>
      (s.setFld .TIL_VE_TQ_WAIT_CYCLES i 0).setFld .TIL_VE_STAT_STALL_CYCLES i 0)
  | .TIL_PARAM => s.doParam (i / 256) (i % 256) (s.newReg r i mask val)
  | .TIL_PROG_CTRL =>
    ((s.onBit mask val 2 (fun s => s.doHalt i)).onBit mask val 1 (fun s => s.doStep i)).onBit mask val 0 (fun s => s.doResume i)
  | .TIL_BRK_CTRL => if s.flag .MGT_DEBUG_UNLOCKED 0 then s.writeReg r i mask val else s
  | .TIL_BRK_CMD => if s.flag .MGT_DEBUG_UNLOCKED 0 then s.writeReg r i mask val else s
  | .TIL_BRK_TAG => if s.flag .MGT_DEBUG_UNLOCKED 0 then s.writeReg r i mask val else s
  | .TIL_OBS_CTRL => s.onBit mask val 0 (fun s => s.clearTilObs i)
  | _ => next

/-- Operation OP of GLM_ADMIN (R194). -/
def State.doAdminOp (s : State) (val : Nat) : State :=
  let pid := bitsOf val 15 0
  if s.adminPid.isSome then s.adminRefuse 4
  else
    match bitsOf val 63 60 with
    | 1 => s.doAllocate pid (bitsOf val 43 32)
    | 2 => s.doFreeze pid
    | 3 => s.doFree pid
    | 4 => s.doRead pid
    | _ => s.adminRefuse 3

/-- Glumes and barriers (R194, R197, R211, R228, R230). -/
def State.actGlm (s : State) (r : Reg) (i mask val : Nat) (next : State) : State :=
  match r with
  | .GLM_ADMIN => s.doAdminOp val
  | .GLM_XLAT_INVAL =>
    s.doXlatInval (BitVec.ofNat 12 (bitsOf val 43 32)) (bitAt val 16) (BitVec.ofNat 16 (bitsOf val 15 0))
  | .GLM_BAR_CFG0 => s.doBarConfig i 0 (s.newReg r i mask val)
  | .GLM_BAR_CFG1 => s.doBarConfig i 1 (s.newReg r i mask val)
  | .GLM_CTX_SIG_ID =>
    if mask % 2 = 1 then s.sendSignalBy true rachisB i (bitsOf val 15 0) (s.fld .GLM_CTX_SIG_VALUE_VALUE i) else s
  | .GLM_CTX_NOTIFY =>
    let s1 := s.writeFld .GLM_CTX_NOTIFY_VID i mask val
    if wr1 mask val 16 then s1.doArm i (s1.fld .GLM_CTX_NOTIFY_VID i)
    else if bitAt mask 16 then s1.disarm i
    else s1
  | _ => next

/-- The plain fields of a ring's base register, which it takes while ENABLE is 0 (R309). -/
def ringPlain : List Fld := [.CTX_RING_BASE_SIZE, .CTX_RING_BASE_DBMODE, .CTX_RING_BASE_BASE]

/-- Rings, contexts and their queues (R274, R277, R289, R290, R294-R296, R300, R309-R313). A VF does not write a ring's
owner. -/
def State.actCtx (s : State) (o : Origin) (r : Reg) (i mask val : Nat) (next : State) : State :=
  match r with
  | .CTX_RING_BASE =>
    let on := s.flag .CTX_RING_BASE_ENABLE i
    let s1 := if on then s else s.writeFlds ringPlain i mask val
    let s2 := s1.onBit mask val 62 (fun s => s.doRingResume i)
    if wr1 mask val 63 then s2.doRingEnable i
    else if bitAt mask 63 then s2.setFlag .CTX_RING_BASE_ENABLE i false
    else s2
  | .CTX_RING_CFG =>
    let own : List Fld := match o with
      | .vf _ => []
      | _ => [.CTX_RING_CFG_CTX]
    let plain : List Fld := if s.flag .CTX_RING_BASE_ENABLE i then [] else [.CTX_RING_CFG_HOME, .CTX_RING_CFG_DB_ADDR]
    s.writeFlds (own ++ plain) i mask val
  | .CTX_RING_CANCEL => s.doCancel i val
  | .CTX_CFG =>
    let on := s.flag .CTX_CFG_ENABLE i
    let s1 := if on then s else s.writeFld .CTX_CFG_EPOCH i mask val
    let en := s.newBits .CTX_CFG_ENABLE i mask val != 0
    if en = on then s1 else s1.doCtxEnable i en
  | .CTX_CTRL =>
    (s.onBit mask val 0 (fun s => s.doXlatResume i)).onBit mask val 1 (fun s => s.doCtxReset i (ctrlOff i))
  | .CTX_EQ_CFG => (s.writeReg r i mask val).lostReport errorQueue i
  | .CTX_EQ_POS => (s.writeReg r i mask val).lostReport errorQueue i
  | .CTX_CQ_CFG => (s.writeReg r i mask val).lostReport completionQueue i
  | .CTX_CQ_POS => (s.writeReg r i mask val).lostReport completionQueue i
  | .CTX_TLB_INVAL => s.doTlbInval i (bitAt val 62) (bitsOf val 47 12)
  | _ => next

/-- What LNK_GUEST shows of a port's guest: a RETRAIN by a register write finds it so again (DESIGN CHOICE:
notes/assumptions/49.md). -/
def State.guestSeen (s : State) (p : Nat) : GuestInfo :=
  { sideband := true, vendor := BitVec.ofNat 16 (s.fld .LNK_GUEST_VENDOR p), device := BitVec.ofNat 16 (s.fld .LNK_GUEST_DEVICE p),
    fw := BitVec.ofNat 16 (s.fld .LNK_GUEST_FW p), params := true, modules := BitVec.ofNat 4 (s.fld .LNK_GUEST_MOD_OK p),
    rate := BitVec.ofNat 2 (s.fld .LNK_GUEST_RATE p), calibrated := true }

/-- HBM, far memory, mirror and log (R250, R256, R265, R266, R459, R468, R477). -/
def State.actHbm (s : State) (r : Reg) (i mask val : Nat) (next : State) : State :=
  match r with
  | .HBM_RETIRE => if mask % 2 = 1 then s.retirePage (bitsOf val 18 0) else s
  | .HBM_RETIRE_CLR => s.onKey mask val 0 State.clearRetired
  | .HBM_REPAIR =>
    let hard := wr1 mask val 63 && s.flag .MGT_PRESENCE_OPEN 0
    s.repairWrite mask val (hard || wr1 mask val 62) hard
  | .HBM_LOG_REGION => s.regionWrite false mask val
  | .HBM_MIR_REGION => s.regionWrite true mask val
  | .HBM_MIR_CTRL => s.mirrorCtrl mask val
  | .HBM_MIR_SRC => if s.flag .HBM_MIR_CTRL_ENABLE 0 then s else s.writeReg r i mask val
  | .HBM_LOG_REPLAY =>
    let s1 := s.writeReg r i mask val
    s1.onBit mask val 63 (fun s => s.logReplay (s.fld .HBM_LOG_REPLAY_FLOW 0))
  | _ => next

/-- A write that would change the route table outside R380 is ignored: RT_REFUSED, and a class with its detail. -/
def State.routeRefuse (s : State) (cls detail : Nat) : State :=
  (s.setFlag .FAB_CTRL_RT_REFUSED 0 true).raiseNo cls (linkUnit 0) detail

/-- A write of a route register: only while DRAINED. -/
def State.routeWrite (s : State) (r : Reg) (i mask val : Nat) : State :=
  if s.drained then s.writeReg r i mask val else s.routeRefuse 0x68 (r.off i)

/-- FENCE of FAB_CTRL: a write of the bits that stand is no change; a fence of R550 stays. -/
def State.fenceBits (s : State) (mask val : Nat) : State :=
  let v := s.newBits .FAB_CTRL_FENCE 0 mask val ||| s.fld .MGT_FENCED_PORT 0
  if v = s.fld .FAB_CTRL_FENCE 0 then s
  else if s.drained then s.setFld .FAB_CTRL_FENCE 0 v
  else s.routeRefuse 0x68 (Reg.off .FAB_CTRL 0)

/-- GO of FAB_FLOW_SEL (R389). -/
def State.flowGo (s : State) : State :=
  let rx := s.flag .FAB_FLOW_SEL_DIR 0
  let f := s.fld .FAB_FLOW_SEL_FLOW 0
  match s.fld .FAB_FLOW_SEL_OP 0 with
  | 0 => s.flowRead rx f
  | 1 => s.flowOpen rx f
  | 2 => s.flowClose rx f
  | _ => s

/-- Links and fabric (R317, R340, R346, R352, R380, R389, R464, R466, R467). -/
def State.actFab (s : State) (r : Reg) (i mask val : Nat) (next : State) : State :=
  match r with
  | .LNK_CFG =>
    let plain := (Reg.flds .LNK_CFG).filter (fun f => f != .LNK_CFG_ENABLE)
    let s1 := s.writeFlds plain i mask val
    let en := s.newBits .LNK_CFG_ENABLE i mask val != 0
    let s2 := if en = s.flag .LNK_CFG_ENABLE i then s1 else s1.portEnable i en
    let s3 := s2.onBit mask val 60 (fun s =>
      if s.linksRun && decide (4 ≤ s.portState i) && decide (s.portState i ≤ 5) then s.sendPause i else s)
    s3.onBit mask val 61 (fun s => if s.linksRun then s.retrainPort i (s.guestSeen i) else s)
  | .LNK_CHFUSE_TX => s.onKey mask val 63 (fun s => s.fuseChannels i false)
  | .LNK_CHFUSE_RX => s.onKey mask val 63 (fun s => s.fuseChannels i true)
  | .FAB_NODE => s.routeWrite r i mask val
  | .FAB_AXIS => s.routeWrite r i mask val
  | .FAB_ABSENT => s.routeWrite r i mask val
  | .FAB_POOL => s.routeWrite r i mask val
  | .FAB_CTRL =>
    let s1 := s.fenceBits mask val
    s1.writeFlds ((Reg.flds .FAB_CTRL).filter (fun f => f != .FAB_CTRL_FENCE)) i mask val
  | .FAB_FLOW_SEL => (s.writeReg r i mask val).onBit mask val 63 State.flowGo
  | .FAB_FLOW_TRIM => (s.writeReg r i mask val).onBit mask val 63 (fun s => s.flowTrim (s.fld .FAB_FLOW_TRIM_FLOW 0))
  | .FAB_FLOW_SKIP =>
    (s.writeReg r i mask val).onBit mask val 63 (fun s =>
      s.flowSkip (s.fld .FAB_FLOW_SKIP_FLOW 0) (s.fld .FAB_FLOW_SKIP_SKIP 0))
  | .FAB_ALIAS => if s.drained then s.writeReg r i mask val else s.routeRefuse 0x97 i
  | _ => next

/-- A write of a group's registers but COL_GRP_CFG0: only while ARM is 0 (R416). -/
def State.groupWrite (s : State) (r : Reg) (g i mask val : Nat) : State :=
  if s.armed g then s else s.writeReg r i mask val

/-- Collectives (R393, R416, R417, R465, R480). -/
def State.actCol (s : State) (r : Reg) (i mask val : Nat) (next : State) : State :=
  match r with
  | .COL_CFG => if (List.range 256).any s.armed then s else s.writeReg r i mask val
  | .COL_GRP_CFG0 =>
    if s.armed i then (if bitAt mask 63 && !(bitAt val 63) then s.disarmGroup i else s)
    else
      let s1 := s.writeFlds ((Reg.flds .COL_GRP_CFG0).filter (fun f => f != .COL_GRP_CFG0_ARM)) i mask val
      s1.onBit mask val 63 (fun s => s.armGroup i)
  | .COL_GRP_CFG1 => s.groupWrite r i i mask val
  | .COL_GRP_RES => s.groupWrite r i i mask val
  | .COL_GRP_TALLY => s.groupWrite r i i mask val
  | .COL_GRP_DISP => s.groupWrite r i i mask val
  | .COL_GRP_PROXY => s.groupWrite r i i mask val
  | .COL_GRP_STATUS => s.groupWrite r i i mask val
  | .COL_MEMBER => s.groupWrite r (i / 64) i mask val
  | _ => next

/-- Power and spares (R452-R454, R476, R482, R487, R491, R493, R495, R505, R506). -/
def State.actPwr (s : State) (r : Reg) (i mask val : Nat) (next : State) : State :=
  match r with
  | .SHF_SPARE =>
    let s1 := s.writeFld .SHF_SPARE_N i mask val
    let s2 := (s1.onBit mask val 63 (fun s => s.mapSpare i (s.fld .SHF_SPARE_N i))).onKey mask val 62 (fun s => s.fuseSheaf i)
    (s2.onBit mask val 61 (fun s => s.renumber i)).onBit mask val 60 (fun s => s.fenceSheaf i)
  | .PWR_CTRL =>
    ((s.onBit mask val 2 (fun s => if s.mayRelease then s.releaseMain else s)).onBit mask val 1 (fun s => s.shutdown 1)).onBit
      mask val 0 State.moduleReset
  | .PWR_CLK_PLAN =>
    if bitAt mask 48 then s.planWrite (s.newBits .PWR_CLK_PLAN_FREQ_REQ_MHZ 0 mask val) else s
  | .PWR_DORMANT =>
    ((s.writeReg r i mask val).onBit mask val 63 State.enterDormant).onBit mask val 62 (fun s => s.wakeUp 0)
  | .PWR_MTIME_SET => s.takeMtime 1 (BitVec.ofNat 64 (val &&& mask))
  | _ => next

/-- A ring of observation: while ENABLE is 1 only ENABLE takes the write (R541). -/
def State.obsRingWrite (s : State) (r : Reg) (en : Fld) (mask val : Nat) : State :=
  if s.flag en 0 then s.writeFld en 0 mask val else s.writeReg r 0 mask val

/-- A register of a capture slot: while ARM is 1 only ARM takes the write (R542). -/
def State.captWrite (s : State) (r : Reg) (k mask val : Nat) : State :=
  if s.flag .OBS_CAPT_CTRL_ARM k then s.writeFlds ((Reg.flds r).filter (fun f => f == .OBS_CAPT_CTRL_ARM)) k mask val
  else
    let s1 := s.writeReg r k mask val
    if s1.flag .OBS_CAPT_CTRL_ARM k then (s1.setFld .OBS_CAPT_STATUS_MATCHES k 0).setFld .OBS_CAPT_COUNT_ELEMENTS k 0 else s1

/-- Observation (R525, R541, R542). -/
def State.actObs (s : State) (r : Reg) (i mask val : Nat) (next : State) : State :=
  match r with
  | .OBS_SAMPLE =>
    let s1 := s.writeReg r i mask val
    if s1.flag .OBS_SAMPLE_EN 0 && !(s.flag .OBS_SAMPLE_EN 0) then s1.sampleBase else s1
  | .OBS_TEL_RING => s.obsRingWrite r .OBS_TEL_RING_ENABLE mask val
  | .OBS_TRC_RING => s.obsRingWrite r .OBS_TRC_RING_ENABLE mask val
  | .OBS_CAPT_CTRL => s.captWrite r i mask val
  | .OBS_CAPT_STEP => s.captWrite r i mask val
  | .OBS_CAPT_BASE => s.captWrite r i mask val
  | .OBS_CAPT_LEN => s.captWrite r i mask val
  | .OBS_CAPT_STATUS => s.captWrite r i mask val
  | _ => next

/-- Management (R548, R559, R560). -/
def State.actMgt (s : State) (o : Origin) (r : Reg) (i mask val : Nat) (next : State) : State :=
  match r with
  | .MGT_FW =>
    let s1 := s.onKey mask val 63 (fun s =>
      if s.mayActivate then s.doActivate o
      else s.refuseBundle (if s.flag .MGT_FW_TRIAL 0 then 2 else 3) (s.fld .MGT_FW_VER_STAGED_VER 0))
    s1.onBit mask val 62 (fun s => s.doConfirm o)
  | .MGT_FW_VER =>
    s.onKey mask val 63 (fun s =>
      if s.flag .MGT_FW_TRIAL 0 then s else s.setFld .MGT_FW_VER_MIN_VER 0 (s.fld .MGT_FW_RUN_VER 0))
  | .MGT_DEBUG => (s.onKey mask val 63 (fun s => s.doUnlock o)).onBit mask val 62 (fun s => s.doLock o)
  | .MGT_PEER => (s.writeReg r i mask val).onBit mask val 63 (fun s => s.askPeer (s.fld .MGT_PEER_NODE 0))
  | _ => next

/-- A write to a register, whole: the fields with rules of their own do what their rows do; every other field acts as its
access type gives (R20). -/
def State.regAct (s : State) (o : Origin) (r : Reg) (i mask val : Nat) : State :=
  let n := s.writeReg r i mask val
  s.actTil r i mask val (s.actGlm r i mask val (s.actCtx o r i mask val (s.actHbm r i mask val (s.actFab r i mask val
    (s.actCol r i mask val (s.actPwr r i mask val (s.actObs r i mask val (s.actMgt o r i mask val n))))))))

/-! ### The audit entry of a write (R22, R551, R553) -/

/-- Fields of an access type have a bit that is written. -/
def Reg.covers (r : Reg) (a : Access) (mask : Nat) : Bool :=
  r.flds.any (fun f => f.info.access == a && mask / 2 ^ f.info.lo % 2 ^ f.width != 0)

/-- Fields of an access type have a bit written as 1. -/
def Reg.writes1 (r : Reg) (a : Access) (mask val : Nat) : Bool :=
  r.flds.any (fun f => f.info.access == a && (mask &&& val) / 2 ^ f.info.lo % 2 ^ f.width != 0)

/-- A write to an RWP field takes effect: in the window, and when its action is not refused (R556, R559). -/
def State.rwpTakes (s : State) (r : Reg) : Bool :=
  s.flag .MGT_PRESENCE_OPEN 0 &&
    (if r = .MGT_FW then s.mayActivate else if r = .MGT_FW_VER then !(s.flag .MGT_FW_TRIAL 0) else true)

/-- The entry of a write from s to t: of an RWP field always, with ones or with zeros; of an audited register when it
changed or an action was started (R22, R551; DEDUCED: notes/assumptions/78.md). -/
def State.auditWrite (t s : State) (o : Origin) (r : Reg) (i mask val : Nat) : State :=
  let old := s.regVal r i
  if r.writes1 .RWP mask val then
    let took := s.rwpTakes r
    t.audit! took (if took then Origin.presence o else Origin.audit o) 0 (r.off i) old val 0
  else if r.covers .RWP mask then
    t.audit! (s.flag .MGT_PRESENCE_OPEN 0 || t.regVal r i != old || r.writes1 .WO mask val) (Origin.audit o) 0 (r.off i) old
      val 0
  else if r.audited && (t.regVal r i != old || r.writes1 .WO mask val) then t.audit! true (Origin.audit o) 0 (r.off i) old val 0
  else t

/-- A write to a register that has been reached. Every write to MGT_DET_CTRL is audited (R427), one of its upper half, which
holds no field, too; CLEAR empties the log after its entry (R555). -/
def State.regPut (s : State) (o : Origin) (r : Reg) (i mask val : Nat) : State :=
  if r = .MGT_DET_CTRL then
    if mask % 2 = 1 then s.detWrite o val
    else s.audit! true (Origin.audit o) 0 (r.off i) (s.regVal r i) val 0
  else
    let t := (s.regAct o r i mask val).auditWrite s o r i mask val
    if r = .MGT_AUDIT_STAT && wr1 mask val 0 && s.flag .MGT_PRESENCE_OPEN 0 then t.auditClear (Origin.presence o) else t

/-! ### Accesses (R15, R17-R19, R274, R298) -/

/-- The registers that latch (R18). -/
def Reg.latches (r : Reg) : Bool :=
  r == .GLM_ADMIN || r == .GLM_XLAT_INVAL || r == .CTX_RING_CANCEL || r == .CTX_TLB_INVAL

/-- A write of one width at a register: a whole one, or one of its halves; a latching register's lower half is held. -/
def State.halfPut (s : State) (o : Origin) (r : Reg) (i : Nat) (wide high : Bool) (val : Nat) : State :=
  if wide then
    (if r.latches then s.latch r i val else s).regPut o r i fullMask val
  else if r.latches then
    if high then s.regPut o r i fullMask (val * 2 ^ 32 + (Tbl.get 0 s.held (latchKey r i)).toNat)
    else s.latch r i val
  else if high then s.regPut o r i (fullMask - (2 ^ 32 - 1)) (val * 2 ^ 32)
  else s.regPut o r i (2 ^ 32 - 1) val

/-- A write to a word of the MSI-X table. -/
def State.msixPut (s : State) (c k : Nat) (wide high : Bool) (val : Nat) : State :=
  let old := s.msixWord c k
  s.setMsixWord c k (if wide then val else if high then old % 2 ^ 32 + val * 2 ^ 32 else old / 2 ^ 32 * 2 ^ 32 + val)

/-- A context's window takes writes: the context is enabled, and not in reset but for its MSI-X table (R274, R298). -/
def State.winOpen (s : State) (c : Nat) (msix : Bool) : Bool :=
  s.flag .CTX_CFG_ENABLE c && (msix || s.fld .CTX_STATUS_STATE c != 2)

/-- The context whose window an offset of PF BAR0 lies in. -/
def pfWindow (off : Nat) : Bool := decide (0x1A0000 ≤ off) && decide (off < 0x1B0000)

/-- A write to a place: the pending-bit array and the audit SRAM are read only. -/
def State.placePut (s : State) (o : Origin) (p : Place) (wide high : Bool) (val : Nat) : State :=
  match p with
  | .reg r i => s.halfPut o r i wide high val
  | .msix c k => s.msixPut c k wide high val
  | .pba _ _ => s
  | .audit _ => s

def Place.isMsix : Place → Bool
  | .msix _ _ => true
  | _ => false

/-- The register that stands for an offset when an access is judged. -/
def judged (off : Nat) : Option Place → Reg
  | some (.reg r _) => r
  | _ => if off < 0x100000 then .MGT_PRESENCE else .CMD_CFG

/-- A 32-bit or 64-bit write at an offset: of a VF in its own window, of any other origin in PF BAR0. Any other access is
not performed. -/
def State.regWrite (s : State) (o : Origin) (off width val : Nat) : State :=
  if (width = 4 ∨ width = 8) ∧ off % width = 0 then
    let wide := decide (width = 8)
    let high := decide (off % 8 = 4)
    let v := val % 2 ^ (8 * width)
    match o with
    | .vf c =>
      let t := s.hostWakes o .CMD_CFG
      match t.winPlace c.toNat (off / 8 * 8) with
      | some p =>
        if t.hostPort && c != 0 && decide (off < 0x10000) && t.winOpen c.toNat p.isMsix then t.placePut o p wide high v else t
      | none => t
    | _ =>
      let p := s.barPlace (off / 8 * 8)
      s.access o (judged off p) (fun s =>
        match p with
        | some q => if pfWindow off && !(s.winOpen 0 q.isMsix) then s else s.placePut o q wide high v
        | none => s)
  else s

/-! ### What a read gives (R15, R17, R19, R274) -/

/-- The 64 bits of a place: a register's fields by their access types, where GLM_CTX_VALUE gives the Glume that it names
(R229); a vector that waits is pending. -/
def State.placeVal (s : State) : Place → Nat
  | .reg .GLM_CTX_VALUE c => (s.doValueRead c).readData.toNat
  | .reg r i => s.regVal r i
  | .msix c k => s.msixWord c k
  | .pba c k => if k = 0 then (s.ctx c).vecPending.toNat else 0
  | .audit k => (Tbl.get 0 s.audit (k / 8)).toNat / 2 ^ (64 * (k % 8)) % 2 ^ 64

/-- The bits that an access of a width at an offset takes from a place; a reserved offset reads as zero. -/
def State.placeRead (s : State) (off width : Nat) (p : Option Place) : Nat :=
  match p with
  | some q => s.placeVal q / 2 ^ (8 * (off % 8)) % 2 ^ (8 * width)
  | none => 0

/-- What a 32-bit or 64-bit read at an offset gives an origin, or none when the access is not performed. A VF reads zero
outside its 64 KiB window, and a window reads zero while its context is disabled. -/
def State.regRead (s : State) (o : Origin) (off width : Nat) : Option Nat :=
  if (width = 4 ∨ width = 8) ∧ off % width = 0 then
    match o with
    | .vf c =>
      let t := s.hostWakes o .CMD_CFG
      if !(t.hostPort) then none
      else if decide (off < 0x10000) && t.windowReads c.toNat then
        some (t.placeRead off width (t.winPlace c.toNat (off / 8 * 8)))
      else some 0
    | _ =>
      let p := s.barPlace (off / 8 * 8)
      let t := s.hostWakes o (judged off p)
      if !(t.reach o (judged off p)) then none
      else if pfWindow off && !(t.windowReads 0) then some 0
      else some (t.placeRead off width p)
  else none

def execRegisterWrite (org : Origin) (off : BitVec 26) (width : Nat) (val : Word) (s : State) :
    Host.Outcome State Fault Refusal :=
  .next (s.regWrite org off.toNat width val.toNat)

/-- The place of an offset for an origin. -/
def State.placeOf (s : State) (o : Origin) (off : Nat) : Option Place :=
  match o with
  | .vf c => s.winPlace c.toNat off
  | _ => s.barPlace off

/-- A 32-bit write of the lower half of a latching register is held; at any other offset it is no such write. -/
def State.latchedWrite (s : State) (o : Origin) (off val : Nat) : State :=
  match s.placeOf o off with
  | some (.reg r _) => if r.latches && off % 8 == 0 then s.regWrite o off 4 val else s
  | _ => s

def execLatchedLowerWrite (org : Origin) (off : BitVec 26) (val : BitVec 32) (s : State) :
    Host.Outcome State Fault Refusal :=
  .next (s.latchedWrite org off.toNat val.toNat)

/-- An effecter write acts as the PF's write of the same register (R545, R546). -/
def execPldmEffecterWrite (eid : BitVec 8) (off : BitVec 26) (val : Word) (s : State) :
    Host.Outcome State Fault Refusal :=
  .next (s.regWrite (.mgmt eid) off.toNat 8 val.toNat)

/-! ### The JTAG port (R560) -/

/-- The instruction register's state: 0 BYPASS, 1 IDCODE, 2 SAMPLE, 3 EXTEST, 4 CLAMP, 5 register access. -/
def State.setJtag (s : State) (n : Nat) : State := { s with power := { s.power with jtag := n } }

/-- IDCODE: the part number in [27:12], bit 0 set (PRESUMED, IEEE 1149.1: notes/assumptions/50.md), the rest free. -/
def idcode (w : Word) : BitVec 32 :=
  BitVec.ofNat 32 (bitsOf w.toNat 3 0 * 2 ^ 28 + 0xAE12 * 2 ^ 12 + bitsOf w.toNat 14 4 * 2 + 1)

/-- EXTEST and CLAMP act as BYPASS while main is on. -/
def State.jtagDrive (s : State) (n : Nat) : State := s.setJtag (if s.fld .PWR_STATUS_STATE 0 = 0 then n else 0)

/-- An instruction other than a private one. -/
def State.doJtag (s : State) : JtagIr → State
  | .bypass => s.setJtag 0
  | .idcode => (s.useFree.setJtag 1).emit (.idcode (idcode s.freeWord))
  | .sample => s.setJtag 2
  | .extest => s.jtagDrive 3
  | .clamp => s.jtagDrive 4
  | .regAccess off val =>
    if s.flag .MGT_DEBUG_UNLOCKED 0 then (s.setJtag 5).regWrite .jtag off.toNat 8 val.toNat else s.setJtag 0
  | .priv _ => s.setJtag 0

/-- A private instruction takes effect only while debug is unlocked, and the spec gives no effect: a refusal by name. -/
def execJtagInstruction (ir : JtagIr) (s : State) : Host.Outcome State Fault Refusal :=
  match ir with
  | .priv code =>
    if s.flag .MGT_DEBUG_UNLOCKED 0 then .refused (.jtagPrivate code) else .next (s.doJtag ir)
  | _ => .next (s.mgt (fun s => s.doJtag ir))

/-! ### The host's writes to HBM (R271) -/

/-- The accessor of the PF's memory accesses. -/
def hostAcc : Accessor := Accessor.of ⟨7, 0⟩ (some 0)

/-- The HBM that the host reaches: through BAR2, from address 0 to the BAR's size; through CXL.mem, in CXL, the range that
the HDM decoder holds, of 576 GiB at most (R270, R271). -/
def State.hostRange (s : State) (cxl : Bool) (a n : Nat) : Bool :=
  if cxl then
    s.flag .CMD_CFG_CXL 0 && decide (s.power.hdmBase ≤ a) && decide (a + n ≤ s.power.hdmBase + s.power.hdmSize) &&
      decide (a + n ≤ 576 * 2 ^ 30)
  else decide (a + n ≤ 2 ^ s.power.bar2 * 2 ^ 30)

/-- Write HBM from the host. A Dormant part wakes first. -/
def State.hostWrite (s : State) (cxl : Bool) (a : Nat) (bytes : List PByte) : State :=
  let s1 := if s.power.hostUp then s.wakeUp 1 else s
  if !(s1.hostPort && s1.hostRange cxl a bytes.length) then s1.emit .unsupported
  else (s1.memWrite hostAcc a bytes).count 4 bytes.length

def execBar2Write (viaCxl : Bool) (addr : BitVec 40) (bytes : List PByte) (s : State) :
    Host.Outcome State Fault Refusal :=
  .next (s.hostWrite viaCxl addr.toNat bytes)

end Sys2Proof.Machine
end

