-- ==== Sys2Proof/Machine/Xfer.lean ====
section
/-! DEFINITION. The transfer engines (R245-R247, R282): copy, fill, Millet (R241-R244) and digest operations (R437-R442),
their completion, and far memory's timeout and link loss (R255). -/

namespace Sys2Proof.Machine

/-! ### Operations (R246, R282) -/

def State.engine (s : State) (k : Nat) : List XferOp := Tbl.get [] s.engines k

def State.setEngine (s : State) (k : Nat) (l : List XferOp) : State := { s with engines := Tbl.put s.engines k l }

/-- What goes wrong outside the part while an operation is performed: a host read that fails (R305), and far memory that does
not complete its accesses (R255). -/
structure XferErr where
  host : Option HostErr
  late : Bool
  deriving DecidableEq, Repr

/-- The accessor of an operation in the engine of Sheaf sh. -/
def xferAcc (sh : Nat) (o : XferOp) (e : XferErr) : Accessor :=
  { Accessor.of ⟨2, sh⟩ (some o.ctx.toNat) with late := e.late, hostErr := e.host }

def opOf (o : XferOp) : Nat := cmdField o.op 0 3 0
def opRows (o : XferOp) : Nat := cmdField o.op 4 31 0
def opLen (o : XferOp) : Nat := cmdField o.op 8 31 0
def opSrc (o : XferOp) : Nat := cmdField o.op 0x10 63 0
def opDst (o : XferOp) : Nat := cmdField o.op 0x18 63 0
def opA (o : XferOp) : Nat := cmdField o.op 0x20 63 0
def opB (o : XferOp) : Nat := cmdField o.op 0x28 63 0

/-- A 64-bit number as a signed one. -/
def signed64 (x : Nat) : Int := (BitVec.ofNat 64 x).toInt

/-- The reserved fields of every operation. -/
def opReserved (o : XferOp) : Bool :=
  cmdField o.op 0 31 14 != 0 || cmdField o.op 0 7 4 != 0 || cmdField o.op 0xC 31 0 != 0

/-- A COPY or FILL with a field that is reserved or out of range (R245, R282). -/
def blockOpBad (o : XferOp) : Bool :=
  opReserved o || cmdField o.op 0x38 63 0 != 0 || decide (4 ≤ opOf o) ||
    opRows o == 0 || decide (65536 < opRows o) || opLen o == 0 || (opRows o == 1 && decide (2 ^ 26 < opLen o))

/-- A MILLET operation with a field that is reserved or out of range (R241, R282). -/
def milletBad (o : XferOp) : Bool :=
  opReserved o || cmdField o.op 0x38 63 0 != 0 || decide (4 ≤ cmdField o.op 0 11 8) ||
    opRows o == 0 || decide (4096 < opRows o) || cmdField o.op 0x30 31 0 == 0 || cmdField o.op 0x30 31 0 % 32 != 0

/-- Operation k of the engine of Sheaf sh may be performed now: it has not been, its engine runs, and in STRICT mode it
is the oldest that has not been (R246, R426, R454). -/
def State.opNow (s : State) (sh k : Nat) : Option XferOp :=
  match (s.engine sh)[k]? with
  | none => none
  | some o =>
    if s.ready && !(s.flag .MGT_DET_DUMAP_HI_FENCED sh) && decide (k < 1024) && !o.performed &&
        (!s.strict || ((s.engine sh).take k).all (·.performed)) then some o
    else none

/-- Operation k has been performed. -/
def State.opDone (s : State) (sh k : Nat) : State :=
  s.setEngine sh ((s.engine sh).modify k (fun o => { o with performed := true }))

/-- Operation k leaves its engine. -/
def State.opLeave (s : State) (sh k : Nat) : State := s.setEngine sh ((s.engine sh).eraseIdx k)

/-- One operation fewer is open in a command. -/
def State.opClosed (s : State) (r pos : Nat) : State :=
  let x := s.ring r
  s.setRing r { x with running := x.running.map (fun c => if c.pos = pos then { c with ops := c.ops - 1 } else c) }

/-- A refused operation is not performed and faults its command with a cause class (R282, R290). -/
def State.opRefuse (s : State) (sh k : Nat) (o : XferOp) (cls : Nat) : State :=
  (s.opLeave sh k).commandFault o.ring.toNat o.pos cls

/-! ### Ranges by context virtual address -/

/-- The page-wise pieces of n bytes from a CVA. -/
def piecesOf : Nat → Nat → Nat → List (Nat × Nat)
  | 0, _, _ => []
  | fuel + 1, a, n =>
    if n = 0 then []
    else
      let m := min n (4096 - a % 4096)
      (a, m) :: piecesOf fuel (a + m) (n - m)

/-- Translate pieces through the engine's cache: none while one is held or faults. -/
def State.xlatAll (s : State) (sh c acc : Nat) (w : Accessor) : List (Nat × Nat) → State × Option (List (Nat × Nat))
  | [] => (s, some [])
  | (a, n) :: t =>
    match s.translate w.hostErr sh c a acc w.unit with
    | (s1, .ok dev _) =>
      let r := s1.xlatAll sh c acc w t
      (r.1, r.2.map (fun l => (dev, n) :: l))
    | (s1, _) => (s1, none)

/-- Translate the rows of a source (acc 0) or a destination (acc 1), by row address and length. -/
def State.xlatRows (s : State) (sh : Nat) (o : XferOp) (e : XferErr) (acc : Nat) (rows : List (Nat × Nat)) :
    State × Option (List (Nat × Nat)) :=
  s.xlatAll sh o.ctx.toNat acc (xferAcc sh o e) (rows.flatMap (fun p => piecesOf (pagesOf p.2) p.1 p.2))

/-- Read translated pieces. -/
def State.readSegs (s : State) (w : Accessor) : List (Nat × Nat) → State × List PByte
  | [] => (s, [])
  | (a, n) :: t =>
    let r := s.memRead w a n
    let q := r.1.readSegs w t
    (q.1, r.2 ++ q.2)

/-- Write bytes to translated pieces. -/
def State.writeSegs (s : State) (w : Accessor) : List (Nat × Nat) → List PByte → State
  | [], _ => s
  | (a, n) :: t, b => (s.memWrite w a (b.take n)).writeSegs w t (b.drop n)

/-- The rows of a two-dimensional range: base + j x stride, by address modulo 2^64. -/
def rowsOf (base stride rows len : Nat) : List (Nat × Nat) :=
  (List.range rows).map (fun j => (((Int.ofNat base + Int.ofNat j * signed64 stride) % 2 ^ 64).toNat, len))

/-- With every range translated, go on; otherwise the operation waits with its walk held (R294). -/
def withSegs (x : State × Option (List (Nat × Nat))) (k : State → List (Nat × Nat) → State) : State :=
  match x.2 with
  | none => x.1
  | some l => k x.1 l

/-! ### COPY and FILL (R245, R247) -/

/-- The source is read whole before the destination is written, so overlapping ranges copy as through a buffer. -/
def State.copyRows (s : State) (sh k : Nat) (o : XferOp) (e : XferErr) (src dst : List (Nat × Nat)) : State :=
  withSegs (s.xlatRows sh o e 0 src) (fun s ls =>
    withSegs (s.xlatRows sh o e 1 dst) (fun s ld =>
      let r := s.readSegs (xferAcc sh o e) ls
      (r.1.writeSegs (xferAcc sh o e) ld r.2).opDone sh k))

/-- COPY; it also stands for an operation of a reserved OP, which is refused. -/
def State.doCopy (s : State) (sh k : Nat) (e : XferErr) : State :=
  match s.opNow sh k with
  | none => s
  | some o =>
    if opOf o ≠ 0 ∧ opOf o < 4 then s
    else if blockOpBad o then s.opRefuse sh k o 0x10
    else s.copyRows sh k o e (rowsOf (opSrc o) (opA o) (opRows o) (opLen o)) (rowsOf (opDst o) (opB o) (opRows o) (opLen o))

def execCopy (sh : Fin 12) (k : Nat) (hostErr : Option HostErr) (s : State) : Host.Outcome State Fault Refusal :=
  .next (s.doCopy sh k ⟨hostErr, false⟩)

/-- n bytes of a repeated 8-byte pattern. -/
def patternBytes (p n : Nat) : List PByte :=
  (List.range n).map (fun k => ⟨BitVec.ofNat 8 (p / 2 ^ (8 * (k % 8))), false⟩)

/-- FILL: the pattern starts anew in every row. -/
def State.doFill (s : State) (sh k : Nat) (e : XferErr) : State :=
  match s.opNow sh k with
  | none => s
  | some o =>
    if opOf o ≠ 1 then s
    else if blockOpBad o then s.opRefuse sh k o 0x10
    else
      withSegs (s.xlatRows sh o e 1 (rowsOf (opDst o) (opB o) (opRows o) (opLen o))) (fun s ld =>
        (s.writeSegs (xferAcc sh o e) ld
          ((List.range (opRows o)).flatMap (fun _ => patternBytes (opSrc o) (opLen o)))).opDone sh k)

def execFill (sh : Fin 12) (k : Nat) (s : State) : Host.Outcome State Fault Refusal := .next (s.doFill sh k ⟨none, false⟩)

/-! ### Millet (R241-R244) -/

def milletKind (o : XferOp) : Nat := cmdField o.op 0 11 8
def milletRet (o : XferOp) : Bool := cmdField o.op 0 12 12 == 1
def milletIdxBytes (o : XferOp) : Nat := if cmdField o.op 0 13 13 = 1 then 8 else 4
def milletS (o : XferOp) : Nat := cmdField o.op 0x30 31 0
def milletN (o : XferOp) : Nat := cmdField o.op 0x34 31 0

/-- The operation returns sectors. -/
def milletReturns (o : XferOp) : Bool := milletKind o == 0 || (decide (2 ≤ milletKind o) && milletRet o)

/-- The signed indices of a list of bytes. -/
def milletIndices (w : Nat) (n : Nat) (b : List Byte) : List Int :=
  (splitNats w n b).map (fun x => if w = 4 then (BitVec.ofNat 32 x).toInt else signed64 x)

/-- Add the lanes of w bytes, two's complement, wrapping. -/
def milletAdd (w : Nat) (old data : List Byte) : List Byte :=
  (List.range (32 / w)).flatMap (fun j =>
    leBytes w (leNat ((old.drop (w * j)).take w) + leNat ((data.drop (w * j)).take w)))

/-- A sector of zeros marked poisoned. -/
def deadSector : List PByte := List.replicate 32 ⟨0, true⟩

/-- One access of a Millet operation to the sector at a device address, with its data: the old value. -/
def State.milletAccess (s : State) (w : Accessor) (kind : Nat) (a : Nat) (data : List PByte) : State × List PByte :=
  let s0 := s.count 2 1
  if kind = 0 then s0.memRead w a 32
  else if kind = 1 then
    let m := s0.freeWord.toNat
    let cells := ((List.range 32).map (fun j => a + j)).zip data
    (((s0.useFree.memWriteCells w (cells.filter (fun p => bitAt m (p.1 - a)))).wrote a 32), [])
  else
    let r := s0.memRead w a 32
    let sum := milletAdd (if kind = 2 then 4 else 8) (vals r.2) (vals data)
    let bad := anyPoison r.2 || anyPoison data
    (r.1.memWrite w a (sum.map (fun b => ⟨b, bad⟩)), r.2)

/-- The detail of class 0x47 (R261). -/
def milletDetail (kind : Nat) (idx : Int) (pos : Nat) : Nat :=
  (idx % 2 ^ 64).toNat + ones 24 * 2 ^ 64 + ((if kind = 0 then 0 else 1) + 4) * 2 ^ 88 + pos % 2 ^ 32 * 2 ^ 96

/-- The sector that an index names: none when the index is out of range or its sector lies outside HBM; the Bool says
that it waits for its translation (R242, R294). -/
def State.milletSector (s : State) (sh : Nat) (o : XferOp) (e : XferErr) (i : Int) : State × Option Nat × Bool :=
  if i < 0 ∨ Int.ofNat (milletN o) ≤ i then (s, none, false)
  else
    let cva := (opB o + i.toNat * milletS o) % 2 ^ 64 / 32 * 32
    match s.translate e.host sh o.ctx.toNat cva (if milletKind o = 0 then 0 else 1) ⟨2, sh⟩ with
    | (s1, .ok dev _) => if s1.region dev = .hbm then (s1, some dev, false) else (s1, none, false)
    | (s1, _) => (s1, none, true)

/-- Resolve every index; the Bool says that one waits. -/
def State.milletSectors (s : State) (sh : Nat) (o : XferOp) (e : XferErr) : List Int → State × List (Option Nat) × Bool
  | [] => (s, [], false)
  | i :: t =>
    let r := s.milletSector sh o e i
    if r.2.2 then (r.1, [], true)
    else
      let q := r.1.milletSectors sh o e t
      (q.1, r.2.1 :: q.2.1, q.2.2)

/-- The us of MTIME that Millet accesses are counted in starts anew (R244). -/
def State.milletClock (s : State) : State :=
  if s.memCtl.milWindow = s.now / 1000 then s
  else { s with memCtl := { s.memCtl with milWindow := s.now / 1000, milUsed := [] } }

/-- The stack of an address serves one more Millet access in this us: at most CAP, of which values above 3,200 act as 3,200
(R244, R268). -/
def State.milletRoom (s : State) (a : Nat) : Bool :=
  decide (Tbl.get 0 s.memCtl.milUsed (s.hbmMap a).stack < min 3200 (s.fld .MIL_CFG_CAP 0))

/-- The stack of an address has served one. -/
def State.milletTake (s : State) (a : Nat) : State :=
  let k := (s.hbmMap a).stack
  { s with memCtl := { s.memCtl with milUsed := Tbl.put s.memCtl.milUsed k (Tbl.get 0 s.memCtl.milUsed k + 1) } }

/-- The accesses in index order (R243), as far as CAP lets them: the returned sectors, and how many have been done. -/
def State.milletRun (s : State) (w : Accessor) (kind : Nat) : List (Option Nat) → List PByte → State × List PByte × Nat
  | [], _ => (s, [], 0)
  | none :: t, d =>
    let q := s.milletRun w kind t (d.drop 32)
    (q.1, deadSector ++ q.2.1, q.2.2 + 1)
  | some a :: t, d =>
    if s.milletRoom a then
      let r := (s.milletTake a).milletAccess w kind a (d.take 32)
      let q := r.1.milletRun w kind t (d.drop 32)
      (q.1, r.2 ++ q.2.1, q.2.2 + 1)
    else (s, [], 0)

/-- The first index that is not performed raises class 0x47. -/
def State.milletReport (s : State) (sh : Nat) (o : XferOp) (idx : List Int) (secs : List (Option Nat)) : State :=
  match (List.range secs.length).find? (fun j => (secs.getD j (some 0)).isNone) with
  | none => s
  | some j => s.raiseCtx 0x47 o.ctx.toNat ⟨2, sh⟩ (milletDetail (milletKind o) (idx.getD j 0) j)

/-- Operation k keeps what is left of its Millet accesses. -/
def State.setWork (s : State) (sh k : Nat) (m : MilletWork) : State :=
  s.setEngine sh ((s.engine sh).modify k (fun o => { o with work := some m }))

/-- Go on with the accesses of a Millet operation; when all are done its results are written and it has been performed. -/
def State.milletGo (s : State) (sh k : Nat) (o : XferOp) (e : XferErr) (kind : Nat) (m : MilletWork) : State :=
  let w := xferAcc sh o e
  let run := s.milletClock.milletRun { w with millet := true } kind m.secs m.data
  let rest : MilletWork := ⟨m.secs.drop run.2.2, m.data.drop (32 * run.2.2), m.res ++ run.2.1⟩
  let s1 := run.1.setWork sh k rest
  if !rest.secs.isEmpty then s1
  else
    withSegs (if milletReturns o then s1.xlatRows sh o e 1 [(opDst o, 32 * opRows o)] else (s1, some [])) (fun s lres =>
      (if milletReturns o then s.writeSegs w lres rest.res else s).opDone sh k)

/-- The start of a Millet operation: its lists are read, and its indices checked and translated. -/
def State.milletStart (s : State) (sh : Nat) (o : XferOp) (e : XferErr) (kind : Nat) (go : State → MilletWork → State) : State :=
  let n := opRows o
  let w := xferAcc sh o e
  let iw := milletIdxBytes o
  withSegs (s.xlatRows sh o e 0 [(opSrc o, iw * n)]) (fun s li =>
    withSegs (if kind = 0 then (s, some []) else s.xlatRows sh o e 0 [(opA o, 32 * n)]) (fun s ldat =>
      let ri := s.readSegs w li
      let idx := milletIndices iw n (vals ri.2)
      let secs := ri.1.milletSectors sh o e idx
      if secs.2.2 then secs.1
      else
        let rd := secs.1.readSegs w ldat
        go (rd.1.milletReport sh o idx secs.2.1) ⟨secs.2.1, rd.2, []⟩))

/-- Perform a Millet operation of a kind, or as much of it as CAP lets it. -/
def State.doMillet (s : State) (sh k kind : Nat) (e : XferErr) : State :=
  match s.opNow sh k with
  | none => s
  | some o =>
    if opOf o ≠ 2 ∨ (milletKind o ≠ kind ∧ (kind ≠ 0 ∨ milletKind o < 4)) then s
    else if milletBad o then s.opRefuse sh k o 0x10
    else
      match o.work with
      | some m => s.milletGo sh k o e kind m
      | none => s.milletStart sh o e kind (fun s m => s.milletGo sh k o e kind m)

/-- READ; it also stands for an operation of a reserved MKIND, which is refused. -/
def execMilletRead (sh : Fin 12) (k : Nat) (hostErr : Option HostErr) (s : State) : Host.Outcome State Fault Refusal :=
  .next (s.doMillet sh k 0 ⟨hostErr, false⟩)

def execMilletWrite (sh : Fin 12) (k : Nat) (hostErr : Option HostErr) (s : State) : Host.Outcome State Fault Refusal :=
  .next (s.doMillet sh k 1 ⟨hostErr, false⟩)

def execMilletAdd32 (sh : Fin 12) (k : Nat) (hostErr : Option HostErr) (s : State) : Host.Outcome State Fault Refusal :=
  .next (s.doMillet sh k 2 ⟨hostErr, false⟩)

def execMilletAdd64 (sh : Fin 12) (k : Nat) (hostErr : Option HostErr) (s : State) : Host.Outcome State Fault Refusal :=
  .next (s.doMillet sh k 3 ⟨hostErr, false⟩)

/-! ### Digests (R437-R442) -/

def digMode (o : XferOp) : Nat := cmdField o.op 0x30 1 0
def digScope (o : XferOp) : Bool := cmdField o.op 0x30 2 2 == 1
def digLast (o : XferOp) : Bool := cmdField o.op 0x30 3 3 == 1
def digPidx (o : XferOp) : Nat := cmdField o.op 0x34 31 0
def digObjLen (o : XferOp) : Nat := cmdField o.op 0x38 63 0

/-- Bytes of a piece. -/
def pieceBytes : Nat := 2 ^ 20

/-- The offset of the first field that breaks the rules of R439. -/
def digestBad (o : XferOp) : Option Nat :=
  let m := digMode o
  let piece := decide (m < 2)
  (([(opReserved o && cmdField o.op 0xC 31 0 == 0, 0), (opRows o != 1, 4),
     (piece && !(digLast o) && opLen o % pieceBytes != 0, 8),
     (m == 2 && opLen o != 32 * ((digObjLen o + pieceBytes - 1) / pieceBytes), 8), (m == 3 && opLen o != 192, 8),
     (cmdField o.op 0xC 31 0 != 0, 0xC), (!piece && opSrc o % 32 != 0, 0x10), (m == 0 && opDst o != 0, 0x18),
     (!piece && opDst o % 32 != 0, 0x18), (opA o != 0, 0x20), (piece && opB o % 32 != 0, 0x28),
     (cmdField o.op 0x30 31 4 != 0, 0x30), (m != 2 && digObjLen o != 0, 0x38)] : List (Bool × Nat)).find? (·.1)).map (·.2)

/-- A digest operation that breaks a rule: class 0x81, and its command faults with that cause (R439, R443). -/
def State.digestRefuse (s : State) (sh k : Nat) (o : XferOp) (off : Nat) : State :=
  (s.raiseCtx 0x81 o.ctx.toNat ⟨2, sh⟩ (o.idx % 2 ^ 32 + off * 2 ^ 32)).opRefuse sh k o 0x81

/-- The pieces of a list of bytes: 1 MiB each, the last one shorter. -/
def digestPieces : Nat → List PByte → List (List PByte)
  | 0, _ => []
  | fuel + 1, b => if b.isEmpty then [] else b.take pieceBytes :: digestPieces fuel (b.drop pieceBytes)

/-- A hash as bytes; the hash of poisoned data is marked poisoned (DESIGN CHOICE: notes/assumptions/33.md). -/
def hashOf (b : List PByte) : List PByte := (sha256 (vals b)).map (fun x => ⟨x, anyPoison b⟩)

/-- PIECE and PIECE_COPY: hash the pieces, write h_i at HADDR + 32 i, and copy the same bytes. -/
def State.digestRange (s : State) (sh k : Nat) (o : XferOp) (e : XferErr) (copy : Bool) : State :=
  let n := (opLen o + pieceBytes - 1) / pieceBytes
  let w := xferAcc sh o e
  withSegs (s.xlatRows sh o e 0 [(opSrc o, opLen o)]) (fun s ls =>
    withSegs (if copy then s.xlatRows sh o e 1 [(opDst o, opLen o)] else (s, some [])) (fun s ld =>
      withSegs (s.xlatRows sh o e 1 [(opB o + 32 * digPidx o, 32 * n)]) (fun s lh =>
        let r := s.readSegs w ls
        let s1 := if copy then r.1.writeSegs w ld r.2 else r.1
        (s1.writeSegs w lh ((digestPieces n r.2).flatMap hashOf)).opDone sh k)))

/-- FINAL: D is the hash of the hash array and of L as 8 little-endian bytes (R437). -/
def State.digestFinal (s : State) (sh k : Nat) (o : XferOp) (e : XferErr) : State :=
  let w := xferAcc sh o e
  withSegs (s.xlatRows sh o e 0 [(opSrc o, opLen o)]) (fun s ls =>
    withSegs (s.xlatRows sh o e 1 [(opDst o, 32)]) (fun s ld =>
      let r := s.readSegs w ls
      (r.1.writeSegs w ld (hashOf (r.2 ++ clean (leBytes 8 (digObjLen o))))).opDone sh k))

/-- The fingerprint of a scope (R442). -/
def State.scopePrint (s : State) (time : Bool) : List Byte :=
  let f := s.fingerprint
  if time then f
  else (List.range 32).map (fun k =>
    if k = 4 ∨ 16 ≤ k ∨ (8 ≤ k ∧ s.flag .MGT_DET_CTRL_PORTABLE 0) then 0 else f.getD k 0)

/-- PROV: the preimage with the fingerprint in it is hashed; one whose FPRINT bytes are not zero is refused (R440). -/
def State.digestProv (s : State) (sh k : Nat) (o : XferOp) (e : XferErr) : State :=
  let w := xferAcc sh o e
  withSegs (s.xlatRows sh o e 0 [(opSrc o, 192)]) (fun s ls =>
    withSegs (s.xlatRows sh o e 1 [(opDst o, 32)]) (fun s ld =>
      let r := s.readSegs w ls
      if leNat (vals ((r.2.drop 0x20).take 32)) ≠ 0 then r.1.digestRefuse sh k o 0x20
      else
        let pre := r.2.take 0x20 ++ clean (r.1.scopePrint (digScope o)) ++ r.2.drop 0x40
        (r.1.writeSegs w ld (hashOf pre)).opDone sh k))

/-- Perform a digest operation of a mode. -/
def State.doDigest (s : State) (sh k mode : Nat) (e : XferErr) : State :=
  match s.opNow sh k with
  | none => s
  | some o =>
    if opOf o ≠ 3 ∨ digMode o ≠ mode then s
    else
      match digestBad o with
      | some off => s.digestRefuse sh k o off
      | none =>
        if mode = 2 then s.digestFinal sh k o e
        else if mode = 3 then s.digestProv sh k o e
        else s.digestRange sh k o e (mode == 1)

def execDigestPiece (sh : Fin 12) (k : Nat) (hostErr : Option HostErr) (s : State) : Host.Outcome State Fault Refusal :=
  .next (s.doDigest sh k 0 ⟨hostErr, false⟩)

def execDigestPieceCopy (sh : Fin 12) (k : Nat) (hostErr : Option HostErr) (s : State) : Host.Outcome State Fault Refusal :=
  .next (s.doDigest sh k 1 ⟨hostErr, false⟩)

def execDigestFinal (sh : Fin 12) (k : Nat) (hostErr : Option HostErr) (s : State) : Host.Outcome State Fault Refusal :=
  .next (s.doDigest sh k 2 ⟨hostErr, false⟩)

def execDigestProv (sh : Fin 12) (k : Nat) (hostErr : Option HostErr) (s : State) : Host.Outcome State Fault Refusal :=
  .next (s.doDigest sh k 3 ⟨hostErr, false⟩)

/-! ### Completion, and far memory (R247, R255) -/

/-- An operation whose writes have been acknowledged completes: it leaves the engine, and its command has one fewer
open. -/
def State.doOpComplete (s : State) (sh k : Nat) : State :=
  match (s.engine sh)[k]? with
  | none => s
  | some o => if s.ready && o.performed then (s.opLeave sh k).opClosed o.ring.toNat o.pos else s

def execTransferOperationComplete (sh : Fin 12) (k : Nat) (s : State) : Host.Outcome State Fault Refusal :=
  .next (s.doOpComplete sh k)

/-- The rows that an operation reads (false) and writes (true). -/
def opRanges (o : XferOp) : List (Nat × Nat × Bool) :=
  let rd := fun (l : List (Nat × Nat)) => l.map (fun p => (p.1, p.2, false))
  let wr := fun (l : List (Nat × Nat)) => l.map (fun p => (p.1, p.2, true))
  match opOf o with
  | 1 => wr (rowsOf (opDst o) (opB o) (opRows o) (opLen o))
  | 2 =>
    rd [(opSrc o, milletIdxBytes o * opRows o)] ++ rd (if milletKind o = 0 then [] else [(opA o, 32 * opRows o)]) ++
      wr (if milletReturns o then [(opDst o, 32 * opRows o)] else [])
  | 3 =>
    rd [(opSrc o, opLen o)] ++
      wr (if digMode o < 2 then [(opB o + 32 * digPidx o, 32 * ((opLen o + pieceBytes - 1) / pieceBytes))] else []) ++
      wr (if digMode o = 0 then [] else [(opDst o, if digMode o = 1 then opLen o else 32)])
  | _ => rd (rowsOf (opSrc o) (opA o) (opRows o) (opLen o)) ++ wr (rowsOf (opDst o) (opB o) (opRows o) (opLen o))

/-- The operation touches far memory. -/
def State.opFar (s : State) (o : XferOp) : Bool :=
  (opRanges o).any (fun p => (piecesOf (pagesOf p.2.1) p.1 p.2.1).any (fun q =>
    match s.walk o.ctx.toNat q.1 p.2.2 with
    | .ok dev _ _ _ _ => (match s.region dev with
      | .far _ => true
      | _ => false)
    | .fault _ _ _ => false))

/-- Perform the operation with far memory silent: its far reads give poisoned zeros, its far writes are dropped, each access with
class 0x46. -/
def State.doFarTimeout (s : State) (sh k : Nat) : State :=
  match s.opNow sh k with
  | none => s
  | some o =>
    if s.opFar o then
      match opOf o with
      | 1 => s.doFill sh k ⟨none, true⟩
      | 2 => s.doMillet sh k (milletKind o) ⟨none, true⟩
      | 3 => s.doDigest sh k (digMode o) ⟨none, true⟩
      | _ => s.doCopy sh k ⟨none, true⟩
    else s

/-- The next far access of a link engine gets no completion; the model makes a link engine's access in one step, so its timeout
comes before it (DESIGN CHOICE: notes/assumptions/144.md). -/
def State.linkFarTimeout (s : State) (p : Fin 8) : State :=
  { s with memCtl := { s.memCtl with farLate := s.memCtl.farLate ||| (1#8 <<< p.val) } }

def execFarMemoryTimeout (w : FarWaiter) (s : State) : Host.Outcome State Fault Refusal :=
  .next (match w with
    | .engine sh k => s.doFarTimeout sh.val k
    | .link p => if s.ready then s.linkFarTimeout p else s)

/-- The expansion link goes down: no rate, and LINK_DOWN is set; far accesses fail from now on with class 0x46 (R255,
R269). -/
def State.doFarDown (s : State) : State :=
  if s.ready && s.fld .FAR_STATUS_RATE 0 != 0 then
    (s.setFld .FAR_STATUS_RATE 0 0).setFlag .FAR_STATUS_LINK_DOWN 0 true
  else s

def execFarLinkDown (s : State) : Host.Outcome State Fault Refusal := .next s.doFarDown

end Sys2Proof.Machine
end

