-- ==== Sys2Proof/Machine/Dispatch.lean ====
section
/-! DEFINITION. One arm per command: its meaning, or its rejection by name. -/

namespace Sys2Proof.Machine

def exec (i : Instr) (s : State) : Host.Outcome State Fault Refusal :=
  match i with
  | .registerWrite org off width val => Sys2Proof.Machine.execRegisterWrite org off width val s
  | .latchedLowerWrite org off val => Sys2Proof.Machine.execLatchedLowerWrite org off val s
  | .nop sh n => Sys2Proof.Machine.execNop sh n s
  | .endReplay sh n => Sys2Proof.Machine.execEndReplay sh n s
  | .replayComplete sh n => Sys2Proof.Machine.execReplayComplete sh n s
  | .loop sh n => Sys2Proof.Machine.execLoop sh n s
  | .endl sh n => Sys2Proof.Machine.execEndl sh n s
  | .pset sh n => Sys2Proof.Machine.execPset sh n s
  | .padd sh n => Sys2Proof.Machine.execPadd sh n s
  | .pcpy sh n => Sys2Proof.Machine.execPcpy sh n s
  | .agset sh n => Sys2Proof.Machine.execAgset sh n s
  | .wait sh n => Sys2Proof.Machine.execWait sh n s
  | .signal sh n => Sys2Proof.Machine.execSignal sh n s
  | .fence sh n => Sys2Proof.Machine.execFence sh n s
  | .ld sh n => Sys2Proof.Machine.execLd sh n s
  | .st sh n => Sys2Proof.Machine.execSt sh n s
  | .ldUnitMove sh n q => Sys2Proof.Machine.execLdUnitMove sh n q s
  | .stUnitMove sh n => Sys2Proof.Machine.execStUnitMove sh n s
  | .mm sh n => Sys2Proof.Machine.execMm sh n s
  | .mmPassIssue sh n arr err => Sys2Proof.Machine.execMmPassIssue sh n arr err s
  | .passAccumulationComplete sh n arr err => Sys2Proof.Machine.execPassAccumulationComplete sh n arr err s
  | .tileDrain sh n arr err => Sys2Proof.Machine.execTileDrain sh n arr err s
  | .gangCmpWrite sh n org gang cmp => Sys2Proof.Machine.execGangCmpWrite sh n org gang cmp s
  | .maStallClr sh n => Sys2Proof.Machine.execMaStallClr sh n s
  | .fadd sh n => Sys2Proof.Machine.execFadd sh n s
  | .fsub sh n => Sys2Proof.Machine.execFsub sh n s
  | .fmul sh n => Sys2Proof.Machine.execFmul sh n s
  | .fma sh n => Sys2Proof.Machine.execFma sh n s
  | .fmin sh n => Sys2Proof.Machine.execFmin sh n s
  | .fmax sh n => Sys2Proof.Machine.execFmax sh n s
  | .fabs sh n => Sys2Proof.Machine.execFabs sh n s
  | .fneg sh n => Sys2Proof.Machine.execFneg sh n s
  | .fsgn sh n => Sys2Proof.Machine.execFsgn sh n s
  | .fcmp sh n => Sys2Proof.Machine.execFcmp sh n s
  | .sel sh n => Sys2Proof.Machine.execSel sh n s
  | .cvt sh n => Sys2Proof.Machine.execCvt sh n s
  | .rcp sh n => Sys2Proof.Machine.execRcp sh n s
  | .sqrt sh n => Sys2Proof.Machine.execSqrt sh n s
  | .rsqrt sh n => Sys2Proof.Machine.execRsqrt sh n s
  | .exp sh n => Sys2Proof.Machine.execExp sh n s
  | .exp2 sh n => Sys2Proof.Machine.execExp2 sh n s
  | .log sh n => Sys2Proof.Machine.execLog sh n s
  | .log2 sh n => Sys2Proof.Machine.execLog2 sh n s
  | .tanh sh n => Sys2Proof.Machine.execTanh sh n s
  | .sigm sh n => Sys2Proof.Machine.execSigm sh n s
  | .iadd sh n => Sys2Proof.Machine.execIadd sh n s
  | .isub sh n => Sys2Proof.Machine.execIsub sh n s
  | .imin sh n => Sys2Proof.Machine.execImin sh n s
  | .imax sh n => Sys2Proof.Machine.execImax sh n s
  | .and sh n => Sys2Proof.Machine.execAnd sh n s
  | .or sh n => Sys2Proof.Machine.execOr sh n s
  | .xor sh n => Sys2Proof.Machine.execXor sh n s
  | .shl sh n => Sys2Proof.Machine.execShl sh n s
  | .shr sh n => Sys2Proof.Machine.execShr sh n s
  | .wadd sh n => Sys2Proof.Machine.execWadd sh n s
  | .wcvt sh n => Sys2Proof.Machine.execWcvt sh n s
  | .rsum sh n => Sys2Proof.Machine.execRsum sh n s
  | .rsumsq sh n => Sys2Proof.Machine.execRsumsq sh n s
  | .rmax sh n => Sys2Proof.Machine.execRmax sh n s
  | .rmaxabs sh n => Sys2Proof.Machine.execRmaxabs sh n s
  | .mand sh n => Sys2Proof.Machine.execMand sh n s
  | .mor sh n => Sys2Proof.Machine.execMor sh n s
  | .mxor sh n => Sys2Proof.Machine.execMxor sh n s
  | .mnot sh n => Sys2Proof.Machine.execMnot sh n s
  | .vgath sh n => Sys2Proof.Machine.execVgath sh n s
  | .vectorChunkIssue sh n => Sys2Proof.Machine.execVectorChunkIssue sh n s
  | .statisticRecordWrite sh n => Sys2Proof.Machine.execStatisticRecordWrite sh n s
  | .veStallClr sh n => Sys2Proof.Machine.execVeStallClr sh n s
  | .watchdogExpiry sh n => Sys2Proof.Machine.execWatchdogExpiry sh n s
  | .halt sh n => Sys2Proof.Machine.execHalt sh n s
  | .step sh n => Sys2Proof.Machine.execStep sh n s
  | .resume sh n => Sys2Proof.Machine.execResume sh n s
  | .paramWrite sh n k val => Sys2Proof.Machine.execParamWrite sh n k val s
  | .breakRegisterWrite sh n org reg val => Sys2Proof.Machine.execBreakRegisterWrite sh n org reg val s
  | .glumeSignalApply pid n => Sys2Proof.Machine.execGlumeSignalApply pid n s
  | .waitSatisfied w => Sys2Proof.Machine.execWaitSatisfied w s
  | .waitTimeout w => Sys2Proof.Machine.execWaitTimeout w s
  | .glumeAllocate org pid ctx => Sys2Proof.Machine.execGlumeAllocate org pid ctx s
  | .glumeFreeze org pid => Sys2Proof.Machine.execGlumeFreeze org pid s
  | .glumeFree org pid => Sys2Proof.Machine.execGlumeFree org pid s
  | .glumeRead org pid => Sys2Proof.Machine.execGlumeRead org pid s
  | .xlatInval org ctx all vid => Sys2Proof.Machine.execXlatInval org ctx all vid s
  | .hostSignal c vid => Sys2Proof.Machine.execHostSignal c vid s
  | .glumeValueRead c => Sys2Proof.Machine.execGlumeValueRead c s
  | .notifyArm c vid => Sys2Proof.Machine.execNotifyArm c vid s
  | .notifyFire c => Sys2Proof.Machine.execNotifyFire c s
  | .barrierSlotConfig org slot reg val => Sys2Proof.Machine.execBarrierSlotConfig org slot reg val s
  | .barrierArrive slot => Sys2Proof.Machine.execBarrierArrive slot s
  | .arrivalToken port hdr slot round stretch => Sys2Proof.Machine.execArrivalToken port hdr slot round stretch s
  | .releaseToken port hdr slot round t stretch => Sys2Proof.Machine.execReleaseToken port hdr slot round t stretch s
  | .barrierRelease slot => Sys2Proof.Machine.execBarrierRelease slot s
  | .barrierRoundTimeout slot => Sys2Proof.Machine.execBarrierRoundTimeout slot s
  | .commandFetch ring hostErr => Sys2Proof.Machine.execCommandFetch ring hostErr s
  | .doorbellSnoop ring hostErr => Sys2Proof.Machine.execDoorbellSnoop ring hostErr s
  | .doorbellPoll ring hostErr => Sys2Proof.Machine.execDoorbellPoll ring hostErr s
  | .ringEnable org ring => Sys2Proof.Machine.execRingEnable org ring s
  | .commandNop ring => Sys2Proof.Machine.execCommandNop ring s
  | .run ring hostErr => Sys2Proof.Machine.execRun ring hostErr s
  | .xfer ring hostErr => Sys2Proof.Machine.execXfer ring hostErr s
  | .commandComplete ring pos => Sys2Proof.Machine.execCommandComplete ring pos s
  | .ringCancel org ring upto => Sys2Proof.Machine.execRingCancel org ring upto s
  | .cancelledRetire ring => Sys2Proof.Machine.execCancelledRetire ring s
  | .ringResume org ring => Sys2Proof.Machine.execRingResume org ring s
  | .translationResume c => Sys2Proof.Machine.execTranslationResume c s
  | .tlbInval c all cva => Sys2Proof.Machine.execTlbInval c all cva s
  | .contextEnable org c en => Sys2Proof.Machine.execContextEnable org c en s
  | .contextReset c => Sys2Proof.Machine.execContextReset c s
  | .functionLevelReset c => Sys2Proof.Machine.execFunctionLevelReset c s
  | .contextResetDone c => Sys2Proof.Machine.execContextResetDone c s
  | .msixMessage c vec => Sys2Proof.Machine.execMsixMessage c vec s
  | .copy sh k hostErr => Sys2Proof.Machine.execCopy sh k hostErr s
  | .fill sh k => Sys2Proof.Machine.execFill sh k s
  | .milletRead sh k hostErr => Sys2Proof.Machine.execMilletRead sh k hostErr s
  | .milletWrite sh k hostErr => Sys2Proof.Machine.execMilletWrite sh k hostErr s
  | .milletAdd32 sh k hostErr => Sys2Proof.Machine.execMilletAdd32 sh k hostErr s
  | .milletAdd64 sh k hostErr => Sys2Proof.Machine.execMilletAdd64 sh k hostErr s
  | .digestPiece sh k hostErr => Sys2Proof.Machine.execDigestPiece sh k hostErr s
  | .digestPieceCopy sh k hostErr => Sys2Proof.Machine.execDigestPieceCopy sh k hostErr s
  | .digestFinal sh k hostErr => Sys2Proof.Machine.execDigestFinal sh k hostErr s
  | .digestProv sh k hostErr => Sys2Proof.Machine.execDigestProv sh k hostErr s
  | .transferOperationComplete sh k => Sys2Proof.Machine.execTransferOperationComplete sh k s
  | .farMemoryTimeout w => Sys2Proof.Machine.execFarMemoryTimeout w s
  | .farLinkDown => Sys2Proof.Machine.execFarLinkDown s
  | .scrubRead sector found newer => Sys2Proof.Machine.execScrubRead sector found newer s
  | .goSoft org val => Sys2Proof.Machine.execGoSoft org val s
  | .goHard org val => Sys2Proof.Machine.execGoHard org val s
  | .hbmRepairDone ok => Sys2Proof.Machine.execHbmRepairDone ok s
  | .hbmRetire org page => Sys2Proof.Machine.execHbmRetire org page s
  | .hbmRetireClr org => Sys2Proof.Machine.execHbmRetireClr org s
  | .regionWrite org mirror val => Sys2Proof.Machine.execRegionWrite org mirror val s
  | .ucieModuleLost p m => Sys2Proof.Machine.execUcieModuleLost p m s
  | .markerReceive p ch word gap corr uncorr => Sys2Proof.Machine.execMarkerReceive p ch word gap corr uncorr s
  | .slotReceive p control seq bad units => Sys2Proof.Machine.execSlotReceive p control seq bad units s
  | .lcfReceive p bytes => Sys2Proof.Machine.execLcfReceive p bytes s
  | .channelFail p ch lostLock => Sys2Proof.Machine.execChannelFail p ch lostLock s
  | .channelSymbolRateFail p ch => Sys2Proof.Machine.execChannelSymbolRateFail p ch s
  | .laserFail p ch => Sys2Proof.Machine.execLaserFail p ch s
  | .pauseGo org p => Sys2Proof.Machine.execPauseGo org p s
  | .pauseExpire p => Sys2Proof.Machine.execPauseExpire p s
  | .pauseLimit p => Sys2Proof.Machine.execPauseLimit p s
  | .portStateAdvance p view => Sys2Proof.Machine.execPortStateAdvance p view s
  | .lcfTimeout p => Sys2Proof.Machine.execLcfTimeout p s
  | .autoRetrain p g => Sys2Proof.Machine.execAutoRetrain p g s
  | .retrain org p g => Sys2Proof.Machine.execRetrain org p g s
  | .portEnableWrite org p en => Sys2Proof.Machine.execPortEnableWrite org p en s
  | .channelFuse org p rx => Sys2Proof.Machine.execChannelFuse org p rx s
  | .packetInject flow => Sys2Proof.Machine.execPacketInject flow s
  | .packetForward inp buf => Sys2Proof.Machine.execPacketForward inp buf s
  | .escapeMove inp buf => Sys2Proof.Machine.execEscapeMove inp buf s
  | .agingServe inp buf => Sys2Proof.Machine.execAgingServe inp buf s
  | .write p hdr payload => Sys2Proof.Machine.execWrite p hdr payload s
  | .stream p hdr payload => Sys2Proof.Machine.execStream p hdr payload s
  | .readReq p hdr payload => Sys2Proof.Machine.execReadReq p hdr payload s
  | .readResp p hdr payload => Sys2Proof.Machine.execReadResp p hdr payload s
  | .remoteSignal p hdr payload => Sys2Proof.Machine.execRemoteSignal p hdr payload s
  | .remoteSignalRelease flow => Sys2Proof.Machine.execRemoteSignalRelease flow s
  | .ack p hdr payload => Sys2Proof.Machine.execAck p hdr payload s
  | .nak p hdr payload => Sys2Proof.Machine.execNak p hdr payload s
  | .unreach p hdr payload => Sys2Proof.Machine.execUnreach p hdr payload s
  | .line p hdr payload => Sys2Proof.Machine.execLine p hdr payload s
  | .ackTimer flow => Sys2Proof.Machine.execAckTimer flow s
  | .gapTimeout flow => Sys2Proof.Machine.execGapTimeout flow s
  | .rtoExpire flow => Sys2Proof.Machine.execRtoExpire flow s
  | .flowRead org rx flow => Sys2Proof.Machine.execFlowRead org rx flow s
  | .flowOpen org rx flow => Sys2Proof.Machine.execFlowOpen org rx flow s
  | .flowClose org rx flow => Sys2Proof.Machine.execFlowClose org rx flow s
  | .groupArm org g => Sys2Proof.Machine.execGroupArm org g s
  | .groupDisarm org g => Sys2Proof.Machine.execGroupDisarm org g s
  | .chunkEnter sh n q resid => Sys2Proof.Machine.execChunkEnter sh n q resid s
  | .colPartial p hdr payload resid => Sys2Proof.Machine.execColPartial p hdr payload resid s
  | .colFinal p hdr payload => Sys2Proof.Machine.execColFinal p hdr payload s
  | .colExp p hdr payload => Sys2Proof.Machine.execColExp p hdr payload s
  | .colRow p hdr payload => Sys2Proof.Machine.execColRow p hdr payload s
  | .routeRecord sh n q => Sys2Proof.Machine.execRouteRecord sh n q s
  | .laneEnd sh n q => Sys2Proof.Machine.execLaneEnd sh n q s
  | .modeWrite org strict portable => Sys2Proof.Machine.execModeWrite org strict portable s
  | .evtClr org => Sys2Proof.Machine.execEvtClr org s
  | .stretchApply => Sys2Proof.Machine.execStretchApply s
  | .d2dLaneRepair d lane => Sys2Proof.Machine.execD2dLaneRepair d lane s
  | .map org sh n => Sys2Proof.Machine.execMap org sh n s
  | .fuse org sh => Sys2Proof.Machine.execFuse org sh s
  | .renumber org sh => Sys2Proof.Machine.execRenumber org sh s
  | .fenceSheaf org sh => Sys2Proof.Machine.execFenceSheaf org sh s
  | .mirrorEnable org val => Sys2Proof.Machine.execMirrorEnable org val s
  | .mirrorSync => Sys2Proof.Machine.execMirrorSync s
  | .mirrorSyncComplete => Sys2Proof.Machine.execMirrorSyncComplete s
  | .mirrorBlockCommit block => Sys2Proof.Machine.execMirrorBlockCommit block s
  | .neighbourLost => Sys2Proof.Machine.execNeighbourLost s
  | .flowTrim org flow => Sys2Proof.Machine.execFlowTrim org flow s
  | .flowSkip org flow skip => Sys2Proof.Machine.execFlowSkip org flow skip s
  | .logReplay org flow => Sys2Proof.Machine.execLogReplay org flow s
  | .marginMeasure readings => Sys2Proof.Machine.execMarginMeasure readings s
  | .auxRise addr => Sys2Proof.Machine.execAuxRise addr s
  | .auxLost => Sys2Proof.Machine.execAuxLost s
  | .auxReturn => Sys2Proof.Machine.execAuxReturn s
  | .inputOvervoltage => Sys2Proof.Machine.execInputOvervoltage s
  | .holdupExpire => Sys2Proof.Machine.execHoldupExpire s
  | .mainRelease => Sys2Proof.Machine.execMainRelease s
  | .startupStep found guests => Sys2Proof.Machine.execStartupStep found guests s
  | .brownoutHold => Sys2Proof.Machine.execBrownoutHold s
  | .brownoutResume lowest => Sys2Proof.Machine.execBrownoutResume lowest s
  | .holdLimit => Sys2Proof.Machine.execHoldLimit s
  | .orderlyShutdown => Sys2Proof.Machine.execOrderlyShutdown s
  | .mainOn org => Sys2Proof.Machine.execMainOn org s
  | .off org => Sys2Proof.Machine.execOff org s
  | .moduleReset org => Sys2Proof.Machine.execModuleReset org s
  | .perstAssert => Sys2Proof.Machine.execPerstAssert s
  | .perstDeassert cxl bar2 hdmBase hdmSize => Sys2Proof.Machine.execPerstDeassert cxl bar2 hdmBase hdmSize s
  | .holdoverEnter => Sys2Proof.Machine.execHoldoverEnter s
  | .holdoverExit => Sys2Proof.Machine.execHoldoverExit s
  | .mtimeSet org val => Sys2Proof.Machine.execMtimeSet org val s
  | .clockPlanWrite org mhz => Sys2Proof.Machine.execClockPlanWrite org mhz s
  | .clockChange => Sys2Proof.Machine.execClockChange s
  | .vloopAdjust sh slackPs => Sys2Proof.Machine.execVloopAdjust sh slackPs s
  | .powerCapCheck avg1ms avg100us => Sys2Proof.Machine.execPowerCapCheck avg1ms avg100us s
  | .thermalCheck readings => Sys2Proof.Machine.execThermalCheck readings s
  | .laserBiasAdjust p ch reaches => Sys2Proof.Machine.execLaserBiasAdjust p ch reaches s
  | .enter org => Sys2Proof.Machine.execEnter org s
  | .wake org => Sys2Proof.Machine.execWake org s
  | .dormantWake cause => Sys2Proof.Machine.execDormantWake cause s
  | .ageingRecord kind unit value => Sys2Proof.Machine.execAgeingRecord kind unit value s
  | .telemetrySample source => Sys2Proof.Machine.execTelemetrySample source s
  | .obsClr sh n => Sys2Proof.Machine.execObsClr sh n s
  | .settimeBroadcast tr body => Sys2Proof.Machine.execSettimeBroadcast tr body s
  | .settimeDirected tr body => Sys2Proof.Machine.execSettimeDirected tr body s
  | .peerQuery org node => Sys2Proof.Machine.execPeerQuery org node s
  | .peerQueryResponse body => Sys2Proof.Machine.execPeerQueryResponse body s
  | .peerQueryTimeout => Sys2Proof.Machine.execPeerQueryTimeout s
  | .pldmEffecterWrite eid off val => Sys2Proof.Machine.execPldmEffecterWrite eid off val s
  | .firmwareTransfer version done sigOk => Sys2Proof.Machine.execFirmwareTransfer version done sigOk s
  | .viewCompare views => Sys2Proof.Machine.execViewCompare views s
  | .auditFlush => Sys2Proof.Machine.execAuditFlush s
  | .clear org => Sys2Proof.Machine.execClear org s
  | .presenceOpen => Sys2Proof.Machine.execPresenceOpen s
  | .presenceClose => Sys2Proof.Machine.execPresenceClose s
  | .activate org => Sys2Proof.Machine.execActivate org s
  | .confirm org => Sys2Proof.Machine.execConfirm org s
  | .raise org => Sys2Proof.Machine.execRaise org s
  | .firmwareRevert => Sys2Proof.Machine.execFirmwareRevert s
  | .unlock org => Sys2Proof.Machine.execUnlock org s
  | .lock org => Sys2Proof.Machine.execLock org s
  | .jtagInstruction ir => Sys2Proof.Machine.execJtagInstruction ir s
  | .seatedRelease => Sys2Proof.Machine.execSeatedRelease s
  | .brownoutBeforeReady => Sys2Proof.Machine.execBrownoutBeforeReady s
  | .guestLost p => Sys2Proof.Machine.execGuestLost p s
  | .rackrefReturn count => Sys2Proof.Machine.execRackrefReturn count s
  | .linkFrame p => Sys2Proof.Machine.execLinkFrame p s
  | .bar2Write viaCxl addr bytes => Sys2Proof.Machine.execBar2Write viaCxl addr bytes s
  | .glumeAdminComplete => Sys2Proof.Machine.execGlumeAdminComplete s
  | .xlatInvalComplete => Sys2Proof.Machine.execXlatInvalComplete s
  | .tlbInvalComplete c => Sys2Proof.Machine.execTlbInvalComplete c s
  | .spareMapComplete sh => Sys2Proof.Machine.execSpareMapComplete sh s
  | .logReplayComplete => Sys2Proof.Machine.execLogReplayComplete s
  | .dormantEntryComplete => Sys2Proof.Machine.execDormantEntryComplete s

end Sys2Proof.Machine
end

