-- ==== Sys2Proof/Machine/Tick.lean ====
section
/-! DEFINITION. One RACKREF edge, 10 ns of MTIME (R493, R494): what passes with time whatever is commanded. MTIME, the
controller's clock, the idle causes and waits of every Tiller (R113, R129, R522), the watchdog (R174), records and packets
that wait, and the scrub period (R250). -/

namespace Sys2Proof.Machine

/-! ### MTIME (R493, R494) -/

/-- One ns of slew in each 10 us of the RACKREF count: 100 ppm. -/
def slewStep (count m : Nat) : Nat :=
  if count % 10000 = 0 then (if m < count then 11 else if count < m then 9 else 10) else 10

/-- MTIME at the next edge. A value that waits for its edge is taken, rounded down to 10 ns; while main is off MTIME stands
unless it has been set. -/
def State.edge (s : State) : State :=
  match s.power.mtimeSet with
  | some (n, v) =>
    if n ≤ 1 then
      ({ s with power := { s.power with mtimeSet := none } } : State).setFld .PWR_MTIME_MTIME 0 (v.toNat / 10 * 10)
    else
      ({ s with power := { s.power with mtimeSet := some (n - 1, v) } } : State).setFld .PWR_MTIME_MTIME 0 (s.now + 10)
  | none =>
    if s.fld .PWR_STATUS_STATE 0 = 0 && !s.power.settime then s
    else
      match s.power.slew with
      | some c =>
        ({ s with power := { s.power with slew := some (c + 10) } } : State).setFld .PWR_MTIME_MTIME 0 (s.now + slewStep c s.now)
      | none => s.setFld .PWR_MTIME_MTIME 0 (s.now + 10)

/-- The controller's clock. -/
def State.mgtEdge (s : State) : State :=
  if s.power.auxGood || s.power.vinGood then { s with power := { s.power with clock := s.power.clock + 10 } } else s

/-- The ck_core cycles of the next 10 ns: edges fall on whole multiples of the period (R584). -/
def State.coreCycles (s : State) : Nat :=
  let f := s.fld .PWR_CLK_PLAN_FREQ_NOW_MHZ 0
  (s.now + 10) * f / 1000 - s.now * f / 1000

/-! ### Where a Tiller's cycles go (R522) -/

/-- The next chunk of the instruction at the head of the vector engine: its first element and its size. -/
def chunkAt (i : Inst) : Nat × Nat :=
  let e := encOf i.word
  let c := chunkSize e i.conv
  (i.done * c, min c (veE e - i.done * c))

/-- The vector engine's head, when it takes steps. -/
def State.vecHead (s : State) (t : Nat) : Option Inst := s.unitStep t vectorUnit

/-- A condition of the vector engine's head. -/
def State.vecIs (s : State) (t : Nat) (p : Inst → Enc → Nat → Nat → Bool) : Bool :=
  (s.vecHead t).any (fun i => p i (encOf i.word) (chunkAt i).1 (chunkAt i).2)

/-- The vector engine can issue its next chunk. -/
def State.vecIssues (s : State) (t : Nat) : Bool := s.vecIs t (fun i e e0 n => s.chunkReady t i e e0 n)

/-- A condition of the matrix instruction at the head of a pass unit. -/
def State.arrIs (s : State) (t : Nat) (p : Inst → Enc → List Nat → Nat → Bool) : Bool :=
  (List.range 4).any (fun a => (s.unitStep t a).any (fun i => p i (encOf i.word) (gangArrays (s.gang t) a) a))

/-- An array can issue its next pass. -/
def State.passIssues (s : State) (t : Nat) : Bool :=
  s.arrIs t (fun i e arrs a =>
    match (s.til t).feeder a with
    | slot :: _ => (s.til t).passReady e (passPos e i.done) slot arrs
    | [] => false)

/-- The operands of the vector engine's head that wait. -/
def State.vecWaits (s : State) (t : Nat) (src : Nat → Bool) : Bool :=
  s.vecIs t (fun i e e0 n => (dataOperands e).any (fun o =>
    src (opIdx o) && !((s.til t).sourceReady (srcShape e i.conv 0) o e0 n)))

/-- The head entry of the tile queue is not there: for a vector instruction, or for an ST. -/
def State.tileWaits (s : State) (t : Nat) : Bool :=
  s.vecWaits t (fun q => q == 8) ||
    (s.unitStep t storeMover).any (fun i => opIdx (encOf i.word).a == 8 && (s.til t).headTile.isNone)

/-- A watched instruction waits for a statistics bank. -/
def State.bankWaits (s : State) (t : Nat) : Bool :=
  s.vecIs t (fun i e _ _ => watched e i.conv && i.watch.isNone && (Tbl.get StatBank.empty (s.til t).banks (s.til t).bankNext).busy)

/-- A step or a dispatched SIGNAL waits for room in an egress queue, or END for an egress queue to empty (R158, R168, R410). -/
def State.egressWaits (s : State) (t : Nat) : Bool :=
  let x := s.til t
  s.endWaits t || x.sigWait.any (fun w => !(x.pushesBefore w.q w.id) && !(x.egressRoom w.q 32)) ||
    [24, 25, 26, 27].any (fun q => (s.unitStep t (moverUnit q)).any (fun i => !(x.ldRoom (encOf i.word)))) ||
    s.vecIs t (fun i e _ n => opKind e.dst == 1 && decide (24 ≤ opIdx e.dst) &&
      !(x.egressRoom (opIdx e.dst) (dstBytes e i.conv (if vkind e.opc = .row then (n + 63) / 64 else n))))

/-- The vector engine's head waits for the capture path. -/
def State.captureWaits (s : State) (t : Nat) : Bool :=
  s.vecIs t (fun i e _ n => !(s.captureRoom i.capt.length (dstBytes e i.conv (if vkind e.opc = .row then (n + 63) / 64 else n))))

/-- A pass waits for an accumulator buffer. -/
def State.accWaits (s : State) (t : Nat) : Bool :=
  s.arrIs t (fun i e arrs _ => arrs.any (fun a => !((s.til t).accFree a (passPos e i.done).acc)))

/-- A pass waits for its feeder slot or its weight block. -/
def State.feedWaits (s : State) (t : Nat) : Bool :=
  s.arrIs t (fun i e arrs _ => arrs.all (fun a => (s.til t).accFree a (passPos e i.done).acc))

/-- The cause under which a cycle of a Tiller counts: the lowest code that holds. FRONT and STORE hold in no cycle of this
model, whose steps take no time (DESIGN CHOICE: notes/assumptions/51.md). -/
def State.cause (s : State) (t : Nat) : Nat :=
  let st := s.tstate t
  if (s.til t).pipes.any (fun p => !p.2.isEmpty) || s.vecIssues t || s.passIssues t then 0
  else if s.power.holdAt.isSome || s.power.thermAt.isSome then 1
  else if s.now < s.power.clockHold then 2
  else if st = 6 || st = 7 then 3
  else if st ≤ 1 then 4
  else if st ≤ 3 then 5
  else if (s.til t).wait.isSome then 6
  else if (s.til t).waitsIngress then 7
  else if s.egressWaits t then 8
  else if s.captureWaits t then 9
  else if s.feedWaits t then 10
  else if s.accWaits t || s.tileWaits t then 12
  else if s.bankWaits t then 14
  else 15

/-- n cycles of a Tiller are counted under their cause. -/
def State.countCycles (s : State) (n t : Nat) : State :=
  let k := s.cause t
  (s.count (tcKey t k) (100 * n)).count (cycKey (16 * t + k)) (100 * n)

/-- The waits of the vector engine, each counted by itself. -/
def State.countWaits (s : State) (n t : Nat) : State :=
  let s1 := if s.vecWaits t (fun q => q == 8) then s.satAdd .TIL_VE_TQ_WAIT_CYCLES t n else s
  if s.bankWaits t then s1.satAdd .TIL_VE_STAT_STALL_CYCLES t n else s1

/-- The watchdog of a Tiller that runs. -/
def State.countWdog (s : State) (n t : Nat) : State :=
  let x := s.til t
  if s.unitsRun t && !(s.wdogHeld t) then s.setTil t { x with wdog := x.wdog + 100 * n } else s

/-- The cycles of one Tiller. -/
def State.tilEdge (s : State) (n t : Nat) : State :=
  if s.present t then ((s.countCycles n t).countWaits n t).countWdog n t else s

/-- The cycles of every Tiller while ck_core runs: not in Dormant, and not in a fenced Sheaf (R523). -/
def State.coreEdge (s : State) : State :=
  if s.linksRun && s.flag .PWR_CLK_PLAN_FREQ_NOW_MHZ 0 then (List.range 768).foldl (fun s t => s.tilEdge s.coreCycles t) s
  else s

/-! ### What waits (R250, R374, R536) -/

/-- Parked packets that can be delivered are. -/
def State.flowEdge (s : State) : State :=
  if s.linksRun then
    (s.recvFlows.filter (fun p => !p.2.parked.isEmpty)).foldl (fun s p => s.drainFlow 0 p.1 (p.2.parked.length + 1)) s
  else s

/-- The waits of the head packets are reckoned before MTIME moves on (R369, R371). -/
def State.headEdge (s : State) : State := if s.linksRun then s.reckonHeads else s

/-- A scrub period ends: the counts of R250 start anew. The periods are taken at whole multiples of MTIME (DESIGN CHOICE:
notes/assumptions/52.md). -/
def State.scrubEdge (s : State) (before : Nat) : State :=
  let p := s.fld .HBM_CFG_SCRUB_H 0 * 3600000000000
  if p = 0 || before / p = s.now / p then s else { s with rows := [] }

/-- One RACKREF edge. -/
def tick (s : State) : State :=
  (((((s.headEdge.coreEdge.edge.mgtEdge).telDrain).flowEdge).scrubEdge s.now).relayEdge).flushFolds

end Sys2Proof.Machine
end

