-- ==== Sys2Proof/Safety.lean ====
section
/-! DEFINITION. What counts as a sound state and a safe step, and the words in which the statements speak of a command's
next state: which registers answer, where a Tiller's front end stands, and what a command leaves as it was. -/

namespace Sys2Proof.Machine

/-- The canonical form of memory: addresses strictly rising, no entry equal to what an unlisted address reads as. -/
abbrev Memory.wf (m : Table Byte) : Bool := Tbl.wf memDefault m

/-- Every entry of the register table fits the width that the spec gives its field (R17): a reserved bit is never set. -/
def State.fieldsFit (s : State) : Bool :=
  s.regs.all (fun p => decide (p.2.toNat < 2 ^ (Fld.ofNat (p.1 % 1024)).width))

/-- A sound state. -/
structure State.Sound (s : State) : Prop where
  mem : Memory.wf s.mem = true
  fields : s.fieldsFit = true

/-! ### Register access -/

/-- Register r answers origin o as the machine stands, with no wake from Dormant before it (R15, R490, R506, R546). -/
abbrev State.answers (s : State) (o : Origin) (r : Reg) : Prop := s.hostWakes o r = s ∧ s.reach o r = true

/-- The state t with the audit entry of a write that started in s (R551-R553). -/
def State.auditOf (s t : State) (took : Bool) (o : AuditOrg) (r : Reg) (i data : Nat) : State :=
  t.audit! took o 0 (r.off i) (s.regVal r i) data 0

/-- The state t with the audit entry of a write that started in s, when the register's value changed (R551). -/
def State.auditChange (s t : State) (o : Origin) (r : Reg) (i data : Nat) : State :=
  if t.regVal r i = s.regVal r i then t else s.auditOf t true (Origin.audit o) r i data

/-! ### What a command leaves as it was -/

/-- Register fields other than the named ones read as before. -/
def State.sameRegs (s t : State) (l : List (Fld × Nat)) : Prop := ∀ f i, (f, i) ∉ l → t.fld f i = s.fld f i

/-- Only the named register fields differ: everything outside the register table is as before, all of memory with it. -/
def State.onlyRegs (s t : State) (l : List (Fld × Nat)) : Prop := t = { s with regs := t.regs } ∧ s.sameRegs t l

/-- Every byte of memory reads as before except the n bytes from address a. -/
def State.sameMem (s t : State) (a n : Nat) : Prop := ∀ x, x < a ∨ a + n ≤ x → t.peek x = s.peek x

/-! ### A Tiller's front end -/

/-- The instruction word at a Tiller's PC. -/
def State.inst (s : State) (t : Nat) : Enc := encOf (s.fetch t (s.pc t))

/-- Tiller t dispatches, and the instruction at its PC has this opcode and passes the checks (R138, R582). -/
abbrev State.at (s : State) (t opc : Nat) (checks : List (Bool × Bad)) : Prop :=
  s.canDispatch t = true ∧ s.pc t < s.fld .TIL_PROG_IMAGE_NINST t ∧ (s.inst t).opc = opc ∧ firstBad checks = none

/-- The oldest instruction of a unit of Tiller t is i, and it may take a step (R138, R145, R146). -/
abbrev State.head (s : State) (t unit : Nat) (i : Inst) : Prop := s.unitStep t unit = some i

/-! ### Packets that come in -/

/-- A packet with a good header stands whole at the front of the units of a stream of an open port: p is the packet, `control` the
stream (R329, R361, R363). -/
structure State.comes (s : State) (port type : Nat) (hdr : BitVec 256) (payload : List Byte) (control : Bool) (p : Pkt) :
    Prop where
  opened : s.portOpen port = true
  good : headerBad hdr.toNat = false
  packet : p = cutPkt hdr.toNat payload
  type : p.type = type
  whole : (unitsOf payload).length = payloadUnits p
  front : (s.port port).holds (hdr :: unitsOf payload) = some control
  part : p.part.toNat = s.fld .FAB_NODE_PART 0

/-- The packet is taken from the units received, and its bytes are counted. -/
def State.taken (s : State) (port : Nat) (hdr : BitVec 256) (payload : List Byte) (control : Bool) (p : Pkt) : State :=
  (s.setPort port ((s.port port).takeFrame control (hdr :: unitsOf payload).length)).count (16 + port) (32 * p.units)

end Sys2Proof.Machine
end

