-- ==== Sys2Proof/Certificates/Slice0/Obligations.lean ====
section
/-! DEFINITION. The statements for the provers. Commands are written with their operands; T(sh,n) is Tiller n of Sheaf sh,
and `tix sh n` its index. A statement gives the next state of a command exactly where the rules do, so that it is the
command's completion, its result and its frame at once. -/

open Sys2Proof Sys2Proof.Machine

/-! ### The block -/

/-- A step with command c at the front of the queue is exec of c on the state with the queue's rest. -/
def Obligations.StepRunsFrontCommand : Prop :=
  ∀ (c : Instr) (rest : List Instr) (s : State),
    step { s with pending := c :: rest } = exec c { s with pending := rest }

/-- A step on an empty queue passes one RACKREF edge (R493, R494; the model's choice of what an empty queue does:
notes/assumptions/4.md): it answers `tick` and leaves the queue empty. What `State.edge`, the part of `tick` that moves MTIME,
does: MTIME gains 10 ns while main is not off and no slew is under way, or takes the value that waits for this edge, rounded
down to 10 ns, or stands while main is off and no SETTIME was taken. -/
def Obligations.IdleStepIsOneEdge : Prop :=
  (∀ s : State, s.pending = [] → step s = .next (tick s) ∧ (tick s).pending = []) ∧
  (∀ s : State, s.power.mtimeSet = none → s.fld .PWR_STATUS_STATE 0 ≠ 0 → s.power.slew = none →
    s.edge = s.setFld .PWR_MTIME_MTIME 0 (s.now + 10)) ∧
  (∀ (s : State) (n : Nat) (v : Word), s.power.mtimeSet = some (n, v) → n ≤ 1 →
    s.edge.now = v.toNat / 10 * 10 ∧ s.edge.power.mtimeSet = none) ∧
  (∀ s : State, s.power.mtimeSet = none → s.fld .PWR_STATUS_STATE 0 = 0 → s.power.settime = false → s.edge = s)

/-- Every command but a private JTAG instruction answers a next state in every state: no ordinary data ends a run; and the
private instruction stops by name exactly while debug is unlocked, because R560 says that it takes effect then and gives no
effect; while debug is locked the TAP's register is the bypass register. -/
def Obligations.OnlyPrivateJtagStops : Prop :=
  (∀ (c : Instr) (s : State), (∀ code, c ≠ .jtagInstruction (.priv code)) → ∃ t, exec c s = .next t) ∧
  (∀ (code : BitVec 8) (s : State), s.flag .MGT_DEBUG_UNLOCKED 0 = true →
    exec (.jtagInstruction (.priv code)) s = .refused (.jtagPrivate code)) ∧
  (∀ (code : BitVec 8) (s : State), s.flag .MGT_DEBUG_UNLOCKED 0 = false →
    exec (.jtagInstruction (.priv code)) s = .next { s with power := { s.power with jtag := 0 } })

/-- Every step keeps a sound state sound: memory keeps its canonical form, and no register field ever holds more than its
width. -/
def Obligations.EveryStepKeepsSound : Prop :=
  ∀ s t : State, s.Sound → step s = .next t → t.Sound

/-- The state after reset is sound, with no command waiting, no byte of memory listed, main off and every register field
at the reset value of its table. -/
def Obligations.ResetIsSound : Prop :=
  State.reset.Sound ∧ State.reset.pending = [] ∧ State.reset.mem = [] ∧
    (∀ f i, State.reset.fld f i = f.info.reset) ∧
    State.reset.fld .PWR_STATUS_STATE 0 = 0 ∧ State.reset.flag .PWR_STATUS_READY 0 = false

/-- A step takes exactly one command: what waits behind it stays, in order, and no command is added. -/
def Obligations.StepTakesOneCommand : Prop :=
  ∀ s t : State, step s = .next t → t.pending = s.pending.tail

/-- In a sound state every register field is below two to its width, so a register never shows a set reserved bit. -/
def Obligations.FieldsFitTheirWidths : Prop :=
  ∀ (s : State) (f : Fld) (i : Nat), s.Sound → s.fld f i < 2 ^ f.width ∧ (s.setFld f i (s.fld f i)).fld f i = s.fld f i

/-! ### The front end of a Tiller -/

/-- NOP, FENCE, PSET, PADD and PCPY (R157) at the PC of a Tiller that dispatches: the P register takes its value, nothing
else of the program's changes, and the next instruction follows; FENCE holds while an instruction is in flight. What the
dispatch itself does is said last: PC + 1, one more instruction counted, the watchdog cleared, a pending halt or step
served, and no byte of memory, no P register and no other Tiller touched. -/
def Obligations.PlainInstructionsAct : Prop :=
  ∀ (sh : Fin 12) (n : Fin 64) (s : State),
    (s.at (tix sh n) 0x00 (feCheck 0 0 false (s.inst (tix sh n))) →
      exec (.nop sh n) s = .next (s.nextPc (tix sh n) (s.pc (tix sh n)))) ∧
    (s.at (tix sh n) 0x0A (feCheck 0 0 false (s.inst (tix sh n))) → (s.til (tix sh n)).insts = [] →
      exec (.fence sh n) s = .next (s.nextPc (tix sh n) (s.pc (tix sh n)))) ∧
    (s.at (tix sh n) 0x0A (feCheck 0 0 false (s.inst (tix sh n))) → (s.til (tix sh n)).insts ≠ [] →
      exec (.fence sh n) s = .next s) ∧
    (s.at (tix sh n) 0x04 (feCheck 0 (2 ^ 64 - 1) true (s.inst (tix sh n))) →
      exec (.pset sh n) s = .next ((s.setFld .TIL_PARAM_VALUE (tix sh n * 256 + (s.inst (tix sh n)).px)
        (s.inst (tix sh n)).imm).nextPc (tix sh n) (s.pc (tix sh n)))) ∧
    (s.at (tix sh n) 0x05 (feCheck 0 (2 ^ 64 - 1) true (s.inst (tix sh n))) →
      exec (.padd sh n) s = .next ((s.setFld .TIL_PARAM_VALUE (tix sh n * 256 + (s.inst (tix sh n)).px)
        ((s.fld .TIL_PARAM_VALUE (tix sh n * 256 + (s.inst (tix sh n)).px) + (s.inst (tix sh n)).imm) % 2 ^ 64)).nextPc
          (tix sh n) (s.pc (tix sh n)))) ∧
    (s.at (tix sh n) 0x06 (feCheck 0 255 true (s.inst (tix sh n))) →
      exec (.pcpy sh n) s = .next ((s.setFld .TIL_PARAM_VALUE (tix sh n * 256 + (s.inst (tix sh n)).px)
        (s.fld .TIL_PARAM_VALUE (tix sh n * 256 + (s.inst (tix sh n)).imm % 256))).nextPc (tix sh n) (s.pc (tix sh n)))) ∧
    (∀ (t pc : Nat) (u : State), u = s.nextPc t pc →
      u.pc t = (pc + 1) % 2 ^ 16 ∧ u = { s with regs := u.regs, tillers := u.tillers, obs := u.obs } ∧
      s.sameRegs u [(.TIL_PROG_STATUS_PC, t), (.TIL_OBS_INST_INSTR, t), (.TIL_PROG_STATUS_STATE, t)] ∧
      u.fld .TIL_OBS_INST_INSTR t = min (s.fld .TIL_OBS_INST_INSTR t + 1) (2 ^ 64 - 1) ∧
      u.tstate t = (if ((s.til t).stepping || (s.til t).halting) && s.tstate t == 4 then 6 else s.tstate t) ∧
      u.til t = { s.til t with wdog := 0, stepping := false, halting := false } ∧
      ∀ t', t' ≠ t → u.til t' = s.til t')

/-- LOOP and ENDL (R162): a count of 0 skips the body, another opens the loop with its head behind LOOP; ENDL takes one
off, goes back to the head while the count stays above 0, and falls through otherwise; ENDL is not counted as a dispatch.
AGSET (R157, R159): the generator named by IMM[3:0] is loaded from P(PX) to P(PX+4), with its walk at the start, once no
instruction in flight uses it, and dispatch holds meanwhile; PX above 251, and RUN = 0 in P(PX+1), are program faults of class
0x38 at the instruction. -/
def Obligations.LoopsAndGeneratorsLoad : Prop :=
  (∀ (sh : Fin 12) (n : Fin 64) (s : State),
    (s.at (tix sh n) 0x02 (feCheck 0x71 (2 ^ 48 - 1) (bitAt (s.inst (tix sh n)).mod 0) (s.inst (tix sh n))) →
      ∀ (k cnt : Nat), k = bitsOf (s.inst (tix sh n)).mod 6 4 →
        cnt = (if bitAt (s.inst (tix sh n)).mod 0 then s.preg (tix sh n) (s.inst (tix sh n)).px % 2 ^ 32
          else bitsOf (s.inst (tix sh n)).imm 31 0) →
        exec (.loop sh n) s = .next (if cnt = 0 then
          ((s.setTil (tix sh n) { s.til (tix sh n) with loopCnt := Tbl.put (s.til (tix sh n)).loopCnt k 0 }).setPc (tix sh n)
            (bitsOf (s.inst (tix sh n)).imm 47 32 + 1)).dispatched (tix sh n)
        else
          (s.setTil (tix sh n) { s.til (tix sh n) with
            loopCnt := Tbl.put (s.til (tix sh n)).loopCnt k (BitVec.ofNat 64 cnt),
            loopHead := Tbl.put (s.til (tix sh n)).loopHead k (s.pc (tix sh n) + 1) }).nextPc (tix sh n)
              (s.pc (tix sh n)))) ∧
    (s.at (tix sh n) 0x03 (feCheck 0x70 0 false (s.inst (tix sh n))) →
      ∀ (k left : Nat), k = bitsOf (s.inst (tix sh n)).mod 6 4 →
        left = (Tbl.get 0 (s.til (tix sh n)).loopCnt k).toNat - 1 →
        exec (.endl sh n) s = .next ((s.setTil (tix sh n) { s.til (tix sh n) with
          loopCnt := Tbl.put (s.til (tix sh n)).loopCnt k (BitVec.ofNat 64 left) }).setPc (tix sh n)
            (if 0 < left then Tbl.get 0 (s.til (tix sh n)).loopHead k else s.pc (tix sh n) + 1)))) ∧
  (∀ (sh : Fin 12) (n : Fin 64) (s : State) (px g : Nat), px = (s.inst (tix sh n)).px → g = (s.inst (tix sh n)).imm % 16 →
    (s.at (tix sh n) 0x07 (feCheck 0 15 true (s.inst (tix sh n)) ++
        [(decide (251 < px), ⟨0x38, 2, 5⟩), ((s.agLoad (tix sh n) px).run == 0, ⟨0x38, 3, 5⟩)]) →
      exec (.agset sh n) s = .next (if s.agBusy (tix sh n) g then s else
        (s.setTil (tix sh n) { s.til (tix sh n) with
          ags := Tbl.put (s.til (tix sh n)).ags g
            (⟨[s.preg (tix sh n) px % 2 ^ 16, s.preg (tix sh n) px / 2 ^ 16 % 2 ^ 16,
              s.preg (tix sh n) px / 2 ^ 32 % 2 ^ 16, s.preg (tix sh n) px / 2 ^ 48 % 2 ^ 16,
              s.preg (tix sh n) (px + 1) % 2 ^ 16, s.preg (tix sh n) (px + 1) / 2 ^ 16 % 2 ^ 16],
            [signedOf 32 (s.preg (tix sh n) (px + 2)), signedOf 32 (s.preg (tix sh n) (px + 2) / 2 ^ 32),
              signedOf 32 (s.preg (tix sh n) (px + 3)), signedOf 32 (s.preg (tix sh n) (px + 3) / 2 ^ 32),
              signedOf 32 (s.preg (tix sh n) (px + 4)), signedOf 32 (s.preg (tix sh n) (px + 4) / 2 ^ 32)],
            s.preg (tix sh n) (px + 1) / 2 ^ 53 % 2 ^ 11,
            s.preg (tix sh n) (px + 1) / 2 ^ 32 % 2 ^ 21,
            [0, 0, 0, 0, 0, 0], 0, 0⟩ : Ag) }).nextPc (tix sh n) (s.pc (tix sh n)))) ∧
    (s.canDispatch (tix sh n) = true → s.pc (tix sh n) < s.fld .TIL_PROG_IMAGE_NINST (tix sh n) →
      (s.inst (tix sh n)).opc = 0x07 → firstBad (feCheck 0 15 true (s.inst (tix sh n))) = none → 251 < px →
      exec (.agset sh n) s = .next (s.progFault (tix sh n) 0x38 (s.pc (tix sh n))
        (tilDetail (s.pc (tix sh n)) 5 2 0 0))) ∧
    (s.canDispatch (tix sh n) = true → s.pc (tix sh n) < s.fld .TIL_PROG_IMAGE_NINST (tix sh n) →
      (s.inst (tix sh n)).opc = 0x07 → firstBad (feCheck 0 15 true (s.inst (tix sh n))) = none → px ≤ 251 →
      s.preg (tix sh n) (px + 1) / 2 ^ 53 % 2 ^ 11 = 0 →
      exec (.agset sh n) s = .next (s.progFault (tix sh n) 0x38 (s.pc (tix sh n))
        (tilDetail (s.pc (tix sh n)) 5 3 0 0))))

/-- WAIT (R157, R189, R198, R199): a threshold of 0 is satisfied without translation; a Glume at or above P(PX) lets the
Tiller run on; one below it holds dispatch in STATE 5 with the wait posed; a failed translation is a program fault with its
class. SIGNAL (R157, R158): without a destination it holds dispatch until nothing is in flight and then sends the value or
P(PX) to the Glume; with an egress queue it waits to enter that queue and dispatch goes on, and it enters once every earlier
instruction that pushes there has completed, every earlier SIGNAL has entered, and 32 bytes are free. -/
def Obligations.WaitsAndSignals : Prop :=
  (∀ (sh : Fin 12) (n : Fin 64) (s : State) (vid th : Nat), vid = (s.inst (tix sh n)).imm % 2 ^ 16 →
    th = s.preg (tix sh n) (s.inst (tix sh n)).px →
    s.at (tix sh n) 0x08 (feCheck 0 65535 true (s.inst (tix sh n))) →
    (th = 0 → exec (.wait sh n) s = .next (s.wakeTiller (tix sh n) vid 0 0)) ∧
    (th ≠ 0 → ∀ (s1 s2 : State) (pid v : Nat), s.glumeXlat sh.val (s.tctx (tix sh n)) vid = (s1, .ok pid) →
      v = s1.glumeValue pid → s2 = s1.trace 3 (s1.tctx (tix sh n)) (tilUnit (tix sh n)) vid th v →
      exec (.wait sh n) s = .next (if th ≤ v then s2.wakeTiller (tix sh n) vid th v else
        (s2.setTil (tix sh n) { s2.til (tix sh n) with
          wait := some ⟨BitVec.ofNat 16 vid, BitVec.ofNat 16 pid, BitVec.ofNat 64 th, s2.now⟩,
          gated := (s2.til (tix sh n)).insts.isEmpty }).setFld .TIL_PROG_STATUS_STATE (tix sh n) 5)) ∧
    (th ≠ 0 → ∀ (s1 : State) (cls pid : Nat), s.glumeXlat sh.val (s.tctx (tix sh n)) vid = (s1, .bad cls pid) →
      exec (.wait sh n) s = .next (s1.progFault (tix sh n) cls (s.pc (tix sh n))
        (glumeDetail vid pid (sh.val * 1024 + n.val) 0 th)))) ∧
  (∀ (sh : Fin 12) (n : Fin 64) (s : State) (vid v q : Nat), vid = bitsOf (s.inst (tix sh n)).imm 63 48 →
    v = (if bitAt (s.inst (tix sh n)).mod 0 then s.preg (tix sh n) (s.inst (tix sh n)).px
      else bitsOf (s.inst (tix sh n)).imm 31 0) → q = opIdx (s.inst (tix sh n)).dst →
    s.at (tix sh n) 0x09 (signalBad (s.inst (tix sh n)) ++
      [(opKind (s.inst (tix sh n)).dst == 1 && s.qkind (tix sh n) q != .egress, ⟨0x39, q, 5⟩)]) →
    ((s.inst (tix sh n)).dst = 0 →
      exec (.signal sh n) s = .next (if (s.til (tix sh n)).insts = [] then
        ((s.sendSignal sh.val (s.tctx (tix sh n)) vid v).trace 5 (s.tctx (tix sh n)) (tilUnit (tix sh n)) vid v
          0x3FFF).nextPc (tix sh n) (s.pc (tix sh n)) else s)) ∧
    ((s.inst (tix sh n)).dst ≠ 0 → descBad true (s.desc (tix sh n) q) = false → descMode (s.desc (tix sh n) q) ≠ 1 →
      exec (.signal sh n) s = .next (((s.setTil (tix sh n) ({ s.til (tix sh n) with
        sigWait := (s.til (tix sh n)).sigWait ++ [⟨(s.til (tix sh n)).nextId, q, BitVec.ofNat 16 vid, BitVec.ofNat 64 v⟩],
        nextId := (s.til (tix sh n)).nextId + 1 } : Tiller).admitSignals).trace 5 (s.tctx (tix sh n)) (tilUnit (tix sh n)) vid v
          (s.egressFlow (tix sh n) q)).nextPc (tix sh n) (s.pc (tix sh n))))) ∧
  (∀ (x : Tiller) (w : SigWait),
    (x.signalEnters w = true ↔
      (∀ i ∈ x.insts, i.id < w.id → (encOf i.word).dst ≠ 32 + w.q) ∧ (∀ v ∈ x.sigWait, v.q = w.q → w.id ≤ v.id) ∧
        egressBytes (Tbl.get [] x.egress w.q) + 32 ≤ 16384) ∧
    (x.sigWait = [w] → x.signalEnters w = true →
      x.admitSignals = { x with
        egress := Tbl.put x.egress w.q (Tbl.get [] x.egress w.q ++ [.signal w.vid w.value]), sigWait := [] }) ∧
    (x.sigWait = [w] → x.signalEnters w = false → x.admitSignals = x))

/-- A replay starts (R167, R171): the Tiller holds the command with nothing in flight, empty queues and arrays, its bound
generators and flow descriptors loaded from their P registers, PC 0 and one more command counted, running, unless a break
register names the command by that count or its TAG: then it is stopped, and ONCE takes the break's conditions away. END and the
end of a replay (R157, R168): END waits for instructions in flight and for the egress queues, faults with class 0x39 on data left
in Q0 to Q8, and then ends the program with PC 0; the replay completes with the program resident and idle at PC 0, the command
noted, and one command counted. -/
def Obligations.ReplaysStartAndEnd : Prop :=
  (∀ (s s1 u : State) (t : Nat) (j : Job), u = s.startReplay t j → s1 = s.wrapAdd .TIL_CMD_COUNT_COUNT t 1 →
    u.pc t = 0 ∧
    u.til t = { (s.til t).clearQueues with
      job := some j, lastCtx := some j.ctx, loopCnt := [], loopHead := []
      ags := ((List.range 32).filter (fun q => bindWindow (s.binding t q))).foldl (fun d q =>
        Tbl.put d (bindAg (s.binding t q)) (s.agLoad t (bindPdesc (s.binding t q)))) []
      desc := ((List.range 32).filter (fun q => bindKind (s.binding t q) == 3 || bindKind (s.binding t q) == 4)).foldl
        (fun d q => Tbl.put d q (BitVec.ofNat 64 (s.preg t (bindPdesc (s.binding t q))))) [] } ∧
    (u.til t).insts = [] ∧ (u.til t).feeders = [] ∧ (u.til t).loaders = [] ∧ (u.til t).active = [] ∧ (u.til t).pipes = [] ∧
    (u.til t).accs = [] ∧ (u.til t).tiles = [] ∧ (u.til t).egress = [] ∧ (u.til t).sigWait = [] ∧
    (u.til t).wait = none ∧ (u.til t).ended = false ∧ (u.til t).bind = (s.til t).bind ∧
    (∀ k, u.preg t k = s.preg t k) ∧
    u.fld .TIL_CMD_COUNT_COUNT t = (s.fld .TIL_CMD_COUNT_COUNT t + 1) % 2 ^ Fld.TIL_CMD_COUNT_COUNT.width ∧
    u = { s with regs := u.regs, tillers := u.tillers } ∧ (∀ t', t' ≠ t → u.til t' = s.til t') ∧
    (s1.breakHit t j.ctx.toNat j.tag.toNat = false → u.tstate t = 4) ∧
    (s1.breakHit t j.ctx.toNat j.tag.toNat = true → u.tstate t = 6 ∧
      (s.flag .TIL_BRK_CTRL_ONCE t = true → u.flag .TIL_BRK_CTRL_ON_CMD t = false ∧ u.flag .TIL_BRK_CTRL_ON_TAG t = false))) ∧
  (∀ (sh : Fin 12) (n : Fin 64) (s : State),
    (s.at (tix sh n) 0x01 (feCheck 0 0 false (s.inst (tix sh n))) → (s.til (tix sh n)).insts = [] →
      (s.til (tix sh n)).leftover = none → (s.til (tix sh n)).egressDone = true →
      ∀ s1 : State, s1 = (s.setPc (tix sh n) 0).dispatched (tix sh n) →
        exec (.endReplay sh n) s = .next (s1.setTil (tix sh n) { s1.til (tix sh n) with ended := true })) ∧
    (s.at (tix sh n) 0x01 (feCheck 0 0 false (s.inst (tix sh n))) →
      (s.til (tix sh n)).insts ≠ [] ∨ ((s.til (tix sh n)).leftover = none ∧ (s.til (tix sh n)).egressDone = false) →
      exec (.endReplay sh n) s = .next s) ∧
    (∀ q, s.at (tix sh n) 0x01 (feCheck 0 0 false (s.inst (tix sh n))) → (s.til (tix sh n)).insts = [] →
      (s.til (tix sh n)).leftover = some q →
      exec (.endReplay sh n) s = .next (s.progFault (tix sh n) 0x39 (s.pc (tix sh n))
        (tilDetail (s.pc (tix sh n)) 5 q 0 0))) ∧
    (s.ready = true → s.present (tix sh n) = true → (s.til (tix sh n)).ended = true → (s.til (tix sh n)).insts = [] →
      (s.til (tix sh n)).leftover = none → (s.til (tix sh n)).egressDone = true →
      ∀ (j : Job) (s1 : State), (s.til (tix sh n)).job = some j →
        s1 = (((s.setTil (tix sh n) { s.til (tix sh n) with
          ended := false, job := none, stepping := false, halting := false }).setPc (tix sh n) 0).setFld
            .TIL_PROG_STATUS_STATE (tix sh n) 1).count (tcKey (tix sh n) 19) 1 →
        exec (.replayComplete sh n) s = .next (s1.setRing j.ring.toNat { s1.ring j.ring.toNat with
          running := (s1.ring j.ring.toNat).running.map (fun c => if c.pos == j.pos then
            { c with tillers := c.tillers.map (fun p => if p.1 == tix sh n then (p.1, 1) else p) } else c) })))

/-- LD, ST and MM (R150 to R152) go into flight: N units wait in the mover of the destination queue or in the store mover,
and NB x NG passes in the array with the next tiles of the tile queue; N = 0 completes at once. -/
def Obligations.MoversAndMatrixDispatch : Prop :=
  ∀ (sh : Fin 12) (n : Fin 64) (s : State),
    (s.at (tix sh n) 0x10 (ldEncBad (s.inst (tix sh n)) ++ s.ldQueueBad (tix sh n) (s.inst (tix sh n))) →
      exec (.ld sh n) s = .next (if bitsOf (s.inst (tix sh n)).imm 63 48 = 0 then s.nextPc (tix sh n) (s.pc (tix sh n)) else
        (s.enqueue (tix sh n) (s.pc (tix sh n)) (8 + (s.inst (tix sh n)).dst % 32) (bitsOf (s.inst (tix sh n)).imm 63 48) 0
          (s.fetch (tix sh n) (s.pc (tix sh n))) [] 0).nextPc (tix sh n) (s.pc (tix sh n)))) ∧
    (s.at (tix sh n) 0x11 (stEncBad (s.inst (tix sh n)) ++ s.stQueueBad (tix sh n) (s.inst (tix sh n))) →
      exec (.st sh n) s = .next (if bitsOf (s.inst (tix sh n)).imm 63 48 = 0 then s.nextPc (tix sh n) (s.pc (tix sh n)) else
        (s.enqueue (tix sh n) (s.pc (tix sh n)) 5 (bitsOf (s.inst (tix sh n)).imm 63 48) 0
          (s.fetch (tix sh n) (s.pc (tix sh n))) [] 0).nextPc (tix sh n) (s.pc (tix sh n)))) ∧
    (s.at (tix sh n) 0x20 (mmEncBad (s.inst (tix sh n)) ++ mmQueueBad (s.inst (tix sh n)) ++
        s.mmShapeBad (tix sh n) (s.inst (tix sh n))) →
      ∀ s1 : State, s1 = s.enqueue (tix sh n) (s.pc (tix sh n)) (bitsOf (s.inst (tix sh n)).mod 1 0)
          (bitsOf (s.inst (tix sh n)).imm 11 6 * bitsOf (s.inst (tix sh n)).imm 23 12) (s.til (tix sh n)).tileNext
          (s.fetch (tix sh n) (s.pc (tix sh n))) [] 0 →
        exec (.mm sh n) s = .next ((s1.setTil (tix sh n) { s1.til (tix sh n) with
          tileNext := (s1.til (tix sh n)).tileNext + s.mmTiles (tix sh n) (s.inst (tix sh n)) }).nextPc (tix sh n)
            (s.pc (tix sh n))))

/-- Where a dispatch traps or waits, for every command that dispatches an instruction (R138, R175): a Tiller that may not
dispatch is left as it is, so is one whose PC holds another instruction, and a PC beyond the program is class 0x3B. A word
whose opcode names no instruction is illegal, class 0x38. -/
def Obligations.DispatchTrapsOrWaits : Prop :=
  ∀ (sh : Fin 12) (n : Fin 64) (s : State),
    (∀ p ∈ [(Instr.endReplay sh n, 0x01), (.loop sh n, 0x02), (.endl sh n, 0x03), (.pset sh n, 0x04), (.padd sh n, 0x05),
        (.pcpy sh n, 0x06), (.agset sh n, 0x07), (.wait sh n, 0x08), (.signal sh n, 0x09), (.fence sh n, 0x0A),
        (.ld sh n, 0x10), (.st sh n, 0x11), (.mm sh n, 0x20)],
      (s.canDispatch (tix sh n) = false → exec p.1 s = .next s) ∧
      (s.canDispatch (tix sh n) = true → s.fld .TIL_PROG_IMAGE_NINST (tix sh n) ≤ s.pc (tix sh n) →
        exec p.1 s = .next (s.progFault (tix sh n) 0x3B (s.pc (tix sh n)) (tilDetail (s.pc (tix sh n)) 5 0 0 0))) ∧
      (s.canDispatch (tix sh n) = true → s.pc (tix sh n) < s.fld .TIL_PROG_IMAGE_NINST (tix sh n) →
        (s.inst (tix sh n)).opc ≠ p.2 → exec p.1 s = .next s)) ∧
    (s.canDispatch (tix sh n) = true → s.pc (tix sh n) < s.fld .TIL_PROG_IMAGE_NINST (tix sh n) →
      opcodeKnown (s.inst (tix sh n)).opc = false →
      exec (.nop sh n) s = .next (s.progFault (tix sh n) 0x38 (s.pc (tix sh n)) (tilDetail (s.pc (tix sh n)) 5 0 0 0)))

/-- A program fault (R173, R180): the Tiller is in STATE 7 with the class of the fault and the PC of the instruction, with
nothing in flight, no wait, no command and no program, its arrays cleared; its queue bindings and its P registers stand, and its
units take no step. -/
def Obligations.ProgramFaultStopsTiller : Prop :=
  ∀ (s u : State) (t cls pc detail : Nat), cls < 256 → pc < 2 ^ 16 → u = s.progFault t cls pc detail →
    u.tstate t = 7 ∧ u.fld .TIL_PROG_STATUS_FAULT_CLASS t = cls ∧ u.pc t = pc ∧
    u.fld .TIL_PROG_IMAGE_NINST t = 0 ∧ (u.til t).insts = [] ∧ (u.til t).job = none ∧ (u.til t).wait = none ∧
    (u.til t).loaders = [] ∧ (u.til t).active = [] ∧ (u.til t).pipes = [] ∧ (u.til t).accs = [] ∧
    (u.til t).bind = (s.til t).bind ∧ u.unitsRun t = false ∧
    (∀ k, u.preg t k = s.preg t k)

/-! ### Movers, matrix arrays and the control of a Tiller -/

/-- A unit of an LD or ST moves (R141, R142, R143, R152): its bytes come through the address generator of the source window and
land in the feeder, loader or egress queue, or a tile's or an ingress queue's bytes land in the store window; a popped source
takes its step, a peeked window is left as it is and gives each unit the bytes behind those of the units before it, and the
instruction has one unit (a HUSK6 record two) less to move. Without room, or without data, the unit waits. -/
def Obligations.UnitsMove : Prop :=
  ∀ (sh : Fin 12) (n : Fin 64) (s : State) (i : Inst) (e : Enc), e = encOf i.word →
    (∀ (q : BitVec 5) (offs : List Nat) (g : Ag) (r : State × List PByte) (s1 : State) (k skip : Nat),
      s.head (tix sh n) (8 + q.toNat) i → s.ldDescBad (tix sh n) e = false → (s.til (tix sh n)).ldRoom e = true →
      k = ldStepBytes e → skip = (if e.a / 32 = 1 then 0 else i.done / ldTogether e * k) →
      agTake (s.binding (tix sh n) (opIdx e.a)) (skip + k + 1) (s.ag (tix sh n) (opIdx e.a)) (skip + k) = .ok (offs, g) →
      r = s.storeRead (tix sh n) ((offs.drop skip).map (fun o => (o, true))) →
      s1 = (if e.a / 32 = 1 then r.1.setAg (tix sh n) (opIdx e.a) g else r.1) →
      exec (.ldUnitMove sh n q) s = .next ((s1.setTil (tix sh n)
        ((s1.til (tix sh n)).ldDeliver (s1.gang (tix sh n)) i r.2)).unitDone (tix sh n) i (ldTogether e))) ∧
    (∀ q : BitVec 5, s.head (tix sh n) (8 + q.toNat) i → s.ldDescBad (tix sh n) e = false →
      (s.til (tix sh n)).ldRoom e = false → exec (.ldUnitMove sh n q) s = .next s) ∧
    (∀ (bytes : List PByte) (x : Tiller) (offs : List Nat) (g : Ag),
      s.head (tix sh n) 5 i → (decide (28 ≤ opIdx e.a) && descBad false (s.desc (tix sh n) (opIdx e.a))) = false →
      (s.til (tix sh n)).stSource i e = some (bytes, x) →
      agTake (s.binding (tix sh n) (opIdx e.dst)) (bytes.length + 1) (s.ag (tix sh n) (opIdx e.dst)) bytes.length =
        .ok (offs, g) →
      exec (.stUnitMove sh n) s = .next ((((s.setTil (tix sh n) x).setAg (tix sh n) (opIdx e.dst) g).storeWrite (tix sh n)
        (offs.zip (bytes.map some))).unitDone (tix sh n) i 1)) ∧
    (s.head (tix sh n) 5 i → (decide (28 ≤ opIdx e.a) && descBad false (s.desc (tix sh n) (opIdx e.a))) = false →
      (s.til (tix sh n)).stSource i e = none → exec (.stUnitMove sh n) s = .next s)

/-- A pass issues (R87, R102, R151): on every array of the gang one pass enters the pipe, its results the products of
the slot's activations with the array's weights; the instruction has performed one pass more; M x 2,048 multiply-accumulates
of each array are counted. No byte of memory, no other Tiller and no register but the two counters changes. -/
def Obligations.PassesIssue : Prop :=
  ∀ (sh : Fin 12) (n : Fin 64) (a : Fin 4) (s : State) (i : Inst) (e : Enc) (slot : FeedSlot) (rest : List FeedSlot)
    (arrs : List Nat),
    e = encOf i.word → arrs = gangArrays (s.gang (tix sh n)) a.val →
    s.head (tix sh n) (gangLead (s.gang (tix sh n)) a.val) i →
    (s.til (tix sh n)).feeder (gangLead (s.gang (tix sh n)) a.val) = slot :: rest →
    (s.til (tix sh n)).tailClash arrs = none →
    (s.til (tix sh n)).passReady e (passPos e i.done) slot arrs = true →
    s.passBad (tix sh n) e (passPos e i.done) slot arrs = none →
    ∃ u, exec (.mmPassIssue sh n a .none) s = .next u ∧
      (∀ k ∈ arrs, ∃ p : PassInPipe, (u.til (tix sh n)).pipe k = (s.til (tix sh n)).pipe k ++ [p] ∧ p.inst = i.id ∧
        p.rows = mmM e ∧ p.results = passElems (wideFmt (mmAfmt e) || wideFmt (mmWfmt e)) (mmW64 e) (mmM e) slot.elems
          ((if mmReuse e then s.til (tix sh n) else (s.til (tix sh n)).front k (passPos e i.done).g).weights k)) ∧
      (u.til (tix sh n)).insts = (s.til (tix sh n)).insts.map (fun j => if j.id == i.id then { i with done := i.done + 1 } else j) ∧
      u = { s with regs := u.regs, tillers := u.tillers, obs := u.obs } ∧
      s.sameRegs u [(.TIL_MA_FRONT_STALL_CYCLES, tix sh n), (.TIL_OBS_MAC_MACS, tix sh n)] ∧
      u.fld .TIL_OBS_MAC_MACS (tix sh n) =
        min (s.fld .TIL_OBS_MAC_MACS (tix sh n) + mmM e * 2048 * arrs.length) (2 ^ 64 - 1) ∧
      ∀ t', t' ≠ tix sh n → u.til t' = s.til t'

/-- The oldest pass in the pipe is accumulated, and a finished buffer drains (R81, R89, R93): the pass leaves the pipe for
its buffer; the buffer's tile enters the tile queue and the buffer is empty but for its group record. An instruction with
nothing left in the arrays completes. -/
def Obligations.PassesAccumulateAndDrain : Prop :=
  ∀ (sh : Fin 12) (n : Fin 64) (a : Fin 4) (s : State),
    (∀ (p : PassInPipe) (rest : List PassInPipe), s.unitsRun (tix sh n) = true →
      (s.til (tix sh n)).pipe a.val = p :: rest →
      exec (.passAccumulationComplete sh n a .none) s = .next ((({ s.setTil (tix sh n)
        (((s.til (tix sh n)).setAcc a.val p.acc (((s.til (tix sh n)).acc a.val p.acc).take p .none s.fresh)).setPipe a.val rest) with
          fresh := s.fresh + ((s.til (tix sh n)).acc a.val p.acc).freeUse p } : State).stepped (tix sh n)).mmRetire (tix sh n)
            p.inst)) ∧
    (∀ (b : Nat) (buf : AccBuf), s.unitsRun (tix sh n) = true → (s.til (tix sh n)).firstFinished a.val = some b →
      buf = (s.til (tix sh n)).acc a.val b → s.gang (tix sh n) = 0 → buf.tile < (s.til (tix sh n)).tileHead + 8 →
      (s.til (tix sh n)).drainsBefore buf.tile < 2 →
      exec (.tileDrain sh n a .none) s = .next (((s.setTil (tix sh n)
        (({ s.til (tix sh n) with tiles := (s.til (tix sh n)).tiles ++ [buf.toTile] } : Tiller).setAcc a.val b
          { AccBuf.empty with g := buf.g })).stepped (tix sh n)).mmRetire (tix sh n) buf.inst)) ∧
    (s.unitsRun (tix sh n) = true → (s.til (tix sh n)).pipe a.val = [] →
      exec (.passAccumulationComplete sh n a .none) s = .next s) ∧
    ((s.til (tix sh n)).firstFinished a.val = none → exec (.tileDrain sh n a .none) s = .next s)

/-- Integer accumulation (R56, R59, R70): a group result is the sum of the products, and a sum in the buffer is exact
within W64 and saturates at plus and minus 2^63 - 1, with a mark. -/
def Obligations.IntegerSumsSaturate : Prop :=
  (∀ (acts ws : List Operand), (passElem false true acts ws).val.toInt =
      (BitVec.ofInt 64 (((List.zipWith (fun a b => a.val.mul b.val) acts ws).map intOf).foldl (· + ·) 0)).toInt) ∧
  (∀ a b : Word, -(2 ^ 63 - 1) ≤ a.toInt + b.toInt → a.toInt + b.toInt ≤ 2 ^ 63 - 1 →
    ((w64Add a b).1.toInt = a.toInt + b.toInt ∧ (w64Add a b).2 = false)) ∧
  (∀ a b : Word, 2 ^ 63 - 1 < a.toInt + b.toInt → (w64Add a b).1.toInt = 2 ^ 63 - 1 ∧ (w64Add a b).2 = true) ∧
  (∀ a b : Word, a.toInt + b.toInt < -(2 ^ 63 - 1) → (w64Add a b).1.toInt = -(2 ^ 63 - 1) ∧ (w64Add a b).2 = true)

/-- The control of a Tiller from outside: the array and vector counters are cleared alone; GANG and CMP change while no
program runs, and commands that GANG held may become ready; in a running program a change is refused with its status bit and a
write of the values that stand does nothing (R100); HALT stops a running Tiller and
marks one that waits, STEP lets a stopped one dispatch one instruction, RESUME lets it run (R172); a P register takes its
write while no program runs or the Tiller is stopped (R178); a break register only while debug is unlocked; and the watchdog
at its limit is a program fault of class 0x3D (R174). -/
def Obligations.TillersObeyControl : Prop :=
  ∀ (sh : Fin 12) (n : Fin 64) (s : State),
    (s.answers .pf .TIL_MA_CTRL →
      exec (.maStallClr sh n) s = .next (s.setFld .TIL_MA_FRONT_STALL_CYCLES (tix sh n) 0)) ∧
    (s.answers .pf .TIL_VE_CTRL →
      exec (.veStallClr sh n) s = .next ((s.setFld .TIL_VE_TQ_WAIT_CYCLES (tix sh n) 0).setFld .TIL_VE_STAT_STALL_CYCLES
        (tix sh n) 0)) ∧
    (∀ (org : Origin) (g : BitVec 2) (cmp : Bool), s.answers org .TIL_MA_CTRL →
      (s.tstate (tix sh n) < 2 ∨ 6 < s.tstate (tix sh n) →
        exec (.gangCmpWrite sh n org g cmp) s = .next ((s.rings.map (fun p => p.1)).foldl (fun u r => u.markReady r)
          ((s.setFld .TIL_MA_CTRL_GANG (tix sh n) g.toNat).setFlag .TIL_MA_CTRL_CMP (tix sh n) cmp))) ∧
      (2 ≤ s.tstate (tix sh n) → s.tstate (tix sh n) ≤ 6 →
        s.fld .TIL_MA_CTRL_GANG (tix sh n) ≠ g.toNat ∨ s.flag .TIL_MA_CTRL_CMP (tix sh n) ≠ cmp →
        exec (.gangCmpWrite sh n org g cmp) s = .next (s.setFlag .TIL_MA_STATUS_GANG_REFUSED (tix sh n) true)) ∧
      (2 ≤ s.tstate (tix sh n) → s.tstate (tix sh n) ≤ 6 → s.fld .TIL_MA_CTRL_GANG (tix sh n) = g.toNat →
        s.flag .TIL_MA_CTRL_CMP (tix sh n) = cmp → exec (.gangCmpWrite sh n org g cmp) s = .next s)) ∧
    (s.answers .pf .TIL_PROG_CTRL →
      (s.tstate (tix sh n) = 4 → exec (.halt sh n) s = .next (s.setFld .TIL_PROG_STATUS_STATE (tix sh n) 6)) ∧
      (s.tstate (tix sh n) = 5 →
        exec (.halt sh n) s = .next (s.setTil (tix sh n) { s.til (tix sh n) with halting := true })) ∧
      (s.tstate (tix sh n) = 6 →
        exec (.step sh n) s = .next (s.setTil (tix sh n) { s.til (tix sh n) with stepping := true }) ∧
        exec (.resume sh n) s = .next ((s.setTil (tix sh n)
          { s.til (tix sh n) with stepping := false, halting := false }).setFld .TIL_PROG_STATUS_STATE (tix sh n) 4)) ∧
      (s.tstate (tix sh n) ≠ 6 → exec (.step sh n) s = .next s ∧ exec (.resume sh n) s = .next s)) ∧
    (∀ (k : BitVec 8) (v : Word), s.answers .pf .TIL_PARAM →
      (s.tstate (tix sh n) < 2 ∨ 5 < s.tstate (tix sh n) →
        exec (.paramWrite sh n k v) s = .next (s.setFld .TIL_PARAM_VALUE (tix sh n * 256 + k.toNat) v.toNat)) ∧
      (2 ≤ s.tstate (tix sh n) → s.tstate (tix sh n) ≤ 5 →
        exec (.paramWrite sh n k v) s = .next (s.setFlag .TIL_PROG_STATUS_PWRITE_REFUSED (tix sh n) true))) ∧
    (∀ (org : Origin) (reg : Fin 3) (v : Word), s.answers org (brkReg reg.val) →
      exec (.breakRegisterWrite sh n org reg v) s = .next (if s.flag .MGT_DEBUG_UNLOCKED 0 then
        (brkReg reg.val).flds.foldl (fun s f => s.writeFld f (tix sh n) (2 ^ 64 - 1) v.toNat) s else s)) ∧
    (s.unitsRun (tix sh n) = true → s.fld .TIL_WDOG_LIMIT (tix sh n) ≠ 0 →
      s.fld .TIL_WDOG_LIMIT (tix sh n) * 102400 ≤ (s.til (tix sh n)).wdog → s.wdogHeld (tix sh n) = false →
      exec (.watchdogExpiry sh n) s = .next (s.progFault (tix sh n) 0x3D (s.pc (tix sh n))
        (tilDetail (s.pc (tix sh n)) 5 0 0 0))) ∧
    ((s.fld .TIL_WDOG_LIMIT (tix sh n) = 0 ∨ (s.til (tix sh n)).wdog < s.fld .TIL_WDOG_LIMIT (tix sh n) * 102400) →
      exec (.watchdogExpiry sh n) s = .next s)

/-! ### The vector engine -/

/-- The dispatch of every vector instruction (R117 to R123, R138, R139, R155): at the PC of a Tiller that dispatches, with
its checks passed, E = 0 completes at once; a reserved conversion code is class 0x3E without effect; another instruction
goes into flight in the vector engine with its chunks, its conversion block, its scalar and the capture slots it matches,
and the next instruction follows. A Tiller that may not dispatch, or whose PC holds another instruction, is left as it
is. -/
def Obligations.VectorInstructionsDispatch : Prop :=
  ∀ (sh : Fin 12) (n : Fin 64) (s : State),
    ∀ p ∈ [(Instr.fadd sh n, 0x40), (.fsub sh n, 0x41), (.fmul sh n, 0x42), (.fma sh n, 0x43), (.fmin sh n, 0x44),
        (.fmax sh n, 0x45), (.fabs sh n, 0x46), (.fneg sh n, 0x47), (.fsgn sh n, 0x48), (.fcmp sh n, 0x49),
        (.sel sh n, 0x4A), (.cvt sh n, 0x4B), (.rcp sh n, 0x50), (.sqrt sh n, 0x51), (.rsqrt sh n, 0x52),
        (.exp sh n, 0x53), (.exp2 sh n, 0x54), (.log sh n, 0x55), (.log2 sh n, 0x56), (.tanh sh n, 0x57),
        (.sigm sh n, 0x58), (.iadd sh n, 0x60), (.isub sh n, 0x61), (.imin sh n, 0x62), (.imax sh n, 0x63),
        (.and sh n, 0x64), (.or sh n, 0x65), (.xor sh n, 0x66), (.shl sh n, 0x67), (.shr sh n, 0x68),
        (.wadd sh n, 0x6A), (.wcvt sh n, 0x6B), (.rsum sh n, 0x70), (.rsumsq sh n, 0x71), (.rmax sh n, 0x72),
        (.rmaxabs sh n, 0x73), (.mand sh n, 0x78), (.mor sh n, 0x79), (.mxor sh n, 0x7A), (.mnot sh n, 0x7B),
        (.vgath sh n, 0x7C)],
      (∀ (e : Enc) (conv : List Word), e = s.inst (tix sh n) → conv = s.convBlock (tix sh n) e →
        s.at (tix sh n) p.2 (vecEncBad e ++ s.vecQueueBad (tix sh n) e ++ vecShapeBad e conv) →
        (veE e = 0 → exec p.1 s = .next (s.nextPc (tix sh n) (s.pc (tix sh n)))) ∧
        (veE e ≠ 0 → convReserved e conv = true →
          exec p.1 s = .next ((s.raiseCtx 0x3E (s.tctx (tix sh n)) (tilUnit (tix sh n))
            (tilDetail (s.pc (tix sh n)) 4 0 0 (cword conv))).nextPc (tix sh n) (s.pc (tix sh n)))) ∧
        (veE e ≠ 0 → convReserved e conv = false → (∀ j ∈ (s.til (tix sh n)).insts, j.id < (s.til (tix sh n)).nextId) →
          exec p.1 s = .next ((((s.captures (tix sh n) e conv).foldl (fun s k => s.noteMatch k (captFmt e conv)) s).setTil
            (tix sh n) { s.til (tix sh n) with
              insts := (s.til (tix sh n)).insts ++
                [⟨(s.til (tix sh n)).nextId, s.pc (tix sh n), s.fetch (tix sh n) (s.pc (tix sh n)), 4, chunks e conv, 0, 0,
                  conv, BitVec.ofNat 64 (s.preg (tix sh n) (veScalp e)), 0, none, false, s.captures (tix sh n) e conv⟩],
              nextId := (s.til (tix sh n)).nextId + 1 }).nextPc (tix sh n) (s.pc (tix sh n))))) ∧
      (s.canDispatch (tix sh n) = false → exec p.1 s = .next s) ∧
      (s.canDispatch (tix sh n) = true → s.pc (tix sh n) < s.fld .TIL_PROG_IMAGE_NINST (tix sh n) →
        (s.inst (tix sh n)).opc ≠ p.2 → exec p.1 s = .next s)

/-- A chunk of the vector engine issues (R113, R116, R121, R125, R139): mask logic writes bits 0 to E - 1 of its mask
register and completes; an elementwise instruction reads its operands and writes, converts, counts and captures what its
lanes give, a row instruction what its rows give; a chunk that waits for an operand, for room or for a bank leaves the state
as it is; with POISON_FAULT a poisoned unmasked input is a program fault of class 0x35. -/
def Obligations.ChunksIssue : Prop :=
  ∀ (sh : Fin 12) (n : Fin 64) (s : State) (i : Inst) (e : Enc) (e0 m : Nat) (lives : List Bool),
    e = encOf i.word → e0 = i.done * chunkSize e i.conv → m = min (chunkSize e i.conv) (veE e - e0) →
    lives = (s.til (tix sh n)).lives e e0 m → s.head (tix sh n) 4 i →
    (vkind e.opc = .mask →
      ∃ u, exec (.vectorChunkIssue sh n) s = .next u ∧
        u = { s with tillers := u.tillers } ∧
        (u.til (tix sh n)).vm = ((s.til (tix sh n)).vmWrite (opIdx e.dst) 0 ((List.range (veE e)).map (fun k =>
          (s.til (tix sh n)).live e k &&
            (match e.opc with
            | 0x78 => (s.til (tix sh n)).maskBit (opIdx e.a) k && (s.til (tix sh n)).maskBit (opIdx e.b) k
            | 0x79 => (s.til (tix sh n)).maskBit (opIdx e.a) k || (s.til (tix sh n)).maskBit (opIdx e.b) k
            | 0x7A => (s.til (tix sh n)).maskBit (opIdx e.a) k != (s.til (tix sh n)).maskBit (opIdx e.b) k
            | _ => !((s.til (tix sh n)).maskBit (opIdx e.a) k))))).vm ∧
        (u.til (tix sh n)).insts = (s.til (tix sh n)).insts.filter (fun j => j.id != i.id) ∧
        ∀ t', t' ≠ tix sh n → u.til t' = s.til t') ∧
    (vkind e.opc ≠ .mask → s.vecDescBad (tix sh n) e = none → s.tileShort (tix sh n) e i.conv = false →
      s.chunkReady (tix sh n) i e e0 m = false → exec (.vectorChunkIssue sh n) s = .next s) ∧
    (∀ (s1 : State) (ins : List (List VIn)),
      vkind e.opc ≠ .mask → vkind e.opc ≠ .gather → s.vecDescBad (tix sh n) e = none →
      s.tileShort (tix sh n) e i.conv = false → s.chunkReady (tix sh n) i e e0 m = true →
      s.readAll (tix sh n) i e e0 m 0 (dataOperands e) = .ok (s1, ins) →
      ∀ k : State × Inst, k = s1.takeBank (tix sh n) { i with poisoned := i.poisoned + poisonedInputs ins lives } e →
      ((poisonedInputs ins lives = 0 ∨ s.flag .TIL_VE_CTRL_POISON_FAULT (tix sh n) = false) →
        exec (.vectorChunkIssue sh n) s = .next (if vkind e.opc = .row then
          (k.1.count (tcKey (tix sh n) 17) m).finishChunk (tix sh n) k.2 e (e0 / 64)
            (rowResults e.opc ((ins.getD 0 []).zip lives))
        else
          (k.1.count (tcKey (tix sh n) 17) m).finishChunk (tix sh n) k.2 e e0 (laneResults e i.conv
            (converts e && cwRound (cword i.conv) == 2) ins lives
            ((List.range m).map (fun j => (s.til (tix sh n)).maskBit (opIdx e.c) (e0 + j)))))) ∧
      (poisonedInputs ins lives ≠ 0 → s.flag .TIL_VE_CTRL_POISON_FAULT (tix sh n) = true →
        exec (.vectorChunkIssue sh n) s = .next (((s.setFlag .TIL_VE_STATUS_POISON_SEEN (tix sh n) true).satAdd
          .TIL_VE_STATUS_POISON_IN (tix sh n) (i.poisoned + poisonedInputs ins lives)).progFault (tix sh n) 0x35 i.pc
            (tilDetail i.pc 4 0 (i.poisoned + poisonedInputs ins lives) 0))))

/-- What a lane gives (R117 to R119): the 32-bit integer operations wrap and take the low five bits of a shift count (the
model's reading: notes/assumptions/21.md), the floating-point operations give their exact value, FCMP its bit, the elementary
functions their correctly rounded FP32, WADD the saturating W64 sum, FSGN the first operand's magnitude with the second's sign,
SEL the operand its mask bit chooses; a masked lane is not live, and an unmasked one is poisoned when any operand is, whatever the
operation. -/
def Obligations.LanesCompute : Prop :=
  ∀ (e : Enc) (conv : List Word) (zneg : Bool) (ins : List (List VIn)) (lives sels : List Bool) (j : Nat) (a b c : VIn),
    j < lives.length → a = (ins.getD 0 []).getD j VIn.none → b = (ins.getD 1 []).getD j VIn.none →
    c = (ins.getD 2 []).getD j VIn.none →
    (laneResults e conv zneg ins lives sels).length = lives.length ∧
    ∃ r, (laneResults e conv zneg ins lives sels)[j]? = some r ∧ r.live = lives.getD j false ∧
      (e.opc = 0x60 → r.bits = (a.bits + b.bits) % 2 ^ 32) ∧
      (e.opc = 0x61 → r.bits = (a.bits + 2 ^ 32 - b.bits) % 2 ^ 32) ∧
      (e.opc = 0x62 → r.bits = (if signedOf 32 a.bits ≤ signedOf 32 b.bits then a.bits else b.bits)) ∧
      (e.opc = 0x63 → r.bits = (if signedOf 32 a.bits ≤ signedOf 32 b.bits then b.bits else a.bits)) ∧
      (e.opc = 0x64 → r.bits = a.bits &&& b.bits) ∧ (e.opc = 0x65 → r.bits = a.bits ||| b.bits) ∧
      (e.opc = 0x66 → r.bits = a.bits ^^^ b.bits) ∧ (e.opc = 0x67 → r.bits = a.bits * 2 ^ (b.bits % 32) % 2 ^ 32) ∧
      (e.opc = 0x68 → r.bits = a.bits / 2 ^ (b.bits % 32)) ∧
      (e.opc = 0x6A → r.bits = (w64Add (BitVec.ofNat 64 a.bits) (BitVec.ofNat 64 b.bits)).1.toNat) ∧
      (e.opc = 0x40 → r.src = a.val.add zneg b.val) ∧ (e.opc = 0x41 → r.src = a.val.add zneg b.val.negate) ∧
      (e.opc = 0x42 → r.src = a.val.mul b.val) ∧ (e.opc = 0x43 → r.src = (a.val.mul b.val).add zneg c.val) ∧
      (e.opc = 0x44 → r.src = a.val.min b.val) ∧ (e.opc = 0x45 → r.src = a.val.max b.val) ∧
      (e.opc = 0x46 → r.src = a.val.abs) ∧ (e.opc = 0x47 → r.src = a.val.negate) ∧
      (e.opc = 0x48 → r.src = withSign a.val (bitAt b.bits (if mode16 e then 15 else 31))) ∧
      (e.opc = 0x49 → r.bits = (if compareOp (veCond e) a.val b.val then 1 else 0)) ∧
      (e.opc = 0x4A → r.src = (if sels.getD j false then a.val else b.val)) ∧
      (e.opc = 0x4B → r.src = a.val) ∧ (e.opc = 0x6B → r.src = a.val) ∧
      (e.opc = 0x50 → r.bits = fnRcp a.val) ∧ (e.opc = 0x51 → r.bits = fnSqrt a.val) ∧
      (e.opc = 0x52 → r.bits = fnRsqrt a.val) ∧ (e.opc = 0x53 → r.bits = fnExp a.val) ∧
      (e.opc = 0x54 → r.bits = fnExp2 a.val) ∧ (e.opc = 0x55 → r.bits = fnLog a.val) ∧
      (e.opc = 0x56 → r.bits = fnLog2 a.val) ∧ (e.opc = 0x57 → r.bits = fnTanh a.val) ∧
      (e.opc = 0x58 → r.bits = fnSigm a.val) ∧
      r.poison = (lives.getD j false && (a.poison || (decide (2 ≤ (dataOperands e).length) && b.poison) ||
        (decide (3 ≤ (dataOperands e).length) && c.poison)))

/-- The statistic record of a watched instruction (R128, R130, R154): its bank is free again, the 64 bytes of the record
lie at the store offset its block names, and the instruction completes; with no bank ready nothing happens. -/
def Obligations.StatisticRecordsAreWritten : Prop :=
  ∀ (sh : Fin 12) (n : Fin 64) (s : State), s.unitsRun (tix sh n) = true →
    (∀ (k : Nat) (b : StatBank) (i : Inst) (j : Job),
      (s.til (tix sh n)).readyBank = some (k, b) → (s.til (tix sh n)).insts.find? (fun i => i.id == b.inst) = some i →
      (s.til (tix sh n)).job = some j →
      exec (.statisticRecordWrite sh n) s = .next ((((s.setTil (tix sh n) { s.til (tix sh n) with
        banks := Tbl.put (s.til (tix sh n)).banks k StatBank.empty }).storeWrite (tix sh n)
          (((List.range 64).map (fun x => cbRecord i.conv + x)).zip ((clean (statRecord i.conv (taps (encOf i.word) i.conv)
            j.layer.toNat j.operator.toNat b)).map some))).stepped (tix sh n)).retire (tix sh n) i.id)) ∧
    ((s.til (tix sh n)).readyBank = none → exec (.statisticRecordWrite sh n) s = .next s)

/-! ### Glumes and step barriers -/

/-- Signals, waits and the host's window onto Glumes (R188 to R193, R198 to R205, R228 to R230): the signals that reach an owned
Glume of a module bank in one cycle add their values, and the Glume holds at the last value with one record of class 0x23 that
carries their sum; a frozen Glume drops a signal and counts it, a free one refuses it with class 0x21, bank 15 with class 0x2A. The
signals of a cycle are among those to that Glume and keep their order, and a host signal to another Glume that is first lets no
later host signal pass. A Glume at its threshold wakes the waiting Tiller and fires the notify; a wait that is over its time faults
the program or the command with class 0x22. The host's signal is sent from Rachis B; its read gives the value of a Glume of its
context, and 0 in a window that is not read. -/
def Obligations.GlumesSignalAndWait : Prop :=
  ∀ s : State,
    (∀ (pid n : BitVec 16) (x : Sig) (rest : List Sig) (s0 : State) (g : Glume),
      takeSigs pid n.toNat false s.signals = ([x], rest) → s0 = { s with signals := rest } → g = s.glume x.pid.toNat →
      (x.pid.toNat / 4096 ≠ 15 → s.bankFenced x.pid.toNat = false → g.st = .frozen → g.owner = x.ctx →
        exec (.glumeSignalApply pid n) s = .next (s0.satAdd .GLM_STATUS_DROPPED 0 1)) ∧
      (x.pid.toNat / 4096 ≠ 15 → g.st = .free →
        exec (.glumeSignalApply pid n) s = .next (s0.raiseCtx 0x21 x.ctx.toNat ⟨3, x.pid.toNat / 4096 % 16⟩
          (glumeDetail x.vid.toNat x.pid.toNat 0 0 x.value.toNat))) ∧
      (x.pid.toNat / 4096 = 15 →
        exec (.glumeSignalApply pid n) s = .next (s0.raiseCtx 0x2A x.ctx.toNat ⟨3, 15⟩
          (glumeDetail x.vid.toNat x.pid.toNat 0 0 x.value.toNat)))) ∧
    (∀ (pid n : BitVec 16) (x : Sig) (xs rest : List Sig) (s0 : State) (g : Glume) (total : Nat),
      takeSigs pid n.toNat false s.signals = (x :: xs, rest) → s0 = { s with signals := rest } → g = s.glume pid.toNat →
      pid.toNat / 4096 ≠ 15 → s.bankFenced pid.toNat = false → g.st = .owned → (∀ y ∈ x :: xs, y.ctx = g.owner) →
      total = ((x :: xs).map (fun y => y.value.toNat)).sum →
      (g.value.toNat + total < 2 ^ 64 →
        exec (.glumeSignalApply pid n) s = .next (s0.setGlume pid.toNat
          { g with value := BitVec.ofNat 64 (g.value.toNat + total) })) ∧
      (2 ^ 64 ≤ g.value.toNat + total →
        exec (.glumeSignalApply pid n) s = .next ((s0.setGlume pid.toNat
          { g with value := BitVec.ofNat 64 (2 ^ 64 - 1) }).raiseCtx 0x23 x.ctx.toNat ⟨3, pid.toNat / 4096 % 16⟩
            (glumeDetail x.vid.toNat pid.toNat 0 0 (min total (2 ^ 64 - 1)))))) ∧
    (∀ pid n : BitVec 16, (∀ y ∈ s.signals, y.pid ≠ pid) → exec (.glumeSignalApply pid n) s = .next s) ∧
    (∀ (pid : BitVec 16) (n : Nat) (l : List Sig),
      (takeSigs pid n false l).1.Sublist l ∧ (takeSigs pid n false l).2.Sublist l ∧ (takeSigs pid n false l).1.length ≤ n ∧
      (∀ x ∈ (takeSigs pid n false l).1, x.pid = pid) ∧
      (∀ (y : Sig) (l' : List Sig), l = y :: l' → y.host = true → y.pid ≠ pid →
        ∀ x ∈ (takeSigs pid n false l).1, x.host = false)) ∧
    (∀ (sh : Fin 12) (n : Fin 64) (w : WaitPosed), (s.til (tix sh n)).wait = some w →
      (s.ready = true → w.thresh.toNat ≤ s.glumeValue w.pid.toNat →
        exec (.waitSatisfied (.tiller sh n)) s = .next (s.wakeTiller (tix sh n) w.vid.toNat w.thresh.toNat
          (s.glumeValue w.pid.toNat))) ∧
      (s.glumeValue w.pid.toNat < w.thresh.toNat → exec (.waitSatisfied (.tiller sh n)) s = .next s) ∧
      (s.waitOver (s.tctx (tix sh n)) w = true →
        exec (.waitTimeout (.tiller sh n)) s = .next (s.progFault (tix sh n) 0x22 (s.pc (tix sh n))
          (glumeDetail w.vid.toNat w.pid.toNat (sh.val * 1024 + n.val)
            (min (w.thresh.toNat - s.glumeValue w.pid.toNat) 0xFFFF) w.thresh.toNat))) ∧
      (s.fld .GLM_CTX_CFG_TMULT (s.tctx (tix sh n)) = 0 → exec (.waitTimeout (.tiller sh n)) s = .next s)) ∧
    (∀ r : BitVec 14, exec (.waitSatisfied (.command r)) s = .next (s.evalHead r.toNat)) ∧
    (∀ (r : BitVec 14) (w : WaitPosed), (s.ring r.toNat).waits = [some w, none] →
      s.waitOver (s.owner r.toNat) w = true →
      exec (.waitTimeout (.command r)) s = .next ((s.raiseCtx 0x22 (s.owner r.toNat) ⟨3, w.pid.toNat / 4096 % 16⟩
        (glumeDetail w.vid.toNat w.pid.toNat (0x4000 + r.toNat) (min (w.thresh.toNat - s.glumeValue w.pid.toNat) 0xFFFF)
          w.thresh.toNat)).headFault r.toNat 0x22)) ∧
    (∀ c : BitVec 12, exec (.waitSatisfied (.notify c)) s = exec (.notifyFire c) s ∧
      exec (.waitTimeout (.notify c)) s = .next s) ∧
    (∀ k : Fin 16, exec (.waitSatisfied (.barrier k)) s = .next s ∧ exec (.waitTimeout (.barrier k)) s = .next s) ∧
    (∀ (t : Nat) (vid th v : Nat) (u : State), s.tstate t = 5 → (s.til t).stepping = false → (s.til t).halting = false →
      u = s.wakeTiller t vid th v → (u.til t).wait = none ∧ (u.til t).gated = false ∧ u.pc t = (s.pc t + 1) % 2 ^ 16 ∧
        u.tstate t = 4) ∧
    (∀ (c : BitVec 12) (w : WaitPosed), (s.ctx c.toNat).notify = some w →
      exec (.notifyFire c) s = .next (if w.thresh.toNat ≤ s.glumeValue w.pid.toNat then
        ((s.setCtx c.toNat { s.ctx c.toNat with notify := none }).setFlag .GLM_CTX_NOTIFY_ARMED c.toNat false).setVector
          c.toNat 2 else s)) ∧
    (∀ (c : BitVec 12) (vid : BitVec 16) (s0 s1 : State) (pid th : Nat), s.window c.toNat = true →
      th = s.fld .GLM_CTX_NOTIFY_THRESH_THRESH c.toNat → th ≠ 0 →
      s0 = (s.setFld .GLM_CTX_NOTIFY_VID c.toNat vid.toNat).setFlag .GLM_CTX_NOTIFY_ARMED c.toNat true →
      s0.glumeXlat 13 c.toNat vid.toNat = (s1, .ok pid) → pid < 2 ^ 16 → th < 2 ^ 64 → s1.glumeValue pid < th →
      exec (.notifyArm c vid) s = .next (s1.setCtx c.toNat { s1.ctx c.toNat with
        notify := some ⟨BitVec.ofNat 16 vid.toNat, BitVec.ofNat 16 pid, BitVec.ofNat 64 th, s1.now⟩ })) ∧
    (∀ (c : BitVec 12) (vid : BitVec 16), s.window c.toNat = true →
      s.fld .GLM_CTX_SIG_VALUE_VALUE c.toNat ≠ 0 → ∀ (s1 : State) (pid : Nat),
      s.glumeXlat 13 c.toNat vid.toNat = (s1, .ok pid) →
      exec (.hostSignal c vid) s = .next { s1 with signals := s1.signals ++
        [⟨BitVec.ofNat 12 c.toNat, BitVec.ofNat 16 vid.toNat, BitVec.ofNat 16 pid,
          BitVec.ofNat 64 (s.fld .GLM_CTX_SIG_VALUE_VALUE c.toNat), true⟩] }) ∧
    (∀ (c : BitVec 12) (s1 : State) (pid : Nat), s.windowReads c.toNat = true →
      s.glumePid 13 c.toNat (s.fld .GLM_CTX_READ_VID c.toNat) = (s1, .ok pid) → (s1.glume pid).st ≠ .free →
      (s1.glume pid).owner = c →
      exec (.glumeValueRead c) s = .next (({ s1 with readData := BitVec.ofNat 64 (s1.glumeValue pid) } : State).setFld
        .GLM_CTX_VALUE_VALUE c.toNat (s1.glumeValue pid))) ∧
    (∀ c : BitVec 12, s.windowReads c.toNat = false → exec (.glumeValueRead c) s = .next { s with readData := 0 })

/-- Glume administration (R194, R197, R219, R221): ALLOCATE makes a free Glume owned with the value of GLM_ADMIN_VALUE,
FREEZE an owned one frozen and fails the waits on it, FREE a frozen one free with value 0, READ gives the value; each begins
its busy time, and the write is audited. ALLOCATE of a Glume that is not free refuses with code 1, FREEZE of one not owned and
FREE of one not frozen with code 2, and any of them with code 4 while an operation is in progress. An invalidation takes the named
entries from every translation cache when it is over. -/
def Obligations.GlumesAreAdministered : Prop :=
  ∀ (s : State) (o : Origin) (pid : BitVec 16),
    (s.answers o .GLM_ADMIN → ∀ s0 : State, s0 = s.latch .GLM_ADMIN 0 pid.toNat →
      (∀ c : BitVec 12, s.adminPid = none → (s.glume pid.toNat).st = .free →
        exec (.glumeAllocate o pid c) s = .next (s.auditOf { (s0.setGlume pid.toNat ⟨.owned, c,
            BitVec.ofNat 64 (s.fld .GLM_ADMIN_VALUE_VALUE 0)⟩).setCopies pid.toNat (s.fld .GLM_ADMIN_VALUE_VALUE 0) with
              adminPid := some (1, pid) } true (Origin.audit o) .GLM_ADMIN 0 (2 ^ 60 + c.toNat * 2 ^ 32 + pid.toNat))) ∧
      (∀ c : BitVec 12, s.adminPid = none → (s.glume pid.toNat).st ≠ .free →
        exec (.glumeAllocate o pid c) s = .next (s.auditOf ((s0.setFlag .GLM_STATUS_ADMIN_ERR 0 true).setFld
          .GLM_STATUS_ADMIN_CODE 0 1) true (Origin.audit o) .GLM_ADMIN 0 (2 ^ 60 + c.toNat * 2 ^ 32 + pid.toNat))) ∧
      (s.adminPid = none → (s.glume pid.toNat).st = .owned →
        exec (.glumeFreeze o pid) s = .next (s.auditOf { (s0.setGlume pid.toNat
            { s.glume pid.toNat with st := .frozen }).failWaits pid.toNat 0x26 with adminPid := some (2, pid) }
              true (Origin.audit o) .GLM_ADMIN 0 (2 * 2 ^ 60 + pid.toNat))) ∧
      (s.adminPid = none → (s.glume pid.toNat).st ≠ .owned →
        exec (.glumeFreeze o pid) s = .next (s.auditOf ((s0.setFlag .GLM_STATUS_ADMIN_ERR 0 true).setFld
          .GLM_STATUS_ADMIN_CODE 0 2) true (Origin.audit o) .GLM_ADMIN 0 (2 * 2 ^ 60 + pid.toNat))) ∧
      (s.adminPid = none → (s.glume pid.toNat).st = .frozen →
        exec (.glumeFree o pid) s = .next (s.auditOf { (s0.setGlume pid.toNat ⟨.free, 0, 0⟩).setCopies pid.toNat 0 with
            adminPid := some (3, pid) } true (Origin.audit o) .GLM_ADMIN 0 (3 * 2 ^ 60 + pid.toNat))) ∧
      (s.adminPid = none → (s.glume pid.toNat).st ≠ .frozen →
        exec (.glumeFree o pid) s = .next (s.auditOf ((s0.setFlag .GLM_STATUS_ADMIN_ERR 0 true).setFld
          .GLM_STATUS_ADMIN_CODE 0 2) true (Origin.audit o) .GLM_ADMIN 0 (3 * 2 ^ 60 + pid.toNat))) ∧
      (s.adminPid = none →
        exec (.glumeRead o pid) s = .next (s.auditOf { s0.setFld .GLM_ADMIN_VALUE_VALUE 0 (s.glumeValue pid.toNat) with
            adminPid := some (4, pid) } true (Origin.audit o) .GLM_ADMIN 0 (4 * 2 ^ 60 + pid.toNat))) ∧
      (s.adminPid ≠ none → ∀ (c : BitVec 12) (p : Instr × Nat),
        p ∈ [(Instr.glumeAllocate o pid c, 2 ^ 60 + c.toNat * 2 ^ 32), (.glumeFreeze o pid, 2 * 2 ^ 60),
          (.glumeFree o pid, 3 * 2 ^ 60), (.glumeRead o pid, 4 * 2 ^ 60)] →
        exec p.1 s = .next (s.auditOf ((s0.setFlag .GLM_STATUS_ADMIN_ERR 0 true).setFld
          .GLM_STATUS_ADMIN_CODE 0 4) true (Origin.audit o) .GLM_ADMIN 0 (p.2 + pid.toNat)))) ∧
    exec .glumeAdminComplete s = .next { s with adminPid := none } ∧
    (∀ (c : BitVec 12) (all : Bool) (vid : BitVec 16), s.answers o .GLM_XLAT_INVAL → s.glmInval = none →
      exec (.xlatInval o c all vid) s = .next { s.latch .GLM_XLAT_INVAL 0 ((if all then 65536 else 0) + vid.toNat) with
        glmInval := some (c, all, vid) }) ∧
    (∀ (c : BitVec 12) (all : Bool) (vid : BitVec 16), s.glmInval = some (c, all, vid) →
      exec .xlatInvalComplete s = .next { s with
        glmInval := none,
        gcaches := s.gcaches.map (fun p => (p.1, p.2.filter (fun e => !(e.ctx == c && (all || e.vid == vid))))) })

/-- Step barriers (R211 to R215): a slot is configured while it is not enabled; a module whose arrival Glume and child
tokens are in arrives once, the root releases at T, the smallest multiple of 10 ns at or above MTIME + LEAD, and another sends
its token to its parent. A token that stands at the front of the units that its port has received is taken and its units are
freed: a child's token counts, and brings its stretch; a release token is forwarded at once and kept for T, and one that comes at
or after T releases at once with LATE and class 0x25; a token of a slot not enabled is dropped and counted, one of another round is
class 0x29. At T the round is released and counted; a round that is not released in time is TIMEOUT and class 0x28, once. A token
that a port does not take at once waits there. -/
def Obligations.BarriersArriveAndRelease : Prop :=
  ∀ (s : State) (k : Fin 16) (b : Barrier), b = Tbl.get Barrier.reset s.barriers k.val →
    (∀ (o : Origin) (reg : Fin 2) (v : Word) (r : Reg) (s1 : State), r = (if reg.val = 0 then .GLM_BAR_CFG0 else .GLM_BAR_CFG1) →
      s.answers o r → s.flag .GLM_BAR_CFG0_ENABLE k.val = false → s1 = s.writeReg r k.val (2 ^ 64 - 1) v.toNat →
      exec (.barrierSlotConfig o k reg v) s = .next (s.auditChange (if s1.flag .GLM_BAR_CFG0_ENABLE k.val then
        (s1.setFld .GLM_BAR_STATUS_ROUND k.val 0).setBarrier k.val Barrier.reset else s1) o r k.val v.toNat)) ∧
    (s.flag .GLM_BAR_CFG0_ENABLE k.val = true → b.arrivedAt = none →
      (∀ p < 8, bitAt (s.fld .GLM_BAR_CFG0_CHILDREN k.val) p = true → b.tokens.getLsbD p = true) →
      ∀ s1 : State, s.barWait k.val = (s1, true) → s1.barrier k.val = b →
        s1.flag .GLM_BAR_CFG0_ROOT k.val = false →
        exec (.barrierArrive k) s = .next ((s1.setBarrier k.val { b with arrivedAt := some s1.now }).sendToken
          (s1.fld .GLM_BAR_CFG0_PARENT k.val) false k.val (s1.fld .GLM_BAR_STATUS_ROUND k.val + 1) 0
            (s1.barStretch k.val))) ∧
    (s.flag .GLM_BAR_CFG0_ENABLE k.val = true → b.arrivedAt = none →
      (∀ p < 8, bitAt (s.fld .GLM_BAR_CFG0_CHILDREN k.val) p = true → b.tokens.getLsbD p = true) →
      ∀ (s1 : State) (t : Nat), s.barWait k.val = (s1, true) → s1.barrier k.val = b →
        s1.flag .GLM_BAR_CFG0_ROOT k.val = true → t = (s1.now + s1.fld .GLM_BAR_LEAD_LEAD_NS 0 + 9) / 10 * 10 →
        exec (.barrierArrive k) s = .next ((s1.setBarrier k.val
          { b with arrivedAt := some s1.now, release := some (t, s1.barStretch k.val) }).sendRelease k.val
            (s1.fld .GLM_BAR_STATUS_ROUND k.val + 1) t (s1.barStretch k.val))) ∧
    (∀ (p : Fin 8) (hdr : BitVec 256) (round : BitVec 32) (st : BitVec 16) (ctl : Bool) (pk : Pkt) (s1 : State),
      s.comes p.val 9 hdr (tokenBytes false k.val round.toNat 0 st) ctl pk →
      s1 = (s.taken p.val hdr (tokenBytes false k.val round.toNat 0 st) ctl pk).freePkt p.val pk →
      (s1.flag .GLM_BAR_CFG0_ENABLE k.val = true →
        round.toNat = (s1.fld .GLM_BAR_STATUS_ROUND k.val + 1) % 2 ^ 32 →
        exec (.arrivalToken p hdr k round st) s = .next (s1.setBarrier k.val { s1.barrier k.val with
          tokens := (s1.barrier k.val).tokens ||| (1#8 <<< p.val)
          stretch := if s1.stretches k.val then
            BitVec.ofNat 8 (max (s1.barrier k.val).stretch.toNat (st.toNat % 256)) else (s1.barrier k.val).stretch })) ∧
      (s1.flag .GLM_BAR_CFG0_ENABLE k.val = false →
        exec (.arrivalToken p hdr k round st) s = .next (s1.satAdd .GLM_STATUS_DROPPED 0 1)) ∧
      (s1.flag .GLM_BAR_CFG0_ENABLE k.val = true →
        round.toNat ≠ (s1.fld .GLM_BAR_STATUS_ROUND k.val + 1) % 2 ^ 32 →
        exec (.arrivalToken p hdr k round st) s =
          .next ((s1.setFlag .GLM_BAR_STATUS_MISMATCH k.val true).barRaise 0x29 k.val round.toNat))) ∧
    (∀ (p : Fin 8) (hdr : BitVec 256) (round : BitVec 32) (t : Word) (st : BitVec 16) (ctl : Bool) (pk : Pkt) (s1 s2 : State),
      s.comes p.val 9 hdr (tokenBytes true k.val round.toNat t.toNat st) ctl pk →
      s1 = (s.taken p.val hdr (tokenBytes true k.val round.toNat t.toNat st) ctl pk).freePkt p.val pk →
      s2 = s1.sendRelease k.val round.toNat t.toNat st →
      (s1.flag .GLM_BAR_CFG0_ENABLE k.val = true → round.toNat = (s1.fld .GLM_BAR_STATUS_ROUND k.val + 1) % 2 ^ 32 →
        (s1.now < t.toNat → exec (.releaseToken p hdr k round t st) s =
          .next (s2.setBarrier k.val { s2.barrier k.val with release := some (t.toNat, st) })) ∧
        (t.toNat ≤ s1.now → exec (.releaseToken p hdr k round t st) s =
          .next (((s2.setFlag .GLM_BAR_STATUS_LATE k.val true).barRaise 0x25 k.val round.toNat).release k.val t.toNat st))) ∧
      (s1.flag .GLM_BAR_CFG0_ENABLE k.val = false →
        exec (.releaseToken p hdr k round t st) s = .next (s1.satAdd .GLM_STATUS_DROPPED 0 1)) ∧
      (s1.flag .GLM_BAR_CFG0_ENABLE k.val = true →
        round.toNat ≠ (s1.fld .GLM_BAR_STATUS_ROUND k.val + 1) % 2 ^ 32 →
        exec (.releaseToken p hdr k round t st) s =
          .next ((s1.setFlag .GLM_BAR_STATUS_MISMATCH k.val true).barRaise 0x29 k.val round.toNat))) ∧
    (∀ (p : Nat) (pk : Pkt), (s.port p).hopQ = [] →
      (s.canSend p 0 pk.units = true →
        s.sendHop p pk = (s.stage p 0 pk).setPort p { (s.stage p 0 pk).port p with hopQ := [] }) ∧
      (s.canSend p 0 pk.units = false → s.sendHop p pk = s.setPort p { s.port p with hopQ := [pk] })) ∧
    (∀ (t : Nat) (st : BitVec 16), b.release = some (t, st) → s.flag .GLM_BAR_CFG0_ENABLE k.val = true →
      (s.now < t → exec (.barrierRelease k) s = .next s) ∧
      (t ≤ s.now → exec (.barrierRelease k) s = .next (s.release k.val t st))) ∧
    (∀ t0 : Nat, b.arrivedAt = some t0 → s.flag .GLM_BAR_CFG0_ENABLE k.val = true → b.timedOut = false →
      s.fld .GLM_BAR_LEAD_ARR_TMO_US 0 * 1000 ≤ s.now - t0 →
      exec (.barrierRoundTimeout k) s = .next (((s.setBarrier k.val { b with timedOut := true }).setFlag
        .GLM_BAR_STATUS_TIMEOUT k.val true).barRaise 0x28 k.val (s.fld .GLM_BAR_STATUS_ROUND k.val + 1))) ∧
    (∀ (t : Nat) (st : BitVec 16) (u : State), u = s.release k.val t st → t < 2 ^ 64 →
      u.barrier k.val = Barrier.reset ∧ u.fld .GLM_BAR_LAST_MTIME k.val = t ∧
      u.fld .GLM_BAR_STATUS_ROUND k.val = (s.fld .GLM_BAR_STATUS_ROUND k.val + 1) % 2 ^ 32)

/-! ### Command rings and contexts -/

/-- Doorbells, enabling and fetching (R275 to R278, R286, R302): the line of a doorbell is read at a snoop in watch mode and, when
its interval has passed, at a poll in poll mode, for every ring that shares it; a ring takes a TAIL in range from its word, a
poisoned word is ignored, and a TAIL out of range is ignored with class 0x16, once for each value; a ring is enabled, or refused
with class 0x17 and its reason; the head's command is fetched as the 64 bytes that stand at its address, and one that comes poisoned
faults the head with class 0x14. -/
def Obligations.RingsTakeDoorbells : Prop :=
  ∀ (s : State) (ring : BitVec 14) (r : Nat) (h : Option HostErr), r = ring.toNat →
    (s.ringWatched r = true → s.flag .CTX_RING_BASE_DBMODE r = false →
      exec (.doorbellSnoop ring h) s = .next (s.readDoorbell r h)) ∧
    (s.ringWatched r = true → s.flag .CTX_RING_BASE_DBMODE r = true →
      (s.ring r).polledAt + max 100 (s.fld .CMD_CFG_POLL_NS 0) ≤ s.now →
      exec (.doorbellPoll ring h) s = .next ((s.setRing r { s.ring r with polledAt := s.now }).readDoorbell r h)) ∧
    (s.ringWatched r = true → s.now < (s.ring r).polledAt + max 100 (s.fld .CMD_CFG_POLL_NS 0) →
      exec (.doorbellPoll ring h) s = .next s) ∧
    (s.ringWatched r = false → exec (.doorbellSnoop ring h) s = .next s ∧ exec (.doorbellPoll ring h) s = .next s) ∧
    (∀ (s1 : State) (line : Option (List PByte)),
      s.readCva (s.fld .CTX_RING_CFG_HOME r) (s.fld .CTX_RING_CFG_CTX r) (s.fld .CTX_RING_CFG_DB_ADDR r * 8 / 64 * 64) 64 0
        (s.ringAcc r h) (pagesOf 64) = (s1, line) →
      s.readDoorbell r h = (match line with
        | some l => (s.lineRings r).foldl (fun u k => u.takeDoorbell l k) s1
        | none => s1)) ∧
    (∀ (line w : List PByte) (v : Nat) (s1 : State), w = (line.drop (s.fld .CTX_RING_CFG_DB_ADDR r * 8 % 64)).take 8 →
      v = leNat (vals w) → s1 = s.setRing r { s.ring r with polledAt := s.now } →
      (anyPoison w = true → s.takeDoorbell line r = s1) ∧
      (anyPoison w = false → (s.ring r).tail ≤ v → v ≤ s1.headShown r + s1.cmdEntries r →
        s.takeDoorbell line r = s1.setRing r { s1.ring r with tail := v }) ∧
      (anyPoison w = false → v < (s.ring r).tail ∨ s1.headShown r + s1.cmdEntries r < v →
        (BitVec.ofNat 64 v ∈ (s.ring r).badTails → s.takeDoorbell line r = s1) ∧
        (BitVec.ofNat 64 v ∉ (s.ring r).badTails →
          s.takeDoorbell line r = (s1.setRing r { s1.ring r with
            badTails := (s1.ring r).badTails ++ [BitVec.ofNat 64 v] }).raiseCtx 0x16 (s1.fld .CTX_RING_CFG_CTX r)
              ⟨1, s1.fld .CTX_RING_CFG_HOME r⟩ (v % 2 ^ 64 + r * 2 ^ 64)))) ∧
    (s.answers .pf .CTX_RING_BASE → s.flag .CTX_RING_BASE_ENABLE r = false →
      (s.enableRefused r = none → exec (.ringEnable .pf ring) s =
        .next ((s.setRing r { s.ring r with polledAt := s.now }).setFlag .CTX_RING_BASE_ENABLE r true)) ∧
      (∀ reason, s.enableRefused r = some reason → exec (.ringEnable .pf ring) s =
        .next (s.raiseCtx 0x17 (s.fld .CTX_RING_CFG_CTX r) ⟨1, s.fld .CTX_RING_CFG_HOME r⟩ (r + reason * 2 ^ 64)))) ∧
    (∀ s1 : State, s.ringLive r = true → s.nextFetch r = some (s.fld .CTX_RING_HEAD_HEAD r) →
      (∀ bytes : List Byte,
        s.readFor r (s.fld .CTX_RING_BASE_BASE r * 64 + 64 * (s.fld .CTX_RING_HEAD_HEAD r % s.cmdEntries r)) 64 2 h =
          (s1, .ok bytes) →
        exec (.commandFetch ring h) s = .next ((s1.setRing r { s1.ring r with
          fetched := Tbl.put (s1.ring r).fetched (s.fld .CTX_RING_HEAD_HEAD r)
            ⟨BitVec.ofNat 512 (leNat bytes)⟩ }).settleHead r)) ∧
      (s.readFor r (s.fld .CTX_RING_BASE_BASE r * 64 + 64 * (s.fld .CTX_RING_HEAD_HEAD r % s.cmdEntries r)) 64 2 h =
          (s1, .poisoned) →
        exec (.commandFetch ring h) s = .next (s1.headFault r 0x14))) ∧
    (s.ringLive r = false → exec (.commandFetch ring h) s = .next s)

/-- Commands start (R165, R166, R169, R279 to R284): the head of a ring that runs, with its waits satisfied and no other ring's
earlier head on the same Tillers, starts: NOP alone; RUN when its Tillers hold no command, with the image loaded where another is
resident, the patch list applied and the replays begun; XFER with the operations of its list in the engines of its Sheafs. HEAD
moves on, and the command is among the running ones. A command of any kind that is refused stops the ring with class 0x10; one
whose waits are open, or whose turn it is not, waits. -/
def Obligations.CommandsStart : Prop :=
  ∀ (s s2 : State) (ring : BitVec 14) (r : Nat) (cmd : BitVec 512) (h : Option HostErr), r = ring.toNat →
    s.settleHead r = s → s.ringLive r = true → s.headCancelled r = false → s.headCmd r = some cmd →
    s2 = s.evalHead r →
    (∀ p ∈ [(Instr.commandNop ring, 0), (.run ring h, 1), (.xfer ring h, 2)], cmdKind cmd = p.2 →
      (∀ reason, cmdRefused cmd (s.fld .CTX_RING_CFG_CTX r) = some reason →
        exec p.1 s = .next ((s.stopHead r 0x10).raiseCtx 0x10 (s.fld .CTX_RING_CFG_CTX r)
          ⟨1, s.fld .CTX_RING_CFG_HOME r⟩ (s.fld .CTX_RING_HEAD_HEAD r % 2 ^ 64 + r * 2 ^ 64 + reason * 2 ^ 80))) ∧
      (cmdRefused cmd (s.fld .CTX_RING_CFG_CTX r) = none →
        s2.otherwiseReady r = false ∨ (s2.namesLost cmd = false ∧ s2.myTurn r cmd = false) → exec p.1 s = .next s2)) ∧
    (3 ≤ cmdKind cmd → exec (.commandNop ring) s = .next ((s.stopHead r 0x10).raiseCtx 0x10 (s.fld .CTX_RING_CFG_CTX r)
      ⟨1, s.fld .CTX_RING_CFG_HOME r⟩ (s.fld .CTX_RING_HEAD_HEAD r % 2 ^ 64 + r * 2 ^ 64))) ∧
    (cmdRefused cmd (s.fld .CTX_RING_CFG_CTX r) = none → s2.otherwiseReady r = true → s2.namesLost cmd = false →
      s2.myTurn r cmd = true →
      (cmdKind cmd = 0 → exec (.commandNop ring) s = .next (s2.startHead r cmd [] 0)) ∧
      (cmdKind cmd = 1 → ∀ ts : List Nat, ts = cmdTillers cmd →
        (ts.any (fun t => (s2.til t).job.isSome) = true → exec (.run ring h) s = .next s2) ∧
        (ts.any (fun t => (s2.til t).job.isSome) = false →
          (ts.any (fun t => s2.needsLoad t cmd) = false → cmdNPatch cmd = 0 →
            exec (.run ring h) s = .next ((ts.foldl (fun s t => s.startReplay t (s.jobOf r cmd)) s2).startHead r cmd ts 0)) ∧
          (∀ (s3 s4 s5 s6 : State) (img pl : List Byte),
            (if ts.any (fun t => s2.needsLoad t cmd) then s2.readImage r (cmdProg cmd) h else (s2, .ok [])) = (s3, .ok img) →
            (if cmdNPatch cmd = 0 then (s3, .ok []) else
              s3.readOn r true (cmdPatch cmd) (32 * cmdNPatch cmd) 3 h) = (s4, .ok pl) →
            imgBad img = none ∨ ts.any (fun t => s4.needsLoad t cmd) = false →
            s5 = (ts.filter (fun t => s4.needsLoad t cmd)).foldl (fun s t => s.loadImage t img) s4 →
            s5.patchList ts (splitNats 32 (cmdNPatch cmd) pl) 0 = (s6, none) →
            exec (.run ring h) s =
              .next ((ts.foldl (fun s t => s.startReplay t (s.jobOf r cmd)) s6).startHead r cmd ts 0)))) ∧
      (cmdKind cmd = 2 → ∀ (s3 : State) (ops : List Byte),
        s2.readOn r true (cmdProg cmd) (64 * cmdNPatch cmd) 2 h = (s3, .ok ops) →
        exec (.xfer ring h) s = .next ((s3.queueOps r cmd (splitNats 64 (cmdNPatch cmd) ops)).startHead r cmd []
          (cmdNPatch cmd)))) ∧
    (∀ (u : State) (ts : List Nat) (ops : Nat), u = s.startHead r cmd ts ops →
      u.fld .CTX_RING_HEAD_HEAD r = (s.fld .CTX_RING_HEAD_HEAD r + 1) % 2 ^ 64 ∧
      ∃ base, (u.ring r).running = (s.ring r).running ++
        [⟨s.fld .CTX_RING_HEAD_HEAD r, cmd, s.now, ts.map (fun t => (t, 0)), ops, none, base⟩])

/-- Commands end (R285, R289, R290): a command whose work is done sends its signals and writes its records and leaves the
running ones; a cancel moves UPTO forward only and discards the run-ahead of the commands that it covers; a cancelled head retires
with its signals sent and CANCELLED; RESUME lets a stopped ring go on behind the faulted command, one that was running or one at
the head that had not started. -/
def Obligations.CommandsEnd : Prop :=
  ∀ (s : State) (ring : BitVec 14) (r : Nat), r = ring.toNat →
    (∀ (pos : Word) (c : Running) (s1 : State), (s.ring r).running.find? (fun c => c.pos == pos.toNat) = some c →
      s.ready = true → c.fault = none → c.ops = 0 → (∀ p ∈ c.tillers, p.2 = 1) →
      s1 = (s.sendSigs r c.cmd).completion (s.fld .CTX_RING_CFG_CTX r) c.cmd pos.toNat r false false 0 (s.now - c.start) →
      exec (.commandComplete ring pos) s = .next (((((s1.trace 2 (s.fld .CTX_RING_CFG_CTX r)
        ⟨1, s.fld .CTX_RING_CFG_HOME r⟩ r pos.toNat 0).cmdRecord r pos.toNat c.cmd c.start c.base false false).dropRunning r
          pos.toNat).markReady r))) ∧
    (∀ pos : Word, (s.ring r).running.find? (fun c => c.pos == pos.toNat) = none →
      exec (.commandComplete ring pos) s = .next s) ∧
    (∀ (upto : Word) (x : Ring), s.answers .pf .CTX_RING_BASE →
      x = { s.ring r with
        upto := upto.toNat
        fetched := (s.ring r).fetched.filter (fun p =>
          p.1 == s.fld .CTX_RING_HEAD_HEAD r || decide (upto.toNat ≤ p.1)) } →
      ((s.ring r).upto < upto.toNat → upto.toNat ≤ s.fld .CTX_RING_HEAD_HEAD r →
        exec (.ringCancel .pf ring upto) s = .next ((s.latch .CTX_RING_CANCEL r upto.toNat).setRing r x)) ∧
      ((s.ring r).upto < upto.toNat → s.fld .CTX_RING_HEAD_HEAD r < upto.toNat →
        exec (.ringCancel .pf ring upto) s = .next (((s.latch .CTX_RING_CANCEL r upto.toNat).setRing r x).setRing r
          { x with waits := [], readyAt := none, imgBuf := [], listBuf := [] })) ∧
      (upto.toNat ≤ (s.ring r).upto →
        exec (.ringCancel .pf ring upto) s = .next (s.latch .CTX_RING_CANCEL r upto.toNat))) ∧
    (∀ (cmd : BitVec 512) (s1 : State), s.ringWatched r = true → (s.ring r).stopped = [] →
      s.fld .CTX_RING_HEAD_HEAD r < (s.ring r).upto → s.headCmd r = some cmd →
      s1 = (s.sendSigs r cmd).completion (s.fld .CTX_RING_CFG_CTX r) cmd (s.fld .CTX_RING_HEAD_HEAD r) r true false 0 0 →
      exec (.cancelledRetire ring) s = .next ((((s1.trace 2 (s.fld .CTX_RING_CFG_CTX r)
        ⟨1, s.fld .CTX_RING_CFG_HOME r⟩ r (s.fld .CTX_RING_HEAD_HEAD r) 1).cmdRecord r (s.fld .CTX_RING_HEAD_HEAD r) cmd
          s.now [] true false).dropHead r).settleHead r)) ∧
    (∀ (p : Nat) (cls : BitVec 8) (rest : List (Nat × BitVec 8)) (c : Running), s.answers .pf .CTX_RING_BASE →
      (s.ring r).stopped = (p, cls) :: rest → (s.ring r).running.find? (fun c => c.pos == p) = some c →
      exec (.ringResume .pf ring) s = .next ((((s.setRing r { s.ring r with stopped := rest }).cmdRecord r p c.cmd c.start
        c.base false true).dropRunning r p).settleHead r)) ∧
    (∀ (p : Nat) (cls : BitVec 8) (rest : List (Nat × BitVec 8)) (cmd : BitVec 512), s.answers .pf .CTX_RING_BASE →
      (s.ring r).stopped = (p, cls) :: rest → (s.ring r).running.find? (fun c => c.pos == p) = none → s.headCmd r = some cmd →
      exec (.ringResume .pf ring) s = .next ((((s.setRing r { s.ring r with stopped := rest }).cmdRecord r p cmd s.now []
        false true).dropHead r).settleHead r)) ∧
    (s.answers .pf .CTX_RING_BASE → (s.ring r).stopped = [] → exec (.ringResume .pf ring) s = .next s)

/-- Contexts (R274, R294 to R298, R303): the PF enables and disables one; RESUME of a frozen translation retries every
held walk, and then writes the records that waited; an invalidation takes the named entries from every cache when it completes; a
reset raises the epoch, discards what the context's rings, Tillers, transfers, flows, groups and caches hold and freezes its Glumes,
all under STATE 2, and its end disables its rings and is class 0x19; a pending vector sends its message when it is unmasked and its
interval has passed. -/
def Obligations.ContextsAreControlled : Prop :=
  ∀ (s : State) (c : BitVec 12) (k : Nat), k = c.toNat →
    (∀ (o : Origin), s.answers o .CTX_CFG → s.fld .CTX_STATUS_STATE k ≠ 2 →
      exec (.contextEnable o c false) s = .next (s.auditChange ((s.setFlag .CTX_CFG_ENABLE k false).setFld .CTX_STATUS_STATE
        k 0) o .CTX_CFG k (s.fld .CTX_CFG_EPOCH k)) ∧
      exec (.contextEnable o c true) s = .next (s.auditChange ((List.range 7).foldl (fun s j =>
        s.setFld .OBS_CTX_ANOM_COUNT (k * 7 + j) 0) ((s.setFlag .CTX_CFG_ENABLE k true).setFld .CTX_STATUS_STATE k 1)) o
          .CTX_CFG k (2 ^ 63 + s.fld .CTX_CFG_EPOCH k))) ∧
    (s.window k = true → s.flag .CTX_STATUS_FROZEN k = true →
      exec (.translationResume c) s = .next (((s.ctx k).heldWalks.foldl (fun s h => s.retryWalk k h)
        ((s.setCtx k { s.ctx k with heldWalks := [] }).setFlag .CTX_STATUS_FROZEN k false)).flushHeld k)) ∧
    (s.window k = true → s.flag .CTX_STATUS_FROZEN k = false → exec (.translationResume c) s = .next s) ∧
    (∀ (all : Bool) (cva : Word), s.window k = true → (s.ctx k).tlbInval = none →
      exec (.tlbInval c all cva) s = .next ((s.latch .CTX_TLB_INVAL k cva.toNat).setCtx k
        { s.ctx k with tlbInval := some (all, cva.toNat / 4096 % 2 ^ 36) })) ∧
    (∀ (all : Bool) (page : Nat), (s.ctx k).tlbInval = some (all, page) →
      exec (.tlbInvalComplete c) s = .next { s with
        tlbs := s.tlbs.map (fun p => (p.1, p.2.filter (fun e => !(e.ctx.toNat == k && (all || e.page == page))))),
        contexts := Tbl.put s.contexts k { s.ctx k with tlbInval := none } }) ∧
    (∀ u : State, s.window k = true → u = s.doCtxReset k (ctrlOff k) →
      exec (.contextReset c) s = .next u ∧ u.fld .CTX_STATUS_STATE k = 2 ∧
      u.fld .CTX_CFG_EPOCH k = (s.fld .CTX_CFG_EPOCH k + 1) % 2 ^ 16 ∧ (u.ctx k).notify = none ∧
      (k ≠ 0 ∨ s.mirror.rx = [] → u.flag .CTX_STATUS_FROZEN k = false ∧ (u.ctx k).heldWalks = [] ∧ (u.ctx k).heldRecs = []) ∧
      (∀ t, (s.til t).lastCtx = some c → (u.til t).insts = [] ∧ (u.til t).job = none ∧ (u.til t).ingress = [] ∧
        u.tstate t = 0) ∧
      (∀ p ∈ u.engines, ∀ o ∈ p.2, o.ctx.toNat ≠ k) ∧ (∀ p ∈ u.sendFlows, p.2.ctx.toNat ≠ k) ∧
      (∀ p ∈ u.recvFlows, p.2.ctx.toNat ≠ k) ∧ (∀ p ∈ u.glumes, p.2.st = .owned → p.2.owner.toNat ≠ k) ∧
      (∀ p ∈ u.rings, s.fld .CTX_RING_CFG_CTX p.1 = k → p.2.running = [] ∧ p.2.fetched = [] ∧ p.2.stopped = []) ∧
      (∀ p ∈ u.tlbs, ∀ e ∈ p.2, e.ctx.toNat ≠ k) ∧ (∀ p ∈ u.gcaches, ∀ e ∈ p.2, e.ctx.toNat ≠ k) ∧
      (∀ p ∈ u.groups, s.fld .COL_GRP_CFG0_CTX p.1 ≠ k) ∧ (∀ g < 256, s.fld .COL_GRP_CFG0_CTX g = k → u.flag .COL_GRP_CFG0_ARM g = false)) ∧
    (s.hostPort = true → k ≠ 0 → exec (.functionLevelReset c) s = .next (s.doCtxReset k 0xFFFFFFFF)) ∧
    (s.hostPort = true → k = 0 →
      exec (.functionLevelReset c) s = .next ((List.range 4096).foldl (fun s j => s.doCtxReset j 0xFFFFFFFF) s)) ∧
    (∀ (s1 : State) (dur : Nat), s.fld .CTX_STATUS_STATE k = 2 → dur = s.now - (s.ctx k).resetAt.getD s.now →
      s1 = ((s.disableRings k).setCtx k { s.ctx k with resetAt := none }).setFld .CTX_STATUS_STATE k
        (if s.flag .CTX_CFG_ENABLE k then 1 else 0) →
      exec (.contextResetDone c) s = .next (s1.raiseNo 0x19 ⟨7, 0⟩
        (k + s1.fld .CTX_CFG_EPOCH k * 2 ^ 16 + dur % 2 ^ 32 * 2 ^ 32))) ∧
    (∀ vec : Fin 8, s.power.hostUp = true → (k = 0 ∨ vec.val ≤ 2) → (s.ctx k).vecPending.getLsbD vec.val = true →
      bitAt (s.msixWord k (2 * vec.val + 1)) 32 = false →
      (s.ctx k).vecLast.any (fun p => p.1 == vec.val) = false ∨
        Tbl.get 0 (s.ctx k).vecLast vec.val + s.fld .CMD_CFG_IRQ_NS 0 ≤ s.now →
      exec (.msixMessage c vec) s = .next ((s.setCtx k { s.ctx k with
        vecPending := (s.ctx k).vecPending &&& ~~~(1#8 <<< vec.val),
        vecLast := Tbl.put (s.ctx k).vecLast vec.val s.now }).emit (.msix c vec.val
          (BitVec.ofNat 64 (s.msixWord k (2 * vec.val))) (BitVec.ofNat 32 (s.msixWord k (2 * vec.val + 1)))))) ∧
    (∀ vec : Fin 8, (s.ctx k).vecPending.getLsbD vec.val = false → exec (.msixMessage c vec) s = .next s)

/-! ### Memory, transfers and memory health -/

/-- A write of bytes that may all be written, into words without a standing check error, is read back byte by byte and
leaves every other byte of memory as it was (R10, R13, R234, R248); and the write itself, before any record of it, leaves a byte
that may not be written and every byte outside it as they were. -/
def Obligations.WritesReadBack : Prop :=
  ∀ (s u : State) (w : Accessor) (a : Nat) (bytes : List PByte), u = s.memWrite w a bytes →
    ((∀ k < bytes.length, s.accClass w (a + k) = 0 ∧ Tbl.get EccErr.clean s.ecc (s.wordKey (a + k)) = .clean) →
      (∀ k (h : k < bytes.length), u.peek (a + k) = (bytes[k]'h).val) ∧ s.sameMem u a bytes.length ∧
        u.regs = s.regs ∧ u.tillers = s.tillers) ∧
    (∀ k, s.accClass w (a + k) ≠ 0 → (s.writeBytes w a bytes).1.peek (a + k) = s.peek (a + k)) ∧
    s.sameMem (s.writeBytes w a bytes).1 a bytes.length

/-- The device address map (R10, R12): HBM below 0x90_0000_0000, the stores of present Tillers of unfenced Sheafs at
0x1000_0000_0000 with 4 GiB for a Sheaf and 16 MiB for a Tiller, staging SRAM at 0x2000_0000_0000 but for the bytes that the
collective pool takes (R393), far memory up to its capacity, the host window from 0x8000_0000_0000, a hole between HBM and the
stores; an access to a hole is class 0x40 for every accessor, and so is an access to far memory by a unit that does not reach it (the
model's choice: notes/assumptions/141.md). -/
def Obligations.AddressMapPlaces : Prop :=
  (∀ (s : State) (a : Nat), a < 0x9000000000 → s.region a = .hbm) ∧
  (∀ (s : State) (sh : Fin 12) (n : Fin 64) (off : Nat), off < 0x200000 → Tbl.get false s.absent (tix sh n) = false →
    s.flag .MGT_DET_DUMAP_HI_FENCED sh.val = false →
    s.region (0x100000000000 + sh.val * 2 ^ 32 + n.val * 2 ^ 24 + off) = .store (tix sh n) off) ∧
  (∀ (s : State) (sh : Fin 12) (n : Fin 64) (off : Nat), off < 2 ^ 24 →
    (Tbl.get false s.absent (tix sh n) = true ∨ s.flag .MGT_DET_DUMAP_HI_FENCED sh.val = true ∨ 0x200000 ≤ off) →
    s.region (0x100000000000 + sh.val * 2 ^ 32 + n.val * 2 ^ 24 + off) = .hole) ∧
  (∀ (s : State) (t off : Nat), t < 3 → off < 0x8000000 → s.region (0x200000000000 + t * 0x8000000 + off) =
    (if s.poolByte t off then .hole else .staging t off)) ∧
  (∀ (s : State) (off : Nat), off < s.fld .FAR_STATUS_CAP_GIB 0 * 2 ^ 30 → off < 0x40000000000 →
    s.region (0x400000000000 + off) = .far off) ∧
  (∀ (s : State) (off : Nat), off < 0x800000000000 → s.region (0x800000000000 + off) = .host off) ∧
  (∀ (s : State) (a : Nat), 0x9000000000 ≤ a → a < 0x100000000000 → s.region a = .hole) ∧
  (∀ (s : State) (w : Accessor) (a : Nat), s.region a = .hole → s.accClass w a = 0x40) ∧
  (∀ (s : State) (w : Accessor) (a off : Nat), s.region a = .far off → w.reachesFar = false → s.accClass w a = 0x40)

/-- Copies, fills and Millet operations (R241 to R247, R268, R282): an operation whose engine performs it, with no field reserved
or out of range and every range translated, reads its whole source before it writes its destination, writes its pattern in
every row, or accesses the sectors of its indices in order, as many as CAP leaves each stack in a us of MTIME, and is then
performed; a field out of range faults its command with cause 0x10. -/
def Obligations.TransfersPerform : Prop :=
  ∀ (s : State) (sh : Fin 12) (k : Nat) (o : XferOp) (h : Option HostErr) (e : XferErr) (w : Accessor),
    s.opNow sh.val k = some o → e = ⟨h, false⟩ → w = xferAcc sh.val o e →
    (∀ (s1 s2 : State) (ls ld : List (Nat × Nat)) (r : State × List PByte), cmdField o.op 0 3 0 = 0 → blockOpBad o = false →
      s.xlatRows sh.val o e 0 (rowsOf (opSrc o) (opA o) (opRows o) (opLen o)) = (s1, some ls) →
      s1.xlatRows sh.val o e 1 (rowsOf (opDst o) (opB o) (opRows o) (opLen o)) = (s2, some ld) →
      r = s2.readSegs w ls → exec (.copy sh k h) s = .next ((r.1.writeSegs w ld r.2).opDone sh.val k)) ∧
    (blockOpBad o = true → ∀ p ∈ [(Instr.copy sh k h, 0), (.fill sh k, 1)], cmdField o.op 0 3 0 = p.2 →
      exec p.1 s = .next ((s.opLeave sh.val k).commandFault o.ring.toNat o.pos 0x10)) ∧
    (∀ (s1 : State) (ld : List (Nat × Nat)), h = none → cmdField o.op 0 3 0 = 1 → blockOpBad o = false →
      s.xlatRows sh.val o e 1 (rowsOf (opDst o) (opB o) (opRows o) (opLen o)) = (s1, some ld) →
      exec (.fill sh k) s = .next ((s1.writeSegs w ld ((List.range (opRows o)).flatMap (fun _ =>
        (List.range (opLen o)).map (fun j => (⟨BitVec.ofNat 8 (opSrc o / 2 ^ (8 * (j % 8))), false⟩ : PByte))))).opDone
          sh.val k)) ∧
    (∀ p ∈ [(Instr.milletRead sh k h, 0), (.milletWrite sh k h, 1), (.milletAdd32 sh k h, 2), (.milletAdd64 sh k h, 3)],
      cmdField o.op 0 3 0 = 2 → cmdField o.op 0 11 8 = p.2 →
      (milletBad o = true → exec p.1 s = .next ((s.opLeave sh.val k).commandFault o.ring.toNat o.pos 0x10)) ∧
      (milletBad o = false → o.work = none →
        ∀ (s1 s2 : State) (li ldat : List (Nat × Nat)) (ri rd : State × List PByte) (idx : List Int)
          (secs : State × List (Option Nat) × Bool),
        s.xlatRows sh.val o e 0 [(opSrc o, milletIdxBytes o * opRows o)] = (s1, some li) →
        (if p.2 = 0 then (s1, some []) else s1.xlatRows sh.val o e 0 [(opA o, 32 * opRows o)]) = (s2, some ldat) →
        ri = s2.readSegs w li → idx = milletIndices (milletIdxBytes o) (opRows o) (vals ri.2) →
        secs = ri.1.milletSectors sh.val o e idx → secs.2.2 = false → rd = secs.1.readSegs w ldat →
        exec p.1 s = .next ((rd.1.milletReport sh.val o idx secs.2.1).milletGo sh.val k o e p.2 ⟨secs.2.1, rd.2, []⟩)) ∧
      (milletBad o = false → ∀ m : MilletWork, o.work = some m →
        exec p.1 s = .next (s.milletGo sh.val k o e p.2 m))) ∧
    (∀ (kind : Nat) (m : MilletWork) (run : State × List PByte × Nat) (rest : MilletWork) (s1 : State),
      run = s.milletClock.milletRun { w with millet := true } kind m.secs m.data →
      rest = ⟨m.secs.drop run.2.2, m.data.drop (32 * run.2.2), m.res ++ run.2.1⟩ → s1 = run.1.setWork sh.val k rest →
      (rest.secs ≠ [] → s.milletGo sh.val k o e kind m = s1) ∧
      (rest.secs = [] → milletReturns o = false → s.milletGo sh.val k o e kind m = s1.opDone sh.val k) ∧
      (∀ (s2 : State) (lres : List (Nat × Nat)), rest.secs = [] → milletReturns o = true →
        s1.xlatRows sh.val o e 1 [(opDst o, 32 * opRows o)] = (s2, some lres) →
        s.milletGo sh.val k o e kind m = (s2.writeSegs w lres rest.res).opDone sh.val k)) ∧
    (∀ (acc : Accessor) (kind a : Nat) (t : List (Option Nat)) (d : List PByte),
      min 3200 (s.fld .MIL_CFG_CAP 0) ≤ Tbl.get 0 s.memCtl.milUsed (s.hbmMap a).stack →
      s.milletRun acc kind (some a :: t) d = (s, [], 0)) ∧
    (∀ (r : Nat) (j : Nat), (s.setEngine sh.val ((s.engine sh.val).modify k (fun o => { o with performed := true }))) =
        s.opDone sh.val k ∧ (s.opDone sh.val k).ring r = s.ring r ∧ (s.opDone sh.val k).peek j = s.peek j)

/-- Additions of a Millet operation (R241, R243): a lane of 4 or 8 bytes holds the wrapping sum of what it held and the
data's lane. -/
def Obligations.MilletLanesAdd : Prop :=
  ∀ (old data : List Byte), old.length = 32 → data.length = 32 →
    (∀ j < 8, leNat (((milletAdd 4 old data).drop (4 * j)).take 4) =
      (leNat ((old.drop (4 * j)).take 4) + leNat ((data.drop (4 * j)).take 4)) % 2 ^ 32) ∧
    (∀ j < 4, leNat (((milletAdd 8 old data).drop (8 * j)).take 8) =
      (leNat ((old.drop (8 * j)).take 8) + leNat ((data.drop (8 * j)).take 8)) % 2 ^ 64)

/-- Digest operations (R437 to R442): PIECE and PIECE_COPY write the SHA-256 of each MiB of the source at HADDR + 32 PIDX,
the copy with the bytes themselves; FINAL writes the hash of the hash array and of the object's length in 8 bytes; PROV
hashes the preimage with the module's fingerprint in its place. An operation of any mode that breaks a rule of R439 is class
0x81. -/
def Obligations.DigestsHash : Prop :=
  ∀ (s : State) (sh : Fin 12) (k : Nat) (o : XferOp) (h : Option HostErr) (e : XferErr) (w : Accessor),
    s.opNow sh.val k = some o → cmdField o.op 0 3 0 = 3 → e = ⟨h, false⟩ → w = xferAcc sh.val o e →
    (∀ off, digestBad o = some off →
      ∀ p ∈ [(Instr.digestPiece sh k h, 0), (.digestPieceCopy sh k h, 1), (.digestFinal sh k h, 2), (.digestProv sh k h, 3)],
        digMode o = p.2 → exec p.1 s = .next (((s.raiseCtx 0x81 o.ctx.toNat ⟨2, sh.val⟩
          (o.idx % 2 ^ 32 + off * 2 ^ 32)).opLeave sh.val k).commandFault o.ring.toNat o.pos 0x81)) ∧
    (digestBad o = none →
      (∀ (s1 s2 : State) (ls lh : List (Nat × Nat)) (r : State × List PByte) (n : Nat), digMode o = 0 →
        n = (opLen o + 2 ^ 20 - 1) / 2 ^ 20 → s.xlatRows sh.val o e 0 [(opSrc o, opLen o)] = (s1, some ls) →
        s1.xlatRows sh.val o e 1 [(opB o + 32 * digPidx o, 32 * n)] = (s2, some lh) → r = s2.readSegs w ls →
        exec (.digestPiece sh k h) s = .next ((r.1.writeSegs w lh ((digestPieces n r.2).flatMap hashOf)).opDone sh.val k)) ∧
      (∀ (s1 s2 s3 : State) (ls ld lh : List (Nat × Nat)) (r : State × List PByte) (n : Nat), digMode o = 1 →
        n = (opLen o + 2 ^ 20 - 1) / 2 ^ 20 → s.xlatRows sh.val o e 0 [(opSrc o, opLen o)] = (s1, some ls) →
        s1.xlatRows sh.val o e 1 [(opDst o, opLen o)] = (s2, some ld) →
        s2.xlatRows sh.val o e 1 [(opB o + 32 * digPidx o, 32 * n)] = (s3, some lh) → r = s3.readSegs w ls →
        exec (.digestPieceCopy sh k h) s = .next (((r.1.writeSegs w ld r.2).writeSegs w lh
          ((digestPieces n r.2).flatMap hashOf)).opDone sh.val k)) ∧
      (∀ (s1 s2 : State) (ls ld : List (Nat × Nat)) (r : State × List PByte), digMode o = 2 →
        s.xlatRows sh.val o e 0 [(opSrc o, opLen o)] = (s1, some ls) →
        s1.xlatRows sh.val o e 1 [(opDst o, 32)] = (s2, some ld) → r = s2.readSegs w ls →
        exec (.digestFinal sh k h) s = .next ((r.1.writeSegs w ld
          (hashOf (r.2 ++ clean (leBytes 8 (digObjLen o))))).opDone sh.val k)) ∧
      (∀ (s1 s2 : State) (ls ld : List (Nat × Nat)) (r : State × List PByte), digMode o = 3 →
        s.xlatRows sh.val o e 0 [(opSrc o, 192)] = (s1, some ls) →
        s1.xlatRows sh.val o e 1 [(opDst o, 32)] = (s2, some ld) → r = s2.readSegs w ls →
        leNat (vals ((r.2.drop 0x20).take 32)) = 0 →
        exec (.digestProv sh k h) s = .next ((r.1.writeSegs w ld (hashOf (r.2.take 0x20 ++
          clean (r.1.scopePrint (digScope o)) ++ r.2.drop 0x40))).opDone sh.val k)))

/-- An operation completes, and far memory fails (R247, R255, R269): an acknowledged operation leaves its engine and its
command has one fewer open; an operation on far memory that does not answer within its time is performed with every access to far
memory stopped by class 0x46; of a link engine the next far access is the one that does not answer; the link's loss is LINK_DOWN
with no rate. -/
def Obligations.TransfersCompleteOrFail : Prop :=
  ∀ (s : State) (sh : Fin 12) (k : Nat) (o : XferOp),
    ((s.engine sh.val)[k]? = some o → s.ready = true → o.performed = true →
      exec (.transferOperationComplete sh k) s = .next (((s.setEngine sh.val ((s.engine sh.val).eraseIdx k)).setRing
        o.ring.toNat { s.ring o.ring.toNat with running := (s.ring o.ring.toNat).running.map (fun c =>
          if c.pos = o.pos then { c with ops := c.ops - 1 } else c) }))) ∧
    ((s.engine sh.val)[k]? = some o → o.performed = false → exec (.transferOperationComplete sh k) s = .next s) ∧
    (s.opNow sh.val k = some o → s.opFar o = true →
      exec (.farMemoryTimeout (.engine sh k)) s = .next (match cmdField o.op 0 3 0 with
        | 1 => s.doFill sh.val k ⟨none, true⟩
        | 2 => s.doMillet sh.val k (cmdField o.op 0 11 8) ⟨none, true⟩
        | 3 => s.doDigest sh.val k (digMode o) ⟨none, true⟩
        | _ => s.doCopy sh.val k ⟨none, true⟩)) ∧
    (∀ (h : Option HostErr) (a off : Nat), s.region a = .far off → s.accClass (xferAcc sh.val o ⟨h, true⟩) a = 0x46) ∧
    (s.opNow sh.val k = some o → s.opFar o = false → exec (.farMemoryTimeout (.engine sh k)) s = .next s) ∧
    (∀ p : Fin 8, s.ready = true → exec (.farMemoryTimeout (.link p)) s =
      .next { s with memCtl := { s.memCtl with farLate := s.memCtl.farLate ||| (1#8 <<< p.val) } }) ∧
    (s.ready = true → s.fld .FAR_STATUS_RATE 0 ≠ 0 →
      exec .farLinkDown s = .next ((s.setFld .FAR_STATUS_RATE 0 0).setFld .FAR_STATUS_LINK_DOWN 0 1)) ∧
    (s.fld .FAR_STATUS_RATE 0 = 0 → exec .farLinkDown s = .next s)

/-- Memory health (R249 to R252, R256, R265 to R267): a scrub read of a sector counts its bytes, corrects a single error
and poisons a double one, and a write that arrived after the read keeps what it wrote; a repair is started by its register and ends
with the row's errors swept or with class 0x48, and so does the oldest automatic one; a page is retired once, unless the list is
full or the module has no such page, and the list is cleared under presence; a region register takes a good write while it is not
enabled, and a bad one sets REGION_ERR. -/
def Obligations.MemoryHealthIsKept : Prop :=
  ∀ (s : State) (o : Origin),
    (∀ (sector : BitVec 40) (newer : Bool) (a : Nat), a = sector.toNat / 32 * 32 → s.ready = true → a < 0x9000000000 →
      s.fld .HBM_CFG_SCRUB_H 0 ≠ 0 → bitAt (s.fld .HBM_STATUS_FENCED 0) (s.hbmMap a).stack = false →
      (Tbl.get EccErr.clean s.ecc (s.wordKey a) = .clean →
        exec (.scrubRead sector .clean newer) s = .next (s.count 0 32)) ∧
      exec (.scrubRead sector .single false) s = .next (raised
        (((s.count 0 32).setEcc (s.wordKey a) .clean).rowCe (s.scrubAcc a) a false true)) ∧
      exec (.scrubRead sector .single true) s = .next (raised ((s.count 0 32).rowCe (s.scrubAcc a) a false true)) ∧
      exec (.scrubRead sector .double false) s = .next (raised ((s.count 0 32).wordLost (s.scrubAcc a) a false true)) ∧
      exec (.scrubRead sector .double true) s = .next (raised
        ({ ((s.count 0 32).wordLost (s.scrubAcc a) a false true).1 with
            poison := s.poison, ecc := s.ecc, memCtl := s.memCtl },
          ((s.count 0 32).wordLost (s.scrubAcc a) a false true).2))) ∧
    (s.fld .HBM_CFG_SCRUB_H 0 = 0 → ∀ sector f newer, exec (.scrubRead sector f newer) s = .next s) ∧
    (∀ v : Word, s.answers o .HBM_REPAIR → s.flag .HBM_REPAIR_BUSY 0 = false →
      ∀ s1 : State, s1 = (s.writeReg .HBM_REPAIR 0 (2 ^ 64 - 1) v.toNat).repairLeft →
      exec (.goSoft o v) s = .next (s.auditOf { s1.setFlag .HBM_REPAIR_BUSY 0 true with repairHard := false } true
        (Origin.audit o) .HBM_REPAIR 0 v.toNat) ∧
      (s.flag .MGT_PRESENCE_OPEN 0 = true → exec (.goHard o v) s = .next (s.auditOf
        { s1.setFlag .HBM_REPAIR_BUSY 0 true with repairHard := true } true (Origin.presence o) .HBM_REPAIR 0 v.toNat)) ∧
      (s.flag .MGT_PRESENCE_OPEN 0 = false → exec (.goHard o v) s = .next (s.auditOf s1 false (Origin.audit o)
        .HBM_REPAIR 0 v.toNat))) ∧
    (s.flag .HBM_REPAIR_BUSY 0 = true →
      exec (.hbmRepairDone false) s = .next (((s.setFlag .HBM_REPAIR_BUSY 0 false).setFlag .HBM_REPAIR_FAIL 0 true).raiseNo
        0x48 ⟨4, s.repairRow / 2 ^ 26⟩ (repairDetail s.repairRow)) ∧
      (s.repairNamed = true → s.repairHard = true →
        exec (.hbmRepairDone true) s = .next (((s.setFlag .HBM_REPAIR_BUSY 0 false).sweepRow s.repairRow).repairLeft)) ∧
      (s.repairNamed = true → s.repairHard = false →
        exec (.hbmRepairDone true) s = .next (((s.setFlag .HBM_REPAIR_BUSY 0 false).sweepRow s.repairRow).addSoft
          s.repairRow))) ∧
    (s.flag .HBM_REPAIR_BUSY 0 = false →
      (s.memCtl.autoSoft = [] → ∀ ok, exec (.hbmRepairDone ok) s = .next s) ∧
      (∀ (code : Word) (rest : List Word) (s1 : State), s.memCtl.autoSoft = code :: rest →
        s1 = { s with memCtl := { s.memCtl with autoSoft := rest } } →
        exec (.hbmRepairDone true) s = .next ((s1.sweepRow code.toNat).addSoft code.toNat) ∧
        exec (.hbmRepairDone false) s = .next ((s1.setFlag .HBM_REPAIR_FAIL 0 true).raiseNo 0x48
          ⟨4, code.toNat / 2 ^ 26⟩ (repairDetail code.toNat)))) ∧
    (∀ pg : BitVec 19, s.answers o .HBM_RETIRE → s.retired.length < 512 → pg.toNat ∉ s.retired → pg.toNat < 294912 →
      exec (.hbmRetire o pg) s = .next (s.auditOf { s with retired := s.retired ++ [pg.toNat] } true (Origin.audit o)
        .HBM_RETIRE 0 pg.toNat)) ∧
    (∀ pg : BitVec 19, s.answers o .HBM_RETIRE → 512 ≤ s.retired.length ∨ pg.toNat ∈ s.retired ∨ 294912 ≤ pg.toNat →
      exec (.hbmRetire o pg) s = .next (s.auditOf s true (Origin.audit o) .HBM_RETIRE 0 pg.toNat)) ∧
    (s.answers o .HBM_RETIRE_CLR →
      (s.flag .MGT_PRESENCE_OPEN 0 = true → exec (.hbmRetireClr o) s = .next (s.auditOf { s with retired := [] } true
        (Origin.presence o) .HBM_RETIRE_CLR 0 1)) ∧
      (s.flag .MGT_PRESENCE_OPEN 0 = false → exec (.hbmRetireClr o) s = .next (s.auditOf s false (Origin.audit o)
        .HBM_RETIRE_CLR 0 1))) ∧
    (∀ (v : Word) (s1 : State), s.answers o .HBM_MIR_REGION → s.flag .HBM_MIR_REGION_ENABLE 0 = false →
      s1 = s.writeReg .HBM_MIR_REGION 0 (2 ^ 64 - 1) v.toNat →
      exec (.regionWrite o true v) s = .next (s.auditChange
        (if s1.regionGood true (s1.fld .HBM_MIR_REGION_BASE_PG 0) (s1.fld .HBM_MIR_REGION_SIZE_PG 0) then s1
          else s.setFlag .HBM_STATUS_REGION_ERR 0 true) o .HBM_MIR_REGION 0 v.toNat)) ∧
    (∀ (v : Word) (s1 : State), s.answers o .HBM_LOG_REGION → s.flag .HBM_LOG_REGION_ENABLE 0 = false →
      s1 = s.writeReg .HBM_LOG_REGION 0 (2 ^ 64 - 1) v.toNat →
      exec (.regionWrite o false v) s = .next (s.auditChange
        (if s1.regionGood false (s1.fld .HBM_LOG_REGION_BASE_PG 0) (s1.fld .HBM_LOG_REGION_SIZE_PG 0) then
          (if s1.fld .HBM_LOG_REGION_BASE_PG 0 ≠ s.fld .HBM_LOG_REGION_BASE_PG 0 ∨
              s1.fld .HBM_LOG_REGION_SIZE_PG 0 ≠ s.fld .HBM_LOG_REGION_SIZE_PG 0 then s1.logRestart else s1)
          else s.setFlag .HBM_STATUS_REGION_ERR 0 true) o .HBM_LOG_REGION 0 v.toNat))

/-! ### Optical links -/

/-- Channels of a port (R315 to R317, R320, R327, R336 to R338, R350, R357): four valid markers in a row, each 44,800 line bits
after the last, lock a channel; a locked channel counts the corrected symbols and the uncorrectable codewords of its codewords,
gives the receiver the map, the count of active channels and the generation by each valid marker, and loses its lock, class
0x54, at the second bad marker in a row; a failed receive channel joins the failure mask, which goes out in an urgent LCF, and
a port on which no channel is locked goes down; a failed laser is replaced in the map that the next marker brings into force,
by the spare of R315, each replaced channel class 0x50 and each removed one class 0x51, with a new generation, and too few
channels take the port down; a lost UCIe module takes eight channels from both directions, class 0x58; the start map joins the
fused map under presence. -/
def Obligations.ChannelsAreReplaced : Prop :=
  (∀ (s : State) (p : Fin 8) (c : Fin 45) (w : Word) (gap : Nat) (k : Fin 241) (n : Fin 9) (s0 : State),
    s.linksRun = true → 1 ≤ s.portState p → s.portState p ≤ 5 →
    s0 = (s.satAdd .LNK_CNT_CORR_SYM p k).satAdd .LNK_CNT_UNCORR p n →
    (4 ≤ Tbl.get 0 (s.port p).lockCnt c → markerValid w.toNat = true →
      (s.portState p < 4 → exec (.markerReceive p c w gap k n) s = .next
        (s0.setPort p { s.port p with lost := Tbl.put (s.port p).lost c 0 })) ∧
      (4 ≤ s.portState p → ∃ u : State, exec (.markerReceive p c w gap k n) s = .next (u.nactCheck p) ∧
        (bitsOf w.toNat 31 26 < 32 → Tbl.get 99 (u.port p).mapRx (bitsOf w.toNat 31 26) = c) ∧
        (32 ≤ bitsOf w.toNat 31 26 → ∀ q ∈ (u.port p).mapRx, q.2 ≠ c) ∧
        u.fld .LNK_STATUS_NACT_RX p = bitsOf w.toNat 25 20 ∧ u.fld .LNK_STATUS_GEN_RX p = bitsOf w.toNat 19 16 ∧
        u = { s with ports := u.ports, regs := u.regs })) ∧
    (4 ≤ Tbl.get 0 (s.port p).lockCnt c → markerValid w.toNat = false →
      (Tbl.get 0 (s.port p).lost c = 0 → exec (.markerReceive p c w gap k n) s = .next
        (s0.setPort p { s.port p with lost := Tbl.put (s.port p).lost c 1 })) ∧
      (Tbl.get 0 (s.port p).lost c ≠ 0 → exec (.markerReceive p c w gap k n) s = .next (s0.lockLost p c))) ∧
    (Tbl.get 0 (s.port p).lockCnt c < 4 → exec (.markerReceive p c w gap k n) s = .next (s.setPort p { s.port p with
      lockCnt := Tbl.put (s.port p).lockCnt c
        (if markerValid w.toNat = true ∧ (Tbl.get 0 (s.port p).lockCnt c = 0 ∨ gap = 44800) then
          Tbl.get 0 (s.port p).lockCnt c + 1 else 0)
      lost := Tbl.put (s.port p).lost c 0 }))) ∧
  (∀ (s : State) (p : Fin 8) (c : Fin 45) (u v : State), u = (s.setPort p { s.port p with
        lockCnt := Tbl.put (s.port p).lockCnt c 0
        lost := Tbl.put (s.port p).lost c 0 }).raiseNo 0x54 (linkUnit p) (linkDetail p 1 c) →
    v = (if bitAt (u.failedCh p true) c = true then u
      else (u.setPort p { u.port p with startRx := (u.port p).startRx ||| (1#45 <<< c.val) }).urgentLcf p none) →
    ((∃ e : Fin 45, 4 ≤ Tbl.get 0 (v.port p).lockCnt e) → s.lockLost p c = v) ∧
    ((∀ e : Fin 45, Tbl.get 0 (v.port p).lockCnt e < 4) → s.lockLost p c = v.portDown p 2)) ∧
  (∀ (s : State) (p : Fin 8) (c : Fin 45), s.linksRun = true → 3 ≤ s.portState p → s.portState p ≤ 5 →
    (bitAt (s.failedCh p true) c = false →
      exec (.channelFail p c false) s = .next ((s.setPort p { s.port p with
        startRx := (s.port p).startRx ||| (1#45 <<< c.val) }).urgentLcf p none) ∧
      exec (.channelSymbolRateFail p c) s = .next ((s.setPort p { s.port p with
        startRx := (s.port p).startRx ||| (1#45 <<< c.val) }).urgentLcf p none)) ∧
    (bitAt (s.failedCh p true) c = true → exec (.channelFail p c false) s = .next s ∧
      exec (.channelSymbolRateFail p c) s = .next s) ∧
    exec (.channelFail p c true) s = .next (s.lockLost p c)) ∧
  (∀ (s : State) (p : Fin 8) (c : Fin 45), s.linksRun = true → s.flag .LNK_GUEST_ADMITTED p = true →
    exec (.laserFail p c) s = .next ((s.setPort p { s.port p with
      startTx := (s.port p).startTx ||| (1#45 <<< c.val) }).txRemap p)) ∧
  (∀ (s : State) (p : Nat), ∃ r, r = remap (s.failedCh p false) (List.range 32) (s.port p).map ∧
    (r.2 = [] → s.txRemap p = s) ∧
    (r.2 ≠ [] → s.txRemap p = ((((((s.setPort p { s.port p with mapNext := some r.1 }).wrapAdd .LNK_STATUS_GEN_TX p 1).satAdd
      .LNK_CNT2_REMAPS p 1).reportSwaps p 0 r.1.length r.2).portChange).nactCheck p))) ∧
  (∀ (s : State) (p : Fin 8) (dir : Fin 2) (nact c l d : Nat),
    s.reportSwaps p dir nact [(c, l, some d)] = (s.setFlag .LNK_STATUS_SPARE_USED p true).raiseNo 0x50 (linkUnit p)
      (p.val + dir.val * 2 ^ 8 + (c + l * 2 ^ 8 + d * 2 ^ 16) * 2 ^ 16) ∧
    s.reportSwaps p dir nact [(c, l, none)] = (s.setFlag .LNK_STATUS_CH_REMOVED p true).raiseNo 0x51 (linkUnit p)
      (p.val + dir.val * 2 ^ 8 + (c + nact * 2 ^ 8) * 2 ^ 16) ∧
    ∀ (a b : List Swap), s.reportSwaps p dir nact (a ++ b) = (s.reportSwaps p dir nact a).reportSwaps p dir nact b) ∧
  (∀ (m : Table Nat) (failed c d : Nat), spareFor m failed c = some d →
    (d = 5 * (c / 5) + 4 ∨ 40 ≤ d ∧ d ≤ 44) ∧ bitAt failed d = false ∧ (∀ q ∈ m, q.2 ≠ d) ∧
    (d ≠ 5 * (c / 5) + 4 → bitAt failed (5 * (c / 5) + 4) = true ∨ ∃ q ∈ m, q.2 = 5 * (c / 5) + 4)) ∧
  (∀ (s : State) (p : Fin 8), 4 ≤ s.portState p → s.portState p ≤ 5 →
    ((s.port p).map.length < s.minCh p ∨ s.fld .LNK_STATUS_NACT_RX p < s.minCh p → s.nactCheck p = s.portDown p 0) ∧
    (s.minCh p ≤ (s.port p).map.length → s.minCh p ≤ s.fld .LNK_STATUS_NACT_RX p → s.nactCheck p = s)) ∧
  (∀ (s : State) (p : Fin 8), ((s.mapSwitch p).port p).mapTx = (s.port p).map ∧ ((s.mapSwitch p).port p).mapNext = none) ∧
  (∀ (s : State) (p : Fin 8) (m : Fin 4), s.linksRun = true → s.flag .LNK_GUEST_ADMITTED p = true →
    (bitAt (s.port p).modLost.toNat m = false → ∃ u : State, exec (.ucieModuleLost p m) s =
        .next ((u.raiseNo 0x58 (linkUnit p) (linkDetail p 0 m)).nactCheck p) ∧
      (∀ q, q ∈ (u.port p).mapTx ↔ q ∈ (s.port p).mapTx ∧
        bitAt ((s.port p).modLost ||| (1#4 <<< m.val)).toNat (q.1 / 8) = false) ∧
      (∀ q, q ∈ (u.port p).mapRx ↔ q ∈ (s.port p).mapRx ∧
        bitAt ((s.port p).modLost ||| (1#4 <<< m.val)).toNat (q.1 / 8) = false) ∧
      u.fld .LNK_STATUS_NACT_RX p = (u.port p).mapRx.length % 64 ∧ u.flag .LNK_STATUS_CH_REMOVED p = true ∧
      u.fld .LNK_GUEST_MOD_OK p = 15 - ((s.port p).modLost ||| (1#4 <<< m.val)).toNat ∧
      u = { s with ports := u.ports, regs := u.regs }) ∧
    (bitAt (s.port p).modLost.toNat m = true → exec (.ucieModuleLost p m) s = .next s)) ∧
  (∀ (s : State) (o : Origin) (p : Fin 8) (rx : Bool) (r : Reg), r = (if rx then .LNK_CHFUSE_RX else .LNK_CHFUSE_TX) →
    s.answers o r →
    (s.flag .MGT_PRESENCE_OPEN 0 = true → exec (.channelFuse o p rx) s = .next (s.auditOf
      (s.setFld (if rx then .LNK_CHFUSE_RX_FUSED else .LNK_CHFUSE_TX_FUSED) p (s.failedCh p rx)) true
      (Origin.presence o) r p (2 ^ 63))) ∧
    (s.flag .MGT_PRESENCE_OPEN 0 = false → exec (.channelFuse o p rx) s = .next (s.auditOf s false (Origin.audit o)
      r p (2 ^ 63))))

/-- Slots, LCFs, frames and pauses (R321, R329, R331 to R335, R340 to R345, R348): the expected slot is taken with its units, a
bad or early one is named in one NAK, an old one is dropped; a buffer more than 90 % full asks for a pause; a good LCF with the
peer's identity has its failure mask taken before the stream works, and after that acknowledges slots, returns credits, pauses
and resends; one that says LEAVING takes the port down without class 0x52; a wrong identity is class 0x55 and the port down; a
NAK resends the stream from the slot that it names, class 0x53, and after 16 resends of that slot takes the port down; a frame
starts at a multiple of 1,000 ns with the map of the last remap, carries the markers, the training LCFs before the stream works,
and then an LCF, the control slots and, unless it is paused, the data stream; a port that has sent LEAVING for 10 us is off; 10
us without a good LCF take the port down; a pause stands until its time, and one that lasts PAUSE_MAX_US is class 0x59 once. -/
def Obligations.StreamsAreReplayed : Prop :=
  ∀ (s : State) (p : Fin 8), s.linksRun = true →
    (4 ≤ s.portState p → s.portState p ≤ 5 → ∀ (control : Bool) (r : RxStream) (put : RxStream → State),
      r = (if control then (s.port p).rxC else (s.port p).rxD) →
      put = (fun r => s.setPort p (if control then { s.port p with rxC := r } else { s.port p with rxD := r })) →
      (∀ (seq : BitVec 48) (u : List (Option (BitVec 256))), seq.toNat = r.expect →
        exec (.slotReceive p control seq false u) s = .next ((put ⟨(r.expect + 1) % 2 ^ 48, false,
          r.units ++ (u.take 8).filterMap id⟩).pauseIfFull p)) ∧
      (∀ (seq : BitVec 48) (bad : Bool) (u : List (Option (BitVec 256))),
        bad = true ∨ seq.toNat ≠ r.expect ∧ 2 ^ 47 < (r.expect + 2 ^ 48 - seq.toNat) % 2 ^ 48 →
        (r.nak = false → exec (.slotReceive p control seq bad u) s = .next ((put { r with nak := true }).urgentLcf p none)) ∧
        (r.nak = true → exec (.slotReceive p control seq bad u) s = .next s)) ∧
      (∀ (seq : BitVec 48) (u : List (Option (BitVec 256))), seq.toNat ≠ r.expect →
        (r.expect + 2 ^ 48 - seq.toNat) % 2 ^ 48 ≤ 2 ^ 47 → exec (.slotReceive p control seq false u) s = .next s)) ∧
    (1184256 < 10 * s.bufferedUnits p → s.pauseIfFull p = s.urgentLcf p (some (s.fld .LNK_CFG_PAUSE_10NS p))) ∧
    (10 * s.bufferedUnits p ≤ 1184256 → s.pauseIfFull p = s) ∧
    (∀ b : List Byte, lcfGood b = false → exec (.lcfReceive p b) s = .next s) ∧
    (2 ≤ s.portState p → s.portState p ≤ 5 → ∀ (b : List Byte) (node txport boot : Nat) (u : State), lcfGood b = true →
      node = lcfField b 4 23 0 → txport = lcfField b 4 26 24 → boot = lcfField b 8 15 0 →
      u = (s.acceptPeer p node boot txport).strictCheck p (lcfField b 1 2 2 == 1) →
      (s.identityGood p node txport boot = true →
        (lcfField b 1 1 1 = 1 → exec (.lcfReceive p b) s = .next ((s.acceptPeer p node boot txport).portLost p)) ∧
        (lcfField b 1 1 1 = 0 →
          (s.portState p ≤ 3 → exec (.lcfReceive p b) s = .next (u.setPort p { u.port p with
            startTx := (u.port p).startTx ||| BitVec.ofNat 45 (lcfField b 0x10 44 0)
            gotMask := true })) ∧
          (4 ≤ s.portState p → lcfField b 0 7 0 = 2 →
            exec (.lcfReceive p b) s = .next (u.peerFails p (lcfField b 0x10 44 0))) ∧
          (4 ≤ s.portState p → lcfField b 0 7 0 = 1 → exec (.lcfReceive p b) s = .next ((u.setPort p { u.port p with
            lastLcf := u.now
            identOk := (u.port p).identOk + 1 }).lcfTake p b)))) ∧
      (s.identityGood p node txport boot = false → exec (.lcfReceive p b) s = .next
        (((s.setFlag .LNK_STATUS_IDENT_ERR p true).raiseNo 0x55 (linkUnit p) (linkDetail p 1 (node + txport * 2 ^ 24))).portDown
          p 4))) ∧
    (∀ mask : Nat, s.peerFails p mask = (s.setPort p { s.port p with
      startTx := (s.port p).startTx ||| BitVec.ofNat 45 mask }).txRemap p) ∧
    (∀ (b : List Byte) (u v w : State), u = s.peerFails p (lcfField b 0x10 44 0) → 4 ≤ u.portState p → u.portState p ≤ 5 →
      v = ((u.slotAck p false (lcfField b 0x18 47 0)).slotAck p true (lcfField b 0x20 47 0)).creditsGot p b →
      w = (if lcfField b 1 5 5 = 1 then v.pauseGot p (lcfField b 2 15 0) else v) →
      (lcfField b 1 3 3 = 0 → lcfField b 1 4 4 = 0 → s.lcfTake p b = w) ∧
      (lcfField b 1 3 3 = 1 → lcfField b 1 4 4 = 0 → s.lcfTake p b = w.slotNak p false (lcfField b 0x28 47 0)) ∧
      (lcfField b 1 3 3 = 0 → lcfField b 1 4 4 = 1 → s.lcfTake p b = w.slotNak p true (lcfField b 0x30 47 0)) ∧
      (lcfField b 1 3 3 = 1 → lcfField b 1 4 4 = 1 → s.lcfTake p b =
        (w.slotNak p false (lcfField b 0x28 47 0)).slotNak p true (lcfField b 0x30 47 0))) ∧
    (∀ (b : List Byte) (k : Fin 7), Tbl.get 0 ((s.creditsGot p b).port p).credit k = lcfField b (0x80 + 4 * k) 31 0) ∧
    (∀ (control : Bool) (x : TxStream) (n : Nat), x = (s.port p).tx control → ∃ r : TxStream,
      s.slotAck p control n = s.setTx p control r ∧ r.next = x.next ∧
      ((∀ e ∈ x.sent, e.seq ≠ n) → r = x) ∧
      (∀ (a b : List Slot) (e : Slot), x.sent = a ++ e :: b → e.seq = n → (∀ f ∈ a, f.seq ≠ n) →
        r.sent = b ∧ ∀ j, j ∈ r.resend ↔ j ∈ x.resend ∧ ∃ f ∈ b, f.seq = j)) ∧
    (∀ (control : Bool) (x : TxStream) (n : Nat), x = (s.port p).tx control →
      ((∀ e ∈ x.sent, e.seq ≠ n) ∨ n ∈ x.resend → s.slotNak p control n = s) ∧
      (∀ (a b : List Slot) (e : Slot), x.sent = a ++ e :: b → e.seq = n → (∀ f ∈ a, f.seq ≠ n) → n ∉ x.resend →
        (16 ≤ e.tries → s.slotNak p control n = s.portDown p 3) ∧
        (e.tries < 16 → s.slotNak p control n = ((s.setTx p control { x with resend := n :: b.map (·.seq) }).satAdd
          .LNK_CNT2_REPLAYS p 1).raiseNo 0x53 (linkUnit p) (linkDetail p 0 (n + (if control then 2 ^ 48 else 0)))))) ∧
    (∀ n : Nat, 0 < n → s.pauseGot p n = (s.setPort p { s.port p with
      pauseUntil := some (s.now + 10 * n)
      pauseSince := (s.port p).pauseSince <|> some s.now }).setFlag .LNK_STATUS_PAUSED p true) ∧
    (s.pauseGot p 0 = (s.setPort p { s.port p with
      pauseUntil := none
      pauseSince := none
      pauseSaid := false }).setFlag .LNK_STATUS_PAUSED p false) ∧
    (4 ≤ s.portState p → s.portState p ≤ 5 →
      ((s.port p).lastLcf + 10000 ≤ s.now → exec (.lcfTimeout p) s = .next (s.portDown p 1)) ∧
      (s.now < (s.port p).lastLcf + 10000 → exec (.lcfTimeout p) s = .next s) ∧
      (∀ o : Origin, s.answers o .LNK_CFG → exec (.pauseGo o p) s = .next (s.auditOf
        (s.urgentLcf p (some (s.fld .LNK_CFG_PAUSE_10NS p))) true (Origin.audit o) .LNK_CFG p (2 ^ 60)))) ∧
    (1 ≤ s.portState p → s.portState p ≤ 5 → s.now % 1000 = 0 →
      (∀ t, (s.port p).leaving = some t → t ≤ s.now → exec (.linkFrame p) s = .next ((s.portOff p).switchUpdate p)) ∧
      (∀ (u : State) (lcf : List Byte) (r : List (Nat × Nat × Word) × Port),
        (∀ t, (s.port p).leaving = some t → s.now < t) →
        u = (s.mapSwitch p).sendHops p (s.port p).hopQ → r = u.frameWords p lcf →
        (s.portState p = 1 → exec (.linkFrame p) s = .next (u.emit (.frame p s.now (u.markers p) [] []))) ∧
        (s.portState p = 2 ∨ s.portState p = 3 → lcf = u.lcfBytes p 2 false none → exec (.linkFrame p) s = .next (u.emit
          (.frame p s.now (u.markers p) ((List.range 45).map (fun c => (c, lcf))) []))) ∧
        (4 ≤ s.portState p → lcf = u.lcfBytes p 1 false none → exec (.linkFrame p) s = .next
          (((u.setPort p r.2).emit (.frame p s.now (u.markers p) [] r.1)).creditsTold p)))) ∧
    (∀ (lcf : List Byte) (chs : List Nat) (c : List Slot × Port) (d : List (Option Word) × Port),
      chs = (s.port p).mapTx.map (·.1) → c = (s.port p).window s.now chs.length →
      d = c.2.dataWords s.now chs.length (s.ctlWait p) →
      (s.flag .LNK_STATUS_PAUSED p = true →
        s.frameWords p lcf = (deal (· + 1) chs (lcfWords lcf ++ c.1.flatMap Slot.words), c.2)) ∧
      (s.flag .LNK_STATUS_PAUSED p = false → s.frameWords p lcf =
        (deal (· + 1) chs (lcfWords lcf ++ c.1.flatMap Slot.words) ++ deal dataPeriod chs d.1, d.2)) ∧
      (∀ (period : Nat → Nat) (l : List (Option Word)) (k : Nat) (w : Word), l[k]? = some (some w) →
        (period (k / chs.length), chs.getD (k % chs.length) 0, w) ∈ deal period chs l)) ∧
    (s.now % 1000 ≠ 0 → exec (.linkFrame p) s = .next s) ∧
    (∀ t : Nat, (s.port p).pauseUntil = some t →
      (t ≤ s.now → exec (.pauseExpire p) s = .next (s.pauseGot p 0)) ∧
      (s.now < t → exec (.pauseExpire p) s = .next s)) ∧
    (∀ t : Nat, (s.port p).pauseSince = some t → (s.port p).pauseSaid = false →
      (t + 1000 * s.fld .LNK_CFG_PAUSE_MAX_US p ≤ s.now → exec (.pauseLimit p) s = .next
        (((s.setPort p { s.port p with pauseSaid := true }).setFlag .LNK_STATUS_PAUSE_LONG p true).raiseNo 0x59 (linkUnit p)
          (linkDetail p 0 ((s.now - t) / 1000)))) ∧
      (s.now < t + 1000 * s.fld .LNK_CFG_PAUSE_MAX_US p → exec (.pauseLimit p) s = .next s)) ∧
    ((s.port p).pauseSaid = true → exec (.pauseLimit p) s = .next s)

/-- Bring-up, retraining and loss of a port (R317 to R320, R343, R346 to R348, R358, R377): the states follow one another as
their conditions hold, a start counts from zero, and DESKEW ends with the maps of both directions; a guest is admitted anew by
retraining, or refused with class 0x57; enabling drives the switch of an axis when both its ports and guests stand, and only a
disabled port releases it; a port with a stream that is disabled sends LEAVING from an urgent LCF on, any other is OFF at once; a
lost guest clears its register and takes the port down; a port that is down is FAILED, class 0x52, its streams fresh, and its
axis in ring mode becomes a line that breaks at the link, class 0x66, said by LINE on the other port of the axis. -/
def Obligations.PortsComeUpAndGoDown : Prop :=
  ∀ (s : State) (p : Fin 8), s.linksRun = true →
    (∀ v : PortView,
      (s.portState p = 0 → s.flag .LNK_CFG_ENABLE p = true → s.flag .LNK_GUEST_ADMITTED p = true →
        ∃ u : State, exec (.portStateAdvance p v) s = .next u ∧ u.portState p = 1 ∧ u.failedCh p true = s.fld .LNK_CHFUSE_RX_FUSED p ∧
          u.failedCh p false = s.fld .LNK_CHFUSE_TX_FUSED p ∧ u.fld .LNK_CNT_UNCORR p = 0 ∧ u.fld .LNK_CNT_CORR_SYM p = 0 ∧
          u.fld .LNK_CNT2_REPLAYS p = 0 ∧ u.fld .LNK_CNT2_REMAPS p = 0 ∧ (u.port p).gotMask = false) ∧
      (s.portState p = 0 → s.flag .LNK_CFG_ENABLE p = false ∨ s.flag .LNK_GUEST_ADMITTED p = false →
        exec (.portStateAdvance p v) s = .next s) ∧
      (s.portState p = 1 → s.minCh p ≤ popCount v.lit.toNat → exec (.portStateAdvance p v) s = .next (s.setPortState p 2)) ∧
      (s.portState p = 1 → popCount v.lit.toNat < s.minCh p → exec (.portStateAdvance p v) s = .next s) ∧
      (s.portState p = 2 →
        (v.lit ≠ 0 → v.testDone = true → (∀ c : Fin 45, v.lit.getLsbD c = true → 4 ≤ Tbl.get 0 (s.port p).lockCnt c) →
          exec (.portStateAdvance p v) s = .next ((s.setPort p { s.port p with
            startRx := (s.port p).startRx ||| v.testFailed }).setPortState p 3)) ∧
        (v.lit = 0 ∨ v.testDone = false ∨ (∃ c : Fin 45, v.lit.getLsbD c = true ∧ Tbl.get 0 (s.port p).lockCnt c < 4) →
          exec (.portStateAdvance p v) s = .next s)) ∧
      (∀ tx rx : Table Nat × List Swap, s.portState p = 3 →
        tx = assignMap (s.failedCh p false) (s.port p).modLost (s.chCap p) →
        rx = assignMap (s.failedCh p true) (s.port p).modLost (s.chCap p) →
        (s.minCh p ≤ tx.1.length → s.minCh p ≤ rx.1.length → v.deskewed = true → (s.port p).gotMask = true →
          exec (.portStateAdvance p v) s = .next (((((s.setPort p { (s.port p).freshStreams with
            mapTx := tx.1
            mapRx := rx.1
            identOk := 0
            lastLcf := s.now }).setFld .LNK_STATUS_NACT_RX p rx.1.length).reportSwaps p 0 tx.1.length
              (tx.2.filter (fun w => w.2.2.isNone))).reportSwaps p 1 rx.1.length
              (rx.2.filter (fun w => w.2.2.isNone))).setPortState p 4)) ∧
        (tx.1.length < s.minCh p ∨ rx.1.length < s.minCh p ∨ v.deskewed = false ∨ (s.port p).gotMask = false →
          exec (.portStateAdvance p v) s = .next s)) ∧
      (s.portState p = 4 → 3 ≤ (s.port p).identOk →
        exec (.portStateAdvance p v) s = .next ((s.setPortState p 5).portChange)) ∧
      (s.portState p = 4 → (s.port p).identOk < 3 → exec (.portStateAdvance p v) s = .next s) ∧
      (5 ≤ s.portState p → exec (.portStateAdvance p v) s = .next s)) ∧
    (∀ g : GuestInfo, s.guestStep g = none → g.modules = 15#4 →
      (s.acceptGuest p g).flag .LNK_GUEST_ADMITTED p = true ∧ (s.acceptGuest p g).fld .LNK_GUEST_RATE p = g.rate.toNat ∧
      (s.acceptGuest p g).fld .LNK_GUEST_VENDOR p = g.vendor.toNat ∧ (s.acceptGuest p g).fld .LNK_GUEST_MOD_OK p = 15 ∧
      (s.acceptGuest p g).portState p = 0) ∧
    (∀ (g : GuestInfo) (step : Nat), s.guestStep g = some step → ∃ u : State,
      s.acceptGuest p g = u.raiseNo 0x57 (linkUnit p) (linkDetail p 0 (step + g.vendor.toNat * 2 ^ 8 + g.device.toNat * 2 ^ 24)) ∧
      u.flag .LNK_GUEST_ADMITTED p = false ∧ u.fld .LNK_GUEST_ADMIT p = step ∧ u.fld .LNK_GUEST_RATE p = 0 ∧
      u.fld .LNK_GUEST_MOD_OK p = 0 ∧ u.portState p = 0) ∧
    (∀ (g : GuestInfo) (t : Nat), (s.port p).failedAt = some t → s.portState p = 7 → s.flag .LNK_CFG_AUTO_RETRAIN p = true →
      (t + 1000000 ≤ s.now → exec (.autoRetrain p g) s = .next ((s.acceptGuest p g).switchUpdate p)) ∧
      (s.now < t + 1000000 → exec (.autoRetrain p g) s = .next s)) ∧
    (∀ (g : GuestInfo) (o : Origin), s.answers o .LNK_CFG → exec (.retrain o p g) s = .next (s.auditOf
      ((s.acceptGuest p g).switchUpdate p) true (Origin.audit o) .LNK_CFG p (2 ^ 61))) ∧
    (∀ (o : Origin) (u : State), s.answers o .LNK_CFG → u = s.setFlag .LNK_CFG_ENABLE p false →
      exec (.portEnableWrite o p true) s = .next (s.auditOf ((s.setFlag .LNK_CFG_ENABLE p true).switchUpdate p) true
        (Origin.audit o) .LNK_CFG p (2 ^ 63)) ∧
      (4 ≤ s.portState p → s.portState p ≤ 5 → (s.port p).leaving = none →
        exec (.portEnableWrite o p false) s = .next (s.auditOf (((u.setPort p { s.port p with
          leaving := some (s.now + 10000) }).urgentLcf p none).portChange) true (Origin.audit o) .LNK_CFG p 0)) ∧
      (s.portState p < 4 ∨ 5 < s.portState p → exec (.portEnableWrite o p false) s = .next (s.auditOf
        ((u.portOff p).switchUpdate p) true (Origin.audit o) .LNK_CFG p 0))) ∧
    ((∀ q : Nat, q / 2 = p / 2 → q < 8 → (s.flag .LNK_CFG_ENABLE q = true ∨ (s.port q).leaving.isSome = true) ∧
      s.flag .LNK_GUEST_ADMITTED q = true) → ((s.switchUpdate p).power.switches.getLsbD (p / 2) = true)) ∧
    ((∃ q : Nat, q / 2 = p / 2 ∧ q < 8 ∧ s.flag .LNK_CFG_ENABLE q = false ∧ (s.port q).leaving = none) →
      (s.switchUpdate p).power.switches.getLsbD (p / 2) = false) ∧
    ((∀ q : Nat, q / 2 = p / 2 → q < 8 → s.flag .LNK_CFG_ENABLE q = true ∨ (s.port q).leaving.isSome = true) →
      (∃ q : Nat, q / 2 = p / 2 ∧ q < 8 ∧ s.flag .LNK_GUEST_ADMITTED q = false) → s.switchUpdate p = s) ∧
    (s.flag .LNK_GUEST_ADMITTED p = true → exec (.guestLost p) s = .next
      ((((s.setFlag .LNK_GUEST_ADMITTED p false).setFld .LNK_GUEST_RATE p 0).setFld .LNK_GUEST_MOD_OK p 0).portDown p 5)) ∧
    (s.flag .LNK_GUEST_ADMITTED p = false → exec (.guestLost p) s = .next s) ∧
    (∀ (cause : Nat) (u : State), 1 ≤ s.portState p → s.portState p ≤ 5 →
      u = (s.setFlag .LNK_STATUS_DOWN_EVT p true).raiseNo 0x52 (linkUnit p) (linkDetail p 1 cause) →
      s.portDown p cause = u.portLost p ∧ (u.portLost p).portState p = 7 ∧ ((u.portLost p).port p).failedAt = some u.now ∧
      ((u.portLost p).port p).txD = ⟨1, [], []⟩ ∧ ((u.portLost p).port p).txC = ⟨1, [], []⟩ ∧
      ((u.portLost p).port p).rxD = ⟨1, false, []⟩ ∧ ((u.portLost p).port p).rxC = ⟨1, false, []⟩ ∧
      (∃ v : State, u.portLost p = v.convertAxis (p.val / 2) (u.breakAt p) (if p.val % 2 = 0 then p.val + 1 else p.val - 1) ∧
        v.portState p = 7) ∧
      (s.fld .FAB_AXIS_LEN_M1 (p / 2) ≠ 0 → (u.portLost p).flag .FAB_AXIS_LINE (p / 2) = true ∧
        (s.flag .FAB_AXIS_LINE (p / 2) = false → (u.portLost p).fld .FAB_AXIS_BREAK (p / 2) =
          (if p.val % 2 = 0 then s.coord (p / 2) else (s.coord (p / 2) + s.axisLen (p / 2) - 1) % s.axisLen (p / 2)) % 64))) ∧
    (∀ cause : Nat, s.portState p = 0 ∨ 6 ≤ s.portState p → s.portDown p cause = s) ∧
    (∀ (a brk : Nat) (out : Fin 8) (u : State),
      (s.flag .FAB_AXIS_LINE a = true ∨ s.axisUsed a = false → s.convertAxis a brk out = s) ∧
      (s.flag .FAB_AXIS_LINE a = false → s.axisUsed a = true →
        u = ((s.setFlag .FAB_AXIS_LINE a true).setFld .FAB_AXIS_BREAK a brk).setFlag .FAB_AXIS_AUTO a true →
        (s.portOpen out = true → s.convertAxis a brk out = (u.sendHop out (u.hopPkt out 8 (brk + a * 2 ^ 8) [])).raiseNo 0x66
          (linkUnit out) (a % 256 + brk * 2 ^ 8)) ∧
        (s.portOpen out = false → s.convertAxis a brk out = u.raiseNo 0x66 (linkUnit out) (a % 256 + brk * 2 ^ 8))))

/-- A long pause (R342): a data stream that has been paused for PAUSE_MAX_US raises class 0x59 once, and stays paused. -/
def Obligations.LongPausesAreReportedOnce : Prop :=
  ∀ (s u : State) (p : Fin 8) (t : Nat), s.linksRun = true → (s.port p).pauseSince = some t →
    t + 1000 * s.fld .LNK_CFG_PAUSE_MAX_US p ≤ s.now → exec (.pauseLimit p) s = .next u →
    ((s.port p).pauseSaid = false → ∃ v : State, u = v.raiseNo 0x59 ⟨5, p⟩ (p.val + (s.now - t) / 1000 * 2 ^ 16) ∧
      v = { s with regs := v.regs, ports := v.ports } ∧ s.sameRegs v [(.LNK_STATUS_PAUSE_LONG, p.val)]) ∧
    ((s.port p).pauseSaid = true → u = s) ∧
    (u.port p).pauseSaid = true ∧ (u.port p).pauseSince = some t ∧ (u.port p).pauseUntil = (s.port p).pauseUntil ∧
    u.flag .LNK_STATUS_PAUSED p = s.flag .LNK_STATUS_PAUSED p ∧ exec (.pauseLimit p) u = .next u

/-! ### Packets, routing and flows -/

/-- A packet arrives by an open port (R329, R361 to R365, R372, R374 to R377): it is taken from the front of the units received,
its bytes counted; a bad header is dropped with class 0x67, another partition's packet with class 0x61, and the units of both
are freed; one that is not for this module waits in its buffer; one at its destination leaves it and is taken by its flow in the
order of SEQ, parked ahead of it within WIN, refused with class 0x69 beyond WIN or where its flow is not open for it, or counted
as a duplicate behind it, and one of an old epoch is dropped; an ACK frees what it names and nothing else, UNREACH fails its flow,
LINE makes its axis a line. -/
def Obligations.PacketsArrive : Prop :=
  ∀ (s : State) (p : Fin 8) (h : BitVec 256) (pl : List Byte) (q : Pkt), q = cutPkt h.toNat pl →
    (∀ x ∈ [(Instr.write p h pl, 0), (.stream p h pl, 1), (.readReq p h pl, 2), (.readResp p h pl, 3),
        (.remoteSignal p h pl, 4), (.ack p h pl, 5), (.nak p h pl, 6), (.unreach p h pl, 7), (.line p h pl, 8)],
      (s.portOpen p = false → exec x.1 s = .next s) ∧
      ((s.port p).holds (h :: unitsOf pl) = none → exec x.1 s = .next s) ∧
      (∀ (control : Bool) (s1 : State), s.portOpen p = true → (unitsOf pl).length = payloadUnits q →
        (s.port p).holds (h :: unitsOf pl) = some control → s1 = s.taken p h pl control q →
        (headerBad h.toNat = true →
          (q.vc ≤ 4 → exec x.1 s = .next ((s1.freeUnits p (bufIndex q.vc q.lane) q.units).dropPkt.raiseNo 0x67 (linkUnit p) p)) ∧
          (4 < q.vc → exec x.1 s = .next (s1.dropPkt.raiseNo 0x67 (linkUnit p) p))) ∧
        (headerBad h.toNat = false → q.type = x.2 →
          (q.part.toNat ≠ s.fld .FAB_NODE_PART 0 → exec x.1 s = .next ((s1.freeUnits p (bufIndex q.vc q.lane)
            q.units).dropPkt.raiseNo 0x61 (linkUnit p) (q.src.toNat + q.part.toNat * 2 ^ 24))) ∧
          (q.part.toNat = s.fld .FAB_NODE_PART 0 → q.type ≠ 8 →
            (q.dst.toNat = s.selfNode → exec x.1 s = .next
              ((s1.freeUnits p (bufIndex q.vc q.lane) q.units).eject p q 0)) ∧
            (q.dst.toNat ≠ s.selfNode → exec x.1 s = .next (s1.enqueuePkt p q))) ∧
          (q.part.toNat = s.fld .FAB_NODE_PART 0 → q.type = 8 → exec x.1 s = .next ((s1.freeUnits p (bufIndex q.vc q.lane)
            q.units).convertAxis (bitsOf q.addr.toNat 9 8) (bitsOf q.addr.toNat 5 0) (portTwin p)))))) ∧
    (∀ (port : Nat) (x : RecvFlow) (s0 : State), x = s.recvFlow q.dflow.toNat → flowType q.type = true →
      s0 = s.traceGot port q false →
      (x.opened = false ∨ x.ctx ≠ q.ctx → s.eject port q 0 = s0.dropPkt.raiseNo 0x69 (linkUnit port)
        (q.dflow.toNat + q.seq.toNat * 2 ^ 32 + q.ctx.toNat * 2 ^ 64)) ∧
      (x.opened = true → x.ctx = q.ctx → q.epoch.toNat ≠ s.fld .CTX_CFG_EPOCH q.ctx.toNat →
        s.eject port q 0 = (if q.type = 4 then s0.dropPkt.dropSignal else s0.dropPkt)) ∧
      (x.opened = true → x.ctx = q.ctx → q.epoch.toNat = s.fld .CTX_CFG_EPOCH q.ctx.toNat →
        (2 ^ 31 ≤ (q.seq.toNat + 2 ^ 32 - x.expected) % 2 ^ 32 ∨ (∃ e ∈ x.parked, e.1 = q.seq.toNat) →
          s.eject port q 0 = (s.traceGot port q true).satAdd .FAB_CNT0_DUPS 0 1) ∧
        (q.seq.toNat = x.expected → x.expected < 2 ^ 32 → x.parked = [] → q.type = 0 ∨ q.type = 3 →
          s.mirrorBlock q = none → ∃ v : State, s.eject port q 0 =
            (v.memWrite (v.linkAcc port q.ctx.toNat) q.addr.toNat q.bytes).linkDone port q.addr.toNat ∧
            (v.recvFlow q.dflow.toNat).expected = (x.expected + 1) % 2 ^ 32 ∧ v = { s0 with recvFlows := v.recvFlows }) ∧
        (∀ k, 0 < k → k < 2 ^ 31 → (q.seq.toNat + 2 ^ 32 - x.expected) % 2 ^ 32 = k →
          x.parked.any (fun e => e.1 == q.seq.toNat) = false →
          ((x.parked.map (fun e => 32 * e.2.units)).sum + 32 * q.units ≤ x.win →
            s.eject port q 0 = s0.park q ∧
            ((s.eject port q 0).recvFlow q.dflow.toNat).parked = x.parked ++ [(q.seq.toNat, q)] ∧
            ((s.eject port q 0).recvFlow q.dflow.toNat).expected = x.expected) ∧
          (x.win < (x.parked.map (fun e => 32 * e.2.units)).sum + 32 * q.units →
            s.eject port q 0 = s0.dropPkt.raiseNo 0x69 (linkUnit port)
              (q.dflow.toNat + q.seq.toNat * 2 ^ 32 + q.ctx.toNat * 2 ^ 64))))) ∧
    (∀ (port f n : Nat), q.type = 5 → f = q.dflow.toNat → n = q.addr.toNat % 2 ^ 32 →
      (∀ e, e ∈ ((s.eject port q 0).sendFlow f).retain ↔ e ∈ (s.sendFlow f).retain ∧
        2 ^ 31 ≤ (n + 2 ^ 32 - e.1) % 2 ^ 32) ∧
      s.eject port q 0 = { s with sendFlows := (s.eject port q 0).sendFlows }) ∧
    (∀ (port f : Nat), q.type = 7 → f = q.dflow.toNat → (s.sendFlow f).opened = true → (s.sendFlow f).failed = false →
      s.eject port q 0 = (s.setSendFlow f { s.sendFlow f with failed := true }).raiseCtx 0x60 (s.sendFlow f).ctx.toNat
        (linkUnit 0) (f + (s.sendFlow f).node.toNat * 2 ^ 32))

/-- A packet leaves (R366 to R371, R373, R378): a flow injects its next packet while WIN covers it, with the next SEQ, and
keeps a copy, unless another packet goes before it on its output; the head of an input buffer is consumed here, answered as
unreachable, dropped as stranded, or sent on a productive port when nothing goes before it; one that has been ready and able to
move for AGE_NS is served ahead of the order; one that has found no productive port with credit for ESC_WAIT_NS moves to VC4 on
the dimension-ordered port; a packet sent takes its credits, and its frame waits for its slots. -/
def Obligations.PacketsAreRouted : Prop :=
  (∀ (s : State) (flow : BitVec 14) (f : Nat), f = flow.toNat →
    (s.mayInject f = false → exec (.packetInject flow) s = .next s) ∧
    (s.nextPkt f = none → exec (.packetInject flow) s = .next s) ∧
    (∀ (p0 p : Pkt) (w : PktFrom), s.mayInject f = true → s.nextPkt f = some (p0, w) → p = s.addressed f p0 →
      (0 < (s.sendFlow f).skip → exec (.packetInject flow) s = .next ((s.takePkt f p w).withhold f p)) ∧
      ((s.sendFlow f).skip = 0 → (s.sendFlow f).win < (s.sendFlow f).open' + 32 * p.units →
        exec (.packetInject flow) s = .next s) ∧
      ((s.sendFlow f).skip = 0 → (s.sendFlow f).open' + 32 * p.units ≤ (s.sendFlow f).win →
        (p.dst.toNat = s.selfNode → ∃ u : State,
          (w = .replay → u = s.takePkt f p w) ∧ (w ≠ .replay → u = (s.takePkt f p w).logWrite p 0) ∧
          exec (.packetInject flow) s = .next (((u.flowSent f p).traceSent p 0 false).eject 0 p 0)) ∧
        (∀ a, p.dst.toNat ≠ s.selfNode → s.aliasOf (s.sendFlow f).node.toNat = none → s.absentAxis p = some a →
          exec (.packetInject flow) s = .next ((s.takePkt f p w).dropPkt.failFlow f 0x60 (f + p.dst.toNat * 2 ^ 32)
            (linkUnit 0))) ∧
        (p.dst.toNat ≠ s.selfNode → s.absentAxis p = none ∨ s.aliasOf (s.sendFlow f).node.toNat ≠ none →
          (s.exitOf 8 p = none → exec (.packetInject flow) s = .next s) ∧
          (∀ o lane, s.exitOf 8 p = some (o, lane) →
            (s.outranked o 9 (bufIndex p.vc lane) p = true → exec (.packetInject flow) s = .next s) ∧
            (s.outranked o 9 (bufIndex p.vc lane) p = false → ∃ u : State,
              (w = .replay → u = s.takePkt f p w) ∧ (w ≠ .replay → u = (s.takePkt f p w).logWrite p o) ∧
              exec (.packetInject flow) s = .next ((((u.flowSent f p).sendOn o p p.vc lane).rrNext (s.bestPorts p) p.vc
                o).traceSent p o false)))))) ∧
    (∀ p : Pkt, ((s.flowSent f p).sendFlow f).next = ((s.sendFlow f).next + 1) % 2 ^ 32 ∧
      ((s.flowSent f p).sendFlow f).retain = (s.sendFlow f).retain ++ [(p.seq.toNat, p)]) ∧
    (∀ p : Pkt, (s.addressed f p).seq = BitVec.ofNat 32 (s.sendFlow f).next ∧ (s.addressed f p).ctx = (s.sendFlow f).ctx ∧
      (s.addressed f p).src = BitVec.ofNat 24 s.selfNode ∧ (s.addressed f p).payload = p.payload)) ∧
  (∀ (s : State) (i : Fin 9) (b : Fin 7) (p : Pkt), s.linksRun = true →
    (s.inbuf (bufKey i b)).head? = some p →
    (p.dst.toNat = s.selfNode → exec (.packetForward i b) s = .next ((s.popHead i b p).eject (min i 7) p 0)) ∧
    (p.dst.toNat ≠ s.selfNode →
      (∀ a, s.absentAxis p = some a → exec (.packetForward i b) s = .next ((s.popHead i b p).unreachable p a)) ∧
      (s.absentAxis p = none →
        (s.stranded p = true → exec (.packetForward i b) s = .next ((s.popHead i b p).strand p i)) ∧
        (s.stranded p = false → s.exitOf i p = none → exec (.packetForward i b) s = .next s) ∧
        (∀ o lane, s.stranded p = false → s.exitOf i p = some (o, lane) →
          (s.outranked o i b p = true → exec (.packetForward i b) s = .next s) ∧
          (s.outranked o i b p = false → exec (.packetForward i b) s = .next (s.passOn i b p o p.vc lane)) ∧
          (∀ t, p.able = some t → t + s.fld .FAB_CTRL_AGE_NS 0 ≤ s.now →
            exec (.agingServe i b) s = .next (s.passOn i b p o p.vc lane)))) ∧
      (∀ o t, 1 ≤ p.vc → p.vc ≤ 3 → p.stuck = some t → s.orderedPort p = some o →
        (t + s.fld .FAB_CTRL_ESC_WAIT_NS 0 ≤ s.now →
          (∀ x ∈ s.productive p, s.canSend x (bufIndex p.vc false) p.units = false) → s.canSend o 5 p.units = true →
          exec (.escapeMove i b) s = .next (s.passOn i b p o 4 false)) ∧
        (s.now < t + s.fld .FAB_CTRL_ESC_WAIT_NS 0 ∨ (∃ x ∈ s.productive p, s.canSend x (bufIndex p.vc false) p.units = true) →
          exec (.escapeMove i b) s = .next s)) ∧
      (p.stuck = none → exec (.escapeMove i b) s = .next s)) ∧
    ((∀ t, p.able = some t → s.now < t + s.fld .FAB_CTRL_AGE_NS 0) → exec (.agingServe i b) s = .next s)) ∧
  (∀ (s : State) (i : Nat) (p : Pkt),
    (s.reckon i p).able = (if (s.exitOf i p).isSome then some (p.able.getD s.now) else none) ∧
    (s.reckon i p).stuck = (if (s.productive p).any (fun x => s.canSend x (bufIndex p.vc false) p.units) then none
      else some (p.stuck.getD s.now))) ∧
  (∀ (s : State) (i : Fin 9) (b : Fin 7), (s.inbuf (bufKey i b)).head? = none → exec (.packetForward i b) s = .next s ∧
    exec (.agingServe i b) s = .next s ∧ exec (.escapeMove i b) s = .next s) ∧
  (∀ (s : State) (p : Pkt) (o : Nat), o ∈ s.productive p → s.portOpen o = true ∧ o < 8 ∧
    s.plusDistance (o / 2) (nodeCoord p.dst.toNat (o / 2)) ≠ 0 ∧
    (p.headAt (o / 2) ≠ (if o % 2 = 0 then 2 else 1)) ∧
    (s.flag .FAB_AXIS_LINE (o / 2) = false → o % 2 = 0 →
      2 * s.plusDistance (o / 2) (nodeCoord p.dst.toNat (o / 2)) ≤ s.axisLen (o / 2))) ∧
  (∀ (s : State) (p : Pkt) (o : Nat), s.adaptivePort p = some o → o ∈ s.productive p ∧
    s.canSend o (bufIndex p.vc false) p.units = true ∧ ∀ x ∈ s.productive p, s.canSend x (bufIndex p.vc false) p.units = true →
      s.creditFree x (bufIndex p.vc false) ≤ s.creditFree o (bufIndex p.vc false)) ∧
  (∀ (s u : State) (o : Nat) (p q : Pkt) (vc : Nat) (lane : Bool), u = s.sendOn o p vc lane →
    q = { p.commit o with vc := vc, lane := lane, since := 0, able := none, stuck := none } →
    u.mem = s.mem ∧ u.sendFlows = s.sendFlows ∧ u.inbufs = s.inbufs ∧
    (∀ j, j ≠ o → u.port j = s.port j) ∧
    Tbl.get 0 (u.port o).credit (8 + bufIndex vc lane) = (Tbl.get 0 (s.port o).credit (8 + bufIndex vc lane) + p.units) % 2 ^ 32 ∧
    (bufIndex vc lane < 2 → (u.port o).ctlQ = (s.port o).ctlQ ++ [(s.now, q.frame)] ∧ (u.port o).dataQ = (s.port o).dataQ) ∧
    (2 ≤ bufIndex vc lane → (u.port o).ctlQ = (s.port o).ctlQ ∧ (u.port o).dataQ = (s.port o).dataQ ++ q.frame))

/-- Flows (R202, R203, R373 to R375, R389): an open entry is read, opened with its data when its window fits the pool,
refused with class 0x65 otherwise, and closed; a held signal is released in its turn to its bank, or dropped and counted when its
epoch is no longer its context's; an ACK goes out for a quarter of WIN or after ACK_US, a NAK for a gap of GAP_US; a NAK that
comes in resends what it names, class 0x63, and moves no RTO time; a packet without progress for RTO_US is resent and the time
runs anew, until RETRY_MAX resends fail its flow with class 0x64. -/
def Obligations.FlowsAreKept : Prop :=
  ∀ (s : State) (flow : BitVec 14) (f : Nat), f = flow.toNat →
    (∀ (s0 s1 : State) (h : Pkt) (t : List Pkt), s0 = s.drainFlow 0 f ((s.recvFlow f).parked.length + 1) →
      (s0.recvFlow f).held = h :: t → s.linksRun = true →
      s1 = s0.setRecvFlow f { s0.recvFlow f with
        held := t.map (fun q => { q with since := q.since - h.since })
        sigs := (s0.recvFlow f).sigs + 1
        tailBytes := (s0.recvFlow f).tailBytes - h.since } →
      (h.epoch.toNat = s0.fld .CTX_CFG_EPOCH h.ctx.toNat → exec (.remoteSignalRelease flow) s = .next (s1.sendSignal
        (if (s0.recvFlow f).tile then 14 else 12) h.ctx.toNat h.len.toNat h.addr.toNat)) ∧
      (h.epoch.toNat ≠ s0.fld .CTX_CFG_EPOCH h.ctx.toNat → exec (.remoteSignalRelease flow) s = .next s1.dropSignal)) ∧
    ((s.recvFlow f).parked = [] → s.drainFlow 0 f ((s.recvFlow f).parked.length + 1) = s ∧
      ((s.recvFlow f).held = [] → exec (.remoteSignalRelease flow) s = .next s) ∧
      (s.linksRun = true → (s.recvFlow f).opened = true →
        (s.recvFlow f).win ≤ 4 * (s.recvFlow f).sinceAck ∨
          0 < (s.recvFlow f).sinceAck ∧ (s.recvFlow f).ackAt + 1000 * s.fld .FAB_TIMER_ACK_US 0 ≤ s.now →
        exec (.ackTimer flow) s = .next ((s.setRecvFlow f { s.recvFlow f with
          sinceAck := 0
          ackAt := s.now }).answer 5 (s.recvFlow f).node (s.recvFlow f).peer
            (((s.recvFlow f).expected + 2 ^ 32 - 1) % 2 ^ 32))) ∧
      (4 * (s.recvFlow f).sinceAck < (s.recvFlow f).win →
        (s.recvFlow f).sinceAck = 0 ∨ s.now < (s.recvFlow f).ackAt + 1000 * s.fld .FAB_TIMER_ACK_US 0 →
        exec (.ackTimer flow) s = .next s)) ∧
    (∀ t, (s.recvFlow f).gapAt = some t →
      (s.linksRun = true → (s.recvFlow f).opened = true → t + 1000 * s.fld .FAB_TIMER_GAP_US 0 ≤ s.now →
        exec (.gapTimeout flow) s = .next ((s.setRecvFlow f { s.recvFlow f with gapAt := some s.now }).answer 6
          (s.recvFlow f).node (s.recvFlow f).peer ((s.recvFlow f).expected + (s.recvFlow f).nakMask * 2 ^ 32))) ∧
      (s.now < t + 1000 * s.fld .FAB_TIMER_GAP_US 0 → exec (.gapTimeout flow) s = .next s)) ∧
    ((s.recvFlow f).gapAt = none → exec (.gapTimeout flow) s = .next s) ∧
    (∀ (q : Nat) (p : Pkt), Tbl.get 0 (s.sendFlow f).resends q < s.fld .FAB_TIMER_RETRY_MAX 0 →
      s.resendPkt f q p = ((s.setSendFlow f { s.sendFlow f with
        resends := Tbl.put (s.sendFlow f).resends q (Tbl.get 0 (s.sendFlow f).resends q + 1) }).satAdd .FAB_CNT0_RESENDS 0
          1).enqueuePkt 8 { p with
            vc := typeVc p.type
            lane := false
            head := 0 }) ∧
    (∀ (q mask : Nat) (p : Pkt), (s.sendFlow f).failed = false → (s.sendFlow f).retain = [(q, p)] → q < 2 ^ 32 →
      s.nakGot f q mask = (s.raiseCtx 0x63 (s.sendFlow f).ctx.toNat (linkUnit 0) (f + q * 2 ^ 32)).resendPkt f q p) ∧
    (∀ (q : Nat) (p : Pkt) (l : List (Nat × Pkt)), (s.sendFlow f).retain = (q, p) :: l → s.linksRun = true →
      (s.sendFlow f).failed = false →
      ((s.sendFlow f).lastAck + 1000 * s.fld .FAB_TIMER_RTO_US 0 ≤ s.now →
        (Tbl.get 0 (s.sendFlow f).resends q < s.fld .FAB_TIMER_RETRY_MAX 0 →
          exec (.rtoExpire flow) s = .next (((s.setSendFlow f { s.sendFlow f with
            resends := Tbl.put (s.sendFlow f).resends q (Tbl.get 0 (s.sendFlow f).resends q + 1)
            lastAck := s.now }).satAdd .FAB_CNT0_RESENDS 0 1).enqueuePkt 8 { p with
              vc := typeVc p.type
              lane := false
              head := 0 })) ∧
        (s.fld .FAB_TIMER_RETRY_MAX 0 ≤ Tbl.get 0 (s.sendFlow f).resends q →
          exec (.rtoExpire flow) s = .next ((s.setSendFlow f { s.sendFlow f with lastAck := s.now }).failFlow f 0x64
            (f + q * 2 ^ 32) (linkUnit 0)))) ∧
      (s.now < (s.sendFlow f).lastAck + 1000 * s.fld .FAB_TIMER_RTO_US 0 → exec (.rtoExpire flow) s = .next s)) ∧
    ((s.sendFlow f).retain = [] → exec (.rtoExpire flow) s = .next s) ∧
    (∀ o : Origin, s.answers o .FAB_FLOW_SEL →
      (∃ u : State, exec (.flowRead o false flow) s = .next (s.auditOf u true (Origin.audit o) .FAB_FLOW_SEL 0
          (2 ^ 63 + f)) ∧
        u.fld .FAB_FLOW_DATA_PEER_FLOW 0 = (s.sendFlow f).peer.toNat ∧
        u.fld .FAB_FLOW_DATA_PEER_NODE 0 = (s.sendFlow f).node.toNat ∧ u.fld .FAB_FLOW_DATA_CTX 0 = (s.sendFlow f).ctx.toNat ∧
        u.fld .FAB_FLOW_SEQ_NEXT 0 = (s.sendFlow f).next % 2 ^ 32 ∧ u.fld .FAB_FLOW_SEL_FLOW 0 = f ∧
        u = { s with regs := u.regs }) ∧
      (∃ u : State, exec (.flowRead o true flow) s = .next (s.auditOf u true (Origin.audit o) .FAB_FLOW_SEL 0
          (2 ^ 63 + 2 ^ 62 + f)) ∧
        u.fld .FAB_FLOW_SEQ_NEXT 0 = (s.recvFlow f).expected % 2 ^ 32 ∧
        u.fld .FAB_FLOW_SEQ_MARK 0 = (s.recvFlow f).parked.length % 2 ^ 32 ∧ u.flag .FAB_FLOW_SEL_DIR 0 = true ∧
        u = { s with regs := u.regs }) ∧
      (s.openBad false f = false → ∃ u : State,
        exec (.flowOpen o false flow) s = .next (s.auditOf u true (Origin.audit o) .FAB_FLOW_SEL 0 (2 ^ 63 + 2 ^ 60 + f)) ∧
        (u.sendFlow f).opened = true ∧ (u.sendFlow f).next = 0 ∧ (u.sendFlow f).retain = [] ∧
        (u.sendFlow f).win = (s.fld .FAB_FLOW_DATA_WIN_M1 0 + 1) * 4096 ∧
        (u.sendFlow f).node.toNat = s.fld .FAB_FLOW_DATA_PEER_NODE 0 % 2 ^ 24 ∧
        (∀ j, j ≠ f → u.sendFlow j = s.sendFlow j) ∧ u = { s with regs := u.regs, sendFlows := u.sendFlows }) ∧
      (s.openBad true f = false → ∃ u : State,
        exec (.flowOpen o true flow) s = .next (s.auditOf u true (Origin.audit o) .FAB_FLOW_SEL 0
          (2 ^ 63 + 2 ^ 62 + 2 ^ 60 + f)) ∧
        (u.recvFlow f).opened = true ∧ (u.recvFlow f).expected = 0 ∧ (u.recvFlow f).parked = [] ∧
        (u.recvFlow f).win = (s.fld .FAB_FLOW_DATA_WIN_M1 0 + 1) * 4096 ∧
        (∀ j, j ≠ f → u.recvFlow j = s.recvFlow j) ∧ u = { s with regs := u.regs, recvFlows := u.recvFlows }) ∧
      (∀ rx, s.openBad rx f = true → exec (.flowOpen o rx flow) s = .next (s.auditOf
        (((s.selFlow rx 1 f).setFlag .FAB_FLOW_SEL_REFUSED 0 true).raiseNo 0x65 (linkUnit 0)
          (f + (if rx then 2 ^ 16 else 0))) true (Origin.audit o) .FAB_FLOW_SEL 0 (selData rx 1 f))) ∧
      exec (.flowClose o false flow) s = .next (s.auditOf ((s.selFlow false 2 f).setSendFlow f SendFlow.reset) true
        (Origin.audit o) .FAB_FLOW_SEL 0 (selData false 2 f)) ∧
      exec (.flowClose o true flow) s = .next (s.auditOf (((s.selFlow true 2 f).discardMirror f).setRecvFlow f
        RecvFlow.reset) true (Origin.audit o) .FAB_FLOW_SEL 0 (selData true 2 f)))

/-! ### Collective groups -/

/-- Reduction groups (R391 to R405, R413 to R415): ARM of a good group starts it with empty buffers, ARM of a bad one is
refused with class 0x74, and clearing ARM discards what it holds; 4 KiB of a collective queue are the next chunk of a
hosted rank, and a chunk outside the group, a repeated one, or a rest when the program's END waits for its queues is class 0x71;
a partial, a final or an exponent packet at its rank is taken into the chain, one of a later round is held, one for another
module's rank is relayed, and a collective packet that no armed group takes is class 0x77. A rank adds what came from the rank
before it to its own contribution, element by element; three residue mismatches are replayed, and a fourth fails the group. A
round ends when every chunk is written: DONE_VID is signalled, ROUND increments, and the packets held for the next round begin it
under the plan that the axis then gives, class 0x76 for a new line plan. -/
def Obligations.GroupsReduce : Prop :=
  ∀ (s : State),
    (∀ (o : Origin) (gr : BitVec 8) (g : Nat), g = gr.toNat → s.answers o .COL_GRP_CFG0 →
      (s.armed g = false → s.armBad g = false → s.flag .COL_GRP_PROXY_EN g = false →
        exec (.groupArm o gr) s = .next (s.auditChange ((s.setGroup g { Group.reset with start := s.round g }).setFlag
          .COL_GRP_CFG0_ARM g true) o .COL_GRP_CFG0 g (s.regVal .COL_GRP_CFG0 g % 2 ^ 63 + 2 ^ 63))) ∧
      (s.armed g = false → s.armBad g = false → s.flag .COL_GRP_PROXY_EN g = true → ∃ u : State,
        exec (.groupArm o gr) s = .next (s.auditChange u o .COL_GRP_CFG0 g (s.regVal .COL_GRP_CFG0 g % 2 ^ 63 + 2 ^ 63)) ∧
        u.armed g = true ∧ u.round g = s.fld .COL_GRP_PROXY_ROUND_SET g % 2 ^ 32 ∧ (u.group g).start = u.round g ∧
        (u.group g).contrib = [] ∧ u = { s with regs := u.regs, groups := u.groups }) ∧
      (s.armed g = false → s.armBad g = true → exec (.groupArm o gr) s = .next (s.auditChange
        ((s.setFlag .COL_GRP_STATUS_REFUSED g true).raiseCtx 0x74 (s.fld .COL_GRP_CFG0_CTX g)
          ⟨6, s.groupTile g⟩ (colDetail g 0 0)) o .COL_GRP_CFG0 g (s.regVal .COL_GRP_CFG0 g % 2 ^ 63 + 2 ^ 63))) ∧
      (s.armed g = true → exec (.groupArm o gr) s = .next s) ∧
      exec (.groupDisarm o gr) s = .next (s.auditChange ((s.setGroup g Group.reset).setFlag .COL_GRP_CFG0_ARM g false) o
        .COL_GRP_CFG0 g (s.regVal .COL_GRP_CFG0 g % 2 ^ 63))) ∧
    (∀ g : Nat, s.ranks g < 2 → s.armBad g = true) ∧
    (∀ (sh : Fin 12) (n : Fin 64) (q : BitVec 5) (resid : Fin 5) (t : Nat), t = tix sh n →
      (s.colGroup t q.toNat 1 = none → exec (.chunkEnter sh n q resid) s = .next s) ∧
      (∀ (g c : Nat) (b : List PByte), s.colGroup t q.toNat 1 = some g → b = itemBytes (s.colItems t q.toNat) →
        c = (descEbase (s.desc t q.toNat) + Tbl.get 0 (s.til t).taken q.toNat) / 1024 →
        (b.length < 4096 → s.endWaits t = false → exec (.chunkEnter sh n q resid) s = .next s) ∧
        (b.length < 4096 → b ≠ [] → s.endWaits t = true → exec (.chunkEnter sh n q resid) s = .next
          (((s.takeBytes t q.toNat b.length).setFlag .COL_GRP_STATUS_PUSH_ERR g true).colRaise 0x71 g 0 c)) ∧
        (4096 ≤ b.length → 64 ≤ (s.group g).contrib.length → exec (.chunkEnter sh n q resid) s = .next s) ∧
        (4096 ≤ b.length → (s.group g).contrib.length < 64 → ∀ s1 : State, s1 = s.takeBytes t q.toNat 4096 →
          (s.fld .COL_GRP_CFG1_CHUNKS g ≤ c ∨ s1.pushRank g c = none →
            exec (.chunkEnter sh n q resid) s = .next ((s1.setFlag .COL_GRP_STATUS_PUSH_ERR g true).raiseCtx 0x71
              (s.fld .COL_GRP_CFG0_CTX g) ⟨6, s.groupTile g⟩ (colDetail g 0 c))) ∧
          (∀ (r k : Nat), c < s.fld .COL_GRP_CFG1_CHUNKS g → s1.pushRank g c = some r →
            k = Tbl.get 0 (s1.group g).pushes (r * 2 ^ 22 + c) →
            (s1.round g < (s1.group g).start + k → exec (.chunkEnter sh n q resid) s = .next
              ((s1.setFlag .COL_GRP_STATUS_PUSH_ERR g true).colRaise 0x71 g r c)) ∧
            ((s1.group g).start + k ≤ s1.round g →
              exec (.chunkEnter sh n q resid) s = .next
                (((s1.setGroup g { s1.group g with
                  pushes := Tbl.put (s1.group g).pushes (r * 2 ^ 22 + c) (k + 1)
                  contrib := (s1.group g).contrib ++ [⟨c, r, ((s1.group g).start + k) % 256, 0, chunkElems (b.take 4096)⟩]
                  }).choosePlan g).colRun g resid colFuel)))))) ∧
    (∀ (p : Fin 8) (hd : BitVec 256) (pl : List Byte) (resid : Fin 5) (q : Pkt) (control : Bool) (type : Nat) (s1 : State),
      s.comes p type hd pl control q → s1 = s.taken p hd pl control q →
      ∀ x ∈ [(Instr.colPartial p hd pl resid, 10, resid.val), (.colFinal p hd pl, 11, 0), (.colExp p hd pl, 12, 0)],
        x.2.1 = type →
        (q.dst.toNat = s.selfNode → exec x.1 s = .next ((s1.freeUnits p (bufIndex q.vc q.lane) q.units).flowArrive p q x.2.2)) ∧
        (q.dst.toNat ≠ s.selfNode → exec x.1 s = .next (s1.enqueuePkt p q))) ∧
    (∀ (port resid : Nat) (q : Pkt), q.type = 10 ∨ q.type = 11 ∨ q.type = 12 ∨ q.type = 13 → s.groupOfPkt q = none →
      s.land port q resid = s.raiseCtx 0x77 q.ctx.toNat ⟨6, s.groupTile (s.strayGroup q)⟩
        (colDetail (s.strayGroup q) (s.strayAt q (s.strayGroup q)).1 (s.strayAt q (s.strayGroup q)).2)) ∧
    (∀ (port resid : Nat) (q : Pkt), q.type = 10 ∨ q.type = 11 ∨ q.type = 12 →
      (∀ g, s.groupOfPkt q = some g → ∀ s1 : State, s1 = s.count 3 (if q.type = 12 then 0 else 1) →
        (q.colRank ∉ s1.hosted g → s.land port q resid = s1.queuePkt q.dflow.toNat { q with
          head := 0
          lane := false }) ∧
        (q.colRank ∈ s1.hosted g → s1.aheadOf g q = true →
          s.land port q resid = s1.setGroup g { s1.group g with later := (s1.group g).later ++ [q] }) ∧
        (q.colRank ∈ s1.hosted g → s1.aheadOf g q = false →
          s.land port q resid = ((s1.choosePlan g).colTake g q).colRun g resid colFuel))) ∧
    (∀ (g resid fuel : Nat), s.armed g = true →
      (s.groupOp g ≠ 3 → s.roundDone g = true →
        s.colRun g resid (fuel + 1) = ((s.endRound g).takeLater g).colRun g resid fuel) ∧
      (∀ w : Work, s.groupOp g = 3 ∨ s.roundDone g = false → s.nextWork g = some w →
        s.colRun g resid (fuel + 1) = (s.doWork g w resid).colRun g (if w.adds then 0 else resid) fuel) ∧
      (s.groupOp g = 3 ∨ s.roundDone g = false → s.nextWork g = none → s.colRun g resid (fuel + 1) = s)) ∧
    (∀ g : Nat, s.endRound g = ((s.setGroup g { s.group g with written := [] }).wrapAdd .COL_GRP_STATUS_ROUND g 1).sendSignal
      (12 + s.groupTile g) (s.groupCtx g) (s.fld .COL_GRP_CFG0_DONE_VID g) 1) ∧
    (∀ g : Nat, ((∀ p ∈ (s.group g).later, s.aheadOf g p = true) → s.takeLater g = s) ∧
      ((∃ p ∈ (s.group g).later, s.aheadOf g p = false) →
        s.takeLater g = ((s.group g).later.filter (fun p => !(s.aheadOf g p))).foldl (fun s p => s.colTake g p)
          ((s.setGroup g { s.group g with later := (s.group g).later.filter (fun p => s.aheadOf g p) }).choosePlan g))) ∧
    (∀ (g : Nat) (s1 : State), s1 = s.setGroup g { s.group g with plan := s.round g + 1 } →
      ((s.group g).plan = s.round g + 1 → s.choosePlan g = s) ∧
      ((s.group g).plan ≠ s.round g + 1 →
        (s.flag .FAB_AXIS_LINE (s.fld .COL_GRP_CFG0_AXIS g) = true → s.flag .COL_GRP_STATUS_LINE_PLAN g = false →
          s.choosePlan g = (s1.setFlag .COL_GRP_STATUS_LINE_PLAN g true).colRaise 0x76 g 0 0) ∧
        (s.flag .FAB_AXIS_LINE (s.fld .COL_GRP_CFG0_AXIS g) = false →
          s.choosePlan g = s1.setFlag .COL_GRP_STATUS_LINE_PLAN g false))) ∧
    (∀ (g : Nat) (c p : Chunk), s.groupExact g = false → ∀ v : List TElem,
      v = List.zipWith (fun a b => accAdd false a b) p.elems c.elems →
      s.doWork g (.sum c p) 0 = (s.setGroup g ((s.group g).drop c)).chainOut g { c with elems := v } v) ∧
    (∀ (g rank idx k : Nat), k ≤ 3 → (s.residue g rank idx k).armed g = s.armed g) ∧
    (∀ (g rank idx : Nat), (s.residue g rank idx 4).armed g = false ∧
      (s.residue g rank idx 4).flag .COL_GRP_STATUS_FAILED g = true)

/-- Dispatch groups (R406 to R409): a record and its row go to the entry of its rank, here or by packets, and are counted
for the lane; a full rank drops them with class 0x75 once; a bad record, one of a lane that another queue serves, and a rest that
a SIGNAL or the program's END cuts short are class 0x71; a COL_ROW packet is written at its entry; a SIGNAL at the front of the
queue ends the lane's micro-batch: every rank is told the tally and signalled, and the lane's counts are zero. -/
def Obligations.DispatchRoutesRows : Prop :=
  ∀ (s : State),
    (∀ (p : Fin 8) (hd : BitVec 256) (pl : List Byte) (q : Pkt) (control : Bool) (s1 : State),
      s.comes p 13 hd pl control q → s1 = s.taken p hd pl control q →
      (q.dst.toNat = s.selfNode →
        exec (.colRow p hd pl) s = .next ((s1.freeUnits p (bufIndex q.vc q.lane) q.units).flowArrive p q 0)) ∧
      (q.dst.toNat ≠ s.selfNode → exec (.colRow p hd pl) s = .next (s1.enqueuePkt p q))) ∧
    (∀ (port : Nat) (q : Pkt) (g : Nat), q.type = 13 → s.groupOfPkt q = some g → s.land port q 0 =
      (s.count 3 0).memWrite ((s.count 3 0).colAcc g) ((s.count 3 0).fld .COL_GRP_RES_RES_ADDR g +
        bitsOf q.addr.toNat 31 0 * (s.count 3 0).entryBytes g + 32 * bitsOf q.addr.toNat 47 32) q.bytes) ∧
    (∀ (sh : Fin 12) (n : Fin 64) (qq : BitVec 5) (t q : Nat), t = tix sh n → q = qq.toNat →
      (s.colGroup t q 2 = none → exec (.routeRecord sh n qq) s = .next s ∧ exec (.laneEnd sh n qq) s = .next s) ∧
      (∀ (g : Nat) (b : List PByte), s.colGroup t q 2 = some g → b = itemBytes (s.colItems t q) →
        b.length < s.entryBytes g → b ≠ [] →
        (b.length < (s.colItems t q).length ∨ s.endWaits t = true → exec (.routeRecord sh n qq) s = .next
          (((s.setItems t q ((s.colItems t q).drop b.length)).setFlag .COL_GRP_STATUS_PUSH_ERR g true).colRaise 0x71 g 0 0)) ∧
        (b.length = (s.colItems t q).length → s.endWaits t = false → exec (.routeRecord sh n qq) s = .next s)) ∧
      (∀ (g lane w d e : Nat) (b : List PByte) (s1 : State), s.colGroup t q 2 = some g →
        b = itemBytes (s.colItems t q) → s.entryBytes g ≤ b.length → lane = descLane (s.desc t q) →
        s1 = s.setItems t q ((s.colItems t q).drop (s.entryBytes g)) → w = leNat ((vals (b.take 32)).take 8) →
        d = bitsOf w 55 50 → e = s1.entryOf g lane d w →
        (s1.recordBad g (vals (b.take 32)) = true ∨ Tbl.get (t * 32 + q + 1) (s1.group g).laneQ lane ≠ t * 32 + q + 1 →
          exec (.routeRecord sh n qq) s = .next ((s1.setFlag .COL_GRP_STATUS_PUSH_ERR g true).colRaise 0x71 g d e)) ∧
        (s1.recordBad g (vals (b.take 32)) = false → Tbl.get (t * 32 + q + 1) (s1.group g).laneQ lane = t * 32 + q + 1 →
          ∀ x : Group, x = { s1.group g with laneQ := Tbl.put (s1.group g).laneQ lane (t * 32 + q + 1) } →
          (s1.rowOver g lane d w = true → exec (.routeRecord sh n qq) s = .next ((s1.setGroup g x).rowDrop g lane d e)) ∧
          (s1.rowOver g lane d w = false → exec (.routeRecord sh n qq) s = .next ((s1.setGroup g { x with
            laneCnt := Tbl.put x.laneCnt (lane * 64 + d) (x.placed lane d + 1) }).placeRow g d e
              (s1.entryHeader g lane w ++ (b.take (s.entryBytes g)).drop 32))))) ∧
      (∀ (g : Nat) (vid : BitVec 16) (v : Word) (rest : List EItem), s.colGroup t q 2 = some g →
        s.colItems t q = .signal vid v :: rest → ∀ (lane : Nat) (s1 : State), lane = descLane (s.desc t q) →
        s1 = (List.range (s.ranks g)).foldl (fun s d => s.laneTell g lane vid.toNat v.toNat d) (s.setItems t q rest) →
        exec (.laneEnd sh n qq) s = .next (s1.setGroup g ((s1.group g).laneClear lane)))) ∧
    (∀ (g d e : Nat) (entry : List PByte),
      (d ∈ s.hosted g → s.placeRow g d e entry = s.memWrite (s.colAcc g) (s.fld .COL_GRP_RES_RES_ADDR g + e * s.entryBytes g)
        entry) ∧
      (d ∉ s.hosted g → s.placeRow g d e entry = (rowPkts (s.groupCtx g) e (entry.length / 4096 + 1) 0 entry).foldl
        (fun s p => s.queuePkt ((s.fld .COL_GRP_CFG1_FLOW_P g + d) % 16384) p) s)) ∧
    (∀ (g lane d e : Nat) (s1 : State), s1 = (s.satAdd .COL_CNT_DROPS 0 1).setGroup g { s.group g with
        laneDrop := Tbl.put (s.group g).laneDrop (lane * 64 + d) ((s.group g).dropped lane d + 1)
        laneSaid := Tbl.put (s.group g).laneSaid lane true } →
      (Tbl.get false (s.group g).laneSaid lane = false →
        s.rowDrop g lane d e = (s1.setFlag .COL_GRP_STATUS_DROP g true).colRaise 0x75 g d e) ∧
      (Tbl.get false (s.group g).laneSaid lane = true → s.rowDrop g lane d e = s1)) ∧
    (∀ (g lane vid v d off : Nat) (b : List Byte), off = 8 * (64 * (s.hosted g).headD 0 + lane) →
      b = leBytes 4 ((s.group g).placed lane d) ++ leBytes 4 ((s.group g).dropped lane d) →
      (d ∈ s.hosted g → s.laneTell g lane vid v d = (s.memWrite (s.colAcc g) (s.fld .COL_GRP_TALLY_TALLY_ADDR g + off)
        (clean b)).sendSignal (12 + s.groupTile g) (s.groupCtx g) vid v) ∧
      (∀ f : Nat, d ∉ s.hosted g → f = (s.fld .COL_GRP_CFG1_FLOW_P g + d) % 16384 →
        s.laneTell g lane vid v d = (s.queuePkt f (writePkt f (Config.peerTally g d + off) b false (s.groupCtx g))).queuePkt f
          { writePkt f v [] false (s.groupCtx g) with
            type := 4
            vc := 0
            len := BitVec.ofNat 16 vid })) ∧
    (∀ (x : Group) (lane d : Nat), d < 64 → (x.laneClear lane).placed lane d = 0 ∧ (x.laneClear lane).dropped lane d = 0) ∧
    (∀ (g lane d w : Nat), bitAt w 63 = true → s.entryOf g lane d w = w % 2 ^ 32) ∧
    (∀ (g lane d w : Nat), bitAt w 63 = false → s.entryOf g lane d w =
      (64 * (s.hosted g).headD 0 + lane) * s.fld .COL_GRP_DISP_CAP g + (s.group g).placed lane d)

/-! ### Determinism, the core clock, and samples -/

/-- Modes and the core clock (R91, R426 to R428, R430, R445 to R447, R497, R502): the modes change only while nothing runs, and
are otherwise refused with class 0x80; STRICT, when it begins, takes the clock to its plan; EVT_CLR clears the event counts and
the held bits take the modes; a clock that was asked for comes at a dispatch boundary with every dispatch held for 500 ns and the
margin offsets at 0; a stretch that is due is in force, under STRICT it is counted, and when the next release takes its place it
is recorded with its duration, class 0x82; the partials of a Sheaf fold by FP32 additions in ascending physical number, under
PORTABLE in ascending logical number. -/
def Obligations.ModesAndClockChange : Prop :=
  ∀ s : State,
    (∀ (o : Origin) (st po : Bool) (v : Nat), s.answers o .MGT_DET_CTRL →
      v = (if st then 1 else 0) + (if po then 2 else 0) →
      (s.modeFree = true → ∃ u : State, exec (.modeWrite o st po) s = .next (s.auditOf u true (Origin.audit o) .MGT_DET_CTRL
          0 v) ∧
        u.flag .MGT_DET_CTRL_STRICT 0 = st ∧ u.flag .MGT_DET_CTRL_PORTABLE 0 = po ∧
        (st = false → u.flag .MGT_DET_STATUS_STRICT_HELD 0 = false) ∧
        (st = true → u.fld .MGT_DET_STATUS_STRICT_HELD 0 = s.fld .MGT_DET_STATUS_STRICT_HELD 0) ∧
        (po = false → u.flag .MGT_DET_STATUS_PORTABLE_HELD 0 = false) ∧
        s.sameRegs u [(.MGT_DET_CTRL_STRICT, 0), (.MGT_DET_CTRL_PORTABLE, 0), (.MGT_DET_STATUS_STRICT_HELD, 0),
          (.MGT_DET_STATUS_PORTABLE_HELD, 0)] ∧
        (st = false ∨ s.strict = true ∨ s.fld .PWR_STATUS_START_STEP 0 < 8 → u = { s with regs := u.regs }) ∧
        (∀ f : Nat, st = true → s.strict = false → 8 ≤ s.fld .PWR_STATUS_START_STEP 0 →
          f = max 600 (s.fld .PWR_CLK_PLAN_FREQ_REQ_MHZ 0 - 25 * s.fld .PWR_STRETCH_LAST 0) →
          u = { s with
            regs := u.regs
            power := { s.power with
              thermLow := false
              freqNext := if s.fld .PWR_CLK_PLAN_FREQ_NOW_MHZ 0 = f then none else some f } })) ∧
      (s.modeFree = false → exec (.modeWrite o st po) s = .next (s.auditOf
        ((s.setFlag .MGT_DET_STATUS_REFUSED 0 true).raiseNo 0x80 ⟨8, 0⟩ v) false (Origin.audit o) .MGT_DET_CTRL 0 v)) ∧
      (s.fld .MGT_DET_CTRL_STRICT 0 ≤ 1 → s.fld .MGT_DET_CTRL_PORTABLE 0 ≤ 1 → ∃ u : State,
        exec (.evtClr o) s = .next (s.auditOf u true (Origin.audit o) .MGT_DET_CTRL 0
          (4 + s.fld .MGT_DET_CTRL_STRICT 0 + 2 * s.fld .MGT_DET_CTRL_PORTABLE 0)) ∧
        (∀ f ∈ [Fld.MGT_DET_EVT_STRETCHES, .MGT_DET_EVT_HOLDS, .MGT_DET_EVT_DUMAP_CHANGES, .MGT_DET_EVT_PORT_CHANGES],
          u.fld f 0 = 0) ∧
        u.fld .MGT_DET_STATUS_STRICT_HELD 0 = s.fld .MGT_DET_CTRL_STRICT 0 ∧
        u.fld .MGT_DET_STATUS_PORTABLE_HELD 0 = s.fld .MGT_DET_CTRL_PORTABLE 0 ∧
        u.fld .MGT_DET_CTRL_STRICT 0 = s.fld .MGT_DET_CTRL_STRICT 0 ∧ u = { s with regs := u.regs })) ∧
    (∀ t : Nat, 4 ≤ s.tstate t → s.tstate t ≤ 6 → t < 768 → s.modeFree = false) ∧
    (s.power.freqNext = none → exec .clockChange s = .next s) ∧
    (∀ f, s.power.freqNext = some f → (s.ready = true → exec .clockChange s = .next (s.changeClock f)) ∧
      (s.ready = false → exec .clockChange s = .next s)) ∧
    (∀ (f : Nat) (u : State), u = s.changeClock f → f < 2 ^ Fld.width .PWR_CLK_PLAN_FREQ_NOW_MHZ →
      u.fld .PWR_CLK_PLAN_FREQ_NOW_MHZ 0 = f ∧ u.power.freqNext = none ∧ u.mem = s.mem ∧ u.tillers = s.tillers ∧
      s.sameRegs u [(.PWR_CLK_PLAN_FREQ_NOW_MHZ, 0)] ∧
      (s.fld .PWR_CLK_PLAN_FREQ_NOW_MHZ 0 ≠ f → u.power.clockHold = s.now + 500 ∧ u.power.vOffset = [] ∧
        (∀ k < 12, Output.rail k (vid24 f) ∈ u.out))) ∧
    (s.power.stretchAt = [] → exec .stretchApply s = .next s) ∧
    (∀ t k round rest, s.power.stretchAt = (t, k, round) :: rest →
      (s.linksRun = true → t ≤ s.now → ∀ s1 : State, s1 = ((({ s with power := { s.power with
          stretchAt := rest } } : State).setFld .PWR_STRETCH_LAST 0 k).changeClock
          (max 600 (s.fld .PWR_CLK_PLAN_FREQ_REQ_MHZ 0 - 25 * k))).endStretch →
        (k = 0 ∨ s.strict = false → exec .stretchApply s = .next s1) ∧
        (k ≠ 0 → s.strict = true → exec .stretchApply s = .next ((({ s1 with power := { s1.power with
          stretchOn := some (s1.now, round) } } : State).satAdd .MGT_DET_EVT_STRETCHES 0 1).setFlag
            .MGT_DET_STATUS_STRETCH_SEEN 0 true))) ∧
      (s.now < t → exec .stretchApply s = .next s)) ∧
    (s.power.stretchOn = none → s.endStretch = s) ∧
    (∀ t round, s.power.stretchOn = some (t, round) →
      s.endStretch = ({ s with power := { s.power with stretchOn := none } } : State).raiseNo 0x82 ⟨8, 0⟩
        ((s.now - t) % 2 ^ 56 * 2 ^ 8 + round % 2 ^ 32 * 2 ^ 64)) ∧
    (∀ sh n : Nat, n ∈ s.foldOrder sh ↔ n < 64 ∧ Tbl.get false s.absent (sh * 64 + n) = false ∧
      (s.flag .MGT_DET_CTRL_PORTABLE 0 = true ∨ s.physOf sh n < 68)) ∧
    (∀ sh : Nat, (s.flag .MGT_DET_CTRL_PORTABLE 0 = true → (s.foldOrder sh).Pairwise (· < ·)) ∧
      (s.flag .MGT_DET_CTRL_PORTABLE 0 = false → (s.foldOrder sh).Pairwise (fun a b => s.physOf sh a ≤ s.physOf sh b))) ∧
    (∀ (sh : Nat) (parts : Nat → Option Nat), s.sheafFold sh parts = foldPartials parts (s.foldOrder sh)) ∧
    (∀ (parts : Nat → Option Nat) (l : List Nat) (n : Nat), foldPartials parts [] = none ∧
      (parts n = none → foldPartials parts (l ++ [n]) = foldPartials parts l) ∧
      (∀ x, parts n = some x → (foldPartials parts l = none → foldPartials parts (l ++ [n]) = some x) ∧
        (∀ a, foldPartials parts l = some a → foldPartials parts (l ++ [n]) = some (addFp32 a x))))

/-- Samples and a Tiller's counters (R521, R524, R525, R543): a selected source writes its record when MTIME is a multiple of
the period, with the time, KIND 1 and its source; any other time it writes nothing; the totals count from the moment EN was last
set; CLR sets all counters of a Tiller to 0 and no other Tiller's. -/
def Obligations.SamplesAreWritten : Prop :=
  ∀ s : State,
    (∀ src : Fin 13, 1 ≤ s.fld .PWR_STATUS_STATE 0 → s.fld .PWR_STATUS_STATE 0 ≤ 3 → s.flag .OBS_SAMPLE_EN 0 = true →
      bitAt (s.fld .OBS_SAMPLE_SOURCES 0) src = true →
      (s.now % max 1000 (min 1000000000 (s.fld .OBS_SAMPLE_PERIOD_NS 0)) = 0 →
        (src.val = 12 → exec (.telemetrySample src) s = .next (s.telPut 12 s.moduleSample)) ∧
        (src.val ≠ 12 → exec (.telemetrySample src) s = .next (s.telPut src (s.sheafSample src)))) ∧
      (s.now % max 1000 (min 1000000000 (s.fld .OBS_SAMPLE_PERIOD_NS 0)) ≠ 0 →
        exec (.telemetrySample src) s = .next s)) ∧
    (s.flag .OBS_SAMPLE_EN 0 = false → ∀ src, exec (.telemetrySample src) s = .next s) ∧
    (s.moduleSample % 2 ^ 64 = s.now % 2 ^ 64 ∧ s.moduleSample / 2 ^ 64 % 2 ^ 16 = 1 + 12 * 2 ^ 8 ∧
      ∀ sh : Fin 12, s.sheafSample sh % 2 ^ 64 = s.now % 2 ^ 64 ∧ s.sheafSample sh / 2 ^ 64 % 2 ^ 16 = 1 + sh.val * 2 ^ 8) ∧
    (∀ k, s.since k = Tbl.get 0 s.obs.cnt k - Tbl.get 0 s.obs.base k ∧ s.sampleBase.since k = 0) ∧
    (∀ (sh : Fin 12) (n : Fin 64) (t : Nat), t = tix sh n → s.answers .pf .TIL_OBS_CTRL → ∃ u : State,
      exec (.obsClr sh n) s = .next u ∧ u.fld .TIL_OBS_MAC_MACS t = 0 ∧ u.fld .TIL_OBS_INST_INSTR t = 0 ∧
      u.fld .TIL_OBS_BANK_CYCLES t = 0 ∧ (∀ k < 16, Tbl.get 0 u.obs.cnt (cycKey (16 * t + k)) = 0) ∧
      (∀ t' k, t' ≠ t → k < 16 → Tbl.get 0 u.obs.cnt (cycKey (16 * t' + k)) = Tbl.get 0 s.obs.cnt (cycKey (16 * t' + k))) ∧
      u = { s with regs := u.regs, obs := u.obs } ∧
      s.sameRegs u [(.TIL_OBS_MAC_MACS, t), (.TIL_OBS_INST_INSTR, t), (.TIL_OBS_BANK_CYCLES, t)])

/-! ### Spares, fences, mirrors and takeover -/

/-- Spares and fences (R28, R29, R320, R431, R451 to R454): a failed lane, or one whose spare has failed, takes the next spare, and
a connection without one fences the Sheaf of a vertical bundle, removes a crossing's UCIe module, or takes a port's from it; MAP
marks the Sheaf busy unless one of its Tillers runs, and completes with the lowest free spare under the
logical number, class 0x94, or without one with the number absent, class 0x95; FUSE under presence keeps the mappings;
RENUMBER is refused while a Tiller is not idle; a fenced Sheaf is class 0x96 and stays fenced. -/
def Obligations.SparesAndFences : Prop :=
  ∀ (s : State) (o : Origin) (sh : Fin 12),
    (∀ (d : D2d) (lane : Fin 64), s.linksRun = true →
      ((s.laneMap d).length < laneSpares d → exec (.d2dLaneRepair d lane) s = .next { s with power := { s.power with
        spareLanes := Tbl.put s.power.spareLanes (laneKey d) (Tbl.get [] s.power.spareLanes (laneKey d) ++ [lane.val]) } }) ∧
      (laneSpares d ≤ (s.laneMap d).length →
        (∀ a b, d = .vertical a b → exec (.d2dLaneRepair d lane) s = .next (s.fenceSheaf a)) ∧
        (∀ m, d = .crossing m → exec (.d2dLaneRepair d lane) s = .next { s with power := { s.power with
          crossLost := s.power.crossLost ||| (1#32 <<< m.val) } }) ∧
        (∀ p m, d = .engine p m → exec (.d2dLaneRepair d lane) s = .next (s.doModuleLost p m)))) ∧
    (s.linksRun = false → ∀ (d : D2d) (lane : Fin 64), exec (.d2dLaneRepair d lane) s = .next s) ∧
    (∀ a b, laneSpares (.vertical a b) = 4) ∧
    (s.answers o .SHF_SPARE →
      (∀ n : Fin 64,
        (s.sheafStates sh 2 6 = false → s.flag .SHF_SPARE_BUSY sh = false → ∃ u : State,
          exec (.map o sh n) s = .next (s.auditOf u true (Origin.audit o) .SHF_SPARE sh (2 ^ 63 + n * 2 ^ 53)) ∧
          u.flag .SHF_SPARE_BUSY sh = true ∧ u.fld .SHF_SPARE_N sh = n ∧ Tbl.get 0 u.power.mapping sh = n ∧
          u = { s with regs := u.regs, power := { s.power with mapping := u.power.mapping } }) ∧
        (s.sheafStates sh 2 6 = true ∨ s.flag .SHF_SPARE_BUSY sh = true →
          exec (.map o sh n) s = .next (s.auditOf (s.setFld .SHF_SPARE_N sh n) true (Origin.audit o) .SHF_SPARE sh
            (2 ^ 63 + n * 2 ^ 53)))) ∧
      (s.flag .MGT_PRESENCE_OPEN 0 = true → ∃ u : State, exec (.fuse o sh) s = .next (s.auditOf u true (Origin.presence o)
          .SHF_SPARE sh (2 ^ 62)) ∧
        (∀ n : Fin 64, ∀ p, (sh.val * 64 + n.val, p) ∈ s.phys → (∀ q ∈ s.phys, q.1 = sh.val * 64 + n.val → q.2 = p) →
          Tbl.get 99 u.power.fusedPhys (sh * 64 + n) = p) ∧
        u = { s with power := { s.power with fusedPhys := u.power.fusedPhys, fusedUsed := u.power.fusedUsed } }) ∧
      (s.flag .MGT_PRESENCE_OPEN 0 = false → exec (.fuse o sh) s = .next (s.auditOf s false (Origin.audit o) .SHF_SPARE sh
        (2 ^ 62))) ∧
      ∀ s1 : State, s1 = s.setFld .SHF_SPARE_N sh (s.fld .SHF_SPARE_N sh) →
      (s1.sheafStates sh 2 7 = true → exec (.renumber o sh) s = .next (s.auditOf s1 true (Origin.audit o) .SHF_SPARE sh
        (2 ^ 61 + s.fld .SHF_SPARE_N sh * 2 ^ 53))) ∧
      (s1.sheafStates sh 2 7 = false → ∃ u : State, exec (.renumber o sh) s = .next (s.auditOf u true (Origin.audit o)
          .SHF_SPARE sh (2 ^ 61 + s.fld .SHF_SPARE_N sh * 2 ^ 53)) ∧
        (∀ n < (s.byPhysical sh).length, u.physOf sh n = s.physOf sh ((s.byPhysical sh).getD n 0) ∧
          Tbl.get false u.absent (sh * 64 + n) = false) ∧
        (∀ n, (s.byPhysical sh).length ≤ n → n < 64 → Tbl.get false u.absent (sh * 64 + n) = true) ∧
        (∀ t, t / 64 ≠ sh.val → Tbl.get false u.absent t = Tbl.get false s.absent t) ∧ u.rings = s.rings ∧
        u.glumes = s.glumes) ∧
      exec (.fenceSheaf o sh) s = .next (s.auditOf (s1.fenceSheaf sh) true (Origin.audit o) .SHF_SPARE sh
        (2 ^ 60 + s.fld .SHF_SPARE_N sh * 2 ^ 53))) ∧
    (s.flag .SHF_SPARE_BUSY sh = false → exec (.spareMapComplete sh) s = .next s) ∧
    (s.flag .SHF_SPARE_BUSY sh = true → ∀ (n : Nat) (s1 : State), n = Tbl.get 0 s.power.mapping sh →
      s1 = s.setFlag .SHF_SPARE_BUSY sh false →
      (∀ p, s1.freeSpare sh = some p → exec (.spareMapComplete sh) s = .next (s1.tillerMapped sh n p) ∧
        (s1.tillerMapped sh n p).physOf sh n = p ∧ Tbl.get false (s1.tillerMapped sh n p).used (sh * 68 + p) = true ∧
        Tbl.get false (s1.tillerMapped sh n p).absent (sh * 64 + n) = false ∧
        ∃ v : State, s1.tillerMapped sh n p = (v.raiseNo 0x94 ⟨8, 0⟩ (sh.val + n * 2 ^ 8 + p * 2 ^ 16)).dumapChanged sh p) ∧
      (s1.freeSpare sh = none → exec (.spareMapComplete sh) s = .next ((s1.tillerAbsent sh n).satAdd
          .MGT_DET_EVT_DUMAP_CHANGES 0 1) ∧
        Tbl.get false (s1.tillerAbsent sh n).absent (sh * 64 + n) = true ∧
        ∃ v : State, s1.tillerAbsent sh n = v.raiseNo 0x95 ⟨8, 0⟩ (sh.val + n * 2 ^ 8))) ∧
    (∀ p, s.freeSpare sh = some p → 64 ≤ p ∧ p ≤ 67 ∧ Tbl.get false s.used (sh * 68 + p) = false ∧
      ∀ q, 64 ≤ q → q < p → Tbl.get false s.used (sh * 68 + q) = true) ∧
    (s.flag .MGT_DET_DUMAP_HI_FENCED sh = true → s.fenceSheaf sh = s) ∧
    (s.flag .MGT_DET_DUMAP_HI_FENCED sh = false → ∃ l : List Nat, (∀ p ∈ l, p / 4096 = sh) ∧
      s.fenceSheaf sh = l.foldl (fun s p => s.failWaits p 0x21) ((((s.setFlag .SHF_SPARE_FENCE sh true).setFlag
        .MGT_DET_DUMAP_HI_FENCED sh true).raiseNo 0x96 ⟨8, 0⟩ sh).dumapChanged sh 0xFF)) ∧
    (s.fenceSheaf sh).flag .MGT_DET_DUMAP_HI_FENCED sh = true

/-- The mirror, takeover and margins (R259, R455 to R468, R472, R473): enabling the mirror marks every block dirty; a sync starts
when SYNC_VID has risen and ends when its flow has delivered everything; the buddy writes a whole block, or discards one on a
holed page with class 0x93; a neighbour lost on both paths is class 0x90; TRIM closes a flow behind its last signal, SKIP
withholds, a replay sends the flow's records again and stops with class 0x92 at one that is missing; margins are measured once
every PERIOD_S seconds (the first at once is the model's choice, notes/assumptions/169.md), and those below their bounds set WARN, class 0x98, and LIMIT, class 0x99. -/
def Obligations.MirrorsAndTakeover : Prop :=
  ∀ (s : State) (o : Origin),
    (∀ v : Word, s.answers o .HBM_MIR_CTRL →
      (s.flag .HBM_MIR_CTRL_ENABLE 0 = true → exec (.mirrorEnable o v) s = .next (s.auditChange
        (s.setFld .HBM_MIR_CTRL_ENABLE 0 (bitsOf v.toNat 63 63)) o .HBM_MIR_CTRL 0 v.toNat)) ∧
      (s.flag .HBM_MIR_CTRL_ENABLE 0 = false → ∀ s1 : State, s1 = s.writeReg .HBM_MIR_CTRL 0 (2 ^ 64 - 1) v.toNat →
        (s1.flag .HBM_MIR_CTRL_ENABLE 0 = false → exec (.mirrorEnable o v) s = .next (s.auditChange s1 o .HBM_MIR_CTRL 0
          v.toNat)) ∧
        (s1.flag .HBM_MIR_CTRL_ENABLE 0 = true → ∃ u : State, exec (.mirrorEnable o v) s = .next (s.auditChange u o
          .HBM_MIR_CTRL 0 v.toNat) ∧ u.mirror.allDirty = true ∧ u.mirror.sync = none ∧
          u.mirror.lastSync = s1.syncValue.2))) ∧
    (s.ready = true → s.flag .HBM_MIR_CTRL_ENABLE 0 = true → s.mirror.sync = none →
      (s.mirror.lastSync < s.syncValue.2 → exec .mirrorSync s = .next (s.dirtyBlocks.foldl (fun s b => s.sendBlock b)
        { s.syncValue.1 with mirror := { s.syncValue.1.mirror with
          dirty := []
          allDirty := false
          lastSync := s.mirror.lastSync + 1
          sync := some (s.fld .HBM_MIR_STATUS_GEN 0 + 1) } })) ∧
      (s.syncValue.2 ≤ s.mirror.lastSync → exec .mirrorSync s = .next s.syncValue.1)) ∧
    (s.flag .HBM_MIR_CTRL_ENABLE 0 = false → exec .mirrorSync s = .next s) ∧
    (s.linksRun = true → s.mirror.sync ≠ none → ∀ x : SendFlow, x = s.sendFlow (s.fld .HBM_MIR_CTRL_FLOW 0) →
      (x.queue = [] → x.retain = [] → exec .mirrorSyncComplete s = .next
        ((({ s with mirror := { s.mirror with sync := none } } : State).wrapAdd .HBM_MIR_STATUS_GEN 0 1).sendSignal 14
          (s.fld .HBM_MIR_CTRL_CTX 0) (s.fld .HBM_MIR_CTRL_DONE_VID 0) 1)) ∧
      (x.queue ≠ [] ∨ x.retain ≠ [] → exec .mirrorSyncComplete s = .next s)) ∧
    (∀ (blk : Nat) (cells : List (Nat × PByte)) (base : Nat), cells = (Tbl.get (0, []) s.mirror.rx blk).2 →
      base = s.fld .HBM_MIR_REGION_BASE_PG 0 * 2 ^ 21 + blk * 65536 → s.linksRun = true →
      s.flag .HBM_MIR_REGION_ENABLE 0 = true →
      (65536 ≤ cells.length → s.accClass (roleAcc .mirror 0 5) base ≠ 0x40 → ∀ s1 : State,
        s1 = ((s.memWriteCells (roleAcc .mirror 0 5) (cells.map (fun p => (base + p.1, p.2)))).wrote base 65536).useFree →
        ∃ tag : List Byte, tag.length = 4 ∧ ∃ s2 : State,
          s2 = s1.memWrite (roleAcc .mirror 0 5) (s.tagBase + 4 * blk) (clean tag) ∧
          exec (.mirrorBlockCommit blk) s = .next { s2 with mirror := { s2.mirror with rx := Tbl.del blk s2.mirror.rx } }) ∧
      (65536 ≤ cells.length → s.accClass (roleAcc .mirror 0 5) base = 0x40 → exec (.mirrorBlockCommit blk) s = .next
        ((({ s with mirror := { s.mirror with rx := Tbl.del blk s.mirror.rx } } : State).setFlag .HBM_MIR_STATUS_DISCARD 0
          true).raiseNo 0x93 (linkUnit 5) blk)) ∧
      (cells.length < 65536 → exec (.mirrorBlockCommit blk) s = .next s)) ∧
    (s.linksRun = true → s.portState 5 = 5 → s.flag .MGT_PEER_BUSY 0 = false → s.fld .MGT_PEER_NODE 0 = s.minusZ →
      (s.fld .LNK_PEER_BYPASS 5 ≠ 0 → s.fld .MGT_PEER_RESULT 0 ≠ 0 →
        exec .neighbourLost s = .next (s.raiseNo 0x90 (linkUnit 5) s.minusZ)) ∧
      (s.fld .LNK_PEER_BYPASS 5 = 0 ∨ s.fld .MGT_PEER_RESULT 0 = 0 → exec .neighbourLost s = .next s)) ∧
    (∀ (flow : BitVec 14) (f : Nat), f = flow.toNat →
      (s.answers o .FAB_FLOW_TRIM → exec (.flowTrim o flow) s = .next (s.auditOf
        (((((s.setFld .FAB_FLOW_TRIM_FLOW 0 f).setFld .FAB_FLOW_TRIM_SIGS 0 (s.recvFlow f).sigs).trimQueue f).discardMirror
          f).setRecvFlow f RecvFlow.reset) true (Origin.audit o) .FAB_FLOW_TRIM 0 (2 ^ 63 + f * 2 ^ 32))) ∧
      (∀ skip : BitVec 32, s.answers o .FAB_FLOW_SKIP → ∃ u : State, exec (.flowSkip o flow skip) s = .next (s.auditOf u
          true (Origin.audit o) .FAB_FLOW_SKIP 0 (2 ^ 63 + f * 2 ^ 32 + skip.toNat)) ∧
        ((s.sendFlow f).opened = true → u.sendFlow f = { s.sendFlow f with skip := skip.toNat }) ∧
        ((s.sendFlow f).opened = false → u.sendFlow f = s.sendFlow f) ∧ (∀ j, j ≠ f → u.sendFlow j = s.sendFlow j) ∧
        u.fld .FAB_FLOW_SKIP_SKIP 0 = skip.toNat ∧ u = { s with regs := u.regs, sendFlows := u.sendFlows }) ∧
      (s.answers o .HBM_LOG_REPLAY → ∀ s1 : State, s1 = s.setFld .HBM_LOG_REPLAY_FLOW 0 f →
        (s.flag .HBM_LOG_REPLAY_BUSY 0 = true ∨ (s.sendFlow f).opened = false →
          exec (.logReplay o flow) s = .next (s.auditOf s1 true (Origin.audit o) .HBM_LOG_REPLAY 0 (2 ^ 63 + f))) ∧
        (∀ l : List LogRec, s.flag .HBM_LOG_REPLAY_BUSY 0 = false → (s.sendFlow f).opened = true →
          l = s.logRecs.filter (fun r => r.pkt.sflow.toNat == f) →
          ((∀ r ∈ l, s.recReadable r = true) → s.logOvf = false →
            exec (.logReplay o flow) s = .next (s.auditOf ((s1.setSendFlow f { s.sendFlow f with
              replayQ := (s.sendFlow f).replayQ ++ l.map (·.pkt) }).setFlag .HBM_LOG_REPLAY_BUSY 0 true) true
                (Origin.audit o) .HBM_LOG_REPLAY 0 (2 ^ 63 + f))) ∧
          (∀ (a b : List LogRec) (r : LogRec), l = a ++ r :: b → (∀ x ∈ a, s.recReadable x = true) → s.recReadable r = false →
            exec (.logReplay o flow) s = .next (s.auditOf (((s1.setSendFlow f { s.sendFlow f with
              replayQ := (s.sendFlow f).replayQ ++ a.map (·.pkt) }).setFlag .HBM_LOG_REPLAY_FAIL 0 true).raiseCtx 0x92
                (s.fld .HBM_LOG_CTRL_CTX 0) (linkUnit 0) (f + r.mb * 2 ^ 32)) true (Origin.audit o) .HBM_LOG_REPLAY 0
                  (2 ^ 63 + f)))))) ∧
    (s.flag .HBM_LOG_REPLAY_BUSY 0 = true →
      ((s.sendFlow (s.fld .HBM_LOG_REPLAY_FLOW 0)).replayQ = [] →
        exec .logReplayComplete s = .next (s.setFlag .HBM_LOG_REPLAY_BUSY 0 false)) ∧
      ((s.sendFlow (s.fld .HBM_LOG_REPLAY_FLOW 0)).replayQ ≠ [] → exec .logReplayComplete s = .next s)) ∧
    (∀ (l : List MarginReading) (s1 : State), s.linksRun = true → s.flag .HLT_MARGIN_CFG_EN 0 = true →
      s1 = { s with power := { s.power with marginAt := some s.now } } →
      (s.power.marginAt = none → exec (.marginMeasure l) s = .next (l.foldl (fun s r => s.marginOne r) (s1.marginWorst l))) ∧
      (∀ t, s.power.marginAt = some t →
        (t + s.fld .HLT_MARGIN_CFG_PERIOD_S 0 * 10 ^ 9 ≤ s.now →
          exec (.marginMeasure l) s = .next (l.foldl (fun s r => s.marginOne r) (s1.marginWorst l))) ∧
        (s.now < t + s.fld .HLT_MARGIN_CFG_PERIOD_S 0 * 10 ^ 9 → exec (.marginMeasure l) s = .next s))) ∧
    (s.flag .HLT_MARGIN_CFG_EN 0 = false → ∀ l, exec (.marginMeasure l) s = .next s) ∧
    (∀ (warn limit : Fld) (i v w l detail : Nat) (s1 : State), l ≤ w →
      s1 = (s.setFlag warn i true).raiseNo 0x98 ⟨8, 0⟩ detail →
      (w ≤ v → s.marginCheck warn limit i v w l detail = s) ∧
      (l ≤ v → v < w → s.marginCheck warn limit i v w l detail = s1) ∧
      (v < l → s.marginCheck warn limit i v w l detail = (s1.setFlag limit i true).raiseNo 0x99 ⟨8, 0⟩ detail)) ∧
    (∀ (sh : Fin 12) (n : Fin 64) (ps : Nat), s.marginOne (.timing sh n ps) =
      s.marginCheck .HLT_MARGIN_SHF_WARN .HLT_MARGIN_SHF_LIMIT sh ps 30 12 (marginDetail 0 (sh.val * 64 + n.val) ps)) ∧
    (∀ (sh : Fin 12) (mv : Nat), s.marginOne (.voltage sh mv) = (s.setFld .HLT_MARGIN_SHF_V_MV sh (min mv 255)).marginCheck
      .HLT_MARGIN_SHF_WARN .HLT_MARGIN_SHF_LIMIT sh mv 40 15 (marginDetail 1 sh.val mv)) ∧
    (∀ (p : Fin 8) (c : Fin 45) (db : Nat) (s1 : State), s1 = s.marginCheck .HLT_MARGIN_PORT_WARN .HLT_MARGIN_PORT_LIMIT p db
        20 5 (marginDetail 2 (p.val * 64 + c.val) db) →
      s.marginOne (.optical p c db) = (if db < 5 then s1.doSymbolFail p c else s1))

/-! ### Supplies, resets and start-up -/

/-- Supplies and main power (R482, R483, R487, R503, R554, R568): main power is released when both supplies are good, the
module is seated and a trip has cooled; a fall of the input, OFF or an unseated module is an orderly shutdown, class
0x03, that sends LEAVING on every port with a stream and ends with the main domain reset; an overvoltage is class 0x01 and main off at once; aux lost with 48 V present is taken over, class
0x01; the end of the hold-up, with both supplies lost, leaves what is fused or in flash. -/
def Obligations.SuppliesRuleMain : Prop :=
  ∀ s : State,
    (∀ s1 : State, s1 = { s with power := { s.power with vinGood := true, seated := true } } →
      (s1.mayRelease = true → s.flag .PWR_CFG_AUTO_ON 0 = true → exec .mainRelease s = .next s1.releaseMain) ∧
      (s1.mayRelease = false ∨ s.flag .PWR_CFG_AUTO_ON 0 = false → exec .mainRelease s = .next s1)) ∧
    (s.mayRelease = true → s.power.auxGood = true ∧ s.power.vinGood = true ∧ s.power.seated = true ∧
      s.fld .PWR_STATUS_STATE 0 = 0 ∧ (s.power.thermtrip = true → ∀ p ∈ s.power.temps, sensorLevel p.1 p.2 = 0)) ∧
    (s.releaseMain.fld .PWR_STATUS_STATE 0 = 1 ∧ s.releaseMain.power.thermtrip = false ∧
      s.releaseMain.power.boots = s.power.boots + 1 ∧ s.releaseMain.flag .SEC_STATUS_ALLOW_LOADED 0 = true ∧
      s.releaseMain.flag .MGT_DEBUG_UNLOCKED 0 = false ∧ (s.flag .MGT_DEBUG_UNLOCKED 0 = false → s.releaseMain.mem = s.mem)) ∧
    (∀ o : Origin, s.answers o .PWR_CTRL →
      (s.mayRelease = true → exec (.mainOn o) s = .next (s.auditOf s.releaseMain true (Origin.audit o) .PWR_CTRL 0 4)) ∧
      (s.mayRelease = false → exec (.mainOn o) s = .next (s.auditOf s true (Origin.audit o) .PWR_CTRL 0 4)) ∧
      exec (.off o) s = .next (s.auditOf (s.shutdown 1) true (Origin.audit o) .PWR_CTRL 0 2)) ∧
    (∀ cause : Nat, (s.fld .PWR_STATUS_STATE 0 = 0 → s.shutdown cause = s) ∧
      (s.fld .PWR_STATUS_STATE 0 ≠ 0 → ∃ s1 : State, s.shutdown cause = (s1.raiseNo 0x03 ⟨8, 0⟩ cause).mainOff ∧
        s1.fld .PWR_STATUS_STATE 0 = 7 ∧ s1.power.switches = 0 ∧ s1.mem = s.mem ∧ s1.audit = s.audit ∧
        ∀ p < 8, 4 ≤ s.portState p → s.portState p ≤ 5 →
          ∃ b : List Byte, Output.lcf p true b ∈ s1.out ∧ lcfField b 1 1 1 = 1)) ∧
    (s.mainOff.fld .PWR_STATUS_STATE 0 = 0 ∧ s.mainOff.flag .PWR_STATUS_READY 0 = false ∧ s.mainOff.tillers = [] ∧
      s.mainOff.rings = [] ∧ s.mainOff.ports = State.reset.ports ∧ s.mainOff.power.hostUp = false ∧
      (∀ a < 0x400000000000, s.mainOff.peek a = 0) ∧ (∀ a, 0x400000000000 ≤ a → s.mainOff.peek a = s.peek a) ∧
      (∀ f i, f.ctorIdx < 1024 → keptCodes.contains f.ctorIdx = true → s.mainOff.fld f i = s.fld f i) ∧
      s.mainOff.retired = s.retired ∧ s.mainOff.audit = s.audit ∧ s.mainOff.flash = s.flash) ∧
    (∃ u : State, u = s.shutdown 0 ∧ exec .orderlyShutdown s = .next { u with power := { u.power with vinGood := false } }) ∧
    (∃ u : State, u = s.shutdown 1 ∧ exec .seatedRelease s = .next { u with power := { u.power with seated := false } }) ∧
    (s.fld .PWR_STATUS_STATE 0 = 1 → exec .brownoutBeforeReady s = .next s.mainOff) ∧
    (s.fld .PWR_STATUS_STATE 0 ≠ 1 → exec .brownoutBeforeReady s = .next s) ∧
    (∃ u : State, u = (if s.fld .PWR_STATUS_STATE 0 = 0 then s.raiseNo 0x01 ⟨8, 0⟩ 2
        else (s.raiseNo 0x01 ⟨8, 0⟩ 2).mainOff) ∧
      exec .inputOvervoltage s = .next { u with power := { u.power with vinGood := false } }) ∧
    (∀ addr : BitVec 3, (s.power.auxGood = true → exec (.auxRise addr) s = .next s) ∧
      (s.power.auxGood = false → ∃ u : State, exec (.auxRise addr) s = .next u ∧ u.power.auxGood = true ∧
        u.smbAddr = 0x58 + addr.toNat ∧ u = { s with power := u.power })) ∧
    (s.power.auxGood = false → exec .auxLost s = .next s) ∧
    (s.power.auxGood = true → ∀ s1 : State, s1 = { s with power := { s.power with auxGood := false } } →
      (s.power.vinGood = true → exec .auxLost s = .next ((s1.setFlag .PWR_STATUS_AUX_ON_MAIN 0 true).raiseNo 0x01 ⟨8, 0⟩ 0)) ∧
      (s.power.vinGood = false → exec .auxLost s = .next s1)) ∧
    (s.power.auxGood = true → exec .auxReturn s = .next s) ∧
    (s.power.auxGood = false → exec .auxReturn s = .next ((({ s with power := { s.power with
      auxGood := true } } : State).setFlag .PWR_STATUS_AUX_ON_MAIN 0 false).raiseNo 0x01 ⟨8, 0⟩ 1)) ∧
    (s.power.auxGood = true ∨ s.power.vinGood = true → exec .holdupExpire s = .next s) ∧
    (s.power.auxGood = false → s.power.vinGood = false → ∃ u : State, exec .holdupExpire s = .next u ∧ u.audit = [] ∧
      u.flash = s.auditFlush.flash ∧ u.fld .MGT_FW_SLOT 0 = s.auditFlush.fld .MGT_FW_SLOT 0 ∧
      u.fld .LNK_CHFUSE_TX_FUSED 0 = s.auditFlush.fld .LNK_CHFUSE_TX_FUSED 0 ∧ u.fld .PWR_STATUS_STATE 0 = 0 ∧
      u.power.fusedPhys = s.power.fusedPhys ∧ u.power.auxGood = false)

/-- Resets and start-up (R488 to R492): a module reset starts the steps anew from step 2 with the main domain reset, and locks debug with an audit entry;
PERST_N stops the host port and resets every context, and its release, with what the host chooses (the model's choice of
operands: notes/assumptions/146.md), lets the port train once clocks stand; each step
advances START_STEP, a step up to 3 that fails turns main off with class 0x00, and after step 10 the part is READY. -/
def Obligations.ResetsAndStartUp : Prop :=
  ∀ s : State,
    (∀ o : Origin, s.answers o .PWR_CTRL →
      (s.fld .PWR_STATUS_STATE 0 = 0 → exec (.moduleReset o) s = .next (s.auditOf s true (Origin.audit o) .PWR_CTRL 0 1)) ∧
      (s.fld .PWR_STATUS_STATE 0 ≠ 0 → ∃ u : State, exec (.moduleReset o) s = .next (s.auditOf u true (Origin.audit o)
          .PWR_CTRL 0 1) ∧
        u.fld .PWR_STATUS_STATE 0 = 1 ∧ u.fld .PWR_STATUS_START_STEP 0 = 1 ∧ u.flag .PWR_STATUS_READY 0 = false ∧
        u.tillers = [] ∧ u.rings = [] ∧ u.glumes = [] ∧ (∀ a < 0x400000000000, u.peek a = 0) ∧
        u.power.boots = s.power.boots + 1 ∧
        (s.flag .MGT_DEBUG_UNLOCKED 0 = false → u.audit = s.audit ∧ u.retired = s.retired) ∧
        (s.flag .MGT_DEBUG_UNLOCKED 0 = true → u.flag .MGT_DEBUG_UNLOCKED 0 = false ∧
          u.audit = ((s.setFlag .MGT_DEBUG_UNLOCKED 0 false).audit! true ⟨5, 0x8000⟩ 0 0xFFFFFFFF 0 0 0).audit))) ∧
    (∀ s2 : State, s2 = { s.wakeUp 5 with power := { (s.wakeUp 5).power with
        perst := true
        hostUp := false
        bar2 := 6
        hdmBase := 0
        hdmSize := 0 } } →
      exec .perstAssert s = .next ((List.range 4096).foldl (fun s c => s.doCtxReset c 0xFFFFFFFF) s2)) ∧
    (∀ (cxl : Bool) (bar2 : Option (Fin 10)) (base size : BitVec 40) (s1 : State), s1 = { s with power := { s.power with
        perst := false
        cxl := cxl
        bar2 := match bar2 with
          | some k => k.val
          | none => 6
        hdmBase := base.toNat
        hdmSize := size.toNat } } →
      (s.power.refclk = true → 3 ≤ s.fld .PWR_STATUS_START_STEP 0 → exec (.perstDeassert cxl bar2 base size) s = .next
        (({ s1 with power := { s1.power with hostUp := true } } : State).setFlag .CMD_CFG_CXL 0 cxl)) ∧
      (s.power.refclk = false ∨ s.fld .PWR_STATUS_START_STEP 0 < 3 →
        exec (.perstDeassert cxl bar2 base size) s = .next s1)) ∧
    (∀ (found : List StartFault) (guests : List GuestInfo),
      (s.fld .PWR_STATUS_STATE 0 ≠ 1 → exec (.startupStep found guests) s = .next s) ∧
      (s.fld .PWR_STATUS_STATE 0 = 1 → ∀ k : Nat, k = s.fld .PWR_STATUS_START_STEP 0 + 1 →
        (k ≤ 3 → StartFault.stepFails ∈ found → exec (.startupStep found guests) s = .next (s.startOff k) ∧
          (∃ u : State, u = (s.raiseNo 0x00 ⟨8, 0⟩ k).mainOff ∧ s.startOff k = { u with power := { u.power with
            startFails := u.power.startFails + 1 } }) ∧
          (s.startOff k).fld .PWR_STATUS_STATE 0 = 0 ∧ (s.startOff k).power.startFails = s.power.startFails + 1) ∧
        (k = 1 → StartFault.stepFails ∉ found →
          exec (.startupStep found guests) s = .next (s.setFld .PWR_STATUS_START_STEP 0 1)) ∧
        (k = 2 → StartFault.stepFails ∉ found → exec (.startupStep found guests) s = .next
          (((s.setFlag .PWR_STATUS_MAIN_GOOD 0 true).railsUp).setFld .PWR_STATUS_START_STEP 0 2)) ∧
        (k = 3 → StartFault.stepFails ∉ found → StartFault.refclkAbsent ∉ found → ∃ u : State,
          exec (.startupStep found guests) s = .next u ∧ u.fld .PWR_STATUS_START_STEP 0 = 3 ∧
          u.fld .PWR_CLK_PLAN_FREQ_NOW_MHZ 0 = 600 ∧ u.power.refclk = true ∧ u.power.rackref = true ∧ u.mem = s.mem) ∧
        (k = 4 → ∃ u : State, exec (.startupStep found guests) s = .next u ∧ u.fld .PWR_STATUS_START_STEP 0 = 4 ∧
          (found = [] → u.phys = s.power.fusedPhys ∧ u.used = s.power.fusedUsed ∧ u.absent = [])) ∧
        (5 ≤ k → k ≤ 9 → ∃ u : State, exec (.startupStep found guests) s = .next u ∧ u.fld .PWR_STATUS_START_STEP 0 = k ∧
          (found = [] → k = 5 ∨ k = 6 ∨ k = 9 → u = s.setFld .PWR_STATUS_START_STEP 0 k)) ∧
        (k = 8 → found = [] → exec (.startupStep [] guests) s = .next
          ((if s.power.settime then s.changeClock (s.planFreq 0)
            else ((s.changeClock (s.planFreq 0)).setFlag .MGT_AUDIT_STAT_MTIME_UNSET 0 true).raiseNo 0x0E ⟨8, 0⟩ 0).setFld
              .PWR_STATUS_START_STEP 0 8)) ∧
        (k = 10 → ∃ u : State, exec (.startupStep found guests) s = .next u ∧ u.fld .PWR_STATUS_STATE 0 = 2 ∧
          u.flag .PWR_STATUS_READY 0 = true ∧ u.fld .PWR_STATUS_START_STEP 0 = 10 ∧ u.power.startFails = 0 ∧
          (found = [] → u.mem = s.mem ∧ u.tillers = s.tillers ∧ u.ports = s.ports))))

/-! ### Power, clock and health -/

/-- Holds and time (R428, R484 to R487, R493, R494): below 42.0 V a READY part holds, above 43.0 V it resumes with class 0x02
and HOLD_SEEN, under STRICT a hold that ends is counted and is class 0x82, and a hold that lasts HOLD_MAX_MS ends in a shutdown; without RACKREF the part is in holdover, class 0x07, until
MTIME agrees with the count again; MTIME takes a value only before READY. -/
def Obligations.HoldsAndTime : Prop :=
  ∀ s : State,
    (s.flag .PWR_STATUS_READY 0 = true → s.fld .PWR_STATUS_STATE 0 = 2 ∨ s.fld .PWR_STATUS_STATE 0 = 3 →
      s.power.holdAt = none → exec .brownoutHold s = .next (({ s with power := { s.power with
        holdAt := some s.now } } : State).setFld .PWR_STATUS_STATE 0 3)) ∧
    (s.flag .PWR_STATUS_READY 0 = false ∨ s.power.holdAt ≠ none → exec .brownoutHold s = .next s) ∧
    (∀ lowest : BitVec 10,
      (s.power.holdAt = none → exec (.brownoutResume lowest) s = .next s) ∧
      (∀ (t : Nat) (s1 : State), s.power.holdAt = some t → s.strict = false →
        s1 = { s with power := { s.power with holdAt := none } } →
        (s.power.thermAt = none → s.fld .PWR_STATUS_STATE 0 = 3 → exec (.brownoutResume lowest) s = .next
          (((s1.setFld .PWR_STATUS_STATE 0 2).setFlag .PWR_STATUS_HOLD_SEEN 0 true).raiseNo 0x02 ⟨8, 0⟩
            ((s.now - t) % 2 ^ 64 + lowest.toNat * 2 ^ 64))) ∧
        (s.power.thermAt ≠ none → exec (.brownoutResume lowest) s = .next
          ((s1.setFlag .PWR_STATUS_HOLD_SEEN 0 true).raiseNo 0x02 ⟨8, 0⟩
            ((s.now - t) % 2 ^ 64 + lowest.toNat * 2 ^ 64)))) ∧
      (∀ (t : Nat), s.power.holdAt = some t → s.strict = true → ∃ u v : State,
        exec (.brownoutResume lowest) s = .next (u.holdEvent 1 (s.now - t)) ∧
        u = v.raiseNo 0x02 ⟨8, 0⟩ ((s.now - t) % 2 ^ 64 + lowest.toNat * 2 ^ 64) ∧ u.strict = true ∧
        v.flag .PWR_STATUS_HOLD_SEEN 0 = true ∧ v.power.holdAt = none)) ∧
    (s.power.holdAt = none → exec .holdLimit s = .next s) ∧
    (∀ t : Nat, s.power.holdAt = some t →
      (s.fld .PWR_CFG_HOLD_MAX_MS 0 * 1000000 ≤ s.now - t → exec .holdLimit s = .next (s.shutdown 1)) ∧
      (s.now - t < s.fld .PWR_CFG_HOLD_MAX_MS 0 * 1000000 → exec .holdLimit s = .next s)) ∧
    (s.fld .PWR_STATUS_STATE 0 ≠ 0 → s.flag .PWR_STATUS_HOLDOVER 0 = false → exec .holdoverEnter s = .next
      ((({ s with power := { s.power with rackref := false, slew := none } } : State).setFlag .PWR_STATUS_HOLDOVER 0
        true).raiseNo 0x07 ⟨8, 0⟩ 0)) ∧
    (s.flag .PWR_STATUS_HOLDOVER 0 = true → exec .holdoverEnter s = .next s ∧
      (∀ n : Word, exec (.rackrefReturn n) s = .next { s with power := { s.power with
        rackref := true
        slew := some n.toNat } }) ∧
      (s.power.rackref = true → s.power.slew = some s.now → exec .holdoverExit s = .next
        (({ s with power := { s.power with slew := none } } : State).setFlag .PWR_STATUS_HOLDOVER 0 false)) ∧
      (s.power.slew ≠ some s.now → exec .holdoverExit s = .next s)) ∧
    (s.flag .PWR_STATUS_HOLDOVER 0 = false → exec .holdoverExit s = .next s ∧ ∀ n, exec (.rackrefReturn n) s = .next s) ∧
    (∀ (o : Origin) (v : Word), s.answers o .PWR_MTIME_SET →
      (s.flag .PWR_STATUS_READY 0 = false → exec (.mtimeSet o v) s = .next (s.auditOf
        { s with power := { s.power with mtimeSet := some (1, v) } } true (Origin.audit o) .PWR_MTIME_SET 0 v.toNat)) ∧
      (s.flag .PWR_STATUS_READY 0 = true → exec (.mtimeSet o v) s = .next (s.auditOf s true (Origin.audit o) .PWR_MTIME_SET
        0 v.toNat))) ∧
    (∀ (cause dur : Nat), (s.strict = false → s.holdEvent cause dur = s) ∧
      (s.strict = true → s.holdEvent cause dur = ((s.satAdd .MGT_DET_EVT_HOLDS 0 1).setFlag .MGT_DET_STATUS_STRETCH_SEEN 0
        true).raiseNo 0x82 ⟨8, 0⟩ (cause + dur % 2 ^ 56 * 2 ^ 8 +
          s.barRound (s.fld .PWR_STRETCH_SLOT 0) % 2 ^ 32 * 2 ^ 64)))

/-- Clock, voltage and heat (R495, R498 to R504): a frequency request is rounded to 25 MHz and clamped, class 0x04, or
refused under STRICT while something runs; a rail's offset falls by 5 mV after 1 ms above its target, rises by 10 mV below 18
ps and is 0 below 12 ps, and does not fall where the voltage margin is under 40 mV (the model's choice of reading, notes/assumptions/168.md) or the offset is -60 mV; an average above the cap takes 25 MHz away; a trip is THERMTRIP_N, class 0x03 and main off; a
sensor that crosses a level is class 0x05, and an engine at its emergency level asks for a pause; a laser that cannot reach its bias has failed. -/
def Obligations.ClockVoltageAndHeat : Prop :=
  ∀ s : State,
    (∀ (o : Origin) (mhz : BitVec 16) (r v : Nat), s.answers o .PWR_CLK_PLAN → r = mhz.toNat / 25 * 25 →
      v = min (s.fld .PWR_CLK_PLAN_FMAX_MHZ 0) (max 600 r) →
      (s.strict = true → s.modeFree = false → exec (.clockPlanWrite o mhz) s = .next (s.auditChange
        ((s.setFlag .PWR_STATUS_CLAMPED 0 true).raiseNo 0x04 ⟨8, 0⟩ 3) o .PWR_CLK_PLAN 0 (mhz.toNat * 2 ^ 48))) ∧
      (s.strict = false ∨ s.modeFree = true → ∀ s2 : State,
        s2 = (if v = r then s.setFld .PWR_CLK_PLAN_FREQ_REQ_MHZ 0 v
          else ((s.setFld .PWR_CLK_PLAN_FREQ_REQ_MHZ 0 v).setFlag .PWR_STATUS_CLAMPED 0 true).raiseNo 0x04 ⟨8, 0⟩ 0) →
        (s.fld .PWR_STATUS_START_STEP 0 < 8 → exec (.clockPlanWrite o mhz) s = .next (s.auditChange s2 o .PWR_CLK_PLAN 0
          (mhz.toNat * 2 ^ 48))) ∧
        (8 ≤ s.fld .PWR_STATUS_START_STEP 0 → exec (.clockPlanWrite o mhz) s = .next (s.auditChange
          (s2.askClock (s2.planFreq (s.fld .PWR_STRETCH_LAST 0))) o .PWR_CLK_PLAN 0 (mhz.toNat * 2 ^ 48))))) ∧
    (∀ (sh : Fin 12) (ps : Nat), s.linksRun = true → s.flag .PWR_CFG_VLOOP_EN 0 = true →
      (ps < 12 → exec (.vloopAdjust sh ps) s = .next ((s.setSince sh none).setOffset sh 0)) ∧
      (12 ≤ ps → ps < 18 → exec (.vloopAdjust sh ps) s = .next ((s.setSince sh none).setOffset sh
        (min 0 (Tbl.get 0 s.power.vOffset sh + 10)))) ∧
      (18 ≤ ps → ps ≤ s.targetSlack sh → exec (.vloopAdjust sh ps) s = .next (s.setSince sh none)) ∧
      (∀ t, 18 ≤ ps → s.targetSlack sh < ps → s.power.slackSince.find? (fun p => p.1 == sh.val) = some (sh.val, t) →
        (s.now < t + 1000000 → exec (.vloopAdjust sh ps) s = .next s) ∧
        (t + 1000000 ≤ s.now → ps * 1000 < 40 * Config.railFactor sh ∨
            (s.flag .HLT_MARGIN_CFG_EN 0 = true ∧ s.fld .HLT_MARGIN_SHF_V_MV sh < 40) ∨ Tbl.get 0 s.power.vOffset sh ≤ -60 →
          exec (.vloopAdjust sh ps) s = .next (s.setSince sh (some s.now))) ∧
        (t + 1000000 ≤ s.now → 40 * Config.railFactor sh ≤ ps * 1000 →
            s.flag .HLT_MARGIN_CFG_EN 0 = false ∨ 40 ≤ s.fld .HLT_MARGIN_SHF_V_MV sh → -60 < Tbl.get 0 s.power.vOffset sh →
          exec (.vloopAdjust sh ps) s = .next ((s.setSince sh (some s.now)).setOffset sh
            (max (-60) (Tbl.get 0 s.power.vOffset sh - 5))))) ∧
      (18 ≤ ps → s.targetSlack sh < ps → s.power.slackSince.find? (fun p => p.1 == sh.val) = none →
        exec (.vloopAdjust sh ps) s = .next (s.setSince sh (some s.now)))) ∧
    (s.flag .PWR_CFG_VLOOP_EN 0 = false → ∀ sh ps, exec (.vloopAdjust sh ps) s = .next s) ∧
    (∀ (sh : Nat) (v : Int), Tbl.get 0 (s.setOffset sh v).power.vOffset sh = v ∧ (s.setOffset sh v).regs = s.regs) ∧
    (∀ (a b : BitVec 16) (s1 : State), s.linksRun = true → s1 = s.setFld .PWR_STATUS_POWER_W 0 a.toNat →
      (s.strict = false → max 1200 (s.fld .PWR_CAP_CAP_W 0) < a.toNat →
        (b.toNat ≤ 2860 → exec (.powerCapCheck a b) s = .next (s1.askClock (max 600 (s.freqAim - 25)))) ∧
        (2860 < b.toNat → exec (.powerCapCheck a b) s = .next (s1.askClock (max 600 (s.freqAim - 25))).emergencyOn)) ∧
      (s.strict = true → a.toNat ≤ max 1200 (s.fld .PWR_CAP_CAP_W 0) → b.toNat ≤ 2860 →
        exec (.powerCapCheck a b) s = .next { s1 with power := { s1.power with capOver := 0 } }) ∧
      (s.strict = true → max 1200 (s.fld .PWR_CAP_CAP_W 0) < a.toNat → b.toNat ≤ 2860 → s.power.capOver = 99 →
        exec (.powerCapCheck a b) s = .next (((({ s1 with power := { s1.power with capOver := 100 } } : State).satAdd
          .PWR_CAP_EXCURSIONS 0 1).setFlag .PWR_STATUS_CLAMPED 0 true).raiseNo 0x04 ⟨8, 0⟩ 1))) ∧
    (s.linksRun = false → ∀ a b, exec (.powerCapCheck a b) s = .next s) ∧
    (∀ (l : List (Sensor × Nat)) (s1 : State), s1 = (l.foldl (fun s p => s.thermalOne (sensorCode p.1) p.2) s).thermStatus →
      (s.fld .PWR_STATUS_STATE 0 = 0 ∨ s1.topLevel < 3 → s.linksRun = false → exec (.thermalCheck l) s = .next s1) ∧
      (s.fld .PWR_STATUS_STATE 0 ≠ 0 → 3 ≤ s1.topLevel → exec (.thermalCheck l) s = .next s1.trip) ∧
      (s.linksRun = true → s1.topLevel < 3 → s1.hotNow = true → exec (.thermalCheck l) s = .next
        s1.emergencyOn.thermalHold) ∧
      (s.linksRun = true → s1.topLevel < 3 → s1.hotNow = false → exec (.thermalCheck l) s = .next
        s1.emergencyOff.thermalHold)) ∧
    (∃ u : State, u = ((s.emit (.thermtrip true)).raiseNo 0x03 ⟨8, 0⟩ 2).mainOff ∧
      s.trip = { u with power := { u.power with thermtrip := true } }) ∧
    (s.trip.power.thermtrip = true ∧ s.trip.fld .PWR_STATUS_STATE 0 = 0 ∧ s.trip.tillers = []) ∧
    (∀ code t : Nat, sensorLevel code (Tbl.get 0 s.power.temps code) = sensorLevel code t →
      s.thermalOne code t = { s with power := { s.power with temps := Tbl.put s.power.temps code t } }) ∧
    (∀ (code t : Nat) (s1 : State), sensorLevel code (Tbl.get 0 s.power.temps code) ≠ sensorLevel code t →
      s1 = ({ s with power := { s.power with temps := Tbl.put s.power.temps code t } } : State).raiseNo 0x05
        ⟨8, 0⟩ (code + sensorLevel code t * 2 ^ 16 + t % 2 ^ 32 * 2 ^ 32) →
      (code < 160 ∨ sensorLevel code t < 2 ∨ 2 ≤ sensorLevel code (Tbl.get 0 s.power.temps code) → s.thermalOne code t = s1) ∧
      (160 ≤ code → 2 ≤ sensorLevel code t → sensorLevel code (Tbl.get 0 s.power.temps code) < 2 →
        s.thermalOne code t = s1.sendPause (code - 160))) ∧
    (∀ (p : Fin 8) (c : Fin 45) (v : Nat) (s1 : State), s.linksRun = true → s.flag .LNK_GUEST_ADMITTED p = true →
      v = s.fld .PWR_LASER_TARGET_DB10 0 → s1 = (s.setFld .PWR_LASER_APPLIED 0 v).emit (.laser p c v) →
      exec (.laserBiasAdjust p c true) s = .next s1 ∧
      exec (.laserBiasAdjust p c false) s = .next ((s1.setPort p { s1.port p with
        startTx := (s1.port p).startTx ||| (1#45 <<< c.val) }).txRemap p)) ∧
    (s.linksRun = false → ∀ p c b, exec (.laserBiasAdjust p c b) s = .next s)

/-- Dormant and ageing (R505 to R507): ENTER is taken only while nothing runs, and is otherwise REFUSED; the entry completes
in STATE 4, with every port that was still sending LEAVING off; a wake cause in STATE 4 returns the part to READY with its cause; a day's record is kept among the last 90 of its
item, and a prediction that falls to WARN_MONTHS is class 0x07. -/
def Obligations.DormantAndAgeing : Prop :=
  ∀ s : State,
    (∀ o : Origin, s.answers o .PWR_DORMANT →
      (s.mayEnter = true → exec (.enter o) s = .next (s.auditOf ((s.setFld .PWR_STATUS_STATE 0 5).setFlag .PWR_STATUS_READY 0
        false) true (Origin.audit o) .PWR_DORMANT 0 (2 ^ 63))) ∧
      (s.mayEnter = false → exec (.enter o) s = .next (s.auditOf (s.setFlag .PWR_DORMANT_REFUSED 0 true) true
        (Origin.audit o) .PWR_DORMANT 0 (2 ^ 63))) ∧
      (s.fld .PWR_STATUS_STATE 0 = 4 → exec (.wake o) s = .next (s.auditOf (((s.setFld .PWR_STATUS_STATE 0 2).setFlag
        .PWR_STATUS_READY 0 true).setFld .PWR_DORMANT_CAUSE 0 0) true (Origin.audit o) .PWR_DORMANT 0 (2 ^ 62))) ∧
      (s.fld .PWR_STATUS_STATE 0 ≠ 4 → exec (.wake o) s = .next (s.auditOf s true (Origin.audit o) .PWR_DORMANT 0
        (2 ^ 62)))) ∧
    (s.mayEnter = true → s.ready = true ∧ (∀ p < 8, s.flag .LNK_CFG_ENABLE p = false) ∧ s.drained = true ∧
      ∀ t < 768, s.tstate t < 2 ∨ 6 < s.tstate t) ∧
    (s.fld .PWR_STATUS_STATE 0 = 5 →
      exec .dormantEntryComplete s = .next ((((List.range 8).filter (fun p => (s.port p).leaving.isSome)).foldl
        State.leaveDone s).setFld .PWR_STATUS_STATE 0 4) ∧
      ((∀ p < 8, (s.port p).leaving = none) → exec .dormantEntryComplete s = .next (s.setFld .PWR_STATUS_STATE 0 4))) ∧
    (s.fld .PWR_STATUS_STATE 0 ≠ 5 → exec .dormantEntryComplete s = .next s) ∧
    (s.fld .PWR_STATUS_STATE 0 = 4 →
      (∀ c : BitVec 3, c.toNat ≤ 3 → exec (.dormantWake c) s = .next (((s.setFld .PWR_STATUS_STATE 0 2).setFlag
        .PWR_STATUS_READY 0 true).setFld .PWR_DORMANT_CAUSE 0 c.toNat)) ∧
      (s.fld .PWR_WAKE_AT_MTIME 0 ≠ 0 → s.fld .PWR_WAKE_AT_MTIME 0 ≤ s.now → exec (.dormantWake 4) s = .next
        (((s.setFld .PWR_STATUS_STATE 0 2).setFlag .PWR_STATUS_READY 0 true).setFld .PWR_DORMANT_CAUSE 0 4)) ∧
      (s.fld .PWR_WAKE_AT_MTIME 0 = 0 ∨ s.now < s.fld .PWR_WAKE_AT_MTIME 0 → exec (.dormantWake 4) s = .next s)) ∧
    (s.fld .PWR_STATUS_STATE 0 ≠ 4 → ∀ c : BitVec 3, c ≠ 5 → exec (.dormantWake c) s = .next s) ∧
    (exec (.dormantWake 5) s = exec .perstAssert s) ∧
    (∀ (kind : BitVec 4) (unit : BitVec 12) (v : Nat) (b : Nat × Nat × Nat), 1 ≤ kind.toNat → kind.toNat ≤ 5 →
      b = (s.power.addAge kind.toNat unit.toNat v).shortest →
      ∃ s2 : State, s2.power = s.power.addAge kind.toNat unit.toNat v ∧ s2.fld .HLT_EOL_MONTHS 0 = b.1 ∧
        s2.fld .HLT_EOL_UNIT 0 = b.2.2 % 4096 ∧ s2 = { s with regs := s2.regs, power := s2.power } ∧
        (s.fld .HLT_EOL_WARN_MONTHS 0 < b.1 ∨ s.fld .HLT_EOL_MONTHS 0 ≤ s.fld .HLT_EOL_WARN_MONTHS 0 →
          exec (.ageingRecord kind unit v) s = .next s2) ∧
        (b.1 ≤ s.fld .HLT_EOL_WARN_MONTHS 0 → s.fld .HLT_EOL_WARN_MONTHS 0 < s.fld .HLT_EOL_MONTHS 0 →
          exec (.ageingRecord kind unit v) s = .next ((s2.setFlag .HLT_EOL_WARN 0 true).raiseNo 0x07 ⟨8, 0⟩
            (1 + b.2.1 * 2 ^ 8 + b.2.2 * 2 ^ 16 + b.1 * 2 ^ 32)))) ∧
    (∀ (kind : BitVec 4) (unit : BitVec 12) (v : Nat), kind.toNat = 0 ∨ 5 < kind.toNat →
      exec (.ageingRecord kind unit v) s = .next s) ∧
    (∀ (p : Power) (kind unit v : Nat), ((p.addAge kind unit v).itemAge kind unit).head? = some (kind, unit, v) ∧
      ((p.addAge kind unit v).itemAge kind unit).length ≤ 90)

/-! ### Management -/

/-- Rack time, neighbours and views (R547 to R550): a SETTIME over I3C before READY is taken for the 1,001st edge, and a
directed one is answered; GO asks the rack manager for a node, and its answer or 250 ms without one end the query with the
result; a unit whose two views disagree in two comparisons is fenced with class 0x08. -/
def Obligations.RackTimeAndViews : Prop :=
  ∀ s : State, s.power.auxGood = true ∨ s.power.vinGood = true →
    (∀ (body : List Byte) (v : Word) (s1 : State), settimeValue 0x01 0x00 body = some v → s.flag .PWR_STATUS_READY 0 = false →
      s1 = { s with power := { s.power with mtimeSet := some (1001, v), settime := true } } →
      exec (.settimeBroadcast .i3c body) s = .next s1) ∧
    (∀ (tr : Transport) (body : List Byte), settimeValue 0x01 0x00 body = none ∨ tr ≠ .i3c ∨
      s.flag .PWR_STATUS_READY 0 = true → exec (.settimeBroadcast tr body) s = .next s) ∧
    (∀ (body : List Byte) (v : Word), settimeValue 0x02 0x01 body = some v →
      (s.flag .PWR_STATUS_READY 0 = false → exec (.settimeDirected .i3c body) s = .next
        (({ s with power := { s.power with mtimeSet := some (1001, v), settime := true } } : State).emit
          (.mctp [0x82, 0x00]))) ∧
      (s.flag .PWR_STATUS_READY 0 = true → exec (.settimeDirected .i3c body) s = .next (s.emit (.mctp [0x82, 0x02])))) ∧
    (∀ body : List Byte, settimeValue 0x02 0x01 body = none → exec (.settimeDirected .i3c body) s = .next
      (s.emit (.mctp [0x82, 0x01]))) ∧
    (∀ (tr : Transport) (body : List Byte), tr ≠ .i3c → exec (.settimeDirected tr body) s = .next s) ∧
    (∀ (o : Origin) (node : BitVec 24), s.answers o .MGT_PEER → ∃ u : State, exec (.peerQuery o node) s = .next (s.auditOf u
        true (Origin.audit o) .MGT_PEER 0 (2 ^ 63 + node.toNat)) ∧
      u.fld .MGT_PEER_NODE 0 = node.toNat ∧ u.flag .MGT_PEER_BUSY 0 = true ∧ u.power.peerAt = s.power.clock ∧
      u.out = .mctp ([0x03] ++ leBytes 3 node.toNat ++ [0x00]) :: s.out ∧
      u = { s with regs := u.regs, power := { s.power with peerAt := u.power.peerAt }, out := u.out }) ∧
    (∀ (body : List Byte) (st : Nat), st ≤ 1 → s.flag .MGT_PEER_BUSY 0 = true → s.fld .MGT_PEER_NODE 0 < 2 ^ 24 →
      body = [0x83] ++ leBytes 3 (s.fld .MGT_PEER_NODE 0) ++ leBytes 1 st →
      exec (.peerQueryResponse body) s = .next ((s.setFld .MGT_PEER_RESULT 0 st).setFlag .MGT_PEER_BUSY 0 false)) ∧
    (∀ body : List Byte, body.length ≠ 5 ∨ s.flag .MGT_PEER_BUSY 0 = false → exec (.peerQueryResponse body) s = .next s) ∧
    (s.flag .MGT_PEER_BUSY 0 = true →
      (s.power.peerAt + 250000000 ≤ s.power.clock → exec .peerQueryTimeout s = .next
        ((s.setFld .MGT_PEER_RESULT 0 2).setFlag .MGT_PEER_BUSY 0 false)) ∧
      (s.power.clock < s.power.peerAt + 250000000 → exec .peerQueryTimeout s = .next s)) ∧
    (∀ views : List (ViewUnit × Bool × Bool), ∃ bad, bad = views.filter s.viewDiffers ∧ ∃ u : State,
      u = (bad.filter (fun v => s.power.viewBad.contains v.1)).foldl State.fenceView s ∧
      exec (.viewCompare views) s = .next { u with power := { u.power with
        viewBad := (bad.map (·.1)).filter (fun x => !(s.power.viewBad.contains x)) } }) ∧
    (∀ (v : ViewUnit) (a b : Bool), s.fenceView (v, a, b) = ((s.fenceUnit v).setFlag .MGT_FENCED_EVT 0 true).raiseNo 0x08 ⟨8, 0⟩
      ((viewCode v).1 + (viewCode v).2 * 2 ^ 8 + (if a then 2 ^ 16 else 0) + (if b then 2 ^ 17 else 0))) ∧
    (∀ (sh h : Fin 12) (p : Fin 8), s.fenceUnit (.sheaf sh) = (s.fenceSheaf sh).setBit .MGT_FENCED_SHEAF 0 sh ∧
      s.fenceUnit (.stack h) = (s.fenceStack h).setBit .MGT_FENCED_STACK 0 h ∧
      s.fenceUnit (.port p) = ((s.portDown p 5).setBit .FAB_CTRL_FENCE 0 p).setBit .MGT_FENCED_PORT 0 p)

/-- Presence, firmware and debug (R554, R556 to R560): the window opens with class 0x09 and an entry and closes after 60 s;
the flush copies every unflushed entry; a complete bundle with a good signature and version is VERIFIED, any other is class
0x0B; ACTIVATE, RAISE and UNLOCK act under presence and leave an entry that says whether they took; CONFIRM ends a trial; a
trial that is not confirmed, or fails to start twice, reverts with class 0x0A. -/
def Obligations.PresenceFirmwareAndDebug : Prop :=
  ∀ s : State, s.power.auxGood = true ∨ s.power.vinGood = true →
    (exec .auditFlush s = .next s.auditFlush ∧ s.auditFlush.fld .MGT_AUDIT_STAT_UNFLUSHED 0 = 0 ∧
      s.auditFlush.flashed = s.flashed + s.fld .MGT_AUDIT_STAT_UNFLUSHED 0 ∧ s.auditFlush.power = s.power) ∧
    (∀ s1 : State, s1 = { s with power := { s.power with presenceAt := some s.power.clock } } →
      (s.flag .MGT_PRESENCE_OPEN 0 = true → exec .presenceOpen s = .next s1) ∧
      (s.flag .MGT_PRESENCE_OPEN 0 = false → exec .presenceOpen s = .next
        (((s1.setFlag .MGT_PRESENCE_OPEN 0 true).raiseNo 0x09 ⟨8, 0⟩ 0).auditEvent ⟨5, 8 * 4096⟩ 0x09 1 0))) ∧
    (s.power.presenceAt = none → exec .presenceClose s = .next s) ∧
    (∀ t, s.power.presenceAt = some t → s.flag .MGT_PRESENCE_OPEN 0 = true →
      (t + 60000000000 ≤ s.power.clock → exec .presenceClose s = .next (((({ s with power := { s.power with
        presenceAt := none } } : State).setFlag .MGT_PRESENCE_OPEN 0 false).raiseNo 0x09 ⟨8, 0⟩ 1).auditEvent
          ⟨5, 8 * 4096⟩ 0x09 0 1)) ∧
      (s.power.clock < t + 60000000000 → exec .presenceClose s = .next s)) ∧
    (∀ (v : BitVec 31) (ok : Bool) (s1 : State), s1 = { s with power := { s.power with activated := false } } →
      exec (.firmwareTransfer v false ok) s = .next (s1.setFld .MGT_FW_STAGE 0 1) ∧
      ∀ s2 : State, s2 = ({ s1 with power := { s1.power with
          slotVer := s1.power.slotVer.set (1 - s.fld .MGT_FW_SLOT 0) v.toNat } } : State).setFld .MGT_FW_VER_STAGED_VER 0
            v.toNat →
        (s.flag .SEC_STATUS_KEY_FUSED 0 = true → s.fld .MGT_FW_VER_MIN_VER 0 ≤ v.toNat →
          exec (.firmwareTransfer v true true) s = .next (s2.setFld .MGT_FW_STAGE 0 2)) ∧
        (s.flag .SEC_STATUS_KEY_FUSED 0 = true → v.toNat < s.fld .MGT_FW_VER_MIN_VER 0 →
          exec (.firmwareTransfer v true true) s = .next ((s2.setFld .MGT_FW_STAGE 0 3).raiseNo 0x0B ⟨8, 0⟩
            (1 + v.toNat * 2 ^ 32))) ∧
        (s.flag .SEC_STATUS_KEY_FUSED 0 = false ∨ ok = false → exec (.firmwareTransfer v true ok) s = .next
          ((s2.setFld .MGT_FW_STAGE 0 3).raiseNo 0x0B ⟨8, 0⟩ (v.toNat * 2 ^ 32)))) ∧
    (∀ o : Origin,
      (s.answers o .MGT_FW →
        (s.flag .MGT_PRESENCE_OPEN 0 = false → exec (.activate o) s = .next (s.auditOf s false (Origin.audit o) .MGT_FW 0
          (2 ^ 63))) ∧
        (s.flag .MGT_PRESENCE_OPEN 0 = true → s.flag .MGT_FW_TRIAL 0 = false → s.fld .MGT_FW_STAGE 0 = 2 →
          exec (.activate o) s = .next (s.auditOf (({ s with power := { s.power with activated := true } } : State).auditEvent
            (Origin.audit o) 0 (s.fld .MGT_FW_VER_STAGED_VER 0) 0) true (Origin.presence o) .MGT_FW 0 (2 ^ 63))) ∧
        (s.flag .MGT_PRESENCE_OPEN 0 = true → s.flag .MGT_FW_TRIAL 0 = true → exec (.activate o) s = .next (s.auditOf
          (s.raiseNo 0x0B ⟨8, 0⟩ (2 + s.fld .MGT_FW_VER_STAGED_VER 0 * 2 ^ 32)) false (Origin.audit o) .MGT_FW 0
            (2 ^ 63))) ∧
        (s.flag .MGT_FW_TRIAL 0 = true → exec (.confirm o) s = .next (s.auditOf ((s.setFlag .MGT_FW_TRIAL 0
          false).auditEvent (Origin.audit o) 0 (s.fld .MGT_FW_RUN_VER 0) 0) true (Origin.audit o) .MGT_FW 0 (2 ^ 62))) ∧
        (s.flag .MGT_FW_TRIAL 0 = false → exec (.confirm o) s = .next (s.auditOf s true (Origin.audit o) .MGT_FW 0
          (2 ^ 62)))) ∧
      (s.answers o .MGT_FW_VER →
        (s.flag .MGT_PRESENCE_OPEN 0 = true → s.flag .MGT_FW_TRIAL 0 = false → exec (.raise o) s = .next (s.auditOf
          (s.setFld .MGT_FW_VER_MIN_VER 0 (s.fld .MGT_FW_RUN_VER 0)) true (Origin.presence o) .MGT_FW_VER 0 (2 ^ 63))) ∧
        (s.flag .MGT_PRESENCE_OPEN 0 = false ∨ s.flag .MGT_FW_TRIAL 0 = true → exec (.raise o) s = .next (s.auditOf s false
          (Origin.audit o) .MGT_FW_VER 0 (2 ^ 63)))) ∧
      (s.answers o .MGT_DEBUG →
        (s.flag .MGT_PRESENCE_OPEN 0 = true → exec (.unlock o) s = .next (s.auditOf ((s.setFlag .MGT_DEBUG_UNLOCKED 0
          true).raiseNo 0x0D ⟨8, 0⟩ (Origin.presence o).id) true (Origin.presence o) .MGT_DEBUG 0 (2 ^ 63))) ∧
        (s.flag .MGT_PRESENCE_OPEN 0 = false → exec (.unlock o) s = .next (s.auditOf s false (Origin.audit o) .MGT_DEBUG 0
          (2 ^ 63))) ∧
        exec (.lock o) s = .next (s.auditOf ((s.setFlag .MGT_DEBUG_UNLOCKED 0 false).auditEvent (Origin.audit o) 0 0 0) true
          (Origin.audit o) .MGT_DEBUG 0 (2 ^ 62)))) ∧
    (s.revertCause = none → exec .firmwareRevert s = .next s) ∧
    (∀ (c v : Nat) (s1 : State), s.revertCause = some c → v = s.power.slotVer.getD (1 - s.fld .MGT_FW_SLOT 0) 0 →
      s1 = (((s.setFld .MGT_FW_SLOT 0 (1 - s.fld .MGT_FW_SLOT 0)).setFld .MGT_FW_RUN_VER 0 v).setFlag .MGT_FW_TRIAL 0
        false).raiseNo 0x0A ⟨8, 0⟩ (c + s.fld .MGT_FW_RUN_VER 0 % 2 ^ 28 * 2 ^ 8 + v % 2 ^ 28 * 2 ^ 36) →
      exec .firmwareRevert s = .next ({ s1 with power := { s1.power with startFails := 0 } } : State).moduleReset) ∧
    (s.flag .MGT_FW_TRIAL 0 = true → s.fld .MGT_FW_VER_MIN_VER 0 ≤ s.power.slotVer.getD (1 - s.fld .MGT_FW_SLOT 0) 0 →
      s.flag .PWR_STATUS_READY 0 = true → s.power.readyAt + 600000000000 ≤ s.now → s.revertCause = some 0)

/-- CLEAR of the audit log (R555): under presence SRAM and flash ring are emptied, and one entry records the clear, with
the SEQ and the CHAIN that follow the last entry before it. Without presence the log is not cleared. -/
def Obligations.ClearLeavesOneEntry : Prop :=
  ∀ (s s1 : State) (o : Origin), s.answers o .MGT_AUDIT_STAT →
    (s.flag .MGT_PRESENCE_OPEN 0 = true →
      s1 = s.auditOf s true (Origin.presence o) .MGT_AUDIT_STAT 0 1 →
      ∃ (u : State) (e : BitVec 512), exec (.clear o) s = .next u ∧
        u.audit = [(s1.fld .MGT_AUDIT_SEQ_NEXT 0 % 4096, e)] ∧ u.flash = [] ∧
        bitsOf e.toNat 127 64 = s1.fld .MGT_AUDIT_SEQ_NEXT 0 ∧
        bitsOf e.toNat 511 384 = leNat ((sha256 (leBytes 64 s1.auditPrev.toNat)).take 16) ∧
        u.fld .MGT_AUDIT_SEQ_NEXT 0 = (s1.fld .MGT_AUDIT_SEQ_NEXT 0 + 1) % 2 ^ 64 ∧ u.auditPrev = e ∧
        u.mem = s1.mem ∧ u.power = s1.power) ∧
    (s.flag .MGT_PRESENCE_OPEN 0 = false → exec (.clear o) s = .next (s.auditOf s false (Origin.audit o) .MGT_AUDIT_STAT 0
      1))

/-- An audit entry (R552): 64 bytes with the time, SEQ, the reserved bits at 0, TOOK, ORIGIN, CLASS, ORIGIN_ID, OFFSET,
OLD, DATA, DETAIL and CHAIN, each at its offset; it stands in the slot of its SEQ, and the next entry has the next SEQ. -/
def Obligations.AuditEntriesAreLaidOut : Prop :=
  ∀ (s u : State) (took : Bool) (o : AuditOrg) (cls off old data detail : Nat),
    s.fld .MGT_AUDIT_STAT_UNFLUSHED 0 < 4096 → u = s.audit! took o cls off old data detail →
    ∃ e : BitVec 512, Tbl.get 0 u.audit (s.fld .MGT_AUDIT_SEQ_NEXT 0 % 4096) = e ∧ u.auditPrev = e ∧
      bitsOf e.toNat 63 0 = s.now ∧
      bitsOf e.toNat 127 64 = s.fld .MGT_AUDIT_SEQ_NEXT 0 ∧
      bitsOf e.toNat 135 133 = 0 ∧
      bitsOf e.toNat 132 132 = (if took then 1 else 0) ∧
      bitsOf e.toNat 131 128 = o.code % 16 ∧
      bitsOf e.toNat 143 136 = cls % 256 ∧
      bitsOf e.toNat 159 144 = o.id % 65536 ∧
      bitsOf e.toNat 191 160 = off % 2 ^ 32 ∧
      bitsOf e.toNat 255 192 = old % 2 ^ 64 ∧
      bitsOf e.toNat 319 256 = data % 2 ^ 64 ∧
      bitsOf e.toNat 383 320 = detail % 2 ^ 64 ∧
      bitsOf e.toNat 511 384 = leNat ((sha256 (leBytes 64 s.auditPrev.toNat)).take 16) ∧
      u.fld .MGT_AUDIT_SEQ_NEXT 0 = (s.fld .MGT_AUDIT_SEQ_NEXT 0 + 1) % 2 ^ 64

/-! ### Register access, and the ends of the block -/

/-- Register writes (R15, R17 to R20, R271, R274, R490, R546, R560): a write of 4 or 8 aligned bytes reaches the register at
its offset when it answers; a field takes it as its access type says; the lower half of a latching register is held; an
effecter write acts like the PF's; a read of those widths gives the register's bits, zero at a reserved offset, outside a VF's
window and in the window of a disabled context, and any other access is not performed; the TAP's instructions select its register;
HBM takes the host's bytes in the range of BAR2 or of the HDM decoder, and any other range is unsupported. -/
def Obligations.RegistersTakeWrites : Prop :=
  ∀ (s : State),
    (∀ (o : Origin) (off : BitVec 26) (v : Word) (r : Reg) (i : Nat), s.answers o r → off.toNat % 8 = 0 →
      s.barPlace off.toNat = some (.reg r i) → pfWindow off.toNat = false →
      exec (.registerWrite o off 8 v) s = .next ((if r.latches then s.latch r i v.toNat else s).regPut o r i (2 ^ 64 - 1)
        v.toNat) ∧
      (r.latches = false → exec (.registerWrite o off 4 v) s = .next (s.regPut o r i (2 ^ 32 - 1) (v.toNat % 2 ^ 32)) ∧
        exec (.registerWrite o (off + 4) 4 v) s = .next (s.regPut o r i (2 ^ 64 - 2 ^ 32) (v.toNat % 2 ^ 32 * 2 ^ 32))) ∧
      (r.latches = true → ∀ w : BitVec 32,
        exec (.latchedLowerWrite o off w) s = .next (s.latch r i w.toNat) ∧
        exec (.registerWrite o (off + 4) 4 v) s = .next (s.regPut o r i (2 ^ 64 - 1) (v.toNat % 2 ^ 32 * 2 ^ 32 +
          (Tbl.get 0 s.held (latchKey r i)).toNat)))) ∧
    (∀ (o : Origin) (off : BitVec 26) (width : Nat) (v : Word), ¬((width = 4 ∨ width = 8) ∧ off.toNat % width = 0) →
      exec (.registerWrite o off width v) s = .next s) ∧
    (∀ (c : BitVec 12) (off : BitVec 26) (v : Word) (p : Place), s.winPlace c.toNat off.toNat = some p → off.toNat % 8 = 0 →
      off.toNat < 0x10000 → c ≠ 0 → s.hostPort = true → s.fld .PWR_STATUS_STATE 0 ≠ 4 → s.flag .CTX_CFG_ENABLE c.toNat = true →
      s.fld .CTX_STATUS_STATE c.toNat ≠ 2 →
      exec (.registerWrite (.vf c) off 8 v) s = .next (s.placePut (.vf c) p true false v.toNat)) ∧
    (∀ (c : BitVec 12) (off : BitVec 26) (v : Word), s.flag .CTX_CFG_ENABLE c.toNat = false →
      (s.fld .PWR_STATUS_STATE 0 ≠ 4 → exec (.registerWrite (.vf c) off 8 v) s = .next s) ∧
      (s.fld .PWR_STATUS_STATE 0 = 4 → s.power.hostUp = true → off.toNat % 8 = 0 →
        exec (.registerWrite (.vf c) off 8 v) s = .next (s.wakeUp 1))) ∧
    (∀ (f : Fld) (i v : Nat) (u : State), u = s.writeFld f i (2 ^ 64 - 1) v → s.fld f i < 2 ^ f.width →
      f.width ≤ 64 → f.info.lo + f.width ≤ 64 →
      (f.info.access = .RW → u.fld f i = v / 2 ^ f.info.lo % 2 ^ f.width) ∧
      (f.info.access = .RO → u = s) ∧
      (f.info.access = .W1C → ∀ b < f.width, bitAt (u.fld f i) b = (bitAt (s.fld f i) b && !(bitAt v (f.info.lo + b)))) ∧
      (f.info.access = .W1S → ∀ b < f.width, bitAt (u.fld f i) b = (bitAt (s.fld f i) b || bitAt v (f.info.lo + b))) ∧
      (∀ g j, (g, j) ≠ (f, i) → u.fld g j = s.fld g j)) ∧
    (∀ (e : BitVec 8) (off : BitVec 26) (v : Word),
      exec (.pldmEffecterWrite e off v) s = exec (.registerWrite (.mgmt e) off 8 v) s) ∧
    (∀ (e : BitVec 8) (r : Reg), r.effecter = true → s.power.auxGood = true ∨ s.power.vinGood = true →
      s.answers (.mgmt e) r) ∧
    (s.power.auxGood = true ∨ s.power.vinGood = true →
      exec (.jtagInstruction .bypass) s = .next { s with power := { s.power with jtag := 0 } } ∧
      exec (.jtagInstruction .sample) s = .next { s with power := { s.power with jtag := 2 } } ∧
      (s.fld .PWR_STATUS_STATE 0 = 0 →
        exec (.jtagInstruction .extest) s = .next { s with power := { s.power with jtag := 3 } } ∧
        exec (.jtagInstruction .clamp) s = .next { s with power := { s.power with jtag := 4 } }) ∧
      (s.fld .PWR_STATUS_STATE 0 ≠ 0 →
        exec (.jtagInstruction .extest) s = .next { s with power := { s.power with jtag := 0 } } ∧
        exec (.jtagInstruction .clamp) s = .next { s with power := { s.power with jtag := 0 } }) ∧
      (∃ code : BitVec 32, bitsOf code.toNat 27 12 = 0xAE12 ∧ ∃ u : State,
        exec (.jtagInstruction .idcode) s = .next u ∧ u.out = .idcode code :: s.out ∧ u.power.jtag = 1 ∧
        u = { s with power := u.power, fresh := u.fresh, out := u.out }) ∧
      (∀ (off : BitVec 26) (v : Word),
        (s.flag .MGT_DEBUG_UNLOCKED 0 = false → exec (.jtagInstruction (.regAccess off v)) s = .next
          { s with power := { s.power with jtag := 0 } }) ∧
        (s.flag .MGT_DEBUG_UNLOCKED 0 = true → exec (.jtagInstruction (.regAccess off v)) s =
          exec (.registerWrite .jtag off 8 v) { s with power := { s.power with jtag := 5 } }))) ∧
    (∀ (o : Origin) (off width : Nat), ¬((width = 4 ∨ width = 8) ∧ off % width = 0) → s.regRead o off width = none) ∧
    (∀ (o : Origin) (off : Nat) (r : Reg) (i : Nat), s.answers o r → r ≠ .GLM_CTX_VALUE → off % 8 = 0 →
      s.barPlace off = some (.reg r i) → pfWindow off = false → (∀ c, o ≠ .vf c) →
      s.regRead o off 8 = some (s.regVal r i % 2 ^ 64) ∧ s.regRead o off 4 = some (s.regVal r i % 2 ^ 32) ∧
      s.regRead o (off + 4) 4 = some (s.regVal r i / 2 ^ 32 % 2 ^ 32)) ∧
    (∀ (o : Origin) (off : Nat), (∀ c, o ≠ .vf c) → s.barPlace off = none → off % 8 = 0 → pfWindow off = false →
      s.answers o (judged off none) → s.regRead o off 8 = some 0) ∧
    (∀ (c : BitVec 12) (off : Nat), s.hostPort = true → s.fld .PWR_STATUS_STATE 0 ≠ 4 → off % 8 = 0 →
      (0x10000 ≤ off ∨ s.flag .CTX_CFG_ENABLE c.toNat = false ∨ s.winPlace c.toNat off = none →
        s.regRead (.vf c) off 8 = some 0) ∧
      (∀ r i, off < 0x10000 → s.flag .CTX_CFG_ENABLE c.toNat = true → s.winPlace c.toNat off = some (.reg r i) →
        r ≠ .GLM_CTX_VALUE → s.regRead (.vf c) off 8 = some (s.regVal r i % 2 ^ 64))) ∧
    (∀ (a : BitVec 40) (bytes : List PByte), s.power.hostUp = true → s.flag .PWR_STATUS_READY 0 = true →
      s.fld .PWR_STATUS_STATE 0 ≠ 4 →
      (a.toNat + bytes.length ≤ 2 ^ s.power.bar2 * 2 ^ 30 → exec (.bar2Write false a bytes) s = .next
        ((s.memWrite (Accessor.of ⟨7, 0⟩ (some 0)) a.toNat bytes).count 4 bytes.length)) ∧
      (2 ^ s.power.bar2 * 2 ^ 30 < a.toNat + bytes.length →
        exec (.bar2Write false a bytes) s = .next (s.emit .unsupported)) ∧
      (s.flag .CMD_CFG_CXL 0 = true → s.power.hdmBase ≤ a.toNat →
        a.toNat + bytes.length ≤ s.power.hdmBase + s.power.hdmSize → a.toNat + bytes.length ≤ 576 * 2 ^ 30 →
        exec (.bar2Write true a bytes) s = .next
          ((s.memWrite (Accessor.of ⟨7, 0⟩ (some 0)) a.toNat bytes).count 4 bytes.length)) ∧
      (s.flag .CMD_CFG_CXL 0 = false ∨ a.toNat < s.power.hdmBase ∨
          s.power.hdmBase + s.power.hdmSize < a.toNat + bytes.length ∨ 576 * 2 ^ 30 < a.toNat + bytes.length →
        exec (.bar2Write true a bytes) s = .next (s.emit .unsupported))) ∧
    (∀ (cxl : Bool) (a : BitVec 40) (bytes : List PByte), s.power.hostUp = false →
      exec (.bar2Write cxl a bytes) s = .next (s.emit .unsupported))
end

