-- ==== Sys2Proof/Laws/Table.lean ====
section
/-! SUPPORT. Laws of sparse tables: a read after a write, and the canonical form that every write keeps. -/

namespace Sys2Proof.Machine

namespace Tbl

theorem get_del_ne {α : Type} (d : α) (t : Table α) (k j : Nat) (h : j ≠ k) : get d (del k t) j = get d t j := by
  induction t with
  | nil => rfl
  | cons p t ih =>
    obtain ⟨k', w⟩ := p
    by_cases hk : k = k'
    · subst hk; simp [del, get, h, ih]
    · by_cases hj : j = k' <;> simp [del, get, hk, hj, ih]

theorem get_del_same {α : Type} (d : α) (t : Table α) (k : Nat) : get d (del k t) k = d := by
  induction t with
  | nil => rfl
  | cons p t ih =>
    obtain ⟨k', w⟩ := p
    by_cases hk : k = k' <;> simp [del, get, hk, ih]
    simpa [hk] using ih

theorem get_ins_same {α : Type} (d : α) (t : Table α) (k : Nat) (v : α)
    (hk : ∀ p ∈ t, p.1 ≠ k) : get d (ins k v t) k = v := by
  induction t with
  | nil => simp [ins, get]
  | cons p t ih =>
    obtain ⟨k', w⟩ := p
    have h1 : k ≠ k' := fun e => hk (k', w) (by simp) e.symm
    by_cases hl : k < k'
    · simp [ins, hl, get]
    · simp [ins, hl, get, h1]
      exact ih (fun q hq => hk q (by simp [hq]))

theorem get_ins_ne {α : Type} (d : α) (t : Table α) (k j : Nat) (v : α) (h : j ≠ k) :
    get d (ins k v t) j = get d t j := by
  induction t with
  | nil => simp [ins, get, h]
  | cons p t ih =>
    obtain ⟨k', w⟩ := p
    by_cases hl : k < k'
    · simp [ins, hl, get, h]
    · by_cases hj : j = k' <;> simp [ins, hl, get, hj, ih]

theorem del_keys {α : Type} (t : Table α) (k : Nat) : ∀ p ∈ del k t, p.1 ≠ k := by
  induction t with
  | nil => simp [del]
  | cons p t ih =>
    obtain ⟨k', w⟩ := p
    by_cases hk : k = k'
    · simp only [del, if_pos hk]
      exact ih
    · simp only [del, hk, if_false, List.mem_cons]
      rintro q (rfl | hq)
      · exact fun e => hk e.symm
      · exact ih q hq

@[simp] theorem get_put_same {α : Type} (d : α) (t : Table α) (k : Nat) (v : α) : get d (put t k v) k = v :=
  get_ins_same d _ k v (del_keys t k)

theorem get_put_ne {α : Type} (d : α) (t : Table α) (k j : Nat) (v : α) (h : j ≠ k) :
    get d (put t k v) j = get d t j := by
  rw [put, get_ins_ne d _ k j v h, get_del_ne d t k j h]

@[simp] theorem get_set_same {α : Type} [DecidableEq α] (d : α) (t : Table α) (k : Nat) (v : α) :
    get d (set d t k v) k = v := by
  by_cases hv : v = d
  · simp [set, hv, get_del_same]
  · simp only [set, hv, if_false]
    exact get_put_same d t k v

theorem get_set_ne {α : Type} [DecidableEq α] (c d : α) (t : Table α) (k j : Nat) (v : α) (h : j ≠ k) :
    get c (set d t k v) j = get c t j := by
  by_cases hv : v = d
  · simp [set, hv, get_del_ne c t k j h]
  · simp only [set, hv, if_false]
    exact get_put_ne c t k j v h

@[simp] theorem get_nil {α : Type} (d : α) (k : Nat) : get d [] k = d := rfl

theorem above_del {α : Type} (a k : Nat) (t : Table α) (h : above a t = true) : above a (del k t) = true := by
  induction t with
  | nil => rfl
  | cons p t ih =>
    obtain ⟨k', w⟩ := p
    simp only [above, Bool.and_eq_true, decide_eq_true_eq] at h
    by_cases hk : k = k' <;> simp [del, hk, above, h.1]
    · simpa [hk] using ih h.2
    · exact ih h.2

theorem sorted_del {α : Type} (k : Nat) (t : Table α) (h : sorted t = true) : sorted (del k t) = true := by
  induction t with
  | nil => rfl
  | cons p t ih =>
    obtain ⟨k', w⟩ := p
    simp only [sorted, Bool.and_eq_true] at h
    by_cases hk : k = k'
    · simpa [del, hk] using (hk ▸ ih h.2)
    · simp [del, hk, sorted, above_del k' k t h.1, ih h.2]

theorem above_ins {α : Type} (a k : Nat) (v : α) (t : Table α) (h : above a t = true) (hk : a < k) :
    above a (ins k v t) = true := by
  induction t with
  | nil => simp [ins, above, hk]
  | cons p t ih =>
    obtain ⟨k', w⟩ := p
    simp only [above, Bool.and_eq_true, decide_eq_true_eq] at h
    by_cases hl : k < k' <;> simp [ins, hl, above, h.1, h.2, hk]
    exact ih h.2

theorem above_trans {α : Type} (a b : Nat) (t : Table α) (h : above b t = true) (hab : a < b) : above a t = true := by
  induction t with
  | nil => rfl
  | cons p t ih =>
    obtain ⟨k', w⟩ := p
    simp only [above, Bool.and_eq_true, decide_eq_true_eq] at h ⊢
    exact ⟨lt_trans hab h.1, ih h.2⟩

theorem sorted_ins {α : Type} (k : Nat) (v : α) (t : Table α) (h : sorted t = true) (hk : ∀ p ∈ t, p.1 ≠ k) :
    sorted (ins k v t) = true := by
  induction t with
  | nil => rfl
  | cons p t ih =>
    obtain ⟨k', w⟩ := p
    simp only [sorted, Bool.and_eq_true] at h
    have h1 : k' ≠ k := hk (k', w) (by simp)
    by_cases hl : k < k'
    · simp [ins, hl, sorted, above, h.1, h.2, above_trans k k' t h.1 hl]
    · simp only [ins, hl, if_false, sorted, Bool.and_eq_true]
      exact ⟨above_ins k' k v t h.1 (by omega), ih h.2 (fun q hq => hk q (by simp [hq]))⟩

theorem all_del {α : Type} (P : Nat × α → Bool) (k : Nat) (t : Table α) (h : t.all P = true) :
    (del k t).all P = true := by
  induction t with
  | nil => rfl
  | cons p t ih =>
    obtain ⟨k', w⟩ := p
    simp only [List.all_cons, Bool.and_eq_true] at h
    by_cases hk : k = k'
    · simp only [del, if_pos hk]
      exact ih h.2
    · simp only [del, hk, if_false, List.all_cons, h.1, Bool.true_and]
      exact ih h.2

theorem all_ins {α : Type} (P : Nat × α → Bool) (k : Nat) (v : α) (t : Table α) (h : t.all P = true)
    (hv : P (k, v) = true) : (ins k v t).all P = true := by
  induction t with
  | nil => simp [ins, hv]
  | cons p t ih =>
    obtain ⟨k', w⟩ := p
    simp only [List.all_cons, Bool.and_eq_true] at h
    by_cases hl : k < k'
    · simp [ins, hl, hv, h.1]
      simpa using h.2
    · simp only [ins, hl, if_false, List.all_cons, h.1, Bool.true_and]
      exact ih h.2

/-- A write keeps the keys strictly rising. -/
theorem sorted_put {α : Type} (t : Table α) (k : Nat) (v : α) (h : sorted t = true) : sorted (put t k v) = true :=
  sorted_ins k v _ (sorted_del k t h) (del_keys t k)

/-- A canonical write keeps the canonical form. -/
theorem wf_set {α : Type} [DecidableEq α] (d : α) (t : Table α) (k : Nat) (v : α) (h : wf d t = true) :
    wf d (set d t k v) = true := by
  simp only [wf, Bool.and_eq_true] at h ⊢
  by_cases hv : v = d
  · simp only [set, hv, if_true]
    exact ⟨sorted_del k t h.1, all_del _ k t h.2⟩
  · simp only [set, hv, if_false]
    exact ⟨sorted_ins k v _ (sorted_del k t h.1) (del_keys t k), all_ins _ k v _ (all_del _ k t h.2) (by simp [hv])⟩

theorem above_filter {α : Type} (a : Nat) (P : Nat × α → Bool) (t : Table α) (h : above a t = true) :
    above a (t.filter P) = true := by
  induction t with
  | nil => rfl
  | cons p t ih =>
    obtain ⟨k, w⟩ := p
    simp only [above, Bool.and_eq_true] at h
    by_cases hp : P (k, w) = true
    · simp only [List.filter_cons, hp, if_true, above, Bool.and_eq_true]
      exact ⟨h.1, ih h.2⟩
    · simp only [List.filter_cons, hp, Bool.false_eq_true, if_false]
      exact ih h.2

/-- Dropping entries keeps the keys strictly rising. -/
theorem sorted_filter {α : Type} (P : Nat × α → Bool) (t : Table α) (h : sorted t = true) :
    sorted (t.filter P) = true := by
  induction t with
  | nil => rfl
  | cons p t ih =>
    obtain ⟨k, w⟩ := p
    simp only [sorted, Bool.and_eq_true] at h
    by_cases hp : P (k, w) = true
    · simp only [List.filter_cons, hp, if_true, sorted, Bool.and_eq_true]
      exact ⟨above_filter k P t h.1, ih h.2⟩
    · simp only [List.filter_cons, hp, Bool.false_eq_true, if_false]
      exact ih h.2

/-- Dropping entries keeps the canonical form. -/
theorem wf_filter {α : Type} [DecidableEq α] (d : α) (P : Nat × α → Bool) (t : Table α) (h : wf d t = true) :
    wf d (t.filter P) = true := by
  simp only [wf, Bool.and_eq_true] at h ⊢
  refine ⟨sorted_filter P t h.1, ?_⟩
  rw [List.all_eq_true] at h ⊢
  exact fun p hp => h.2 p (List.mem_of_mem_filter hp)

theorem wf_nil {α : Type} [DecidableEq α] (d : α) : wf d ([] : Table α) = true := rfl

end Tbl
end Sys2Proof.Machine
end

