-- ==== Sys2Proof/Laws/State.lean ====
section
/-! SUPPORT. What the basic updates of State do: one lemma per field for each update, and the value of a register
field after a write. -/

set_option Elab.async false

namespace Sys2Proof.Machine

/-! ### The place of a register field -/

theorem Fld.ctorIdx_lt (f : Fld) : f.ctorIdx < 1024 := by cases f <;> decide

theorem Fld.hi_lt (f : Fld) : f.info.hi < 64 := by cases f <;> decide

theorem Fld.width_le (f : Fld) : f.width ≤ 64 := by
  have := f.hi_lt
  unfold Fld.width
  omega

theorem Fld.ctorIdx_inj {f g : Fld} (h : f.ctorIdx = g.ctorIdx) : f = g := by
  have := congrArg Fld.ofNat h
  simpa [Fld.ofNat_ctorIdx] using this

/-- Two fields share a place only when they are the same field of the same instance. -/
theorem fkey_inj {f g : Fld} {i j : Nat} (h : fkey f i = fkey g j) : f = g ∧ i = j := by
  have h1 := f.ctorIdx_lt
  have h2 := g.ctorIdx_lt
  unfold fkey at h
  have h3 : i = j := by omega
  exact ⟨Fld.ctorIdx_inj (by omega), h3⟩

/-! ### Reading a field after a write -/

/-- A field reads what was written, cut to its width. -/
@[simp] theorem State.fld_setFld_same (s : State) (f : Fld) (i v : Nat) : (s.setFld f i v).fld f i = v % 2 ^ f.width := by
  have h : v % 2 ^ f.width < 2 ^ 64 :=
    lt_of_lt_of_le (Nat.mod_lt _ (by positivity)) (Nat.pow_le_pow_right (by omega) f.width_le)
  unfold State.fld State.setFld
  rw [Tbl.get_set_same, BitVec.toNat_ofNat, Nat.mod_eq_of_lt h]

/-- A write to another field or another instance leaves a field as it was. -/
theorem State.fld_setFld_ne (s : State) (f g : Fld) (i j v : Nat) (h : ¬(f = g ∧ i = j)) :
    (s.setFld f i v).fld g j = s.fld g j := by
  have : fkey g j ≠ fkey f i := fun e => h ⟨(fkey_inj e).1.symm, (fkey_inj e).2.symm⟩
  unfold State.fld State.setFld
  rw [Tbl.get_set_ne _ _ _ _ _ _ this]

/-- A write to another field, by name. -/
@[simp] theorem State.fld_setFld_of_ne (s : State) {f g : Fld} (i j v : Nat) (h : f ≠ g) :
    (s.setFld f i v).fld g j = s.fld g j := s.fld_setFld_ne f g i j v (fun e => h e.1)

/-- A write to another instance. -/
theorem State.fld_setFld_inst (s : State) (f g : Fld) {i j : Nat} (v : Nat) (h : i ≠ j) :
    (s.setFld f i v).fld g j = s.fld g j := s.fld_setFld_ne f g i j v (fun e => h e.2)

@[simp] theorem State.flag_setFld_of_ne (s : State) {f g : Fld} (i j v : Nat) (h : f ≠ g) :
    (s.setFld f i v).flag g j = s.flag g j := by simp [State.flag, h]

/-! ### Reading a part of the state after its own update -/

@[simp] theorem State.til_setTil (s : State) (t : Nat) (x : Tiller) : (s.setTil t x).til t = x := by
  simp [State.til, State.setTil]

theorem State.til_setTil_ne (s : State) {t u : Nat} (x : Tiller) (h : u ≠ t) : (s.setTil t x).til u = s.til u := by
  simp [State.til, State.setTil, Tbl.get_put_ne _ _ _ _ _ h]

@[simp] theorem State.ring_setRing (s : State) (r : Nat) (x : Ring) : (s.setRing r x).ring r = x := by
  simp [State.ring, State.setRing]

theorem State.ring_setRing_ne (s : State) {r q : Nat} (x : Ring) (h : q ≠ r) : (s.setRing r x).ring q = s.ring q := by
  simp [State.ring, State.setRing, Tbl.get_put_ne _ _ _ _ _ h]

@[simp] theorem State.ctx_setCtx (s : State) (c : Nat) (x : Context) : (s.setCtx c x).ctx c = x := by
  simp [State.ctx, State.setCtx]

@[simp] theorem State.glume_setGlume (s : State) (p : Nat) (g : Glume) : (s.setGlume p g).glume p = g := by
  simp [State.glume, State.setGlume]

theorem State.glume_setGlume_ne (s : State) {p q : Nat} (g : Glume) (h : q ≠ p) :
    (s.setGlume p g).glume q = s.glume q := by
  simp [State.glume, State.setGlume, Tbl.get_put_ne _ _ _ _ _ h]

@[simp] theorem State.port_setPort (s : State) (p : Nat) (x : Port) : (s.setPort p x).port p = x := by
  simp [State.port, State.setPort]

@[simp] theorem State.sendFlow_setSendFlow (s : State) (k : Nat) (x : SendFlow) : (s.setSendFlow k x).sendFlow k = x := by
  simp [State.sendFlow, State.setSendFlow]

@[simp] theorem State.recvFlow_setRecvFlow (s : State) (k : Nat) (x : RecvFlow) : (s.setRecvFlow k x).recvFlow k = x := by
  simp [State.recvFlow, State.setRecvFlow]

/-- A byte of memory reads what was written. -/
@[simp] theorem State.peek_poke_same (s : State) (a : Nat) (b : Byte) : (s.poke a b).peek a = b := by
  simp [State.peek, State.poke]

/-- A write leaves every other byte alone. -/
theorem State.peek_poke_ne (s : State) {a c : Nat} (b : Byte) (h : c ≠ a) : (s.poke a b).peek c = s.peek c := by
  simp [State.peek, State.poke, Tbl.get_set_ne _ _ _ _ _ _ h]

/-! ### setFld -/

@[simp] theorem State.setFld_pending (s : State) (f : Fld) (i v : Nat) : (s.setFld f i v).pending = s.pending := rfl
@[simp] theorem State.setFld_held (s : State) (f : Fld) (i v : Nat) : (s.setFld f i v).held = s.held := rfl
@[simp] theorem State.setFld_readData (s : State) (f : Fld) (i v : Nat) : (s.setFld f i v).readData = s.readData := rfl
@[simp] theorem State.setFld_mem (s : State) (f : Fld) (i v : Nat) : (s.setFld f i v).mem = s.mem := rfl
@[simp] theorem State.setFld_poison (s : State) (f : Fld) (i v : Nat) : (s.setFld f i v).poison = s.poison := rfl
@[simp] theorem State.setFld_ecc (s : State) (f : Fld) (i v : Nat) : (s.setFld f i v).ecc = s.ecc := rfl
@[simp] theorem State.setFld_fresh (s : State) (f : Fld) (i v : Nat) : (s.setFld f i v).fresh = s.fresh := rfl
@[simp] theorem State.setFld_tillers (s : State) (f : Fld) (i v : Nat) : (s.setFld f i v).tillers = s.tillers := rfl
@[simp] theorem State.setFld_phys (s : State) (f : Fld) (i v : Nat) : (s.setFld f i v).phys = s.phys := rfl
@[simp] theorem State.setFld_absent (s : State) (f : Fld) (i v : Nat) : (s.setFld f i v).absent = s.absent := rfl
@[simp] theorem State.setFld_used (s : State) (f : Fld) (i v : Nat) : (s.setFld f i v).used = s.used := rfl
@[simp] theorem State.setFld_glumes (s : State) (f : Fld) (i v : Nat) : (s.setFld f i v).glumes = s.glumes := rfl
@[simp] theorem State.setFld_bank15 (s : State) (f : Fld) (i v : Nat) : (s.setFld f i v).bank15 = s.bank15 := rfl
@[simp] theorem State.setFld_gcaches (s : State) (f : Fld) (i v : Nat) : (s.setFld f i v).gcaches = s.gcaches := rfl
@[simp] theorem State.setFld_signals (s : State) (f : Fld) (i v : Nat) : (s.setFld f i v).signals = s.signals := rfl
@[simp] theorem State.setFld_adminPid (s : State) (f : Fld) (i v : Nat) : (s.setFld f i v).adminPid = s.adminPid := rfl
@[simp] theorem State.setFld_glmInval (s : State) (f : Fld) (i v : Nat) : (s.setFld f i v).glmInval = s.glmInval := rfl
@[simp] theorem State.setFld_barriers (s : State) (f : Fld) (i v : Nat) : (s.setFld f i v).barriers = s.barriers := rfl
@[simp] theorem State.setFld_contexts (s : State) (f : Fld) (i v : Nat) : (s.setFld f i v).contexts = s.contexts := rfl
@[simp] theorem State.setFld_msix (s : State) (f : Fld) (i v : Nat) : (s.setFld f i v).msix = s.msix := rfl
@[simp] theorem State.setFld_folds (s : State) (f : Fld) (i v : Nat) : (s.setFld f i v).folds = s.folds := rfl
@[simp] theorem State.setFld_rings (s : State) (f : Fld) (i v : Nat) : (s.setFld f i v).rings = s.rings := rfl
@[simp] theorem State.setFld_tlbs (s : State) (f : Fld) (i v : Nat) : (s.setFld f i v).tlbs = s.tlbs := rfl
@[simp] theorem State.setFld_engines (s : State) (f : Fld) (i v : Nat) : (s.setFld f i v).engines = s.engines := rfl
@[simp] theorem State.setFld_retired (s : State) (f : Fld) (i v : Nat) : (s.setFld f i v).retired = s.retired := rfl
@[simp] theorem State.setFld_rows (s : State) (f : Fld) (i v : Nat) : (s.setFld f i v).rows = s.rows := rfl
@[simp] theorem State.setFld_softRepairs (s : State) (f : Fld) (i v : Nat) : (s.setFld f i v).softRepairs = s.softRepairs := rfl
@[simp] theorem State.setFld_repairHard (s : State) (f : Fld) (i v : Nat) : (s.setFld f i v).repairHard = s.repairHard := rfl
@[simp] theorem State.setFld_memCtl (s : State) (f : Fld) (i v : Nat) : (s.setFld f i v).memCtl = s.memCtl := rfl
@[simp] theorem State.setFld_ports (s : State) (f : Fld) (i v : Nat) : (s.setFld f i v).ports = s.ports := rfl
@[simp] theorem State.setFld_sendFlows (s : State) (f : Fld) (i v : Nat) : (s.setFld f i v).sendFlows = s.sendFlows := rfl
@[simp] theorem State.setFld_recvFlows (s : State) (f : Fld) (i v : Nat) : (s.setFld f i v).recvFlows = s.recvFlows := rfl
@[simp] theorem State.setFld_inbufs (s : State) (f : Fld) (i v : Nat) : (s.setFld f i v).inbufs = s.inbufs := rfl
@[simp] theorem State.setFld_rrPtr (s : State) (f : Fld) (i v : Nat) : (s.setFld f i v).rrPtr = s.rrPtr := rfl
@[simp] theorem State.setFld_groups (s : State) (f : Fld) (i v : Nat) : (s.setFld f i v).groups = s.groups := rfl
@[simp] theorem State.setFld_logRecs (s : State) (f : Fld) (i v : Nat) : (s.setFld f i v).logRecs = s.logRecs := rfl
@[simp] theorem State.setFld_logPos (s : State) (f : Fld) (i v : Nat) : (s.setFld f i v).logPos = s.logPos := rfl
@[simp] theorem State.setFld_logUsed (s : State) (f : Fld) (i v : Nat) : (s.setFld f i v).logUsed = s.logUsed := rfl
@[simp] theorem State.setFld_logOvf (s : State) (f : Fld) (i v : Nat) : (s.setFld f i v).logOvf = s.logOvf := rfl
@[simp] theorem State.setFld_mirror (s : State) (f : Fld) (i v : Nat) : (s.setFld f i v).mirror = s.mirror := rfl
@[simp] theorem State.setFld_power (s : State) (f : Fld) (i v : Nat) : (s.setFld f i v).power = s.power := rfl
@[simp] theorem State.setFld_obs (s : State) (f : Fld) (i v : Nat) : (s.setFld f i v).obs = s.obs := rfl
@[simp] theorem State.setFld_audit (s : State) (f : Fld) (i v : Nat) : (s.setFld f i v).audit = s.audit := rfl
@[simp] theorem State.setFld_flash (s : State) (f : Fld) (i v : Nat) : (s.setFld f i v).flash = s.flash := rfl
@[simp] theorem State.setFld_auditPrev (s : State) (f : Fld) (i v : Nat) : (s.setFld f i v).auditPrev = s.auditPrev := rfl
@[simp] theorem State.setFld_flashed (s : State) (f : Fld) (i v : Nat) : (s.setFld f i v).flashed = s.flashed := rfl
@[simp] theorem State.setFld_out (s : State) (f : Fld) (i v : Nat) : (s.setFld f i v).out = s.out := rfl
@[simp] theorem State.setFld_til_eq (s : State) (f : Fld) (i v : Nat) (j : Nat) : (s.setFld f i v).til j = s.til j := rfl
@[simp] theorem State.setFld_ring_eq (s : State) (f : Fld) (i v : Nat) (j : Nat) : (s.setFld f i v).ring j = s.ring j := rfl
@[simp] theorem State.setFld_ctx_eq (s : State) (f : Fld) (i v : Nat) (j : Nat) : (s.setFld f i v).ctx j = s.ctx j := rfl
@[simp] theorem State.setFld_glume_eq (s : State) (f : Fld) (i v : Nat) (j : Nat) : (s.setFld f i v).glume j = s.glume j := rfl
@[simp] theorem State.setFld_sendFlow_eq (s : State) (f : Fld) (i v : Nat) (j : Nat) : (s.setFld f i v).sendFlow j = s.sendFlow j := rfl
@[simp] theorem State.setFld_recvFlow_eq (s : State) (f : Fld) (i v : Nat) (j : Nat) : (s.setFld f i v).recvFlow j = s.recvFlow j := rfl
@[simp] theorem State.setFld_port_eq (s : State) (f : Fld) (i v : Nat) (j : Nat) : (s.setFld f i v).port j = s.port j := rfl
@[simp] theorem State.setFld_peek_eq (s : State) (f : Fld) (i v : Nat) (j : Nat) : (s.setFld f i v).peek j = s.peek j := rfl

/-! ### setTil -/

@[simp] theorem State.setTil_pending (s : State) (t : Nat) (x : Tiller) : (s.setTil t x).pending = s.pending := rfl
@[simp] theorem State.setTil_regs (s : State) (t : Nat) (x : Tiller) : (s.setTil t x).regs = s.regs := rfl
@[simp] theorem State.setTil_held (s : State) (t : Nat) (x : Tiller) : (s.setTil t x).held = s.held := rfl
@[simp] theorem State.setTil_readData (s : State) (t : Nat) (x : Tiller) : (s.setTil t x).readData = s.readData := rfl
@[simp] theorem State.setTil_mem (s : State) (t : Nat) (x : Tiller) : (s.setTil t x).mem = s.mem := rfl
@[simp] theorem State.setTil_poison (s : State) (t : Nat) (x : Tiller) : (s.setTil t x).poison = s.poison := rfl
@[simp] theorem State.setTil_ecc (s : State) (t : Nat) (x : Tiller) : (s.setTil t x).ecc = s.ecc := rfl
@[simp] theorem State.setTil_fresh (s : State) (t : Nat) (x : Tiller) : (s.setTil t x).fresh = s.fresh := rfl
@[simp] theorem State.setTil_phys (s : State) (t : Nat) (x : Tiller) : (s.setTil t x).phys = s.phys := rfl
@[simp] theorem State.setTil_absent (s : State) (t : Nat) (x : Tiller) : (s.setTil t x).absent = s.absent := rfl
@[simp] theorem State.setTil_used (s : State) (t : Nat) (x : Tiller) : (s.setTil t x).used = s.used := rfl
@[simp] theorem State.setTil_glumes (s : State) (t : Nat) (x : Tiller) : (s.setTil t x).glumes = s.glumes := rfl
@[simp] theorem State.setTil_bank15 (s : State) (t : Nat) (x : Tiller) : (s.setTil t x).bank15 = s.bank15 := rfl
@[simp] theorem State.setTil_gcaches (s : State) (t : Nat) (x : Tiller) : (s.setTil t x).gcaches = s.gcaches := rfl
@[simp] theorem State.setTil_signals (s : State) (t : Nat) (x : Tiller) : (s.setTil t x).signals = s.signals := rfl
@[simp] theorem State.setTil_adminPid (s : State) (t : Nat) (x : Tiller) : (s.setTil t x).adminPid = s.adminPid := rfl
@[simp] theorem State.setTil_glmInval (s : State) (t : Nat) (x : Tiller) : (s.setTil t x).glmInval = s.glmInval := rfl
@[simp] theorem State.setTil_barriers (s : State) (t : Nat) (x : Tiller) : (s.setTil t x).barriers = s.barriers := rfl
@[simp] theorem State.setTil_contexts (s : State) (t : Nat) (x : Tiller) : (s.setTil t x).contexts = s.contexts := rfl
@[simp] theorem State.setTil_msix (s : State) (t : Nat) (x : Tiller) : (s.setTil t x).msix = s.msix := rfl
@[simp] theorem State.setTil_folds (s : State) (t : Nat) (x : Tiller) : (s.setTil t x).folds = s.folds := rfl
@[simp] theorem State.setTil_rings (s : State) (t : Nat) (x : Tiller) : (s.setTil t x).rings = s.rings := rfl
@[simp] theorem State.setTil_tlbs (s : State) (t : Nat) (x : Tiller) : (s.setTil t x).tlbs = s.tlbs := rfl
@[simp] theorem State.setTil_engines (s : State) (t : Nat) (x : Tiller) : (s.setTil t x).engines = s.engines := rfl
@[simp] theorem State.setTil_retired (s : State) (t : Nat) (x : Tiller) : (s.setTil t x).retired = s.retired := rfl
@[simp] theorem State.setTil_rows (s : State) (t : Nat) (x : Tiller) : (s.setTil t x).rows = s.rows := rfl
@[simp] theorem State.setTil_softRepairs (s : State) (t : Nat) (x : Tiller) : (s.setTil t x).softRepairs = s.softRepairs := rfl
@[simp] theorem State.setTil_repairHard (s : State) (t : Nat) (x : Tiller) : (s.setTil t x).repairHard = s.repairHard := rfl
@[simp] theorem State.setTil_memCtl (s : State) (t : Nat) (x : Tiller) : (s.setTil t x).memCtl = s.memCtl := rfl
@[simp] theorem State.setTil_ports (s : State) (t : Nat) (x : Tiller) : (s.setTil t x).ports = s.ports := rfl
@[simp] theorem State.setTil_sendFlows (s : State) (t : Nat) (x : Tiller) : (s.setTil t x).sendFlows = s.sendFlows := rfl
@[simp] theorem State.setTil_recvFlows (s : State) (t : Nat) (x : Tiller) : (s.setTil t x).recvFlows = s.recvFlows := rfl
@[simp] theorem State.setTil_inbufs (s : State) (t : Nat) (x : Tiller) : (s.setTil t x).inbufs = s.inbufs := rfl
@[simp] theorem State.setTil_rrPtr (s : State) (t : Nat) (x : Tiller) : (s.setTil t x).rrPtr = s.rrPtr := rfl
@[simp] theorem State.setTil_groups (s : State) (t : Nat) (x : Tiller) : (s.setTil t x).groups = s.groups := rfl
@[simp] theorem State.setTil_logRecs (s : State) (t : Nat) (x : Tiller) : (s.setTil t x).logRecs = s.logRecs := rfl
@[simp] theorem State.setTil_logPos (s : State) (t : Nat) (x : Tiller) : (s.setTil t x).logPos = s.logPos := rfl
@[simp] theorem State.setTil_logUsed (s : State) (t : Nat) (x : Tiller) : (s.setTil t x).logUsed = s.logUsed := rfl
@[simp] theorem State.setTil_logOvf (s : State) (t : Nat) (x : Tiller) : (s.setTil t x).logOvf = s.logOvf := rfl
@[simp] theorem State.setTil_mirror (s : State) (t : Nat) (x : Tiller) : (s.setTil t x).mirror = s.mirror := rfl
@[simp] theorem State.setTil_power (s : State) (t : Nat) (x : Tiller) : (s.setTil t x).power = s.power := rfl
@[simp] theorem State.setTil_obs (s : State) (t : Nat) (x : Tiller) : (s.setTil t x).obs = s.obs := rfl
@[simp] theorem State.setTil_audit (s : State) (t : Nat) (x : Tiller) : (s.setTil t x).audit = s.audit := rfl
@[simp] theorem State.setTil_flash (s : State) (t : Nat) (x : Tiller) : (s.setTil t x).flash = s.flash := rfl
@[simp] theorem State.setTil_auditPrev (s : State) (t : Nat) (x : Tiller) : (s.setTil t x).auditPrev = s.auditPrev := rfl
@[simp] theorem State.setTil_flashed (s : State) (t : Nat) (x : Tiller) : (s.setTil t x).flashed = s.flashed := rfl
@[simp] theorem State.setTil_out (s : State) (t : Nat) (x : Tiller) : (s.setTil t x).out = s.out := rfl
@[simp] theorem State.setTil_fld_eq (s : State) (t : Nat) (x : Tiller) (g : Fld) (j : Nat) : (s.setTil t x).fld g j = s.fld g j := rfl
@[simp] theorem State.setTil_flag_eq (s : State) (t : Nat) (x : Tiller) (g : Fld) (j : Nat) : (s.setTil t x).flag g j = s.flag g j := rfl
@[simp] theorem State.setTil_ring_eq (s : State) (t : Nat) (x : Tiller) (j : Nat) : (s.setTil t x).ring j = s.ring j := rfl
@[simp] theorem State.setTil_ctx_eq (s : State) (t : Nat) (x : Tiller) (j : Nat) : (s.setTil t x).ctx j = s.ctx j := rfl
@[simp] theorem State.setTil_glume_eq (s : State) (t : Nat) (x : Tiller) (j : Nat) : (s.setTil t x).glume j = s.glume j := rfl
@[simp] theorem State.setTil_sendFlow_eq (s : State) (t : Nat) (x : Tiller) (j : Nat) : (s.setTil t x).sendFlow j = s.sendFlow j := rfl
@[simp] theorem State.setTil_recvFlow_eq (s : State) (t : Nat) (x : Tiller) (j : Nat) : (s.setTil t x).recvFlow j = s.recvFlow j := rfl
@[simp] theorem State.setTil_port_eq (s : State) (t : Nat) (x : Tiller) (j : Nat) : (s.setTil t x).port j = s.port j := rfl
@[simp] theorem State.setTil_peek_eq (s : State) (t : Nat) (x : Tiller) (j : Nat) : (s.setTil t x).peek j = s.peek j := rfl

/-! ### setCtx -/

@[simp] theorem State.setCtx_pending (s : State) (c : Nat) (x : Context) : (s.setCtx c x).pending = s.pending := rfl
@[simp] theorem State.setCtx_regs (s : State) (c : Nat) (x : Context) : (s.setCtx c x).regs = s.regs := rfl
@[simp] theorem State.setCtx_held (s : State) (c : Nat) (x : Context) : (s.setCtx c x).held = s.held := rfl
@[simp] theorem State.setCtx_readData (s : State) (c : Nat) (x : Context) : (s.setCtx c x).readData = s.readData := rfl
@[simp] theorem State.setCtx_mem (s : State) (c : Nat) (x : Context) : (s.setCtx c x).mem = s.mem := rfl
@[simp] theorem State.setCtx_poison (s : State) (c : Nat) (x : Context) : (s.setCtx c x).poison = s.poison := rfl
@[simp] theorem State.setCtx_ecc (s : State) (c : Nat) (x : Context) : (s.setCtx c x).ecc = s.ecc := rfl
@[simp] theorem State.setCtx_fresh (s : State) (c : Nat) (x : Context) : (s.setCtx c x).fresh = s.fresh := rfl
@[simp] theorem State.setCtx_tillers (s : State) (c : Nat) (x : Context) : (s.setCtx c x).tillers = s.tillers := rfl
@[simp] theorem State.setCtx_phys (s : State) (c : Nat) (x : Context) : (s.setCtx c x).phys = s.phys := rfl
@[simp] theorem State.setCtx_absent (s : State) (c : Nat) (x : Context) : (s.setCtx c x).absent = s.absent := rfl
@[simp] theorem State.setCtx_used (s : State) (c : Nat) (x : Context) : (s.setCtx c x).used = s.used := rfl
@[simp] theorem State.setCtx_glumes (s : State) (c : Nat) (x : Context) : (s.setCtx c x).glumes = s.glumes := rfl
@[simp] theorem State.setCtx_bank15 (s : State) (c : Nat) (x : Context) : (s.setCtx c x).bank15 = s.bank15 := rfl
@[simp] theorem State.setCtx_gcaches (s : State) (c : Nat) (x : Context) : (s.setCtx c x).gcaches = s.gcaches := rfl
@[simp] theorem State.setCtx_signals (s : State) (c : Nat) (x : Context) : (s.setCtx c x).signals = s.signals := rfl
@[simp] theorem State.setCtx_adminPid (s : State) (c : Nat) (x : Context) : (s.setCtx c x).adminPid = s.adminPid := rfl
@[simp] theorem State.setCtx_glmInval (s : State) (c : Nat) (x : Context) : (s.setCtx c x).glmInval = s.glmInval := rfl
@[simp] theorem State.setCtx_barriers (s : State) (c : Nat) (x : Context) : (s.setCtx c x).barriers = s.barriers := rfl
@[simp] theorem State.setCtx_msix (s : State) (c : Nat) (x : Context) : (s.setCtx c x).msix = s.msix := rfl
@[simp] theorem State.setCtx_folds (s : State) (c : Nat) (x : Context) : (s.setCtx c x).folds = s.folds := rfl
@[simp] theorem State.setCtx_rings (s : State) (c : Nat) (x : Context) : (s.setCtx c x).rings = s.rings := rfl
@[simp] theorem State.setCtx_tlbs (s : State) (c : Nat) (x : Context) : (s.setCtx c x).tlbs = s.tlbs := rfl
@[simp] theorem State.setCtx_engines (s : State) (c : Nat) (x : Context) : (s.setCtx c x).engines = s.engines := rfl
@[simp] theorem State.setCtx_retired (s : State) (c : Nat) (x : Context) : (s.setCtx c x).retired = s.retired := rfl
@[simp] theorem State.setCtx_rows (s : State) (c : Nat) (x : Context) : (s.setCtx c x).rows = s.rows := rfl
@[simp] theorem State.setCtx_softRepairs (s : State) (c : Nat) (x : Context) : (s.setCtx c x).softRepairs = s.softRepairs := rfl
@[simp] theorem State.setCtx_repairHard (s : State) (c : Nat) (x : Context) : (s.setCtx c x).repairHard = s.repairHard := rfl
@[simp] theorem State.setCtx_memCtl (s : State) (c : Nat) (x : Context) : (s.setCtx c x).memCtl = s.memCtl := rfl
@[simp] theorem State.setCtx_ports (s : State) (c : Nat) (x : Context) : (s.setCtx c x).ports = s.ports := rfl
@[simp] theorem State.setCtx_sendFlows (s : State) (c : Nat) (x : Context) : (s.setCtx c x).sendFlows = s.sendFlows := rfl
@[simp] theorem State.setCtx_recvFlows (s : State) (c : Nat) (x : Context) : (s.setCtx c x).recvFlows = s.recvFlows := rfl
@[simp] theorem State.setCtx_inbufs (s : State) (c : Nat) (x : Context) : (s.setCtx c x).inbufs = s.inbufs := rfl
@[simp] theorem State.setCtx_rrPtr (s : State) (c : Nat) (x : Context) : (s.setCtx c x).rrPtr = s.rrPtr := rfl
@[simp] theorem State.setCtx_groups (s : State) (c : Nat) (x : Context) : (s.setCtx c x).groups = s.groups := rfl
@[simp] theorem State.setCtx_logRecs (s : State) (c : Nat) (x : Context) : (s.setCtx c x).logRecs = s.logRecs := rfl
@[simp] theorem State.setCtx_logPos (s : State) (c : Nat) (x : Context) : (s.setCtx c x).logPos = s.logPos := rfl
@[simp] theorem State.setCtx_logUsed (s : State) (c : Nat) (x : Context) : (s.setCtx c x).logUsed = s.logUsed := rfl
@[simp] theorem State.setCtx_logOvf (s : State) (c : Nat) (x : Context) : (s.setCtx c x).logOvf = s.logOvf := rfl
@[simp] theorem State.setCtx_mirror (s : State) (c : Nat) (x : Context) : (s.setCtx c x).mirror = s.mirror := rfl
@[simp] theorem State.setCtx_power (s : State) (c : Nat) (x : Context) : (s.setCtx c x).power = s.power := rfl
@[simp] theorem State.setCtx_obs (s : State) (c : Nat) (x : Context) : (s.setCtx c x).obs = s.obs := rfl
@[simp] theorem State.setCtx_audit (s : State) (c : Nat) (x : Context) : (s.setCtx c x).audit = s.audit := rfl
@[simp] theorem State.setCtx_flash (s : State) (c : Nat) (x : Context) : (s.setCtx c x).flash = s.flash := rfl
@[simp] theorem State.setCtx_auditPrev (s : State) (c : Nat) (x : Context) : (s.setCtx c x).auditPrev = s.auditPrev := rfl
@[simp] theorem State.setCtx_flashed (s : State) (c : Nat) (x : Context) : (s.setCtx c x).flashed = s.flashed := rfl
@[simp] theorem State.setCtx_out (s : State) (c : Nat) (x : Context) : (s.setCtx c x).out = s.out := rfl
@[simp] theorem State.setCtx_fld_eq (s : State) (c : Nat) (x : Context) (g : Fld) (j : Nat) : (s.setCtx c x).fld g j = s.fld g j := rfl
@[simp] theorem State.setCtx_flag_eq (s : State) (c : Nat) (x : Context) (g : Fld) (j : Nat) : (s.setCtx c x).flag g j = s.flag g j := rfl
@[simp] theorem State.setCtx_til_eq (s : State) (c : Nat) (x : Context) (j : Nat) : (s.setCtx c x).til j = s.til j := rfl
@[simp] theorem State.setCtx_ring_eq (s : State) (c : Nat) (x : Context) (j : Nat) : (s.setCtx c x).ring j = s.ring j := rfl
@[simp] theorem State.setCtx_glume_eq (s : State) (c : Nat) (x : Context) (j : Nat) : (s.setCtx c x).glume j = s.glume j := rfl
@[simp] theorem State.setCtx_sendFlow_eq (s : State) (c : Nat) (x : Context) (j : Nat) : (s.setCtx c x).sendFlow j = s.sendFlow j := rfl
@[simp] theorem State.setCtx_recvFlow_eq (s : State) (c : Nat) (x : Context) (j : Nat) : (s.setCtx c x).recvFlow j = s.recvFlow j := rfl
@[simp] theorem State.setCtx_port_eq (s : State) (c : Nat) (x : Context) (j : Nat) : (s.setCtx c x).port j = s.port j := rfl
@[simp] theorem State.setCtx_peek_eq (s : State) (c : Nat) (x : Context) (j : Nat) : (s.setCtx c x).peek j = s.peek j := rfl

/-! ### setRing -/

@[simp] theorem State.setRing_pending (s : State) (r : Nat) (x : Ring) : (s.setRing r x).pending = s.pending := rfl
@[simp] theorem State.setRing_regs (s : State) (r : Nat) (x : Ring) : (s.setRing r x).regs = s.regs := rfl
@[simp] theorem State.setRing_held (s : State) (r : Nat) (x : Ring) : (s.setRing r x).held = s.held := rfl
@[simp] theorem State.setRing_readData (s : State) (r : Nat) (x : Ring) : (s.setRing r x).readData = s.readData := rfl
@[simp] theorem State.setRing_mem (s : State) (r : Nat) (x : Ring) : (s.setRing r x).mem = s.mem := rfl
@[simp] theorem State.setRing_poison (s : State) (r : Nat) (x : Ring) : (s.setRing r x).poison = s.poison := rfl
@[simp] theorem State.setRing_ecc (s : State) (r : Nat) (x : Ring) : (s.setRing r x).ecc = s.ecc := rfl
@[simp] theorem State.setRing_fresh (s : State) (r : Nat) (x : Ring) : (s.setRing r x).fresh = s.fresh := rfl
@[simp] theorem State.setRing_tillers (s : State) (r : Nat) (x : Ring) : (s.setRing r x).tillers = s.tillers := rfl
@[simp] theorem State.setRing_phys (s : State) (r : Nat) (x : Ring) : (s.setRing r x).phys = s.phys := rfl
@[simp] theorem State.setRing_absent (s : State) (r : Nat) (x : Ring) : (s.setRing r x).absent = s.absent := rfl
@[simp] theorem State.setRing_used (s : State) (r : Nat) (x : Ring) : (s.setRing r x).used = s.used := rfl
@[simp] theorem State.setRing_glumes (s : State) (r : Nat) (x : Ring) : (s.setRing r x).glumes = s.glumes := rfl
@[simp] theorem State.setRing_bank15 (s : State) (r : Nat) (x : Ring) : (s.setRing r x).bank15 = s.bank15 := rfl
@[simp] theorem State.setRing_gcaches (s : State) (r : Nat) (x : Ring) : (s.setRing r x).gcaches = s.gcaches := rfl
@[simp] theorem State.setRing_signals (s : State) (r : Nat) (x : Ring) : (s.setRing r x).signals = s.signals := rfl
@[simp] theorem State.setRing_adminPid (s : State) (r : Nat) (x : Ring) : (s.setRing r x).adminPid = s.adminPid := rfl
@[simp] theorem State.setRing_glmInval (s : State) (r : Nat) (x : Ring) : (s.setRing r x).glmInval = s.glmInval := rfl
@[simp] theorem State.setRing_barriers (s : State) (r : Nat) (x : Ring) : (s.setRing r x).barriers = s.barriers := rfl
@[simp] theorem State.setRing_contexts (s : State) (r : Nat) (x : Ring) : (s.setRing r x).contexts = s.contexts := rfl
@[simp] theorem State.setRing_msix (s : State) (r : Nat) (x : Ring) : (s.setRing r x).msix = s.msix := rfl
@[simp] theorem State.setRing_folds (s : State) (r : Nat) (x : Ring) : (s.setRing r x).folds = s.folds := rfl
@[simp] theorem State.setRing_tlbs (s : State) (r : Nat) (x : Ring) : (s.setRing r x).tlbs = s.tlbs := rfl
@[simp] theorem State.setRing_engines (s : State) (r : Nat) (x : Ring) : (s.setRing r x).engines = s.engines := rfl
@[simp] theorem State.setRing_retired (s : State) (r : Nat) (x : Ring) : (s.setRing r x).retired = s.retired := rfl
@[simp] theorem State.setRing_rows (s : State) (r : Nat) (x : Ring) : (s.setRing r x).rows = s.rows := rfl
@[simp] theorem State.setRing_softRepairs (s : State) (r : Nat) (x : Ring) : (s.setRing r x).softRepairs = s.softRepairs := rfl
@[simp] theorem State.setRing_repairHard (s : State) (r : Nat) (x : Ring) : (s.setRing r x).repairHard = s.repairHard := rfl
@[simp] theorem State.setRing_memCtl (s : State) (r : Nat) (x : Ring) : (s.setRing r x).memCtl = s.memCtl := rfl
@[simp] theorem State.setRing_ports (s : State) (r : Nat) (x : Ring) : (s.setRing r x).ports = s.ports := rfl
@[simp] theorem State.setRing_sendFlows (s : State) (r : Nat) (x : Ring) : (s.setRing r x).sendFlows = s.sendFlows := rfl
@[simp] theorem State.setRing_recvFlows (s : State) (r : Nat) (x : Ring) : (s.setRing r x).recvFlows = s.recvFlows := rfl
@[simp] theorem State.setRing_inbufs (s : State) (r : Nat) (x : Ring) : (s.setRing r x).inbufs = s.inbufs := rfl
@[simp] theorem State.setRing_rrPtr (s : State) (r : Nat) (x : Ring) : (s.setRing r x).rrPtr = s.rrPtr := rfl
@[simp] theorem State.setRing_groups (s : State) (r : Nat) (x : Ring) : (s.setRing r x).groups = s.groups := rfl
@[simp] theorem State.setRing_logRecs (s : State) (r : Nat) (x : Ring) : (s.setRing r x).logRecs = s.logRecs := rfl
@[simp] theorem State.setRing_logPos (s : State) (r : Nat) (x : Ring) : (s.setRing r x).logPos = s.logPos := rfl
@[simp] theorem State.setRing_logUsed (s : State) (r : Nat) (x : Ring) : (s.setRing r x).logUsed = s.logUsed := rfl
@[simp] theorem State.setRing_logOvf (s : State) (r : Nat) (x : Ring) : (s.setRing r x).logOvf = s.logOvf := rfl
@[simp] theorem State.setRing_mirror (s : State) (r : Nat) (x : Ring) : (s.setRing r x).mirror = s.mirror := rfl
@[simp] theorem State.setRing_power (s : State) (r : Nat) (x : Ring) : (s.setRing r x).power = s.power := rfl
@[simp] theorem State.setRing_obs (s : State) (r : Nat) (x : Ring) : (s.setRing r x).obs = s.obs := rfl
@[simp] theorem State.setRing_audit (s : State) (r : Nat) (x : Ring) : (s.setRing r x).audit = s.audit := rfl
@[simp] theorem State.setRing_flash (s : State) (r : Nat) (x : Ring) : (s.setRing r x).flash = s.flash := rfl
@[simp] theorem State.setRing_auditPrev (s : State) (r : Nat) (x : Ring) : (s.setRing r x).auditPrev = s.auditPrev := rfl
@[simp] theorem State.setRing_flashed (s : State) (r : Nat) (x : Ring) : (s.setRing r x).flashed = s.flashed := rfl
@[simp] theorem State.setRing_out (s : State) (r : Nat) (x : Ring) : (s.setRing r x).out = s.out := rfl
@[simp] theorem State.setRing_fld_eq (s : State) (r : Nat) (x : Ring) (g : Fld) (j : Nat) : (s.setRing r x).fld g j = s.fld g j := rfl
@[simp] theorem State.setRing_flag_eq (s : State) (r : Nat) (x : Ring) (g : Fld) (j : Nat) : (s.setRing r x).flag g j = s.flag g j := rfl
@[simp] theorem State.setRing_til_eq (s : State) (r : Nat) (x : Ring) (j : Nat) : (s.setRing r x).til j = s.til j := rfl
@[simp] theorem State.setRing_ctx_eq (s : State) (r : Nat) (x : Ring) (j : Nat) : (s.setRing r x).ctx j = s.ctx j := rfl
@[simp] theorem State.setRing_glume_eq (s : State) (r : Nat) (x : Ring) (j : Nat) : (s.setRing r x).glume j = s.glume j := rfl
@[simp] theorem State.setRing_sendFlow_eq (s : State) (r : Nat) (x : Ring) (j : Nat) : (s.setRing r x).sendFlow j = s.sendFlow j := rfl
@[simp] theorem State.setRing_recvFlow_eq (s : State) (r : Nat) (x : Ring) (j : Nat) : (s.setRing r x).recvFlow j = s.recvFlow j := rfl
@[simp] theorem State.setRing_port_eq (s : State) (r : Nat) (x : Ring) (j : Nat) : (s.setRing r x).port j = s.port j := rfl
@[simp] theorem State.setRing_peek_eq (s : State) (r : Nat) (x : Ring) (j : Nat) : (s.setRing r x).peek j = s.peek j := rfl

/-! ### setGlume -/

@[simp] theorem State.setGlume_pending (s : State) (p : Nat) (y : Glume) : (s.setGlume p y).pending = s.pending := rfl
@[simp] theorem State.setGlume_regs (s : State) (p : Nat) (y : Glume) : (s.setGlume p y).regs = s.regs := rfl
@[simp] theorem State.setGlume_held (s : State) (p : Nat) (y : Glume) : (s.setGlume p y).held = s.held := rfl
@[simp] theorem State.setGlume_readData (s : State) (p : Nat) (y : Glume) : (s.setGlume p y).readData = s.readData := rfl
@[simp] theorem State.setGlume_mem (s : State) (p : Nat) (y : Glume) : (s.setGlume p y).mem = s.mem := rfl
@[simp] theorem State.setGlume_poison (s : State) (p : Nat) (y : Glume) : (s.setGlume p y).poison = s.poison := rfl
@[simp] theorem State.setGlume_ecc (s : State) (p : Nat) (y : Glume) : (s.setGlume p y).ecc = s.ecc := rfl
@[simp] theorem State.setGlume_fresh (s : State) (p : Nat) (y : Glume) : (s.setGlume p y).fresh = s.fresh := rfl
@[simp] theorem State.setGlume_tillers (s : State) (p : Nat) (y : Glume) : (s.setGlume p y).tillers = s.tillers := rfl
@[simp] theorem State.setGlume_phys (s : State) (p : Nat) (y : Glume) : (s.setGlume p y).phys = s.phys := rfl
@[simp] theorem State.setGlume_absent (s : State) (p : Nat) (y : Glume) : (s.setGlume p y).absent = s.absent := rfl
@[simp] theorem State.setGlume_used (s : State) (p : Nat) (y : Glume) : (s.setGlume p y).used = s.used := rfl
@[simp] theorem State.setGlume_bank15 (s : State) (p : Nat) (y : Glume) : (s.setGlume p y).bank15 = s.bank15 := rfl
@[simp] theorem State.setGlume_gcaches (s : State) (p : Nat) (y : Glume) : (s.setGlume p y).gcaches = s.gcaches := rfl
@[simp] theorem State.setGlume_signals (s : State) (p : Nat) (y : Glume) : (s.setGlume p y).signals = s.signals := rfl
@[simp] theorem State.setGlume_adminPid (s : State) (p : Nat) (y : Glume) : (s.setGlume p y).adminPid = s.adminPid := rfl
@[simp] theorem State.setGlume_glmInval (s : State) (p : Nat) (y : Glume) : (s.setGlume p y).glmInval = s.glmInval := rfl
@[simp] theorem State.setGlume_barriers (s : State) (p : Nat) (y : Glume) : (s.setGlume p y).barriers = s.barriers := rfl
@[simp] theorem State.setGlume_contexts (s : State) (p : Nat) (y : Glume) : (s.setGlume p y).contexts = s.contexts := rfl
@[simp] theorem State.setGlume_msix (s : State) (p : Nat) (y : Glume) : (s.setGlume p y).msix = s.msix := rfl
@[simp] theorem State.setGlume_folds (s : State) (p : Nat) (y : Glume) : (s.setGlume p y).folds = s.folds := rfl
@[simp] theorem State.setGlume_rings (s : State) (p : Nat) (y : Glume) : (s.setGlume p y).rings = s.rings := rfl
@[simp] theorem State.setGlume_tlbs (s : State) (p : Nat) (y : Glume) : (s.setGlume p y).tlbs = s.tlbs := rfl
@[simp] theorem State.setGlume_engines (s : State) (p : Nat) (y : Glume) : (s.setGlume p y).engines = s.engines := rfl
@[simp] theorem State.setGlume_retired (s : State) (p : Nat) (y : Glume) : (s.setGlume p y).retired = s.retired := rfl
@[simp] theorem State.setGlume_rows (s : State) (p : Nat) (y : Glume) : (s.setGlume p y).rows = s.rows := rfl
@[simp] theorem State.setGlume_softRepairs (s : State) (p : Nat) (y : Glume) : (s.setGlume p y).softRepairs = s.softRepairs := rfl
@[simp] theorem State.setGlume_repairHard (s : State) (p : Nat) (y : Glume) : (s.setGlume p y).repairHard = s.repairHard := rfl
@[simp] theorem State.setGlume_memCtl (s : State) (p : Nat) (y : Glume) : (s.setGlume p y).memCtl = s.memCtl := rfl
@[simp] theorem State.setGlume_ports (s : State) (p : Nat) (y : Glume) : (s.setGlume p y).ports = s.ports := rfl
@[simp] theorem State.setGlume_sendFlows (s : State) (p : Nat) (y : Glume) : (s.setGlume p y).sendFlows = s.sendFlows := rfl
@[simp] theorem State.setGlume_recvFlows (s : State) (p : Nat) (y : Glume) : (s.setGlume p y).recvFlows = s.recvFlows := rfl
@[simp] theorem State.setGlume_inbufs (s : State) (p : Nat) (y : Glume) : (s.setGlume p y).inbufs = s.inbufs := rfl
@[simp] theorem State.setGlume_rrPtr (s : State) (p : Nat) (y : Glume) : (s.setGlume p y).rrPtr = s.rrPtr := rfl
@[simp] theorem State.setGlume_groups (s : State) (p : Nat) (y : Glume) : (s.setGlume p y).groups = s.groups := rfl
@[simp] theorem State.setGlume_logRecs (s : State) (p : Nat) (y : Glume) : (s.setGlume p y).logRecs = s.logRecs := rfl
@[simp] theorem State.setGlume_logPos (s : State) (p : Nat) (y : Glume) : (s.setGlume p y).logPos = s.logPos := rfl
@[simp] theorem State.setGlume_logUsed (s : State) (p : Nat) (y : Glume) : (s.setGlume p y).logUsed = s.logUsed := rfl
@[simp] theorem State.setGlume_logOvf (s : State) (p : Nat) (y : Glume) : (s.setGlume p y).logOvf = s.logOvf := rfl
@[simp] theorem State.setGlume_mirror (s : State) (p : Nat) (y : Glume) : (s.setGlume p y).mirror = s.mirror := rfl
@[simp] theorem State.setGlume_power (s : State) (p : Nat) (y : Glume) : (s.setGlume p y).power = s.power := rfl
@[simp] theorem State.setGlume_obs (s : State) (p : Nat) (y : Glume) : (s.setGlume p y).obs = s.obs := rfl
@[simp] theorem State.setGlume_audit (s : State) (p : Nat) (y : Glume) : (s.setGlume p y).audit = s.audit := rfl
@[simp] theorem State.setGlume_flash (s : State) (p : Nat) (y : Glume) : (s.setGlume p y).flash = s.flash := rfl
@[simp] theorem State.setGlume_auditPrev (s : State) (p : Nat) (y : Glume) : (s.setGlume p y).auditPrev = s.auditPrev := rfl
@[simp] theorem State.setGlume_flashed (s : State) (p : Nat) (y : Glume) : (s.setGlume p y).flashed = s.flashed := rfl
@[simp] theorem State.setGlume_out (s : State) (p : Nat) (y : Glume) : (s.setGlume p y).out = s.out := rfl
@[simp] theorem State.setGlume_fld_eq (s : State) (p : Nat) (y : Glume) (g : Fld) (j : Nat) : (s.setGlume p y).fld g j = s.fld g j := rfl
@[simp] theorem State.setGlume_flag_eq (s : State) (p : Nat) (y : Glume) (g : Fld) (j : Nat) : (s.setGlume p y).flag g j = s.flag g j := rfl
@[simp] theorem State.setGlume_til_eq (s : State) (p : Nat) (y : Glume) (j : Nat) : (s.setGlume p y).til j = s.til j := rfl
@[simp] theorem State.setGlume_ring_eq (s : State) (p : Nat) (y : Glume) (j : Nat) : (s.setGlume p y).ring j = s.ring j := rfl
@[simp] theorem State.setGlume_ctx_eq (s : State) (p : Nat) (y : Glume) (j : Nat) : (s.setGlume p y).ctx j = s.ctx j := rfl
@[simp] theorem State.setGlume_sendFlow_eq (s : State) (p : Nat) (y : Glume) (j : Nat) : (s.setGlume p y).sendFlow j = s.sendFlow j := rfl
@[simp] theorem State.setGlume_recvFlow_eq (s : State) (p : Nat) (y : Glume) (j : Nat) : (s.setGlume p y).recvFlow j = s.recvFlow j := rfl
@[simp] theorem State.setGlume_port_eq (s : State) (p : Nat) (y : Glume) (j : Nat) : (s.setGlume p y).port j = s.port j := rfl
@[simp] theorem State.setGlume_peek_eq (s : State) (p : Nat) (y : Glume) (j : Nat) : (s.setGlume p y).peek j = s.peek j := rfl

/-! ### setSendFlow -/

@[simp] theorem State.setSendFlow_pending (s : State) (k : Nat) (x : SendFlow) : (s.setSendFlow k x).pending = s.pending := rfl
@[simp] theorem State.setSendFlow_regs (s : State) (k : Nat) (x : SendFlow) : (s.setSendFlow k x).regs = s.regs := rfl
@[simp] theorem State.setSendFlow_held (s : State) (k : Nat) (x : SendFlow) : (s.setSendFlow k x).held = s.held := rfl
@[simp] theorem State.setSendFlow_readData (s : State) (k : Nat) (x : SendFlow) : (s.setSendFlow k x).readData = s.readData := rfl
@[simp] theorem State.setSendFlow_mem (s : State) (k : Nat) (x : SendFlow) : (s.setSendFlow k x).mem = s.mem := rfl
@[simp] theorem State.setSendFlow_poison (s : State) (k : Nat) (x : SendFlow) : (s.setSendFlow k x).poison = s.poison := rfl
@[simp] theorem State.setSendFlow_ecc (s : State) (k : Nat) (x : SendFlow) : (s.setSendFlow k x).ecc = s.ecc := rfl
@[simp] theorem State.setSendFlow_fresh (s : State) (k : Nat) (x : SendFlow) : (s.setSendFlow k x).fresh = s.fresh := rfl
@[simp] theorem State.setSendFlow_tillers (s : State) (k : Nat) (x : SendFlow) : (s.setSendFlow k x).tillers = s.tillers := rfl
@[simp] theorem State.setSendFlow_phys (s : State) (k : Nat) (x : SendFlow) : (s.setSendFlow k x).phys = s.phys := rfl
@[simp] theorem State.setSendFlow_absent (s : State) (k : Nat) (x : SendFlow) : (s.setSendFlow k x).absent = s.absent := rfl
@[simp] theorem State.setSendFlow_used (s : State) (k : Nat) (x : SendFlow) : (s.setSendFlow k x).used = s.used := rfl
@[simp] theorem State.setSendFlow_glumes (s : State) (k : Nat) (x : SendFlow) : (s.setSendFlow k x).glumes = s.glumes := rfl
@[simp] theorem State.setSendFlow_bank15 (s : State) (k : Nat) (x : SendFlow) : (s.setSendFlow k x).bank15 = s.bank15 := rfl
@[simp] theorem State.setSendFlow_gcaches (s : State) (k : Nat) (x : SendFlow) : (s.setSendFlow k x).gcaches = s.gcaches := rfl
@[simp] theorem State.setSendFlow_signals (s : State) (k : Nat) (x : SendFlow) : (s.setSendFlow k x).signals = s.signals := rfl
@[simp] theorem State.setSendFlow_adminPid (s : State) (k : Nat) (x : SendFlow) : (s.setSendFlow k x).adminPid = s.adminPid := rfl
@[simp] theorem State.setSendFlow_glmInval (s : State) (k : Nat) (x : SendFlow) : (s.setSendFlow k x).glmInval = s.glmInval := rfl
@[simp] theorem State.setSendFlow_barriers (s : State) (k : Nat) (x : SendFlow) : (s.setSendFlow k x).barriers = s.barriers := rfl
@[simp] theorem State.setSendFlow_contexts (s : State) (k : Nat) (x : SendFlow) : (s.setSendFlow k x).contexts = s.contexts := rfl
@[simp] theorem State.setSendFlow_msix (s : State) (k : Nat) (x : SendFlow) : (s.setSendFlow k x).msix = s.msix := rfl
@[simp] theorem State.setSendFlow_folds (s : State) (k : Nat) (x : SendFlow) : (s.setSendFlow k x).folds = s.folds := rfl
@[simp] theorem State.setSendFlow_rings (s : State) (k : Nat) (x : SendFlow) : (s.setSendFlow k x).rings = s.rings := rfl
@[simp] theorem State.setSendFlow_tlbs (s : State) (k : Nat) (x : SendFlow) : (s.setSendFlow k x).tlbs = s.tlbs := rfl
@[simp] theorem State.setSendFlow_engines (s : State) (k : Nat) (x : SendFlow) : (s.setSendFlow k x).engines = s.engines := rfl
@[simp] theorem State.setSendFlow_retired (s : State) (k : Nat) (x : SendFlow) : (s.setSendFlow k x).retired = s.retired := rfl
@[simp] theorem State.setSendFlow_rows (s : State) (k : Nat) (x : SendFlow) : (s.setSendFlow k x).rows = s.rows := rfl
@[simp] theorem State.setSendFlow_softRepairs (s : State) (k : Nat) (x : SendFlow) : (s.setSendFlow k x).softRepairs = s.softRepairs := rfl
@[simp] theorem State.setSendFlow_repairHard (s : State) (k : Nat) (x : SendFlow) : (s.setSendFlow k x).repairHard = s.repairHard := rfl
@[simp] theorem State.setSendFlow_memCtl (s : State) (k : Nat) (x : SendFlow) : (s.setSendFlow k x).memCtl = s.memCtl := rfl
@[simp] theorem State.setSendFlow_ports (s : State) (k : Nat) (x : SendFlow) : (s.setSendFlow k x).ports = s.ports := rfl
@[simp] theorem State.setSendFlow_recvFlows (s : State) (k : Nat) (x : SendFlow) : (s.setSendFlow k x).recvFlows = s.recvFlows := rfl
@[simp] theorem State.setSendFlow_inbufs (s : State) (k : Nat) (x : SendFlow) : (s.setSendFlow k x).inbufs = s.inbufs := rfl
@[simp] theorem State.setSendFlow_rrPtr (s : State) (k : Nat) (x : SendFlow) : (s.setSendFlow k x).rrPtr = s.rrPtr := rfl
@[simp] theorem State.setSendFlow_groups (s : State) (k : Nat) (x : SendFlow) : (s.setSendFlow k x).groups = s.groups := rfl
@[simp] theorem State.setSendFlow_logRecs (s : State) (k : Nat) (x : SendFlow) : (s.setSendFlow k x).logRecs = s.logRecs := rfl
@[simp] theorem State.setSendFlow_logPos (s : State) (k : Nat) (x : SendFlow) : (s.setSendFlow k x).logPos = s.logPos := rfl
@[simp] theorem State.setSendFlow_logUsed (s : State) (k : Nat) (x : SendFlow) : (s.setSendFlow k x).logUsed = s.logUsed := rfl
@[simp] theorem State.setSendFlow_logOvf (s : State) (k : Nat) (x : SendFlow) : (s.setSendFlow k x).logOvf = s.logOvf := rfl
@[simp] theorem State.setSendFlow_mirror (s : State) (k : Nat) (x : SendFlow) : (s.setSendFlow k x).mirror = s.mirror := rfl
@[simp] theorem State.setSendFlow_power (s : State) (k : Nat) (x : SendFlow) : (s.setSendFlow k x).power = s.power := rfl
@[simp] theorem State.setSendFlow_obs (s : State) (k : Nat) (x : SendFlow) : (s.setSendFlow k x).obs = s.obs := rfl
@[simp] theorem State.setSendFlow_audit (s : State) (k : Nat) (x : SendFlow) : (s.setSendFlow k x).audit = s.audit := rfl
@[simp] theorem State.setSendFlow_flash (s : State) (k : Nat) (x : SendFlow) : (s.setSendFlow k x).flash = s.flash := rfl
@[simp] theorem State.setSendFlow_auditPrev (s : State) (k : Nat) (x : SendFlow) : (s.setSendFlow k x).auditPrev = s.auditPrev := rfl
@[simp] theorem State.setSendFlow_flashed (s : State) (k : Nat) (x : SendFlow) : (s.setSendFlow k x).flashed = s.flashed := rfl
@[simp] theorem State.setSendFlow_out (s : State) (k : Nat) (x : SendFlow) : (s.setSendFlow k x).out = s.out := rfl
@[simp] theorem State.setSendFlow_fld_eq (s : State) (k : Nat) (x : SendFlow) (g : Fld) (j : Nat) : (s.setSendFlow k x).fld g j = s.fld g j := rfl
@[simp] theorem State.setSendFlow_flag_eq (s : State) (k : Nat) (x : SendFlow) (g : Fld) (j : Nat) : (s.setSendFlow k x).flag g j = s.flag g j := rfl
@[simp] theorem State.setSendFlow_til_eq (s : State) (k : Nat) (x : SendFlow) (j : Nat) : (s.setSendFlow k x).til j = s.til j := rfl
@[simp] theorem State.setSendFlow_ring_eq (s : State) (k : Nat) (x : SendFlow) (j : Nat) : (s.setSendFlow k x).ring j = s.ring j := rfl
@[simp] theorem State.setSendFlow_ctx_eq (s : State) (k : Nat) (x : SendFlow) (j : Nat) : (s.setSendFlow k x).ctx j = s.ctx j := rfl
@[simp] theorem State.setSendFlow_glume_eq (s : State) (k : Nat) (x : SendFlow) (j : Nat) : (s.setSendFlow k x).glume j = s.glume j := rfl
@[simp] theorem State.setSendFlow_recvFlow_eq (s : State) (k : Nat) (x : SendFlow) (j : Nat) : (s.setSendFlow k x).recvFlow j = s.recvFlow j := rfl
@[simp] theorem State.setSendFlow_port_eq (s : State) (k : Nat) (x : SendFlow) (j : Nat) : (s.setSendFlow k x).port j = s.port j := rfl
@[simp] theorem State.setSendFlow_peek_eq (s : State) (k : Nat) (x : SendFlow) (j : Nat) : (s.setSendFlow k x).peek j = s.peek j := rfl

/-! ### setRecvFlow -/

@[simp] theorem State.setRecvFlow_pending (s : State) (k : Nat) (x : RecvFlow) : (s.setRecvFlow k x).pending = s.pending := rfl
@[simp] theorem State.setRecvFlow_regs (s : State) (k : Nat) (x : RecvFlow) : (s.setRecvFlow k x).regs = s.regs := rfl
@[simp] theorem State.setRecvFlow_held (s : State) (k : Nat) (x : RecvFlow) : (s.setRecvFlow k x).held = s.held := rfl
@[simp] theorem State.setRecvFlow_readData (s : State) (k : Nat) (x : RecvFlow) : (s.setRecvFlow k x).readData = s.readData := rfl
@[simp] theorem State.setRecvFlow_mem (s : State) (k : Nat) (x : RecvFlow) : (s.setRecvFlow k x).mem = s.mem := rfl
@[simp] theorem State.setRecvFlow_poison (s : State) (k : Nat) (x : RecvFlow) : (s.setRecvFlow k x).poison = s.poison := rfl
@[simp] theorem State.setRecvFlow_ecc (s : State) (k : Nat) (x : RecvFlow) : (s.setRecvFlow k x).ecc = s.ecc := rfl
@[simp] theorem State.setRecvFlow_fresh (s : State) (k : Nat) (x : RecvFlow) : (s.setRecvFlow k x).fresh = s.fresh := rfl
@[simp] theorem State.setRecvFlow_tillers (s : State) (k : Nat) (x : RecvFlow) : (s.setRecvFlow k x).tillers = s.tillers := rfl
@[simp] theorem State.setRecvFlow_phys (s : State) (k : Nat) (x : RecvFlow) : (s.setRecvFlow k x).phys = s.phys := rfl
@[simp] theorem State.setRecvFlow_absent (s : State) (k : Nat) (x : RecvFlow) : (s.setRecvFlow k x).absent = s.absent := rfl
@[simp] theorem State.setRecvFlow_used (s : State) (k : Nat) (x : RecvFlow) : (s.setRecvFlow k x).used = s.used := rfl
@[simp] theorem State.setRecvFlow_glumes (s : State) (k : Nat) (x : RecvFlow) : (s.setRecvFlow k x).glumes = s.glumes := rfl
@[simp] theorem State.setRecvFlow_bank15 (s : State) (k : Nat) (x : RecvFlow) : (s.setRecvFlow k x).bank15 = s.bank15 := rfl
@[simp] theorem State.setRecvFlow_gcaches (s : State) (k : Nat) (x : RecvFlow) : (s.setRecvFlow k x).gcaches = s.gcaches := rfl
@[simp] theorem State.setRecvFlow_signals (s : State) (k : Nat) (x : RecvFlow) : (s.setRecvFlow k x).signals = s.signals := rfl
@[simp] theorem State.setRecvFlow_adminPid (s : State) (k : Nat) (x : RecvFlow) : (s.setRecvFlow k x).adminPid = s.adminPid := rfl
@[simp] theorem State.setRecvFlow_glmInval (s : State) (k : Nat) (x : RecvFlow) : (s.setRecvFlow k x).glmInval = s.glmInval := rfl
@[simp] theorem State.setRecvFlow_barriers (s : State) (k : Nat) (x : RecvFlow) : (s.setRecvFlow k x).barriers = s.barriers := rfl
@[simp] theorem State.setRecvFlow_contexts (s : State) (k : Nat) (x : RecvFlow) : (s.setRecvFlow k x).contexts = s.contexts := rfl
@[simp] theorem State.setRecvFlow_msix (s : State) (k : Nat) (x : RecvFlow) : (s.setRecvFlow k x).msix = s.msix := rfl
@[simp] theorem State.setRecvFlow_folds (s : State) (k : Nat) (x : RecvFlow) : (s.setRecvFlow k x).folds = s.folds := rfl
@[simp] theorem State.setRecvFlow_rings (s : State) (k : Nat) (x : RecvFlow) : (s.setRecvFlow k x).rings = s.rings := rfl
@[simp] theorem State.setRecvFlow_tlbs (s : State) (k : Nat) (x : RecvFlow) : (s.setRecvFlow k x).tlbs = s.tlbs := rfl
@[simp] theorem State.setRecvFlow_engines (s : State) (k : Nat) (x : RecvFlow) : (s.setRecvFlow k x).engines = s.engines := rfl
@[simp] theorem State.setRecvFlow_retired (s : State) (k : Nat) (x : RecvFlow) : (s.setRecvFlow k x).retired = s.retired := rfl
@[simp] theorem State.setRecvFlow_rows (s : State) (k : Nat) (x : RecvFlow) : (s.setRecvFlow k x).rows = s.rows := rfl
@[simp] theorem State.setRecvFlow_softRepairs (s : State) (k : Nat) (x : RecvFlow) : (s.setRecvFlow k x).softRepairs = s.softRepairs := rfl
@[simp] theorem State.setRecvFlow_repairHard (s : State) (k : Nat) (x : RecvFlow) : (s.setRecvFlow k x).repairHard = s.repairHard := rfl
@[simp] theorem State.setRecvFlow_memCtl (s : State) (k : Nat) (x : RecvFlow) : (s.setRecvFlow k x).memCtl = s.memCtl := rfl
@[simp] theorem State.setRecvFlow_ports (s : State) (k : Nat) (x : RecvFlow) : (s.setRecvFlow k x).ports = s.ports := rfl
@[simp] theorem State.setRecvFlow_sendFlows (s : State) (k : Nat) (x : RecvFlow) : (s.setRecvFlow k x).sendFlows = s.sendFlows := rfl
@[simp] theorem State.setRecvFlow_inbufs (s : State) (k : Nat) (x : RecvFlow) : (s.setRecvFlow k x).inbufs = s.inbufs := rfl
@[simp] theorem State.setRecvFlow_rrPtr (s : State) (k : Nat) (x : RecvFlow) : (s.setRecvFlow k x).rrPtr = s.rrPtr := rfl
@[simp] theorem State.setRecvFlow_groups (s : State) (k : Nat) (x : RecvFlow) : (s.setRecvFlow k x).groups = s.groups := rfl
@[simp] theorem State.setRecvFlow_logRecs (s : State) (k : Nat) (x : RecvFlow) : (s.setRecvFlow k x).logRecs = s.logRecs := rfl
@[simp] theorem State.setRecvFlow_logPos (s : State) (k : Nat) (x : RecvFlow) : (s.setRecvFlow k x).logPos = s.logPos := rfl
@[simp] theorem State.setRecvFlow_logUsed (s : State) (k : Nat) (x : RecvFlow) : (s.setRecvFlow k x).logUsed = s.logUsed := rfl
@[simp] theorem State.setRecvFlow_logOvf (s : State) (k : Nat) (x : RecvFlow) : (s.setRecvFlow k x).logOvf = s.logOvf := rfl
@[simp] theorem State.setRecvFlow_mirror (s : State) (k : Nat) (x : RecvFlow) : (s.setRecvFlow k x).mirror = s.mirror := rfl
@[simp] theorem State.setRecvFlow_power (s : State) (k : Nat) (x : RecvFlow) : (s.setRecvFlow k x).power = s.power := rfl
@[simp] theorem State.setRecvFlow_obs (s : State) (k : Nat) (x : RecvFlow) : (s.setRecvFlow k x).obs = s.obs := rfl
@[simp] theorem State.setRecvFlow_audit (s : State) (k : Nat) (x : RecvFlow) : (s.setRecvFlow k x).audit = s.audit := rfl
@[simp] theorem State.setRecvFlow_flash (s : State) (k : Nat) (x : RecvFlow) : (s.setRecvFlow k x).flash = s.flash := rfl
@[simp] theorem State.setRecvFlow_auditPrev (s : State) (k : Nat) (x : RecvFlow) : (s.setRecvFlow k x).auditPrev = s.auditPrev := rfl
@[simp] theorem State.setRecvFlow_flashed (s : State) (k : Nat) (x : RecvFlow) : (s.setRecvFlow k x).flashed = s.flashed := rfl
@[simp] theorem State.setRecvFlow_out (s : State) (k : Nat) (x : RecvFlow) : (s.setRecvFlow k x).out = s.out := rfl
@[simp] theorem State.setRecvFlow_fld_eq (s : State) (k : Nat) (x : RecvFlow) (g : Fld) (j : Nat) : (s.setRecvFlow k x).fld g j = s.fld g j := rfl
@[simp] theorem State.setRecvFlow_flag_eq (s : State) (k : Nat) (x : RecvFlow) (g : Fld) (j : Nat) : (s.setRecvFlow k x).flag g j = s.flag g j := rfl
@[simp] theorem State.setRecvFlow_til_eq (s : State) (k : Nat) (x : RecvFlow) (j : Nat) : (s.setRecvFlow k x).til j = s.til j := rfl
@[simp] theorem State.setRecvFlow_ring_eq (s : State) (k : Nat) (x : RecvFlow) (j : Nat) : (s.setRecvFlow k x).ring j = s.ring j := rfl
@[simp] theorem State.setRecvFlow_ctx_eq (s : State) (k : Nat) (x : RecvFlow) (j : Nat) : (s.setRecvFlow k x).ctx j = s.ctx j := rfl
@[simp] theorem State.setRecvFlow_glume_eq (s : State) (k : Nat) (x : RecvFlow) (j : Nat) : (s.setRecvFlow k x).glume j = s.glume j := rfl
@[simp] theorem State.setRecvFlow_sendFlow_eq (s : State) (k : Nat) (x : RecvFlow) (j : Nat) : (s.setRecvFlow k x).sendFlow j = s.sendFlow j := rfl
@[simp] theorem State.setRecvFlow_port_eq (s : State) (k : Nat) (x : RecvFlow) (j : Nat) : (s.setRecvFlow k x).port j = s.port j := rfl
@[simp] theorem State.setRecvFlow_peek_eq (s : State) (k : Nat) (x : RecvFlow) (j : Nat) : (s.setRecvFlow k x).peek j = s.peek j := rfl

/-! ### setPort -/

@[simp] theorem State.setPort_pending (s : State) (p : Nat) (x : Port) : (s.setPort p x).pending = s.pending := rfl
@[simp] theorem State.setPort_regs (s : State) (p : Nat) (x : Port) : (s.setPort p x).regs = s.regs := rfl
@[simp] theorem State.setPort_held (s : State) (p : Nat) (x : Port) : (s.setPort p x).held = s.held := rfl
@[simp] theorem State.setPort_readData (s : State) (p : Nat) (x : Port) : (s.setPort p x).readData = s.readData := rfl
@[simp] theorem State.setPort_mem (s : State) (p : Nat) (x : Port) : (s.setPort p x).mem = s.mem := rfl
@[simp] theorem State.setPort_poison (s : State) (p : Nat) (x : Port) : (s.setPort p x).poison = s.poison := rfl
@[simp] theorem State.setPort_ecc (s : State) (p : Nat) (x : Port) : (s.setPort p x).ecc = s.ecc := rfl
@[simp] theorem State.setPort_fresh (s : State) (p : Nat) (x : Port) : (s.setPort p x).fresh = s.fresh := rfl
@[simp] theorem State.setPort_tillers (s : State) (p : Nat) (x : Port) : (s.setPort p x).tillers = s.tillers := rfl
@[simp] theorem State.setPort_phys (s : State) (p : Nat) (x : Port) : (s.setPort p x).phys = s.phys := rfl
@[simp] theorem State.setPort_absent (s : State) (p : Nat) (x : Port) : (s.setPort p x).absent = s.absent := rfl
@[simp] theorem State.setPort_used (s : State) (p : Nat) (x : Port) : (s.setPort p x).used = s.used := rfl
@[simp] theorem State.setPort_glumes (s : State) (p : Nat) (x : Port) : (s.setPort p x).glumes = s.glumes := rfl
@[simp] theorem State.setPort_bank15 (s : State) (p : Nat) (x : Port) : (s.setPort p x).bank15 = s.bank15 := rfl
@[simp] theorem State.setPort_gcaches (s : State) (p : Nat) (x : Port) : (s.setPort p x).gcaches = s.gcaches := rfl
@[simp] theorem State.setPort_signals (s : State) (p : Nat) (x : Port) : (s.setPort p x).signals = s.signals := rfl
@[simp] theorem State.setPort_adminPid (s : State) (p : Nat) (x : Port) : (s.setPort p x).adminPid = s.adminPid := rfl
@[simp] theorem State.setPort_glmInval (s : State) (p : Nat) (x : Port) : (s.setPort p x).glmInval = s.glmInval := rfl
@[simp] theorem State.setPort_barriers (s : State) (p : Nat) (x : Port) : (s.setPort p x).barriers = s.barriers := rfl
@[simp] theorem State.setPort_contexts (s : State) (p : Nat) (x : Port) : (s.setPort p x).contexts = s.contexts := rfl
@[simp] theorem State.setPort_msix (s : State) (p : Nat) (x : Port) : (s.setPort p x).msix = s.msix := rfl
@[simp] theorem State.setPort_folds (s : State) (p : Nat) (x : Port) : (s.setPort p x).folds = s.folds := rfl
@[simp] theorem State.setPort_rings (s : State) (p : Nat) (x : Port) : (s.setPort p x).rings = s.rings := rfl
@[simp] theorem State.setPort_tlbs (s : State) (p : Nat) (x : Port) : (s.setPort p x).tlbs = s.tlbs := rfl
@[simp] theorem State.setPort_engines (s : State) (p : Nat) (x : Port) : (s.setPort p x).engines = s.engines := rfl
@[simp] theorem State.setPort_retired (s : State) (p : Nat) (x : Port) : (s.setPort p x).retired = s.retired := rfl
@[simp] theorem State.setPort_rows (s : State) (p : Nat) (x : Port) : (s.setPort p x).rows = s.rows := rfl
@[simp] theorem State.setPort_softRepairs (s : State) (p : Nat) (x : Port) : (s.setPort p x).softRepairs = s.softRepairs := rfl
@[simp] theorem State.setPort_repairHard (s : State) (p : Nat) (x : Port) : (s.setPort p x).repairHard = s.repairHard := rfl
@[simp] theorem State.setPort_memCtl (s : State) (p : Nat) (x : Port) : (s.setPort p x).memCtl = s.memCtl := rfl
@[simp] theorem State.setPort_sendFlows (s : State) (p : Nat) (x : Port) : (s.setPort p x).sendFlows = s.sendFlows := rfl
@[simp] theorem State.setPort_recvFlows (s : State) (p : Nat) (x : Port) : (s.setPort p x).recvFlows = s.recvFlows := rfl
@[simp] theorem State.setPort_inbufs (s : State) (p : Nat) (x : Port) : (s.setPort p x).inbufs = s.inbufs := rfl
@[simp] theorem State.setPort_rrPtr (s : State) (p : Nat) (x : Port) : (s.setPort p x).rrPtr = s.rrPtr := rfl
@[simp] theorem State.setPort_groups (s : State) (p : Nat) (x : Port) : (s.setPort p x).groups = s.groups := rfl
@[simp] theorem State.setPort_logRecs (s : State) (p : Nat) (x : Port) : (s.setPort p x).logRecs = s.logRecs := rfl
@[simp] theorem State.setPort_logPos (s : State) (p : Nat) (x : Port) : (s.setPort p x).logPos = s.logPos := rfl
@[simp] theorem State.setPort_logUsed (s : State) (p : Nat) (x : Port) : (s.setPort p x).logUsed = s.logUsed := rfl
@[simp] theorem State.setPort_logOvf (s : State) (p : Nat) (x : Port) : (s.setPort p x).logOvf = s.logOvf := rfl
@[simp] theorem State.setPort_mirror (s : State) (p : Nat) (x : Port) : (s.setPort p x).mirror = s.mirror := rfl
@[simp] theorem State.setPort_power (s : State) (p : Nat) (x : Port) : (s.setPort p x).power = s.power := rfl
@[simp] theorem State.setPort_obs (s : State) (p : Nat) (x : Port) : (s.setPort p x).obs = s.obs := rfl
@[simp] theorem State.setPort_audit (s : State) (p : Nat) (x : Port) : (s.setPort p x).audit = s.audit := rfl
@[simp] theorem State.setPort_flash (s : State) (p : Nat) (x : Port) : (s.setPort p x).flash = s.flash := rfl
@[simp] theorem State.setPort_auditPrev (s : State) (p : Nat) (x : Port) : (s.setPort p x).auditPrev = s.auditPrev := rfl
@[simp] theorem State.setPort_flashed (s : State) (p : Nat) (x : Port) : (s.setPort p x).flashed = s.flashed := rfl
@[simp] theorem State.setPort_out (s : State) (p : Nat) (x : Port) : (s.setPort p x).out = s.out := rfl
@[simp] theorem State.setPort_fld_eq (s : State) (p : Nat) (x : Port) (g : Fld) (j : Nat) : (s.setPort p x).fld g j = s.fld g j := rfl
@[simp] theorem State.setPort_flag_eq (s : State) (p : Nat) (x : Port) (g : Fld) (j : Nat) : (s.setPort p x).flag g j = s.flag g j := rfl
@[simp] theorem State.setPort_til_eq (s : State) (p : Nat) (x : Port) (j : Nat) : (s.setPort p x).til j = s.til j := rfl
@[simp] theorem State.setPort_ring_eq (s : State) (p : Nat) (x : Port) (j : Nat) : (s.setPort p x).ring j = s.ring j := rfl
@[simp] theorem State.setPort_ctx_eq (s : State) (p : Nat) (x : Port) (j : Nat) : (s.setPort p x).ctx j = s.ctx j := rfl
@[simp] theorem State.setPort_glume_eq (s : State) (p : Nat) (x : Port) (j : Nat) : (s.setPort p x).glume j = s.glume j := rfl
@[simp] theorem State.setPort_sendFlow_eq (s : State) (p : Nat) (x : Port) (j : Nat) : (s.setPort p x).sendFlow j = s.sendFlow j := rfl
@[simp] theorem State.setPort_recvFlow_eq (s : State) (p : Nat) (x : Port) (j : Nat) : (s.setPort p x).recvFlow j = s.recvFlow j := rfl
@[simp] theorem State.setPort_peek_eq (s : State) (p : Nat) (x : Port) (j : Nat) : (s.setPort p x).peek j = s.peek j := rfl

/-! ### setPoison -/

@[simp] theorem State.setPoison_pending (s : State) (k : Nat) (b : Bool) : (s.setPoison k b).pending = s.pending := rfl
@[simp] theorem State.setPoison_regs (s : State) (k : Nat) (b : Bool) : (s.setPoison k b).regs = s.regs := rfl
@[simp] theorem State.setPoison_held (s : State) (k : Nat) (b : Bool) : (s.setPoison k b).held = s.held := rfl
@[simp] theorem State.setPoison_readData (s : State) (k : Nat) (b : Bool) : (s.setPoison k b).readData = s.readData := rfl
@[simp] theorem State.setPoison_mem (s : State) (k : Nat) (b : Bool) : (s.setPoison k b).mem = s.mem := rfl
@[simp] theorem State.setPoison_ecc (s : State) (k : Nat) (b : Bool) : (s.setPoison k b).ecc = s.ecc := rfl
@[simp] theorem State.setPoison_fresh (s : State) (k : Nat) (b : Bool) : (s.setPoison k b).fresh = s.fresh := rfl
@[simp] theorem State.setPoison_tillers (s : State) (k : Nat) (b : Bool) : (s.setPoison k b).tillers = s.tillers := rfl
@[simp] theorem State.setPoison_phys (s : State) (k : Nat) (b : Bool) : (s.setPoison k b).phys = s.phys := rfl
@[simp] theorem State.setPoison_absent (s : State) (k : Nat) (b : Bool) : (s.setPoison k b).absent = s.absent := rfl
@[simp] theorem State.setPoison_used (s : State) (k : Nat) (b : Bool) : (s.setPoison k b).used = s.used := rfl
@[simp] theorem State.setPoison_glumes (s : State) (k : Nat) (b : Bool) : (s.setPoison k b).glumes = s.glumes := rfl
@[simp] theorem State.setPoison_bank15 (s : State) (k : Nat) (b : Bool) : (s.setPoison k b).bank15 = s.bank15 := rfl
@[simp] theorem State.setPoison_gcaches (s : State) (k : Nat) (b : Bool) : (s.setPoison k b).gcaches = s.gcaches := rfl
@[simp] theorem State.setPoison_signals (s : State) (k : Nat) (b : Bool) : (s.setPoison k b).signals = s.signals := rfl
@[simp] theorem State.setPoison_adminPid (s : State) (k : Nat) (b : Bool) : (s.setPoison k b).adminPid = s.adminPid := rfl
@[simp] theorem State.setPoison_glmInval (s : State) (k : Nat) (b : Bool) : (s.setPoison k b).glmInval = s.glmInval := rfl
@[simp] theorem State.setPoison_barriers (s : State) (k : Nat) (b : Bool) : (s.setPoison k b).barriers = s.barriers := rfl
@[simp] theorem State.setPoison_contexts (s : State) (k : Nat) (b : Bool) : (s.setPoison k b).contexts = s.contexts := rfl
@[simp] theorem State.setPoison_msix (s : State) (k : Nat) (b : Bool) : (s.setPoison k b).msix = s.msix := rfl
@[simp] theorem State.setPoison_folds (s : State) (k : Nat) (b : Bool) : (s.setPoison k b).folds = s.folds := rfl
@[simp] theorem State.setPoison_rings (s : State) (k : Nat) (b : Bool) : (s.setPoison k b).rings = s.rings := rfl
@[simp] theorem State.setPoison_tlbs (s : State) (k : Nat) (b : Bool) : (s.setPoison k b).tlbs = s.tlbs := rfl
@[simp] theorem State.setPoison_engines (s : State) (k : Nat) (b : Bool) : (s.setPoison k b).engines = s.engines := rfl
@[simp] theorem State.setPoison_retired (s : State) (k : Nat) (b : Bool) : (s.setPoison k b).retired = s.retired := rfl
@[simp] theorem State.setPoison_rows (s : State) (k : Nat) (b : Bool) : (s.setPoison k b).rows = s.rows := rfl
@[simp] theorem State.setPoison_softRepairs (s : State) (k : Nat) (b : Bool) : (s.setPoison k b).softRepairs = s.softRepairs := rfl
@[simp] theorem State.setPoison_repairHard (s : State) (k : Nat) (b : Bool) : (s.setPoison k b).repairHard = s.repairHard := rfl
@[simp] theorem State.setPoison_ports (s : State) (k : Nat) (b : Bool) : (s.setPoison k b).ports = s.ports := rfl
@[simp] theorem State.setPoison_sendFlows (s : State) (k : Nat) (b : Bool) : (s.setPoison k b).sendFlows = s.sendFlows := rfl
@[simp] theorem State.setPoison_recvFlows (s : State) (k : Nat) (b : Bool) : (s.setPoison k b).recvFlows = s.recvFlows := rfl
@[simp] theorem State.setPoison_inbufs (s : State) (k : Nat) (b : Bool) : (s.setPoison k b).inbufs = s.inbufs := rfl
@[simp] theorem State.setPoison_rrPtr (s : State) (k : Nat) (b : Bool) : (s.setPoison k b).rrPtr = s.rrPtr := rfl
@[simp] theorem State.setPoison_groups (s : State) (k : Nat) (b : Bool) : (s.setPoison k b).groups = s.groups := rfl
@[simp] theorem State.setPoison_logRecs (s : State) (k : Nat) (b : Bool) : (s.setPoison k b).logRecs = s.logRecs := rfl
@[simp] theorem State.setPoison_logPos (s : State) (k : Nat) (b : Bool) : (s.setPoison k b).logPos = s.logPos := rfl
@[simp] theorem State.setPoison_logUsed (s : State) (k : Nat) (b : Bool) : (s.setPoison k b).logUsed = s.logUsed := rfl
@[simp] theorem State.setPoison_logOvf (s : State) (k : Nat) (b : Bool) : (s.setPoison k b).logOvf = s.logOvf := rfl
@[simp] theorem State.setPoison_mirror (s : State) (k : Nat) (b : Bool) : (s.setPoison k b).mirror = s.mirror := rfl
@[simp] theorem State.setPoison_power (s : State) (k : Nat) (b : Bool) : (s.setPoison k b).power = s.power := rfl
@[simp] theorem State.setPoison_obs (s : State) (k : Nat) (b : Bool) : (s.setPoison k b).obs = s.obs := rfl
@[simp] theorem State.setPoison_audit (s : State) (k : Nat) (b : Bool) : (s.setPoison k b).audit = s.audit := rfl
@[simp] theorem State.setPoison_flash (s : State) (k : Nat) (b : Bool) : (s.setPoison k b).flash = s.flash := rfl
@[simp] theorem State.setPoison_auditPrev (s : State) (k : Nat) (b : Bool) : (s.setPoison k b).auditPrev = s.auditPrev := rfl
@[simp] theorem State.setPoison_flashed (s : State) (k : Nat) (b : Bool) : (s.setPoison k b).flashed = s.flashed := rfl
@[simp] theorem State.setPoison_out (s : State) (k : Nat) (b : Bool) : (s.setPoison k b).out = s.out := rfl
@[simp] theorem State.setPoison_fld_eq (s : State) (k : Nat) (b : Bool) (g : Fld) (j : Nat) : (s.setPoison k b).fld g j = s.fld g j := rfl
@[simp] theorem State.setPoison_flag_eq (s : State) (k : Nat) (b : Bool) (g : Fld) (j : Nat) : (s.setPoison k b).flag g j = s.flag g j := rfl
@[simp] theorem State.setPoison_til_eq (s : State) (k : Nat) (b : Bool) (j : Nat) : (s.setPoison k b).til j = s.til j := rfl
@[simp] theorem State.setPoison_ring_eq (s : State) (k : Nat) (b : Bool) (j : Nat) : (s.setPoison k b).ring j = s.ring j := rfl
@[simp] theorem State.setPoison_ctx_eq (s : State) (k : Nat) (b : Bool) (j : Nat) : (s.setPoison k b).ctx j = s.ctx j := rfl
@[simp] theorem State.setPoison_glume_eq (s : State) (k : Nat) (b : Bool) (j : Nat) : (s.setPoison k b).glume j = s.glume j := rfl
@[simp] theorem State.setPoison_sendFlow_eq (s : State) (k : Nat) (b : Bool) (j : Nat) : (s.setPoison k b).sendFlow j = s.sendFlow j := rfl
@[simp] theorem State.setPoison_recvFlow_eq (s : State) (k : Nat) (b : Bool) (j : Nat) : (s.setPoison k b).recvFlow j = s.recvFlow j := rfl
@[simp] theorem State.setPoison_port_eq (s : State) (k : Nat) (b : Bool) (j : Nat) : (s.setPoison k b).port j = s.port j := rfl
@[simp] theorem State.setPoison_peek_eq (s : State) (k : Nat) (b : Bool) (j : Nat) : (s.setPoison k b).peek j = s.peek j := rfl

/-! ### setEcc -/

@[simp] theorem State.setEcc_pending (s : State) (k : Nat) (e : EccErr) : (s.setEcc k e).pending = s.pending := rfl
@[simp] theorem State.setEcc_regs (s : State) (k : Nat) (e : EccErr) : (s.setEcc k e).regs = s.regs := rfl
@[simp] theorem State.setEcc_held (s : State) (k : Nat) (e : EccErr) : (s.setEcc k e).held = s.held := rfl
@[simp] theorem State.setEcc_readData (s : State) (k : Nat) (e : EccErr) : (s.setEcc k e).readData = s.readData := rfl
@[simp] theorem State.setEcc_mem (s : State) (k : Nat) (e : EccErr) : (s.setEcc k e).mem = s.mem := rfl
@[simp] theorem State.setEcc_poison (s : State) (k : Nat) (e : EccErr) : (s.setEcc k e).poison = s.poison := rfl
@[simp] theorem State.setEcc_fresh (s : State) (k : Nat) (e : EccErr) : (s.setEcc k e).fresh = s.fresh := rfl
@[simp] theorem State.setEcc_tillers (s : State) (k : Nat) (e : EccErr) : (s.setEcc k e).tillers = s.tillers := rfl
@[simp] theorem State.setEcc_phys (s : State) (k : Nat) (e : EccErr) : (s.setEcc k e).phys = s.phys := rfl
@[simp] theorem State.setEcc_absent (s : State) (k : Nat) (e : EccErr) : (s.setEcc k e).absent = s.absent := rfl
@[simp] theorem State.setEcc_used (s : State) (k : Nat) (e : EccErr) : (s.setEcc k e).used = s.used := rfl
@[simp] theorem State.setEcc_glumes (s : State) (k : Nat) (e : EccErr) : (s.setEcc k e).glumes = s.glumes := rfl
@[simp] theorem State.setEcc_bank15 (s : State) (k : Nat) (e : EccErr) : (s.setEcc k e).bank15 = s.bank15 := rfl
@[simp] theorem State.setEcc_gcaches (s : State) (k : Nat) (e : EccErr) : (s.setEcc k e).gcaches = s.gcaches := rfl
@[simp] theorem State.setEcc_signals (s : State) (k : Nat) (e : EccErr) : (s.setEcc k e).signals = s.signals := rfl
@[simp] theorem State.setEcc_adminPid (s : State) (k : Nat) (e : EccErr) : (s.setEcc k e).adminPid = s.adminPid := rfl
@[simp] theorem State.setEcc_glmInval (s : State) (k : Nat) (e : EccErr) : (s.setEcc k e).glmInval = s.glmInval := rfl
@[simp] theorem State.setEcc_barriers (s : State) (k : Nat) (e : EccErr) : (s.setEcc k e).barriers = s.barriers := rfl
@[simp] theorem State.setEcc_contexts (s : State) (k : Nat) (e : EccErr) : (s.setEcc k e).contexts = s.contexts := rfl
@[simp] theorem State.setEcc_msix (s : State) (k : Nat) (e : EccErr) : (s.setEcc k e).msix = s.msix := rfl
@[simp] theorem State.setEcc_folds (s : State) (k : Nat) (e : EccErr) : (s.setEcc k e).folds = s.folds := rfl
@[simp] theorem State.setEcc_rings (s : State) (k : Nat) (e : EccErr) : (s.setEcc k e).rings = s.rings := rfl
@[simp] theorem State.setEcc_tlbs (s : State) (k : Nat) (e : EccErr) : (s.setEcc k e).tlbs = s.tlbs := rfl
@[simp] theorem State.setEcc_engines (s : State) (k : Nat) (e : EccErr) : (s.setEcc k e).engines = s.engines := rfl
@[simp] theorem State.setEcc_retired (s : State) (k : Nat) (e : EccErr) : (s.setEcc k e).retired = s.retired := rfl
@[simp] theorem State.setEcc_rows (s : State) (k : Nat) (e : EccErr) : (s.setEcc k e).rows = s.rows := rfl
@[simp] theorem State.setEcc_softRepairs (s : State) (k : Nat) (e : EccErr) : (s.setEcc k e).softRepairs = s.softRepairs := rfl
@[simp] theorem State.setEcc_repairHard (s : State) (k : Nat) (e : EccErr) : (s.setEcc k e).repairHard = s.repairHard := rfl
@[simp] theorem State.setEcc_memCtl (s : State) (k : Nat) (e : EccErr) : (s.setEcc k e).memCtl = s.memCtl := rfl
@[simp] theorem State.setEcc_ports (s : State) (k : Nat) (e : EccErr) : (s.setEcc k e).ports = s.ports := rfl
@[simp] theorem State.setEcc_sendFlows (s : State) (k : Nat) (e : EccErr) : (s.setEcc k e).sendFlows = s.sendFlows := rfl
@[simp] theorem State.setEcc_recvFlows (s : State) (k : Nat) (e : EccErr) : (s.setEcc k e).recvFlows = s.recvFlows := rfl
@[simp] theorem State.setEcc_inbufs (s : State) (k : Nat) (e : EccErr) : (s.setEcc k e).inbufs = s.inbufs := rfl
@[simp] theorem State.setEcc_rrPtr (s : State) (k : Nat) (e : EccErr) : (s.setEcc k e).rrPtr = s.rrPtr := rfl
@[simp] theorem State.setEcc_groups (s : State) (k : Nat) (e : EccErr) : (s.setEcc k e).groups = s.groups := rfl
@[simp] theorem State.setEcc_logRecs (s : State) (k : Nat) (e : EccErr) : (s.setEcc k e).logRecs = s.logRecs := rfl
@[simp] theorem State.setEcc_logPos (s : State) (k : Nat) (e : EccErr) : (s.setEcc k e).logPos = s.logPos := rfl
@[simp] theorem State.setEcc_logUsed (s : State) (k : Nat) (e : EccErr) : (s.setEcc k e).logUsed = s.logUsed := rfl
@[simp] theorem State.setEcc_logOvf (s : State) (k : Nat) (e : EccErr) : (s.setEcc k e).logOvf = s.logOvf := rfl
@[simp] theorem State.setEcc_mirror (s : State) (k : Nat) (e : EccErr) : (s.setEcc k e).mirror = s.mirror := rfl
@[simp] theorem State.setEcc_power (s : State) (k : Nat) (e : EccErr) : (s.setEcc k e).power = s.power := rfl
@[simp] theorem State.setEcc_obs (s : State) (k : Nat) (e : EccErr) : (s.setEcc k e).obs = s.obs := rfl
@[simp] theorem State.setEcc_audit (s : State) (k : Nat) (e : EccErr) : (s.setEcc k e).audit = s.audit := rfl
@[simp] theorem State.setEcc_flash (s : State) (k : Nat) (e : EccErr) : (s.setEcc k e).flash = s.flash := rfl
@[simp] theorem State.setEcc_auditPrev (s : State) (k : Nat) (e : EccErr) : (s.setEcc k e).auditPrev = s.auditPrev := rfl
@[simp] theorem State.setEcc_flashed (s : State) (k : Nat) (e : EccErr) : (s.setEcc k e).flashed = s.flashed := rfl
@[simp] theorem State.setEcc_out (s : State) (k : Nat) (e : EccErr) : (s.setEcc k e).out = s.out := rfl
@[simp] theorem State.setEcc_fld_eq (s : State) (k : Nat) (e : EccErr) (g : Fld) (j : Nat) : (s.setEcc k e).fld g j = s.fld g j := rfl
@[simp] theorem State.setEcc_flag_eq (s : State) (k : Nat) (e : EccErr) (g : Fld) (j : Nat) : (s.setEcc k e).flag g j = s.flag g j := rfl
@[simp] theorem State.setEcc_til_eq (s : State) (k : Nat) (e : EccErr) (j : Nat) : (s.setEcc k e).til j = s.til j := rfl
@[simp] theorem State.setEcc_ring_eq (s : State) (k : Nat) (e : EccErr) (j : Nat) : (s.setEcc k e).ring j = s.ring j := rfl
@[simp] theorem State.setEcc_ctx_eq (s : State) (k : Nat) (e : EccErr) (j : Nat) : (s.setEcc k e).ctx j = s.ctx j := rfl
@[simp] theorem State.setEcc_glume_eq (s : State) (k : Nat) (e : EccErr) (j : Nat) : (s.setEcc k e).glume j = s.glume j := rfl
@[simp] theorem State.setEcc_sendFlow_eq (s : State) (k : Nat) (e : EccErr) (j : Nat) : (s.setEcc k e).sendFlow j = s.sendFlow j := rfl
@[simp] theorem State.setEcc_recvFlow_eq (s : State) (k : Nat) (e : EccErr) (j : Nat) : (s.setEcc k e).recvFlow j = s.recvFlow j := rfl
@[simp] theorem State.setEcc_port_eq (s : State) (k : Nat) (e : EccErr) (j : Nat) : (s.setEcc k e).port j = s.port j := rfl
@[simp] theorem State.setEcc_peek_eq (s : State) (k : Nat) (e : EccErr) (j : Nat) : (s.setEcc k e).peek j = s.peek j := rfl

/-! ### poke -/

@[simp] theorem State.poke_pending (s : State) (a : Nat) (b : Byte) : (s.poke a b).pending = s.pending := rfl
@[simp] theorem State.poke_regs (s : State) (a : Nat) (b : Byte) : (s.poke a b).regs = s.regs := rfl
@[simp] theorem State.poke_held (s : State) (a : Nat) (b : Byte) : (s.poke a b).held = s.held := rfl
@[simp] theorem State.poke_readData (s : State) (a : Nat) (b : Byte) : (s.poke a b).readData = s.readData := rfl
@[simp] theorem State.poke_poison (s : State) (a : Nat) (b : Byte) : (s.poke a b).poison = s.poison := rfl
@[simp] theorem State.poke_ecc (s : State) (a : Nat) (b : Byte) : (s.poke a b).ecc = s.ecc := rfl
@[simp] theorem State.poke_fresh (s : State) (a : Nat) (b : Byte) : (s.poke a b).fresh = s.fresh := rfl
@[simp] theorem State.poke_tillers (s : State) (a : Nat) (b : Byte) : (s.poke a b).tillers = s.tillers := rfl
@[simp] theorem State.poke_phys (s : State) (a : Nat) (b : Byte) : (s.poke a b).phys = s.phys := rfl
@[simp] theorem State.poke_absent (s : State) (a : Nat) (b : Byte) : (s.poke a b).absent = s.absent := rfl
@[simp] theorem State.poke_used (s : State) (a : Nat) (b : Byte) : (s.poke a b).used = s.used := rfl
@[simp] theorem State.poke_glumes (s : State) (a : Nat) (b : Byte) : (s.poke a b).glumes = s.glumes := rfl
@[simp] theorem State.poke_bank15 (s : State) (a : Nat) (b : Byte) : (s.poke a b).bank15 = s.bank15 := rfl
@[simp] theorem State.poke_gcaches (s : State) (a : Nat) (b : Byte) : (s.poke a b).gcaches = s.gcaches := rfl
@[simp] theorem State.poke_signals (s : State) (a : Nat) (b : Byte) : (s.poke a b).signals = s.signals := rfl
@[simp] theorem State.poke_adminPid (s : State) (a : Nat) (b : Byte) : (s.poke a b).adminPid = s.adminPid := rfl
@[simp] theorem State.poke_glmInval (s : State) (a : Nat) (b : Byte) : (s.poke a b).glmInval = s.glmInval := rfl
@[simp] theorem State.poke_barriers (s : State) (a : Nat) (b : Byte) : (s.poke a b).barriers = s.barriers := rfl
@[simp] theorem State.poke_contexts (s : State) (a : Nat) (b : Byte) : (s.poke a b).contexts = s.contexts := rfl
@[simp] theorem State.poke_msix (s : State) (a : Nat) (b : Byte) : (s.poke a b).msix = s.msix := rfl
@[simp] theorem State.poke_folds (s : State) (a : Nat) (b : Byte) : (s.poke a b).folds = s.folds := rfl
@[simp] theorem State.poke_rings (s : State) (a : Nat) (b : Byte) : (s.poke a b).rings = s.rings := rfl
@[simp] theorem State.poke_tlbs (s : State) (a : Nat) (b : Byte) : (s.poke a b).tlbs = s.tlbs := rfl
@[simp] theorem State.poke_engines (s : State) (a : Nat) (b : Byte) : (s.poke a b).engines = s.engines := rfl
@[simp] theorem State.poke_retired (s : State) (a : Nat) (b : Byte) : (s.poke a b).retired = s.retired := rfl
@[simp] theorem State.poke_rows (s : State) (a : Nat) (b : Byte) : (s.poke a b).rows = s.rows := rfl
@[simp] theorem State.poke_softRepairs (s : State) (a : Nat) (b : Byte) : (s.poke a b).softRepairs = s.softRepairs := rfl
@[simp] theorem State.poke_repairHard (s : State) (a : Nat) (b : Byte) : (s.poke a b).repairHard = s.repairHard := rfl
@[simp] theorem State.poke_memCtl (s : State) (a : Nat) (b : Byte) : (s.poke a b).memCtl = s.memCtl := rfl
@[simp] theorem State.poke_ports (s : State) (a : Nat) (b : Byte) : (s.poke a b).ports = s.ports := rfl
@[simp] theorem State.poke_sendFlows (s : State) (a : Nat) (b : Byte) : (s.poke a b).sendFlows = s.sendFlows := rfl
@[simp] theorem State.poke_recvFlows (s : State) (a : Nat) (b : Byte) : (s.poke a b).recvFlows = s.recvFlows := rfl
@[simp] theorem State.poke_inbufs (s : State) (a : Nat) (b : Byte) : (s.poke a b).inbufs = s.inbufs := rfl
@[simp] theorem State.poke_rrPtr (s : State) (a : Nat) (b : Byte) : (s.poke a b).rrPtr = s.rrPtr := rfl
@[simp] theorem State.poke_groups (s : State) (a : Nat) (b : Byte) : (s.poke a b).groups = s.groups := rfl
@[simp] theorem State.poke_logRecs (s : State) (a : Nat) (b : Byte) : (s.poke a b).logRecs = s.logRecs := rfl
@[simp] theorem State.poke_logPos (s : State) (a : Nat) (b : Byte) : (s.poke a b).logPos = s.logPos := rfl
@[simp] theorem State.poke_logUsed (s : State) (a : Nat) (b : Byte) : (s.poke a b).logUsed = s.logUsed := rfl
@[simp] theorem State.poke_logOvf (s : State) (a : Nat) (b : Byte) : (s.poke a b).logOvf = s.logOvf := rfl
@[simp] theorem State.poke_mirror (s : State) (a : Nat) (b : Byte) : (s.poke a b).mirror = s.mirror := rfl
@[simp] theorem State.poke_power (s : State) (a : Nat) (b : Byte) : (s.poke a b).power = s.power := rfl
@[simp] theorem State.poke_obs (s : State) (a : Nat) (b : Byte) : (s.poke a b).obs = s.obs := rfl
@[simp] theorem State.poke_audit (s : State) (a : Nat) (b : Byte) : (s.poke a b).audit = s.audit := rfl
@[simp] theorem State.poke_flash (s : State) (a : Nat) (b : Byte) : (s.poke a b).flash = s.flash := rfl
@[simp] theorem State.poke_auditPrev (s : State) (a : Nat) (b : Byte) : (s.poke a b).auditPrev = s.auditPrev := rfl
@[simp] theorem State.poke_flashed (s : State) (a : Nat) (b : Byte) : (s.poke a b).flashed = s.flashed := rfl
@[simp] theorem State.poke_out (s : State) (a : Nat) (b : Byte) : (s.poke a b).out = s.out := rfl
@[simp] theorem State.poke_fld_eq (s : State) (a : Nat) (b : Byte) (g : Fld) (j : Nat) : (s.poke a b).fld g j = s.fld g j := rfl
@[simp] theorem State.poke_flag_eq (s : State) (a : Nat) (b : Byte) (g : Fld) (j : Nat) : (s.poke a b).flag g j = s.flag g j := rfl
@[simp] theorem State.poke_til_eq (s : State) (a : Nat) (b : Byte) (j : Nat) : (s.poke a b).til j = s.til j := rfl
@[simp] theorem State.poke_ring_eq (s : State) (a : Nat) (b : Byte) (j : Nat) : (s.poke a b).ring j = s.ring j := rfl
@[simp] theorem State.poke_ctx_eq (s : State) (a : Nat) (b : Byte) (j : Nat) : (s.poke a b).ctx j = s.ctx j := rfl
@[simp] theorem State.poke_glume_eq (s : State) (a : Nat) (b : Byte) (j : Nat) : (s.poke a b).glume j = s.glume j := rfl
@[simp] theorem State.poke_sendFlow_eq (s : State) (a : Nat) (b : Byte) (j : Nat) : (s.poke a b).sendFlow j = s.sendFlow j := rfl
@[simp] theorem State.poke_recvFlow_eq (s : State) (a : Nat) (b : Byte) (j : Nat) : (s.poke a b).recvFlow j = s.recvFlow j := rfl
@[simp] theorem State.poke_port_eq (s : State) (a : Nat) (b : Byte) (j : Nat) : (s.poke a b).port j = s.port j := rfl

/-! ### setVector -/

@[simp] theorem State.setVector_pending (s : State) (c v : Nat) : (s.setVector c v).pending = s.pending := rfl
@[simp] theorem State.setVector_regs (s : State) (c v : Nat) : (s.setVector c v).regs = s.regs := rfl
@[simp] theorem State.setVector_held (s : State) (c v : Nat) : (s.setVector c v).held = s.held := rfl
@[simp] theorem State.setVector_readData (s : State) (c v : Nat) : (s.setVector c v).readData = s.readData := rfl
@[simp] theorem State.setVector_mem (s : State) (c v : Nat) : (s.setVector c v).mem = s.mem := rfl
@[simp] theorem State.setVector_poison (s : State) (c v : Nat) : (s.setVector c v).poison = s.poison := rfl
@[simp] theorem State.setVector_ecc (s : State) (c v : Nat) : (s.setVector c v).ecc = s.ecc := rfl
@[simp] theorem State.setVector_fresh (s : State) (c v : Nat) : (s.setVector c v).fresh = s.fresh := rfl
@[simp] theorem State.setVector_tillers (s : State) (c v : Nat) : (s.setVector c v).tillers = s.tillers := rfl
@[simp] theorem State.setVector_phys (s : State) (c v : Nat) : (s.setVector c v).phys = s.phys := rfl
@[simp] theorem State.setVector_absent (s : State) (c v : Nat) : (s.setVector c v).absent = s.absent := rfl
@[simp] theorem State.setVector_used (s : State) (c v : Nat) : (s.setVector c v).used = s.used := rfl
@[simp] theorem State.setVector_glumes (s : State) (c v : Nat) : (s.setVector c v).glumes = s.glumes := rfl
@[simp] theorem State.setVector_bank15 (s : State) (c v : Nat) : (s.setVector c v).bank15 = s.bank15 := rfl
@[simp] theorem State.setVector_gcaches (s : State) (c v : Nat) : (s.setVector c v).gcaches = s.gcaches := rfl
@[simp] theorem State.setVector_signals (s : State) (c v : Nat) : (s.setVector c v).signals = s.signals := rfl
@[simp] theorem State.setVector_adminPid (s : State) (c v : Nat) : (s.setVector c v).adminPid = s.adminPid := rfl
@[simp] theorem State.setVector_glmInval (s : State) (c v : Nat) : (s.setVector c v).glmInval = s.glmInval := rfl
@[simp] theorem State.setVector_barriers (s : State) (c v : Nat) : (s.setVector c v).barriers = s.barriers := rfl
@[simp] theorem State.setVector_msix (s : State) (c v : Nat) : (s.setVector c v).msix = s.msix := rfl
@[simp] theorem State.setVector_folds (s : State) (c v : Nat) : (s.setVector c v).folds = s.folds := rfl
@[simp] theorem State.setVector_rings (s : State) (c v : Nat) : (s.setVector c v).rings = s.rings := rfl
@[simp] theorem State.setVector_tlbs (s : State) (c v : Nat) : (s.setVector c v).tlbs = s.tlbs := rfl
@[simp] theorem State.setVector_engines (s : State) (c v : Nat) : (s.setVector c v).engines = s.engines := rfl
@[simp] theorem State.setVector_retired (s : State) (c v : Nat) : (s.setVector c v).retired = s.retired := rfl
@[simp] theorem State.setVector_rows (s : State) (c v : Nat) : (s.setVector c v).rows = s.rows := rfl
@[simp] theorem State.setVector_softRepairs (s : State) (c v : Nat) : (s.setVector c v).softRepairs = s.softRepairs := rfl
@[simp] theorem State.setVector_repairHard (s : State) (c v : Nat) : (s.setVector c v).repairHard = s.repairHard := rfl
@[simp] theorem State.setVector_memCtl (s : State) (c v : Nat) : (s.setVector c v).memCtl = s.memCtl := rfl
@[simp] theorem State.setVector_ports (s : State) (c v : Nat) : (s.setVector c v).ports = s.ports := rfl
@[simp] theorem State.setVector_sendFlows (s : State) (c v : Nat) : (s.setVector c v).sendFlows = s.sendFlows := rfl
@[simp] theorem State.setVector_recvFlows (s : State) (c v : Nat) : (s.setVector c v).recvFlows = s.recvFlows := rfl
@[simp] theorem State.setVector_inbufs (s : State) (c v : Nat) : (s.setVector c v).inbufs = s.inbufs := rfl
@[simp] theorem State.setVector_rrPtr (s : State) (c v : Nat) : (s.setVector c v).rrPtr = s.rrPtr := rfl
@[simp] theorem State.setVector_groups (s : State) (c v : Nat) : (s.setVector c v).groups = s.groups := rfl
@[simp] theorem State.setVector_logRecs (s : State) (c v : Nat) : (s.setVector c v).logRecs = s.logRecs := rfl
@[simp] theorem State.setVector_logPos (s : State) (c v : Nat) : (s.setVector c v).logPos = s.logPos := rfl
@[simp] theorem State.setVector_logUsed (s : State) (c v : Nat) : (s.setVector c v).logUsed = s.logUsed := rfl
@[simp] theorem State.setVector_logOvf (s : State) (c v : Nat) : (s.setVector c v).logOvf = s.logOvf := rfl
@[simp] theorem State.setVector_mirror (s : State) (c v : Nat) : (s.setVector c v).mirror = s.mirror := rfl
@[simp] theorem State.setVector_power (s : State) (c v : Nat) : (s.setVector c v).power = s.power := rfl
@[simp] theorem State.setVector_obs (s : State) (c v : Nat) : (s.setVector c v).obs = s.obs := rfl
@[simp] theorem State.setVector_audit (s : State) (c v : Nat) : (s.setVector c v).audit = s.audit := rfl
@[simp] theorem State.setVector_flash (s : State) (c v : Nat) : (s.setVector c v).flash = s.flash := rfl
@[simp] theorem State.setVector_auditPrev (s : State) (c v : Nat) : (s.setVector c v).auditPrev = s.auditPrev := rfl
@[simp] theorem State.setVector_flashed (s : State) (c v : Nat) : (s.setVector c v).flashed = s.flashed := rfl
@[simp] theorem State.setVector_out (s : State) (c v : Nat) : (s.setVector c v).out = s.out := rfl
@[simp] theorem State.setVector_fld_eq (s : State) (c v : Nat) (g : Fld) (j : Nat) : (s.setVector c v).fld g j = s.fld g j := rfl
@[simp] theorem State.setVector_flag_eq (s : State) (c v : Nat) (g : Fld) (j : Nat) : (s.setVector c v).flag g j = s.flag g j := rfl
@[simp] theorem State.setVector_til_eq (s : State) (c v : Nat) (j : Nat) : (s.setVector c v).til j = s.til j := rfl
@[simp] theorem State.setVector_ring_eq (s : State) (c v : Nat) (j : Nat) : (s.setVector c v).ring j = s.ring j := rfl
@[simp] theorem State.setVector_glume_eq (s : State) (c v : Nat) (j : Nat) : (s.setVector c v).glume j = s.glume j := rfl
@[simp] theorem State.setVector_sendFlow_eq (s : State) (c v : Nat) (j : Nat) : (s.setVector c v).sendFlow j = s.sendFlow j := rfl
@[simp] theorem State.setVector_recvFlow_eq (s : State) (c v : Nat) (j : Nat) : (s.setVector c v).recvFlow j = s.recvFlow j := rfl
@[simp] theorem State.setVector_port_eq (s : State) (c v : Nat) (j : Nat) : (s.setVector c v).port j = s.port j := rfl
@[simp] theorem State.setVector_peek_eq (s : State) (c v : Nat) (j : Nat) : (s.setVector c v).peek j = s.peek j := rfl

/-! ### count -/

@[simp] theorem State.count_pending (s : State) (k n : Nat) : (s.count k n).pending = s.pending := rfl
@[simp] theorem State.count_regs (s : State) (k n : Nat) : (s.count k n).regs = s.regs := rfl
@[simp] theorem State.count_held (s : State) (k n : Nat) : (s.count k n).held = s.held := rfl
@[simp] theorem State.count_readData (s : State) (k n : Nat) : (s.count k n).readData = s.readData := rfl
@[simp] theorem State.count_mem (s : State) (k n : Nat) : (s.count k n).mem = s.mem := rfl
@[simp] theorem State.count_poison (s : State) (k n : Nat) : (s.count k n).poison = s.poison := rfl
@[simp] theorem State.count_ecc (s : State) (k n : Nat) : (s.count k n).ecc = s.ecc := rfl
@[simp] theorem State.count_fresh (s : State) (k n : Nat) : (s.count k n).fresh = s.fresh := rfl
@[simp] theorem State.count_tillers (s : State) (k n : Nat) : (s.count k n).tillers = s.tillers := rfl
@[simp] theorem State.count_phys (s : State) (k n : Nat) : (s.count k n).phys = s.phys := rfl
@[simp] theorem State.count_absent (s : State) (k n : Nat) : (s.count k n).absent = s.absent := rfl
@[simp] theorem State.count_used (s : State) (k n : Nat) : (s.count k n).used = s.used := rfl
@[simp] theorem State.count_glumes (s : State) (k n : Nat) : (s.count k n).glumes = s.glumes := rfl
@[simp] theorem State.count_bank15 (s : State) (k n : Nat) : (s.count k n).bank15 = s.bank15 := rfl
@[simp] theorem State.count_gcaches (s : State) (k n : Nat) : (s.count k n).gcaches = s.gcaches := rfl
@[simp] theorem State.count_signals (s : State) (k n : Nat) : (s.count k n).signals = s.signals := rfl
@[simp] theorem State.count_adminPid (s : State) (k n : Nat) : (s.count k n).adminPid = s.adminPid := rfl
@[simp] theorem State.count_glmInval (s : State) (k n : Nat) : (s.count k n).glmInval = s.glmInval := rfl
@[simp] theorem State.count_barriers (s : State) (k n : Nat) : (s.count k n).barriers = s.barriers := rfl
@[simp] theorem State.count_contexts (s : State) (k n : Nat) : (s.count k n).contexts = s.contexts := rfl
@[simp] theorem State.count_msix (s : State) (k n : Nat) : (s.count k n).msix = s.msix := rfl
@[simp] theorem State.count_folds (s : State) (k n : Nat) : (s.count k n).folds = s.folds := rfl
@[simp] theorem State.count_rings (s : State) (k n : Nat) : (s.count k n).rings = s.rings := rfl
@[simp] theorem State.count_tlbs (s : State) (k n : Nat) : (s.count k n).tlbs = s.tlbs := rfl
@[simp] theorem State.count_engines (s : State) (k n : Nat) : (s.count k n).engines = s.engines := rfl
@[simp] theorem State.count_retired (s : State) (k n : Nat) : (s.count k n).retired = s.retired := rfl
@[simp] theorem State.count_rows (s : State) (k n : Nat) : (s.count k n).rows = s.rows := rfl
@[simp] theorem State.count_softRepairs (s : State) (k n : Nat) : (s.count k n).softRepairs = s.softRepairs := rfl
@[simp] theorem State.count_repairHard (s : State) (k n : Nat) : (s.count k n).repairHard = s.repairHard := rfl
@[simp] theorem State.count_memCtl (s : State) (k n : Nat) : (s.count k n).memCtl = s.memCtl := rfl
@[simp] theorem State.count_ports (s : State) (k n : Nat) : (s.count k n).ports = s.ports := rfl
@[simp] theorem State.count_sendFlows (s : State) (k n : Nat) : (s.count k n).sendFlows = s.sendFlows := rfl
@[simp] theorem State.count_recvFlows (s : State) (k n : Nat) : (s.count k n).recvFlows = s.recvFlows := rfl
@[simp] theorem State.count_inbufs (s : State) (k n : Nat) : (s.count k n).inbufs = s.inbufs := rfl
@[simp] theorem State.count_rrPtr (s : State) (k n : Nat) : (s.count k n).rrPtr = s.rrPtr := rfl
@[simp] theorem State.count_groups (s : State) (k n : Nat) : (s.count k n).groups = s.groups := rfl
@[simp] theorem State.count_logRecs (s : State) (k n : Nat) : (s.count k n).logRecs = s.logRecs := rfl
@[simp] theorem State.count_logPos (s : State) (k n : Nat) : (s.count k n).logPos = s.logPos := rfl
@[simp] theorem State.count_logUsed (s : State) (k n : Nat) : (s.count k n).logUsed = s.logUsed := rfl
@[simp] theorem State.count_logOvf (s : State) (k n : Nat) : (s.count k n).logOvf = s.logOvf := rfl
@[simp] theorem State.count_mirror (s : State) (k n : Nat) : (s.count k n).mirror = s.mirror := rfl
@[simp] theorem State.count_power (s : State) (k n : Nat) : (s.count k n).power = s.power := rfl
@[simp] theorem State.count_audit (s : State) (k n : Nat) : (s.count k n).audit = s.audit := rfl
@[simp] theorem State.count_flash (s : State) (k n : Nat) : (s.count k n).flash = s.flash := rfl
@[simp] theorem State.count_auditPrev (s : State) (k n : Nat) : (s.count k n).auditPrev = s.auditPrev := rfl
@[simp] theorem State.count_flashed (s : State) (k n : Nat) : (s.count k n).flashed = s.flashed := rfl
@[simp] theorem State.count_out (s : State) (k n : Nat) : (s.count k n).out = s.out := rfl
@[simp] theorem State.count_fld_eq (s : State) (k n : Nat) (g : Fld) (j : Nat) : (s.count k n).fld g j = s.fld g j := rfl
@[simp] theorem State.count_flag_eq (s : State) (k n : Nat) (g : Fld) (j : Nat) : (s.count k n).flag g j = s.flag g j := rfl
@[simp] theorem State.count_til_eq (s : State) (k n : Nat) (j : Nat) : (s.count k n).til j = s.til j := rfl
@[simp] theorem State.count_ring_eq (s : State) (k n : Nat) (j : Nat) : (s.count k n).ring j = s.ring j := rfl
@[simp] theorem State.count_ctx_eq (s : State) (k n : Nat) (j : Nat) : (s.count k n).ctx j = s.ctx j := rfl
@[simp] theorem State.count_glume_eq (s : State) (k n : Nat) (j : Nat) : (s.count k n).glume j = s.glume j := rfl
@[simp] theorem State.count_sendFlow_eq (s : State) (k n : Nat) (j : Nat) : (s.count k n).sendFlow j = s.sendFlow j := rfl
@[simp] theorem State.count_recvFlow_eq (s : State) (k n : Nat) (j : Nat) : (s.count k n).recvFlow j = s.recvFlow j := rfl
@[simp] theorem State.count_port_eq (s : State) (k n : Nat) (j : Nat) : (s.count k n).port j = s.port j := rfl
@[simp] theorem State.count_peek_eq (s : State) (k n : Nat) (j : Nat) : (s.count k n).peek j = s.peek j := rfl

/-! ### latch -/

@[simp] theorem State.latch_pending (s : State) (r : Reg) (i v : Nat) : (s.latch r i v).pending = s.pending := rfl
@[simp] theorem State.latch_regs (s : State) (r : Reg) (i v : Nat) : (s.latch r i v).regs = s.regs := rfl
@[simp] theorem State.latch_readData (s : State) (r : Reg) (i v : Nat) : (s.latch r i v).readData = s.readData := rfl
@[simp] theorem State.latch_mem (s : State) (r : Reg) (i v : Nat) : (s.latch r i v).mem = s.mem := rfl
@[simp] theorem State.latch_poison (s : State) (r : Reg) (i v : Nat) : (s.latch r i v).poison = s.poison := rfl
@[simp] theorem State.latch_ecc (s : State) (r : Reg) (i v : Nat) : (s.latch r i v).ecc = s.ecc := rfl
@[simp] theorem State.latch_fresh (s : State) (r : Reg) (i v : Nat) : (s.latch r i v).fresh = s.fresh := rfl
@[simp] theorem State.latch_tillers (s : State) (r : Reg) (i v : Nat) : (s.latch r i v).tillers = s.tillers := rfl
@[simp] theorem State.latch_phys (s : State) (r : Reg) (i v : Nat) : (s.latch r i v).phys = s.phys := rfl
@[simp] theorem State.latch_absent (s : State) (r : Reg) (i v : Nat) : (s.latch r i v).absent = s.absent := rfl
@[simp] theorem State.latch_used (s : State) (r : Reg) (i v : Nat) : (s.latch r i v).used = s.used := rfl
@[simp] theorem State.latch_glumes (s : State) (r : Reg) (i v : Nat) : (s.latch r i v).glumes = s.glumes := rfl
@[simp] theorem State.latch_bank15 (s : State) (r : Reg) (i v : Nat) : (s.latch r i v).bank15 = s.bank15 := rfl
@[simp] theorem State.latch_gcaches (s : State) (r : Reg) (i v : Nat) : (s.latch r i v).gcaches = s.gcaches := rfl
@[simp] theorem State.latch_signals (s : State) (r : Reg) (i v : Nat) : (s.latch r i v).signals = s.signals := rfl
@[simp] theorem State.latch_adminPid (s : State) (r : Reg) (i v : Nat) : (s.latch r i v).adminPid = s.adminPid := rfl
@[simp] theorem State.latch_glmInval (s : State) (r : Reg) (i v : Nat) : (s.latch r i v).glmInval = s.glmInval := rfl
@[simp] theorem State.latch_barriers (s : State) (r : Reg) (i v : Nat) : (s.latch r i v).barriers = s.barriers := rfl
@[simp] theorem State.latch_contexts (s : State) (r : Reg) (i v : Nat) : (s.latch r i v).contexts = s.contexts := rfl
@[simp] theorem State.latch_msix (s : State) (r : Reg) (i v : Nat) : (s.latch r i v).msix = s.msix := rfl
@[simp] theorem State.latch_folds (s : State) (r : Reg) (i v : Nat) : (s.latch r i v).folds = s.folds := rfl
@[simp] theorem State.latch_rings (s : State) (r : Reg) (i v : Nat) : (s.latch r i v).rings = s.rings := rfl
@[simp] theorem State.latch_tlbs (s : State) (r : Reg) (i v : Nat) : (s.latch r i v).tlbs = s.tlbs := rfl
@[simp] theorem State.latch_engines (s : State) (r : Reg) (i v : Nat) : (s.latch r i v).engines = s.engines := rfl
@[simp] theorem State.latch_retired (s : State) (r : Reg) (i v : Nat) : (s.latch r i v).retired = s.retired := rfl
@[simp] theorem State.latch_rows (s : State) (r : Reg) (i v : Nat) : (s.latch r i v).rows = s.rows := rfl
@[simp] theorem State.latch_softRepairs (s : State) (r : Reg) (i v : Nat) : (s.latch r i v).softRepairs = s.softRepairs := rfl
@[simp] theorem State.latch_repairHard (s : State) (r : Reg) (i v : Nat) : (s.latch r i v).repairHard = s.repairHard := rfl
@[simp] theorem State.latch_memCtl (s : State) (r : Reg) (i v : Nat) : (s.latch r i v).memCtl = s.memCtl := rfl
@[simp] theorem State.latch_ports (s : State) (r : Reg) (i v : Nat) : (s.latch r i v).ports = s.ports := rfl
@[simp] theorem State.latch_sendFlows (s : State) (r : Reg) (i v : Nat) : (s.latch r i v).sendFlows = s.sendFlows := rfl
@[simp] theorem State.latch_recvFlows (s : State) (r : Reg) (i v : Nat) : (s.latch r i v).recvFlows = s.recvFlows := rfl
@[simp] theorem State.latch_inbufs (s : State) (r : Reg) (i v : Nat) : (s.latch r i v).inbufs = s.inbufs := rfl
@[simp] theorem State.latch_rrPtr (s : State) (r : Reg) (i v : Nat) : (s.latch r i v).rrPtr = s.rrPtr := rfl
@[simp] theorem State.latch_groups (s : State) (r : Reg) (i v : Nat) : (s.latch r i v).groups = s.groups := rfl
@[simp] theorem State.latch_logRecs (s : State) (r : Reg) (i v : Nat) : (s.latch r i v).logRecs = s.logRecs := rfl
@[simp] theorem State.latch_logPos (s : State) (r : Reg) (i v : Nat) : (s.latch r i v).logPos = s.logPos := rfl
@[simp] theorem State.latch_logUsed (s : State) (r : Reg) (i v : Nat) : (s.latch r i v).logUsed = s.logUsed := rfl
@[simp] theorem State.latch_logOvf (s : State) (r : Reg) (i v : Nat) : (s.latch r i v).logOvf = s.logOvf := rfl
@[simp] theorem State.latch_mirror (s : State) (r : Reg) (i v : Nat) : (s.latch r i v).mirror = s.mirror := rfl
@[simp] theorem State.latch_power (s : State) (r : Reg) (i v : Nat) : (s.latch r i v).power = s.power := rfl
@[simp] theorem State.latch_obs (s : State) (r : Reg) (i v : Nat) : (s.latch r i v).obs = s.obs := rfl
@[simp] theorem State.latch_audit (s : State) (r : Reg) (i v : Nat) : (s.latch r i v).audit = s.audit := rfl
@[simp] theorem State.latch_flash (s : State) (r : Reg) (i v : Nat) : (s.latch r i v).flash = s.flash := rfl
@[simp] theorem State.latch_auditPrev (s : State) (r : Reg) (i v : Nat) : (s.latch r i v).auditPrev = s.auditPrev := rfl
@[simp] theorem State.latch_flashed (s : State) (r : Reg) (i v : Nat) : (s.latch r i v).flashed = s.flashed := rfl
@[simp] theorem State.latch_out (s : State) (r : Reg) (i v : Nat) : (s.latch r i v).out = s.out := rfl
@[simp] theorem State.latch_fld_eq (s : State) (r : Reg) (i v : Nat) (g : Fld) (j : Nat) : (s.latch r i v).fld g j = s.fld g j := rfl
@[simp] theorem State.latch_flag_eq (s : State) (r : Reg) (i v : Nat) (g : Fld) (j : Nat) : (s.latch r i v).flag g j = s.flag g j := rfl
@[simp] theorem State.latch_til_eq (s : State) (r : Reg) (i v : Nat) (j : Nat) : (s.latch r i v).til j = s.til j := rfl
@[simp] theorem State.latch_ring_eq (s : State) (r : Reg) (i v : Nat) (j : Nat) : (s.latch r i v).ring j = s.ring j := rfl
@[simp] theorem State.latch_ctx_eq (s : State) (r : Reg) (i v : Nat) (j : Nat) : (s.latch r i v).ctx j = s.ctx j := rfl
@[simp] theorem State.latch_glume_eq (s : State) (r : Reg) (i v : Nat) (j : Nat) : (s.latch r i v).glume j = s.glume j := rfl
@[simp] theorem State.latch_sendFlow_eq (s : State) (r : Reg) (i v : Nat) (j : Nat) : (s.latch r i v).sendFlow j = s.sendFlow j := rfl
@[simp] theorem State.latch_recvFlow_eq (s : State) (r : Reg) (i v : Nat) (j : Nat) : (s.latch r i v).recvFlow j = s.recvFlow j := rfl
@[simp] theorem State.latch_port_eq (s : State) (r : Reg) (i v : Nat) (j : Nat) : (s.latch r i v).port j = s.port j := rfl
@[simp] theorem State.latch_peek_eq (s : State) (r : Reg) (i v : Nat) (j : Nat) : (s.latch r i v).peek j = s.peek j := rfl

/-! ### emit -/

@[simp] theorem State.emit_pending (s : State) (o : Output) : (s.emit o).pending = s.pending := rfl
@[simp] theorem State.emit_regs (s : State) (o : Output) : (s.emit o).regs = s.regs := rfl
@[simp] theorem State.emit_held (s : State) (o : Output) : (s.emit o).held = s.held := rfl
@[simp] theorem State.emit_readData (s : State) (o : Output) : (s.emit o).readData = s.readData := rfl
@[simp] theorem State.emit_mem (s : State) (o : Output) : (s.emit o).mem = s.mem := rfl
@[simp] theorem State.emit_poison (s : State) (o : Output) : (s.emit o).poison = s.poison := rfl
@[simp] theorem State.emit_ecc (s : State) (o : Output) : (s.emit o).ecc = s.ecc := rfl
@[simp] theorem State.emit_fresh (s : State) (o : Output) : (s.emit o).fresh = s.fresh := rfl
@[simp] theorem State.emit_tillers (s : State) (o : Output) : (s.emit o).tillers = s.tillers := rfl
@[simp] theorem State.emit_phys (s : State) (o : Output) : (s.emit o).phys = s.phys := rfl
@[simp] theorem State.emit_absent (s : State) (o : Output) : (s.emit o).absent = s.absent := rfl
@[simp] theorem State.emit_used (s : State) (o : Output) : (s.emit o).used = s.used := rfl
@[simp] theorem State.emit_glumes (s : State) (o : Output) : (s.emit o).glumes = s.glumes := rfl
@[simp] theorem State.emit_bank15 (s : State) (o : Output) : (s.emit o).bank15 = s.bank15 := rfl
@[simp] theorem State.emit_gcaches (s : State) (o : Output) : (s.emit o).gcaches = s.gcaches := rfl
@[simp] theorem State.emit_signals (s : State) (o : Output) : (s.emit o).signals = s.signals := rfl
@[simp] theorem State.emit_adminPid (s : State) (o : Output) : (s.emit o).adminPid = s.adminPid := rfl
@[simp] theorem State.emit_glmInval (s : State) (o : Output) : (s.emit o).glmInval = s.glmInval := rfl
@[simp] theorem State.emit_barriers (s : State) (o : Output) : (s.emit o).barriers = s.barriers := rfl
@[simp] theorem State.emit_contexts (s : State) (o : Output) : (s.emit o).contexts = s.contexts := rfl
@[simp] theorem State.emit_msix (s : State) (o : Output) : (s.emit o).msix = s.msix := rfl
@[simp] theorem State.emit_folds (s : State) (o : Output) : (s.emit o).folds = s.folds := rfl
@[simp] theorem State.emit_rings (s : State) (o : Output) : (s.emit o).rings = s.rings := rfl
@[simp] theorem State.emit_tlbs (s : State) (o : Output) : (s.emit o).tlbs = s.tlbs := rfl
@[simp] theorem State.emit_engines (s : State) (o : Output) : (s.emit o).engines = s.engines := rfl
@[simp] theorem State.emit_retired (s : State) (o : Output) : (s.emit o).retired = s.retired := rfl
@[simp] theorem State.emit_rows (s : State) (o : Output) : (s.emit o).rows = s.rows := rfl
@[simp] theorem State.emit_softRepairs (s : State) (o : Output) : (s.emit o).softRepairs = s.softRepairs := rfl
@[simp] theorem State.emit_repairHard (s : State) (o : Output) : (s.emit o).repairHard = s.repairHard := rfl
@[simp] theorem State.emit_memCtl (s : State) (o : Output) : (s.emit o).memCtl = s.memCtl := rfl
@[simp] theorem State.emit_ports (s : State) (o : Output) : (s.emit o).ports = s.ports := rfl
@[simp] theorem State.emit_sendFlows (s : State) (o : Output) : (s.emit o).sendFlows = s.sendFlows := rfl
@[simp] theorem State.emit_recvFlows (s : State) (o : Output) : (s.emit o).recvFlows = s.recvFlows := rfl
@[simp] theorem State.emit_inbufs (s : State) (o : Output) : (s.emit o).inbufs = s.inbufs := rfl
@[simp] theorem State.emit_rrPtr (s : State) (o : Output) : (s.emit o).rrPtr = s.rrPtr := rfl
@[simp] theorem State.emit_groups (s : State) (o : Output) : (s.emit o).groups = s.groups := rfl
@[simp] theorem State.emit_logRecs (s : State) (o : Output) : (s.emit o).logRecs = s.logRecs := rfl
@[simp] theorem State.emit_logPos (s : State) (o : Output) : (s.emit o).logPos = s.logPos := rfl
@[simp] theorem State.emit_logUsed (s : State) (o : Output) : (s.emit o).logUsed = s.logUsed := rfl
@[simp] theorem State.emit_logOvf (s : State) (o : Output) : (s.emit o).logOvf = s.logOvf := rfl
@[simp] theorem State.emit_mirror (s : State) (o : Output) : (s.emit o).mirror = s.mirror := rfl
@[simp] theorem State.emit_power (s : State) (o : Output) : (s.emit o).power = s.power := rfl
@[simp] theorem State.emit_obs (s : State) (o : Output) : (s.emit o).obs = s.obs := rfl
@[simp] theorem State.emit_audit (s : State) (o : Output) : (s.emit o).audit = s.audit := rfl
@[simp] theorem State.emit_flash (s : State) (o : Output) : (s.emit o).flash = s.flash := rfl
@[simp] theorem State.emit_auditPrev (s : State) (o : Output) : (s.emit o).auditPrev = s.auditPrev := rfl
@[simp] theorem State.emit_flashed (s : State) (o : Output) : (s.emit o).flashed = s.flashed := rfl
@[simp] theorem State.emit_fld_eq (s : State) (o : Output) (g : Fld) (j : Nat) : (s.emit o).fld g j = s.fld g j := rfl
@[simp] theorem State.emit_flag_eq (s : State) (o : Output) (g : Fld) (j : Nat) : (s.emit o).flag g j = s.flag g j := rfl
@[simp] theorem State.emit_til_eq (s : State) (o : Output) (j : Nat) : (s.emit o).til j = s.til j := rfl
@[simp] theorem State.emit_ring_eq (s : State) (o : Output) (j : Nat) : (s.emit o).ring j = s.ring j := rfl
@[simp] theorem State.emit_ctx_eq (s : State) (o : Output) (j : Nat) : (s.emit o).ctx j = s.ctx j := rfl
@[simp] theorem State.emit_glume_eq (s : State) (o : Output) (j : Nat) : (s.emit o).glume j = s.glume j := rfl
@[simp] theorem State.emit_sendFlow_eq (s : State) (o : Output) (j : Nat) : (s.emit o).sendFlow j = s.sendFlow j := rfl
@[simp] theorem State.emit_recvFlow_eq (s : State) (o : Output) (j : Nat) : (s.emit o).recvFlow j = s.recvFlow j := rfl
@[simp] theorem State.emit_port_eq (s : State) (o : Output) (j : Nat) : (s.emit o).port j = s.port j := rfl
@[simp] theorem State.emit_peek_eq (s : State) (o : Output) (j : Nat) : (s.emit o).peek j = s.peek j := rfl

/-! ### useFree -/

@[simp] theorem State.useFree_pending (s : State) : (s.useFree).pending = s.pending := rfl
@[simp] theorem State.useFree_regs (s : State) : (s.useFree).regs = s.regs := rfl
@[simp] theorem State.useFree_held (s : State) : (s.useFree).held = s.held := rfl
@[simp] theorem State.useFree_readData (s : State) : (s.useFree).readData = s.readData := rfl
@[simp] theorem State.useFree_mem (s : State) : (s.useFree).mem = s.mem := rfl
@[simp] theorem State.useFree_poison (s : State) : (s.useFree).poison = s.poison := rfl
@[simp] theorem State.useFree_ecc (s : State) : (s.useFree).ecc = s.ecc := rfl
@[simp] theorem State.useFree_tillers (s : State) : (s.useFree).tillers = s.tillers := rfl
@[simp] theorem State.useFree_phys (s : State) : (s.useFree).phys = s.phys := rfl
@[simp] theorem State.useFree_absent (s : State) : (s.useFree).absent = s.absent := rfl
@[simp] theorem State.useFree_used (s : State) : (s.useFree).used = s.used := rfl
@[simp] theorem State.useFree_glumes (s : State) : (s.useFree).glumes = s.glumes := rfl
@[simp] theorem State.useFree_bank15 (s : State) : (s.useFree).bank15 = s.bank15 := rfl
@[simp] theorem State.useFree_gcaches (s : State) : (s.useFree).gcaches = s.gcaches := rfl
@[simp] theorem State.useFree_signals (s : State) : (s.useFree).signals = s.signals := rfl
@[simp] theorem State.useFree_adminPid (s : State) : (s.useFree).adminPid = s.adminPid := rfl
@[simp] theorem State.useFree_glmInval (s : State) : (s.useFree).glmInval = s.glmInval := rfl
@[simp] theorem State.useFree_barriers (s : State) : (s.useFree).barriers = s.barriers := rfl
@[simp] theorem State.useFree_contexts (s : State) : (s.useFree).contexts = s.contexts := rfl
@[simp] theorem State.useFree_msix (s : State) : (s.useFree).msix = s.msix := rfl
@[simp] theorem State.useFree_folds (s : State) : (s.useFree).folds = s.folds := rfl
@[simp] theorem State.useFree_rings (s : State) : (s.useFree).rings = s.rings := rfl
@[simp] theorem State.useFree_tlbs (s : State) : (s.useFree).tlbs = s.tlbs := rfl
@[simp] theorem State.useFree_engines (s : State) : (s.useFree).engines = s.engines := rfl
@[simp] theorem State.useFree_retired (s : State) : (s.useFree).retired = s.retired := rfl
@[simp] theorem State.useFree_rows (s : State) : (s.useFree).rows = s.rows := rfl
@[simp] theorem State.useFree_softRepairs (s : State) : (s.useFree).softRepairs = s.softRepairs := rfl
@[simp] theorem State.useFree_repairHard (s : State) : (s.useFree).repairHard = s.repairHard := rfl
@[simp] theorem State.useFree_memCtl (s : State) : (s.useFree).memCtl = s.memCtl := rfl
@[simp] theorem State.useFree_ports (s : State) : (s.useFree).ports = s.ports := rfl
@[simp] theorem State.useFree_sendFlows (s : State) : (s.useFree).sendFlows = s.sendFlows := rfl
@[simp] theorem State.useFree_recvFlows (s : State) : (s.useFree).recvFlows = s.recvFlows := rfl
@[simp] theorem State.useFree_inbufs (s : State) : (s.useFree).inbufs = s.inbufs := rfl
@[simp] theorem State.useFree_rrPtr (s : State) : (s.useFree).rrPtr = s.rrPtr := rfl
@[simp] theorem State.useFree_groups (s : State) : (s.useFree).groups = s.groups := rfl
@[simp] theorem State.useFree_logRecs (s : State) : (s.useFree).logRecs = s.logRecs := rfl
@[simp] theorem State.useFree_logPos (s : State) : (s.useFree).logPos = s.logPos := rfl
@[simp] theorem State.useFree_logUsed (s : State) : (s.useFree).logUsed = s.logUsed := rfl
@[simp] theorem State.useFree_logOvf (s : State) : (s.useFree).logOvf = s.logOvf := rfl
@[simp] theorem State.useFree_mirror (s : State) : (s.useFree).mirror = s.mirror := rfl
@[simp] theorem State.useFree_power (s : State) : (s.useFree).power = s.power := rfl
@[simp] theorem State.useFree_obs (s : State) : (s.useFree).obs = s.obs := rfl
@[simp] theorem State.useFree_audit (s : State) : (s.useFree).audit = s.audit := rfl
@[simp] theorem State.useFree_flash (s : State) : (s.useFree).flash = s.flash := rfl
@[simp] theorem State.useFree_auditPrev (s : State) : (s.useFree).auditPrev = s.auditPrev := rfl
@[simp] theorem State.useFree_flashed (s : State) : (s.useFree).flashed = s.flashed := rfl
@[simp] theorem State.useFree_out (s : State) : (s.useFree).out = s.out := rfl
@[simp] theorem State.useFree_fld_eq (s : State) (g : Fld) (j : Nat) : (s.useFree).fld g j = s.fld g j := rfl
@[simp] theorem State.useFree_flag_eq (s : State) (g : Fld) (j : Nat) : (s.useFree).flag g j = s.flag g j := rfl
@[simp] theorem State.useFree_til_eq (s : State) (j : Nat) : (s.useFree).til j = s.til j := rfl
@[simp] theorem State.useFree_ring_eq (s : State) (j : Nat) : (s.useFree).ring j = s.ring j := rfl
@[simp] theorem State.useFree_ctx_eq (s : State) (j : Nat) : (s.useFree).ctx j = s.ctx j := rfl
@[simp] theorem State.useFree_glume_eq (s : State) (j : Nat) : (s.useFree).glume j = s.glume j := rfl
@[simp] theorem State.useFree_sendFlow_eq (s : State) (j : Nat) : (s.useFree).sendFlow j = s.sendFlow j := rfl
@[simp] theorem State.useFree_recvFlow_eq (s : State) (j : Nat) : (s.useFree).recvFlow j = s.recvFlow j := rfl
@[simp] theorem State.useFree_port_eq (s : State) (j : Nat) : (s.useFree).port j = s.port j := rfl
@[simp] theorem State.useFree_peek_eq (s : State) (j : Nat) : (s.useFree).peek j = s.peek j := rfl

end Sys2Proof.Machine
end

