-- ==== Sys2Proof/Laws/Access.lean ====
section
/-! SUPPORT. What a register access and a front-end dispatch do, said once for each. -/

namespace Sys2Proof.Machine

/-- An access to a register that answers is its act. -/
theorem State.access_of_answers {s : State} {o : Origin} {r : Reg} (h : s.answers o r) (act : State → State) :
    s.access o r act = act s := by
  unfold State.access
  simp only [h.1, h.2, if_true]

/-- An access that does not reach its register changes nothing; before READY the host port answers Unsupported
Request (R490). -/
theorem State.access_of_not_reach {s : State} {o : Origin} {r : Reg} (h : (s.hostWakes o r).reach o r = false)
    (act : State → State) :
    s.access o r act = if o = .pf then (s.hostWakes o r).emit .unsupported else s.hostWakes o r := by
  unfold State.access
  simp [h]

/-- A write to an unaudited register is its act. -/
theorem State.regCmd_plain {s : State} {o : Origin} {r : Reg} (h : s.answers o r) (hr : r.audited = false) (i data : Nat)
    (act : State → State) : s.regCmd o r i data act = act s := by
  unfold State.regCmd
  simp [State.access_of_answers h, hr]

/-- A write that triggers an action in an audited register is its act and one audit entry. -/
theorem State.regCmd_trigger {s : State} {o : Origin} {r : Reg} (h : s.answers o r) (hr : r.audited = true)
    (ht : r.triggers = true) (i data : Nat) (act : State → State) :
    s.regCmd o r i data act = s.auditOf (act s) true (Origin.audit o) r i data := by
  unfold State.regCmd State.auditOf
  simp [State.access_of_answers h, hr, ht]

/-- A write to another audited register is its act, and one audit entry when the register's value changed. -/
theorem State.regCmd_change {s : State} {o : Origin} {r : Reg} (h : s.answers o r) (hr : r.audited = true)
    (ht : r.triggers = false) (i data : Nat) (act : State → State) :
    s.regCmd o r i data act = s.auditChange (act s) o r i data := by
  unfold State.regCmd State.auditChange State.auditOf
  by_cases e : (act s).regVal r i = s.regVal r i <;> simp [State.access_of_answers h, hr, ht, e]

/-- An RWP write in the presence window is its act and one audit entry that says it took effect. -/
theorem State.rwpCmd_present {s : State} {o : Origin} {r : Reg} (h : s.answers o r)
    (hp : s.flag .MGT_PRESENCE_OPEN 0 = true) (i data : Nat) (act : State → State) :
    s.rwpCmd o r i data act = s.auditOf (act s) true (Origin.presence o) r i data := by
  unfold State.rwpCmd State.auditOf
  simp [State.access_of_answers h, hp]

/-- An RWP write outside the window only leaves its audit entry. -/
theorem State.rwpCmd_absent {s : State} {o : Origin} {r : Reg} (h : s.answers o r)
    (hp : s.flag .MGT_PRESENCE_OPEN 0 = false) (i data : Nat) (act : State → State) :
    s.rwpCmd o r i data act = s.auditOf s false (Origin.audit o) r i data := by
  unfold State.rwpCmd State.auditOf
  simp [State.access_of_answers h, hp]

/-- A front-end dispatch whose opcode and checks hold is the instruction's act. -/
theorem State.frontEnd_of_at {s : State} {t opc : Nat} {l : List (Bool × Bad)} (h : s.at t opc l)
    (check : State → Enc → Option Bad) (act : State → Enc → Nat → State) (hc : check s (s.inst t) = firstBad l) :
    s.frontEnd t opc check act = act s (s.inst t) (s.pc t) := by
  obtain ⟨h1, h2, h3, h4⟩ := h
  unfold State.frontEnd
  unfold State.inst at hc h3
  simp only [h1, h3, hc, h4, if_true, Nat.not_le.mpr h2, if_false]
  rfl

end Sys2Proof.Machine
end

