-- ==== Sys2Proof/Laws/Keeps.lean ====
section
/-! SUPPORT. What every command keeps: the queue, the canonical form of memory, and the widths of the register fields.
Here the relation itself and the two updates that everything else is built from; Laws/KeepsOps.lean and its
successors lift it to every operation and every command. -/

set_option Elab.async false

namespace Sys2Proof.Machine

/-- t has the queue of s, and is sound in each part in which s is. -/
structure Keeps (s t : State) : Prop where
  pending : t.pending = s.pending
  mem : Memory.wf s.mem = true → Memory.wf t.mem = true
  fields : s.fieldsFit = true → t.fieldsFit = true

theorem Keeps.refl (s : State) : Keeps s s := ⟨rfl, id, id⟩

theorem Keeps.trans {s t u : State} (h : Keeps s t) (k : Keeps t u) : Keeps s u :=
  ⟨k.pending.trans h.pending, fun x => k.mem (h.mem x), fun x => k.fields (h.fields x)⟩

theorem Keeps.sound {s t : State} (h : Keeps s t) (i : s.Sound) : t.Sound := ⟨h.mem i.mem, h.fields i.fields⟩

/-- A fold of steps that keep. -/
theorem Keeps.foldl {α : Type} (f : State → α → State) (l : List α) {s t : State} (h : Keeps s t)
    (hf : ∀ s x, Keeps s (f s x)) : Keeps s (l.foldl f t) := by
  induction l generalizing t with
  | nil => exact h
  | cons x l ih => exact ih (h.trans (hf t x))

/-- A fold whose state is the first part of a pair. -/
theorem Keeps.foldl_fst {α β : Type} (f : State × β → α → State × β) (l : List α) {s : State} {t : State × β}
    (h : Keeps s t.1) (hf : ∀ p x, Keeps p.1 (f p x).1) : Keeps s (l.foldl f t).1 := by
  induction l generalizing t with
  | nil => exact h
  | cons x l ih => exact ih (h.trans (hf t x))

/-- An update of any other part of the state. -/
theorem Keeps.upd_iff {s u : State}
    (held : Table (BitVec 32))
    (readData : Word)
    (poison : Table Bool)
    (ecc : Table EccErr)
    (fresh : Nat)
    (tillers : Table Tiller)
    (phys : Table Nat)
    (absent : Table Bool)
    (used : Table Bool)
    (glumes : Table Glume)
    (bank15 : Table Word)
    (gcaches : Table (List GXlat))
    (signals : List Sig)
    (adminPid : Option (Nat × BitVec 16))
    (glmInval : Option (BitVec 12 × Bool × BitVec 16))
    (barriers : Table Barrier)
    (contexts : Table Context)
    (msix : Table Word)
    (folds : List Fold)
    (rings : Table Ring)
    (tlbs : Table (List TlbEntry))
    (engines : Table (List XferOp))
    (retired : List Nat)
    (rows : List RowCe)
    (softRepairs : List Word)
    (repairHard : Bool)
    (memCtl : MemCtl)
    (ports : Table Port)
    (sendFlows : Table SendFlow)
    (recvFlows : Table RecvFlow)
    (inbufs : Table (List Pkt))
    (rrPtr : Table Nat)
    (groups : Table Group)
    (logRecs : List LogRec)
    (logPos : Nat)
    (logUsed : Nat)
    (logOvf : Bool)
    (mirror : Mirror)
    (power : Power)
    (obs : Obs)
    (audit : Table (BitVec 512))
    (flash : Table (BitVec 512))
    (auditPrev : BitVec 512)
    (flashed : Nat)
    (out : List Output) :
    Keeps s (State.mk
      u.pending u.regs held readData u.mem poison ecc fresh tillers phys absent used glumes bank15 gcaches signals
      adminPid glmInval barriers contexts msix folds rings tlbs engines retired rows softRepairs repairHard
      memCtl ports sendFlows recvFlows inbufs rrPtr groups logRecs logPos logUsed logOvf mirror power obs audit flash
      auditPrev flashed out) ↔ Keeps s u :=
  ⟨fun h => ⟨h.pending, h.mem, h.fields⟩, fun h => ⟨h.pending, h.mem, h.fields⟩⟩

theorem fieldsFit_iff (s : State) :
    s.fieldsFit = true ↔ ∀ p ∈ s.regs, p.2.toNat < 2 ^ (Fld.ofNat (p.1 % 1024)).width := by
  simp [State.fieldsFit]

theorem fkey_code (f : Fld) (i : Nat) : Fld.ofNat (fkey f i % 1024) = f := by
  have h := f.ctorIdx_lt
  have : fkey f i % 1024 = f.ctorIdx := by unfold fkey; omega
  rw [this, Fld.ofNat_ctorIdx]

/-- A write of a field, cut to its width. -/
theorem State.setFld_keeps (s : State) (f : Fld) (i v : Nat) : Keeps s (s.setFld f i v) := by
  refine ⟨rfl, id, fun h => ?_⟩
  unfold State.fieldsFit State.setFld at *
  have hv : (BitVec.ofNat 64 (v % 2 ^ f.width)).toNat < 2 ^ f.width := by
    rw [BitVec.toNat_ofNat]
    exact lt_of_le_of_lt (Nat.mod_le _ _) (Nat.mod_lt _ (by positivity))
  unfold Tbl.set
  split
  · exact Tbl.all_del _ _ _ h
  · exact Tbl.all_ins _ _ _ _ (Tbl.all_del _ _ _ h) (by simp only [fkey_code, decide_eq_true_eq]; exact hv)

/-- A write of a byte. -/
theorem State.poke_keeps (s : State) (a : Nat) (b : Byte) : Keeps s (s.poke a b) :=
  ⟨rfl, fun h => Tbl.wf_set _ _ _ _ h, id⟩

/-- A field of a state whose register table fits reads within its width. -/
theorem State.fld_lt (s : State) (h : s.fieldsFit = true) (f : Fld) (i : Nat) : s.fld f i < 2 ^ f.width := by
  have hr : f.info.reset % 2 ^ 64 < 2 ^ f.width := by cases f <;> decide
  rw [fieldsFit_iff] at h
  have key : ∀ t : Table Word, (∀ p ∈ t, p.2.toNat < 2 ^ (Fld.ofNat (p.1 % 1024)).width) →
      (Tbl.get (BitVec.ofNat 64 f.info.reset) t (fkey f i)).toNat < 2 ^ f.width := by
    intro t
    induction t with
    | nil => intro _; simpa [Tbl.get] using hr
    | cons p t ih =>
      obtain ⟨k, w⟩ := p
      intro ht
      by_cases hk : fkey f i = k
      · have := ht (k, w) (by simp)
        rw [← hk, fkey_code] at this
        simpa [Tbl.get, hk] using this
      · simpa [Tbl.get, hk] using ih (fun q hq => ht q (by simp [hq]))
  exact key s.regs h

end Sys2Proof.Machine
end

