-- ==== Sys2Proof/Laws/KeepsTiller.lean ====
section
/-! SUPPORT. What every operation keeps (Laws/Keeps.lean): the shared operations and a Tiller. -/

set_option linter.unusedTactic false
set_option linter.unreachableTactic false

set_option Elab.async false

namespace Sys2Proof.Machine

/-! ### Ops -/

theorem State.setFlag_keeps (a0 : State) (a1 : Fld) (a2 : Nat) (a3 : Bool) : Keeps a0 (State.setFlag a0 a1 a2
    a3) := by
  unfold State.setFlag
  try dsimp only
  repeat'
    first
    | with_reducible apply Keeps.refl
    | assumption
    | split
    | with_reducible apply Keeps.trans ?_ (State.setFld_keeps _ _ _ _)
    | intro _
    | dsimp only

theorem State.satAdd_keeps (a0 : State) (a1 : Fld) (a2 : Nat) (a3 : Nat) : Keeps a0 (State.satAdd a0 a1 a2 a3)
    := by
  unfold State.satAdd
  try dsimp only
  repeat'
    first
    | with_reducible apply Keeps.refl
    | assumption
    | split
    | with_reducible apply Keeps.trans ?_ (State.setFld_keeps _ _ _ _)
    | intro _
    | dsimp only

theorem State.wrapAdd_keeps (a0 : State) (a1 : Fld) (a2 : Nat) (a3 : Nat) : Keeps a0 (State.wrapAdd a0 a1 a2 a3)
    := by
  unfold State.wrapAdd
  try dsimp only
  repeat'
    first
    | with_reducible apply Keeps.refl
    | assumption
    | split
    | with_reducible apply Keeps.trans ?_ (State.setFld_keeps _ _ _ _)
    | intro _
    | dsimp only

theorem State.setBit_keeps (a0 : State) (a1 : Fld) (a2 : Nat) (a3 : Nat) : Keeps a0 (State.setBit a0 a1 a2 a3)
    := by
  unfold State.setBit
  try dsimp only
  repeat'
    first
    | with_reducible apply Keeps.refl
    | assumption
    | split
    | with_reducible apply Keeps.trans ?_ (State.setFld_keeps _ _ _ _)
    | intro _
    | dsimp only

theorem State.clearBit_keeps (a0 : State) (a1 : Fld) (a2 : Nat) (a3 : Nat) : Keeps a0 (State.clearBit a0 a1 a2
    a3) := by
  unfold State.clearBit
  try dsimp only
  repeat'
    first
    | with_reducible apply Keeps.refl
    | assumption
    | split
    | with_reducible apply Keeps.trans ?_ (State.setFld_keeps _ _ _ _)
    | intro _
    | dsimp only

theorem State.resetFld_keeps (a0 : State) (a1 : Fld) (a2 : Nat) : Keeps a0 (State.resetFld a0 a1 a2) := by
  unfold State.resetFld
  try dsimp only
  repeat'
    first
    | with_reducible apply Keeps.refl
    | assumption
    | split
    | with_reducible apply Keeps.trans ?_ (State.setFld_keeps _ _ _ _)
    | intro _
    | dsimp only

theorem State.emit_keeps (a0 : State) (a1 : Output) : Keeps a0 (State.emit a0 a1) := by
  unfold State.emit
  try dsimp only
  repeat'
    first
    | with_reducible apply Keeps.refl
    | assumption
    | simp only [Keeps.upd_iff]
    | split
    | intro _
    | dsimp only

theorem State.useFree_keeps (a0 : State) : Keeps a0 (State.useFree a0) := by
  unfold State.useFree
  try dsimp only
  repeat'
    first
    | with_reducible apply Keeps.refl
    | assumption
    | simp only [Keeps.upd_iff]
    | split
    | intro _
    | dsimp only

theorem State.count_keeps (a0 : State) (a1 : Nat) (a2 : Nat) : Keeps a0 (State.count a0 a1 a2) := by
  unfold State.count
  try dsimp only
  repeat'
    first
    | with_reducible apply Keeps.refl
    | assumption
    | simp only [Keeps.upd_iff]
    | split
    | intro _
    | dsimp only

theorem State.pokeBytes_keeps (a0 : State) (a1 : Nat) (a2 : List Sys2Proof.Byte) : Keeps a0 (State.pokeBytes a0
    a1 a2) := by
  induction a2 generalizing a0 a1 with
  | nil =>
    unfold State.pokeBytes
    try dsimp only
    repeat'
      first
      | with_reducible apply Keeps.refl
      | assumption
      | split
      | with_reducible apply Keeps.trans ?_ (State.poke_keeps _ _ _)
      | intro _
      | dsimp only
  | cons b l ih =>
    unfold State.pokeBytes
    try dsimp only
    repeat'
      first
      | with_reducible apply Keeps.refl
      | assumption
      | split
      | with_reducible apply Keeps.trans ?_ (State.poke_keeps _ _ _)
      | with_reducible apply Keeps.trans ?_ (ih _ _)
      | intro _
      | dsimp only

theorem State.setPoison_keeps (a0 : State) (a1 : Nat) (a2 : Bool) : Keeps a0 (State.setPoison a0 a1 a2) := by
  unfold State.setPoison
  try dsimp only
  repeat'
    first
    | with_reducible apply Keeps.refl
    | assumption
    | simp only [Keeps.upd_iff]
    | split
    | intro _
    | dsimp only

theorem State.setEcc_keeps (a0 : State) (a1 : Nat) (a2 : Sys2Proof.EccErr) : Keeps a0 (State.setEcc a0 a1 a2) :=
    by
  unfold State.setEcc
  try dsimp only
  repeat'
    first
    | with_reducible apply Keeps.refl
    | assumption
    | simp only [Keeps.upd_iff]
    | split
    | intro _
    | dsimp only

theorem State.cleanWords_keeps (a0 : State) (a1 : Nat) (a2 : Nat) : Keeps a0 (State.cleanWords a0 a1 a2) := by
  unfold State.cleanWords
  try dsimp only
  repeat'
    first
    | with_reducible apply Keeps.refl
    | assumption
    | split
    | with_reducible apply Keeps.trans ?_ (State.setEcc_keeps _ _ _)
    | with_reducible apply Keeps.trans ?_ (State.setPoison_keeps _ _ _)
    | with_reducible apply Keeps.foldl _ _ ?_ ?_
    | with_reducible apply Keeps.foldl_fst _ _ ?_ ?_
    | intro _
    | dsimp only

theorem State.markDirty_keeps (a0 : State) (a1 : Nat) (a2 : Nat) : Keeps a0 (State.markDirty a0 a1 a2) := by
  unfold State.markDirty
  try dsimp only
  repeat'
    first
    | with_reducible apply Keeps.refl
    | assumption
    | simp only [Keeps.upd_iff]
    | split
    | with_reducible apply Keeps.foldl _ _ ?_ ?_
    | with_reducible apply Keeps.foldl_fst _ _ ?_ ?_
    | intro _
    | dsimp only

theorem State.countRead_keeps (a0 : State) (a1 : Nat) (a2 : Nat) : Keeps a0 (State.countRead a0 a1 a2) := by
  unfold State.countRead
  try dsimp only
  repeat'
    first
    | with_reducible apply Keeps.refl
    | assumption
    | split
    | with_reducible apply Keeps.trans ?_ (State.count_keeps _ _ _)
    | intro _
    | dsimp only

theorem State.wrote_keeps (a0 : State) (a1 : Nat) (a2 : Nat) : Keeps a0 (State.wrote a0 a1 a2) := by
  unfold State.wrote
  try dsimp only
  repeat'
    first
    | with_reducible apply Keeps.refl
    | assumption
    | split
    | with_reducible apply Keeps.trans ?_ (State.count_keeps _ _ _)
    | with_reducible apply Keeps.trans ?_ (State.markDirty_keeps _ _ _)
    | intro _
    | dsimp only

theorem State.auditPut_keeps (a0 : State) (a1 : Bool) (a2 : AuditOrg) (a3 : Nat) (a4 : Nat) (a5 : Nat) (a6 :
    Nat) (a7 : Nat) : Keeps a0 (State.auditPut a0 a1 a2 a3 a4 a5 a6 a7) := by
  unfold State.auditPut
  try dsimp only
  repeat'
    first
    | with_reducible apply Keeps.refl
    | assumption
    | simp only [Keeps.upd_iff]
    | split
    | with_reducible apply Keeps.trans ?_ (State.wrapAdd_keeps _ _ _ _)
    | intro _
    | dsimp only

theorem State.setVector_keeps (a0 : State) (a1 : Nat) (a2 : Nat) : Keeps a0 (State.setVector a0 a1 a2) := by
  unfold State.setVector
  try dsimp only
  repeat'
    first
    | with_reducible apply Keeps.refl
    | assumption
    | simp only [Keeps.upd_iff]
    | split
    | intro _
    | dsimp only

theorem State.stopMark_keeps (a0 : State) (a1 : Nat) : Keeps a0 (State.stopMark a0 a1) := by
  unfold State.stopMark
  try dsimp only
  repeat'
    first
    | with_reducible apply Keeps.refl
    | assumption
    | split
    | with_reducible apply Keeps.trans ?_ (State.setFlag_keeps _ _ _ _)
    | intro _
    | dsimp only

theorem State.rowCe_keeps (a0 : State) (a1 : Accessor) (a2 : Nat) (a3 : Bool) (a4 : Bool) : Keeps a0
    (State.rowCe a0 a1 a2 a3 a4).1 := by
  unfold State.rowCe
  try dsimp only
  repeat'
    first
    | with_reducible apply Keeps.refl
    | assumption
    | simp only [Keeps.upd_iff]
    | split
    | with_reducible apply Keeps.trans ?_ (State.setBit_keeps _ _ _ _)
    | intro _
    | dsimp only

theorem State.rowCe_of {a0 : State} {a1 : Accessor} {a2 : Nat} {a3 : Bool} {a4 : Bool} {t : State} {r : List
    ErrRec}
    (h : State.rowCe a0 a1 a2 a3 a4 = (t, r))
    {s : State} (k : Keeps s a0) : Keeps s t := by
  have := State.rowCe_keeps a0 a1 a2 a3 a4
  rw [h] at this
  exact k.trans this

theorem State.wordLost_keeps (a0 : State) (a1 : Accessor) (a2 : Nat) (a3 : Bool) (a4 : Bool) : Keeps a0
    (State.wordLost a0 a1 a2 a3 a4).1 := by
  unfold State.wordLost
  try dsimp only
  repeat'
    first
    | with_reducible apply Keeps.refl
    | assumption
    | split
    | with_reducible apply Keeps.trans ?_ (State.setPoison_keeps _ _ _)
    | with_reducible apply Keeps.trans ?_ (State.setEcc_keeps _ _ _)
    | with_reducible apply Keeps.trans ?_ (State.setBit_keeps _ _ _ _)
    | with_reducible apply Keeps.trans ?_ (State.setFlag_keeps _ _ _ _)
    | intro _
    | dsimp only

theorem State.wordLost_of {a0 : State} {a1 : Accessor} {a2 : Nat} {a3 : Bool} {a4 : Bool} {t : State} {r : List
    ErrRec}
    (h : State.wordLost a0 a1 a2 a3 a4 = (t, r))
    {s : State} (k : Keeps s a0) : Keeps s t := by
  have := State.wordLost_keeps a0 a1 a2 a3 a4
  rw [h] at this
  exact k.trans this

theorem State.wordFixed_keeps (a0 : State) (a1 : Accessor) (a2 : Nat) (a3 : Bool) (a4 : Bool) : Keeps a0
    (State.wordFixed a0 a1 a2 a3 a4).1 := by
  unfold State.wordFixed
  try dsimp only
  repeat'
    first
    | with_reducible apply Keeps.refl
    | assumption
    | split
    | with_reducible apply Keeps.trans ?_ (State.setEcc_keeps _ _ _)
    | with_reducible apply Keeps.trans ?_ (State.rowCe_keeps _ _ _ _ _)
    | with_reducible apply Keeps.trans ?_ (State.count_keeps _ _ _)
    | intro _
    | dsimp only
    | (with_reducible apply State.rowCe_of; assumption)

theorem State.wordFixed_of {a0 : State} {a1 : Accessor} {a2 : Nat} {a3 : Bool} {a4 : Bool} {t : State} {r : List
    ErrRec}
    (h : State.wordFixed a0 a1 a2 a3 a4 = (t, r))
    {s : State} (k : Keeps s a0) : Keeps s t := by
  have := State.wordFixed_keeps a0 a1 a2 a3 a4
  rw [h] at this
  exact k.trans this

theorem State.farPoison_keeps (a0 : State) (a1 : Accessor) (a2 : Nat) : Keeps a0 (State.farPoison a0 a1 a2).1 :=
    by
  unfold State.farPoison
  try dsimp only
  repeat'
    first
    | with_reducible apply Keeps.refl
    | assumption
    | split
    | with_reducible apply Keeps.trans ?_ (State.setFlag_keeps _ _ _ _)
    | intro _
    | dsimp only

theorem State.farPoison_of {a0 : State} {a1 : Accessor} {a2 : Nat} {t : State} {r : List ErrRec}
    (h : State.farPoison a0 a1 a2 = (t, r))
    {s : State} (k : Keeps s a0) : Keeps s t := by
  have := State.farPoison_keeps a0 a1 a2
  rw [h] at this
  exact k.trans this

theorem State.checkWord_keeps (a0 : State) (a1 : Accessor) (a2 : Nat) (a3 : Bool) : Keeps a0 (State.checkWord a0
    a1 a2 a3).1 := by
  unfold State.checkWord
  try dsimp only
  repeat'
    first
    | with_reducible apply Keeps.refl
    | assumption
    | split
    | with_reducible apply Keeps.trans ?_ (State.farPoison_keeps _ _ _)
    | with_reducible apply Keeps.trans ?_ (State.wordFixed_keeps _ _ _ _ _)
    | with_reducible apply Keeps.trans ?_ (State.wordLost_keeps _ _ _ _ _)
    | intro _
    | dsimp only
    | (with_reducible apply State.farPoison_of; assumption)
    | (with_reducible apply State.wordFixed_of; assumption)
    | (with_reducible apply State.wordLost_of; assumption)

theorem State.checkWord_of {a0 : State} {a1 : Accessor} {a2 : Nat} {a3 : Bool} {t : State} {r : List ErrRec}
    (h : State.checkWord a0 a1 a2 a3 = (t, r))
    {s : State} (k : Keeps s a0) : Keeps s t := by
  have := State.checkWord_keeps a0 a1 a2 a3
  rw [h] at this
  exact k.trans this

theorem gather_keeps {α : Type} (f : State → α → State × List ErrRec) (s : State) (l : List α)
    (h : ∀ s x, Keeps s (f s x).1) : Keeps s (gather f s l).1 := by
  unfold gather
  exact Keeps.foldl_fst _ _ (Keeps.refl _) (fun p x => h p.1 x)

theorem gather_of {α : Type} {f : State → α → State × List ErrRec} {s₀ : State} {l : List α} {t : State}
    {r : List ErrRec} (e : gather f s₀ l = (t, r)) (h : ∀ s x, Keeps s (f s x).1) {s : State} (k : Keeps s s₀) :
    Keeps s t := by
  have := gather_keeps f s₀ l h
  rw [e] at this
  exact k.trans this

theorem State.readBytes_keeps (a0 : State) (a1 : Accessor) (a2 : Nat) (a3 : Nat) : Keeps a0 (State.readBytes a0
    a1 a2 a3).1 := by
  unfold State.readBytes
  try dsimp only
  repeat'
    first
    | with_reducible apply Keeps.refl
    | assumption
    | split
    | with_reducible apply Keeps.trans ?_ (Sys2Proof.Machine.gather_keeps _ _ _ ?_)
    | with_reducible apply Keeps.trans ?_ (State.checkWord_keeps _ _ _ _)
    | with_reducible apply Keeps.trans ?_ (State.stopMark_keeps _ _)
    | with_reducible apply Keeps.trans ?_ (State.countRead_keeps _ _ _)
    | with_reducible apply Keeps.trans ?_ (State.useFree_keeps _)
    | intro _
    | dsimp only
    | (with_reducible apply Sys2Proof.Machine.gather_of; assumption)
    | (with_reducible apply State.checkWord_of; assumption)

theorem State.readBytes_of {a0 : State} {a1 : Accessor} {a2 : Nat} {a3 : Nat} {t : State} {r : List ErrRec ×
    List Sys2Proof.PByte}
    (h : State.readBytes a0 a1 a2 a3 = (t, r))
    {s : State} (k : Keeps s a0) : Keeps s t := by
  have := State.readBytes_keeps a0 a1 a2 a3
  rw [h] at this
  exact k.trans this

theorem State.writeWord_keeps (a0 : State) (a1 : Accessor) (a2 : Nat) (a3 : Nat) (a4 : Bool) : Keeps a0
    (State.writeWord a0 a1 a2 a3 a4).1 := by
  unfold State.writeWord
  try dsimp only
  repeat'
    first
    | with_reducible apply Keeps.refl
    | assumption
    | split
    | with_reducible apply Keeps.trans ?_ (State.setEcc_keeps _ _ _)
    | with_reducible apply Keeps.trans ?_ (State.setPoison_keeps _ _ _)
    | with_reducible apply Keeps.trans ?_ (State.checkWord_keeps _ _ _ _)
    | intro _
    | dsimp only
    | (with_reducible apply State.checkWord_of; assumption)

theorem State.writeWord_of {a0 : State} {a1 : Accessor} {a2 : Nat} {a3 : Nat} {a4 : Bool} {t : State} {r : List
    ErrRec}
    (h : State.writeWord a0 a1 a2 a3 a4 = (t, r))
    {s : State} (k : Keeps s a0) : Keeps s t := by
  have := State.writeWord_keeps a0 a1 a2 a3 a4
  rw [h] at this
  exact k.trans this

theorem State.writeCells_keeps (a0 : State) (a1 : Accessor) (a2 : List (Nat × Sys2Proof.PByte)) : Keeps a0
    (State.writeCells a0 a1 a2).1 := by
  unfold State.writeCells
  try dsimp only
  repeat'
    first
    | with_reducible apply Keeps.refl
    | assumption
    | split
    | with_reducible apply Keeps.trans ?_ (Sys2Proof.Machine.gather_keeps _ _ _ ?_)
    | with_reducible apply Keeps.trans ?_ (State.writeWord_keeps _ _ _ _ _)
    | with_reducible apply Keeps.trans ?_ (State.poke_keeps _ _ _)
    | with_reducible apply Keeps.trans ?_ (State.stopMark_keeps _ _)
    | with_reducible apply Keeps.foldl _ _ ?_ ?_
    | with_reducible apply Keeps.foldl_fst _ _ ?_ ?_
    | intro _
    | dsimp only
    | (with_reducible apply Sys2Proof.Machine.gather_of; assumption)
    | (with_reducible apply State.writeWord_of; assumption)

theorem State.writeCells_of {a0 : State} {a1 : Accessor} {a2 : List (Nat × Sys2Proof.PByte)} {t : State} {r :
    List ErrRec}
    (h : State.writeCells a0 a1 a2 = (t, r))
    {s : State} (k : Keeps s a0) : Keeps s t := by
  have := State.writeCells_keeps a0 a1 a2
  rw [h] at this
  exact k.trans this

theorem State.writeBytes_keeps (a0 : State) (a1 : Accessor) (a2 : Nat) (a3 : List Sys2Proof.PByte) : Keeps a0
    (State.writeBytes a0 a1 a2 a3).1 := by
  unfold State.writeBytes
  try dsimp only
  repeat'
    first
    | with_reducible apply Keeps.refl
    | assumption
    | split
    | with_reducible apply Keeps.trans ?_ (State.writeCells_keeps _ _ _)
    | with_reducible apply Keeps.trans ?_ (State.wrote_keeps _ _ _)
    | intro _
    | dsimp only
    | (with_reducible apply State.writeCells_of; assumption)

theorem State.writeBytes_of {a0 : State} {a1 : Accessor} {a2 : Nat} {a3 : List Sys2Proof.PByte} {t : State} {r :
    List ErrRec}
    (h : State.writeBytes a0 a1 a2 a3 = (t, r))
    {s : State} (k : Keeps s a0) : Keeps s t := by
  have := State.writeBytes_keeps a0 a1 a2 a3
  rw [h] at this
  exact k.trans this

theorem State.walkReads_keeps (a0 : State) (a1 : Option Sys2Proof.HostErr) (a2 : Nat) (a3 : Nat) (a4 : UnitRef)
    : Keeps a0 (State.walkReads a0 a1 a2 a3 a4).1 := by
  unfold State.walkReads
  try dsimp only
  repeat'
    first
    | with_reducible apply Keeps.refl
    | assumption
    | split
    | with_reducible apply Keeps.trans ?_ (Sys2Proof.Machine.gather_keeps _ _ _ ?_)
    | with_reducible apply Keeps.trans ?_ (State.readBytes_keeps _ _ _ _)
    | intro _
    | dsimp only
    | (with_reducible apply Sys2Proof.Machine.gather_of; assumption)
    | (with_reducible apply State.readBytes_of; assumption)

theorem State.walkReads_of {a0 : State} {a1 : Option Sys2Proof.HostErr} {a2 : Nat} {a3 : Nat} {a4 : UnitRef} {t
    : State} {r : List ErrRec}
    (h : State.walkReads a0 a1 a2 a3 a4 = (t, r))
    {s : State} (k : Keeps s a0) : Keeps s t := by
  have := State.walkReads_keeps a0 a1 a2 a3 a4
  rw [h] at this
  exact k.trans this

theorem State.setCtx_keeps (a0 : State) (a1 : Nat) (a2 : Context) : Keeps a0 (State.setCtx a0 a1 a2) := by
  unfold State.setCtx
  try dsimp only
  repeat'
    first
    | with_reducible apply Keeps.refl
    | assumption
    | simp only [Keeps.upd_iff]
    | split
    | intro _
    | dsimp only

theorem State.holdWalk_keeps (a0 : State) (a1 : Nat) (a2 : Nat) (a3 : Nat) (a4 : UnitRef) : Keeps a0
    (State.holdWalk a0 a1 a2 a3 a4) := by
  unfold State.holdWalk
  try dsimp only
  repeat'
    first
    | with_reducible apply Keeps.refl
    | assumption
    | split
    | with_reducible apply Keeps.trans ?_ (State.setCtx_keeps _ _ _)
    | intro _
    | dsimp only

theorem State.frozen_keeps (a0 : State) (a1 : Nat) (a2 : Nat) (a3 : Nat) (a4 : UnitRef) : Keeps a0 (State.frozen
    a0 a1 a2 a3 a4) := by
  unfold State.frozen
  try dsimp only
  repeat'
    first
    | with_reducible apply Keeps.refl
    | assumption
    | split
    | with_reducible apply Keeps.trans ?_ (State.setFlag_keeps _ _ _ _)
    | with_reducible apply Keeps.trans ?_ (State.holdWalk_keeps _ _ _ _ _)
    | intro _
    | dsimp only

theorem State.xlat_keeps (a0 : State) (a1 : Option Sys2Proof.HostErr) (a2 : Nat) (a3 : Nat) (a4 : Nat) (a5 :
    Nat) (a6 : UnitRef) : Keeps a0 (State.xlat a0 a1 a2 a3 a4 a5 a6).1 := by
  unfold State.xlat
  try dsimp only
  repeat'
    first
    | with_reducible apply Keeps.refl
    | assumption
    | simp only [Keeps.upd_iff]
    | split
    | with_reducible apply Keeps.trans ?_ (State.frozen_keeps _ _ _ _ _)
    | with_reducible apply Keeps.trans ?_ (State.holdWalk_keeps _ _ _ _ _)
    | with_reducible apply Keeps.trans ?_ (State.walkReads_keeps _ _ _ _ _)
    | intro _
    | dsimp only
    | (with_reducible apply State.walkReads_of; assumption)

theorem State.xlat_of {a0 : State} {a1 : Option Sys2Proof.HostErr} {a2 : Nat} {a3 : Nat} {a4 : Nat} {a5 : Nat}
    {a6 : UnitRef} {t : State} {r : Xlat × List ErrRec}
    (h : State.xlat a0 a1 a2 a3 a4 a5 a6 = (t, r))
    {s : State} (k : Keeps s a0) : Keeps s t := by
  have := State.xlat_keeps a0 a1 a2 a3 a4 a5 a6
  rw [h] at this
  exact k.trans this

theorem State.holdRec_keeps (a0 : State) (a1 : QFld) (a2 : Nat) (a3 : Nat) (a4 : BitVec 256) (a5 : List (Nat ×
    Nat)) : Keeps a0 (State.holdRec a0 a1 a2 a3 a4 a5) := by
  unfold State.holdRec
  try dsimp only
  repeat'
    first
    | with_reducible apply Keeps.refl
    | assumption
    | split
    | with_reducible apply Keeps.trans ?_ (State.setCtx_keeps _ _ _)
    | intro _
    | dsimp only

theorem State.setVectors_keeps (a0 : State) (a1 : List (Nat × Nat)) : Keeps a0 (State.setVectors a0 a1) := by
  unfold State.setVectors
  try dsimp only
  repeat'
    first
    | with_reducible apply Keeps.refl
    | assumption
    | split
    | with_reducible apply Keeps.trans ?_ (State.setVector_keeps _ _ _)
    | with_reducible apply Keeps.foldl _ _ ?_ ?_
    | with_reducible apply Keeps.foldl_fst _ _ ?_ ?_
    | intro _
    | dsimp only

theorem State.slotWrite_keeps (a0 : State) (a1 : QFld) (a2 : Nat) (a3 : Nat) (a4 : Nat) (a5 : BitVec 256) (a6 :
    List (Nat × Nat)) : Keeps a0 (State.slotWrite a0 a1 a2 a3 a4 a5 a6).1 := by
  unfold State.slotWrite
  try dsimp only
  repeat'
    first
    | with_reducible apply Keeps.refl
    | assumption
    | split
    | with_reducible apply Keeps.trans ?_ (State.satAdd_keeps _ _ _ _)
    | with_reducible apply Keeps.trans ?_ (State.stopMark_keeps _ _)
    | with_reducible apply Keeps.trans ?_ (State.writeBytes_keeps _ _ _ _)
    | with_reducible apply Keeps.trans ?_ (State.setVectors_keeps _ _)
    | with_reducible apply Keeps.trans ?_ (State.wrapAdd_keeps _ _ _ _)
    | intro _
    | dsimp only
    | (with_reducible apply State.writeBytes_of; assumption)

theorem State.slotWrite_of {a0 : State} {a1 : QFld} {a2 : Nat} {a3 : Nat} {a4 : Nat} {a5 : BitVec 256} {a6 :
    List (Nat × Nat)} {t : State} {r : List ErrRec × Posted}
    (h : State.slotWrite a0 a1 a2 a3 a4 a5 a6 = (t, r))
    {s : State} (k : Keeps s a0) : Keeps s t := by
  have := State.slotWrite_keeps a0 a1 a2 a3 a4 a5 a6
  rw [h] at this
  exact k.trans this

theorem State.queueWrite_keeps (a0 : State) (a1 : QFld) (a2 : Nat) (a3 : Nat) (a4 : BitVec 256) (a5 : List (Nat
    × Nat)) : Keeps a0 (State.queueWrite a0 a1 a2 a3 a4 a5).1 := by
  unfold State.queueWrite
  try dsimp only
  repeat'
    first
    | with_reducible apply Keeps.refl
    | assumption
    | split
    | with_reducible apply Keeps.trans ?_ (State.satAdd_keeps _ _ _ _)
    | with_reducible apply Keeps.trans ?_ (State.holdRec_keeps _ _ _ _ _ _)
    | with_reducible apply Keeps.trans ?_ (State.xlat_keeps _ _ _ _ _ _ _)
    | with_reducible apply Keeps.trans ?_ (State.slotWrite_keeps _ _ _ _ _ _ _)
    | intro _
    | dsimp only
    | (with_reducible apply State.xlat_of; assumption)
    | (with_reducible apply State.slotWrite_of; assumption)

theorem State.queueWrite_of {a0 : State} {a1 : QFld} {a2 : Nat} {a3 : Nat} {a4 : BitVec 256} {a5 : List (Nat ×
    Nat)} {t : State} {r : List ErrRec × Posted}
    (h : State.queueWrite a0 a1 a2 a3 a4 a5 = (t, r))
    {s : State} (k : Keeps s a0) : Keeps s t := by
  have := State.queueWrite_keeps a0 a1 a2 a3 a4 a5
  rw [h] at this
  exact k.trans this

theorem State.mirrorRecord_keeps (a0 : State) (a1 : Nat) (a2 : BitVec 256) : Keeps a0 (State.mirrorRecord a0 a1
    a2).1 := by
  unfold State.mirrorRecord
  try dsimp only
  repeat'
    first
    | with_reducible apply Keeps.refl
    | assumption
    | split
    | with_reducible apply Keeps.trans ?_ (State.queueWrite_keeps _ _ _ _ _ _)
    | intro _
    | dsimp only
    | (with_reducible apply State.queueWrite_of; assumption)

theorem State.mirrorRecord_of {a0 : State} {a1 : Nat} {a2 : BitVec 256} {t : State} {r : List ErrRec}
    (h : State.mirrorRecord a0 a1 a2 = (t, r))
    {s : State} (k : Keeps s a0) : Keeps s t := by
  have := State.mirrorRecord_keeps a0 a1 a2
  rw [h] at this
  exact k.trans this

theorem State.lostRecord_keeps (a0 : State) (a1 : QFld) (a2 : Nat) : Keeps a0 (State.lostRecord a0 a1 a2).1 :=
    by
  unfold State.lostRecord
  try dsimp only
  repeat'
    first
    | with_reducible apply Keeps.refl
    | assumption
    | split
    | with_reducible apply Keeps.trans ?_ (State.queueWrite_keeps _ _ _ _ _ _)
    | with_reducible apply Keeps.trans ?_ (State.setFld_keeps _ _ _ _)
    | with_reducible apply Keeps.trans ?_ (State.mirrorRecord_keeps _ _ _)
    | intro _
    | dsimp only
    | (with_reducible apply State.queueWrite_of; assumption)
    | (with_reducible apply State.mirrorRecord_of; assumption)

theorem State.lostRecord_of {a0 : State} {a1 : QFld} {a2 : Nat} {t : State} {r : List ErrRec}
    (h : State.lostRecord a0 a1 a2 = (t, r))
    {s : State} (k : Keeps s a0) : Keeps s t := by
  have := State.lostRecord_keeps a0 a1 a2
  rw [h] at this
  exact k.trans this

theorem State.queuePut_keeps (a0 : State) (a1 : QFld) (a2 : Nat) (a3 : Nat) (a4 : BitVec 256) (a5 : List (Nat ×
    Nat)) : Keeps a0 (State.queuePut a0 a1 a2 a3 a4 a5).1 := by
  unfold State.queuePut
  try dsimp only
  repeat'
    first
    | with_reducible apply Keeps.refl
    | assumption
    | split
    | with_reducible apply Keeps.trans ?_ (Sys2Proof.Machine.gather_keeps _ _ _ ?_)
    | with_reducible apply Keeps.trans ?_ (State.lostRecord_keeps _ _ _)
    | with_reducible apply Keeps.trans ?_ (State.queueWrite_keeps _ _ _ _ _ _)
    | intro _
    | dsimp only
    | (with_reducible apply Sys2Proof.Machine.gather_of; assumption)
    | (with_reducible apply State.lostRecord_of; assumption)
    | (with_reducible apply State.queueWrite_of; assumption)

theorem State.queuePut_of {a0 : State} {a1 : QFld} {a2 : Nat} {a3 : Nat} {a4 : BitVec 256} {a5 : List (Nat ×
    Nat)} {t : State} {r : List ErrRec × Posted}
    (h : State.queuePut a0 a1 a2 a3 a4 a5 = (t, r))
    {s : State} (k : Keeps s a0) : Keeps s t := by
  have := State.queuePut_keeps a0 a1 a2 a3 a4 a5
  rw [h] at this
  exact k.trans this

theorem State.post_keeps (a0 : State) (a1 : ErrRec) (a2 : Nat) (a3 : Nat) : Keeps a0 (State.post a0 a1 a2 a3).1
    := by
  unfold State.post
  try dsimp only
  repeat'
    first
    | with_reducible apply Keeps.refl
    | assumption
    | split
    | with_reducible apply Keeps.trans ?_ (State.queuePut_keeps _ _ _ _ _ _)
    | with_reducible apply Keeps.trans ?_ (State.setVector_keeps _ _ _)
    | with_reducible apply Keeps.foldl _ _ ?_ ?_
    | with_reducible apply Keeps.foldl_fst _ _ ?_ ?_
    | intro _
    | dsimp only
    | (with_reducible apply State.queuePut_of; assumption)

theorem State.post_of {a0 : State} {a1 : ErrRec} {a2 : Nat} {a3 : Nat} {t : State} {r : List ErrRec}
    (h : State.post a0 a1 a2 a3 = (t, r))
    {s : State} (k : Keeps s a0) : Keeps s t := by
  have := State.post_keeps a0 a1 a2 a3
  rw [h] at this
  exact k.trans this

theorem State.postAll_keeps (d : Nat) (s : State) (r : ErrRec) (n m : Nat) : Keeps s (State.postAll d s r n m) := by
  induction d generalizing s r n m with
  | zero => exact State.satAdd_keeps ..
  | succ d ih => exact Keeps.foldl _ _ (State.post_keeps ..) (fun s e => ih s e _ _)

theorem State.putRecord_keeps (a0 : State) (a1 : ErrRec) (a2 : Nat) (a3 : Nat) : Keeps a0 (State.putRecord a0 a1
    a2 a3) := by
  unfold State.putRecord
  try dsimp only
  repeat'
    first
    | with_reducible apply Keeps.refl
    | assumption
    | split
    | with_reducible apply Keeps.trans ?_ (State.postAll_keeps _ _ _ _ _)
    | intro _
    | dsimp only

theorem State.record_keeps (a0 : State) (a1 : ErrRec) : Keeps a0 (State.record a0 a1) := by
  unfold State.record
  try dsimp only
  repeat'
    first
    | with_reducible apply Keeps.refl
    | assumption
    | simp only [Keeps.upd_iff]
    | split
    | with_reducible apply Keeps.trans ?_ (State.putRecord_keeps _ _ _ _)
    | intro _
    | dsimp only

theorem State.flushFolds_keeps (a0 : State) : Keeps a0 (State.flushFolds a0) := by
  unfold State.flushFolds
  try dsimp only
  repeat'
    first
    | with_reducible apply Keeps.refl
    | assumption
    | simp only [Keeps.upd_iff]
    | split
    | with_reducible apply Keeps.trans ?_ (State.putRecord_keeps _ _ _ _)
    | with_reducible apply Keeps.foldl _ _ ?_ ?_
    | with_reducible apply Keeps.foldl_fst _ _ ?_ ?_
    | intro _
    | dsimp only

theorem State.audit!_keeps (a0 : State) (a1 : Bool) (a2 : AuditOrg) (a3 : Nat) (a4 : Nat) (a5 : Nat) (a6 : Nat)
    (a7 : Nat) : Keeps a0 (State.audit! a0 a1 a2 a3 a4 a5 a6 a7) := by
  unfold State.audit!
  try dsimp only
  repeat'
    first
    | with_reducible apply Keeps.refl
    | assumption
    | split
    | with_reducible apply Keeps.trans ?_ (State.satAdd_keeps _ _ _ _)
    | with_reducible apply Keeps.trans ?_ (State.record_keeps _ _)
    | with_reducible apply Keeps.trans ?_ (State.auditPut_keeps _ _ _ _ _ _ _ _)
    | with_reducible apply Keeps.trans ?_ (State.setVector_keeps _ _ _)
    | intro _
    | dsimp only

theorem State.raise_keeps (a0 : State) (a1 : ErrRec) : Keeps a0 (State.raise a0 a1) := by
  unfold State.raise
  try dsimp only
  repeat'
    first
    | with_reducible apply Keeps.refl
    | assumption
    | split
    | with_reducible apply Keeps.trans ?_ (State.record_keeps _ _)
    | with_reducible apply Keeps.trans ?_ (State.audit!_keeps _ _ _ _ _ _ _ _)
    | intro _
    | dsimp only

theorem State.raiseAll_keeps (a0 : State) (a1 : List ErrRec) : Keeps a0 (State.raiseAll a0 a1) := by
  unfold State.raiseAll
  try dsimp only
  repeat'
    first
    | with_reducible apply Keeps.refl
    | assumption
    | split
    | with_reducible apply Keeps.trans ?_ (State.raise_keeps _ _)
    | with_reducible apply Keeps.foldl _ _ ?_ ?_
    | with_reducible apply Keeps.foldl_fst _ _ ?_ ?_
    | intro _
    | dsimp only

theorem State.raiseNo_keeps (a0 : State) (a1 : Nat) (a2 : UnitRef) (a3 : Nat) : Keeps a0 (State.raiseNo a0 a1 a2
    a3) := by
  unfold State.raiseNo
  try dsimp only
  repeat'
    first
    | with_reducible apply Keeps.refl
    | assumption
    | split
    | with_reducible apply Keeps.trans ?_ (State.raise_keeps _ _)
    | intro _
    | dsimp only

theorem State.raiseCtx_keeps (a0 : State) (a1 : Nat) (a2 : Nat) (a3 : UnitRef) (a4 : Nat) : Keeps a0
    (State.raiseCtx a0 a1 a2 a3 a4) := by
  unfold State.raiseCtx
  try dsimp only
  repeat'
    first
    | with_reducible apply Keeps.refl
    | assumption
    | split
    | with_reducible apply Keeps.trans ?_ (State.raise_keeps _ _)
    | intro _
    | dsimp only

theorem raised_keeps (a0 : State × List ErrRec) {s : State} (k : Keeps s a0.1) : Keeps s (raised a0) := by
  refine k.trans ?_
  unfold raised
  try dsimp only
  repeat'
    first
    | with_reducible apply Keeps.refl
    | assumption
    | split
    | with_reducible apply Keeps.trans ?_ (State.raiseAll_keeps _ _)
    | intro _
    | dsimp only

theorem State.lostReport_keeps (a0 : State) (a1 : QFld) (a2 : Nat) : Keeps a0 (State.lostReport a0 a1 a2) := by
  unfold State.lostReport
  try dsimp only
  repeat'
    first
    | with_reducible apply Keeps.refl
    | assumption
    | split
    | with_reducible apply raised_keeps _ ?_
    | with_reducible apply Keeps.trans ?_ (State.lostRecord_keeps _ _ _)
    | intro _
    | dsimp only
    | (with_reducible apply State.lostRecord_of; assumption)

theorem State.postTo_keeps (a0 : State) (a1 : QFld) (a2 : Nat) (a3 : Nat) (a4 : BitVec 256) (a5 : List (Nat ×
    Nat)) : Keeps a0 (State.postTo a0 a1 a2 a3 a4 a5).1 := by
  unfold State.postTo
  try dsimp only
  repeat'
    first
    | with_reducible apply Keeps.refl
    | assumption
    | split
    | with_reducible apply Keeps.trans ?_ (State.queuePut_keeps _ _ _ _ _ _)
    | with_reducible apply Keeps.trans ?_ (State.raiseAll_keeps _ _)
    | intro _
    | dsimp only
    | (with_reducible apply State.queuePut_of; assumption)

theorem State.postTo_of {a0 : State} {a1 : QFld} {a2 : Nat} {a3 : Nat} {a4 : BitVec 256} {a5 : List (Nat × Nat)}
    {t : State} {r : Posted}
    (h : State.postTo a0 a1 a2 a3 a4 a5 = (t, r))
    {s : State} (k : Keeps s a0) : Keeps s t := by
  have := State.postTo_keeps a0 a1 a2 a3 a4 a5
  rw [h] at this
  exact k.trans this

theorem State.flushHeld_keeps (a0 : State) (a1 : Nat) : Keeps a0 (State.flushHeld a0 a1) := by
  unfold State.flushHeld
  try dsimp only
  repeat'
    first
    | with_reducible apply Keeps.refl
    | assumption
    | split
    | with_reducible apply Keeps.trans ?_ (State.queueWrite_keeps _ _ _ _ _ _)
    | with_reducible apply Keeps.trans ?_ (State.raiseAll_keeps _ _)
    | with_reducible apply Keeps.trans ?_ (State.setCtx_keeps _ _ _)
    | with_reducible apply Keeps.foldl _ _ ?_ ?_
    | with_reducible apply Keeps.foldl_fst _ _ ?_ ?_
    | intro _
    | dsimp only
    | (with_reducible apply State.queueWrite_of; assumption)

theorem State.freezeCtx_keeps (a0 : State) (a1 : Nat) (a2 : Nat) (a3 : Nat) (a4 : Nat) (a5 : Nat) (a6 : Nat) (a7
    : UnitRef) : Keeps a0 (State.freezeCtx a0 a1 a2 a3 a4 a5 a6 a7) := by
  unfold State.freezeCtx
  try dsimp only
  repeat'
    first
    | with_reducible apply Keeps.refl
    | assumption
    | split
    | with_reducible apply Keeps.trans ?_ (State.raise_keeps _ _)
    | with_reducible apply Keeps.trans ?_ (State.frozen_keeps _ _ _ _ _)
    | intro _
    | dsimp only

theorem State.translate_keeps (a0 : State) (a1 : Option Sys2Proof.HostErr) (a2 : Nat) (a3 : Nat) (a4 : Nat) (a5
    : Nat) (a6 : UnitRef) : Keeps a0 (State.translate a0 a1 a2 a3 a4 a5 a6).1 := by
  unfold State.translate
  try dsimp only
  repeat'
    first
    | with_reducible apply Keeps.refl
    | assumption
    | split
    | with_reducible apply Keeps.trans ?_ (State.xlat_keeps _ _ _ _ _ _ _)
    | with_reducible apply Keeps.trans ?_ (State.raiseAll_keeps _ _)
    | intro _
    | dsimp only
    | (with_reducible apply State.xlat_of; assumption)

theorem State.translate_of {a0 : State} {a1 : Option Sys2Proof.HostErr} {a2 : Nat} {a3 : Nat} {a4 : Nat} {a5 :
    Nat} {a6 : UnitRef} {t : State} {r : Xlat}
    (h : State.translate a0 a1 a2 a3 a4 a5 a6 = (t, r))
    {s : State} (k : Keeps s a0) : Keeps s t := by
  have := State.translate_keeps a0 a1 a2 a3 a4 a5 a6
  rw [h] at this
  exact k.trans this

theorem State.memRead_keeps (a0 : State) (a1 : Accessor) (a2 : Nat) (a3 : Nat) : Keeps a0 (State.memRead a0 a1
    a2 a3).1 := by
  unfold State.memRead
  try dsimp only
  repeat'
    first
    | with_reducible apply Keeps.refl
    | assumption
    | split
    | with_reducible apply Keeps.trans ?_ (State.readBytes_keeps _ _ _ _)
    | with_reducible apply Keeps.trans ?_ (State.raiseAll_keeps _ _)
    | intro _
    | dsimp only
    | (with_reducible apply State.readBytes_of; assumption)

theorem State.memRead_of {a0 : State} {a1 : Accessor} {a2 : Nat} {a3 : Nat} {t : State} {r : List
    Sys2Proof.PByte}
    (h : State.memRead a0 a1 a2 a3 = (t, r))
    {s : State} (k : Keeps s a0) : Keeps s t := by
  have := State.memRead_keeps a0 a1 a2 a3
  rw [h] at this
  exact k.trans this

theorem State.memWriteCells_keeps (a0 : State) (a1 : Accessor) (a2 : List (Nat × Sys2Proof.PByte)) : Keeps a0
    (State.memWriteCells a0 a1 a2) := by
  unfold State.memWriteCells
  try dsimp only
  repeat'
    first
    | with_reducible apply Keeps.refl
    | assumption
    | split
    | with_reducible apply raised_keeps _ ?_
    | with_reducible apply Keeps.trans ?_ (State.writeCells_keeps _ _ _)
    | intro _
    | dsimp only
    | (with_reducible apply State.writeCells_of; assumption)

theorem State.memWrite_keeps (a0 : State) (a1 : Accessor) (a2 : Nat) (a3 : List Sys2Proof.PByte) : Keeps a0
    (State.memWrite a0 a1 a2 a3) := by
  unfold State.memWrite
  try dsimp only
  repeat'
    first
    | with_reducible apply Keeps.refl
    | assumption
    | split
    | with_reducible apply raised_keeps _ ?_
    | with_reducible apply Keeps.trans ?_ (State.writeBytes_keeps _ _ _ _)
    | intro _
    | dsimp only
    | (with_reducible apply State.writeBytes_of; assumption)

theorem State.obsWindow_keeps (a0 : State) : Keeps a0 (State.obsWindow a0) := by
  unfold State.obsWindow
  try dsimp only
  repeat'
    first
    | with_reducible apply Keeps.refl
    | assumption
    | simp only [Keeps.upd_iff]
    | split
    | intro _
    | dsimp only

theorem State.setSendFlow_keeps (a0 : State) (a1 : Nat) (a2 : SendFlow) : Keeps a0 (State.setSendFlow a0 a1 a2)
    := by
  unfold State.setSendFlow
  try dsimp only
  repeat'
    first
    | with_reducible apply Keeps.refl
    | assumption
    | simp only [Keeps.upd_iff]
    | split
    | intro _
    | dsimp only

theorem State.queuePkt_keeps (a0 : State) (a1 : Nat) (a2 : Pkt) : Keeps a0 (State.queuePkt a0 a1 a2) := by
  unfold State.queuePkt
  try dsimp only
  repeat'
    first
    | with_reducible apply Keeps.refl
    | assumption
    | split
    | with_reducible apply Keeps.trans ?_ (State.setSendFlow_keeps _ _ _)
    | intro _
    | dsimp only

theorem State.obsTake_keeps (a0 : State) (a1 : Bool) (a2 : Nat) : Keeps a0 (State.obsTake a0 a1 a2) := by
  unfold State.obsTake
  try dsimp only
  repeat'
    first
    | with_reducible apply Keeps.refl
    | assumption
    | simp only [Keeps.upd_iff]
    | split
    | intro _
    | dsimp only

theorem State.ringStore_keeps (a0 : State) (a1 : Bool) (a2 : RingFld) (a3 : Nat → List Sys2Proof.Byte) : Keeps
    a0 (State.ringStore a0 a1 a2 a3) := by
  unfold State.ringStore
  try dsimp only
  repeat'
    first
    | with_reducible apply Keeps.refl
    | assumption
    | split
    | with_reducible apply Keeps.trans ?_ (State.queuePkt_keeps _ _ _)
    | with_reducible apply Keeps.trans ?_ (State.memWrite_keeps _ _ _ _)
    | with_reducible apply Keeps.trans ?_ (State.wrapAdd_keeps _ _ _ _)
    | with_reducible apply Keeps.trans ?_ (State.count_keeps _ _ _)
    | with_reducible apply Keeps.trans ?_ (State.obsTake_keeps _ _ _)
    | intro _
    | dsimp only

theorem State.ringLost_keeps (a0 : State) (a1 : Bool) : Keeps a0 (State.ringLost a0 a1) := by
  unfold State.ringLost
  try dsimp only
  repeat'
    first
    | with_reducible apply Keeps.refl
    | assumption
    | simp only [Keeps.upd_iff]
    | split
    | with_reducible apply Keeps.trans ?_ (State.satAdd_keeps _ _ _ _)
    | intro _
    | dsimp only

theorem State.ringPut_keeps (a0 : State) (a1 : Bool) (a2 : Nat → List Sys2Proof.Byte) (a3 : Nat → Nat → List
    Sys2Proof.Byte) : Keeps a0 (State.ringPut a0 a1 a2 a3) := by
  unfold State.ringPut
  try dsimp only
  repeat'
    first
    | with_reducible apply Keeps.refl
    | assumption
    | simp only [Keeps.upd_iff]
    | split
    | with_reducible apply Keeps.trans ?_ (State.ringStore_keeps _ _ _ _)
    | with_reducible apply Keeps.trans ?_ (State.setFlag_keeps _ _ _ _)
    | with_reducible apply Keeps.trans ?_ (State.ringLost_keeps _ _)
    | intro _
    | dsimp only

theorem State.trace_keeps (a0 : State) (a1 : Nat) (a2 : Nat) (a3 : UnitRef) (a4 : Nat) (a5 : Nat) (a6 : Nat) :
    Keeps a0 (State.trace a0 a1 a2 a3 a4 a5 a6) := by
  unfold State.trace
  try dsimp only
  repeat'
    first
    | with_reducible apply Keeps.refl
    | assumption
    | split
    | with_reducible apply Keeps.trans ?_ (State.obsWindow_keeps _)
    | with_reducible apply Keeps.trans ?_ (State.setFlag_keeps _ _ _ _)
    | with_reducible apply Keeps.trans ?_ (State.ringLost_keeps _ _)
    | with_reducible apply Keeps.trans ?_ (State.ringPut_keeps _ _ _ _)
    | intro _
    | dsimp only

theorem State.telPut_keeps (a0 : State) (a1 : Nat) (a2 : Nat) : Keeps a0 (State.telPut a0 a1 a2) := by
  unfold State.telPut
  try dsimp only
  repeat'
    first
    | with_reducible apply Keeps.refl
    | assumption
    | simp only [Keeps.upd_iff]
    | split
    | with_reducible apply Keeps.trans ?_ (State.obsWindow_keeps _)
    | with_reducible apply Keeps.trans ?_ (State.setFlag_keeps _ _ _ _)
    | with_reducible apply Keeps.trans ?_ (State.ringPut_keeps _ _ _ _)
    | intro _
    | dsimp only

theorem State.telDrain_keeps (a0 : State) : Keeps a0 (State.telDrain a0) := by
  unfold State.telDrain
  try dsimp only
  repeat'
    first
    | with_reducible apply Keeps.refl
    | assumption
    | simp only [Keeps.upd_iff]
    | split
    | with_reducible apply Keeps.trans ?_ (State.telPut_keeps _ _ _)
    | with_reducible apply Keeps.foldl _ _ ?_ ?_
    | with_reducible apply Keeps.foldl_fst _ _ ?_ ?_
    | intro _
    | dsimp only

theorem State.readCva_keeps (a0 : State) (a1 : Nat) (a2 : Nat) (a3 : Nat) (a4 : Nat) (a5 : Nat) (a6 : Accessor)
    (a7 : Nat) : Keeps a0 (State.readCva a0 a1 a2 a3 a4 a5 a6 a7).1 := by
  induction a7 generalizing a0 a1 a2 a3 a4 a5 a6 with
  | zero =>
    unfold State.readCva
    try dsimp only
    repeat'
      first
      | with_reducible apply Keeps.refl
      | assumption
      | split
      | with_reducible apply Keeps.trans ?_ (State.translate_keeps _ _ _ _ _ _ _)
      | with_reducible apply Keeps.trans ?_ (State.memRead_keeps _ _ _ _)
      | intro _
      | dsimp only
      | (with_reducible apply State.translate_of; assumption)
      | (with_reducible apply State.memRead_of; assumption)
  | succ k ih =>
    unfold State.readCva
    try dsimp only
    repeat'
      first
      | with_reducible apply Keeps.refl
      | assumption
      | split
      | with_reducible apply Keeps.trans ?_ (State.translate_keeps _ _ _ _ _ _ _)
      | with_reducible apply Keeps.trans ?_ (State.memRead_keeps _ _ _ _)
      | with_reducible apply Keeps.trans ?_ (ih _ _ _ _ _ _ _)
      | intro _
      | dsimp only
      | (with_reducible apply State.translate_of; assumption)
      | (with_reducible apply State.memRead_of; assumption)

theorem State.readCva_of {a0 : State} {a1 : Nat} {a2 : Nat} {a3 : Nat} {a4 : Nat} {a5 : Nat} {a6 : Accessor} {a7
    : Nat} {t : State} {r : Option (List Sys2Proof.PByte)}
    (h : State.readCva a0 a1 a2 a3 a4 a5 a6 a7 = (t, r))
    {s : State} (k : Keeps s a0) : Keeps s t := by
  have := State.readCva_keeps a0 a1 a2 a3 a4 a5 a6 a7
  rw [h] at this
  exact k.trans this

theorem State.readPart_keeps (a0 : State) (a1 : Nat) (a2 : Nat) (a3 : Nat) (a4 : Nat) (a5 : Nat) (a6 : Accessor)
    (a7 : Nat) : Keeps a0 (State.readPart a0 a1 a2 a3 a4 a5 a6 a7).1 := by
  induction a7 generalizing a0 a1 a2 a3 a4 a5 a6 with
  | zero =>
    unfold State.readPart
    try dsimp only
    repeat'
      first
      | with_reducible apply Keeps.refl
      | assumption
      | split
      | with_reducible apply Keeps.trans ?_ (State.translate_keeps _ _ _ _ _ _ _)
      | with_reducible apply Keeps.trans ?_ (State.memRead_keeps _ _ _ _)
      | intro _
      | dsimp only
      | (with_reducible apply State.translate_of; assumption)
      | (with_reducible apply State.memRead_of; assumption)
  | succ k ih =>
    unfold State.readPart
    try dsimp only
    repeat'
      first
      | with_reducible apply Keeps.refl
      | assumption
      | split
      | with_reducible apply Keeps.trans ?_ (State.translate_keeps _ _ _ _ _ _ _)
      | with_reducible apply Keeps.trans ?_ (State.memRead_keeps _ _ _ _)
      | with_reducible apply Keeps.trans ?_ (ih _ _ _ _ _ _ _)
      | intro _
      | dsimp only
      | (with_reducible apply State.translate_of; assumption)
      | (with_reducible apply State.memRead_of; assumption)

theorem State.readPart_of {a0 : State} {a1 : Nat} {a2 : Nat} {a3 : Nat} {a4 : Nat} {a5 : Nat} {a6 : Accessor}
    {a7 : Nat} {t : State} {r : List Sys2Proof.PByte × Bool}
    (h : State.readPart a0 a1 a2 a3 a4 a5 a6 a7 = (t, r))
    {s : State} (k : Keeps s a0) : Keeps s t := by
  have := State.readPart_keeps a0 a1 a2 a3 a4 a5 a6 a7
  rw [h] at this
  exact k.trans this

theorem State.writeCva_keeps (a0 : State) (a1 : Nat) (a2 : Nat) (a3 : Nat) (a4 : List Sys2Proof.PByte) (a5 :
    Accessor) (a6 : Nat) : Keeps a0 (State.writeCva a0 a1 a2 a3 a4 a5 a6).1 := by
  induction a6 generalizing a0 a1 a2 a3 a4 a5 with
  | zero =>
    unfold State.writeCva
    try dsimp only
    repeat'
      first
      | with_reducible apply Keeps.refl
      | assumption
      | split
      | with_reducible apply Keeps.trans ?_ (State.translate_keeps _ _ _ _ _ _ _)
      | with_reducible apply Keeps.trans ?_ (State.memWrite_keeps _ _ _ _)
      | intro _
      | dsimp only
      | (with_reducible apply State.translate_of; assumption)
  | succ k ih =>
    unfold State.writeCva
    try dsimp only
    repeat'
      first
      | with_reducible apply Keeps.refl
      | assumption
      | split
      | with_reducible apply Keeps.trans ?_ (State.translate_keeps _ _ _ _ _ _ _)
      | with_reducible apply Keeps.trans ?_ (State.memWrite_keeps _ _ _ _)
      | with_reducible apply Keeps.trans ?_ (ih _ _ _ _ _ _)
      | intro _
      | dsimp only
      | (with_reducible apply State.translate_of; assumption)

theorem State.writeCva_of {a0 : State} {a1 : Nat} {a2 : Nat} {a3 : Nat} {a4 : List Sys2Proof.PByte} {a5 :
    Accessor} {a6 : Nat} {t : State} {r : Bool}
    (h : State.writeCva a0 a1 a2 a3 a4 a5 a6 = (t, r))
    {s : State} (k : Keeps s a0) : Keeps s t := by
  have := State.writeCva_keeps a0 a1 a2 a3 a4 a5 a6
  rw [h] at this
  exact k.trans this

theorem State.setGlume_keeps (a0 : State) (a1 : Nat) (a2 : Glume) : Keeps a0 (State.setGlume a0 a1 a2) := by
  unfold State.setGlume
  try dsimp only
  repeat'
    first
    | with_reducible apply Keeps.refl
    | assumption
    | simp only [Keeps.upd_iff]
    | split
    | intro _
    | dsimp only

theorem State.glumeEntry_keeps (a0 : State) (a1 : Nat) (a2 : Nat) (a3 : Nat) : Keeps a0 (State.glumeEntry a0 a1
    a2 a3).1 := by
  unfold State.glumeEntry
  try dsimp only
  repeat'
    first
    | with_reducible apply Keeps.refl
    | assumption
    | simp only [Keeps.upd_iff]
    | split
    | with_reducible apply Keeps.trans ?_ (State.memRead_keeps _ _ _ _)
    | intro _
    | dsimp only
    | (with_reducible apply State.memRead_of; assumption)

theorem State.glumeEntry_of {a0 : State} {a1 : Nat} {a2 : Nat} {a3 : Nat} {t : State} {r : Nat × Bool}
    (h : State.glumeEntry a0 a1 a2 a3 = (t, r))
    {s : State} (k : Keeps s a0) : Keeps s t := by
  have := State.glumeEntry_keeps a0 a1 a2 a3
  rw [h] at this
  exact k.trans this

theorem State.glumePid_keeps (a0 : State) (a1 : Nat) (a2 : Nat) (a3 : Nat) : Keeps a0 (State.glumePid a0 a1 a2
    a3).1 := by
  unfold State.glumePid
  try dsimp only
  repeat'
    first
    | with_reducible apply Keeps.refl
    | assumption
    | split
    | with_reducible apply Keeps.trans ?_ (State.glumeEntry_keeps _ _ _ _)
    | intro _
    | dsimp only
    | (with_reducible apply State.glumeEntry_of; assumption)

theorem State.glumePid_of {a0 : State} {a1 : Nat} {a2 : Nat} {a3 : Nat} {t : State} {r : GRes}
    (h : State.glumePid a0 a1 a2 a3 = (t, r))
    {s : State} (k : Keeps s a0) : Keeps s t := by
  have := State.glumePid_keeps a0 a1 a2 a3
  rw [h] at this
  exact k.trans this

theorem State.glumeXlat_keeps (a0 : State) (a1 : Nat) (a2 : Nat) (a3 : Nat) : Keeps a0 (State.glumeXlat a0 a1 a2
    a3).1 := by
  unfold State.glumeXlat
  try dsimp only
  repeat'
    first
    | with_reducible apply Keeps.refl
    | assumption
    | split
    | with_reducible apply Keeps.trans ?_ (State.glumePid_keeps _ _ _ _)
    | intro _
    | dsimp only
    | (with_reducible apply State.glumePid_of; assumption)

theorem State.glumeXlat_of {a0 : State} {a1 : Nat} {a2 : Nat} {a3 : Nat} {t : State} {r : GRes}
    (h : State.glumeXlat a0 a1 a2 a3 = (t, r))
    {s : State} (k : Keeps s a0) : Keeps s t := by
  have := State.glumeXlat_keeps a0 a1 a2 a3
  rw [h] at this
  exact k.trans this

theorem State.dropSignal_keeps (a0 : State) : Keeps a0 (State.dropSignal a0) := by
  unfold State.dropSignal
  try dsimp only
  repeat'
    first
    | with_reducible apply Keeps.refl
    | assumption
    | split
    | with_reducible apply Keeps.trans ?_ (State.satAdd_keeps _ _ _ _)
    | intro _
    | dsimp only

theorem State.raiseGlume_keeps (a0 : State) (a1 : Nat) (a2 : Nat) (a3 : Nat) (a4 : Nat) : Keeps a0
    (State.raiseGlume a0 a1 a2 a3 a4) := by
  unfold State.raiseGlume
  try dsimp only
  repeat'
    first
    | with_reducible apply Keeps.refl
    | assumption
    | split
    | with_reducible apply Keeps.trans ?_ (State.raiseCtx_keeps _ _ _ _ _)
    | with_reducible apply Keeps.trans ?_ (State.useFree_keeps _)
    | intro _
    | dsimp only

theorem State.sendSignalBy_keeps (a0 : State) (a1 : Bool) (a2 : Nat) (a3 : Nat) (a4 : Nat) (a5 : Nat) : Keeps a0
    (State.sendSignalBy a0 a1 a2 a3 a4 a5) := by
  unfold State.sendSignalBy
  try dsimp only
  repeat'
    first
    | with_reducible apply Keeps.refl
    | assumption
    | simp only [Keeps.upd_iff]
    | split
    | with_reducible apply Keeps.trans ?_ (State.glumeXlat_keeps _ _ _ _)
    | with_reducible apply Keeps.trans ?_ (State.dropSignal_keeps _)
    | with_reducible apply Keeps.trans ?_ (State.raiseGlume_keeps _ _ _ _ _)
    | intro _
    | dsimp only
    | (with_reducible apply State.glumeXlat_of; assumption)

theorem State.sendSignal_keeps (a0 : State) (a1 : Nat) (a2 : Nat) (a3 : Nat) (a4 : Nat) : Keeps a0
    (State.sendSignal a0 a1 a2 a3 a4) := by
  unfold State.sendSignal
  try dsimp only
  repeat'
    first
    | with_reducible apply Keeps.refl
    | assumption
    | split
    | with_reducible apply Keeps.trans ?_ (State.sendSignalBy_keeps _ _ _ _ _ _)
    | intro _
    | dsimp only

/-! ### TillerOps -/

theorem State.setTil_keeps (a0 : State) (a1 : Nat) (a2 : Tiller) : Keeps a0 (State.setTil a0 a1 a2) := by
  unfold State.setTil
  try dsimp only
  repeat'
    first
    | with_reducible apply Keeps.refl
    | assumption
    | simp only [Keeps.upd_iff]
    | split
    | intro _
    | dsimp only

theorem State.setPreg_keeps (a0 : State) (a1 : Nat) (a2 : Nat) (a3 : Nat) : Keeps a0 (State.setPreg a0 a1 a2 a3)
    := by
  unfold State.setPreg
  try dsimp only
  repeat'
    first
    | with_reducible apply Keeps.refl
    | assumption
    | split
    | with_reducible apply Keeps.trans ?_ (State.setFld_keeps _ _ _ _)
    | intro _
    | dsimp only

theorem State.setTstate_keeps (a0 : State) (a1 : Nat) (a2 : Nat) : Keeps a0 (State.setTstate a0 a1 a2) := by
  unfold State.setTstate
  try dsimp only
  repeat'
    first
    | with_reducible apply Keeps.refl
    | assumption
    | split
    | with_reducible apply Keeps.trans ?_ (State.setFld_keeps _ _ _ _)
    | intro _
    | dsimp only

theorem State.setPc_keeps (a0 : State) (a1 : Nat) (a2 : Nat) : Keeps a0 (State.setPc a0 a1 a2) := by
  unfold State.setPc
  try dsimp only
  repeat'
    first
    | with_reducible apply Keeps.refl
    | assumption
    | split
    | with_reducible apply Keeps.trans ?_ (State.setFld_keeps _ _ _ _)
    | intro _
    | dsimp only

theorem State.setRing_keeps (a0 : State) (a1 : Nat) (a2 : Ring) : Keeps a0 (State.setRing a0 a1 a2) := by
  unfold State.setRing
  try dsimp only
  repeat'
    first
    | with_reducible apply Keeps.refl
    | assumption
    | simp only [Keeps.upd_iff]
    | split
    | intro _
    | dsimp only

theorem State.completion_keeps (a0 : State) (a1 : Nat) (a2 : BitVec 512) (a3 : Nat) (a4 : Nat) (a5 : Bool) (a6 :
    Bool) (a7 : Nat) (a8 : Nat) : Keeps a0 (State.completion a0 a1 a2 a3 a4 a5 a6 a7 a8) := by
  unfold State.completion
  try dsimp only
  repeat'
    first
    | with_reducible apply Keeps.refl
    | assumption
    | split
    | with_reducible apply Keeps.trans ?_ (State.postTo_keeps _ _ _ _ _ _)
    | with_reducible apply Keeps.trans ?_ (State.setVectors_keeps _ _)
    | intro _
    | dsimp only
    | (with_reducible apply State.postTo_of; assumption)

theorem State.noProgram_keeps (a0 : State) (a1 : Nat) : Keeps a0 (State.noProgram a0 a1) := by
  unfold State.noProgram
  try dsimp only
  repeat'
    first
    | with_reducible apply Keeps.refl
    | assumption
    | split
    | with_reducible apply Keeps.trans ?_ (State.setFld_keeps _ _ _ _)
    | intro _
    | dsimp only

theorem State.faultTiller_keeps (a0 : State) (a1 : Nat) (a2 : Nat) : Keeps a0 (State.faultTiller a0 a1 a2) := by
  unfold State.faultTiller
  try dsimp only
  repeat'
    first
    | with_reducible apply Keeps.refl
    | assumption
    | split
    | with_reducible apply Keeps.trans ?_ (State.setTil_keeps _ _ _)
    | with_reducible apply Keeps.trans ?_ (State.noProgram_keeps _ _)
    | with_reducible apply Keeps.trans ?_ (State.setFld_keeps _ _ _ _)
    | with_reducible apply Keeps.trans ?_ (State.setTstate_keeps _ _ _)
    | intro _
    | dsimp only

theorem State.reportFault_keeps (a0 : State) (a1 : Nat) (a2 : Nat) (a3 : BitVec 512) (a4 : Nat) (a5 : Nat) :
    Keeps a0 (State.reportFault a0 a1 a2 a3 a4 a5) := by
  unfold State.reportFault
  try dsimp only
  repeat'
    first
    | with_reducible apply Keeps.refl
    | assumption
    | split
    | with_reducible apply Keeps.trans ?_ (State.raiseCtx_keeps _ _ _ _ _)
    | with_reducible apply Keeps.trans ?_ (State.trace_keeps _ _ _ _ _ _ _)
    | with_reducible apply Keeps.trans ?_ (State.completion_keeps _ _ _ _ _ _ _ _ _)
    | intro _
    | dsimp only

theorem State.commandFault_keeps (a0 : State) (a1 : Nat) (a2 : Nat) (a3 : Nat) : Keeps a0 (State.commandFault a0
    a1 a2 a3) := by
  unfold State.commandFault
  try dsimp only
  repeat'
    first
    | with_reducible apply Keeps.refl
    | assumption
    | split
    | with_reducible apply Keeps.trans ?_ (State.faultTiller_keeps _ _ _)
    | with_reducible apply Keeps.trans ?_ (State.setRing_keeps _ _ _)
    | with_reducible apply Keeps.trans ?_ (State.reportFault_keeps _ _ _ _ _ _)
    | with_reducible apply Keeps.foldl _ _ ?_ ?_
    | with_reducible apply Keeps.foldl_fst _ _ ?_ ?_
    | intro _
    | dsimp only

theorem State.progFault_keeps (a0 : State) (a1 : Nat) (a2 : Nat) (a3 : Nat) (a4 : Nat) : Keeps a0
    (State.progFault a0 a1 a2 a3 a4) := by
  unfold State.progFault
  try dsimp only
  repeat'
    first
    | with_reducible apply Keeps.refl
    | assumption
    | split
    | with_reducible apply Keeps.trans ?_ (State.raise_keeps _ _)
    | with_reducible apply Keeps.trans ?_ (State.setPc_keeps _ _ _)
    | with_reducible apply Keeps.trans ?_ (State.faultTiller_keeps _ _ _)
    | with_reducible apply Keeps.trans ?_ (State.commandFault_keeps _ _ _ _)
    | intro _
    | dsimp only

theorem State.descFault_keeps (a0 : State) (a1 : Nat) (a2 : Nat) (a3 : Nat) : Keeps a0 (State.descFault a0 a1 a2
    a3) := by
  unfold State.descFault
  try dsimp only
  repeat'
    first
    | with_reducible apply Keeps.refl
    | assumption
    | split
    | with_reducible apply Keeps.trans ?_ (State.progFault_keeps _ _ _ _ _)
    | intro _
    | dsimp only

theorem State.setAg_keeps (a0 : State) (a1 : Nat) (a2 : Nat) (a3 : Ag) : Keeps a0 (State.setAg a0 a1 a2 a3) :=
    by
  unfold State.setAg
  try dsimp only
  repeat'
    first
    | with_reducible apply Keeps.refl
    | assumption
    | split
    | with_reducible apply Keeps.trans ?_ (State.setTil_keeps _ _ _)
    | intro _
    | dsimp only

theorem State.storeRead_keeps (a0 : State) (a1 : Nat) (a2 : List (Nat × Bool)) : Keeps a0 (State.storeRead a0 a1
    a2).1 := by
  induction a2 generalizing a0 a1 with
  | nil =>
    unfold State.storeRead
    try dsimp only
    repeat'
      first
      | with_reducible apply Keeps.refl
      | assumption
      | split
      | with_reducible apply Keeps.trans ?_ (State.memRead_keeps _ _ _ _)
      | intro _
      | dsimp only
      | (with_reducible apply State.memRead_of; assumption)
  | cons b l ih =>
    unfold State.storeRead
    try dsimp only
    repeat'
      first
      | with_reducible apply Keeps.refl
      | assumption
      | split
      | with_reducible apply Keeps.trans ?_ (State.memRead_keeps _ _ _ _)
      | with_reducible apply Keeps.trans ?_ (ih _ _)
      | intro _
      | dsimp only
      | (with_reducible apply State.memRead_of; assumption)

theorem State.storeRead_of {a0 : State} {a1 : Nat} {a2 : List (Nat × Bool)} {t : State} {r : List
    Sys2Proof.PByte}
    (h : State.storeRead a0 a1 a2 = (t, r))
    {s : State} (k : Keeps s a0) : Keeps s t := by
  have := State.storeRead_keeps a0 a1 a2
  rw [h] at this
  exact k.trans this

theorem State.storeWrite_keeps (a0 : State) (a1 : Nat) (a2 : List (Nat × Option Sys2Proof.PByte)) : Keeps a0
    (State.storeWrite a0 a1 a2) := by
  unfold State.storeWrite
  try dsimp only
  repeat'
    first
    | with_reducible apply Keeps.refl
    | assumption
    | split
    | with_reducible apply Keeps.trans ?_ (State.memWriteCells_keeps _ _ _)
    | intro _
    | dsimp only

theorem State.dispatched_keeps (a0 : State) (a1 : Nat) : Keeps a0 (State.dispatched a0 a1) := by
  unfold State.dispatched
  try dsimp only
  repeat'
    first
    | with_reducible apply Keeps.refl
    | assumption
    | split
    | with_reducible apply Keeps.trans ?_ (State.count_keeps _ _ _)
    | with_reducible apply Keeps.trans ?_ (State.satAdd_keeps _ _ _ _)
    | with_reducible apply Keeps.trans ?_ (State.setTil_keeps _ _ _)
    | with_reducible apply Keeps.trans ?_ (State.setTstate_keeps _ _ _)
    | intro _
    | dsimp only

theorem State.badInst_keeps (a0 : State) (a1 : Nat) (a2 : Nat) (a3 : Bad) : Keeps a0 (State.badInst a0 a1 a2 a3)
    := by
  unfold State.badInst
  try dsimp only
  repeat'
    first
    | with_reducible apply Keeps.refl
    | assumption
    | split
    | with_reducible apply Keeps.trans ?_ (State.progFault_keeps _ _ _ _ _)
    | with_reducible apply Keeps.trans ?_ (State.setFlag_keeps _ _ _ _)
    | intro _
    | dsimp only

theorem State.frontEnd_keeps (a0 : State) (a1 : Nat) (a2 : Nat) (a3 : State → Enc → Option Bad) (a4 : State →
    Enc → Nat → State) (h4 : ∀ x0 x1 x2, Keeps x0 (a4 x0 x1 x2)) : Keeps a0 (State.frontEnd a0 a1 a2 a3 a4) :=
    by
  unfold State.frontEnd
  try dsimp only
  repeat'
    first
    | with_reducible apply Keeps.refl
    | assumption
    | split
    | with_reducible apply Keeps.trans ?_ (State.badInst_keeps _ _ _ _)
    | with_reducible apply Keeps.trans ?_ (h4 _ _ _)
    | intro _
    | dsimp only

theorem State.nextPc_keeps (a0 : State) (a1 : Nat) (a2 : Nat) : Keeps a0 (State.nextPc a0 a1 a2) := by
  unfold State.nextPc
  try dsimp only
  repeat'
    first
    | with_reducible apply Keeps.refl
    | assumption
    | split
    | with_reducible apply Keeps.trans ?_ (State.dispatched_keeps _ _)
    | with_reducible apply Keeps.trans ?_ (State.setPc_keeps _ _ _)
    | intro _
    | dsimp only

theorem State.enqueue_keeps (a0 : State) (a1 : Nat) (a2 : Nat) (a3 : Nat) (a4 : Nat) (a5 : Nat) (a6 : BitVec
    128) (a7 : List Sys2Proof.Word) (a8 : Sys2Proof.Word) : Keeps a0 (State.enqueue a0 a1 a2 a3 a4 a5 a6 a7 a8)
    := by
  unfold State.enqueue
  try dsimp only
  repeat'
    first
    | with_reducible apply Keeps.refl
    | assumption
    | split
    | with_reducible apply Keeps.trans ?_ (State.setTil_keeps _ _ _)
    | intro _
    | dsimp only

theorem State.setInst_keeps (a0 : State) (a1 : Nat) (a2 : Inst) : Keeps a0 (State.setInst a0 a1 a2) := by
  unfold State.setInst
  try dsimp only
  repeat'
    first
    | with_reducible apply Keeps.refl
    | assumption
    | split
    | with_reducible apply Keeps.trans ?_ (State.setTil_keeps _ _ _)
    | intro _
    | dsimp only

theorem State.retire_keeps (a0 : State) (a1 : Nat) (a2 : Nat) : Keeps a0 (State.retire a0 a1 a2) := by
  unfold State.retire
  try dsimp only
  repeat'
    first
    | with_reducible apply Keeps.refl
    | assumption
    | split
    | with_reducible apply Keeps.trans ?_ (State.setTil_keeps _ _ _)
    | intro _
    | dsimp only

theorem State.stepped_keeps (a0 : State) (a1 : Nat) : Keeps a0 (State.stepped a0 a1) := by
  unfold State.stepped
  try dsimp only
  repeat'
    first
    | with_reducible apply Keeps.refl
    | assumption
    | split
    | with_reducible apply Keeps.trans ?_ (State.setTil_keeps _ _ _)
    | intro _
    | dsimp only

theorem State.unitDone_keeps (a0 : State) (a1 : Nat) (a2 : Inst) (a3 : Nat) : Keeps a0 (State.unitDone a0 a1 a2
    a3) := by
  unfold State.unitDone
  try dsimp only
  repeat'
    first
    | with_reducible apply Keeps.refl
    | assumption
    | split
    | with_reducible apply Keeps.trans ?_ (State.stepped_keeps _ _)
    | with_reducible apply Keeps.trans ?_ (State.setInst_keeps _ _ _)
    | with_reducible apply Keeps.trans ?_ (State.retire_keeps _ _ _)
    | intro _
    | dsimp only

theorem State.runFault_keeps (a0 : State) (a1 : Nat) (a2 : Nat) (a3 : Nat) (a4 : Int) : Keeps a0 (State.runFault
    a0 a1 a2 a3 a4) := by
  unfold State.runFault
  try dsimp only
  repeat'
    first
    | with_reducible apply Keeps.refl
    | assumption
    | split
    | with_reducible apply Keeps.trans ?_ (State.progFault_keeps _ _ _ _ _)
    | intro _
    | dsimp only

/-! ### FrontEnd -/

theorem State.doNop_keeps (a0 : State) (a1 : Nat) : Keeps a0 (State.doNop a0 a1) := by
  unfold State.doNop
  try dsimp only
  repeat'
    first
    | with_reducible apply Keeps.refl
    | assumption
    | split
    | with_reducible apply Keeps.trans ?_ (State.badInst_keeps _ _ _ _)
    | with_reducible apply Keeps.trans ?_ (State.frontEnd_keeps _ _ _ _ _ ?_)
    | with_reducible apply Keeps.trans ?_ (State.nextPc_keeps _ _ _)
    | intro _
    | dsimp only

theorem State.doFence_keeps (a0 : State) (a1 : Nat) : Keeps a0 (State.doFence a0 a1) := by
  unfold State.doFence
  try dsimp only
  repeat'
    first
    | with_reducible apply Keeps.refl
    | assumption
    | split
    | with_reducible apply Keeps.trans ?_ (State.frontEnd_keeps _ _ _ _ _ ?_)
    | with_reducible apply Keeps.trans ?_ (State.nextPc_keeps _ _ _)
    | intro _
    | dsimp only

theorem State.doPset_keeps (a0 : State) (a1 : Nat) : Keeps a0 (State.doPset a0 a1) := by
  unfold State.doPset
  try dsimp only
  repeat'
    first
    | with_reducible apply Keeps.refl
    | assumption
    | split
    | with_reducible apply Keeps.trans ?_ (State.frontEnd_keeps _ _ _ _ _ ?_)
    | with_reducible apply Keeps.trans ?_ (State.nextPc_keeps _ _ _)
    | with_reducible apply Keeps.trans ?_ (State.setPreg_keeps _ _ _ _)
    | intro _
    | dsimp only

theorem State.doPadd_keeps (a0 : State) (a1 : Nat) : Keeps a0 (State.doPadd a0 a1) := by
  unfold State.doPadd
  try dsimp only
  repeat'
    first
    | with_reducible apply Keeps.refl
    | assumption
    | split
    | with_reducible apply Keeps.trans ?_ (State.frontEnd_keeps _ _ _ _ _ ?_)
    | with_reducible apply Keeps.trans ?_ (State.nextPc_keeps _ _ _)
    | with_reducible apply Keeps.trans ?_ (State.setPreg_keeps _ _ _ _)
    | intro _
    | dsimp only

theorem State.doPcpy_keeps (a0 : State) (a1 : Nat) : Keeps a0 (State.doPcpy a0 a1) := by
  unfold State.doPcpy
  try dsimp only
  repeat'
    first
    | with_reducible apply Keeps.refl
    | assumption
    | split
    | with_reducible apply Keeps.trans ?_ (State.frontEnd_keeps _ _ _ _ _ ?_)
    | with_reducible apply Keeps.trans ?_ (State.nextPc_keeps _ _ _)
    | with_reducible apply Keeps.trans ?_ (State.setPreg_keeps _ _ _ _)
    | intro _
    | dsimp only

theorem State.doLoop_keeps (a0 : State) (a1 : Nat) : Keeps a0 (State.doLoop a0 a1) := by
  unfold State.doLoop
  try dsimp only
  repeat'
    first
    | with_reducible apply Keeps.refl
    | assumption
    | split
    | with_reducible apply Keeps.trans ?_ (State.frontEnd_keeps _ _ _ _ _ ?_)
    | with_reducible apply Keeps.trans ?_ (State.setTil_keeps _ _ _)
    | with_reducible apply Keeps.trans ?_ (State.dispatched_keeps _ _)
    | with_reducible apply Keeps.trans ?_ (State.setPc_keeps _ _ _)
    | intro _
    | dsimp only

theorem State.doEndl_keeps (a0 : State) (a1 : Nat) : Keeps a0 (State.doEndl a0 a1) := by
  unfold State.doEndl
  try dsimp only
  repeat'
    first
    | with_reducible apply Keeps.refl
    | assumption
    | split
    | with_reducible apply Keeps.trans ?_ (State.frontEnd_keeps _ _ _ _ _ ?_)
    | with_reducible apply Keeps.trans ?_ (State.setTil_keeps _ _ _)
    | with_reducible apply Keeps.trans ?_ (State.setPc_keeps _ _ _)
    | intro _
    | dsimp only

theorem State.doAgset_keeps (a0 : State) (a1 : Nat) : Keeps a0 (State.doAgset a0 a1) := by
  unfold State.doAgset
  try dsimp only
  repeat'
    first
    | with_reducible apply Keeps.refl
    | assumption
    | split
    | with_reducible apply Keeps.trans ?_ (State.frontEnd_keeps _ _ _ _ _ ?_)
    | with_reducible apply Keeps.trans ?_ (State.nextPc_keeps _ _ _)
    | with_reducible apply Keeps.trans ?_ (State.setTil_keeps _ _ _)
    | intro _
    | dsimp only

theorem State.wakeTiller_keeps (a0 : State) (a1 : Nat) (a2 : Nat) (a3 : Nat) (a4 : Nat) : Keeps a0
    (State.wakeTiller a0 a1 a2 a3 a4) := by
  unfold State.wakeTiller
  try dsimp only
  repeat'
    first
    | with_reducible apply Keeps.refl
    | assumption
    | split
    | with_reducible apply Keeps.trans ?_ (State.setTstate_keeps _ _ _)
    | with_reducible apply Keeps.trans ?_ (State.setTil_keeps _ _ _)
    | with_reducible apply Keeps.trans ?_ (State.trace_keeps _ _ _ _ _ _ _)
    | with_reducible apply Keeps.trans ?_ (State.nextPc_keeps _ _ _)
    | intro _
    | dsimp only

theorem State.doWait_keeps (a0 : State) (a1 : Nat) : Keeps a0 (State.doWait a0 a1) := by
  unfold State.doWait
  try dsimp only
  repeat'
    first
    | with_reducible apply Keeps.refl
    | assumption
    | split
    | with_reducible apply Keeps.trans ?_ (State.frontEnd_keeps _ _ _ _ _ ?_)
    | with_reducible apply Keeps.trans ?_ (State.wakeTiller_keeps _ _ _ _ _)
    | with_reducible apply Keeps.trans ?_ (State.glumeXlat_keeps _ _ _ _)
    | with_reducible apply Keeps.trans ?_ (State.progFault_keeps _ _ _ _ _)
    | with_reducible apply Keeps.trans ?_ (State.trace_keeps _ _ _ _ _ _ _)
    | with_reducible apply Keeps.trans ?_ (State.setTstate_keeps _ _ _)
    | with_reducible apply Keeps.trans ?_ (State.setTil_keeps _ _ _)
    | intro _
    | dsimp only
    | (with_reducible apply State.glumeXlat_of; assumption)

theorem State.doSignal_keeps (a0 : State) (a1 : Nat) : Keeps a0 (State.doSignal a0 a1) := by
  unfold State.doSignal
  try dsimp only
  repeat'
    first
    | with_reducible apply Keeps.refl
    | assumption
    | split
    | with_reducible apply Keeps.trans ?_ (State.frontEnd_keeps _ _ _ _ _ ?_)
    | with_reducible apply Keeps.trans ?_ (State.sendSignal_keeps _ _ _ _ _)
    | with_reducible apply Keeps.trans ?_ (State.nextPc_keeps _ _ _)
    | with_reducible apply Keeps.trans ?_ (State.trace_keeps _ _ _ _ _ _ _)
    | with_reducible apply Keeps.trans ?_ (State.descFault_keeps _ _ _ _)
    | with_reducible apply Keeps.trans ?_ (State.setTil_keeps _ _ _)
    | intro _
    | dsimp only

theorem State.doEnd_keeps (a0 : State) (a1 : Nat) : Keeps a0 (State.doEnd a0 a1) := by
  unfold State.doEnd
  try dsimp only
  repeat'
    first
    | with_reducible apply Keeps.refl
    | assumption
    | split
    | with_reducible apply Keeps.trans ?_ (State.frontEnd_keeps _ _ _ _ _ ?_)
    | with_reducible apply Keeps.trans ?_ (State.badInst_keeps _ _ _ _)
    | with_reducible apply Keeps.trans ?_ (State.dispatched_keeps _ _)
    | with_reducible apply Keeps.trans ?_ (State.setPc_keeps _ _ _)
    | with_reducible apply Keeps.trans ?_ (State.setTil_keeps _ _ _)
    | intro _
    | dsimp only

theorem State.jobDone_keeps (a0 : State) (a1 : Nat) (a2 : Job) : Keeps a0 (State.jobDone a0 a1 a2) := by
  unfold State.jobDone
  try dsimp only
  repeat'
    first
    | with_reducible apply Keeps.refl
    | assumption
    | split
    | with_reducible apply Keeps.trans ?_ (State.setRing_keeps _ _ _)
    | intro _
    | dsimp only

theorem State.doReplayComplete_keeps (a0 : State) (a1 : Nat) : Keeps a0 (State.doReplayComplete a0 a1) := by
  unfold State.doReplayComplete
  try dsimp only
  repeat'
    first
    | with_reducible apply Keeps.refl
    | assumption
    | split
    | with_reducible apply Keeps.trans ?_ (State.count_keeps _ _ _)
    | with_reducible apply Keeps.trans ?_ (State.setTstate_keeps _ _ _)
    | with_reducible apply Keeps.trans ?_ (State.setPc_keeps _ _ _)
    | with_reducible apply Keeps.trans ?_ (State.setTil_keeps _ _ _)
    | with_reducible apply Keeps.trans ?_ (State.jobDone_keeps _ _ _)
    | intro _
    | dsimp only

theorem State.doLd_keeps (a0 : State) (a1 : Nat) : Keeps a0 (State.doLd a0 a1) := by
  unfold State.doLd
  try dsimp only
  repeat'
    first
    | with_reducible apply Keeps.refl
    | assumption
    | split
    | with_reducible apply Keeps.trans ?_ (State.frontEnd_keeps _ _ _ _ _ ?_)
    | with_reducible apply Keeps.trans ?_ (State.nextPc_keeps _ _ _)
    | with_reducible apply Keeps.trans ?_ (State.enqueue_keeps _ _ _ _ _ _ _ _ _)
    | intro _
    | dsimp only

theorem State.doSt_keeps (a0 : State) (a1 : Nat) : Keeps a0 (State.doSt a0 a1) := by
  unfold State.doSt
  try dsimp only
  repeat'
    first
    | with_reducible apply Keeps.refl
    | assumption
    | split
    | with_reducible apply Keeps.trans ?_ (State.frontEnd_keeps _ _ _ _ _ ?_)
    | with_reducible apply Keeps.trans ?_ (State.nextPc_keeps _ _ _)
    | with_reducible apply Keeps.trans ?_ (State.enqueue_keeps _ _ _ _ _ _ _ _ _)
    | intro _
    | dsimp only

theorem State.doMm_keeps (a0 : State) (a1 : Nat) : Keeps a0 (State.doMm a0 a1) := by
  unfold State.doMm
  try dsimp only
  repeat'
    first
    | with_reducible apply Keeps.refl
    | assumption
    | split
    | with_reducible apply Keeps.trans ?_ (State.frontEnd_keeps _ _ _ _ _ ?_)
    | with_reducible apply Keeps.trans ?_ (State.enqueue_keeps _ _ _ _ _ _ _ _ _)
    | with_reducible apply Keeps.trans ?_ (State.nextPc_keeps _ _ _)
    | with_reducible apply Keeps.trans ?_ (State.setTil_keeps _ _ _)
    | intro _
    | dsimp only

/-! ### Movers -/

theorem State.doLdUnit_keeps (a0 : State) (a1 : Nat) (a2 : Nat) : Keeps a0 (State.doLdUnit a0 a1 a2) := by
  unfold State.doLdUnit
  try dsimp only
  repeat'
    first
    | with_reducible apply Keeps.refl
    | assumption
    | split
    | with_reducible apply Keeps.trans ?_ (State.descFault_keeps _ _ _ _)
    | with_reducible apply Keeps.trans ?_ (State.runFault_keeps _ _ _ _ _)
    | with_reducible apply Keeps.trans ?_ (State.storeRead_keeps _ _ _)
    | with_reducible apply Keeps.trans ?_ (State.setAg_keeps _ _ _ _)
    | with_reducible apply Keeps.trans ?_ (State.setTil_keeps _ _ _)
    | with_reducible apply Keeps.trans ?_ (State.unitDone_keeps _ _ _ _)
    | intro _
    | dsimp only
    | (with_reducible apply State.storeRead_of; assumption)

theorem State.doStUnit_keeps (a0 : State) (a1 : Nat) : Keeps a0 (State.doStUnit a0 a1) := by
  unfold State.doStUnit
  try dsimp only
  repeat'
    first
    | with_reducible apply Keeps.refl
    | assumption
    | split
    | with_reducible apply Keeps.trans ?_ (State.descFault_keeps _ _ _ _)
    | with_reducible apply Keeps.trans ?_ (State.runFault_keeps _ _ _ _ _)
    | with_reducible apply Keeps.trans ?_ (State.setAg_keeps _ _ _ _)
    | with_reducible apply Keeps.trans ?_ (State.setTil_keeps _ _ _)
    | with_reducible apply Keeps.trans ?_ (State.storeWrite_keeps _ _ _)
    | with_reducible apply Keeps.trans ?_ (State.unitDone_keeps _ _ _ _)
    | intro _
    | dsimp only

/-! ### Access -/

theorem State.writeFld_keeps (a0 : State) (a1 : Fld) (a2 : Nat) (a3 : Nat) (a4 : Nat) : Keeps a0 (State.writeFld
    a0 a1 a2 a3 a4) := by
  unfold State.writeFld
  try dsimp only
  repeat'
    first
    | with_reducible apply Keeps.refl
    | assumption
    | split
    | with_reducible apply Keeps.trans ?_ (State.setFld_keeps _ _ _ _)
    | intro _
    | dsimp only

theorem State.writeReg_keeps (a0 : State) (a1 : Reg) (a2 : Nat) (a3 : Nat) (a4 : Nat) : Keeps a0 (State.writeReg
    a0 a1 a2 a3 a4) := by
  unfold State.writeReg
  try dsimp only
  repeat'
    first
    | with_reducible apply Keeps.refl
    | assumption
    | split
    | with_reducible apply Keeps.trans ?_ (State.writeFld_keeps _ _ _ _ _)
    | with_reducible apply Keeps.foldl _ _ ?_ ?_
    | with_reducible apply Keeps.foldl_fst _ _ ?_ ?_
    | intro _
    | dsimp only

theorem State.latch_keeps (a0 : State) (a1 : Reg) (a2 : Nat) (a3 : Nat) : Keeps a0 (State.latch a0 a1 a2 a3) :=
    by
  unfold State.latch
  try dsimp only
  repeat'
    first
    | with_reducible apply Keeps.refl
    | assumption
    | simp only [Keeps.upd_iff]
    | split
    | intro _
    | dsimp only

theorem State.wakeUp_keeps (a0 : State) (a1 : Nat) : Keeps a0 (State.wakeUp a0 a1) := by
  unfold State.wakeUp
  try dsimp only
  repeat'
    first
    | with_reducible apply Keeps.refl
    | assumption
    | split
    | with_reducible apply Keeps.trans ?_ (State.setFld_keeps _ _ _ _)
    | with_reducible apply Keeps.trans ?_ (State.setFlag_keeps _ _ _ _)
    | intro _
    | dsimp only

theorem State.hostWakes_keeps (a0 : State) (a1 : Sys2Proof.Origin) (a2 : Reg) : Keeps a0 (State.hostWakes a0 a1
    a2) := by
  unfold State.hostWakes
  try dsimp only
  repeat'
    first
    | with_reducible apply Keeps.refl
    | assumption
    | split
    | with_reducible apply Keeps.trans ?_ (State.wakeUp_keeps _ _)
    | intro _
    | dsimp only

theorem State.access_keeps (a0 : State) (a1 : Sys2Proof.Origin) (a2 : Reg) (a3 : State → State) (h3 : ∀ x0,
    Keeps x0 (a3 x0)) : Keeps a0 (State.access a0 a1 a2 a3) := by
  unfold State.access
  try dsimp only
  repeat'
    first
    | with_reducible apply Keeps.refl
    | assumption
    | split
    | with_reducible apply Keeps.trans ?_ (State.hostWakes_keeps _ _ _)
    | with_reducible apply Keeps.trans ?_ (State.emit_keeps _ _)
    | with_reducible apply Keeps.trans ?_ (h3 _)
    | intro _
    | dsimp only

theorem State.regCmd_keeps (a0 : State) (a1 : Sys2Proof.Origin) (a2 : Reg) (a3 : Nat) (a4 : Nat) (a5 : State →
    State) (h5 : ∀ x0, Keeps x0 (a5 x0)) : Keeps a0 (State.regCmd a0 a1 a2 a3 a4 a5) := by
  unfold State.regCmd
  try dsimp only
  repeat'
    first
    | with_reducible apply Keeps.refl
    | assumption
    | split
    | with_reducible apply Keeps.trans ?_ (State.access_keeps _ _ _ _ ?_)
    | with_reducible apply Keeps.trans ?_ (State.audit!_keeps _ _ _ _ _ _ _ _)
    | with_reducible apply Keeps.trans ?_ (h5 _)
    | intro _
    | dsimp only

theorem State.rwpCmd_keeps (a0 : State) (a1 : Sys2Proof.Origin) (a2 : Reg) (a3 : Nat) (a4 : Nat) (a5 : State →
    State) (h5 : ∀ x0, Keeps x0 (a5 x0)) : Keeps a0 (State.rwpCmd a0 a1 a2 a3 a4 a5) := by
  unfold State.rwpCmd
  try dsimp only
  repeat'
    first
    | with_reducible apply Keeps.refl
    | assumption
    | split
    | with_reducible apply Keeps.trans ?_ (State.access_keeps _ _ _ _ ?_)
    | with_reducible apply Keeps.trans ?_ (State.audit!_keeps _ _ _ _ _ _ _ _)
    | with_reducible apply Keeps.trans ?_ (h5 _)
    | intro _
    | dsimp only

theorem State.discardMirror_keeps (a0 : State) (a1 : Nat) : Keeps a0 (State.discardMirror a0 a1) := by
  unfold State.discardMirror
  try dsimp only
  repeat'
    first
    | with_reducible apply Keeps.refl
    | assumption
    | simp only [Keeps.upd_iff]
    | split
    | with_reducible apply Keeps.trans ?_ (State.raiseNo_keeps _ _ _ _)
    | with_reducible apply Keeps.trans ?_ (State.setFlag_keeps _ _ _ _)
    | with_reducible apply Keeps.foldl _ _ ?_ ?_
    | with_reducible apply Keeps.foldl_fst _ _ ?_ ?_
    | intro _
    | dsimp only

/-! ### Arrays -/

theorem State.arrayErr_keeps (a0 : State) (a1 : Nat) (a2 : Nat) (a3 : Nat) (a4 : Sys2Proof.ArrayErr) : Keeps a0
    (State.arrayErr a0 a1 a2 a3 a4).1 := by
  unfold State.arrayErr
  try dsimp only
  repeat'
    first
    | with_reducible apply Keeps.refl
    | assumption
    | split
    | with_reducible apply Keeps.trans ?_ (State.satAdd_keeps _ _ _ _)
    | with_reducible apply Keeps.trans ?_ (State.raiseCtx_keeps _ _ _ _ _)
    | with_reducible apply Keeps.trans ?_ (State.setBit_keeps _ _ _ _)
    | intro _
    | dsimp only

theorem State.arrayErr_of {a0 : State} {a1 : Nat} {a2 : Nat} {a3 : Nat} {a4 : Sys2Proof.ArrayErr} {t : State} {r
    : BadRows}
    (h : State.arrayErr a0 a1 a2 a3 a4 = (t, r))
    {s : State} (k : Keeps s a0) : Keeps s t := by
  have := State.arrayErr_keeps a0 a1 a2 a3 a4
  rw [h] at this
  exact k.trans this

theorem State.doPass_keeps (a0 : State) (a1 : Nat) (a2 : Nat) (a3 : Sys2Proof.ArrayErr) : Keeps a0 (State.doPass
    a0 a1 a2 a3) := by
  unfold State.doPass
  try dsimp only
  repeat'
    first
    | with_reducible apply Keeps.refl
    | assumption
    | split
    | with_reducible apply Keeps.trans ?_ (State.badInst_keeps _ _ _ _)
    | with_reducible apply Keeps.trans ?_ (State.arrayErr_keeps _ _ _ _ _)
    | with_reducible apply Keeps.trans ?_ (State.stepped_keeps _ _)
    | with_reducible apply Keeps.trans ?_ (State.setInst_keeps _ _ _)
    | with_reducible apply Keeps.trans ?_ (State.setTil_keeps _ _ _)
    | with_reducible apply Keeps.trans ?_ (State.count_keeps _ _ _)
    | with_reducible apply Keeps.trans ?_ (State.satAdd_keeps _ _ _ _)
    | with_reducible apply Keeps.foldl _ _ ?_ ?_
    | with_reducible apply Keeps.foldl_fst _ _ ?_ ?_
    | intro _
    | dsimp only
    | (with_reducible apply State.arrayErr_of; assumption)

theorem State.mmRetire_keeps (a0 : State) (a1 : Nat) (a2 : Nat) : Keeps a0 (State.mmRetire a0 a1 a2) := by
  unfold State.mmRetire
  try dsimp only
  repeat'
    first
    | with_reducible apply Keeps.refl
    | assumption
    | split
    | with_reducible apply Keeps.trans ?_ (State.retire_keeps _ _ _)
    | intro _
    | dsimp only

theorem State.doAccumulate_keeps (a0 : State) (a1 : Nat) (a2 : Nat) (a3 : Sys2Proof.ArrayErr) : Keeps a0
    (State.doAccumulate a0 a1 a2 a3) := by
  unfold State.doAccumulate
  try dsimp only
  repeat'
    first
    | with_reducible apply Keeps.refl
    | assumption
    | simp only [Keeps.upd_iff]
    | split
    | with_reducible apply Keeps.trans ?_ (State.arrayErr_keeps _ _ _ _ _)
    | with_reducible apply Keeps.trans ?_ (State.setTil_keeps _ _ _)
    | with_reducible apply Keeps.trans ?_ (State.mmRetire_keeps _ _ _)
    | with_reducible apply Keeps.trans ?_ (State.stepped_keeps _ _)
    | intro _
    | dsimp only
    | (with_reducible apply State.arrayErr_of; assumption)

theorem State.drainInto_keeps (a0 : State) (a1 : Nat) (a2 : Nat) (a3 : AccBuf) (a4 : List Nat) : Keeps a0
    (State.drainInto a0 a1 a2 a3 a4) := by
  unfold State.drainInto
  try dsimp only
  repeat'
    first
    | with_reducible apply Keeps.refl
    | assumption
    | split
    | with_reducible apply Keeps.trans ?_ (State.mmRetire_keeps _ _ _)
    | with_reducible apply Keeps.trans ?_ (State.stepped_keeps _ _)
    | with_reducible apply Keeps.trans ?_ (State.setTil_keeps _ _ _)
    | with_reducible apply Keeps.foldl _ _ ?_ ?_
    | with_reducible apply Keeps.foldl_fst _ _ ?_ ?_
    | intro _
    | dsimp only

theorem State.compareFails_keeps (a0 : State) (a1 : Nat) (a2 : Nat) (a3 : Nat) (a4 : List Nat) : Keeps a0
    (State.compareFails a0 a1 a2 a3 a4) := by
  unfold State.compareFails
  try dsimp only
  repeat'
    first
    | with_reducible apply Keeps.refl
    | assumption
    | split
    | with_reducible apply Keeps.trans ?_ (State.setBit_keeps _ _ _ _)
    | with_reducible apply Keeps.trans ?_ (State.raiseCtx_keeps _ _ _ _ _)
    | with_reducible apply Keeps.foldl _ _ ?_ ?_
    | with_reducible apply Keeps.foldl_fst _ _ ?_ ?_
    | intro _
    | dsimp only

theorem State.doDrain_keeps (a0 : State) (a1 : Nat) (a2 : Nat) (a3 : Sys2Proof.ArrayErr) : Keeps a0
    (State.doDrain a0 a1 a2 a3) := by
  unfold State.doDrain
  try dsimp only
  repeat'
    first
    | with_reducible apply Keeps.refl
    | assumption
    | split
    | with_reducible apply Keeps.trans ?_ (State.arrayErr_keeps _ _ _ _ _)
    | with_reducible apply Keeps.trans ?_ (State.drainInto_keeps _ _ _ _ _)
    | with_reducible apply Keeps.trans ?_ (State.compareFails_keeps _ _ _ _ _)
    | intro _
    | dsimp only
    | (with_reducible apply State.arrayErr_of; assumption)

theorem State.readSource_of {a0 : State} {a1 : Nat} {a2 : Inst} {a3 : Enc} {a4 : EShape} {a5 : Nat} {a6 : Nat}
    {a7 : Nat} {t : State} {els : List VIn} (h : State.readSource a0 a1 a2 a3 a4 a5 a6 a7 = .ok t els) {s :
    State} (k : Keeps s a0) : Keeps s t := by
  refine k.trans ?_
  unfold State.readSource at h
  dsimp only at h
  repeat' split at h
  all_goals cases h
  all_goals
    repeat'
      first
      | with_reducible apply Keeps.refl
      | split
      | with_reducible apply Keeps.trans ?_ (State.setAg_keeps _ _ _ _)
      | with_reducible apply Keeps.trans ?_ (State.setTil_keeps _ _ _)
      | with_reducible apply Keeps.trans ?_ (State.storeRead_keeps _ _ _)

/-! ### Vector -/

theorem State.noteMatch_keeps (a0 : State) (a1 : Nat) (a2 : Nat) : Keeps a0 (State.noteMatch a0 a1 a2) := by
  unfold State.noteMatch
  try dsimp only
  repeat'
    first
    | with_reducible apply Keeps.refl
    | assumption
    | split
    | with_reducible apply Keeps.trans ?_ (State.setFld_keeps _ _ _ _)
    | with_reducible apply Keeps.trans ?_ (State.satAdd_keeps _ _ _ _)
    | intro _
    | dsimp only

theorem State.doVector_keeps (a0 : State) (a1 : Nat) (a2 : Nat) : Keeps a0 (State.doVector a0 a1 a2) := by
  unfold State.doVector
  try dsimp only
  repeat'
    first
    | with_reducible apply Keeps.refl
    | assumption
    | split
    | with_reducible apply Keeps.trans ?_ (State.frontEnd_keeps _ _ _ _ _ ?_)
    | with_reducible apply Keeps.trans ?_ (State.nextPc_keeps _ _ _)
    | with_reducible apply Keeps.trans ?_ (State.raiseCtx_keeps _ _ _ _ _)
    | with_reducible apply Keeps.trans ?_ (State.noteMatch_keeps _ _ _)
    | with_reducible apply Keeps.trans ?_ (State.enqueue_keeps _ _ _ _ _ _ _ _ _)
    | with_reducible apply Keeps.trans ?_ (State.setTil_keeps _ _ _)
    | with_reducible apply Keeps.foldl _ _ ?_ ?_
    | with_reducible apply Keeps.foldl_fst _ _ ?_ ?_
    | intro _
    | dsimp only

theorem State.gatherLane_keeps (a0 : State) (a1 : Nat) (a2 : List Sys2Proof.Word) (a3 : Nat) (a4 : VIn) (a5 :
    Bool) : Keeps a0 (State.gatherLane a0 a1 a2 a3 a4 a5).1 := by
  unfold State.gatherLane
  try dsimp only
  repeat'
    first
    | with_reducible apply Keeps.refl
    | assumption
    | split
    | with_reducible apply Keeps.trans ?_ (State.memRead_keeps _ _ _ _)
    | intro _
    | dsimp only
    | (with_reducible apply State.memRead_of; assumption)

theorem State.gatherLane_of {a0 : State} {a1 : Nat} {a2 : List Sys2Proof.Word} {a3 : Nat} {a4 : VIn} {a5 : Bool}
    {t : State} {r : VIn × Bool}
    (h : State.gatherLane a0 a1 a2 a3 a4 a5 = (t, r))
    {s : State} (k : Keeps s a0) : Keeps s t := by
  have := State.gatherLane_keeps a0 a1 a2 a3 a4 a5
  rw [h] at this
  exact k.trans this

theorem State.gather_keeps (a0 : State) (a1 : Nat) (a2 : List Sys2Proof.Word) (a3 : Nat) (a4 : Nat) (a5 : List
    (VIn × Bool)) : Keeps a0 (State.gather a0 a1 a2 a3 a4 a5).1 := by
  induction a5 generalizing a0 a1 a2 a3 a4 with
  | nil =>
    unfold State.gather
    try dsimp only
    repeat'
      first
      | with_reducible apply Keeps.refl
      | assumption
      | split
      | with_reducible apply Keeps.trans ?_ (State.gatherLane_keeps _ _ _ _ _ _)
      | intro _
      | dsimp only
      | (with_reducible apply State.gatherLane_of; assumption)
  | cons b l ih =>
    unfold State.gather
    try dsimp only
    repeat'
      first
      | with_reducible apply Keeps.refl
      | assumption
      | split
      | with_reducible apply Keeps.trans ?_ (State.gatherLane_keeps _ _ _ _ _ _)
      | with_reducible apply Keeps.trans ?_ (ih _ _ _ _ _)
      | intro _
      | dsimp only
      | (with_reducible apply State.gatherLane_of; assumption)

theorem State.gather_of {a0 : State} {a1 : Nat} {a2 : List Sys2Proof.Word} {a3 : Nat} {a4 : Nat} {a5 : List (VIn
    × Bool)} {t : State} {r : List VIn × Option (Nat × Nat)}
    (h : State.gather a0 a1 a2 a3 a4 a5 = (t, r))
    {s : State} (k : Keeps s a0) : Keeps s t := by
  have := State.gather_keeps a0 a1 a2 a3 a4 a5
  rw [h] at this
  exact k.trans this

theorem State.writeDest_of {a0 : State} {a1 : Nat} {a2 : Inst} {a3 : Enc} {a4 : Nat} {a5 : List VRes} {a6 :
    VConv} {t : State} (h : State.writeDest a0 a1 a2 a3 a4 a5 a6 = .ok t) {s : State} (k : Keeps s a0) : Keeps s
    t := by
  refine k.trans ?_
  unfold State.writeDest at h
  dsimp only at h
  repeat' split at h
  all_goals cases h
  all_goals
    repeat'
      first
      | with_reducible apply Keeps.refl
      | split
      | with_reducible apply Keeps.trans ?_ (State.storeWrite_keeps _ _ _)
      | with_reducible apply Keeps.trans ?_ (State.setAg_keeps _ _ _ _)
      | with_reducible apply Keeps.trans ?_ (State.setTil_keeps _ _ _)

theorem State.countAnomalies_keeps (a0 : State) (a1 : Nat) (a2 : Counts) : Keeps a0 (State.countAnomalies a0 a1
    a2) := by
  unfold State.countAnomalies
  try dsimp only
  repeat'
    first
    | with_reducible apply Keeps.refl
    | assumption
    | split
    | with_reducible apply Keeps.trans ?_ (State.count_keeps _ _ _)
    | with_reducible apply Keeps.trans ?_ (State.satAdd_keeps _ _ _ _)
    | with_reducible apply Keeps.foldl _ _ ?_ ?_
    | with_reducible apply Keeps.foldl_fst _ _ ?_ ?_
    | intro _
    | dsimp only

theorem State.captureBits_keeps (a0 : State) (a1 : Nat) (a2 : Nat) (a3 : Nat) (a4 : Nat) (a5 : Bool) : Keeps a0
    (State.captureBits a0 a1 a2 a3 a4 a5) := by
  unfold State.captureBits
  try dsimp only
  repeat'
    first
    | with_reducible apply Keeps.refl
    | assumption
    | split
    | with_reducible apply Keeps.trans ?_ (State.memWrite_keeps _ _ _ _)
    | intro _
    | dsimp only

theorem State.captureRow_keeps (a0 : State) (a1 : Nat) (a2 : Nat) (a3 : Nat) (a4 : List Sys2Proof.Word) (a5 :
    List (Nat × Bool × Bool)) (a6 : List (List Sys2Proof.PByte)) : Keeps a0 (State.captureRow a0 a1 a2 a3 a4 a5
    a6) := by
  unfold State.captureRow
  try dsimp only
  repeat'
    first
    | with_reducible apply Keeps.refl
    | assumption
    | split
    | with_reducible apply Keeps.trans ?_ (State.setFlag_keeps _ _ _ _)
    | with_reducible apply Keeps.trans ?_ (State.satAdd_keeps _ _ _ _)
    | with_reducible apply Keeps.trans ?_ (State.memWrite_keeps _ _ _ _)
    | with_reducible apply Keeps.trans ?_ (State.captureBits_keeps _ _ _ _ _ _)
    | with_reducible apply Keeps.foldl _ _ ?_ ?_
    | with_reducible apply Keeps.foldl_fst _ _ ?_ ?_
    | intro _
    | dsimp only

theorem State.captureChunk_keeps (a0 : State) (a1 : Nat) (a2 : Nat) (a3 : Nat) (a4 : List Sys2Proof.Word) (a5 :
    List VRes) (a6 : VConv) : Keeps a0 (State.captureChunk a0 a1 a2 a3 a4 a5 a6) := by
  unfold State.captureChunk
  try dsimp only
  repeat'
    first
    | with_reducible apply Keeps.refl
    | assumption
    | simp only [Keeps.upd_iff]
    | split
    | with_reducible apply Keeps.trans ?_ (State.setFlag_keeps _ _ _ _)
    | with_reducible apply Keeps.trans ?_ (State.obsWindow_keeps _)
    | with_reducible apply Keeps.trans ?_ (State.obsTake_keeps _ _ _)
    | with_reducible apply Keeps.trans ?_ (State.count_keeps _ _ _)
    | with_reducible apply Keeps.trans ?_ (State.captureRow_keeps _ _ _ _ _ _ _)
    | with_reducible apply Keeps.foldl _ _ ?_ ?_
    | with_reducible apply Keeps.foldl_fst _ _ ?_ ?_
    | intro _
    | dsimp only

theorem State.readAll_of {a0 : State} {a1 : Nat} {a2 : Inst} {a3 : Enc} {a4 : Nat} {a5 : Nat} {a6 : Nat} {a7 :
    List Nat} {t : State} {l : List (List VIn)} (h : State.readAll a0 a1 a2 a3 a4 a5 a6 a7 = .ok (t, l)) {s :
    State} (k : Keeps s a0) : Keeps s t := by
  induction a7 generalizing s a0 t l a6 with
  | nil =>
    simp only [State.readAll, Except.ok.injEq, Prod.mk.injEq] at h
    exact h.1 ▸ k
  | cons o rest ih =>
    unfold State.readAll at h
    split at h
    · cases h
    · rename_i hr
      split at h
      · cases h
      · rename_i hs
        simp only [Except.ok.injEq, Prod.mk.injEq] at h
        exact h.1 ▸ ih hs (State.readSource_of hr k)

theorem State.maskChunk_keeps (a0 : State) (a1 : Nat) (a2 : Inst) (a3 : Enc) : Keeps a0 (State.maskChunk a0 a1
    a2 a3) := by
  unfold State.maskChunk
  try dsimp only
  repeat'
    first
    | with_reducible apply Keeps.refl
    | assumption
    | split
    | with_reducible apply Keeps.trans ?_ (State.setTil_keeps _ _ _)
    | with_reducible apply Keeps.trans ?_ (State.retire_keeps _ _ _)
    | intro _
    | dsimp only

theorem State.takeBank_keeps (a0 : State) (a1 : Nat) (a2 : Inst) (a3 : Enc) : Keeps a0 (State.takeBank a0 a1 a2
    a3).1 := by
  unfold State.takeBank
  try dsimp only
  repeat'
    first
    | with_reducible apply Keeps.refl
    | assumption
    | split
    | with_reducible apply Keeps.trans ?_ (State.setTil_keeps _ _ _)
    | intro _
    | dsimp only

theorem State.takeBank_of {a0 : State} {a1 : Nat} {a2 : Inst} {a3 : Enc} {t : State} {r : Inst}
    (h : State.takeBank a0 a1 a2 a3 = (t, r))
    {s : State} (k : Keeps s a0) : Keeps s t := by
  have := State.takeBank_keeps a0 a1 a2 a3
  rw [h] at this
  exact k.trans this

theorem State.releaseTile_keeps (a0 : State) (a1 : Nat) (a2 : Inst) (a3 : Enc) : Keeps a0 (State.releaseTile a0
    a1 a2 a3) := by
  unfold State.releaseTile
  try dsimp only
  repeat'
    first
    | with_reducible apply Keeps.refl
    | assumption
    | split
    | with_reducible apply Keeps.trans ?_ (State.setTil_keeps _ _ _)
    | intro _
    | dsimp only

theorem State.poisonSeen_keeps (a0 : State) (a1 : Nat) (a2 : Nat) (a3 : Nat) : Keeps a0 (State.poisonSeen a0 a1
    a2 a3) := by
  unfold State.poisonSeen
  try dsimp only
  repeat'
    first
    | with_reducible apply Keeps.refl
    | assumption
    | split
    | with_reducible apply Keeps.trans ?_ (State.satAdd_keeps _ _ _ _)
    | with_reducible apply Keeps.trans ?_ (State.setFlag_keeps _ _ _ _)
    | with_reducible apply Keeps.trans ?_ (State.raiseCtx_keeps _ _ _ _ _)
    | intro _
    | dsimp only

theorem State.gatherBad_keeps (a0 : State) (a1 : Nat) (a2 : Inst) (a3 : Option (Nat × Nat)) : Keeps a0
    (State.gatherBad a0 a1 a2 a3).1 := by
  unfold State.gatherBad
  try dsimp only
  repeat'
    first
    | with_reducible apply Keeps.refl
    | assumption
    | split
    | with_reducible apply Keeps.trans ?_ (State.raiseCtx_keeps _ _ _ _ _)
    | with_reducible apply Keeps.trans ?_ (State.setFlag_keeps _ _ _ _)
    | intro _
    | dsimp only

theorem State.gatherBad_of {a0 : State} {a1 : Nat} {a2 : Inst} {a3 : Option (Nat × Nat)} {t : State} {r : Inst}
    (h : State.gatherBad a0 a1 a2 a3 = (t, r))
    {s : State} (k : Keeps s a0) : Keeps s t := by
  have := State.gatherBad_keeps a0 a1 a2 a3
  rw [h] at this
  exact k.trans this

theorem State.endChunk_keeps (a0 : State) (a1 : Nat) (a2 : Inst) (a3 : Enc) : Keeps a0 (State.endChunk a0 a1 a2
    a3) := by
  unfold State.endChunk
  try dsimp only
  repeat'
    first
    | with_reducible apply Keeps.refl
    | assumption
    | split
    | with_reducible apply Keeps.trans ?_ (State.stepped_keeps _ _)
    | with_reducible apply Keeps.trans ?_ (State.setInst_keeps _ _ _)
    | with_reducible apply Keeps.trans ?_ (State.poisonSeen_keeps _ _ _ _)
    | with_reducible apply Keeps.trans ?_ (State.releaseTile_keeps _ _ _ _)
    | with_reducible apply Keeps.trans ?_ (State.setTil_keeps _ _ _)
    | with_reducible apply Keeps.trans ?_ (State.retire_keeps _ _ _)
    | intro _
    | dsimp only

theorem State.finishChunk_keeps (a0 : State) (a1 : Nat) (a2 : Inst) (a3 : Enc) (a4 : Nat) (a5 : List VRes) :
    Keeps a0 (State.finishChunk a0 a1 a2 a3 a4 a5) := by
  unfold State.finishChunk
  try dsimp only
  repeat'
    first
    | with_reducible apply Keeps.refl
    | assumption
    | split
    | with_reducible apply Keeps.trans ?_ (State.runFault_keeps _ _ _ _ _)
    | with_reducible apply Keeps.trans ?_ (State.countAnomalies_keeps _ _ _)
    | with_reducible apply Keeps.trans ?_ (State.setTil_keeps _ _ _)
    | with_reducible apply Keeps.trans ?_ (State.captureChunk_keeps _ _ _ _ _ _ _)
    | with_reducible apply Keeps.trans ?_ (State.endChunk_keeps _ _ _ _)
    | with_reducible apply Keeps.foldl _ _ ?_ ?_
    | with_reducible apply Keeps.foldl_fst _ _ ?_ ?_
    | intro _
    | dsimp only
    | (with_reducible apply State.writeDest_of; assumption)

theorem State.doChunk_keeps (a0 : State) (a1 : Nat) : Keeps a0 (State.doChunk a0 a1) := by
  unfold State.doChunk
  try dsimp only
  repeat'
    first
    | with_reducible apply Keeps.refl
    | assumption
    | split
    | with_reducible apply Keeps.trans ?_ (State.maskChunk_keeps _ _ _ _)
    | with_reducible apply Keeps.trans ?_ (State.stepped_keeps _ _)
    | with_reducible apply Keeps.trans ?_ (State.descFault_keeps _ _ _ _)
    | with_reducible apply Keeps.trans ?_ (State.badInst_keeps _ _ _ _)
    | with_reducible apply Keeps.trans ?_ (State.runFault_keeps _ _ _ _ _)
    | with_reducible apply Keeps.trans ?_ (State.gather_keeps _ _ _ _ _ _)
    | with_reducible apply Keeps.trans ?_ (State.progFault_keeps _ _ _ _ _)
    | with_reducible apply Keeps.trans ?_ (State.satAdd_keeps _ _ _ _)
    | with_reducible apply Keeps.trans ?_ (State.setFlag_keeps _ _ _ _)
    | with_reducible apply Keeps.trans ?_ (State.gatherBad_keeps _ _ _ _)
    | with_reducible apply Keeps.trans ?_ (State.takeBank_keeps _ _ _ _)
    | with_reducible apply Keeps.trans ?_ (State.count_keeps _ _ _)
    | with_reducible apply Keeps.trans ?_ (State.finishChunk_keeps _ _ _ _ _ _)
    | intro _
    | dsimp only
    | (with_reducible apply State.readAll_of; assumption)
    | (with_reducible apply State.gather_of; assumption)
    | (with_reducible apply State.gatherBad_of; assumption)
    | (with_reducible apply State.takeBank_of; assumption)

theorem State.doStatRecord_keeps (a0 : State) (a1 : Nat) : Keeps a0 (State.doStatRecord a0 a1) := by
  unfold State.doStatRecord
  try dsimp only
  repeat'
    first
    | with_reducible apply Keeps.refl
    | assumption
    | split
    | with_reducible apply Keeps.trans ?_ (State.setTil_keeps _ _ _)
    | with_reducible apply Keeps.trans ?_ (State.retire_keeps _ _ _)
    | with_reducible apply Keeps.trans ?_ (State.stepped_keeps _ _)
    | with_reducible apply Keeps.trans ?_ (State.storeWrite_keeps _ _ _)
    | intro _
    | dsimp only

/-! ### TillerCtl -/

theorem State.doWatchdog_keeps (a0 : State) (a1 : Nat) : Keeps a0 (State.doWatchdog a0 a1) := by
  unfold State.doWatchdog
  try dsimp only
  repeat'
    first
    | with_reducible apply Keeps.refl
    | assumption
    | split
    | with_reducible apply Keeps.trans ?_ (State.progFault_keeps _ _ _ _ _)
    | intro _
    | dsimp only

theorem State.doHalt_keeps (a0 : State) (a1 : Nat) : Keeps a0 (State.doHalt a0 a1) := by
  unfold State.doHalt
  try dsimp only
  repeat'
    first
    | with_reducible apply Keeps.refl
    | assumption
    | split
    | with_reducible apply Keeps.trans ?_ (State.setTstate_keeps _ _ _)
    | with_reducible apply Keeps.trans ?_ (State.setTil_keeps _ _ _)
    | intro _
    | dsimp only

theorem State.doStep_keeps (a0 : State) (a1 : Nat) : Keeps a0 (State.doStep a0 a1) := by
  unfold State.doStep
  try dsimp only
  repeat'
    first
    | with_reducible apply Keeps.refl
    | assumption
    | split
    | with_reducible apply Keeps.trans ?_ (State.setTil_keeps _ _ _)
    | intro _
    | dsimp only

theorem State.doResume_keeps (a0 : State) (a1 : Nat) : Keeps a0 (State.doResume a0 a1) := by
  unfold State.doResume
  try dsimp only
  repeat'
    first
    | with_reducible apply Keeps.refl
    | assumption
    | split
    | with_reducible apply Keeps.trans ?_ (State.setTstate_keeps _ _ _)
    | with_reducible apply Keeps.trans ?_ (State.setTil_keeps _ _ _)
    | intro _
    | dsimp only

theorem State.doParam_keeps (a0 : State) (a1 : Nat) (a2 : Nat) (a3 : Nat) : Keeps a0 (State.doParam a0 a1 a2 a3)
    := by
  unfold State.doParam
  try dsimp only
  repeat'
    first
    | with_reducible apply Keeps.refl
    | assumption
    | split
    | with_reducible apply Keeps.trans ?_ (State.setFlag_keeps _ _ _ _)
    | with_reducible apply Keeps.trans ?_ (State.setPreg_keeps _ _ _ _)
    | intro _
    | dsimp only

theorem State.doBreakWrite_keeps (a0 : State) (a1 : Nat) (a2 : Reg) (a3 : Nat) : Keeps a0 (State.doBreakWrite a0
    a1 a2 a3) := by
  unfold State.doBreakWrite
  try dsimp only
  repeat'
    first
    | with_reducible apply Keeps.refl
    | assumption
    | split
    | with_reducible apply Keeps.trans ?_ (State.writeReg_keeps _ _ _ _ _)
    | intro _
    | dsimp only

end Sys2Proof.Machine
end

