-- ==== Sys2Proof/Laws/KeepsHost.lean ====
section
/-! SUPPORT. What every operation keeps (Laws/Keeps.lean): Glumes, barriers, rings, contexts, transfers and memory health. -/

set_option linter.unusedTactic false
set_option linter.unreachableTactic false

set_option Elab.async false

namespace Sys2Proof.Machine

/-! ### RingOps -/

theorem State.cmdRecord_keeps (a0 : State) (a1 : Nat) (a2 : Nat) (a3 : BitVec 512) (a4 : Nat) (a5 : List Nat)
    (a6 : Bool) (a7 : Bool) : Keeps a0 (State.cmdRecord a0 a1 a2 a3 a4 a5 a6 a7) := by
  unfold State.cmdRecord
  try dsimp only
  repeat'
    first
    | with_reducible apply Keeps.refl
    | assumption
    | split
    | with_reducible apply Keeps.trans ?_ (State.telPut_keeps _ _ _)
    | intro _
    | dsimp only

theorem State.dropHead_keeps (a0 : State) (a1 : Nat) : Keeps a0 (State.dropHead a0 a1) := by
  unfold State.dropHead
  try dsimp only
  repeat'
    first
    | with_reducible apply Keeps.refl
    | assumption
    | split
    | with_reducible apply Keeps.trans ?_ (State.wrapAdd_keeps _ _ _ _)
    | with_reducible apply Keeps.trans ?_ (State.setRing_keeps _ _ _)
    | intro _
    | dsimp only

theorem State.stopHead_keeps (a0 : State) (a1 : Nat) (a2 : Nat) : Keeps a0 (State.stopHead a0 a1 a2) := by
  unfold State.stopHead
  try dsimp only
  repeat'
    first
    | with_reducible apply Keeps.refl
    | assumption
    | split
    | with_reducible apply Keeps.trans ?_ (State.setRing_keeps _ _ _)
    | intro _
    | dsimp only

theorem State.headFault_keeps (a0 : State) (a1 : Nat) (a2 : Nat) : Keeps a0 (State.headFault a0 a1 a2) := by
  unfold State.headFault
  try dsimp only
  repeat'
    first
    | with_reducible apply Keeps.refl
    | assumption
    | split
    | with_reducible apply Keeps.trans ?_ (State.stopHead_keeps _ _ _)
    | with_reducible apply Keeps.trans ?_ (State.reportFault_keeps _ _ _ _ _ _)
    | with_reducible apply Keeps.trans ?_ (State.raiseCtx_keeps _ _ _ _ _)
    | intro _
    | dsimp only

theorem State.refuseHead_keeps (a0 : State) (a1 : Nat) (a2 : Nat) : Keeps a0 (State.refuseHead a0 a1 a2) := by
  unfold State.refuseHead
  try dsimp only
  repeat'
    first
    | with_reducible apply Keeps.refl
    | assumption
    | split
    | with_reducible apply Keeps.trans ?_ (State.raiseCtx_keeps _ _ _ _ _)
    | with_reducible apply Keeps.trans ?_ (State.stopHead_keeps _ _ _)
    | intro _
    | dsimp only

theorem State.poseWait_keeps (a0 : State) (a1 : Nat) (a2 : Nat × Nat) : Keeps a0 (State.poseWait a0 a1 a2).1 :=
    by
  unfold State.poseWait
  try dsimp only
  repeat'
    first
    | with_reducible apply Keeps.refl
    | assumption
    | split
    | with_reducible apply Keeps.trans ?_ (State.glumeXlat_keeps _ _ _ _)
    | with_reducible apply Keeps.trans ?_ (State.raiseGlume_keeps _ _ _ _ _)
    | intro _
    | dsimp only
    | (with_reducible apply State.glumeXlat_of; assumption)

theorem State.poseWait_of {a0 : State} {a1 : Nat} {a2 : Nat × Nat} {t : State} {r : Except Nat (Option
    WaitPosed)}
    (h : State.poseWait a0 a1 a2 = (t, r))
    {s : State} (k : Keeps s a0) : Keeps s t := by
  have := State.poseWait_keeps a0 a1 a2
  rw [h] at this
  exact k.trans this

theorem State.markReady_keeps (a0 : State) (a1 : Nat) : Keeps a0 (State.markReady a0 a1) := by
  unfold State.markReady
  try dsimp only
  repeat'
    first
    | with_reducible apply Keeps.refl
    | assumption
    | split
    | with_reducible apply Keeps.trans ?_ (State.setRing_keeps _ _ _)
    | intro _
    | dsimp only

theorem State.settleHead_keeps (a0 : State) (a1 : Nat) : Keeps a0 (State.settleHead a0 a1) := by
  unfold State.settleHead
  try dsimp only
  repeat'
    first
    | with_reducible apply Keeps.refl
    | assumption
    | split
    | with_reducible apply Keeps.trans ?_ (State.poseWait_keeps _ _ _)
    | with_reducible apply Keeps.trans ?_ (State.headFault_keeps _ _ _)
    | with_reducible apply Keeps.trans ?_ (State.markReady_keeps _ _)
    | with_reducible apply Keeps.trans ?_ (State.setRing_keeps _ _ _)
    | intro _
    | dsimp only
    | (with_reducible apply State.poseWait_of; assumption)

theorem State.evalHead_keeps (a0 : State) (a1 : Nat) : Keeps a0 (State.evalHead a0 a1) := by
  unfold State.evalHead
  try dsimp only
  repeat'
    first
    | with_reducible apply Keeps.refl
    | assumption
    | split
    | with_reducible apply Keeps.trans ?_ (State.markReady_keeps _ _)
    | with_reducible apply Keeps.trans ?_ (State.setRing_keeps _ _ _)
    | intro _
    | dsimp only

theorem State.sendSigs_keeps (a0 : State) (a1 : Nat) (a2 : BitVec 512) : Keeps a0 (State.sendSigs a0 a1 a2) :=
    by
  unfold State.sendSigs
  try dsimp only
  repeat'
    first
    | with_reducible apply Keeps.refl
    | assumption
    | split
    | with_reducible apply Keeps.trans ?_ (State.sendSignal_keeps _ _ _ _ _)
    | with_reducible apply Keeps.foldl _ _ ?_ ?_
    | with_reducible apply Keeps.foldl_fst _ _ ?_ ?_
    | intro _
    | dsimp only

theorem State.startHead_keeps (a0 : State) (a1 : Nat) (a2 : BitVec 512) (a3 : List Nat) (a4 : Nat) : Keeps a0
    (State.startHead a0 a1 a2 a3 a4) := by
  unfold State.startHead
  try dsimp only
  repeat'
    first
    | with_reducible apply Keeps.refl
    | assumption
    | simp only [Keeps.upd_iff]
    | split
    | with_reducible apply Keeps.trans ?_ (State.setRing_keeps _ _ _)
    | with_reducible apply Keeps.trans ?_ (State.trace_keeps _ _ _ _ _ _ _)
    | with_reducible apply Keeps.trans ?_ (State.settleHead_keeps _ _)
    | with_reducible apply Keeps.trans ?_ (State.dropHead_keeps _ _)
    | with_reducible apply Keeps.foldl _ _ ?_ ?_
    | with_reducible apply Keeps.foldl_fst _ _ ?_ ?_
    | intro _
    | dsimp only

theorem State.tryStart_keeps (a0 : State) (a1 : Nat) (a2 : Nat → Bool) (a3 : State → BitVec 512 → State) (h3 : ∀
    x0 x1, Keeps x0 (a3 x0 x1)) : Keeps a0 (State.tryStart a0 a1 a2 a3) := by
  unfold State.tryStart
  try dsimp only
  repeat'
    first
    | with_reducible apply Keeps.refl
    | assumption
    | split
    | with_reducible apply Keeps.trans ?_ (State.settleHead_keeps _ _)
    | with_reducible apply Keeps.trans ?_ (State.refuseHead_keeps _ _ _)
    | with_reducible apply Keeps.trans ?_ (State.evalHead_keeps _ _)
    | with_reducible apply Keeps.trans ?_ (State.headFault_keeps _ _ _)
    | with_reducible apply Keeps.trans ?_ (State.raiseCtx_keeps _ _ _ _ _)
    | with_reducible apply Keeps.trans ?_ (h3 _ _)
    | intro _
    | dsimp only

theorem State.ringAccess_keeps (a0 : State) (a1 : Sys2Proof.Origin) (a2 : Nat) (a3 : State → State) (h3 : ∀ x0,
    Keeps x0 (a3 x0)) : Keeps a0 (State.ringAccess a0 a1 a2 a3) := by
  unfold State.ringAccess
  try dsimp only
  repeat'
    first
    | with_reducible apply Keeps.refl
    | assumption
    | split
    | with_reducible apply Keeps.trans ?_ (State.access_keeps _ _ _ _ ?_)
    | with_reducible apply Keeps.trans ?_ (h3 _)
    | intro _
    | dsimp only

/-! ### Glumes -/

theorem State.glumeAdd_keeps (a0 : State) (a1 : Nat) (a2 : Sig) (a3 : Nat) : Keeps a0 (State.glumeAdd a0 a1 a2
    a3) := by
  unfold State.glumeAdd
  try dsimp only
  repeat'
    first
    | with_reducible apply Keeps.refl
    | assumption
    | split
    | with_reducible apply Keeps.trans ?_ (State.setGlume_keeps _ _ _)
    | with_reducible apply Keeps.trans ?_ (State.raiseCtx_keeps _ _ _ _ _)
    | intro _
    | dsimp only

theorem State.turnAway_keeps (a0 : State) (a1 : Sig) : Keeps a0 (State.turnAway a0 a1) := by
  unfold State.turnAway
  try dsimp only
  repeat'
    first
    | with_reducible apply Keeps.refl
    | assumption
    | split
    | with_reducible apply Keeps.trans ?_ (State.dropSignal_keeps _)
    | with_reducible apply Keeps.trans ?_ (State.raiseCtx_keeps _ _ _ _ _)
    | intro _
    | dsimp only

theorem State.applySigs_keeps (a0 : State) (a1 : List Sig) : Keeps a0 (State.applySigs a0 a1) := by
  unfold State.applySigs
  try dsimp only
  repeat'
    first
    | with_reducible apply Keeps.refl
    | assumption
    | split
    | with_reducible apply Keeps.trans ?_ (State.turnAway_keeps _ _)
    | with_reducible apply Keeps.trans ?_ (State.glumeAdd_keeps _ _ _ _)
    | with_reducible apply Keeps.foldl _ _ ?_ ?_
    | with_reducible apply Keeps.foldl_fst _ _ ?_ ?_
    | intro _
    | dsimp only

theorem State.doSignalApply_keeps (a0 : State) (a1 : BitVec 16) (a2 : Nat) : Keeps a0 (State.doSignalApply a0 a1
    a2) := by
  unfold State.doSignalApply
  try dsimp only
  repeat'
    first
    | with_reducible apply Keeps.refl
    | assumption
    | simp only [Keeps.upd_iff]
    | split
    | with_reducible apply Keeps.trans ?_ (State.applySigs_keeps _ _)
    | intro _
    | dsimp only

theorem State.fireNotify_keeps (a0 : State) (a1 : Nat) : Keeps a0 (State.fireNotify a0 a1) := by
  unfold State.fireNotify
  try dsimp only
  repeat'
    first
    | with_reducible apply Keeps.refl
    | assumption
    | split
    | with_reducible apply Keeps.trans ?_ (State.setVector_keeps _ _ _)
    | with_reducible apply Keeps.trans ?_ (State.setFlag_keeps _ _ _ _)
    | with_reducible apply Keeps.trans ?_ (State.setCtx_keeps _ _ _)
    | intro _
    | dsimp only

theorem State.doNotifyFire_keeps (a0 : State) (a1 : Nat) : Keeps a0 (State.doNotifyFire a0 a1) := by
  unfold State.doNotifyFire
  try dsimp only
  repeat'
    first
    | with_reducible apply Keeps.refl
    | assumption
    | split
    | with_reducible apply Keeps.trans ?_ (State.fireNotify_keeps _ _)
    | intro _
    | dsimp only

theorem State.disarm_keeps (a0 : State) (a1 : Nat) : Keeps a0 (State.disarm a0 a1) := by
  unfold State.disarm
  try dsimp only
  repeat'
    first
    | with_reducible apply Keeps.refl
    | assumption
    | split
    | with_reducible apply Keeps.trans ?_ (State.setFlag_keeps _ _ _ _)
    | with_reducible apply Keeps.trans ?_ (State.setCtx_keeps _ _ _)
    | intro _
    | dsimp only

theorem State.notifyRefused_keeps (a0 : State) (a1 : Nat) (a2 : Nat) (a3 : Nat) (a4 : Nat) (a5 : Nat) : Keeps a0
    (State.notifyRefused a0 a1 a2 a3 a4 a5) := by
  unfold State.notifyRefused
  try dsimp only
  repeat'
    first
    | with_reducible apply Keeps.refl
    | assumption
    | split
    | with_reducible apply Keeps.trans ?_ (State.raiseGlume_keeps _ _ _ _ _)
    | with_reducible apply Keeps.trans ?_ (State.disarm_keeps _ _)
    | intro _
    | dsimp only

theorem State.doArm_keeps (a0 : State) (a1 : Nat) (a2 : Nat) : Keeps a0 (State.doArm a0 a1 a2) := by
  unfold State.doArm
  try dsimp only
  repeat'
    first
    | with_reducible apply Keeps.refl
    | assumption
    | split
    | with_reducible apply Keeps.trans ?_ (State.setFlag_keeps _ _ _ _)
    | with_reducible apply Keeps.trans ?_ (State.setFld_keeps _ _ _ _)
    | with_reducible apply Keeps.trans ?_ (State.fireNotify_keeps _ _)
    | with_reducible apply Keeps.trans ?_ (State.glumeXlat_keeps _ _ _ _)
    | with_reducible apply Keeps.trans ?_ (State.notifyRefused_keeps _ _ _ _ _ _)
    | with_reducible apply Keeps.trans ?_ (State.setCtx_keeps _ _ _)
    | intro _
    | dsimp only
    | (with_reducible apply State.glumeXlat_of; assumption)

theorem State.tillerSatisfied_keeps (a0 : State) (a1 : Nat) : Keeps a0 (State.tillerSatisfied a0 a1) := by
  unfold State.tillerSatisfied
  try dsimp only
  repeat'
    first
    | with_reducible apply Keeps.refl
    | assumption
    | split
    | with_reducible apply Keeps.trans ?_ (State.wakeTiller_keeps _ _ _ _ _)
    | intro _
    | dsimp only

theorem State.doSatisfied_keeps (a0 : State) (a1 : Sys2Proof.Waiter) : Keeps a0 (State.doSatisfied a0 a1) := by
  unfold State.doSatisfied
  try dsimp only
  repeat'
    first
    | with_reducible apply Keeps.refl
    | assumption
    | split
    | with_reducible apply Keeps.trans ?_ (State.tillerSatisfied_keeps _ _)
    | with_reducible apply Keeps.trans ?_ (State.evalHead_keeps _ _)
    | with_reducible apply Keeps.trans ?_ (State.doNotifyFire_keeps _ _)
    | intro _
    | dsimp only

theorem State.tillerWaitFails_keeps (a0 : State) (a1 : Nat) (a2 : WaitPosed) (a3 : Nat) : Keeps a0
    (State.tillerWaitFails a0 a1 a2 a3) := by
  unfold State.tillerWaitFails
  try dsimp only
  repeat'
    first
    | with_reducible apply Keeps.refl
    | assumption
    | split
    | with_reducible apply Keeps.trans ?_ (State.progFault_keeps _ _ _ _ _)
    | intro _
    | dsimp only

theorem State.headWaitFails_keeps (a0 : State) (a1 : Nat) (a2 : WaitPosed) (a3 : Nat) : Keeps a0
    (State.headWaitFails a0 a1 a2 a3) := by
  unfold State.headWaitFails
  try dsimp only
  repeat'
    first
    | with_reducible apply Keeps.refl
    | assumption
    | split
    | with_reducible apply Keeps.trans ?_ (State.headFault_keeps _ _ _)
    | with_reducible apply Keeps.trans ?_ (State.raiseCtx_keeps _ _ _ _ _)
    | intro _
    | dsimp only

theorem State.tillerTimeout_keeps (a0 : State) (a1 : Nat) : Keeps a0 (State.tillerTimeout a0 a1) := by
  unfold State.tillerTimeout
  try dsimp only
  repeat'
    first
    | with_reducible apply Keeps.refl
    | assumption
    | split
    | with_reducible apply Keeps.trans ?_ (State.tillerWaitFails_keeps _ _ _ _)
    | intro _
    | dsimp only

theorem State.headTimeout_keeps (a0 : State) (a1 : Nat) : Keeps a0 (State.headTimeout a0 a1) := by
  unfold State.headTimeout
  try dsimp only
  repeat'
    first
    | with_reducible apply Keeps.refl
    | assumption
    | exact Keeps.refl _
    | split
    | with_reducible apply Keeps.trans ?_ (State.headWaitFails_keeps _ _ _ _)
    | intro _
    | dsimp only

theorem State.doTimeout_keeps (a0 : State) (a1 : Sys2Proof.Waiter) : Keeps a0 (State.doTimeout a0 a1) := by
  unfold State.doTimeout
  try dsimp only
  repeat'
    first
    | with_reducible apply Keeps.refl
    | assumption
    | split
    | with_reducible apply Keeps.trans ?_ (State.tillerTimeout_keeps _ _)
    | with_reducible apply Keeps.trans ?_ (State.headTimeout_keeps _ _)
    | intro _
    | dsimp only

theorem State.failTillerOn_keeps (a0 : State) (a1 : Nat) (a2 : Nat) (a3 : Nat) : Keeps a0 (State.failTillerOn a0
    a1 a2 a3) := by
  unfold State.failTillerOn
  try dsimp only
  repeat'
    first
    | with_reducible apply Keeps.refl
    | assumption
    | split
    | with_reducible apply Keeps.trans ?_ (State.tillerSatisfied_keeps _ _)
    | with_reducible apply Keeps.trans ?_ (State.tillerWaitFails_keeps _ _ _ _)
    | intro _
    | dsimp only

theorem State.failHeadOn_keeps (a0 : State) (a1 : Nat) (a2 : Nat) (a3 : Nat) : Keeps a0 (State.failHeadOn a0 a1
    a2 a3) := by
  unfold State.failHeadOn
  try dsimp only
  repeat'
    first
    | with_reducible apply Keeps.refl
    | assumption
    | exact Keeps.refl _
    | split
    | with_reducible apply Keeps.trans ?_ (State.headWaitFails_keeps _ _ _ _)
    | with_reducible apply Keeps.trans ?_ (State.evalHead_keeps _ _)
    | intro _
    | dsimp only

theorem State.failNotifyOn_keeps (a0 : State) (a1 : Nat) (a2 : Nat) (a3 : Nat) : Keeps a0 (State.failNotifyOn a0
    a1 a2 a3) := by
  unfold State.failNotifyOn
  try dsimp only
  repeat'
    first
    | with_reducible apply Keeps.refl
    | assumption
    | split
    | with_reducible apply Keeps.trans ?_ (State.fireNotify_keeps _ _)
    | with_reducible apply Keeps.trans ?_ (State.raiseCtx_keeps _ _ _ _ _)
    | with_reducible apply Keeps.trans ?_ (State.disarm_keeps _ _)
    | intro _
    | dsimp only

theorem State.failWaits_keeps (a0 : State) (a1 : Nat) (a2 : Nat) : Keeps a0 (State.failWaits a0 a1 a2) := by
  unfold State.failWaits
  try dsimp only
  repeat'
    first
    | with_reducible apply Keeps.refl
    | assumption
    | split
    | with_reducible apply Keeps.trans ?_ (State.failTillerOn_keeps _ _ _ _)
    | with_reducible apply Keeps.trans ?_ (State.failHeadOn_keeps _ _ _ _)
    | with_reducible apply Keeps.trans ?_ (State.failNotifyOn_keeps _ _ _ _)
    | with_reducible apply Keeps.foldl _ _ ?_ ?_
    | with_reducible apply Keeps.foldl_fst _ _ ?_ ?_
    | intro _
    | dsimp only

theorem State.adminRefuse_keeps (a0 : State) (a1 : Nat) : Keeps a0 (State.adminRefuse a0 a1) := by
  unfold State.adminRefuse
  try dsimp only
  repeat'
    first
    | with_reducible apply Keeps.refl
    | assumption
    | split
    | with_reducible apply Keeps.trans ?_ (State.setFld_keeps _ _ _ _)
    | with_reducible apply Keeps.trans ?_ (State.setFlag_keeps _ _ _ _)
    | intro _
    | dsimp only

theorem State.adminOp_keeps (a0 : State) (a1 : Sys2Proof.Origin) (a2 : Nat) (a3 : Nat) (a4 : Nat) (a5 : State →
    State) (h5 : ∀ x0, Keeps x0 (a5 x0)) : Keeps a0 (State.adminOp a0 a1 a2 a3 a4 a5) := by
  unfold State.adminOp
  try dsimp only
  repeat'
    first
    | with_reducible apply Keeps.refl
    | assumption
    | split
    | with_reducible apply Keeps.trans ?_ (State.regCmd_keeps _ _ _ _ _ _ ?_)
    | with_reducible apply Keeps.trans ?_ (State.latch_keeps _ _ _ _)
    | with_reducible apply Keeps.trans ?_ (State.adminRefuse_keeps _ _)
    | with_reducible apply Keeps.trans ?_ (h5 _)
    | intro _
    | dsimp only

theorem State.setCopies_keeps (a0 : State) (a1 : Nat) (a2 : Nat) : Keeps a0 (State.setCopies a0 a1 a2) := by
  unfold State.setCopies
  try dsimp only
  repeat'
    first
    | with_reducible apply Keeps.refl
    | assumption
    | simp only [Keeps.upd_iff]
    | split
    | intro _
    | dsimp only

theorem State.adminBegin_keeps (a0 : State) (a1 : Nat) (a2 : Nat) : Keeps a0 (State.adminBegin a0 a1 a2) := by
  unfold State.adminBegin
  try dsimp only
  repeat'
    first
    | with_reducible apply Keeps.refl
    | assumption
    | simp only [Keeps.upd_iff]
    | split
    | intro _
    | dsimp only

theorem State.doAllocate_keeps (a0 : State) (a1 : Nat) (a2 : Nat) : Keeps a0 (State.doAllocate a0 a1 a2) := by
  unfold State.doAllocate
  try dsimp only
  repeat'
    first
    | with_reducible apply Keeps.refl
    | assumption
    | split
    | with_reducible apply Keeps.trans ?_ (State.adminBegin_keeps _ _ _)
    | with_reducible apply Keeps.trans ?_ (State.setCopies_keeps _ _ _)
    | with_reducible apply Keeps.trans ?_ (State.setGlume_keeps _ _ _)
    | with_reducible apply Keeps.trans ?_ (State.adminRefuse_keeps _ _)
    | intro _
    | dsimp only

theorem State.doFreeze_keeps (a0 : State) (a1 : Nat) : Keeps a0 (State.doFreeze a0 a1) := by
  unfold State.doFreeze
  try dsimp only
  repeat'
    first
    | with_reducible apply Keeps.refl
    | assumption
    | split
    | with_reducible apply Keeps.trans ?_ (State.adminBegin_keeps _ _ _)
    | with_reducible apply Keeps.trans ?_ (State.failWaits_keeps _ _ _)
    | with_reducible apply Keeps.trans ?_ (State.setGlume_keeps _ _ _)
    | with_reducible apply Keeps.trans ?_ (State.adminRefuse_keeps _ _)
    | intro _
    | dsimp only

theorem State.doFree_keeps (a0 : State) (a1 : Nat) : Keeps a0 (State.doFree a0 a1) := by
  unfold State.doFree
  try dsimp only
  repeat'
    first
    | with_reducible apply Keeps.refl
    | assumption
    | split
    | with_reducible apply Keeps.trans ?_ (State.adminBegin_keeps _ _ _)
    | with_reducible apply Keeps.trans ?_ (State.setCopies_keeps _ _ _)
    | with_reducible apply Keeps.trans ?_ (State.setGlume_keeps _ _ _)
    | with_reducible apply Keeps.trans ?_ (State.adminRefuse_keeps _ _)
    | intro _
    | dsimp only

theorem State.doRead_keeps (a0 : State) (a1 : Nat) : Keeps a0 (State.doRead a0 a1) := by
  unfold State.doRead
  try dsimp only
  repeat'
    first
    | with_reducible apply Keeps.refl
    | assumption
    | split
    | with_reducible apply Keeps.trans ?_ (State.adminBegin_keeps _ _ _)
    | with_reducible apply Keeps.trans ?_ (State.setFld_keeps _ _ _ _)
    | intro _
    | dsimp only

theorem State.doAdminComplete_keeps (a0 : State) : Keeps a0 (State.doAdminComplete a0) := by
  unfold State.doAdminComplete
  try dsimp only
  repeat'
    first
    | with_reducible apply Keeps.refl
    | assumption
    | simp only [Keeps.upd_iff]
    | split
    | intro _
    | dsimp only

theorem State.dropXlat_keeps (a0 : State) (a1 : BitVec 12) (a2 : Bool) (a3 : BitVec 16) : Keeps a0
    (State.dropXlat a0 a1 a2 a3) := by
  unfold State.dropXlat
  try dsimp only
  repeat'
    first
    | with_reducible apply Keeps.refl
    | assumption
    | simp only [Keeps.upd_iff]
    | split
    | intro _
    | dsimp only

theorem State.doXlatInval_keeps (a0 : State) (a1 : BitVec 12) (a2 : Bool) (a3 : BitVec 16) : Keeps a0
    (State.doXlatInval a0 a1 a2 a3) := by
  unfold State.doXlatInval
  try dsimp only
  repeat'
    first
    | with_reducible apply Keeps.refl
    | assumption
    | simp only [Keeps.upd_iff]
    | split
    | with_reducible apply Keeps.trans ?_ (State.dropXlat_keeps _ _ _ _)
    | intro _
    | dsimp only

theorem State.doXlatInvalComplete_keeps (a0 : State) : Keeps a0 (State.doXlatInvalComplete a0) := by
  unfold State.doXlatInvalComplete
  try dsimp only
  repeat'
    first
    | with_reducible apply Keeps.refl
    | assumption
    | simp only [Keeps.upd_iff]
    | split
    | with_reducible apply Keeps.trans ?_ (State.dropXlat_keeps _ _ _ _)
    | intro _
    | dsimp only

theorem State.giveValue_keeps (a0 : State) (a1 : Nat) (a2 : Nat) : Keeps a0 (State.giveValue a0 a1 a2) := by
  unfold State.giveValue
  try dsimp only
  repeat'
    first
    | with_reducible apply Keeps.refl
    | assumption
    | simp only [Keeps.upd_iff]
    | split
    | with_reducible apply Keeps.trans ?_ (State.setFld_keeps _ _ _ _)
    | intro _
    | dsimp only

theorem State.doValueRead_keeps (a0 : State) (a1 : Nat) : Keeps a0 (State.doValueRead a0 a1) := by
  unfold State.doValueRead
  try dsimp only
  repeat'
    first
    | with_reducible apply Keeps.refl
    | assumption
    | split
    | with_reducible apply Keeps.trans ?_ (State.giveValue_keeps _ _ _)
    | with_reducible apply Keeps.trans ?_ (State.raiseGlume_keeps _ _ _ _ _)
    | with_reducible apply Keeps.trans ?_ (State.glumePid_keeps _ _ _ _)
    | intro _
    | dsimp only
    | (with_reducible apply State.glumePid_of; assumption)

/-! ### Load -/

theorem State.unload_keeps (a0 : State) (a1 : Nat) : Keeps a0 (State.unload a0 a1) := by
  unfold State.unload
  try dsimp only
  repeat'
    first
    | with_reducible apply Keeps.refl
    | assumption
    | split
    | with_reducible apply Keeps.trans ?_ (State.setTstate_keeps _ _ _)
    | with_reducible apply Keeps.trans ?_ (State.setPc_keeps _ _ _)
    | with_reducible apply Keeps.trans ?_ (State.noProgram_keeps _ _)
    | with_reducible apply Keeps.trans ?_ (State.setTil_keeps _ _ _)
    | intro _
    | dsimp only

theorem State.clearParams_keeps (a0 : State) (a1 : Nat) : Keeps a0 (State.clearParams a0 a1) := by
  unfold State.clearParams
  try dsimp only
  repeat'
    first
    | with_reducible apply Keeps.refl
    | assumption
    | split
    | with_reducible apply Keeps.trans ?_ (State.setPreg_keeps _ _ _ _)
    | with_reducible apply Keeps.foldl _ _ ?_ ?_
    | with_reducible apply Keeps.foldl_fst _ _ ?_ ?_
    | intro _
    | dsimp only

theorem State.loadImage_keeps (a0 : State) (a1 : Nat) (a2 : List Sys2Proof.Byte) : Keeps a0 (State.loadImage a0
    a1 a2) := by
  unfold State.loadImage
  try dsimp only
  repeat'
    first
    | with_reducible apply Keeps.refl
    | assumption
    | split
    | with_reducible apply Keeps.trans ?_ (State.memWrite_keeps _ _ _ _)
    | with_reducible apply Keeps.trans ?_ (State.setTil_keeps _ _ _)
    | with_reducible apply Keeps.trans ?_ (State.setPreg_keeps _ _ _ _)
    | with_reducible apply Keeps.trans ?_ (State.clearParams_keeps _ _)
    | with_reducible apply Keeps.trans ?_ (State.setTstate_keeps _ _ _)
    | with_reducible apply Keeps.trans ?_ (State.setPc_keeps _ _ _)
    | with_reducible apply Keeps.trans ?_ (State.setFld_keeps _ _ _ _)
    | with_reducible apply Keeps.foldl _ _ ?_ ?_
    | with_reducible apply Keeps.foldl_fst _ _ ?_ ?_
    | intro _
    | dsimp only

theorem State.refusedList_keeps (a0 : State) (a1 : Nat) (a2 : Nat) (a3 : Nat) (a4 : Nat) (a5 : Nat) : Keeps a0
    (State.refusedList a0 a1 a2 a3 a4 a5) := by
  unfold State.refusedList
  try dsimp only
  repeat'
    first
    | with_reducible apply Keeps.refl
    | assumption
    | split
    | with_reducible apply Keeps.trans ?_ (State.raiseCtx_keeps _ _ _ _ _)
    | intro _
    | dsimp only

theorem State.failLoads_keeps (a0 : State) (a1 : List Nat) : Keeps a0 (State.failLoads a0 a1) := by
  unfold State.failLoads
  try dsimp only
  repeat'
    first
    | with_reducible apply Keeps.refl
    | assumption
    | split
    | with_reducible apply Keeps.trans ?_ (State.setFld_keeps _ _ _ _)
    | with_reducible apply Keeps.trans ?_ (State.unload_keeps _ _)
    | with_reducible apply Keeps.foldl _ _ ?_ ?_
    | with_reducible apply Keeps.foldl_fst _ _ ?_ ?_
    | intro _
    | dsimp only

theorem State.patchEntry_keeps (a0 : State) (a1 : List Nat) (a2 : Nat) : Keeps a0 (State.patchEntry a0 a1 a2) :=
    by
  unfold State.patchEntry
  try dsimp only
  repeat'
    first
    | with_reducible apply Keeps.refl
    | assumption
    | split
    | with_reducible apply Keeps.trans ?_ (State.setPreg_keeps _ _ _ _)
    | with_reducible apply Keeps.foldl _ _ ?_ ?_
    | with_reducible apply Keeps.foldl_fst _ _ ?_ ?_
    | intro _
    | dsimp only

theorem State.patchList_keeps (a0 : State) (a1 : List Nat) (a2 : List Nat) (a3 : Nat) : Keeps a0
    (State.patchList a0 a1 a2 a3).1 := by
  induction a2 generalizing a0 a1 a3 with
  | nil =>
    unfold State.patchList
    try dsimp only
    repeat'
      first
      | with_reducible apply Keeps.refl
      | assumption
      | split
      | with_reducible apply Keeps.trans ?_ (State.patchEntry_keeps _ _ _)
      | intro _
      | dsimp only
  | cons b l ih =>
    unfold State.patchList
    try dsimp only
    repeat'
      first
      | with_reducible apply Keeps.refl
      | assumption
      | split
      | with_reducible apply Keeps.trans ?_ (State.patchEntry_keeps _ _ _)
      | with_reducible apply Keeps.trans ?_ (ih _ _ _)
      | intro _
      | dsimp only

theorem State.patchList_of {a0 : State} {a1 : List Nat} {a2 : List Nat} {a3 : Nat} {t : State} {r : Option Nat}
    (h : State.patchList a0 a1 a2 a3 = (t, r))
    {s : State} (k : Keeps s a0) : Keeps s t := by
  have := State.patchList_keeps a0 a1 a2 a3
  rw [h] at this
  exact k.trans this

theorem State.reloadAgs_keeps (a0 : State) (a1 : Nat) : Keeps a0 (State.reloadAgs a0 a1) := by
  unfold State.reloadAgs
  try dsimp only
  repeat'
    first
    | with_reducible apply Keeps.refl
    | assumption
    | split
    | with_reducible apply Keeps.trans ?_ (State.setTil_keeps _ _ _)
    | with_reducible apply Keeps.foldl _ _ ?_ ?_
    | with_reducible apply Keeps.foldl_fst _ _ ?_ ?_
    | intro _
    | dsimp only

theorem State.startReplay_keeps (a0 : State) (a1 : Nat) (a2 : Job) : Keeps a0 (State.startReplay a0 a1 a2) := by
  unfold State.startReplay
  try dsimp only
  repeat'
    first
    | with_reducible apply Keeps.refl
    | assumption
    | split
    | with_reducible apply Keeps.trans ?_ (State.setTil_keeps _ _ _)
    | with_reducible apply Keeps.trans ?_ (State.setPc_keeps _ _ _)
    | with_reducible apply Keeps.trans ?_ (State.wrapAdd_keeps _ _ _ _)
    | with_reducible apply Keeps.trans ?_ (State.reloadAgs_keeps _ _)
    | with_reducible apply Keeps.trans ?_ (State.setTstate_keeps _ _ _)
    | with_reducible apply Keeps.trans ?_ (State.setFlag_keeps _ _ _ _)
    | intro _
    | dsimp only

theorem State.doGang_keeps (a0 : State) (a1 : Nat) (a2 : Nat) (a3 : Bool) : Keeps a0 (State.doGang a0 a1 a2 a3)
    := by
  unfold State.doGang
  try dsimp only
  repeat'
    first
    | with_reducible apply Keeps.refl
    | assumption
    | split
    | with_reducible apply Keeps.trans ?_ (State.setFlag_keeps _ _ _ _)
    | with_reducible apply Keeps.trans ?_ (State.markReady_keeps _ _)
    | with_reducible apply Keeps.trans ?_ (State.setFld_keeps _ _ _ _)
    | with_reducible apply Keeps.foldl _ _ ?_ ?_
    | with_reducible apply Keeps.foldl_fst _ _ ?_ ?_
    | intro _
    | dsimp only

/-! ### Commands -/

theorem State.readFor_keeps (a0 : State) (a1 : Nat) (a2 : Nat) (a3 : Nat) (a4 : Nat) (a5 : Option
    Sys2Proof.HostErr) : Keeps a0 (State.readFor a0 a1 a2 a3 a4 a5).1 := by
  unfold State.readFor
  try dsimp only
  repeat'
    first
    | with_reducible apply Keeps.refl
    | assumption
    | split
    | with_reducible apply Keeps.trans ?_ (State.readCva_keeps _ _ _ _ _ _ _ _)
    | intro _
    | dsimp only
    | (with_reducible apply State.readCva_of; assumption)

theorem State.readFor_of {a0 : State} {a1 : Nat} {a2 : Nat} {a3 : Nat} {a4 : Nat} {a5 : Option
    Sys2Proof.HostErr} {t : State} {r : Got}
    (h : State.readFor a0 a1 a2 a3 a4 a5 = (t, r))
    {s : State} (k : Keeps s a0) : Keeps s t := by
  have := State.readFor_keeps a0 a1 a2 a3 a4 a5
  rw [h] at this
  exact k.trans this

theorem State.readOn_keeps (a0 : State) (a1 : Nat) (a2 : Bool) (a3 : Nat) (a4 : Nat) (a5 : Nat) (a6 : Option
    Sys2Proof.HostErr) : Keeps a0 (State.readOn a0 a1 a2 a3 a4 a5 a6).1 := by
  unfold State.readOn
  try dsimp only
  repeat'
    first
    | with_reducible apply Keeps.refl
    | assumption
    | split
    | with_reducible apply Keeps.trans ?_ (State.readPart_keeps _ _ _ _ _ _ _ _)
    | with_reducible apply Keeps.trans ?_ (State.setRing_keeps _ _ _)
    | intro _
    | dsimp only
    | (with_reducible apply State.readPart_of; assumption)

theorem State.readOn_of {a0 : State} {a1 : Nat} {a2 : Bool} {a3 : Nat} {a4 : Nat} {a5 : Nat} {a6 : Option
    Sys2Proof.HostErr} {t : State} {r : Got}
    (h : State.readOn a0 a1 a2 a3 a4 a5 a6 = (t, r))
    {s : State} (k : Keeps s a0) : Keeps s t := by
  have := State.readOn_keeps a0 a1 a2 a3 a4 a5 a6
  rw [h] at this
  exact k.trans this

theorem State.newTail_keeps (a0 : State) (a1 : Nat) (a2 : Nat) : Keeps a0 (State.newTail a0 a1 a2) := by
  unfold State.newTail
  try dsimp only
  repeat'
    first
    | with_reducible apply Keeps.refl
    | assumption
    | split
    | with_reducible apply Keeps.trans ?_ (State.raiseCtx_keeps _ _ _ _ _)
    | with_reducible apply Keeps.trans ?_ (State.setRing_keeps _ _ _)
    | intro _
    | dsimp only

theorem State.takeDoorbell_keeps (a0 : State) (a1 : List Sys2Proof.PByte) (a2 : Nat) : Keeps a0
    (State.takeDoorbell a0 a1 a2) := by
  unfold State.takeDoorbell
  try dsimp only
  repeat'
    first
    | with_reducible apply Keeps.refl
    | assumption
    | split
    | with_reducible apply Keeps.trans ?_ (State.setRing_keeps _ _ _)
    | with_reducible apply Keeps.trans ?_ (State.newTail_keeps _ _ _)
    | intro _
    | dsimp only

theorem State.readDoorbell_keeps (a0 : State) (a1 : Nat) (a2 : Option Sys2Proof.HostErr) : Keeps a0
    (State.readDoorbell a0 a1 a2) := by
  unfold State.readDoorbell
  try dsimp only
  repeat'
    first
    | with_reducible apply Keeps.refl
    | assumption
    | split
    | with_reducible apply Keeps.trans ?_ (State.readCva_keeps _ _ _ _ _ _ _ _)
    | with_reducible apply Keeps.trans ?_ (State.takeDoorbell_keeps _ _ _)
    | with_reducible apply Keeps.foldl _ _ ?_ ?_
    | with_reducible apply Keeps.foldl_fst _ _ ?_ ?_
    | intro _
    | dsimp only
    | (with_reducible apply State.readCva_of; assumption)

theorem State.doSnoop_keeps (a0 : State) (a1 : Nat) (a2 : Option Sys2Proof.HostErr) : Keeps a0 (State.doSnoop a0
    a1 a2) := by
  unfold State.doSnoop
  try dsimp only
  repeat'
    first
    | with_reducible apply Keeps.refl
    | assumption
    | split
    | with_reducible apply Keeps.trans ?_ (State.readDoorbell_keeps _ _ _)
    | intro _
    | dsimp only

theorem State.doPoll_keeps (a0 : State) (a1 : Nat) (a2 : Option Sys2Proof.HostErr) : Keeps a0 (State.doPoll a0
    a1 a2) := by
  unfold State.doPoll
  try dsimp only
  repeat'
    first
    | with_reducible apply Keeps.refl
    | assumption
    | split
    | with_reducible apply Keeps.trans ?_ (State.readDoorbell_keeps _ _ _)
    | with_reducible apply Keeps.trans ?_ (State.setRing_keeps _ _ _)
    | intro _
    | dsimp only

theorem State.doRingEnable_keeps (a0 : State) (a1 : Nat) : Keeps a0 (State.doRingEnable a0 a1) := by
  unfold State.doRingEnable
  try dsimp only
  repeat'
    first
    | with_reducible apply Keeps.refl
    | assumption
    | split
    | with_reducible apply Keeps.trans ?_ (State.raiseCtx_keeps _ _ _ _ _)
    | with_reducible apply Keeps.trans ?_ (State.setFlag_keeps _ _ _ _)
    | with_reducible apply Keeps.trans ?_ (State.setRing_keeps _ _ _)
    | intro _
    | dsimp only

theorem State.putFetched_keeps (a0 : State) (a1 : Nat) (a2 : Nat) (a3 : List Sys2Proof.Byte) : Keeps a0
    (State.putFetched a0 a1 a2 a3) := by
  unfold State.putFetched
  try dsimp only
  repeat'
    first
    | with_reducible apply Keeps.refl
    | assumption
    | split
    | with_reducible apply Keeps.trans ?_ (State.setRing_keeps _ _ _)
    | intro _
    | dsimp only

theorem State.fetchAhead_keeps (a0 : State) (a1 : Nat) (a2 : Nat) (a3 : Option Sys2Proof.HostErr) : Keeps a0
    (State.fetchAhead a0 a1 a2 a3) := by
  unfold State.fetchAhead
  try dsimp only
  repeat'
    first
    | with_reducible apply Keeps.refl
    | assumption
    | split
    | with_reducible apply Keeps.trans ?_ (State.putFetched_keeps _ _ _ _)
    | with_reducible apply Keeps.trans ?_ (State.countRead_keeps _ _ _)
    | intro _
    | dsimp only

theorem State.fetchHead_keeps (a0 : State) (a1 : Nat) (a2 : Nat) (a3 : Option Sys2Proof.HostErr) : Keeps a0
    (State.fetchHead a0 a1 a2 a3) := by
  unfold State.fetchHead
  try dsimp only
  repeat'
    first
    | with_reducible apply Keeps.refl
    | assumption
    | split
    | with_reducible apply Keeps.trans ?_ (State.readFor_keeps _ _ _ _ _ _)
    | with_reducible apply Keeps.trans ?_ (State.settleHead_keeps _ _)
    | with_reducible apply Keeps.trans ?_ (State.putFetched_keeps _ _ _ _)
    | with_reducible apply Keeps.trans ?_ (State.headFault_keeps _ _ _)
    | intro _
    | dsimp only
    | (with_reducible apply State.readFor_of; assumption)

theorem State.doFetch_keeps (a0 : State) (a1 : Nat) (a2 : Option Sys2Proof.HostErr) : Keeps a0 (State.doFetch a0
    a1 a2) := by
  unfold State.doFetch
  try dsimp only
  repeat'
    first
    | with_reducible apply Keeps.refl
    | assumption
    | split
    | with_reducible apply Keeps.trans ?_ (State.fetchHead_keeps _ _ _ _)
    | with_reducible apply Keeps.trans ?_ (State.fetchAhead_keeps _ _ _ _)
    | intro _
    | dsimp only

theorem State.doCmdNop_keeps (a0 : State) (a1 : Nat) : Keeps a0 (State.doCmdNop a0 a1) := by
  unfold State.doCmdNop
  try dsimp only
  repeat'
    first
    | with_reducible apply Keeps.refl
    | assumption
    | split
    | with_reducible apply Keeps.trans ?_ (State.tryStart_keeps _ _ _ _ ?_)
    | with_reducible apply Keeps.trans ?_ (State.startHead_keeps _ _ _ _ _)
    | intro _
    | dsimp only

theorem State.readImage_keeps (a0 : State) (a1 : Nat) (a2 : Nat) (a3 : Option Sys2Proof.HostErr) : Keeps a0
    (State.readImage a0 a1 a2 a3).1 := by
  unfold State.readImage
  try dsimp only
  repeat'
    first
    | with_reducible apply Keeps.refl
    | assumption
    | split
    | with_reducible apply Keeps.trans ?_ (State.readOn_keeps _ _ _ _ _ _ _)
    | intro _
    | dsimp only
    | (with_reducible apply State.readOn_of; assumption)

theorem State.readImage_of {a0 : State} {a1 : Nat} {a2 : Nat} {a3 : Option Sys2Proof.HostErr} {t : State} {r :
    Got}
    (h : State.readImage a0 a1 a2 a3 = (t, r))
    {s : State} (k : Keeps s a0) : Keeps s t := by
  have := State.readImage_keeps a0 a1 a2 a3
  rw [h] at this
  exact k.trans this

theorem State.runTillers_keeps (a0 : State) (a1 : Nat) (a2 : BitVec 512) (a3 : List Sys2Proof.Byte) (a4 : List
    Sys2Proof.Byte) : Keeps a0 (State.runTillers a0 a1 a2 a3 a4) := by
  unfold State.runTillers
  try dsimp only
  repeat'
    first
    | with_reducible apply Keeps.refl
    | assumption
    | split
    | with_reducible apply Keeps.trans ?_ (State.headFault_keeps _ _ _)
    | with_reducible apply Keeps.trans ?_ (State.refusedList_keeps _ _ _ _ _ _)
    | with_reducible apply Keeps.trans ?_ (State.failLoads_keeps _ _)
    | with_reducible apply Keeps.trans ?_ (State.loadImage_keeps _ _ _)
    | with_reducible apply Keeps.trans ?_ (State.patchList_keeps _ _ _ _)
    | with_reducible apply Keeps.trans ?_ (State.startHead_keeps _ _ _ _ _)
    | with_reducible apply Keeps.trans ?_ (State.startReplay_keeps _ _ _)
    | with_reducible apply Keeps.foldl _ _ ?_ ?_
    | with_reducible apply Keeps.foldl_fst _ _ ?_ ?_
    | intro _
    | dsimp only
    | (with_reducible apply State.patchList_of; assumption)

theorem onRead_keeps (r : Nat) (x : State × Got) (k : State → List Byte → State) (h : ∀ s b, Keeps s (k s b))
    {s : State} (h0 : Keeps s x.1) : Keeps s (onRead r x k) := by
  refine h0.trans ?_
  unfold onRead
  split
  · exact Keeps.refl _
  · exact State.headFault_keeps ..
  · exact h _ _

theorem State.doRun_keeps (a0 : State) (a1 : Nat) (a2 : Option Sys2Proof.HostErr) : Keeps a0 (State.doRun a0 a1
    a2) := by
  unfold State.doRun
  try dsimp only
  repeat'
    first
    | with_reducible apply Keeps.refl
    | assumption
    | split
    | with_reducible apply Keeps.trans ?_ (State.tryStart_keeps _ _ _ _ ?_)
    | with_reducible apply Keeps.trans ?_ (State.readImage_keeps _ _ _ _)
    | with_reducible apply onRead_keeps _ _ _ ?_ ?_
    | with_reducible apply Keeps.trans ?_ (State.readOn_keeps _ _ _ _ _ _ _)
    | with_reducible apply Keeps.trans ?_ (State.runTillers_keeps _ _ _ _ _)
    | intro _
    | dsimp only
    | (with_reducible apply State.readImage_of; assumption)
    | (with_reducible apply State.readOn_of; assumption)

theorem State.queueOps_keeps (a0 : State) (a1 : Nat) (a2 : BitVec 512) (a3 : List Nat) : Keeps a0
    (State.queueOps a0 a1 a2 a3) := by
  unfold State.queueOps
  try dsimp only
  repeat'
    first
    | with_reducible apply Keeps.refl
    | assumption
    | simp only [Keeps.upd_iff]
    | split
    | with_reducible apply Keeps.foldl _ _ ?_ ?_
    | with_reducible apply Keeps.foldl_fst _ _ ?_ ?_
    | intro _
    | dsimp only

theorem State.doXfer_keeps (a0 : State) (a1 : Nat) (a2 : Option Sys2Proof.HostErr) : Keeps a0 (State.doXfer a0
    a1 a2) := by
  unfold State.doXfer
  try dsimp only
  repeat'
    first
    | with_reducible apply Keeps.refl
    | assumption
    | split
    | with_reducible apply Keeps.trans ?_ (State.tryStart_keeps _ _ _ _ ?_)
    | with_reducible apply onRead_keeps _ _ _ ?_ ?_
    | with_reducible apply Keeps.trans ?_ (State.readOn_keeps _ _ _ _ _ _ _)
    | with_reducible apply Keeps.trans ?_ (State.startHead_keeps _ _ _ _ _)
    | with_reducible apply Keeps.trans ?_ (State.queueOps_keeps _ _ _ _)
    | intro _
    | dsimp only
    | (with_reducible apply State.readOn_of; assumption)

theorem State.dropRunning_keeps (a0 : State) (a1 : Nat) (a2 : Nat) : Keeps a0 (State.dropRunning a0 a1 a2) := by
  unfold State.dropRunning
  try dsimp only
  repeat'
    first
    | with_reducible apply Keeps.refl
    | assumption
    | split
    | with_reducible apply Keeps.trans ?_ (State.setRing_keeps _ _ _)
    | intro _
    | dsimp only

theorem State.doComplete_keeps (a0 : State) (a1 : Nat) (a2 : Nat) : Keeps a0 (State.doComplete a0 a1 a2) := by
  unfold State.doComplete
  try dsimp only
  repeat'
    first
    | with_reducible apply Keeps.refl
    | assumption
    | split
    | with_reducible apply Keeps.trans ?_ (State.completion_keeps _ _ _ _ _ _ _ _ _)
    | with_reducible apply Keeps.trans ?_ (State.sendSigs_keeps _ _ _)
    | with_reducible apply Keeps.trans ?_ (State.cmdRecord_keeps _ _ _ _ _ _ _ _)
    | with_reducible apply Keeps.trans ?_ (State.trace_keeps _ _ _ _ _ _ _)
    | with_reducible apply Keeps.trans ?_ (State.markReady_keeps _ _)
    | with_reducible apply Keeps.trans ?_ (State.dropRunning_keeps _ _ _)
    | intro _
    | dsimp only

theorem State.doCancel_keeps (a0 : State) (a1 : Nat) (a2 : Nat) : Keeps a0 (State.doCancel a0 a1 a2) := by
  unfold State.doCancel
  try dsimp only
  repeat'
    first
    | with_reducible apply Keeps.refl
    | assumption
    | split
    | with_reducible apply Keeps.trans ?_ (State.setRing_keeps _ _ _)
    | intro _
    | dsimp only

theorem State.doRetire_keeps (a0 : State) (a1 : Nat) : Keeps a0 (State.doRetire a0 a1) := by
  unfold State.doRetire
  try dsimp only
  repeat'
    first
    | with_reducible apply Keeps.refl
    | assumption
    | split
    | with_reducible apply Keeps.trans ?_ (State.completion_keeps _ _ _ _ _ _ _ _ _)
    | with_reducible apply Keeps.trans ?_ (State.sendSigs_keeps _ _ _)
    | with_reducible apply Keeps.trans ?_ (State.cmdRecord_keeps _ _ _ _ _ _ _ _)
    | with_reducible apply Keeps.trans ?_ (State.trace_keeps _ _ _ _ _ _ _)
    | with_reducible apply Keeps.trans ?_ (State.settleHead_keeps _ _)
    | with_reducible apply Keeps.trans ?_ (State.dropHead_keeps _ _)
    | intro _
    | dsimp only

theorem State.doRingResume_keeps (a0 : State) (a1 : Nat) : Keeps a0 (State.doRingResume a0 a1) := by
  unfold State.doRingResume
  try dsimp only
  repeat'
    first
    | with_reducible apply Keeps.refl
    | assumption
    | split
    | with_reducible apply Keeps.trans ?_ (State.setRing_keeps _ _ _)
    | with_reducible apply Keeps.trans ?_ (State.settleHead_keeps _ _)
    | with_reducible apply Keeps.trans ?_ (State.dropRunning_keeps _ _ _)
    | with_reducible apply Keeps.trans ?_ (State.cmdRecord_keeps _ _ _ _ _ _ _ _)
    | with_reducible apply Keeps.trans ?_ (State.dropHead_keeps _ _)
    | intro _
    | dsimp only

/-! ### Contexts -/

theorem State.clearAnom_keeps (a0 : State) (a1 : Nat) : Keeps a0 (State.clearAnom a0 a1) := by
  unfold State.clearAnom
  try dsimp only
  repeat'
    first
    | with_reducible apply Keeps.refl
    | assumption
    | split
    | with_reducible apply Keeps.trans ?_ (State.setFld_keeps _ _ _ _)
    | with_reducible apply Keeps.foldl _ _ ?_ ?_
    | with_reducible apply Keeps.foldl_fst _ _ ?_ ?_
    | intro _
    | dsimp only

theorem State.doCtxEnable_keeps (a0 : State) (a1 : Nat) (a2 : Bool) : Keeps a0 (State.doCtxEnable a0 a1 a2) :=
    by
  unfold State.doCtxEnable
  try dsimp only
  repeat'
    first
    | with_reducible apply Keeps.refl
    | assumption
    | split
    | with_reducible apply Keeps.trans ?_ (State.setFlag_keeps _ _ _ _)
    | with_reducible apply Keeps.trans ?_ (State.setFld_keeps _ _ _ _)
    | with_reducible apply Keeps.trans ?_ (State.clearAnom_keeps _ _)
    | intro _
    | dsimp only

theorem State.retryWalk_keeps (a0 : State) (a1 : Nat) (a2 : Nat × BitVec 4 × UnitRef) : Keeps a0
    (State.retryWalk a0 a1 a2) := by
  unfold State.retryWalk
  try dsimp only
  repeat'
    first
    | with_reducible apply Keeps.refl
    | assumption
    | split
    | with_reducible apply Keeps.trans ?_ (State.walkReads_keeps _ _ _ _ _)
    | with_reducible apply Keeps.trans ?_ (State.raiseAll_keeps _ _)
    | with_reducible apply Keeps.trans ?_ (State.freezeCtx_keeps _ _ _ _ _ _ _ _)
    | intro _
    | dsimp only
    | (with_reducible apply State.walkReads_of; assumption)

theorem State.doXlatResume_keeps (a0 : State) (a1 : Nat) : Keeps a0 (State.doXlatResume a0 a1) := by
  unfold State.doXlatResume
  try dsimp only
  repeat'
    first
    | with_reducible apply Keeps.refl
    | assumption
    | split
    | with_reducible apply Keeps.trans ?_ (State.flushHeld_keeps _ _)
    | with_reducible apply Keeps.trans ?_ (State.retryWalk_keeps _ _ _)
    | with_reducible apply Keeps.trans ?_ (State.setFlag_keeps _ _ _ _)
    | with_reducible apply Keeps.trans ?_ (State.setCtx_keeps _ _ _)
    | with_reducible apply Keeps.foldl _ _ ?_ ?_
    | with_reducible apply Keeps.foldl_fst _ _ ?_ ?_
    | intro _
    | dsimp only

theorem State.dropTlb_keeps (a0 : State) (a1 : Nat) (a2 : Bool) (a3 : Nat) : Keeps a0 (State.dropTlb a0 a1 a2
    a3) := by
  unfold State.dropTlb
  try dsimp only
  repeat'
    first
    | with_reducible apply Keeps.refl
    | assumption
    | simp only [Keeps.upd_iff]
    | split
    | intro _
    | dsimp only

theorem State.doTlbInval_keeps (a0 : State) (a1 : Nat) (a2 : Bool) (a3 : Nat) : Keeps a0 (State.doTlbInval a0 a1
    a2 a3) := by
  unfold State.doTlbInval
  try dsimp only
  repeat'
    first
    | with_reducible apply Keeps.refl
    | assumption
    | split
    | with_reducible apply Keeps.trans ?_ (State.dropTlb_keeps _ _ _ _)
    | with_reducible apply Keeps.trans ?_ (State.setCtx_keeps _ _ _)
    | intro _
    | dsimp only

theorem State.doTlbDone_keeps (a0 : State) (a1 : Nat) : Keeps a0 (State.doTlbDone a0 a1) := by
  unfold State.doTlbDone
  try dsimp only
  repeat'
    first
    | with_reducible apply Keeps.refl
    | assumption
    | split
    | with_reducible apply Keeps.trans ?_ (State.setCtx_keeps _ _ _)
    | with_reducible apply Keeps.trans ?_ (State.dropTlb_keeps _ _ _ _)
    | intro _
    | dsimp only

theorem State.resetPhase1_keeps (a0 : State) (a1 : Nat) : Keeps a0 (State.resetPhase1 a0 a1) := by
  unfold State.resetPhase1
  try dsimp only
  repeat'
    first
    | with_reducible apply Keeps.refl
    | assumption
    | split
    | with_reducible apply Keeps.trans ?_ (State.setCtx_keeps _ _ _)
    | with_reducible apply Keeps.trans ?_ (State.wrapAdd_keeps _ _ _ _)
    | with_reducible apply Keeps.trans ?_ (State.setFlag_keeps _ _ _ _)
    | with_reducible apply Keeps.trans ?_ (State.setFld_keeps _ _ _ _)
    | intro _
    | dsimp only

theorem State.resetRings_keeps (a0 : State) (a1 : Nat) : Keeps a0 (State.resetRings a0 a1) := by
  unfold State.resetRings
  try dsimp only
  repeat'
    first
    | with_reducible apply Keeps.refl
    | assumption
    | simp only [Keeps.upd_iff]
    | split
    | intro _
    | dsimp only

theorem State.resetGlumes_keeps (a0 : State) (a1 : Nat) : Keeps a0 (State.resetGlumes a0 a1) := by
  unfold State.resetGlumes
  try dsimp only
  repeat'
    first
    | with_reducible apply Keeps.refl
    | assumption
    | simp only [Keeps.upd_iff]
    | split
    | with_reducible apply Keeps.trans ?_ (State.disarm_keeps _ _)
    | intro _
    | dsimp only

theorem State.resetTiller_keeps (a0 : State) (a1 : Nat) : Keeps a0 (State.resetTiller a0 a1) := by
  unfold State.resetTiller
  try dsimp only
  repeat'
    first
    | with_reducible apply Keeps.refl
    | assumption
    | split
    | with_reducible apply Keeps.trans ?_ (State.unload_keeps _ _)
    | with_reducible apply Keeps.trans ?_ (State.setTil_keeps _ _ _)
    | intro _
    | dsimp only

theorem State.resetTillers_keeps (a0 : State) (a1 : Nat) : Keeps a0 (State.resetTillers a0 a1) := by
  unfold State.resetTillers
  try dsimp only
  repeat'
    first
    | with_reducible apply Keeps.refl
    | assumption
    | split
    | with_reducible apply Keeps.trans ?_ (State.resetTiller_keeps _ _)
    | with_reducible apply Keeps.foldl _ _ ?_ ?_
    | with_reducible apply Keeps.foldl_fst _ _ ?_ ?_
    | intro _
    | dsimp only

theorem State.resetMirror_keeps (a0 : State) (a1 : Nat) : Keeps a0 (State.resetMirror a0 a1) := by
  unfold State.resetMirror
  try dsimp only
  repeat'
    first
    | with_reducible apply Keeps.refl
    | assumption
    | split
    | with_reducible apply Keeps.trans ?_ (State.discardMirror_keeps _ _)
    | with_reducible apply Keeps.foldl _ _ ?_ ?_
    | with_reducible apply Keeps.foldl_fst _ _ ?_ ?_
    | intro _
    | dsimp only

theorem State.resetTraffic_keeps (a0 : State) (a1 : Nat) : Keeps a0 (State.resetTraffic a0 a1) := by
  unfold State.resetTraffic
  try dsimp only
  repeat'
    first
    | with_reducible apply Keeps.refl
    | assumption
    | simp only [Keeps.upd_iff]
    | split
    | with_reducible apply Keeps.trans ?_ (State.satAdd_keeps _ _ _ _)
    | intro _
    | dsimp only

theorem State.disarmGroups_keeps (a0 : State) (a1 : Nat) : Keeps a0 (State.disarmGroups a0 a1) := by
  unfold State.disarmGroups
  try dsimp only
  repeat'
    first
    | with_reducible apply Keeps.refl
    | assumption
    | split
    | with_reducible apply Keeps.trans ?_ (State.setFlag_keeps _ _ _ _)
    | with_reducible apply Keeps.foldl _ _ ?_ ?_
    | with_reducible apply Keeps.foldl_fst _ _ ?_ ?_
    | intro _
    | dsimp only

theorem State.resetCaches_keeps (a0 : State) (a1 : Nat) : Keeps a0 (State.resetCaches a0 a1) := by
  unfold State.resetCaches
  try dsimp only
  repeat'
    first
    | with_reducible apply Keeps.refl
    | assumption
    | simp only [Keeps.upd_iff]
    | split
    | with_reducible apply Keeps.trans ?_ (State.dropTlb_keeps _ _ _ _)
    | intro _
    | dsimp only

theorem State.doCtxReset_keeps (a0 : State) (a1 : Nat) (a2 : Nat) : Keeps a0 (State.doCtxReset a0 a1 a2) := by
  unfold State.doCtxReset
  try dsimp only
  repeat'
    first
    | with_reducible apply Keeps.refl
    | assumption
    | split
    | with_reducible apply Keeps.trans ?_ (State.audit!_keeps _ _ _ _ _ _ _ _)
    | with_reducible apply Keeps.trans ?_ (State.resetCaches_keeps _ _)
    | with_reducible apply Keeps.trans ?_ (State.disarmGroups_keeps _ _)
    | with_reducible apply Keeps.trans ?_ (State.resetTraffic_keeps _ _)
    | with_reducible apply Keeps.trans ?_ (State.resetMirror_keeps _ _)
    | with_reducible apply Keeps.trans ?_ (State.resetTillers_keeps _ _)
    | with_reducible apply Keeps.trans ?_ (State.resetGlumes_keeps _ _)
    | with_reducible apply Keeps.trans ?_ (State.resetRings_keeps _ _)
    | with_reducible apply Keeps.trans ?_ (State.resetPhase1_keeps _ _)
    | intro _
    | dsimp only

theorem State.doFlr_keeps (a0 : State) (a1 : Nat) : Keeps a0 (State.doFlr a0 a1) := by
  unfold State.doFlr
  try dsimp only
  repeat'
    first
    | with_reducible apply Keeps.refl
    | assumption
    | split
    | with_reducible apply Keeps.trans ?_ (State.doCtxReset_keeps _ _ _)
    | with_reducible apply Keeps.foldl _ _ ?_ ?_
    | with_reducible apply Keeps.foldl_fst _ _ ?_ ?_
    | intro _
    | dsimp only

theorem State.disableRings_keeps (a0 : State) (a1 : Nat) : Keeps a0 (State.disableRings a0 a1) := by
  unfold State.disableRings
  try dsimp only
  repeat'
    first
    | with_reducible apply Keeps.refl
    | assumption
    | split
    | with_reducible apply Keeps.trans ?_ (State.setFlag_keeps _ _ _ _)
    | with_reducible apply Keeps.foldl _ _ ?_ ?_
    | with_reducible apply Keeps.foldl_fst _ _ ?_ ?_
    | intro _
    | dsimp only

theorem State.doResetDone_keeps (a0 : State) (a1 : Nat) : Keeps a0 (State.doResetDone a0 a1) := by
  unfold State.doResetDone
  try dsimp only
  repeat'
    first
    | with_reducible apply Keeps.refl
    | assumption
    | split
    | with_reducible apply Keeps.trans ?_ (State.setFld_keeps _ _ _ _)
    | with_reducible apply Keeps.trans ?_ (State.setCtx_keeps _ _ _)
    | with_reducible apply Keeps.trans ?_ (State.disableRings_keeps _ _)
    | with_reducible apply Keeps.trans ?_ (State.raiseNo_keeps _ _ _ _)
    | intro _
    | dsimp only

theorem State.setMsixWord_keeps (a0 : State) (a1 : Nat) (a2 : Nat) (a3 : Nat) : Keeps a0 (State.setMsixWord a0
    a1 a2 a3) := by
  unfold State.setMsixWord
  try dsimp only
  repeat'
    first
    | with_reducible apply Keeps.refl
    | assumption
    | simp only [Keeps.upd_iff]
    | split
    | intro _
    | dsimp only

theorem State.doMsix_keeps (a0 : State) (a1 : Nat) (a2 : Nat) : Keeps a0 (State.doMsix a0 a1 a2) := by
  unfold State.doMsix
  try dsimp only
  repeat'
    first
    | with_reducible apply Keeps.refl
    | assumption
    | split
    | with_reducible apply Keeps.trans ?_ (State.emit_keeps _ _)
    | with_reducible apply Keeps.trans ?_ (State.setCtx_keeps _ _ _)
    | intro _
    | dsimp only

/-! ### Hbm -/

theorem State.doScrub_keeps (a0 : State) (a1 : Nat) (a2 : Sys2Proof.EccErr) (a3 : Bool) : Keeps a0
    (State.doScrub a0 a1 a2 a3) := by
  unfold State.doScrub
  try dsimp only
  repeat'
    first
    | with_reducible apply Keeps.refl
    | assumption
    | simp only [Keeps.upd_iff]
    | split
    | with_reducible apply Keeps.trans ?_ (State.count_keeps _ _ _)
    | with_reducible apply raised_keeps _ ?_
    | with_reducible apply Keeps.trans ?_ (State.rowCe_keeps _ _ _ _ _)
    | with_reducible apply Keeps.trans ?_ (State.wordFixed_keeps _ _ _ _ _)
    | with_reducible apply Keeps.trans ?_ (State.wordLost_keeps _ _ _ _ _)
    | intro _
    | dsimp only
    | (with_reducible apply State.rowCe_of; assumption)
    | (with_reducible apply State.wordFixed_of; assumption)
    | (with_reducible apply State.wordLost_of; assumption)

theorem State.repairLeft_keeps (a0 : State) : Keeps a0 (State.repairLeft a0) := by
  unfold State.repairLeft
  try dsimp only
  repeat'
    first
    | with_reducible apply Keeps.refl
    | assumption
    | split
    | with_reducible apply Keeps.trans ?_ (State.setFld_keeps _ _ _ _)
    | with_reducible apply Keeps.trans ?_ (State.useFree_keeps _)
    | intro _
    | dsimp only

theorem State.repairWrite_keeps (a0 : State) (a1 : Nat) (a2 : Nat) (a3 : Bool) (a4 : Bool) : Keeps a0
    (State.repairWrite a0 a1 a2 a3 a4) := by
  unfold State.repairWrite
  try dsimp only
  repeat'
    first
    | with_reducible apply Keeps.refl
    | assumption
    | simp only [Keeps.upd_iff]
    | split
    | with_reducible apply Keeps.trans ?_ (State.repairLeft_keeps _)
    | with_reducible apply Keeps.trans ?_ (State.writeReg_keeps _ _ _ _ _)
    | with_reducible apply Keeps.trans ?_ (State.setFlag_keeps _ _ _ _)
    | intro _
    | dsimp only

theorem State.doGoHard_keeps (a0 : State) (a1 : Sys2Proof.Origin) (a2 : Nat) (a3 : Nat) : Keeps a0
    (State.doGoHard a0 a1 a2 a3) := by
  unfold State.doGoHard
  try dsimp only
  repeat'
    first
    | with_reducible apply Keeps.refl
    | assumption
    | split
    | with_reducible apply Keeps.trans ?_ (State.access_keeps _ _ _ _ ?_)
    | with_reducible apply Keeps.trans ?_ (State.audit!_keeps _ _ _ _ _ _ _ _)
    | with_reducible apply Keeps.trans ?_ (State.repairWrite_keeps _ _ _ _ _)
    | intro _
    | dsimp only

theorem State.sweepRow_keeps (a0 : State) (a1 : Nat) : Keeps a0 (State.sweepRow a0 a1) := by
  unfold State.sweepRow
  try dsimp only
  repeat'
    first
    | with_reducible apply Keeps.refl
    | assumption
    | split
    | with_reducible apply raised_keeps _ ?_
    | with_reducible apply Keeps.trans ?_ (Sys2Proof.Machine.gather_keeps _ _ _ ?_)
    | with_reducible apply Keeps.trans ?_ (State.checkWord_keeps _ _ _ _)
    | intro _
    | dsimp only
    | (with_reducible apply Sys2Proof.Machine.gather_of; assumption)
    | (with_reducible apply State.checkWord_of; assumption)

theorem State.addSoft_keeps (a0 : State) (a1 : Nat) : Keeps a0 (State.addSoft a0 a1) := by
  unfold State.addSoft
  try dsimp only
  repeat'
    first
    | with_reducible apply Keeps.refl
    | assumption
    | simp only [Keeps.upd_iff]
    | split
    | intro _
    | dsimp only

theorem State.repairFails_keeps (a0 : State) (a1 : Nat) : Keeps a0 (State.repairFails a0 a1) := by
  unfold State.repairFails
  try dsimp only
  repeat'
    first
    | with_reducible apply Keeps.refl
    | assumption
    | split
    | with_reducible apply Keeps.trans ?_ (State.raiseNo_keeps _ _ _ _)
    | with_reducible apply Keeps.trans ?_ (State.setFlag_keeps _ _ _ _)
    | intro _
    | dsimp only

theorem State.autoRepairDone_keeps (a0 : State) (a1 : Bool) : Keeps a0 (State.autoRepairDone a0 a1) := by
  unfold State.autoRepairDone
  try dsimp only
  repeat'
    first
    | with_reducible apply Keeps.refl
    | assumption
    | simp only [Keeps.upd_iff]
    | split
    | with_reducible apply Keeps.trans ?_ (State.addSoft_keeps _ _)
    | with_reducible apply Keeps.trans ?_ (State.sweepRow_keeps _ _)
    | with_reducible apply Keeps.trans ?_ (State.repairFails_keeps _ _)
    | intro _
    | dsimp only

theorem State.doRepairDone_keeps (a0 : State) (a1 : Bool) : Keeps a0 (State.doRepairDone a0 a1) := by
  unfold State.doRepairDone
  try dsimp only
  repeat'
    first
    | with_reducible apply Keeps.refl
    | assumption
    | split
    | with_reducible apply Keeps.trans ?_ (State.setFlag_keeps _ _ _ _)
    | with_reducible apply Keeps.trans ?_ (State.sweepRow_keeps _ _)
    | with_reducible apply Keeps.trans ?_ (State.repairLeft_keeps _)
    | with_reducible apply Keeps.trans ?_ (State.addSoft_keeps _ _)
    | with_reducible apply Keeps.trans ?_ (State.repairFails_keeps _ _)
    | with_reducible apply Keeps.trans ?_ (State.autoRepairDone_keeps _ _)
    | intro _
    | dsimp only

theorem State.retirePage_keeps (a0 : State) (a1 : Nat) : Keeps a0 (State.retirePage a0 a1) := by
  unfold State.retirePage
  try dsimp only
  repeat'
    first
    | with_reducible apply Keeps.refl
    | assumption
    | simp only [Keeps.upd_iff]
    | split
    | intro _
    | dsimp only

theorem State.clearRetired_keeps (a0 : State) : Keeps a0 (State.clearRetired a0) := by
  unfold State.clearRetired
  try dsimp only
  repeat'
    first
    | with_reducible apply Keeps.refl
    | assumption
    | simp only [Keeps.upd_iff]
    | split
    | intro _
    | dsimp only

theorem State.logRestart_keeps (a0 : State) : Keeps a0 (State.logRestart a0) := by
  unfold State.logRestart
  try dsimp only
  repeat'
    first
    | with_reducible apply Keeps.refl
    | assumption
    | simp only [Keeps.upd_iff]
    | split
    | intro _
    | dsimp only

theorem State.regionWrite_keeps (a0 : State) (a1 : Bool) (a2 : Nat) (a3 : Nat) : Keeps a0 (State.regionWrite a0
    a1 a2 a3) := by
  unfold State.regionWrite
  try dsimp only
  repeat'
    first
    | with_reducible apply Keeps.refl
    | assumption
    | split
    | with_reducible apply Keeps.trans ?_ (State.writeFld_keeps _ _ _ _ _)
    | with_reducible apply Keeps.trans ?_ (State.writeReg_keeps _ _ _ _ _)
    | with_reducible apply Keeps.trans ?_ (State.logRestart_keeps _)
    | with_reducible apply Keeps.trans ?_ (State.setFlag_keeps _ _ _ _)
    | intro _
    | dsimp only

/-! ### Xfer -/

theorem State.setEngine_keeps (a0 : State) (a1 : Nat) (a2 : List XferOp) : Keeps a0 (State.setEngine a0 a1 a2)
    := by
  unfold State.setEngine
  try dsimp only
  repeat'
    first
    | with_reducible apply Keeps.refl
    | assumption
    | simp only [Keeps.upd_iff]
    | split
    | intro _
    | dsimp only

theorem State.opDone_keeps (a0 : State) (a1 : Nat) (a2 : Nat) : Keeps a0 (State.opDone a0 a1 a2) := by
  unfold State.opDone
  try dsimp only
  repeat'
    first
    | with_reducible apply Keeps.refl
    | assumption
    | split
    | with_reducible apply Keeps.trans ?_ (State.setEngine_keeps _ _ _)
    | intro _
    | dsimp only

theorem State.opLeave_keeps (a0 : State) (a1 : Nat) (a2 : Nat) : Keeps a0 (State.opLeave a0 a1 a2) := by
  unfold State.opLeave
  try dsimp only
  repeat'
    first
    | with_reducible apply Keeps.refl
    | assumption
    | split
    | with_reducible apply Keeps.trans ?_ (State.setEngine_keeps _ _ _)
    | intro _
    | dsimp only

theorem State.opClosed_keeps (a0 : State) (a1 : Nat) (a2 : Nat) : Keeps a0 (State.opClosed a0 a1 a2) := by
  unfold State.opClosed
  try dsimp only
  repeat'
    first
    | with_reducible apply Keeps.refl
    | assumption
    | split
    | with_reducible apply Keeps.trans ?_ (State.setRing_keeps _ _ _)
    | intro _
    | dsimp only

theorem State.opRefuse_keeps (a0 : State) (a1 : Nat) (a2 : Nat) (a3 : XferOp) (a4 : Nat) : Keeps a0
    (State.opRefuse a0 a1 a2 a3 a4) := by
  unfold State.opRefuse
  try dsimp only
  repeat'
    first
    | with_reducible apply Keeps.refl
    | assumption
    | split
    | with_reducible apply Keeps.trans ?_ (State.commandFault_keeps _ _ _ _)
    | with_reducible apply Keeps.trans ?_ (State.opLeave_keeps _ _ _)
    | intro _
    | dsimp only

theorem State.xlatAll_keeps (a0 : State) (a1 : Nat) (a2 : Nat) (a3 : Nat) (a4 : Accessor) (a5 : List (Nat ×
    Nat)) : Keeps a0 (State.xlatAll a0 a1 a2 a3 a4 a5).1 := by
  induction a5 generalizing a0 a1 a2 a3 a4 with
  | nil =>
    unfold State.xlatAll
    try dsimp only
    repeat'
      first
      | with_reducible apply Keeps.refl
      | assumption
      | split
      | with_reducible apply Keeps.trans ?_ (State.translate_keeps _ _ _ _ _ _ _)
      | intro _
      | dsimp only
      | (with_reducible apply State.translate_of; assumption)
  | cons b l ih =>
    unfold State.xlatAll
    try dsimp only
    repeat'
      first
      | with_reducible apply Keeps.refl
      | assumption
      | split
      | with_reducible apply Keeps.trans ?_ (State.translate_keeps _ _ _ _ _ _ _)
      | with_reducible apply Keeps.trans ?_ (ih _ _ _ _ _)
      | intro _
      | dsimp only
      | (with_reducible apply State.translate_of; assumption)

theorem State.xlatAll_of {a0 : State} {a1 : Nat} {a2 : Nat} {a3 : Nat} {a4 : Accessor} {a5 : List (Nat × Nat)}
    {t : State} {r : Option (List (Nat × Nat))}
    (h : State.xlatAll a0 a1 a2 a3 a4 a5 = (t, r))
    {s : State} (k : Keeps s a0) : Keeps s t := by
  have := State.xlatAll_keeps a0 a1 a2 a3 a4 a5
  rw [h] at this
  exact k.trans this

theorem State.xlatRows_keeps (a0 : State) (a1 : Nat) (a2 : XferOp) (a3 : XferErr) (a4 : Nat) (a5 : List (Nat ×
    Nat)) : Keeps a0 (State.xlatRows a0 a1 a2 a3 a4 a5).1 := by
  unfold State.xlatRows
  try dsimp only
  repeat'
    first
    | with_reducible apply Keeps.refl
    | assumption
    | split
    | with_reducible apply Keeps.trans ?_ (State.xlatAll_keeps _ _ _ _ _ _)
    | intro _
    | dsimp only
    | (with_reducible apply State.xlatAll_of; assumption)

theorem State.xlatRows_of {a0 : State} {a1 : Nat} {a2 : XferOp} {a3 : XferErr} {a4 : Nat} {a5 : List (Nat ×
    Nat)} {t : State} {r : Option (List (Nat × Nat))}
    (h : State.xlatRows a0 a1 a2 a3 a4 a5 = (t, r))
    {s : State} (k : Keeps s a0) : Keeps s t := by
  have := State.xlatRows_keeps a0 a1 a2 a3 a4 a5
  rw [h] at this
  exact k.trans this

theorem State.readSegs_keeps (a0 : State) (a1 : Accessor) (a2 : List (Nat × Nat)) : Keeps a0 (State.readSegs a0
    a1 a2).1 := by
  induction a2 generalizing a0 a1 with
  | nil =>
    unfold State.readSegs
    try dsimp only
    repeat'
      first
      | with_reducible apply Keeps.refl
      | assumption
      | split
      | with_reducible apply Keeps.trans ?_ (State.memRead_keeps _ _ _ _)
      | intro _
      | dsimp only
      | (with_reducible apply State.memRead_of; assumption)
  | cons b l ih =>
    unfold State.readSegs
    try dsimp only
    repeat'
      first
      | with_reducible apply Keeps.refl
      | assumption
      | split
      | with_reducible apply Keeps.trans ?_ (State.memRead_keeps _ _ _ _)
      | with_reducible apply Keeps.trans ?_ (ih _ _)
      | intro _
      | dsimp only
      | (with_reducible apply State.memRead_of; assumption)

theorem State.readSegs_of {a0 : State} {a1 : Accessor} {a2 : List (Nat × Nat)} {t : State} {r : List
    Sys2Proof.PByte}
    (h : State.readSegs a0 a1 a2 = (t, r))
    {s : State} (k : Keeps s a0) : Keeps s t := by
  have := State.readSegs_keeps a0 a1 a2
  rw [h] at this
  exact k.trans this

theorem State.writeSegs_keeps (a0 : State) (a1 : Accessor) (a2 : List (Nat × Nat)) (a3 : List Sys2Proof.PByte) :
    Keeps a0 (State.writeSegs a0 a1 a2 a3) := by
  induction a2 generalizing a0 a1 a3 with
  | nil =>
    unfold State.writeSegs
    try dsimp only
    repeat'
      first
      | with_reducible apply Keeps.refl
      | assumption
      | split
      | with_reducible apply Keeps.trans ?_ (State.memWrite_keeps _ _ _ _)
      | intro _
      | dsimp only
  | cons b l ih =>
    unfold State.writeSegs
    try dsimp only
    repeat'
      first
      | with_reducible apply Keeps.refl
      | assumption
      | split
      | with_reducible apply Keeps.trans ?_ (State.memWrite_keeps _ _ _ _)
      | with_reducible apply Keeps.trans ?_ (ih _ _ _)
      | intro _
      | dsimp only

theorem withSegs_keeps (a0 : State × Option (List (Nat × Nat))) (a1 : State → List (Nat × Nat) → State) (h1 : ∀
    x0 x1, Keeps x0 (a1 x0 x1)) {s : State} (k : Keeps s a0.1) : Keeps s (withSegs a0 a1) := by
  refine k.trans ?_
  unfold withSegs
  split
  · exact Keeps.refl _
  · exact h1 _ _

theorem State.copyRows_keeps (a0 : State) (a1 : Nat) (a2 : Nat) (a3 : XferOp) (a4 : XferErr) (a5 : List (Nat ×
    Nat)) (a6 : List (Nat × Nat)) : Keeps a0 (State.copyRows a0 a1 a2 a3 a4 a5 a6) := by
  unfold State.copyRows
  try dsimp only
  repeat'
    first
    | with_reducible apply Keeps.refl
    | assumption
    | split
    | with_reducible apply withSegs_keeps _ _ ?_ ?_
    | with_reducible apply Keeps.trans ?_ (State.xlatRows_keeps _ _ _ _ _ _)
    | with_reducible apply Keeps.trans ?_ (State.readSegs_keeps _ _ _)
    | with_reducible apply Keeps.trans ?_ (State.opDone_keeps _ _ _)
    | with_reducible apply Keeps.trans ?_ (State.writeSegs_keeps _ _ _ _)
    | intro _
    | dsimp only
    | (with_reducible apply State.xlatRows_of; assumption)
    | (with_reducible apply State.readSegs_of; assumption)

theorem State.doCopy_keeps (a0 : State) (a1 : Nat) (a2 : Nat) (a3 : XferErr) : Keeps a0 (State.doCopy a0 a1 a2
    a3) := by
  unfold State.doCopy
  try dsimp only
  repeat'
    first
    | with_reducible apply Keeps.refl
    | assumption
    | split
    | with_reducible apply Keeps.trans ?_ (State.opRefuse_keeps _ _ _ _ _)
    | with_reducible apply Keeps.trans ?_ (State.copyRows_keeps _ _ _ _ _ _ _)
    | intro _
    | dsimp only

theorem State.doFill_keeps (a0 : State) (a1 : Nat) (a2 : Nat) (a3 : XferErr) : Keeps a0 (State.doFill a0 a1 a2
    a3) := by
  unfold State.doFill
  try dsimp only
  repeat'
    first
    | with_reducible apply Keeps.refl
    | assumption
    | split
    | with_reducible apply Keeps.trans ?_ (State.opRefuse_keeps _ _ _ _ _)
    | with_reducible apply withSegs_keeps _ _ ?_ ?_
    | with_reducible apply Keeps.trans ?_ (State.xlatRows_keeps _ _ _ _ _ _)
    | with_reducible apply Keeps.trans ?_ (State.opDone_keeps _ _ _)
    | with_reducible apply Keeps.trans ?_ (State.writeSegs_keeps _ _ _ _)
    | intro _
    | dsimp only
    | (with_reducible apply State.xlatRows_of; assumption)

theorem State.milletAccess_keeps (a0 : State) (a1 : Accessor) (a2 : Nat) (a3 : Nat) (a4 : List Sys2Proof.PByte)
    : Keeps a0 (State.milletAccess a0 a1 a2 a3 a4).1 := by
  unfold State.milletAccess
  try dsimp only
  repeat'
    first
    | with_reducible apply Keeps.refl
    | assumption
    | split
    | with_reducible apply Keeps.trans ?_ (State.count_keeps _ _ _)
    | with_reducible apply Keeps.trans ?_ (State.memRead_keeps _ _ _ _)
    | with_reducible apply Keeps.trans ?_ (State.wrote_keeps _ _ _)
    | with_reducible apply Keeps.trans ?_ (State.memWriteCells_keeps _ _ _)
    | with_reducible apply Keeps.trans ?_ (State.useFree_keeps _)
    | with_reducible apply Keeps.trans ?_ (State.memWrite_keeps _ _ _ _)
    | intro _
    | dsimp only
    | (with_reducible apply State.memRead_of; assumption)

theorem State.milletAccess_of {a0 : State} {a1 : Accessor} {a2 : Nat} {a3 : Nat} {a4 : List Sys2Proof.PByte} {t
    : State} {r : List Sys2Proof.PByte}
    (h : State.milletAccess a0 a1 a2 a3 a4 = (t, r))
    {s : State} (k : Keeps s a0) : Keeps s t := by
  have := State.milletAccess_keeps a0 a1 a2 a3 a4
  rw [h] at this
  exact k.trans this

theorem State.milletSector_keeps (a0 : State) (a1 : Nat) (a2 : XferOp) (a3 : XferErr) (a4 : Int) : Keeps a0
    (State.milletSector a0 a1 a2 a3 a4).1 := by
  unfold State.milletSector
  try dsimp only
  repeat'
    first
    | with_reducible apply Keeps.refl
    | assumption
    | split
    | with_reducible apply Keeps.trans ?_ (State.translate_keeps _ _ _ _ _ _ _)
    | intro _
    | dsimp only
    | (with_reducible apply State.translate_of; assumption)

theorem State.milletSector_of {a0 : State} {a1 : Nat} {a2 : XferOp} {a3 : XferErr} {a4 : Int} {t : State} {r :
    Option Nat × Bool}
    (h : State.milletSector a0 a1 a2 a3 a4 = (t, r))
    {s : State} (k : Keeps s a0) : Keeps s t := by
  have := State.milletSector_keeps a0 a1 a2 a3 a4
  rw [h] at this
  exact k.trans this

theorem State.milletSectors_keeps (a0 : State) (a1 : Nat) (a2 : XferOp) (a3 : XferErr) (a4 : List Int) : Keeps
    a0 (State.milletSectors a0 a1 a2 a3 a4).1 := by
  induction a4 generalizing a0 a1 a2 a3 with
  | nil =>
    unfold State.milletSectors
    try dsimp only
    repeat'
      first
      | with_reducible apply Keeps.refl
      | assumption
      | split
      | with_reducible apply Keeps.trans ?_ (State.milletSector_keeps _ _ _ _ _)
      | intro _
      | dsimp only
      | (with_reducible apply State.milletSector_of; assumption)
  | cons b l ih =>
    unfold State.milletSectors
    try dsimp only
    repeat'
      first
      | with_reducible apply Keeps.refl
      | assumption
      | split
      | with_reducible apply Keeps.trans ?_ (State.milletSector_keeps _ _ _ _ _)
      | with_reducible apply Keeps.trans ?_ (ih _ _ _ _)
      | intro _
      | dsimp only
      | (with_reducible apply State.milletSector_of; assumption)

theorem State.milletSectors_of {a0 : State} {a1 : Nat} {a2 : XferOp} {a3 : XferErr} {a4 : List Int} {t : State}
    {r : List (Option Nat) × Bool}
    (h : State.milletSectors a0 a1 a2 a3 a4 = (t, r))
    {s : State} (k : Keeps s a0) : Keeps s t := by
  have := State.milletSectors_keeps a0 a1 a2 a3 a4
  rw [h] at this
  exact k.trans this

theorem State.milletClock_keeps (a0 : State) : Keeps a0 (State.milletClock a0) := by
  unfold State.milletClock
  try dsimp only
  repeat'
    first
    | with_reducible apply Keeps.refl
    | assumption
    | simp only [Keeps.upd_iff]
    | split
    | intro _
    | dsimp only

theorem State.milletTake_keeps (a0 : State) (a1 : Nat) : Keeps a0 (State.milletTake a0 a1) := by
  unfold State.milletTake
  try dsimp only
  repeat'
    first
    | with_reducible apply Keeps.refl
    | assumption
    | simp only [Keeps.upd_iff]
    | split
    | intro _
    | dsimp only

theorem State.milletRun_keeps (s : State) (w : Accessor) (kind : Nat) (l : List (Option Nat))
    (d : List Sys2Proof.PByte) : Keeps s (State.milletRun s w kind l d).1 := by
  induction l generalizing s d with
  | nil => exact Keeps.refl _
  | cons b l ih =>
    cases b with
    | none => exact ih s _
    | some x =>
      unfold State.milletRun
      split
      · exact ((State.milletTake_keeps ..).trans (State.milletAccess_keeps ..)).trans (ih _ _)
      · exact Keeps.refl _

theorem State.milletRun_of {s : State} {w : Accessor} {kind : Nat} {l : List (Option Nat)}
    {d : List Sys2Proof.PByte} {t : State} {r : List Sys2Proof.PByte × Nat}
    (h : State.milletRun s w kind l d = (t, r)) {s₀ : State} (k : Keeps s₀ s) : Keeps s₀ t := by
  have := State.milletRun_keeps s w kind l d
  rw [h] at this
  exact k.trans this

theorem State.milletReport_keeps (a0 : State) (a1 : Nat) (a2 : XferOp) (a3 : List Int) (a4 : List (Option Nat))
    : Keeps a0 (State.milletReport a0 a1 a2 a3 a4) := by
  unfold State.milletReport
  try dsimp only
  repeat'
    first
    | with_reducible apply Keeps.refl
    | assumption
    | split
    | with_reducible apply Keeps.trans ?_ (State.raiseCtx_keeps _ _ _ _ _)
    | intro _
    | dsimp only

theorem State.setWork_keeps (a0 : State) (a1 : Nat) (a2 : Nat) (a3 : MilletWork) : Keeps a0 (State.setWork a0 a1
    a2 a3) := by
  unfold State.setWork
  try dsimp only
  repeat'
    first
    | with_reducible apply Keeps.refl
    | assumption
    | split
    | with_reducible apply Keeps.trans ?_ (State.setEngine_keeps _ _ _)
    | intro _
    | dsimp only

theorem State.milletGo_keeps (a0 : State) (a1 : Nat) (a2 : Nat) (a3 : XferOp) (a4 : XferErr) (a5 : Nat) (a6 :
    MilletWork) : Keeps a0 (State.milletGo a0 a1 a2 a3 a4 a5 a6) := by
  unfold State.milletGo
  try dsimp only
  repeat'
    first
    | with_reducible apply Keeps.refl
    | assumption
    | split
    | with_reducible apply Keeps.trans ?_ (State.milletRun_keeps _ _ _ _ _)
    | with_reducible apply Keeps.trans ?_ (State.milletClock_keeps _)
    | with_reducible apply Keeps.trans ?_ (State.setWork_keeps _ _ _ _)
    | with_reducible apply withSegs_keeps _ _ ?_ ?_
    | with_reducible apply Keeps.trans ?_ (State.xlatRows_keeps _ _ _ _ _ _)
    | with_reducible apply Keeps.trans ?_ (State.opDone_keeps _ _ _)
    | with_reducible apply Keeps.trans ?_ (State.writeSegs_keeps _ _ _ _)
    | intro _
    | dsimp only
    | (with_reducible apply State.milletRun_of; assumption)
    | (with_reducible apply State.xlatRows_of; assumption)

theorem State.milletStart_keeps (a0 : State) (a1 : Nat) (a2 : XferOp) (a3 : XferErr) (a4 : Nat) (a5 : State →
    MilletWork → State) (h5 : ∀ x0 x1, Keeps x0 (a5 x0 x1)) : Keeps a0 (State.milletStart a0 a1 a2 a3 a4 a5) :=
    by
  unfold State.milletStart
  try dsimp only
  repeat'
    first
    | with_reducible apply Keeps.refl
    | assumption
    | split
    | with_reducible apply withSegs_keeps _ _ ?_ ?_
    | with_reducible apply Keeps.trans ?_ (State.xlatRows_keeps _ _ _ _ _ _)
    | with_reducible apply Keeps.trans ?_ (State.readSegs_keeps _ _ _)
    | with_reducible apply Keeps.trans ?_ (State.milletSectors_keeps _ _ _ _ _)
    | with_reducible apply Keeps.trans ?_ (State.milletReport_keeps _ _ _ _ _)
    | with_reducible apply Keeps.trans ?_ (h5 _ _)
    | intro _
    | dsimp only
    | (with_reducible apply State.xlatRows_of; assumption)
    | (with_reducible apply State.readSegs_of; assumption)
    | (with_reducible apply State.milletSectors_of; assumption)

theorem State.doMillet_keeps (a0 : State) (a1 : Nat) (a2 : Nat) (a3 : Nat) (a4 : XferErr) : Keeps a0
    (State.doMillet a0 a1 a2 a3 a4) := by
  unfold State.doMillet
  try dsimp only
  repeat'
    first
    | with_reducible apply Keeps.refl
    | assumption
    | split
    | with_reducible apply Keeps.trans ?_ (State.opRefuse_keeps _ _ _ _ _)
    | with_reducible apply Keeps.trans ?_ (State.milletGo_keeps _ _ _ _ _ _ _)
    | with_reducible apply Keeps.trans ?_ (State.milletStart_keeps _ _ _ _ _ _ ?_)
    | intro _
    | dsimp only

theorem State.digestRefuse_keeps (a0 : State) (a1 : Nat) (a2 : Nat) (a3 : XferOp) (a4 : Nat) : Keeps a0
    (State.digestRefuse a0 a1 a2 a3 a4) := by
  unfold State.digestRefuse
  try dsimp only
  repeat'
    first
    | with_reducible apply Keeps.refl
    | assumption
    | split
    | with_reducible apply Keeps.trans ?_ (State.opRefuse_keeps _ _ _ _ _)
    | with_reducible apply Keeps.trans ?_ (State.raiseCtx_keeps _ _ _ _ _)
    | intro _
    | dsimp only

theorem State.digestRange_keeps (a0 : State) (a1 : Nat) (a2 : Nat) (a3 : XferOp) (a4 : XferErr) (a5 : Bool) :
    Keeps a0 (State.digestRange a0 a1 a2 a3 a4 a5) := by
  unfold State.digestRange
  try dsimp only
  repeat'
    first
    | with_reducible apply Keeps.refl
    | assumption
    | split
    | with_reducible apply withSegs_keeps _ _ ?_ ?_
    | with_reducible apply Keeps.trans ?_ (State.xlatRows_keeps _ _ _ _ _ _)
    | with_reducible apply Keeps.trans ?_ (State.readSegs_keeps _ _ _)
    | with_reducible apply Keeps.trans ?_ (State.writeSegs_keeps _ _ _ _)
    | with_reducible apply Keeps.trans ?_ (State.opDone_keeps _ _ _)
    | intro _
    | dsimp only
    | (with_reducible apply State.xlatRows_of; assumption)
    | (with_reducible apply State.readSegs_of; assumption)

theorem State.digestFinal_keeps (a0 : State) (a1 : Nat) (a2 : Nat) (a3 : XferOp) (a4 : XferErr) : Keeps a0
    (State.digestFinal a0 a1 a2 a3 a4) := by
  unfold State.digestFinal
  try dsimp only
  repeat'
    first
    | with_reducible apply Keeps.refl
    | assumption
    | split
    | with_reducible apply withSegs_keeps _ _ ?_ ?_
    | with_reducible apply Keeps.trans ?_ (State.xlatRows_keeps _ _ _ _ _ _)
    | with_reducible apply Keeps.trans ?_ (State.readSegs_keeps _ _ _)
    | with_reducible apply Keeps.trans ?_ (State.opDone_keeps _ _ _)
    | with_reducible apply Keeps.trans ?_ (State.writeSegs_keeps _ _ _ _)
    | intro _
    | dsimp only
    | (with_reducible apply State.xlatRows_of; assumption)
    | (with_reducible apply State.readSegs_of; assumption)

theorem State.digestProv_keeps (a0 : State) (a1 : Nat) (a2 : Nat) (a3 : XferOp) (a4 : XferErr) : Keeps a0
    (State.digestProv a0 a1 a2 a3 a4) := by
  unfold State.digestProv
  try dsimp only
  repeat'
    first
    | with_reducible apply Keeps.refl
    | assumption
    | split
    | with_reducible apply withSegs_keeps _ _ ?_ ?_
    | with_reducible apply Keeps.trans ?_ (State.xlatRows_keeps _ _ _ _ _ _)
    | with_reducible apply Keeps.trans ?_ (State.readSegs_keeps _ _ _)
    | with_reducible apply Keeps.trans ?_ (State.digestRefuse_keeps _ _ _ _ _)
    | with_reducible apply Keeps.trans ?_ (State.opDone_keeps _ _ _)
    | with_reducible apply Keeps.trans ?_ (State.writeSegs_keeps _ _ _ _)
    | intro _
    | dsimp only
    | (with_reducible apply State.xlatRows_of; assumption)
    | (with_reducible apply State.readSegs_of; assumption)

theorem State.doDigest_keeps (a0 : State) (a1 : Nat) (a2 : Nat) (a3 : Nat) (a4 : XferErr) : Keeps a0
    (State.doDigest a0 a1 a2 a3 a4) := by
  unfold State.doDigest
  try dsimp only
  repeat'
    first
    | with_reducible apply Keeps.refl
    | assumption
    | split
    | with_reducible apply Keeps.trans ?_ (State.digestRefuse_keeps _ _ _ _ _)
    | with_reducible apply Keeps.trans ?_ (State.digestFinal_keeps _ _ _ _ _)
    | with_reducible apply Keeps.trans ?_ (State.digestProv_keeps _ _ _ _ _)
    | with_reducible apply Keeps.trans ?_ (State.digestRange_keeps _ _ _ _ _ _)
    | intro _
    | dsimp only

theorem State.doOpComplete_keeps (a0 : State) (a1 : Nat) (a2 : Nat) : Keeps a0 (State.doOpComplete a0 a1 a2) :=
    by
  unfold State.doOpComplete
  try dsimp only
  repeat'
    first
    | with_reducible apply Keeps.refl
    | assumption
    | split
    | with_reducible apply Keeps.trans ?_ (State.opClosed_keeps _ _ _)
    | with_reducible apply Keeps.trans ?_ (State.opLeave_keeps _ _ _)
    | intro _
    | dsimp only

theorem State.doFarTimeout_keeps (a0 : State) (a1 : Nat) (a2 : Nat) : Keeps a0 (State.doFarTimeout a0 a1 a2) :=
    by
  unfold State.doFarTimeout
  try dsimp only
  repeat'
    first
    | with_reducible apply Keeps.refl
    | assumption
    | split
    | with_reducible apply Keeps.trans ?_ (State.doFill_keeps _ _ _ _)
    | with_reducible apply Keeps.trans ?_ (State.doMillet_keeps _ _ _ _ _)
    | with_reducible apply Keeps.trans ?_ (State.doDigest_keeps _ _ _ _ _)
    | with_reducible apply Keeps.trans ?_ (State.doCopy_keeps _ _ _ _)
    | intro _
    | dsimp only

theorem State.linkFarTimeout_keeps (a0 : State) (a1 : Fin 8) : Keeps a0 (State.linkFarTimeout a0 a1) := by
  unfold State.linkFarTimeout
  try dsimp only
  repeat'
    first
    | with_reducible apply Keeps.refl
    | assumption
    | simp only [Keeps.upd_iff]
    | split
    | intro _
    | dsimp only

theorem State.doFarDown_keeps (a0 : State) : Keeps a0 (State.doFarDown a0) := by
  unfold State.doFarDown
  try dsimp only
  repeat'
    first
    | with_reducible apply Keeps.refl
    | assumption
    | split
    | with_reducible apply Keeps.trans ?_ (State.setFlag_keeps _ _ _ _)
    | with_reducible apply Keeps.trans ?_ (State.setFld_keeps _ _ _ _)
    | intro _
    | dsimp only

end Sys2Proof.Machine
end

