-- ==== Sys2Proof/Laws/KeepsFabric.lean ====
section
/-! SUPPORT. What every operation keeps (Laws/Keeps.lean): ports, packets, flows and collective groups. -/

set_option linter.unusedTactic false
set_option linter.unreachableTactic false

set_option Elab.async false

namespace Sys2Proof.Machine

/-! ### Streams -/

theorem State.setPort_keeps (a0 : State) (a1 : Nat) (a2 : Port) : Keeps a0 (State.setPort a0 a1 a2) := by
  unfold State.setPort
  try dsimp only
  repeat'
    first
    | with_reducible apply Keeps.refl
    | assumption
    | simp only [Keeps.upd_iff]
    | split
    | intro _
    | dsimp only

theorem State.stage_keeps (a0 : State) (a1 : Nat) (a2 : Nat) (a3 : Pkt) : Keeps a0 (State.stage a0 a1 a2 a3) :=
    by
  unfold State.stage
  try dsimp only
  repeat'
    first
    | with_reducible apply Keeps.refl
    | assumption
    | split
    | with_reducible apply Keeps.trans ?_ (State.count_keeps _ _ _)
    | with_reducible apply Keeps.trans ?_ (State.setPort_keeps _ _ _)
    | intro _
    | dsimp only

/-! ### Ports -/

theorem State.setPortState_keeps (a0 : State) (a1 : Nat) (a2 : Nat) : Keeps a0 (State.setPortState a0 a1 a2) :=
    by
  unfold State.setPortState
  try dsimp only
  repeat'
    first
    | with_reducible apply Keeps.refl
    | assumption
    | split
    | with_reducible apply Keeps.trans ?_ (State.setFld_keeps _ _ _ _)
    | with_reducible apply Keeps.trans ?_ (State.trace_keeps _ _ _ _ _ _ _)
    | intro _
    | dsimp only

theorem State.reportSwaps_keeps (a0 : State) (a1 : Nat) (a2 : Nat) (a3 : Nat) (a4 : List Swap) : Keeps a0
    (State.reportSwaps a0 a1 a2 a3 a4) := by
  unfold State.reportSwaps
  try dsimp only
  repeat'
    first
    | with_reducible apply Keeps.refl
    | assumption
    | split
    | with_reducible apply Keeps.trans ?_ (State.raiseNo_keeps _ _ _ _)
    | with_reducible apply Keeps.trans ?_ (State.setFlag_keeps _ _ _ _)
    | with_reducible apply Keeps.foldl _ _ ?_ ?_
    | with_reducible apply Keeps.foldl_fst _ _ ?_ ?_
    | intro _
    | dsimp only

theorem State.creditsTold_keeps (a0 : State) (a1 : Nat) : Keeps a0 (State.creditsTold a0 a1) := by
  unfold State.creditsTold
  try dsimp only
  repeat'
    first
    | with_reducible apply Keeps.refl
    | assumption
    | split
    | with_reducible apply Keeps.trans ?_ (State.setPort_keeps _ _ _)
    | with_reducible apply Keeps.foldl _ _ ?_ ?_
    | with_reducible apply Keeps.foldl_fst _ _ ?_ ?_
    | intro _
    | dsimp only

theorem State.urgentLcf_keeps (a0 : State) (a1 : Nat) (a2 : Option Nat) : Keeps a0 (State.urgentLcf a0 a1 a2) :=
    by
  unfold State.urgentLcf
  try dsimp only
  repeat'
    first
    | with_reducible apply Keeps.refl
    | assumption
    | split
    | with_reducible apply Keeps.trans ?_ (State.creditsTold_keeps _ _)
    | with_reducible apply Keeps.trans ?_ (State.emit_keeps _ _)
    | intro _
    | dsimp only

theorem State.sendPause_keeps (a0 : State) (a1 : Nat) : Keeps a0 (State.sendPause a0 a1) := by
  unfold State.sendPause
  try dsimp only
  repeat'
    first
    | with_reducible apply Keeps.refl
    | assumption
    | split
    | with_reducible apply Keeps.trans ?_ (State.urgentLcf_keeps _ _ _)
    | intro _
    | dsimp only

theorem State.freeUnits_keeps (a0 : State) (a1 : Nat) (a2 : Nat) (a3 : Nat) : Keeps a0 (State.freeUnits a0 a1 a2
    a3) := by
  unfold State.freeUnits
  try dsimp only
  repeat'
    first
    | with_reducible apply Keeps.refl
    | assumption
    | split
    | with_reducible apply Keeps.trans ?_ (State.setPort_keeps _ _ _)
    | with_reducible apply Keeps.trans ?_ (State.urgentLcf_keeps _ _ _)
    | intro _
    | dsimp only

theorem State.sendHops_keeps (a0 : State) (a1 : Nat) (a2 : List Pkt) : Keeps a0 (State.sendHops a0 a1 a2) := by
  induction a2 generalizing a0 a1 with
  | nil =>
    unfold State.sendHops
    try dsimp only
    repeat'
      first
      | with_reducible apply Keeps.refl
      | assumption
      | split
      | with_reducible apply Keeps.trans ?_ (State.setPort_keeps _ _ _)
      | with_reducible apply Keeps.trans ?_ (State.stage_keeps _ _ _ _)
      | intro _
      | dsimp only
  | cons b l ih =>
    unfold State.sendHops
    try dsimp only
    repeat'
      first
      | with_reducible apply Keeps.refl
      | assumption
      | split
      | with_reducible apply Keeps.trans ?_ (State.setPort_keeps _ _ _)
      | with_reducible apply Keeps.trans ?_ (State.stage_keeps _ _ _ _)
      | with_reducible apply Keeps.trans ?_ (ih _ _)
      | intro _
      | dsimp only

theorem State.sendHop_keeps (a0 : State) (a1 : Nat) (a2 : Pkt) : Keeps a0 (State.sendHop a0 a1 a2) := by
  unfold State.sendHop
  try dsimp only
  repeat'
    first
    | with_reducible apply Keeps.refl
    | assumption
    | split
    | with_reducible apply Keeps.trans ?_ (State.sendHops_keeps _ _ _)
    | intro _
    | dsimp only

theorem State.driveSwitch_keeps (a0 : State) (a1 : Nat) (a2 : Bool) : Keeps a0 (State.driveSwitch a0 a1 a2) :=
    by
  unfold State.driveSwitch
  try dsimp only
  repeat'
    first
    | with_reducible apply Keeps.refl
    | assumption
    | simp only [Keeps.upd_iff]
    | split
    | with_reducible apply Keeps.trans ?_ (State.emit_keeps _ _)
    | intro _
    | dsimp only

theorem State.switchUpdate_keeps (a0 : State) (a1 : Nat) : Keeps a0 (State.switchUpdate a0 a1) := by
  unfold State.switchUpdate
  try dsimp only
  repeat'
    first
    | with_reducible apply Keeps.refl
    | assumption
    | split
    | with_reducible apply Keeps.trans ?_ (State.driveSwitch_keeps _ _ _)
    | intro _
    | dsimp only

theorem State.freePkt_keeps (a0 : State) (a1 : Nat) (a2 : Pkt) : Keeps a0 (State.freePkt a0 a1 a2) := by
  unfold State.freePkt
  try dsimp only
  repeat'
    first
    | with_reducible apply Keeps.refl
    | assumption
    | split
    | with_reducible apply Keeps.trans ?_ (State.freeUnits_keeps _ _ _ _)
    | intro _
    | dsimp only

theorem State.dropPkt_keeps (a0 : State) : Keeps a0 (State.dropPkt a0) := by
  unfold State.dropPkt
  try dsimp only
  repeat'
    first
    | with_reducible apply Keeps.refl
    | assumption
    | split
    | with_reducible apply Keeps.trans ?_ (State.satAdd_keeps _ _ _ _)
    | intro _
    | dsimp only

theorem State.badHeader_keeps (a0 : State) (a1 : Nat) (a2 : Pkt) : Keeps a0 (State.badHeader a0 a1 a2) := by
  unfold State.badHeader
  try dsimp only
  repeat'
    first
    | with_reducible apply Keeps.refl
    | assumption
    | split
    | with_reducible apply Keeps.trans ?_ (State.raiseNo_keeps _ _ _ _)
    | with_reducible apply Keeps.trans ?_ (State.dropPkt_keeps _)
    | with_reducible apply Keeps.trans ?_ (State.freePkt_keeps _ _ _)
    | intro _
    | dsimp only

theorem State.badPart_keeps (a0 : State) (a1 : Nat) (a2 : Pkt) : Keeps a0 (State.badPart a0 a1 a2) := by
  unfold State.badPart
  try dsimp only
  repeat'
    first
    | with_reducible apply Keeps.refl
    | assumption
    | split
    | with_reducible apply Keeps.trans ?_ (State.raiseNo_keeps _ _ _ _)
    | with_reducible apply Keeps.trans ?_ (State.dropPkt_keeps _)
    | with_reducible apply Keeps.trans ?_ (State.freePkt_keeps _ _ _)
    | intro _
    | dsimp only

theorem State.checkPkt_keeps (a0 : State) (a1 : Nat) (a2 : Nat) (a3 : BitVec 256) (a4 : List Sys2Proof.Byte) (a5
    : State → Pkt → State) (h5 : ∀ x0 x1, Keeps x0 (a5 x0 x1)) : Keeps a0 (State.checkPkt a0 a1 a2 a3 a4 a5) :=
    by
  unfold State.checkPkt
  try dsimp only
  repeat'
    first
    | with_reducible apply Keeps.refl
    | assumption
    | split
    | with_reducible apply Keeps.trans ?_ (State.count_keeps _ _ _)
    | with_reducible apply Keeps.trans ?_ (State.setPort_keeps _ _ _)
    | with_reducible apply Keeps.trans ?_ (State.badHeader_keeps _ _ _)
    | with_reducible apply Keeps.trans ?_ (State.badPart_keeps _ _ _)
    | with_reducible apply Keeps.trans ?_ (h5 _ _)
    | intro _
    | dsimp only

theorem State.portChange_keeps (a0 : State) : Keeps a0 (State.portChange a0) := by
  unfold State.portChange
  try dsimp only
  repeat'
    first
    | with_reducible apply Keeps.refl
    | assumption
    | split
    | with_reducible apply Keeps.trans ?_ (State.satAdd_keeps _ _ _ _)
    | intro _
    | dsimp only

theorem State.convertAxis_keeps (a0 : State) (a1 : Nat) (a2 : Nat) (a3 : Nat) : Keeps a0 (State.convertAxis a0
    a1 a2 a3) := by
  unfold State.convertAxis
  try dsimp only
  repeat'
    first
    | with_reducible apply Keeps.refl
    | assumption
    | split
    | with_reducible apply Keeps.trans ?_ (State.setFlag_keeps _ _ _ _)
    | with_reducible apply Keeps.trans ?_ (State.setFld_keeps _ _ _ _)
    | with_reducible apply Keeps.trans ?_ (State.sendHop_keeps _ _ _)
    | with_reducible apply Keeps.trans ?_ (State.raiseNo_keeps _ _ _ _)
    | intro _
    | dsimp only

theorem State.portLost_keeps (a0 : State) (a1 : Nat) : Keeps a0 (State.portLost a0 a1) := by
  unfold State.portLost
  try dsimp only
  repeat'
    first
    | with_reducible apply Keeps.refl
    | assumption
    | split
    | with_reducible apply Keeps.trans ?_ (State.setPort_keeps _ _ _)
    | with_reducible apply Keeps.trans ?_ (State.portChange_keeps _)
    | with_reducible apply Keeps.trans ?_ (State.setFlag_keeps _ _ _ _)
    | with_reducible apply Keeps.trans ?_ (State.setPortState_keeps _ _ _)
    | with_reducible apply Keeps.trans ?_ (State.convertAxis_keeps _ _ _ _)
    | intro _
    | dsimp only

theorem State.portDown_keeps (a0 : State) (a1 : Nat) (a2 : Nat) : Keeps a0 (State.portDown a0 a1 a2) := by
  unfold State.portDown
  try dsimp only
  repeat'
    first
    | with_reducible apply Keeps.refl
    | assumption
    | split
    | with_reducible apply Keeps.trans ?_ (State.portLost_keeps _ _)
    | with_reducible apply Keeps.trans ?_ (State.raiseNo_keeps _ _ _ _)
    | with_reducible apply Keeps.trans ?_ (State.setFlag_keeps _ _ _ _)
    | intro _
    | dsimp only

theorem State.portOff_keeps (a0 : State) (a1 : Nat) : Keeps a0 (State.portOff a0 a1) := by
  unfold State.portOff
  try dsimp only
  repeat'
    first
    | with_reducible apply Keeps.refl
    | assumption
    | split
    | with_reducible apply Keeps.trans ?_ (State.setPort_keeps _ _ _)
    | with_reducible apply Keeps.trans ?_ (State.setFlag_keeps _ _ _ _)
    | with_reducible apply Keeps.trans ?_ (State.setPortState_keeps _ _ _)
    | intro _
    | dsimp only

theorem State.nactCheck_keeps (a0 : State) (a1 : Nat) : Keeps a0 (State.nactCheck a0 a1) := by
  unfold State.nactCheck
  try dsimp only
  repeat'
    first
    | with_reducible apply Keeps.refl
    | assumption
    | split
    | with_reducible apply Keeps.trans ?_ (State.portDown_keeps _ _ _)
    | intro _
    | dsimp only

theorem State.txRemap_keeps (a0 : State) (a1 : Nat) : Keeps a0 (State.txRemap a0 a1) := by
  unfold State.txRemap
  try dsimp only
  repeat'
    first
    | with_reducible apply Keeps.refl
    | assumption
    | split
    | with_reducible apply Keeps.trans ?_ (State.satAdd_keeps _ _ _ _)
    | with_reducible apply Keeps.trans ?_ (State.wrapAdd_keeps _ _ _ _)
    | with_reducible apply Keeps.trans ?_ (State.setPort_keeps _ _ _)
    | with_reducible apply Keeps.trans ?_ (State.nactCheck_keeps _ _)
    | with_reducible apply Keeps.trans ?_ (State.portChange_keeps _)
    | with_reducible apply Keeps.trans ?_ (State.reportSwaps_keeps _ _ _ _ _)
    | intro _
    | dsimp only

theorem State.mapSwitch_keeps (a0 : State) (a1 : Nat) : Keeps a0 (State.mapSwitch a0 a1) := by
  unfold State.mapSwitch
  try dsimp only
  repeat'
    first
    | with_reducible apply Keeps.refl
    | assumption
    | split
    | with_reducible apply Keeps.trans ?_ (State.setPort_keeps _ _ _)
    | intro _
    | dsimp only

theorem State.moduleLost_keeps (a0 : State) (a1 : Nat) (a2 : Nat) : Keeps a0 (State.moduleLost a0 a1 a2) := by
  unfold State.moduleLost
  try dsimp only
  repeat'
    first
    | with_reducible apply Keeps.refl
    | assumption
    | split
    | with_reducible apply Keeps.trans ?_ (State.setFld_keeps _ _ _ _)
    | with_reducible apply Keeps.trans ?_ (State.setPort_keeps _ _ _)
    | with_reducible apply Keeps.trans ?_ (State.raiseNo_keeps _ _ _ _)
    | with_reducible apply Keeps.trans ?_ (State.setFlag_keeps _ _ _ _)
    | intro _
    | dsimp only

theorem State.guestRead_keeps (a0 : State) (a1 : Nat) (a2 : Sys2Proof.GuestInfo) : Keeps a0 (State.guestRead a0
    a1 a2) := by
  unfold State.guestRead
  try dsimp only
  repeat'
    first
    | with_reducible apply Keeps.refl
    | assumption
    | split
    | with_reducible apply Keeps.trans ?_ (State.setFld_keeps _ _ _ _)
    | intro _
    | dsimp only

theorem State.guestRefuse_keeps (a0 : State) (a1 : Nat) (a2 : Nat) (a3 : Sys2Proof.GuestInfo) : Keeps a0
    (State.guestRefuse a0 a1 a2 a3) := by
  unfold State.guestRefuse
  try dsimp only
  repeat'
    first
    | with_reducible apply Keeps.refl
    | assumption
    | split
    | with_reducible apply Keeps.trans ?_ (State.guestRead_keeps _ _ _)
    | with_reducible apply Keeps.trans ?_ (State.setFld_keeps _ _ _ _)
    | with_reducible apply Keeps.trans ?_ (State.setFlag_keeps _ _ _ _)
    | with_reducible apply Keeps.trans ?_ (State.raiseNo_keeps _ _ _ _)
    | with_reducible apply Keeps.trans ?_ (State.portOff_keeps _ _)
    | intro _
    | dsimp only

theorem State.acceptGuest_keeps (a0 : State) (a1 : Nat) (a2 : Sys2Proof.GuestInfo) : Keeps a0 (State.acceptGuest
    a0 a1 a2) := by
  unfold State.acceptGuest
  try dsimp only
  repeat'
    first
    | with_reducible apply Keeps.refl
    | assumption
    | split
    | with_reducible apply Keeps.trans ?_ (State.guestRefuse_keeps _ _ _ _)
    | with_reducible apply Keeps.trans ?_ (State.setPort_keeps _ _ _)
    | with_reducible apply Keeps.trans ?_ (State.setFld_keeps _ _ _ _)
    | with_reducible apply Keeps.trans ?_ (State.setFlag_keeps _ _ _ _)
    | with_reducible apply Keeps.trans ?_ (State.guestRead_keeps _ _ _)
    | with_reducible apply Keeps.trans ?_ (State.moduleLost_keeps _ _ _)
    | with_reducible apply Keeps.trans ?_ (State.portOff_keeps _ _)
    | with_reducible apply Keeps.foldl _ _ ?_ ?_
    | with_reducible apply Keeps.foldl_fst _ _ ?_ ?_
    | intro _
    | dsimp only

/-! ### Barriers -/

theorem State.setBarrier_keeps (a0 : State) (a1 : Nat) (a2 : Barrier) : Keeps a0 (State.setBarrier a0 a1 a2) :=
    by
  unfold State.setBarrier
  try dsimp only
  repeat'
    first
    | with_reducible apply Keeps.refl
    | assumption
    | simp only [Keeps.upd_iff]
    | split
    | intro _
    | dsimp only

theorem State.barRaise_keeps (a0 : State) (a1 : Nat) (a2 : Nat) (a3 : Nat) : Keeps a0 (State.barRaise a0 a1 a2
    a3) := by
  unfold State.barRaise
  try dsimp only
  repeat'
    first
    | with_reducible apply Keeps.refl
    | assumption
    | split
    | with_reducible apply Keeps.trans ?_ (State.raiseGlume_keeps _ _ _ _ _)
    | intro _
    | dsimp only

theorem State.doBarConfig_keeps (a0 : State) (a1 : Nat) (a2 : Nat) (a3 : Nat) : Keeps a0 (State.doBarConfig a0
    a1 a2 a3) := by
  unfold State.doBarConfig
  try dsimp only
  repeat'
    first
    | with_reducible apply Keeps.refl
    | assumption
    | split
    | with_reducible apply Keeps.trans ?_ (State.setBarrier_keeps _ _ _)
    | with_reducible apply Keeps.trans ?_ (State.writeReg_keeps _ _ _ _ _)
    | with_reducible apply Keeps.trans ?_ (State.setFld_keeps _ _ _ _)
    | intro _
    | dsimp only

theorem State.sendToken_keeps (a0 : State) (a1 : Nat) (a2 : Bool) (a3 : Nat) (a4 : Nat) (a5 : Nat) (a6 : BitVec
    16) : Keeps a0 (State.sendToken a0 a1 a2 a3 a4 a5 a6) := by
  unfold State.sendToken
  try dsimp only
  repeat'
    first
    | with_reducible apply Keeps.refl
    | assumption
    | split
    | with_reducible apply Keeps.trans ?_ (State.sendHop_keeps _ _ _)
    | intro _
    | dsimp only

theorem State.sendRelease_keeps (a0 : State) (a1 : Nat) (a2 : Nat) (a3 : Nat) (a4 : BitVec 16) : Keeps a0
    (State.sendRelease a0 a1 a2 a3 a4) := by
  unfold State.sendRelease
  try dsimp only
  repeat'
    first
    | with_reducible apply Keeps.refl
    | assumption
    | split
    | with_reducible apply Keeps.trans ?_ (State.sendToken_keeps _ _ _ _ _ _ _)
    | with_reducible apply Keeps.foldl _ _ ?_ ?_
    | with_reducible apply Keeps.foldl_fst _ _ ?_ ?_
    | intro _
    | dsimp only

theorem State.barWait_keeps (a0 : State) (a1 : Nat) : Keeps a0 (State.barWait a0 a1).1 := by
  unfold State.barWait
  try dsimp only
  repeat'
    first
    | with_reducible apply Keeps.refl
    | assumption
    | split
    | with_reducible apply Keeps.trans ?_ (State.glumeXlat_keeps _ _ _ _)
    | with_reducible apply Keeps.trans ?_ (State.raiseGlume_keeps _ _ _ _ _)
    | intro _
    | dsimp only
    | (with_reducible apply State.glumeXlat_of; assumption)

theorem State.barWait_of {a0 : State} {a1 : Nat} {t : State} {r : Bool}
    (h : State.barWait a0 a1 = (t, r))
    {s : State} (k : Keeps s a0) : Keeps s t := by
  have := State.barWait_keeps a0 a1
  rw [h] at this
  exact k.trans this

theorem State.barArrive_keeps (a0 : State) (a1 : Nat) : Keeps a0 (State.barArrive a0 a1) := by
  unfold State.barArrive
  try dsimp only
  repeat'
    first
    | with_reducible apply Keeps.refl
    | assumption
    | split
    | with_reducible apply Keeps.trans ?_ (State.sendRelease_keeps _ _ _ _ _)
    | with_reducible apply Keeps.trans ?_ (State.setBarrier_keeps _ _ _)
    | with_reducible apply Keeps.trans ?_ (State.sendToken_keeps _ _ _ _ _ _ _)
    | intro _
    | dsimp only

theorem State.doArrive_keeps (a0 : State) (a1 : Nat) : Keeps a0 (State.doArrive a0 a1) := by
  unfold State.doArrive
  try dsimp only
  repeat'
    first
    | with_reducible apply Keeps.refl
    | assumption
    | split
    | with_reducible apply Keeps.trans ?_ (State.barWait_keeps _ _)
    | with_reducible apply Keeps.trans ?_ (State.barArrive_keeps _ _)
    | intro _
    | dsimp only
    | (with_reducible apply State.barWait_of; assumption)

theorem State.token_keeps (a0 : State) (a1 : Nat) (a2 : Nat) (a3 : State → State) (h3 : ∀ x0, Keeps x0 (a3 x0))
    : Keeps a0 (State.token a0 a1 a2 a3) := by
  unfold State.token
  try dsimp only
  repeat'
    first
    | with_reducible apply Keeps.refl
    | assumption
    | split
    | with_reducible apply Keeps.trans ?_ (State.dropSignal_keeps _)
    | with_reducible apply Keeps.trans ?_ (State.barRaise_keeps _ _ _ _)
    | with_reducible apply Keeps.trans ?_ (State.setFlag_keeps _ _ _ _)
    | with_reducible apply Keeps.trans ?_ (h3 _)
    | intro _
    | dsimp only

theorem State.tokenPkt_keeps (a0 : State) (a1 : Nat) (a2 : BitVec 256) (a3 : List Sys2Proof.Byte) (a4 : State →
    State) (h4 : ∀ x0, Keeps x0 (a4 x0)) : Keeps a0 (State.tokenPkt a0 a1 a2 a3 a4) := by
  unfold State.tokenPkt
  try dsimp only
  repeat'
    first
    | with_reducible apply Keeps.refl
    | assumption
    | split
    | with_reducible apply Keeps.trans ?_ (State.checkPkt_keeps _ _ _ _ _ _ ?_)
    | with_reducible apply Keeps.trans ?_ (State.freePkt_keeps _ _ _)
    | with_reducible apply Keeps.trans ?_ (h4 _)
    | intro _
    | dsimp only

theorem State.doArrivalToken_keeps (a0 : State) (a1 : Nat) (a2 : Nat) (a3 : Nat) (a4 : Nat) : Keeps a0
    (State.doArrivalToken a0 a1 a2 a3 a4) := by
  unfold State.doArrivalToken
  try dsimp only
  repeat'
    first
    | with_reducible apply Keeps.refl
    | assumption
    | split
    | with_reducible apply Keeps.trans ?_ (State.token_keeps _ _ _ _ ?_)
    | with_reducible apply Keeps.trans ?_ (State.setBarrier_keeps _ _ _)
    | intro _
    | dsimp only

theorem State.recoveryPoint_keeps (a0 : State) (a1 : Nat) : Keeps a0 (State.recoveryPoint a0 a1) := by
  unfold State.recoveryPoint
  try dsimp only
  repeat'
    first
    | with_reducible apply Keeps.refl
    | assumption
    | simp only [Keeps.upd_iff]
    | split
    | with_reducible apply Keeps.trans ?_ (State.setFld_keeps _ _ _ _)
    | intro _
    | dsimp only

theorem State.releaseGlume_keeps (a0 : State) (a1 : Nat) : Keeps a0 (State.releaseGlume a0 a1) := by
  unfold State.releaseGlume
  try dsimp only
  repeat'
    first
    | with_reducible apply Keeps.refl
    | assumption
    | split
    | with_reducible apply Keeps.trans ?_ (State.glumeXlat_keeps _ _ _ _)
    | with_reducible apply Keeps.trans ?_ (State.glumeAdd_keeps _ _ _ _)
    | with_reducible apply Keeps.trans ?_ (State.setCopies_keeps _ _ _)
    | with_reducible apply Keeps.trans ?_ (State.sendSignal_keeps _ _ _ _ _)
    | intro _
    | dsimp only
    | (with_reducible apply State.glumeXlat_of; assumption)

theorem State.noteStretch_keeps (a0 : State) (a1 : Nat) (a2 : Nat) (a3 : Nat) (a4 : BitVec 16) : Keeps a0
    (State.noteStretch a0 a1 a2 a3 a4) := by
  unfold State.noteStretch
  try dsimp only
  repeat'
    first
    | with_reducible apply Keeps.refl
    | assumption
    | simp only [Keeps.upd_iff]
    | split
    | intro _
    | dsimp only

theorem State.release_keeps (a0 : State) (a1 : Nat) (a2 : Nat) (a3 : BitVec 16) : Keeps a0 (State.release a0 a1
    a2 a3) := by
  unfold State.release
  try dsimp only
  repeat'
    first
    | with_reducible apply Keeps.refl
    | assumption
    | split
    | with_reducible apply Keeps.trans ?_ (State.setBarrier_keeps _ _ _)
    | with_reducible apply Keeps.trans ?_ (State.releaseGlume_keeps _ _)
    | with_reducible apply Keeps.trans ?_ (State.setFld_keeps _ _ _ _)
    | with_reducible apply Keeps.trans ?_ (State.wrapAdd_keeps _ _ _ _)
    | with_reducible apply Keeps.trans ?_ (State.trace_keeps _ _ _ _ _ _ _)
    | with_reducible apply Keeps.trans ?_ (State.noteStretch_keeps _ _ _ _ _)
    | with_reducible apply Keeps.trans ?_ (State.recoveryPoint_keeps _ _)
    | with_reducible apply Keeps.trans ?_ (State.useFree_keeps _)
    | intro _
    | dsimp only

theorem State.doReleaseToken_keeps (a0 : State) (a1 : Nat) (a2 : Nat) (a3 : Nat) (a4 : BitVec 16) : Keeps a0
    (State.doReleaseToken a0 a1 a2 a3 a4) := by
  unfold State.doReleaseToken
  try dsimp only
  repeat'
    first
    | with_reducible apply Keeps.refl
    | assumption
    | split
    | with_reducible apply Keeps.trans ?_ (State.token_keeps _ _ _ _ ?_)
    | with_reducible apply Keeps.trans ?_ (State.sendRelease_keeps _ _ _ _ _)
    | with_reducible apply Keeps.trans ?_ (State.release_keeps _ _ _ _)
    | with_reducible apply Keeps.trans ?_ (State.barRaise_keeps _ _ _ _)
    | with_reducible apply Keeps.trans ?_ (State.setFlag_keeps _ _ _ _)
    | with_reducible apply Keeps.trans ?_ (State.setBarrier_keeps _ _ _)
    | intro _
    | dsimp only

theorem State.doBarRelease_keeps (a0 : State) (a1 : Nat) : Keeps a0 (State.doBarRelease a0 a1) := by
  unfold State.doBarRelease
  try dsimp only
  repeat'
    first
    | with_reducible apply Keeps.refl
    | assumption
    | split
    | with_reducible apply Keeps.trans ?_ (State.release_keeps _ _ _ _)
    | intro _
    | dsimp only

theorem State.doRoundTimeout_keeps (a0 : State) (a1 : Nat) : Keeps a0 (State.doRoundTimeout a0 a1) := by
  unfold State.doRoundTimeout
  try dsimp only
  repeat'
    first
    | with_reducible apply Keeps.refl
    | assumption
    | split
    | with_reducible apply Keeps.trans ?_ (State.barRaise_keeps _ _ _ _)
    | with_reducible apply Keeps.trans ?_ (State.setFlag_keeps _ _ _ _)
    | with_reducible apply Keeps.trans ?_ (State.setBarrier_keeps _ _ _)
    | intro _
    | dsimp only

/-! ### Fabric -/

theorem State.traceSent_keeps (a0 : State) (a1 : Pkt) (a2 : Nat) (a3 : Bool) : Keeps a0 (State.traceSent a0 a1
    a2 a3) := by
  unfold State.traceSent
  try dsimp only
  repeat'
    first
    | with_reducible apply Keeps.refl
    | assumption
    | split
    | with_reducible apply Keeps.trans ?_ (State.trace_keeps _ _ _ _ _ _ _)
    | intro _
    | dsimp only

theorem State.sendOn_keeps (a0 : State) (a1 : Nat) (a2 : Pkt) (a3 : Nat) (a4 : Bool) : Keeps a0 (State.sendOn a0
    a1 a2 a3 a4) := by
  unfold State.sendOn
  try dsimp only
  repeat'
    first
    | with_reducible apply Keeps.refl
    | assumption
    | split
    | with_reducible apply Keeps.trans ?_ (State.stage_keeps _ _ _ _)
    | intro _
    | dsimp only

theorem State.rrNext_keeps (a0 : State) (a1 : List Nat) (a2 : Nat) (a3 : Nat) : Keeps a0 (State.rrNext a0 a1 a2
    a3) := by
  unfold State.rrNext
  try dsimp only
  repeat'
    first
    | with_reducible apply Keeps.refl
    | assumption
    | simp only [Keeps.upd_iff]
    | split
    | intro _
    | dsimp only

theorem State.reckonHeads_keeps (a0 : State) : Keeps a0 (State.reckonHeads a0) := by
  unfold State.reckonHeads
  try dsimp only
  repeat'
    first
    | with_reducible apply Keeps.refl
    | assumption
    | simp only [Keeps.upd_iff]
    | split
    | intro _
    | dsimp only

theorem State.setInbuf_keeps (a0 : State) (a1 : Nat) (a2 : List Pkt) : Keeps a0 (State.setInbuf a0 a1 a2) := by
  unfold State.setInbuf
  try dsimp only
  repeat'
    first
    | with_reducible apply Keeps.refl
    | assumption
    | simp only [Keeps.upd_iff]
    | split
    | intro _
    | dsimp only

theorem State.enqueuePkt_keeps (a0 : State) (a1 : Nat) (a2 : Pkt) : Keeps a0 (State.enqueuePkt a0 a1 a2) := by
  unfold State.enqueuePkt
  try dsimp only
  repeat'
    first
    | with_reducible apply Keeps.refl
    | assumption
    | split
    | with_reducible apply Keeps.trans ?_ (State.setInbuf_keeps _ _ _)
    | intro _
    | dsimp only

theorem State.answer_keeps (a0 : State) (a1 : Nat) (a2 : BitVec 24) (a3 : BitVec 14) (a4 : Nat) : Keeps a0
    (State.answer a0 a1 a2 a3 a4) := by
  unfold State.answer
  try dsimp only
  repeat'
    first
    | with_reducible apply Keeps.refl
    | assumption
    | split
    | with_reducible apply Keeps.trans ?_ (State.enqueuePkt_keeps _ _ _)
    | intro _
    | dsimp only

theorem State.failFlow_keeps (a0 : State) (a1 : Nat) (a2 : Nat) (a3 : Nat) (a4 : UnitRef) : Keeps a0
    (State.failFlow a0 a1 a2 a3 a4) := by
  unfold State.failFlow
  try dsimp only
  repeat'
    first
    | with_reducible apply Keeps.refl
    | assumption
    | split
    | with_reducible apply Keeps.trans ?_ (State.raiseCtx_keeps _ _ _ _ _)
    | with_reducible apply Keeps.trans ?_ (State.setSendFlow_keeps _ _ _)
    | intro _
    | dsimp only

theorem State.unreachable_keeps (a0 : State) (a1 : Pkt) (a2 : Nat) : Keeps a0 (State.unreachable a0 a1 a2) := by
  unfold State.unreachable
  try dsimp only
  repeat'
    first
    | with_reducible apply Keeps.refl
    | assumption
    | split
    | with_reducible apply Keeps.trans ?_ (State.dropPkt_keeps _)
    | with_reducible apply Keeps.trans ?_ (State.answer_keeps _ _ _ _ _)
    | intro _
    | dsimp only

theorem State.strand_keeps (a0 : State) (a1 : Pkt) (a2 : Nat) : Keeps a0 (State.strand a0 a1 a2) := by
  unfold State.strand
  try dsimp only
  repeat'
    first
    | with_reducible apply Keeps.refl
    | assumption
    | split
    | with_reducible apply Keeps.trans ?_ (State.raiseNo_keeps _ _ _ _)
    | with_reducible apply Keeps.trans ?_ (State.satAdd_keeps _ _ _ _)
    | intro _
    | dsimp only

/-! ### Groups -/

theorem State.setGroup_keeps (a0 : State) (a1 : Nat) (a2 : Group) : Keeps a0 (State.setGroup a0 a1 a2) := by
  unfold State.setGroup
  try dsimp only
  repeat'
    first
    | with_reducible apply Keeps.refl
    | assumption
    | simp only [Keeps.upd_iff]
    | split
    | intro _
    | dsimp only

theorem State.colRaise_keeps (a0 : State) (a1 : Nat) (a2 : Nat) (a3 : Nat) (a4 : Nat) : Keeps a0 (State.colRaise
    a0 a1 a2 a3 a4) := by
  unfold State.colRaise
  try dsimp only
  repeat'
    first
    | with_reducible apply Keeps.refl
    | assumption
    | split
    | with_reducible apply Keeps.trans ?_ (State.raiseCtx_keeps _ _ _ _ _)
    | intro _
    | dsimp only

theorem State.armGroup_keeps (a0 : State) (a1 : Nat) : Keeps a0 (State.armGroup a0 a1) := by
  unfold State.armGroup
  try dsimp only
  repeat'
    first
    | with_reducible apply Keeps.refl
    | assumption
    | split
    | with_reducible apply Keeps.trans ?_ (State.colRaise_keeps _ _ _ _ _)
    | with_reducible apply Keeps.trans ?_ (State.setFlag_keeps _ _ _ _)
    | with_reducible apply Keeps.trans ?_ (State.setFld_keeps _ _ _ _)
    | with_reducible apply Keeps.trans ?_ (State.setGroup_keeps _ _ _)
    | intro _
    | dsimp only

theorem State.disarmGroup_keeps (a0 : State) (a1 : Nat) : Keeps a0 (State.disarmGroup a0 a1) := by
  unfold State.disarmGroup
  try dsimp only
  repeat'
    first
    | with_reducible apply Keeps.refl
    | assumption
    | split
    | with_reducible apply Keeps.trans ?_ (State.setFlag_keeps _ _ _ _)
    | with_reducible apply Keeps.trans ?_ (State.setGroup_keeps _ _ _)
    | intro _
    | dsimp only

theorem State.writeResult_keeps (a0 : State) (a1 : Nat) (a2 : Chunk) : Keeps a0 (State.writeResult a0 a1 a2) :=
    by
  unfold State.writeResult
  try dsimp only
  repeat'
    first
    | with_reducible apply Keeps.refl
    | assumption
    | split
    | with_reducible apply Keeps.trans ?_ (State.memWrite_keeps _ _ _ _)
    | with_reducible apply Keeps.trans ?_ (State.setGroup_keeps _ _ _)
    | intro _
    | dsimp only

theorem State.hop_keeps (a0 : State) (a1 : Nat) (a2 : Nat) (a3 : HopKind) (a4 : Chunk) (a5 : Nat) : Keeps a0
    (State.hop a0 a1 a2 a3 a4 a5) := by
  induction a5 generalizing a0 a1 a2 a3 a4 with
  | zero =>
    unfold State.hop
    try dsimp only
    repeat'
      first
      | with_reducible apply Keeps.refl
      | assumption
      | split
      | with_reducible apply Keeps.trans ?_ (State.writeResult_keeps _ _ _)
      | with_reducible apply Keeps.trans ?_ (State.setGroup_keeps _ _ _)
      | with_reducible apply Keeps.trans ?_ (State.queuePkt_keeps _ _ _)
      | with_reducible apply Keeps.foldl _ _ ?_ ?_
      | with_reducible apply Keeps.foldl_fst _ _ ?_ ?_
      | intro _
      | dsimp only
  | succ k ih =>
    unfold State.hop
    try dsimp only
    repeat'
      first
      | with_reducible apply Keeps.refl
      | assumption
      | split
      | with_reducible apply Keeps.trans ?_ (State.writeResult_keeps _ _ _)
      | with_reducible apply Keeps.trans ?_ (State.setGroup_keeps _ _ _)
      | with_reducible apply Keeps.trans ?_ (State.queuePkt_keeps _ _ _)
      | with_reducible apply Keeps.trans ?_ (ih _ _ _ _ _)
      | with_reducible apply Keeps.foldl _ _ ?_ ?_
      | with_reducible apply Keeps.foldl_fst _ _ ?_ ?_
      | intro _
      | dsimp only

theorem State.residue_keeps (a0 : State) (a1 : Nat) (a2 : Nat) (a3 : Nat) (a4 : Nat) : Keeps a0 (State.residue
    a0 a1 a2 a3 a4) := by
  unfold State.residue
  try dsimp only
  repeat'
    first
    | with_reducible apply Keeps.refl
    | assumption
    | split
    | with_reducible apply Keeps.trans ?_ (State.colRaise_keeps _ _ _ _ _)
    | with_reducible apply Keeps.trans ?_ (State.setFlag_keeps _ _ _ _)
    | with_reducible apply Keeps.trans ?_ (State.satAdd_keeps _ _ _ _)
    | with_reducible apply Keeps.trans ?_ (State.disarmGroup_keeps _ _)
    | with_reducible apply Keeps.foldl _ _ ?_ ?_
    | with_reducible apply Keeps.foldl_fst _ _ ?_ ?_
    | intro _
    | dsimp only

theorem State.chainOut_keeps (a0 : State) (a1 : Nat) (a2 : Chunk) (a3 : List TElem) : Keeps a0 (State.chainOut
    a0 a1 a2 a3) := by
  unfold State.chainOut
  try dsimp only
  repeat'
    first
    | with_reducible apply Keeps.refl
    | assumption
    | split
    | with_reducible apply Keeps.trans ?_ (State.writeResult_keeps _ _ _)
    | with_reducible apply Keeps.trans ?_ (State.hop_keeps _ _ _ _ _ _)
    | intro _
    | dsimp only

theorem State.doWork_keeps (a0 : State) (a1 : Nat) (a2 : Work) (a3 : Nat) : Keeps a0 (State.doWork a0 a1 a2 a3)
    := by
  unfold State.doWork
  try dsimp only
  repeat'
    first
    | with_reducible apply Keeps.refl
    | assumption
    | split
    | with_reducible apply Keeps.trans ?_ (State.setGroup_keeps _ _ _)
    | with_reducible apply Keeps.trans ?_ (State.hop_keeps _ _ _ _ _ _)
    | with_reducible apply Keeps.trans ?_ (State.writeResult_keeps _ _ _)
    | with_reducible apply Keeps.trans ?_ (State.chainOut_keeps _ _ _ _)
    | with_reducible apply Keeps.trans ?_ (State.residue_keeps _ _ _ _ _)
    | intro _
    | dsimp only

theorem State.endRound_keeps (a0 : State) (a1 : Nat) : Keeps a0 (State.endRound a0 a1) := by
  unfold State.endRound
  try dsimp only
  repeat'
    first
    | with_reducible apply Keeps.refl
    | assumption
    | split
    | with_reducible apply Keeps.trans ?_ (State.wrapAdd_keeps _ _ _ _)
    | with_reducible apply Keeps.trans ?_ (State.setGroup_keeps _ _ _)
    | with_reducible apply Keeps.trans ?_ (State.sendSignal_keeps _ _ _ _ _)
    | intro _
    | dsimp only

theorem State.choosePlan_keeps (a0 : State) (a1 : Nat) : Keeps a0 (State.choosePlan a0 a1) := by
  unfold State.choosePlan
  try dsimp only
  repeat'
    first
    | with_reducible apply Keeps.refl
    | assumption
    | split
    | with_reducible apply Keeps.trans ?_ (State.setGroup_keeps _ _ _)
    | with_reducible apply Keeps.trans ?_ (State.colRaise_keeps _ _ _ _ _)
    | with_reducible apply Keeps.trans ?_ (State.setFlag_keeps _ _ _ _)
    | intro _
    | dsimp only

theorem State.takePartial_keeps (a0 : State) (a1 : Nat) (a2 : Pkt) : Keeps a0 (State.takePartial a0 a1 a2) := by
  unfold State.takePartial
  try dsimp only
  repeat'
    first
    | with_reducible apply Keeps.refl
    | assumption
    | split
    | with_reducible apply Keeps.trans ?_ (State.setGroup_keeps _ _ _)
    | intro _
    | dsimp only

theorem State.relay_keeps (a0 : State) (a1 : Pkt) : Keeps a0 (State.relay a0 a1) := by
  unfold State.relay
  try dsimp only
  repeat'
    first
    | with_reducible apply Keeps.refl
    | assumption
    | split
    | with_reducible apply Keeps.trans ?_ (State.queuePkt_keeps _ _ _)
    | intro _
    | dsimp only

theorem State.colTake_keeps (a0 : State) (a1 : Nat) (a2 : Pkt) : Keeps a0 (State.colTake a0 a1 a2) := by
  unfold State.colTake
  try dsimp only
  repeat'
    first
    | with_reducible apply Keeps.refl
    | assumption
    | split
    | with_reducible apply Keeps.trans ?_ (State.takePartial_keeps _ _ _)
    | with_reducible apply Keeps.trans ?_ (State.writeResult_keeps _ _ _)
    | with_reducible apply Keeps.trans ?_ (State.hop_keeps _ _ _ _ _ _)
    | with_reducible apply Keeps.trans ?_ (State.setGroup_keeps _ _ _)
    | intro _
    | dsimp only

theorem State.takeLater_keeps (a0 : State) (a1 : Nat) : Keeps a0 (State.takeLater a0 a1) := by
  unfold State.takeLater
  try dsimp only
  repeat'
    first
    | with_reducible apply Keeps.refl
    | assumption
    | split
    | with_reducible apply Keeps.trans ?_ (State.colTake_keeps _ _ _)
    | with_reducible apply Keeps.trans ?_ (State.choosePlan_keeps _ _)
    | with_reducible apply Keeps.trans ?_ (State.setGroup_keeps _ _ _)
    | with_reducible apply Keeps.foldl _ _ ?_ ?_
    | with_reducible apply Keeps.foldl_fst _ _ ?_ ?_
    | intro _
    | dsimp only

theorem State.colRun_keeps (a0 : State) (a1 : Nat) (a2 : Nat) (a3 : Nat) : Keeps a0 (State.colRun a0 a1 a2 a3)
    := by
  induction a3 generalizing a0 a1 a2 with
  | zero =>
    unfold State.colRun
    try dsimp only
    repeat'
      first
      | with_reducible apply Keeps.refl
      | assumption
      | split
      | with_reducible apply Keeps.trans ?_ (State.takeLater_keeps _ _)
      | with_reducible apply Keeps.trans ?_ (State.endRound_keeps _ _)
      | with_reducible apply Keeps.trans ?_ (State.doWork_keeps _ _ _ _)
      | intro _
      | dsimp only
  | succ k ih =>
    unfold State.colRun
    try dsimp only
    repeat'
      first
      | with_reducible apply Keeps.refl
      | assumption
      | split
      | with_reducible apply Keeps.trans ?_ (State.takeLater_keeps _ _)
      | with_reducible apply Keeps.trans ?_ (State.endRound_keeps _ _)
      | with_reducible apply Keeps.trans ?_ (State.doWork_keeps _ _ _ _)
      | with_reducible apply Keeps.trans ?_ (ih _ _ _)
      | intro _
      | dsimp only

theorem State.colReduce_keeps (a0 : State) (a1 : Nat) (a2 : Pkt) (a3 : Nat) : Keeps a0 (State.colReduce a0 a1 a2
    a3) := by
  unfold State.colReduce
  try dsimp only
  repeat'
    first
    | with_reducible apply Keeps.refl
    | assumption
    | split
    | with_reducible apply Keeps.trans ?_ (State.relay_keeps _ _)
    | with_reducible apply Keeps.trans ?_ (State.setGroup_keeps _ _ _)
    | with_reducible apply Keeps.trans ?_ (State.colRun_keeps _ _ _ _)
    | with_reducible apply Keeps.trans ?_ (State.colTake_keeps _ _ _)
    | with_reducible apply Keeps.trans ?_ (State.choosePlan_keeps _ _)
    | intro _
    | dsimp only

theorem State.colRow_keeps (a0 : State) (a1 : Nat) (a2 : Pkt) : Keeps a0 (State.colRow a0 a1 a2) := by
  unfold State.colRow
  try dsimp only
  repeat'
    first
    | with_reducible apply Keeps.refl
    | assumption
    | split
    | with_reducible apply Keeps.trans ?_ (State.memWrite_keeps _ _ _ _)
    | intro _
    | dsimp only

theorem State.colDeliver_keeps (a0 : State) (a1 : Pkt) (a2 : Nat) : Keeps a0 (State.colDeliver a0 a1 a2) := by
  unfold State.colDeliver
  try dsimp only
  repeat'
    first
    | with_reducible apply Keeps.refl
    | assumption
    | split
    | with_reducible apply Keeps.trans ?_ (State.raiseCtx_keeps _ _ _ _ _)
    | with_reducible apply Keeps.trans ?_ (State.count_keeps _ _ _)
    | with_reducible apply Keeps.trans ?_ (State.colRow_keeps _ _ _)
    | with_reducible apply Keeps.trans ?_ (State.colReduce_keeps _ _ _ _)
    | intro _
    | dsimp only

/-! ### Flows -/

theorem State.linkDone_keeps (a0 : State) (a1 : Nat) (a2 : Nat) : Keeps a0 (State.linkDone a0 a1 a2) := by
  unfold State.linkDone
  try dsimp only
  repeat'
    first
    | with_reducible apply Keeps.refl
    | assumption
    | simp only [Keeps.upd_iff]
    | split
    | intro _
    | dsimp only

theorem State.logOverflow_keeps (a0 : State) (a1 : Nat) (a2 : Nat) : Keeps a0 (State.logOverflow a0 a1 a2) := by
  unfold State.logOverflow
  try dsimp only
  repeat'
    first
    | with_reducible apply Keeps.refl
    | assumption
    | simp only [Keeps.upd_iff]
    | split
    | with_reducible apply Keeps.trans ?_ (State.setFlag_keeps _ _ _ _)
    | with_reducible apply Keeps.trans ?_ (State.raiseCtx_keeps _ _ _ _ _)
    | intro _
    | dsimp only

theorem State.logWrite_keeps (a0 : State) (a1 : Pkt) (a2 : Nat) : Keeps a0 (State.logWrite a0 a1 a2) := by
  unfold State.logWrite
  try dsimp only
  repeat'
    first
    | with_reducible apply Keeps.refl
    | assumption
    | simp only [Keeps.upd_iff]
    | split
    | with_reducible apply Keeps.trans ?_ (State.logOverflow_keeps _ _ _)
    | with_reducible apply Keeps.trans ?_ (State.satAdd_keeps _ _ _ _)
    | with_reducible apply Keeps.trans ?_ (State.count_keeps _ _ _)
    | with_reducible apply Keeps.trans ?_ (State.memWrite_keeps _ _ _ _)
    | intro _
    | dsimp only

theorem State.takePkt_keeps (a0 : State) (a1 : Nat) (a2 : Pkt) (a3 : PktFrom) : Keeps a0 (State.takePkt a0 a1 a2
    a3) := by
  unfold State.takePkt
  try dsimp only
  repeat'
    first
    | with_reducible apply Keeps.refl
    | assumption
    | split
    | with_reducible apply Keeps.trans ?_ (State.setSendFlow_keeps _ _ _)
    | with_reducible apply Keeps.trans ?_ (State.setTil_keeps _ _ _)
    | intro _
    | dsimp only

theorem State.flowSent_keeps (a0 : State) (a1 : Nat) (a2 : Pkt) : Keeps a0 (State.flowSent a0 a1 a2) := by
  unfold State.flowSent
  try dsimp only
  repeat'
    first
    | with_reducible apply Keeps.refl
    | assumption
    | split
    | with_reducible apply Keeps.trans ?_ (State.setSendFlow_keeps _ _ _)
    | intro _
    | dsimp only

theorem State.withhold_keeps (a0 : State) (a1 : Nat) (a2 : Pkt) : Keeps a0 (State.withhold a0 a1 a2) := by
  unfold State.withhold
  try dsimp only
  repeat'
    first
    | with_reducible apply Keeps.refl
    | assumption
    | split
    | with_reducible apply Keeps.trans ?_ (State.setSendFlow_keeps _ _ _)
    | with_reducible apply Keeps.trans ?_ (State.logWrite_keeps _ _ _)
    | intro _
    | dsimp only

theorem State.setRecvFlow_keeps (a0 : State) (a1 : Nat) (a2 : RecvFlow) : Keeps a0 (State.setRecvFlow a0 a1 a2)
    := by
  unfold State.setRecvFlow
  try dsimp only
  repeat'
    first
    | with_reducible apply Keeps.refl
    | assumption
    | simp only [Keeps.upd_iff]
    | split
    | intro _
    | dsimp only

theorem State.linkWrites_keeps (a0 : State) (a1 : Nat) (a2 : Pkt) : Keeps a0 (State.linkWrites a0 a1 a2) := by
  unfold State.linkWrites
  try dsimp only
  repeat'
    first
    | with_reducible apply Keeps.refl
    | assumption
    | split
    | with_reducible apply Keeps.trans ?_ (State.linkDone_keeps _ _ _)
    | with_reducible apply Keeps.trans ?_ (State.memWrite_keeps _ _ _ _)
    | intro _
    | dsimp only

theorem State.writeLands_keeps (a0 : State) (a1 : Nat) (a2 : Pkt) : Keeps a0 (State.writeLands a0 a1 a2) := by
  unfold State.writeLands
  try dsimp only
  repeat'
    first
    | with_reducible apply Keeps.refl
    | assumption
    | simp only [Keeps.upd_iff]
    | split
    | with_reducible apply Keeps.trans ?_ (State.linkWrites_keeps _ _ _)
    | intro _
    | dsimp only

theorem State.streamLands_keeps (a0 : State) (a1 : Pkt) : Keeps a0 (State.streamLands a0 a1) := by
  unfold State.streamLands
  try dsimp only
  repeat'
    first
    | with_reducible apply Keeps.refl
    | assumption
    | split
    | with_reducible apply Keeps.trans ?_ (State.setRecvFlow_keeps _ _ _)
    | with_reducible apply Keeps.trans ?_ (State.setTil_keeps _ _ _)
    | intro _
    | dsimp only

theorem State.readServed_keeps (a0 : State) (a1 : Nat) (a2 : Pkt) : Keeps a0 (State.readServed a0 a1 a2) := by
  unfold State.readServed
  try dsimp only
  repeat'
    first
    | with_reducible apply Keeps.refl
    | assumption
    | split
    | with_reducible apply Keeps.trans ?_ (State.memRead_keeps _ _ _ _)
    | with_reducible apply Keeps.trans ?_ (State.queuePkt_keeps _ _ _)
    | with_reducible apply Keeps.trans ?_ (State.linkDone_keeps _ _ _)
    | with_reducible apply Keeps.foldl _ _ ?_ ?_
    | with_reducible apply Keeps.foldl_fst _ _ ?_ ?_
    | intro _
    | dsimp only
    | (with_reducible apply State.memRead_of; assumption)

theorem State.signalHeld_keeps (a0 : State) (a1 : Pkt) : Keeps a0 (State.signalHeld a0 a1) := by
  unfold State.signalHeld
  try dsimp only
  repeat'
    first
    | with_reducible apply Keeps.refl
    | assumption
    | split
    | with_reducible apply Keeps.trans ?_ (State.setRecvFlow_keeps _ _ _)
    | intro _
    | dsimp only

theorem State.land_keeps (a0 : State) (a1 : Nat) (a2 : Pkt) (a3 : Nat) : Keeps a0 (State.land a0 a1 a2 a3) := by
  unfold State.land
  try dsimp only
  repeat'
    first
    | with_reducible apply Keeps.refl
    | assumption
    | split
    | with_reducible apply Keeps.trans ?_ (State.writeLands_keeps _ _ _)
    | with_reducible apply Keeps.trans ?_ (State.streamLands_keeps _ _)
    | with_reducible apply Keeps.trans ?_ (State.readServed_keeps _ _ _)
    | with_reducible apply Keeps.trans ?_ (State.linkWrites_keeps _ _ _)
    | with_reducible apply Keeps.trans ?_ (State.signalHeld_keeps _ _)
    | with_reducible apply Keeps.trans ?_ (State.colDeliver_keeps _ _ _)
    | intro _
    | dsimp only

theorem State.deliverOne_keeps (a0 : State) (a1 : Nat) (a2 : Pkt) (a3 : Nat) : Keeps a0 (State.deliverOne a0 a1
    a2 a3) := by
  unfold State.deliverOne
  try dsimp only
  repeat'
    first
    | with_reducible apply Keeps.refl
    | assumption
    | split
    | with_reducible apply Keeps.trans ?_ (State.setRecvFlow_keeps _ _ _)
    | with_reducible apply Keeps.trans ?_ (State.land_keeps _ _ _ _)
    | intro _
    | dsimp only

theorem State.drainFlow_keeps (a0 : State) (a1 : Nat) (a2 : Nat) (a3 : Nat) : Keeps a0 (State.drainFlow a0 a1 a2
    a3) := by
  induction a3 generalizing a0 a1 a2 with
  | zero =>
    unfold State.drainFlow
    try dsimp only
    repeat'
      first
      | with_reducible apply Keeps.refl
      | assumption
      | split
      | with_reducible apply Keeps.trans ?_ (State.deliverOne_keeps _ _ _ _)
      | intro _
      | dsimp only
  | succ k ih =>
    unfold State.drainFlow
    try dsimp only
    repeat'
      first
      | with_reducible apply Keeps.refl
      | assumption
      | split
      | with_reducible apply Keeps.trans ?_ (State.deliverOne_keeps _ _ _ _)
      | with_reducible apply Keeps.trans ?_ (ih _ _ _)
      | intro _
      | dsimp only

theorem State.refusePkt_keeps (a0 : State) (a1 : Nat) (a2 : Pkt) : Keeps a0 (State.refusePkt a0 a1 a2) := by
  unfold State.refusePkt
  try dsimp only
  repeat'
    first
    | with_reducible apply Keeps.refl
    | assumption
    | split
    | with_reducible apply Keeps.trans ?_ (State.raiseNo_keeps _ _ _ _)
    | with_reducible apply Keeps.trans ?_ (State.dropPkt_keeps _)
    | intro _
    | dsimp only

theorem State.traceGot_keeps (a0 : State) (a1 : Nat) (a2 : Pkt) (a3 : Bool) : Keeps a0 (State.traceGot a0 a1 a2
    a3) := by
  unfold State.traceGot
  try dsimp only
  repeat'
    first
    | with_reducible apply Keeps.refl
    | assumption
    | split
    | with_reducible apply Keeps.trans ?_ (State.trace_keeps _ _ _ _ _ _ _)
    | intro _
    | dsimp only

theorem State.park_keeps (a0 : State) (a1 : Pkt) : Keeps a0 (State.park a0 a1) := by
  unfold State.park
  try dsimp only
  repeat'
    first
    | with_reducible apply Keeps.refl
    | assumption
    | split
    | with_reducible apply Keeps.trans ?_ (State.setRecvFlow_keeps _ _ _)
    | intro _
    | dsimp only

theorem State.dropEpoch_keeps (a0 : State) (a1 : Pkt) : Keeps a0 (State.dropEpoch a0 a1) := by
  unfold State.dropEpoch
  try dsimp only
  repeat'
    first
    | with_reducible apply Keeps.refl
    | assumption
    | split
    | with_reducible apply Keeps.trans ?_ (State.dropSignal_keeps _)
    | with_reducible apply Keeps.trans ?_ (State.dropPkt_keeps _)
    | intro _
    | dsimp only

theorem State.flowArrive_keeps (a0 : State) (a1 : Nat) (a2 : Pkt) (a3 : Nat) : Keeps a0 (State.flowArrive a0 a1
    a2 a3) := by
  unfold State.flowArrive
  try dsimp only
  repeat'
    first
    | with_reducible apply Keeps.refl
    | assumption
    | split
    | with_reducible apply Keeps.trans ?_ (State.traceGot_keeps _ _ _ _)
    | with_reducible apply Keeps.trans ?_ (State.refusePkt_keeps _ _ _)
    | with_reducible apply Keeps.trans ?_ (State.dropEpoch_keeps _ _)
    | with_reducible apply Keeps.trans ?_ (State.satAdd_keeps _ _ _ _)
    | with_reducible apply Keeps.trans ?_ (State.drainFlow_keeps _ _ _ _)
    | with_reducible apply Keeps.trans ?_ (State.deliverOne_keeps _ _ _ _)
    | with_reducible apply Keeps.trans ?_ (State.park_keeps _ _)
    | intro _
    | dsimp only

theorem State.ackGot_keeps (a0 : State) (a1 : Nat) (a2 : Nat) : Keeps a0 (State.ackGot a0 a1 a2) := by
  unfold State.ackGot
  try dsimp only
  repeat'
    first
    | with_reducible apply Keeps.refl
    | assumption
    | split
    | with_reducible apply Keeps.trans ?_ (State.setSendFlow_keeps _ _ _)
    | intro _
    | dsimp only

theorem State.resendPkt_keeps (a0 : State) (a1 : Nat) (a2 : Nat) (a3 : Pkt) : Keeps a0 (State.resendPkt a0 a1 a2
    a3) := by
  unfold State.resendPkt
  try dsimp only
  repeat'
    first
    | with_reducible apply Keeps.refl
    | assumption
    | split
    | with_reducible apply Keeps.trans ?_ (State.failFlow_keeps _ _ _ _ _)
    | with_reducible apply Keeps.trans ?_ (State.setSendFlow_keeps _ _ _)
    | with_reducible apply Keeps.trans ?_ (State.enqueuePkt_keeps _ _ _)
    | with_reducible apply Keeps.trans ?_ (State.satAdd_keeps _ _ _ _)
    | intro _
    | dsimp only

theorem State.nakGot_keeps (a0 : State) (a1 : Nat) (a2 : Nat) (a3 : Nat) : Keeps a0 (State.nakGot a0 a1 a2 a3)
    := by
  unfold State.nakGot
  try dsimp only
  repeat'
    first
    | with_reducible apply Keeps.refl
    | assumption
    | split
    | with_reducible apply Keeps.trans ?_ (State.raiseCtx_keeps _ _ _ _ _)
    | with_reducible apply Keeps.trans ?_ (State.resendPkt_keeps _ _ _ _)
    | with_reducible apply Keeps.foldl _ _ ?_ ?_
    | with_reducible apply Keeps.foldl_fst _ _ ?_ ?_
    | intro _
    | dsimp only

theorem State.unreachGot_keeps (a0 : State) (a1 : Nat) : Keeps a0 (State.unreachGot a0 a1) := by
  unfold State.unreachGot
  try dsimp only
  repeat'
    first
    | with_reducible apply Keeps.refl
    | assumption
    | split
    | with_reducible apply Keeps.trans ?_ (State.failFlow_keeps _ _ _ _ _)
    | intro _
    | dsimp only

theorem State.eject_keeps (a0 : State) (a1 : Nat) (a2 : Pkt) (a3 : Nat) : Keeps a0 (State.eject a0 a1 a2 a3) :=
    by
  unfold State.eject
  try dsimp only
  repeat'
    first
    | with_reducible apply Keeps.refl
    | assumption
    | split
    | with_reducible apply Keeps.trans ?_ (State.ackGot_keeps _ _ _)
    | with_reducible apply Keeps.trans ?_ (State.nakGot_keeps _ _ _ _)
    | with_reducible apply Keeps.trans ?_ (State.unreachGot_keeps _ _)
    | with_reducible apply Keeps.trans ?_ (State.flowArrive_keeps _ _ _ _)
    | intro _
    | dsimp only

/-! ### Routing -/

theorem State.popHead_keeps (a0 : State) (a1 : Nat) (a2 : Nat) (a3 : Pkt) : Keeps a0 (State.popHead a0 a1 a2 a3)
    := by
  unfold State.popHead
  try dsimp only
  repeat'
    first
    | with_reducible apply Keeps.refl
    | assumption
    | split
    | with_reducible apply Keeps.trans ?_ (State.freeUnits_keeps _ _ _ _)
    | with_reducible apply Keeps.trans ?_ (State.setInbuf_keeps _ _ _)
    | intro _
    | dsimp only

theorem State.passOn_keeps (a0 : State) (a1 : Nat) (a2 : Nat) (a3 : Pkt) (a4 : Nat) (a5 : Nat) (a6 : Bool) :
    Keeps a0 (State.passOn a0 a1 a2 a3 a4 a5 a6) := by
  unfold State.passOn
  try dsimp only
  repeat'
    first
    | with_reducible apply Keeps.refl
    | assumption
    | split
    | with_reducible apply Keeps.trans ?_ (State.rrNext_keeps _ _ _ _)
    | with_reducible apply Keeps.trans ?_ (State.sendOn_keeps _ _ _ _ _)
    | with_reducible apply Keeps.trans ?_ (State.popHead_keeps _ _ _ _)
    | with_reducible apply Keeps.trans ?_ (State.traceSent_keeps _ _ _ _)
    | intro _
    | dsimp only

theorem State.serve_keeps (a0 : State) (a1 : Nat) (a2 : Nat) (a3 : Bool) : Keeps a0 (State.serve a0 a1 a2 a3) :=
    by
  unfold State.serve
  try dsimp only
  repeat'
    first
    | with_reducible apply Keeps.refl
    | assumption
    | split
    | with_reducible apply Keeps.trans ?_ (State.eject_keeps _ _ _ _)
    | with_reducible apply Keeps.trans ?_ (State.popHead_keeps _ _ _ _)
    | with_reducible apply Keeps.trans ?_ (State.unreachable_keeps _ _ _)
    | with_reducible apply Keeps.trans ?_ (State.strand_keeps _ _ _)
    | with_reducible apply Keeps.trans ?_ (State.passOn_keeps _ _ _ _ _ _ _)
    | intro _
    | dsimp only

theorem State.doAging_keeps (a0 : State) (a1 : Nat) (a2 : Nat) : Keeps a0 (State.doAging a0 a1 a2) := by
  unfold State.doAging
  try dsimp only
  repeat'
    first
    | with_reducible apply Keeps.refl
    | assumption
    | split
    | with_reducible apply Keeps.trans ?_ (State.serve_keeps _ _ _ _)
    | intro _
    | dsimp only

theorem State.doEscape_keeps (a0 : State) (a1 : Nat) (a2 : Nat) : Keeps a0 (State.doEscape a0 a1 a2) := by
  unfold State.doEscape
  try dsimp only
  repeat'
    first
    | with_reducible apply Keeps.refl
    | assumption
    | split
    | with_reducible apply Keeps.trans ?_ (State.passOn_keeps _ _ _ _ _ _ _)
    | intro _
    | dsimp only

theorem State.inject_keeps (a0 : State) (a1 : Nat) (a2 : Pkt) (a3 : PktFrom) : Keeps a0 (State.inject a0 a1 a2
    a3) := by
  unfold State.inject
  try dsimp only
  repeat'
    first
    | with_reducible apply Keeps.refl
    | assumption
    | split
    | with_reducible apply Keeps.trans ?_ (State.logWrite_keeps _ _ _)
    | with_reducible apply Keeps.trans ?_ (State.eject_keeps _ _ _ _)
    | with_reducible apply Keeps.trans ?_ (State.traceSent_keeps _ _ _ _)
    | with_reducible apply Keeps.trans ?_ (State.flowSent_keeps _ _ _)
    | with_reducible apply Keeps.trans ?_ (State.takePkt_keeps _ _ _ _)
    | with_reducible apply Keeps.trans ?_ (State.failFlow_keeps _ _ _ _ _)
    | with_reducible apply Keeps.trans ?_ (State.dropPkt_keeps _)
    | with_reducible apply Keeps.trans ?_ (State.rrNext_keeps _ _ _ _)
    | with_reducible apply Keeps.trans ?_ (State.sendOn_keeps _ _ _ _ _)
    | intro _
    | dsimp only

theorem State.doInject_keeps (a0 : State) (a1 : Nat) : Keeps a0 (State.doInject a0 a1) := by
  unfold State.doInject
  try dsimp only
  repeat'
    first
    | with_reducible apply Keeps.refl
    | assumption
    | split
    | with_reducible apply Keeps.trans ?_ (State.withhold_keeps _ _ _)
    | with_reducible apply Keeps.trans ?_ (State.takePkt_keeps _ _ _ _)
    | with_reducible apply Keeps.trans ?_ (State.inject_keeps _ _ _ _)
    | intro _
    | dsimp only

theorem State.arrive_keeps (a0 : State) (a1 : Nat) (a2 : Nat) (a3 : BitVec 256) (a4 : List Sys2Proof.Byte) (a5 :
    Nat) : Keeps a0 (State.arrive a0 a1 a2 a3 a4 a5) := by
  unfold State.arrive
  try dsimp only
  repeat'
    first
    | with_reducible apply Keeps.refl
    | assumption
    | split
    | with_reducible apply Keeps.trans ?_ (State.checkPkt_keeps _ _ _ _ _ _ ?_)
    | with_reducible apply Keeps.trans ?_ (State.eject_keeps _ _ _ _)
    | with_reducible apply Keeps.trans ?_ (State.freePkt_keeps _ _ _)
    | with_reducible apply Keeps.trans ?_ (State.enqueuePkt_keeps _ _ _)
    | intro _
    | dsimp only

theorem State.lineGot_keeps (a0 : State) (a1 : Nat) (a2 : Pkt) : Keeps a0 (State.lineGot a0 a1 a2) := by
  unfold State.lineGot
  try dsimp only
  repeat'
    first
    | with_reducible apply Keeps.refl
    | assumption
    | split
    | with_reducible apply Keeps.trans ?_ (State.convertAxis_keeps _ _ _ _)
    | with_reducible apply Keeps.trans ?_ (State.freePkt_keeps _ _ _)
    | intro _
    | dsimp only

theorem State.releaseSignal_keeps (a0 : State) (a1 : Nat) (a2 : Pkt) : Keeps a0 (State.releaseSignal a0 a1 a2)
    := by
  unfold State.releaseSignal
  try dsimp only
  repeat'
    first
    | with_reducible apply Keeps.refl
    | assumption
    | split
    | with_reducible apply Keeps.trans ?_ (State.sendSignal_keeps _ _ _ _ _)
    | with_reducible apply Keeps.trans ?_ (State.dropSignal_keeps _)
    | intro _
    | dsimp only

theorem State.doRelease_keeps (a0 : State) (a1 : Nat) : Keeps a0 (State.doRelease a0 a1) := by
  unfold State.doRelease
  try dsimp only
  repeat'
    first
    | with_reducible apply Keeps.refl
    | assumption
    | split
    | with_reducible apply Keeps.trans ?_ (State.drainFlow_keeps _ _ _ _)
    | with_reducible apply Keeps.trans ?_ (State.setRecvFlow_keeps _ _ _)
    | with_reducible apply Keeps.trans ?_ (State.releaseSignal_keeps _ _ _)
    | intro _
    | dsimp only

theorem State.doAckTimer_keeps (a0 : State) (a1 : Nat) : Keeps a0 (State.doAckTimer a0 a1) := by
  unfold State.doAckTimer
  try dsimp only
  repeat'
    first
    | with_reducible apply Keeps.refl
    | assumption
    | split
    | with_reducible apply Keeps.trans ?_ (State.drainFlow_keeps _ _ _ _)
    | with_reducible apply Keeps.trans ?_ (State.answer_keeps _ _ _ _ _)
    | with_reducible apply Keeps.trans ?_ (State.setRecvFlow_keeps _ _ _)
    | intro _
    | dsimp only

theorem State.doGap_keeps (a0 : State) (a1 : Nat) : Keeps a0 (State.doGap a0 a1) := by
  unfold State.doGap
  try dsimp only
  repeat'
    first
    | with_reducible apply Keeps.refl
    | assumption
    | split
    | with_reducible apply Keeps.trans ?_ (State.answer_keeps _ _ _ _ _)
    | with_reducible apply Keeps.trans ?_ (State.setRecvFlow_keeps _ _ _)
    | intro _
    | dsimp only

theorem State.doRto_keeps (a0 : State) (a1 : Nat) : Keeps a0 (State.doRto a0 a1) := by
  unfold State.doRto
  try dsimp only
  repeat'
    first
    | with_reducible apply Keeps.refl
    | assumption
    | split
    | with_reducible apply Keeps.trans ?_ (State.resendPkt_keeps _ _ _ _)
    | with_reducible apply Keeps.trans ?_ (State.setSendFlow_keeps _ _ _)
    | intro _
    | dsimp only

theorem State.selFlow_keeps (a0 : State) (a1 : Bool) (a2 : Nat) (a3 : Nat) : Keeps a0 (State.selFlow a0 a1 a2
    a3) := by
  unfold State.selFlow
  try dsimp only
  repeat'
    first
    | with_reducible apply Keeps.refl
    | assumption
    | split
    | with_reducible apply Keeps.trans ?_ (State.setFld_keeps _ _ _ _)
    | with_reducible apply Keeps.trans ?_ (State.setFlag_keeps _ _ _ _)
    | intro _
    | dsimp only

theorem State.flowRead_keeps (a0 : State) (a1 : Bool) (a2 : Nat) : Keeps a0 (State.flowRead a0 a1 a2) := by
  unfold State.flowRead
  try dsimp only
  repeat'
    first
    | with_reducible apply Keeps.refl
    | assumption
    | split
    | with_reducible apply Keeps.trans ?_ (State.setFld_keeps _ _ _ _)
    | with_reducible apply Keeps.trans ?_ (State.setFlag_keeps _ _ _ _)
    | with_reducible apply Keeps.trans ?_ (State.selFlow_keeps _ _ _ _)
    | intro _
    | dsimp only

theorem State.flowOpen_keeps (a0 : State) (a1 : Bool) (a2 : Nat) : Keeps a0 (State.flowOpen a0 a1 a2) := by
  unfold State.flowOpen
  try dsimp only
  repeat'
    first
    | with_reducible apply Keeps.refl
    | assumption
    | split
    | with_reducible apply Keeps.trans ?_ (State.selFlow_keeps _ _ _ _)
    | with_reducible apply Keeps.trans ?_ (State.raiseNo_keeps _ _ _ _)
    | with_reducible apply Keeps.trans ?_ (State.setFlag_keeps _ _ _ _)
    | with_reducible apply Keeps.trans ?_ (State.setRecvFlow_keeps _ _ _)
    | with_reducible apply Keeps.trans ?_ (State.setSendFlow_keeps _ _ _)
    | intro _
    | dsimp only

theorem State.flowClose_keeps (a0 : State) (a1 : Bool) (a2 : Nat) : Keeps a0 (State.flowClose a0 a1 a2) := by
  unfold State.flowClose
  try dsimp only
  repeat'
    first
    | with_reducible apply Keeps.refl
    | assumption
    | split
    | with_reducible apply Keeps.trans ?_ (State.selFlow_keeps _ _ _ _)
    | with_reducible apply Keeps.trans ?_ (State.setRecvFlow_keeps _ _ _)
    | with_reducible apply Keeps.trans ?_ (State.discardMirror_keeps _ _)
    | with_reducible apply Keeps.trans ?_ (State.setSendFlow_keeps _ _ _)
    | intro _
    | dsimp only

/-! ### Collectives -/

theorem State.setItems_keeps (a0 : State) (a1 : Nat) (a2 : Nat) (a3 : List EItem) : Keeps a0 (State.setItems a0
    a1 a2 a3) := by
  unfold State.setItems
  try dsimp only
  repeat'
    first
    | with_reducible apply Keeps.refl
    | assumption
    | split
    | with_reducible apply Keeps.trans ?_ (State.setTil_keeps _ _ _)
    | intro _
    | dsimp only

theorem State.pushErr_keeps (a0 : State) (a1 : Nat) (a2 : Nat) (a3 : Nat) : Keeps a0 (State.pushErr a0 a1 a2 a3)
    := by
  unfold State.pushErr
  try dsimp only
  repeat'
    first
    | with_reducible apply Keeps.refl
    | assumption
    | split
    | with_reducible apply Keeps.trans ?_ (State.colRaise_keeps _ _ _ _ _)
    | with_reducible apply Keeps.trans ?_ (State.setFlag_keeps _ _ _ _)
    | intro _
    | dsimp only

theorem State.pushChunk_keeps (a0 : State) (a1 : Nat) (a2 : Nat) (a3 : List Sys2Proof.PByte) (a4 : Nat) : Keeps
    a0 (State.pushChunk a0 a1 a2 a3 a4) := by
  unfold State.pushChunk
  try dsimp only
  repeat'
    first
    | with_reducible apply Keeps.refl
    | assumption
    | split
    | with_reducible apply Keeps.trans ?_ (State.pushErr_keeps _ _ _ _)
    | with_reducible apply Keeps.trans ?_ (State.setGroup_keeps _ _ _)
    | with_reducible apply Keeps.trans ?_ (State.colRun_keeps _ _ _ _)
    | with_reducible apply Keeps.trans ?_ (State.choosePlan_keeps _ _)
    | intro _
    | dsimp only

theorem State.takeBytes_keeps (a0 : State) (a1 : Nat) (a2 : Nat) (a3 : Nat) : Keeps a0 (State.takeBytes a0 a1 a2
    a3) := by
  unfold State.takeBytes
  try dsimp only
  repeat'
    first
    | with_reducible apply Keeps.refl
    | assumption
    | split
    | with_reducible apply Keeps.trans ?_ (State.setItems_keeps _ _ _ _)
    | with_reducible apply Keeps.trans ?_ (State.setTil_keeps _ _ _)
    | intro _
    | dsimp only

theorem State.doChunkEnter_keeps (a0 : State) (a1 : Nat) (a2 : Nat) (a3 : Nat) : Keeps a0 (State.doChunkEnter a0
    a1 a2 a3) := by
  unfold State.doChunkEnter
  try dsimp only
  repeat'
    first
    | with_reducible apply Keeps.refl
    | assumption
    | split
    | with_reducible apply Keeps.trans ?_ (State.pushChunk_keeps _ _ _ _ _)
    | with_reducible apply Keeps.trans ?_ (State.takeBytes_keeps _ _ _ _)
    | with_reducible apply Keeps.trans ?_ (State.pushErr_keeps _ _ _ _)
    | with_reducible apply Keeps.trans ?_ (State.setItems_keeps _ _ _ _)
    | intro _
    | dsimp only

theorem State.rowDrop_keeps (a0 : State) (a1 : Nat) (a2 : Nat) (a3 : Nat) (a4 : Nat) : Keeps a0 (State.rowDrop
    a0 a1 a2 a3 a4) := by
  unfold State.rowDrop
  try dsimp only
  repeat'
    first
    | with_reducible apply Keeps.refl
    | assumption
    | split
    | with_reducible apply Keeps.trans ?_ (State.setGroup_keeps _ _ _)
    | with_reducible apply Keeps.trans ?_ (State.satAdd_keeps _ _ _ _)
    | with_reducible apply Keeps.trans ?_ (State.colRaise_keeps _ _ _ _ _)
    | with_reducible apply Keeps.trans ?_ (State.setFlag_keeps _ _ _ _)
    | intro _
    | dsimp only

theorem State.placeRow_keeps (a0 : State) (a1 : Nat) (a2 : Nat) (a3 : Nat) (a4 : List Sys2Proof.PByte) : Keeps
    a0 (State.placeRow a0 a1 a2 a3 a4) := by
  unfold State.placeRow
  try dsimp only
  repeat'
    first
    | with_reducible apply Keeps.refl
    | assumption
    | split
    | with_reducible apply Keeps.trans ?_ (State.memWrite_keeps _ _ _ _)
    | with_reducible apply Keeps.trans ?_ (State.queuePkt_keeps _ _ _)
    | with_reducible apply Keeps.foldl _ _ ?_ ?_
    | with_reducible apply Keeps.foldl_fst _ _ ?_ ?_
    | intro _
    | dsimp only

theorem State.routeRow_keeps (a0 : State) (a1 : Nat) (a2 : Nat) (a3 : Nat) (a4 : List Sys2Proof.PByte) (a5 :
    List Sys2Proof.PByte) : Keeps a0 (State.routeRow a0 a1 a2 a3 a4 a5) := by
  unfold State.routeRow
  try dsimp only
  repeat'
    first
    | with_reducible apply Keeps.refl
    | assumption
    | split
    | with_reducible apply Keeps.trans ?_ (State.pushErr_keeps _ _ _ _)
    | with_reducible apply Keeps.trans ?_ (State.setGroup_keeps _ _ _)
    | with_reducible apply Keeps.trans ?_ (State.rowDrop_keeps _ _ _ _ _)
    | with_reducible apply Keeps.trans ?_ (State.placeRow_keeps _ _ _ _ _)
    | intro _
    | dsimp only

theorem State.doRoute_keeps (a0 : State) (a1 : Nat) (a2 : Nat) : Keeps a0 (State.doRoute a0 a1 a2) := by
  unfold State.doRoute
  try dsimp only
  repeat'
    first
    | with_reducible apply Keeps.refl
    | assumption
    | split
    | with_reducible apply Keeps.trans ?_ (State.routeRow_keeps _ _ _ _ _ _)
    | with_reducible apply Keeps.trans ?_ (State.setItems_keeps _ _ _ _)
    | with_reducible apply Keeps.trans ?_ (State.pushErr_keeps _ _ _ _)
    | intro _
    | dsimp only

theorem State.laneTell_keeps (a0 : State) (a1 : Nat) (a2 : Nat) (a3 : Nat) (a4 : Nat) (a5 : Nat) : Keeps a0
    (State.laneTell a0 a1 a2 a3 a4 a5) := by
  unfold State.laneTell
  try dsimp only
  repeat'
    first
    | with_reducible apply Keeps.refl
    | assumption
    | split
    | with_reducible apply Keeps.trans ?_ (State.sendSignal_keeps _ _ _ _ _)
    | with_reducible apply Keeps.trans ?_ (State.memWrite_keeps _ _ _ _)
    | with_reducible apply Keeps.trans ?_ (State.queuePkt_keeps _ _ _)
    | intro _
    | dsimp only

theorem State.doLaneEnd_keeps (a0 : State) (a1 : Nat) (a2 : Nat) : Keeps a0 (State.doLaneEnd a0 a1 a2) := by
  unfold State.doLaneEnd
  try dsimp only
  repeat'
    first
    | with_reducible apply Keeps.refl
    | assumption
    | split
    | with_reducible apply Keeps.trans ?_ (State.laneTell_keeps _ _ _ _ _ _)
    | with_reducible apply Keeps.trans ?_ (State.setItems_keeps _ _ _ _)
    | with_reducible apply Keeps.trans ?_ (State.setGroup_keeps _ _ _)
    | with_reducible apply Keeps.foldl _ _ ?_ ?_
    | with_reducible apply Keeps.foldl_fst _ _ ?_ ?_
    | intro _
    | dsimp only

/-! ### Links -/

theorem State.rxFail_keeps (a0 : State) (a1 : Nat) (a2 : Nat) : Keeps a0 (State.rxFail a0 a1 a2) := by
  unfold State.rxFail
  try dsimp only
  repeat'
    first
    | with_reducible apply Keeps.refl
    | assumption
    | split
    | with_reducible apply Keeps.trans ?_ (State.urgentLcf_keeps _ _ _)
    | with_reducible apply Keeps.trans ?_ (State.setPort_keeps _ _ _)
    | intro _
    | dsimp only

theorem State.lockLost_keeps (a0 : State) (a1 : Nat) (a2 : Nat) : Keeps a0 (State.lockLost a0 a1 a2) := by
  unfold State.lockLost
  try dsimp only
  repeat'
    first
    | with_reducible apply Keeps.refl
    | assumption
    | split
    | with_reducible apply Keeps.trans ?_ (State.raiseNo_keeps _ _ _ _)
    | with_reducible apply Keeps.trans ?_ (State.setPort_keeps _ _ _)
    | with_reducible apply Keeps.trans ?_ (State.rxFail_keeps _ _ _)
    | with_reducible apply Keeps.trans ?_ (State.portDown_keeps _ _ _)
    | intro _
    | dsimp only

theorem State.learnMap_keeps (a0 : State) (a1 : Nat) (a2 : Nat) (a3 : Nat) : Keeps a0 (State.learnMap a0 a1 a2
    a3) := by
  unfold State.learnMap
  try dsimp only
  repeat'
    first
    | with_reducible apply Keeps.refl
    | assumption
    | split
    | with_reducible apply Keeps.trans ?_ (State.setFld_keeps _ _ _ _)
    | with_reducible apply Keeps.trans ?_ (State.setPort_keeps _ _ _)
    | with_reducible apply Keeps.trans ?_ (State.nactCheck_keeps _ _)
    | intro _
    | dsimp only

theorem State.countWords_keeps (a0 : State) (a1 : Nat) (a2 : Nat) (a3 : Nat) : Keeps a0 (State.countWords a0 a1
    a2 a3) := by
  unfold State.countWords
  try dsimp only
  repeat'
    first
    | with_reducible apply Keeps.refl
    | assumption
    | split
    | with_reducible apply Keeps.trans ?_ (State.satAdd_keeps _ _ _ _)
    | intro _
    | dsimp only

theorem State.doMarker_keeps (a0 : State) (a1 : Nat) (a2 : Nat) (a3 : Nat) (a4 : Nat) (a5 : Nat) (a6 : Nat) :
    Keeps a0 (State.doMarker a0 a1 a2 a3 a4 a5 a6) := by
  unfold State.doMarker
  try dsimp only
  repeat'
    first
    | with_reducible apply Keeps.refl
    | assumption
    | split
    | with_reducible apply Keeps.trans ?_ (State.countWords_keeps _ _ _ _)
    | with_reducible apply Keeps.trans ?_ (State.setPort_keeps _ _ _)
    | with_reducible apply Keeps.trans ?_ (State.learnMap_keeps _ _ _ _)
    | with_reducible apply Keeps.trans ?_ (State.lockLost_keeps _ _ _)
    | intro _
    | dsimp only

theorem State.doChannelFail_keeps (a0 : State) (a1 : Nat) (a2 : Nat) (a3 : Bool) : Keeps a0 (State.doChannelFail
    a0 a1 a2 a3) := by
  unfold State.doChannelFail
  try dsimp only
  repeat'
    first
    | with_reducible apply Keeps.refl
    | assumption
    | split
    | with_reducible apply Keeps.trans ?_ (State.lockLost_keeps _ _ _)
    | with_reducible apply Keeps.trans ?_ (State.rxFail_keeps _ _ _)
    | intro _
    | dsimp only

theorem State.doSymbolFail_keeps (a0 : State) (a1 : Nat) (a2 : Nat) : Keeps a0 (State.doSymbolFail a0 a1 a2) :=
    by
  unfold State.doSymbolFail
  try dsimp only
  repeat'
    first
    | with_reducible apply Keeps.refl
    | assumption
    | split
    | with_reducible apply Keeps.trans ?_ (State.rxFail_keeps _ _ _)
    | intro _
    | dsimp only

theorem State.doLaserFail_keeps (a0 : State) (a1 : Nat) (a2 : Nat) : Keeps a0 (State.doLaserFail a0 a1 a2) := by
  unfold State.doLaserFail
  try dsimp only
  repeat'
    first
    | with_reducible apply Keeps.refl
    | assumption
    | split
    | with_reducible apply Keeps.trans ?_ (State.txRemap_keeps _ _)
    | with_reducible apply Keeps.trans ?_ (State.setPort_keeps _ _ _)
    | intro _
    | dsimp only

theorem State.doModuleLost_keeps (a0 : State) (a1 : Nat) (a2 : Nat) : Keeps a0 (State.doModuleLost a0 a1 a2) :=
    by
  unfold State.doModuleLost
  try dsimp only
  repeat'
    first
    | with_reducible apply Keeps.refl
    | assumption
    | split
    | with_reducible apply Keeps.trans ?_ (State.nactCheck_keeps _ _)
    | with_reducible apply Keeps.trans ?_ (State.moduleLost_keeps _ _ _)
    | intro _
    | dsimp only

theorem State.pauseIfFull_keeps (a0 : State) (a1 : Nat) : Keeps a0 (State.pauseIfFull a0 a1) := by
  unfold State.pauseIfFull
  try dsimp only
  repeat'
    first
    | with_reducible apply Keeps.refl
    | assumption
    | split
    | with_reducible apply Keeps.trans ?_ (State.sendPause_keeps _ _)
    | intro _
    | dsimp only

theorem State.doSlot_keeps (a0 : State) (a1 : Nat) (a2 : Bool) (a3 : Nat) (a4 : Bool) (a5 : List (Option (BitVec
    256))) : Keeps a0 (State.doSlot a0 a1 a2 a3 a4 a5) := by
  unfold State.doSlot
  try dsimp only
  repeat'
    first
    | with_reducible apply Keeps.refl
    | assumption
    | split
    | with_reducible apply Keeps.trans ?_ (State.setPort_keeps _ _ _)
    | with_reducible apply Keeps.trans ?_ (State.pauseIfFull_keeps _ _)
    | with_reducible apply Keeps.trans ?_ (State.urgentLcf_keeps _ _ _)
    | intro _
    | dsimp only

theorem State.markBypassed_keeps (a0 : State) (a1 : Nat) (a2 : Nat) : Keeps a0 (State.markBypassed a0 a1 a2) :=
    by
  unfold State.markBypassed
  try dsimp only
  repeat'
    first
    | with_reducible apply Keeps.refl
    | assumption
    | split
    | with_reducible apply Keeps.trans ?_ (State.setBit_keeps _ _ _ _)
    | with_reducible apply Keeps.foldl _ _ ?_ ?_
    | with_reducible apply Keeps.foldl_fst _ _ ?_ ?_
    | intro _
    | dsimp only

theorem State.acceptPeer_keeps (a0 : State) (a1 : Nat) (a2 : Nat) (a3 : Nat) (a4 : Nat) : Keeps a0
    (State.acceptPeer a0 a1 a2 a3 a4) := by
  unfold State.acceptPeer
  try dsimp only
  repeat'
    first
    | with_reducible apply Keeps.refl
    | assumption
    | split
    | with_reducible apply Keeps.trans ?_ (State.setFld_keeps _ _ _ _)
    | with_reducible apply Keeps.trans ?_ (State.raiseNo_keeps _ _ _ _)
    | with_reducible apply Keeps.trans ?_ (State.markBypassed_keeps _ _ _)
    | with_reducible apply Keeps.trans ?_ (State.setFlag_keeps _ _ _ _)
    | intro _
    | dsimp only

theorem State.strictCheck_keeps (a0 : State) (a1 : Nat) (a2 : Bool) : Keeps a0 (State.strictCheck a0 a1 a2) :=
    by
  unfold State.strictCheck
  try dsimp only
  repeat'
    first
    | with_reducible apply Keeps.refl
    | assumption
    | split
    | with_reducible apply Keeps.trans ?_ (State.setPort_keeps _ _ _)
    | with_reducible apply Keeps.trans ?_ (State.raiseNo_keeps _ _ _ _)
    | with_reducible apply Keeps.trans ?_ (State.setFlag_keeps _ _ _ _)
    | intro _
    | dsimp only

theorem State.peerFails_keeps (a0 : State) (a1 : Nat) (a2 : Nat) : Keeps a0 (State.peerFails a0 a1 a2) := by
  unfold State.peerFails
  try dsimp only
  repeat'
    first
    | with_reducible apply Keeps.refl
    | assumption
    | split
    | with_reducible apply Keeps.trans ?_ (State.txRemap_keeps _ _)
    | with_reducible apply Keeps.trans ?_ (State.setPort_keeps _ _ _)
    | intro _
    | dsimp only

theorem State.setTx_keeps (a0 : State) (a1 : Nat) (a2 : Bool) (a3 : TxStream) : Keeps a0 (State.setTx a0 a1 a2
    a3) := by
  unfold State.setTx
  try dsimp only
  repeat'
    first
    | with_reducible apply Keeps.refl
    | assumption
    | split
    | with_reducible apply Keeps.trans ?_ (State.setPort_keeps _ _ _)
    | intro _
    | dsimp only

theorem State.slotAck_keeps (a0 : State) (a1 : Nat) (a2 : Bool) (a3 : Nat) : Keeps a0 (State.slotAck a0 a1 a2
    a3) := by
  unfold State.slotAck
  try dsimp only
  repeat'
    first
    | with_reducible apply Keeps.refl
    | assumption
    | split
    | with_reducible apply Keeps.trans ?_ (State.setTx_keeps _ _ _ _)
    | intro _
    | dsimp only

theorem State.slotNak_keeps (a0 : State) (a1 : Nat) (a2 : Bool) (a3 : Nat) : Keeps a0 (State.slotNak a0 a1 a2
    a3) := by
  unfold State.slotNak
  try dsimp only
  repeat'
    first
    | with_reducible apply Keeps.refl
    | assumption
    | split
    | with_reducible apply Keeps.trans ?_ (State.portDown_keeps _ _ _)
    | with_reducible apply Keeps.trans ?_ (State.raiseNo_keeps _ _ _ _)
    | with_reducible apply Keeps.trans ?_ (State.satAdd_keeps _ _ _ _)
    | with_reducible apply Keeps.trans ?_ (State.setTx_keeps _ _ _ _)
    | intro _
    | dsimp only

theorem State.pauseGot_keeps (a0 : State) (a1 : Nat) (a2 : Nat) : Keeps a0 (State.pauseGot a0 a1 a2) := by
  unfold State.pauseGot
  try dsimp only
  repeat'
    first
    | with_reducible apply Keeps.refl
    | assumption
    | split
    | with_reducible apply Keeps.trans ?_ (State.setFlag_keeps _ _ _ _)
    | with_reducible apply Keeps.trans ?_ (State.setPort_keeps _ _ _)
    | intro _
    | dsimp only

theorem State.creditsGot_keeps (a0 : State) (a1 : Nat) (a2 : List Sys2Proof.Byte) : Keeps a0 (State.creditsGot
    a0 a1 a2) := by
  unfold State.creditsGot
  try dsimp only
  repeat'
    first
    | with_reducible apply Keeps.refl
    | assumption
    | split
    | with_reducible apply Keeps.trans ?_ (State.setPort_keeps _ _ _)
    | with_reducible apply Keeps.foldl _ _ ?_ ?_
    | with_reducible apply Keeps.foldl_fst _ _ ?_ ?_
    | intro _
    | dsimp only

theorem State.lcfTake_keeps (a0 : State) (a1 : Nat) (a2 : List Sys2Proof.Byte) : Keeps a0 (State.lcfTake a0 a1
    a2) := by
  unfold State.lcfTake
  try dsimp only
  repeat'
    first
    | with_reducible apply Keeps.refl
    | assumption
    | split
    | with_reducible apply Keeps.trans ?_ (State.peerFails_keeps _ _ _)
    | with_reducible apply Keeps.trans ?_ (State.creditsGot_keeps _ _ _)
    | with_reducible apply Keeps.trans ?_ (State.slotAck_keeps _ _ _ _)
    | with_reducible apply Keeps.trans ?_ (State.pauseGot_keeps _ _ _)
    | with_reducible apply Keeps.trans ?_ (State.slotNak_keeps _ _ _ _)
    | intro _
    | dsimp only

theorem State.identityFail_keeps (a0 : State) (a1 : Nat) (a2 : Nat) (a3 : Nat) : Keeps a0 (State.identityFail a0
    a1 a2 a3) := by
  unfold State.identityFail
  try dsimp only
  repeat'
    first
    | with_reducible apply Keeps.refl
    | assumption
    | split
    | with_reducible apply Keeps.trans ?_ (State.portDown_keeps _ _ _)
    | with_reducible apply Keeps.trans ?_ (State.raiseNo_keeps _ _ _ _)
    | with_reducible apply Keeps.trans ?_ (State.setFlag_keeps _ _ _ _)
    | intro _
    | dsimp only

theorem State.lcfAccepted_keeps (a0 : State) (a1 : Nat) (a2 : List Sys2Proof.Byte) : Keeps a0 (State.lcfAccepted
    a0 a1 a2) := by
  unfold State.lcfAccepted
  try dsimp only
  repeat'
    first
    | with_reducible apply Keeps.refl
    | assumption
    | split
    | with_reducible apply Keeps.trans ?_ (State.setPort_keeps _ _ _)
    | with_reducible apply Keeps.trans ?_ (State.lcfTake_keeps _ _ _)
    | with_reducible apply Keeps.trans ?_ (State.peerFails_keeps _ _ _)
    | intro _
    | dsimp only

theorem State.lcfIdentified_keeps (a0 : State) (a1 : Nat) (a2 : List Sys2Proof.Byte) : Keeps a0
    (State.lcfIdentified a0 a1 a2) := by
  unfold State.lcfIdentified
  try dsimp only
  repeat'
    first
    | with_reducible apply Keeps.refl
    | assumption
    | split
    | with_reducible apply Keeps.trans ?_ (State.acceptPeer_keeps _ _ _ _ _)
    | with_reducible apply Keeps.trans ?_ (State.portLost_keeps _ _)
    | with_reducible apply Keeps.trans ?_ (State.lcfAccepted_keeps _ _ _)
    | with_reducible apply Keeps.trans ?_ (State.strictCheck_keeps _ _ _)
    | with_reducible apply Keeps.trans ?_ (State.identityFail_keeps _ _ _ _)
    | intro _
    | dsimp only

theorem State.doLcf_keeps (a0 : State) (a1 : Nat) (a2 : List Sys2Proof.Byte) : Keeps a0 (State.doLcf a0 a1 a2)
    := by
  unfold State.doLcf
  try dsimp only
  repeat'
    first
    | with_reducible apply Keeps.refl
    | assumption
    | split
    | with_reducible apply Keeps.trans ?_ (State.lcfIdentified_keeps _ _ _)
    | intro _
    | dsimp only

theorem State.doLcfTimeout_keeps (a0 : State) (a1 : Nat) : Keeps a0 (State.doLcfTimeout a0 a1) := by
  unfold State.doLcfTimeout
  try dsimp only
  repeat'
    first
    | with_reducible apply Keeps.refl
    | assumption
    | split
    | with_reducible apply Keeps.trans ?_ (State.portDown_keeps _ _ _)
    | intro _
    | dsimp only

theorem State.doPauseExpire_keeps (a0 : State) (a1 : Nat) : Keeps a0 (State.doPauseExpire a0 a1) := by
  unfold State.doPauseExpire
  try dsimp only
  repeat'
    first
    | with_reducible apply Keeps.refl
    | assumption
    | split
    | with_reducible apply Keeps.trans ?_ (State.pauseGot_keeps _ _ _)
    | intro _
    | dsimp only

theorem State.doPauseLimit_keeps (a0 : State) (a1 : Nat) : Keeps a0 (State.doPauseLimit a0 a1) := by
  unfold State.doPauseLimit
  try dsimp only
  repeat'
    first
    | with_reducible apply Keeps.refl
    | assumption
    | split
    | with_reducible apply Keeps.trans ?_ (State.raiseNo_keeps _ _ _ _)
    | with_reducible apply Keeps.trans ?_ (State.setFlag_keeps _ _ _ _)
    | with_reducible apply Keeps.trans ?_ (State.setPort_keeps _ _ _)
    | intro _
    | dsimp only

theorem State.lockDone_keeps (a0 : State) (a1 : Nat) (a2 : Sys2Proof.PortView) : Keeps a0 (State.lockDone a0 a1
    a2) := by
  unfold State.lockDone
  try dsimp only
  repeat'
    first
    | with_reducible apply Keeps.refl
    | assumption
    | split
    | with_reducible apply Keeps.trans ?_ (State.setPortState_keeps _ _ _)
    | with_reducible apply Keeps.trans ?_ (State.setPort_keeps _ _ _)
    | intro _
    | dsimp only

theorem State.deskewed_keeps (a0 : State) (a1 : Nat) (a2 : Sys2Proof.PortView) : Keeps a0 (State.deskewed a0 a1
    a2) := by
  unfold State.deskewed
  try dsimp only
  repeat'
    first
    | with_reducible apply Keeps.refl
    | assumption
    | split
    | with_reducible apply Keeps.trans ?_ (State.setPort_keeps _ _ _)
    | with_reducible apply Keeps.trans ?_ (State.setPortState_keeps _ _ _)
    | with_reducible apply Keeps.trans ?_ (State.reportSwaps_keeps _ _ _ _ _)
    | with_reducible apply Keeps.trans ?_ (State.setFld_keeps _ _ _ _)
    | intro _
    | dsimp only

theorem State.portStart_keeps (a0 : State) (a1 : Nat) : Keeps a0 (State.portStart a0 a1) := by
  unfold State.portStart
  try dsimp only
  repeat'
    first
    | with_reducible apply Keeps.refl
    | assumption
    | split
    | with_reducible apply Keeps.trans ?_ (State.setPort_keeps _ _ _)
    | with_reducible apply Keeps.trans ?_ (State.setFld_keeps _ _ _ _)
    | with_reducible apply Keeps.trans ?_ (State.setPortState_keeps _ _ _)
    | intro _
    | dsimp only

theorem State.doPortAdvance_keeps (a0 : State) (a1 : Nat) (a2 : Sys2Proof.PortView) : Keeps a0
    (State.doPortAdvance a0 a1 a2) := by
  unfold State.doPortAdvance
  try dsimp only
  repeat'
    first
    | with_reducible apply Keeps.refl
    | assumption
    | split
    | with_reducible apply Keeps.trans ?_ (State.portStart_keeps _ _)
    | with_reducible apply Keeps.trans ?_ (State.setPortState_keeps _ _ _)
    | with_reducible apply Keeps.trans ?_ (State.lockDone_keeps _ _ _)
    | with_reducible apply Keeps.trans ?_ (State.deskewed_keeps _ _ _)
    | with_reducible apply Keeps.trans ?_ (State.portChange_keeps _)
    | intro _
    | dsimp only

theorem State.retrainPort_keeps (a0 : State) (a1 : Nat) (a2 : Sys2Proof.GuestInfo) : Keeps a0 (State.retrainPort
    a0 a1 a2) := by
  unfold State.retrainPort
  try dsimp only
  repeat'
    first
    | with_reducible apply Keeps.refl
    | assumption
    | split
    | with_reducible apply Keeps.trans ?_ (State.switchUpdate_keeps _ _)
    | with_reducible apply Keeps.trans ?_ (State.acceptGuest_keeps _ _ _)
    | intro _
    | dsimp only

theorem State.doAutoRetrain_keeps (a0 : State) (a1 : Nat) (a2 : Sys2Proof.GuestInfo) : Keeps a0
    (State.doAutoRetrain a0 a1 a2) := by
  unfold State.doAutoRetrain
  try dsimp only
  repeat'
    first
    | with_reducible apply Keeps.refl
    | assumption
    | split
    | with_reducible apply Keeps.trans ?_ (State.retrainPort_keeps _ _ _)
    | intro _
    | dsimp only

theorem State.leaveDone_keeps (a0 : State) (a1 : Nat) : Keeps a0 (State.leaveDone a0 a1) := by
  unfold State.leaveDone
  try dsimp only
  repeat'
    first
    | with_reducible apply Keeps.refl
    | assumption
    | split
    | with_reducible apply Keeps.trans ?_ (State.switchUpdate_keeps _ _)
    | with_reducible apply Keeps.trans ?_ (State.portOff_keeps _ _)
    | intro _
    | dsimp only

theorem State.leave_keeps (a0 : State) (a1 : Nat) : Keeps a0 (State.leave a0 a1) := by
  unfold State.leave
  try dsimp only
  repeat'
    first
    | with_reducible apply Keeps.refl
    | assumption
    | split
    | with_reducible apply Keeps.trans ?_ (State.urgentLcf_keeps _ _ _)
    | with_reducible apply Keeps.trans ?_ (State.setPort_keeps _ _ _)
    | intro _
    | dsimp only

theorem State.disablePort_keeps (a0 : State) (a1 : Nat) : Keeps a0 (State.disablePort a0 a1) := by
  unfold State.disablePort
  try dsimp only
  repeat'
    first
    | with_reducible apply Keeps.refl
    | assumption
    | split
    | with_reducible apply Keeps.trans ?_ (State.setFlag_keeps _ _ _ _)
    | with_reducible apply Keeps.trans ?_ (State.portChange_keeps _)
    | with_reducible apply Keeps.trans ?_ (State.leave_keeps _ _)
    | with_reducible apply Keeps.trans ?_ (State.leaveDone_keeps _ _)
    | intro _
    | dsimp only

theorem State.portEnable_keeps (a0 : State) (a1 : Nat) (a2 : Bool) : Keeps a0 (State.portEnable a0 a1 a2) := by
  unfold State.portEnable
  try dsimp only
  repeat'
    first
    | with_reducible apply Keeps.refl
    | assumption
    | split
    | with_reducible apply Keeps.trans ?_ (State.switchUpdate_keeps _ _)
    | with_reducible apply Keeps.trans ?_ (State.setFlag_keeps _ _ _ _)
    | with_reducible apply Keeps.trans ?_ (State.disablePort_keeps _ _)
    | intro _
    | dsimp only

theorem State.fuseChannels_keeps (a0 : State) (a1 : Nat) (a2 : Bool) : Keeps a0 (State.fuseChannels a0 a1 a2) :=
    by
  unfold State.fuseChannels
  try dsimp only
  repeat'
    first
    | with_reducible apply Keeps.refl
    | assumption
    | split
    | with_reducible apply Keeps.trans ?_ (State.setFld_keeps _ _ _ _)
    | intro _
    | dsimp only

theorem State.doGuestLost_keeps (a0 : State) (a1 : Nat) : Keeps a0 (State.doGuestLost a0 a1) := by
  unfold State.doGuestLost
  try dsimp only
  repeat'
    first
    | with_reducible apply Keeps.refl
    | assumption
    | split
    | with_reducible apply Keeps.trans ?_ (State.portDown_keeps _ _ _)
    | with_reducible apply Keeps.trans ?_ (State.setFld_keeps _ _ _ _)
    | with_reducible apply Keeps.trans ?_ (State.setFlag_keeps _ _ _ _)
    | intro _
    | dsimp only

theorem State.sendFrame_keeps (a0 : State) (a1 : Nat) : Keeps a0 (State.sendFrame a0 a1) := by
  unfold State.sendFrame
  try dsimp only
  repeat'
    first
    | with_reducible apply Keeps.refl
    | assumption
    | split
    | with_reducible apply Keeps.trans ?_ (State.sendHops_keeps _ _ _)
    | with_reducible apply Keeps.trans ?_ (State.mapSwitch_keeps _ _)
    | with_reducible apply Keeps.trans ?_ (State.emit_keeps _ _)
    | with_reducible apply Keeps.trans ?_ (State.creditsTold_keeps _ _)
    | with_reducible apply Keeps.trans ?_ (State.setPort_keeps _ _ _)
    | intro _
    | dsimp only

theorem State.doFrame_keeps (a0 : State) (a1 : Nat) : Keeps a0 (State.doFrame a0 a1) := by
  unfold State.doFrame
  try dsimp only
  repeat'
    first
    | with_reducible apply Keeps.refl
    | assumption
    | split
    | with_reducible apply Keeps.trans ?_ (State.leaveDone_keeps _ _)
    | with_reducible apply Keeps.trans ?_ (State.sendFrame_keeps _ _)
    | intro _
    | dsimp only

end Sys2Proof.Machine
end

