-- ==== Sys2Proof/Laws/KeepsSystem.lean ====
section
/-! SUPPORT. What every operation keeps (Laws/Keeps.lean): determinism, spares, power, observation, management, register access and the tick. -/

set_option linter.unusedTactic false
set_option linter.unreachableTactic false

set_option Elab.async false

namespace Sys2Proof.Machine

/-! ### Determinism -/

theorem State.askClock_keeps (a0 : State) (a1 : Nat) : Keeps a0 (State.askClock a0 a1) := by
  unfold State.askClock
  try dsimp only
  repeat'
    first
    | with_reducible apply Keeps.refl
    | assumption
    | simp only [Keeps.upd_iff]
    | split
    | intro _
    | dsimp only

theorem State.holdPlan_keeps (a0 : State) : Keeps a0 (State.holdPlan a0) := by
  unfold State.holdPlan
  try dsimp only
  repeat'
    first
    | with_reducible apply Keeps.refl
    | assumption
    | simp only [Keeps.upd_iff]
    | split
    | with_reducible apply Keeps.trans ?_ (State.askClock_keeps _ _)
    | intro _
    | dsimp only

theorem State.setModes_keeps (a0 : State) (a1 : Bool) (a2 : Bool) : Keeps a0 (State.setModes a0 a1 a2) := by
  unfold State.setModes
  try dsimp only
  repeat'
    first
    | with_reducible apply Keeps.refl
    | assumption
    | split
    | with_reducible apply Keeps.trans ?_ (State.setFlag_keeps _ _ _ _)
    | with_reducible apply Keeps.trans ?_ (State.holdPlan_keeps _)
    | intro _
    | dsimp only

theorem State.evtClear_keeps (a0 : State) : Keeps a0 (State.evtClear a0) := by
  unfold State.evtClear
  try dsimp only
  repeat'
    first
    | with_reducible apply Keeps.refl
    | assumption
    | split
    | with_reducible apply Keeps.trans ?_ (State.setFld_keeps _ _ _ _)
    | intro _
    | dsimp only

theorem State.modeRefuse_keeps (a0 : State) (a1 : Nat) : Keeps a0 (State.modeRefuse a0 a1) := by
  unfold State.modeRefuse
  try dsimp only
  repeat'
    first
    | with_reducible apply Keeps.refl
    | assumption
    | split
    | with_reducible apply Keeps.trans ?_ (State.raiseNo_keeps _ _ _ _)
    | with_reducible apply Keeps.trans ?_ (State.setFlag_keeps _ _ _ _)
    | intro _
    | dsimp only

theorem State.detWrite_keeps (a0 : State) (a1 : Sys2Proof.Origin) (a2 : Nat) : Keeps a0 (State.detWrite a0 a1
    a2) := by
  unfold State.detWrite
  try dsimp only
  repeat'
    first
    | with_reducible apply Keeps.refl
    | assumption
    | split
    | with_reducible apply Keeps.trans ?_ (State.access_keeps _ _ _ _ ?_)
    | with_reducible apply Keeps.trans ?_ (State.setModes_keeps _ _ _)
    | with_reducible apply Keeps.trans ?_ (State.modeRefuse_keeps _ _)
    | with_reducible apply Keeps.trans ?_ (State.audit!_keeps _ _ _ _ _ _ _ _)
    | with_reducible apply Keeps.trans ?_ (State.evtClear_keeps _)
    | intro _
    | dsimp only

theorem State.dumapChanged_keeps (a0 : State) (a1 : Nat) (a2 : Nat) : Keeps a0 (State.dumapChanged a0 a1 a2) :=
    by
  unfold State.dumapChanged
  try dsimp only
  repeat'
    first
    | with_reducible apply Keeps.refl
    | assumption
    | split
    | with_reducible apply Keeps.trans ?_ (State.satAdd_keeps _ _ _ _)
    | with_reducible apply Keeps.trans ?_ (State.raiseNo_keeps _ _ _ _)
    | with_reducible apply Keeps.trans ?_ (State.setFlag_keeps _ _ _ _)
    | intro _
    | dsimp only

theorem State.countTime_keeps (a0 : State) (a1 : Fld) : Keeps a0 (State.countTime a0 a1) := by
  unfold State.countTime
  try dsimp only
  repeat'
    first
    | with_reducible apply Keeps.refl
    | assumption
    | split
    | with_reducible apply Keeps.trans ?_ (State.setFlag_keeps _ _ _ _)
    | with_reducible apply Keeps.trans ?_ (State.satAdd_keeps _ _ _ _)
    | intro _
    | dsimp only

theorem State.timeRecord_keeps (a0 : State) (a1 : Nat) (a2 : Nat) (a3 : Nat) : Keeps a0 (State.timeRecord a0 a1
    a2 a3) := by
  unfold State.timeRecord
  try dsimp only
  repeat'
    first
    | with_reducible apply Keeps.refl
    | assumption
    | split
    | with_reducible apply Keeps.trans ?_ (State.raiseNo_keeps _ _ _ _)
    | intro _
    | dsimp only

theorem State.holdEvent_keeps (a0 : State) (a1 : Nat) (a2 : Nat) : Keeps a0 (State.holdEvent a0 a1 a2) := by
  unfold State.holdEvent
  try dsimp only
  repeat'
    first
    | with_reducible apply Keeps.refl
    | assumption
    | split
    | with_reducible apply Keeps.trans ?_ (State.timeRecord_keeps _ _ _ _)
    | with_reducible apply Keeps.trans ?_ (State.countTime_keeps _ _)
    | intro _
    | dsimp only

theorem State.overridden_keeps (a0 : State) (a1 : Nat) : Keeps a0 (State.overridden a0 a1) := by
  unfold State.overridden
  try dsimp only
  repeat'
    first
    | with_reducible apply Keeps.refl
    | assumption
    | split
    | with_reducible apply Keeps.trans ?_ (State.raiseNo_keeps _ _ _ _)
    | with_reducible apply Keeps.trans ?_ (State.setFlag_keeps _ _ _ _)
    | intro _
    | dsimp only

theorem State.changeClock_keeps (a0 : State) (a1 : Nat) : Keeps a0 (State.changeClock a0 a1) := by
  unfold State.changeClock
  try dsimp only
  repeat'
    first
    | with_reducible apply Keeps.refl
    | assumption
    | simp only [Keeps.upd_iff]
    | split
    | with_reducible apply Keeps.trans ?_ (State.setFld_keeps _ _ _ _)
    | with_reducible apply Keeps.trans ?_ (State.emit_keeps _ _)
    | with_reducible apply Keeps.foldl _ _ ?_ ?_
    | with_reducible apply Keeps.foldl_fst _ _ ?_ ?_
    | intro _
    | dsimp only

theorem State.doClockChange_keeps (a0 : State) : Keeps a0 (State.doClockChange a0) := by
  unfold State.doClockChange
  try dsimp only
  repeat'
    first
    | with_reducible apply Keeps.refl
    | assumption
    | split
    | with_reducible apply Keeps.trans ?_ (State.changeClock_keeps _ _)
    | intro _
    | dsimp only

theorem State.endStretch_keeps (a0 : State) : Keeps a0 (State.endStretch a0) := by
  unfold State.endStretch
  try dsimp only
  repeat'
    first
    | with_reducible apply Keeps.refl
    | assumption
    | simp only [Keeps.upd_iff]
    | split
    | with_reducible apply Keeps.trans ?_ (State.timeRecord_keeps _ _ _ _)
    | intro _
    | dsimp only

theorem State.beginStretch_keeps (a0 : State) (a1 : Nat) (a2 : Nat) : Keeps a0 (State.beginStretch a0 a1 a2) :=
    by
  unfold State.beginStretch
  try dsimp only
  repeat'
    first
    | with_reducible apply Keeps.refl
    | assumption
    | simp only [Keeps.upd_iff]
    | split
    | with_reducible apply Keeps.trans ?_ (State.countTime_keeps _ _)
    | intro _
    | dsimp only

theorem State.doStretch_keeps (a0 : State) : Keeps a0 (State.doStretch a0) := by
  unfold State.doStretch
  try dsimp only
  repeat'
    first
    | with_reducible apply Keeps.refl
    | assumption
    | simp only [Keeps.upd_iff]
    | split
    | with_reducible apply Keeps.trans ?_ (State.setFld_keeps _ _ _ _)
    | with_reducible apply Keeps.trans ?_ (State.beginStretch_keeps _ _ _)
    | with_reducible apply Keeps.trans ?_ (State.endStretch_keeps _)
    | with_reducible apply Keeps.trans ?_ (State.changeClock_keeps _ _)
    | intro _
    | dsimp only

/-! ### Spares -/

theorem fits_filter (P : Nat × Word → Bool) (t : Table Word)
    (h : t.all (fun p => decide (p.2.toNat < 2 ^ (Fld.ofNat (p.1 % 1024)).width)) = true) :
    (t.filter P).all (fun p => decide (p.2.toNat < 2 ^ (Fld.ofNat (p.1 % 1024)).width)) = true := by
  rw [List.all_eq_true] at h ⊢
  exact fun p hp => h p (List.mem_of_mem_filter hp)

theorem State.freshTiller_keeps (a0 : State) (a1 : Nat) : Keeps a0 (State.freshTiller a0 a1) :=
  ⟨rfl, fun h => Tbl.wf_filter _ _ _ h, fun h => fits_filter _ _ h⟩

theorem State.tillerAbsent_keeps (a0 : State) (a1 : Nat) (a2 : Nat) : Keeps a0 (State.tillerAbsent a0 a1 a2) :=
    by
  unfold State.tillerAbsent
  try dsimp only
  repeat'
    first
    | with_reducible apply Keeps.refl
    | assumption
    | simp only [Keeps.upd_iff]
    | split
    | with_reducible apply Keeps.trans ?_ (State.freshTiller_keeps _ _)
    | with_reducible apply Keeps.trans ?_ (State.raiseNo_keeps _ _ _ _)
    | intro _
    | dsimp only

theorem State.tillerMapped_keeps (a0 : State) (a1 : Nat) (a2 : Nat) (a3 : Nat) : Keeps a0 (State.tillerMapped a0
    a1 a2 a3) := by
  unfold State.tillerMapped
  try dsimp only
  repeat'
    first
    | with_reducible apply Keeps.refl
    | assumption
    | simp only [Keeps.upd_iff]
    | split
    | with_reducible apply Keeps.trans ?_ (State.freshTiller_keeps _ _)
    | with_reducible apply Keeps.trans ?_ (State.dumapChanged_keeps _ _ _)
    | with_reducible apply Keeps.trans ?_ (State.raiseNo_keeps _ _ _ _)
    | intro _
    | dsimp only

theorem State.replaceTiller_keeps (a0 : State) (a1 : Nat) (a2 : Nat) : Keeps a0 (State.replaceTiller a0 a1 a2)
    := by
  unfold State.replaceTiller
  try dsimp only
  repeat'
    first
    | with_reducible apply Keeps.refl
    | assumption
    | split
    | with_reducible apply Keeps.trans ?_ (State.tillerMapped_keeps _ _ _ _)
    | with_reducible apply Keeps.trans ?_ (State.satAdd_keeps _ _ _ _)
    | with_reducible apply Keeps.trans ?_ (State.tillerAbsent_keeps _ _ _)
    | intro _
    | dsimp only

theorem State.mapSpare_keeps (a0 : State) (a1 : Nat) (a2 : Nat) : Keeps a0 (State.mapSpare a0 a1 a2) := by
  unfold State.mapSpare
  try dsimp only
  repeat'
    first
    | with_reducible apply Keeps.refl
    | assumption
    | simp only [Keeps.upd_iff]
    | split
    | with_reducible apply Keeps.trans ?_ (State.setFlag_keeps _ _ _ _)
    | intro _
    | dsimp only

theorem State.mapDone_keeps (a0 : State) (a1 : Nat) : Keeps a0 (State.mapDone a0 a1) := by
  unfold State.mapDone
  try dsimp only
  repeat'
    first
    | with_reducible apply Keeps.refl
    | assumption
    | split
    | with_reducible apply Keeps.trans ?_ (State.replaceTiller_keeps _ _ _)
    | with_reducible apply Keeps.trans ?_ (State.setFlag_keeps _ _ _ _)
    | intro _
    | dsimp only

theorem State.fuseSheaf_keeps (a0 : State) (a1 : Nat) : Keeps a0 (State.fuseSheaf a0 a1) := by
  unfold State.fuseSheaf
  try dsimp only
  repeat'
    first
    | with_reducible apply Keeps.refl
    | assumption
    | simp only [Keeps.upd_iff]
    | split
    | with_reducible apply Keeps.foldl _ _ ?_ ?_
    | with_reducible apply Keeps.foldl_fst _ _ ?_ ?_
    | intro _
    | dsimp only

theorem rekey_all {α : Type} (f : Nat → Nat) (P : Nat × α → Bool) (t : Table α) (h : t.all P = true)
    (hf : ∀ p : Nat × α, P p = true → P (f p.1, p.2) = true) : (rekey f t).all P = true := by
  unfold rekey
  have key : ∀ (l d : Table α), l.all P = true → d.all P = true →
      (l.foldl (fun d p => Tbl.put d (f p.1) p.2) d).all P = true := by
    intro l
    induction l with
    | nil => exact fun d _ hd => hd
    | cons p l ih =>
      intro d hl hd
      rw [List.all_cons, Bool.and_eq_true] at hl
      exact ih _ hl.2 (Tbl.all_ins P _ _ _ (Tbl.all_del P _ _ hd) (hf p hl.1))
  exact key t [] h rfl

theorem rekey_sorted {α : Type} (f : Nat → Nat) (t : Table α) : Tbl.sorted (rekey f t) = true := by
  unfold rekey
  have key : ∀ (l d : Table α), Tbl.sorted d = true →
      Tbl.sorted (l.foldl (fun d p => Tbl.put d (f p.1) p.2) d) = true := by
    intro l
    induction l with
    | nil => exact fun d hd => hd
    | cons p l ih => exact fun d hd => ih _ (Tbl.sorted_put d _ _ hd)
  exact key t [] rfl

/-- A moved place holds the same field. -/

theorem movedReg_code (f : Nat → Nat) (k : Nat) : movedReg f k % 1024 = k % 1024 := by
  unfold movedReg
  split <;> simp only []
  omega

theorem State.moveTillers_keeps (a0 : State) (a1 : Nat → Nat) : Keeps a0 (State.moveTillers a0 a1) := by
  refine ⟨rfl, fun h => ?_, fun h => ?_⟩
  · simp only [Memory.wf, Tbl.wf, Bool.and_eq_true] at h ⊢
    exact ⟨rekey_sorted _ _, rekey_all _ _ _ h.2 (fun p hp => hp)⟩
  · exact rekey_all _ _ _ h (fun p hp => by simpa only [movedReg_code] using hp)

theorem State.renumber_keeps (a0 : State) (a1 : Nat) : Keeps a0 (State.renumber a0 a1) := by
  unfold State.renumber
  try dsimp only
  repeat'
    first
    | with_reducible apply Keeps.refl
    | assumption
    | simp only [Keeps.upd_iff]
    | split
    | with_reducible apply Keeps.trans ?_ (State.moveTillers_keeps _ _)
    | with_reducible apply Keeps.foldl _ _ ?_ ?_
    | with_reducible apply Keeps.foldl_fst _ _ ?_ ?_
    | intro _
    | dsimp only

theorem State.fenceSheaf_keeps (a0 : State) (a1 : Nat) : Keeps a0 (State.fenceSheaf a0 a1) := by
  unfold State.fenceSheaf
  try dsimp only
  repeat'
    first
    | with_reducible apply Keeps.refl
    | assumption
    | split
    | with_reducible apply Keeps.trans ?_ (State.raiseNo_keeps _ _ _ _)
    | with_reducible apply Keeps.trans ?_ (State.setFlag_keeps _ _ _ _)
    | with_reducible apply Keeps.trans ?_ (State.dumapChanged_keeps _ _ _)
    | with_reducible apply Keeps.trans ?_ (State.failWaits_keeps _ _ _)
    | with_reducible apply Keeps.foldl _ _ ?_ ?_
    | with_reducible apply Keeps.foldl_fst _ _ ?_ ?_
    | intro _
    | dsimp only

theorem State.fenceOnly_keeps (a0 : State) (a1 : Nat) : Keeps a0 (State.fenceOnly a0 a1) := by
  unfold State.fenceOnly
  try dsimp only
  repeat'
    first
    | with_reducible apply Keeps.refl
    | assumption
    | split
    | with_reducible apply Keeps.trans ?_ (State.setBit_keeps _ _ _ _)
    | intro _
    | dsimp only

theorem State.relayStack_keeps (a0 : State) (a1 : Nat) : Keeps a0 (State.relayStack a0 a1) := by
  unfold State.relayStack
  try dsimp only
  repeat'
    first
    | with_reducible apply Keeps.refl
    | assumption
    | simp only [Keeps.upd_iff]
    | split
    | with_reducible apply Keeps.trans ?_ (State.fenceOnly_keeps _ _)
    | intro _
    | dsimp only

theorem State.logLost_keeps (a0 : State) (a1 : Nat) : Keeps a0 (State.logLost a0 a1) := by
  unfold State.logLost
  try dsimp only
  repeat'
    first
    | with_reducible apply Keeps.refl
    | assumption
    | simp only [Keeps.upd_iff]
    | split
    | with_reducible apply Keeps.trans ?_ (State.raiseCtx_keeps _ _ _ _ _)
    | with_reducible apply Keeps.trans ?_ (State.setFlag_keeps _ _ _ _)
    | intro _
    | dsimp only

theorem State.fenceStack_keeps (a0 : State) (a1 : Nat) : Keeps a0 (State.fenceStack a0 a1) := by
  unfold State.fenceStack
  try dsimp only
  repeat'
    first
    | with_reducible apply Keeps.refl
    | assumption
    | simp only [Keeps.upd_iff]
    | split
    | with_reducible apply Keeps.trans ?_ (State.fenceOnly_keeps _ _)
    | with_reducible apply Keeps.trans ?_ (State.logLost_keeps _ _)
    | with_reducible apply Keeps.trans ?_ (State.setFlag_keeps _ _ _ _)
    | intro _
    | dsimp only

theorem State.relayInService_keeps (s : State) (h : Nat) : Keeps s (State.relayInService s h) := by
  unfold State.relayInService
  refine Keeps.trans ?_ (State.relayStack_keeps ..)
  exact ⟨rfl, fun h => Tbl.wf_filter _ _ _ h, id⟩

theorem State.relayEdge_keeps (a0 : State) : Keeps a0 (State.relayEdge a0) := by
  unfold State.relayEdge
  try dsimp only
  repeat'
    first
    | with_reducible apply Keeps.refl
    | assumption
    | split
    | with_reducible apply Keeps.trans ?_ (State.useFree_keeps _)
    | with_reducible apply Keeps.trans ?_ (State.relayInService_keeps _ _)
    | with_reducible apply Keeps.foldl _ _ ?_ ?_
    | with_reducible apply Keeps.foldl_fst _ _ ?_ ?_
    | intro _
    | dsimp only

/-! ### Resilience -/

theorem State.connectionLost_keeps (a0 : State) (a1 : Sys2Proof.D2d) : Keeps a0 (State.connectionLost a0 a1) :=
    by
  unfold State.connectionLost
  try dsimp only
  repeat'
    first
    | with_reducible apply Keeps.refl
    | assumption
    | simp only [Keeps.upd_iff]
    | split
    | with_reducible apply Keeps.trans ?_ (State.fenceSheaf_keeps _ _)
    | with_reducible apply Keeps.trans ?_ (State.doModuleLost_keeps _ _ _)
    | intro _
    | dsimp only

theorem State.laneRepair_keeps (a0 : State) (a1 : Sys2Proof.D2d) (a2 : Nat) : Keeps a0 (State.laneRepair a0 a1
    a2) := by
  unfold State.laneRepair
  try dsimp only
  repeat'
    first
    | with_reducible apply Keeps.refl
    | assumption
    | simp only [Keeps.upd_iff]
    | split
    | with_reducible apply Keeps.trans ?_ (State.connectionLost_keeps _ _)
    | intro _
    | dsimp only

theorem State.spareCmd_keeps (a0 : State) (a1 : Sys2Proof.Origin) (a2 : Nat) (a3 : Nat) (a4 : Nat) (a5 : State →
    State) (h5 : ∀ x0, Keeps x0 (a5 x0)) : Keeps a0 (State.spareCmd a0 a1 a2 a3 a4 a5) := by
  unfold State.spareCmd
  try dsimp only
  repeat'
    first
    | with_reducible apply Keeps.refl
    | assumption
    | split
    | with_reducible apply Keeps.trans ?_ (State.regCmd_keeps _ _ _ _ _ _ ?_)
    | with_reducible apply Keeps.trans ?_ (State.setFld_keeps _ _ _ _)
    | with_reducible apply Keeps.trans ?_ (h5 _)
    | intro _
    | dsimp only

theorem State.syncValue_keeps (a0 : State) : Keeps a0 (State.syncValue a0).1 := by
  unfold State.syncValue
  try dsimp only
  repeat'
    first
    | with_reducible apply Keeps.refl
    | assumption
    | split
    | with_reducible apply Keeps.trans ?_ (State.glumeXlat_keeps _ _ _ _)
    | with_reducible apply Keeps.trans ?_ (State.raiseGlume_keeps _ _ _ _ _)
    | intro _
    | dsimp only
    | (with_reducible apply State.glumeXlat_of; assumption)

theorem State.syncValue_of {a0 : State} {t : State} {r : Nat}
    (h : State.syncValue a0 = (t, r))
    {s : State} (k : Keeps s a0) : Keeps s t := by
  have := State.syncValue_keeps a0
  rw [h] at this
  exact k.trans this

theorem State.mirrorCtrl_keeps (a0 : State) (a1 : Nat) (a2 : Nat) : Keeps a0 (State.mirrorCtrl a0 a1 a2) := by
  unfold State.mirrorCtrl
  try dsimp only
  repeat'
    first
    | with_reducible apply Keeps.refl
    | assumption
    | simp only [Keeps.upd_iff]
    | split
    | with_reducible apply Keeps.trans ?_ (State.writeFld_keeps _ _ _ _ _)
    | with_reducible apply Keeps.trans ?_ (State.writeReg_keeps _ _ _ _ _)
    | with_reducible apply Keeps.trans ?_ (State.syncValue_keeps _)
    | intro _
    | dsimp only
    | (with_reducible apply State.syncValue_of; assumption)

theorem State.sendBlock_keeps (a0 : State) (a1 : Nat) : Keeps a0 (State.sendBlock a0 a1) := by
  unfold State.sendBlock
  try dsimp only
  repeat'
    first
    | with_reducible apply Keeps.refl
    | assumption
    | split
    | with_reducible apply Keeps.trans ?_ (State.memRead_keeps _ _ _ _)
    | with_reducible apply Keeps.trans ?_ (State.queuePkt_keeps _ _ _)
    | with_reducible apply Keeps.trans ?_ (State.count_keeps _ _ _)
    | with_reducible apply Keeps.foldl _ _ ?_ ?_
    | with_reducible apply Keeps.foldl_fst _ _ ?_ ?_
    | intro _
    | dsimp only
    | (with_reducible apply State.memRead_of; assumption)

theorem State.doSync_keeps (a0 : State) : Keeps a0 (State.doSync a0) := by
  unfold State.doSync
  try dsimp only
  repeat'
    first
    | with_reducible apply Keeps.refl
    | assumption
    | simp only [Keeps.upd_iff]
    | split
    | with_reducible apply Keeps.trans ?_ (State.syncValue_keeps _)
    | with_reducible apply Keeps.trans ?_ (State.sendBlock_keeps _ _)
    | with_reducible apply Keeps.foldl _ _ ?_ ?_
    | with_reducible apply Keeps.foldl_fst _ _ ?_ ?_
    | intro _
    | dsimp only
    | (with_reducible apply State.syncValue_of; assumption)

theorem State.doSyncDone_keeps (a0 : State) : Keeps a0 (State.doSyncDone a0) := by
  unfold State.doSyncDone
  try dsimp only
  repeat'
    first
    | with_reducible apply Keeps.refl
    | assumption
    | simp only [Keeps.upd_iff]
    | split
    | with_reducible apply Keeps.trans ?_ (State.sendSignal_keeps _ _ _ _ _)
    | with_reducible apply Keeps.trans ?_ (State.wrapAdd_keeps _ _ _ _)
    | intro _
    | dsimp only

theorem State.doCommit_keeps (a0 : State) (a1 : Nat) : Keeps a0 (State.doCommit a0 a1) := by
  unfold State.doCommit
  try dsimp only
  repeat'
    first
    | with_reducible apply Keeps.refl
    | assumption
    | simp only [Keeps.upd_iff]
    | split
    | with_reducible apply Keeps.trans ?_ (State.raiseNo_keeps _ _ _ _)
    | with_reducible apply Keeps.trans ?_ (State.setFlag_keeps _ _ _ _)
    | with_reducible apply Keeps.trans ?_ (State.wrote_keeps _ _ _)
    | with_reducible apply Keeps.trans ?_ (State.memWriteCells_keeps _ _ _)
    | with_reducible apply Keeps.trans ?_ (State.memWrite_keeps _ _ _ _)
    | with_reducible apply Keeps.trans ?_ (State.useFree_keeps _)
    | intro _
    | dsimp only

theorem State.doNeighbourLost_keeps (a0 : State) : Keeps a0 (State.doNeighbourLost a0) := by
  unfold State.doNeighbourLost
  try dsimp only
  repeat'
    first
    | with_reducible apply Keeps.refl
    | assumption
    | split
    | with_reducible apply Keeps.trans ?_ (State.raiseNo_keeps _ _ _ _)
    | intro _
    | dsimp only

theorem State.trimQueue_keeps (a0 : State) (a1 : Nat) : Keeps a0 (State.trimQueue a0 a1) := by
  unfold State.trimQueue
  try dsimp only
  repeat'
    first
    | with_reducible apply Keeps.refl
    | assumption
    | split
    | with_reducible apply Keeps.trans ?_ (State.setTil_keeps _ _ _)
    | intro _
    | dsimp only

theorem State.flowTrim_keeps (a0 : State) (a1 : Nat) : Keeps a0 (State.flowTrim a0 a1) := by
  unfold State.flowTrim
  try dsimp only
  repeat'
    first
    | with_reducible apply Keeps.refl
    | assumption
    | split
    | with_reducible apply Keeps.trans ?_ (State.setFld_keeps _ _ _ _)
    | with_reducible apply Keeps.trans ?_ (State.setRecvFlow_keeps _ _ _)
    | with_reducible apply Keeps.trans ?_ (State.discardMirror_keeps _ _)
    | with_reducible apply Keeps.trans ?_ (State.trimQueue_keeps _ _)
    | intro _
    | dsimp only

theorem State.flowSkip_keeps (a0 : State) (a1 : Nat) (a2 : Nat) : Keeps a0 (State.flowSkip a0 a1 a2) := by
  unfold State.flowSkip
  try dsimp only
  repeat'
    first
    | with_reducible apply Keeps.refl
    | assumption
    | split
    | with_reducible apply Keeps.trans ?_ (State.setFld_keeps _ _ _ _)
    | with_reducible apply Keeps.trans ?_ (State.setSendFlow_keeps _ _ _)
    | intro _
    | dsimp only

theorem State.logReplay_keeps (a0 : State) (a1 : Nat) : Keeps a0 (State.logReplay a0 a1) := by
  unfold State.logReplay
  try dsimp only
  repeat'
    first
    | with_reducible apply Keeps.refl
    | assumption
    | split
    | with_reducible apply Keeps.trans ?_ (State.setFld_keeps _ _ _ _)
    | with_reducible apply Keeps.trans ?_ (State.setSendFlow_keeps _ _ _)
    | with_reducible apply Keeps.trans ?_ (State.raiseCtx_keeps _ _ _ _ _)
    | with_reducible apply Keeps.trans ?_ (State.setFlag_keeps _ _ _ _)
    | intro _
    | dsimp only

theorem State.doReplayDone_keeps (a0 : State) : Keeps a0 (State.doReplayDone a0) := by
  unfold State.doReplayDone
  try dsimp only
  repeat'
    first
    | with_reducible apply Keeps.refl
    | assumption
    | split
    | with_reducible apply Keeps.trans ?_ (State.setFlag_keeps _ _ _ _)
    | intro _
    | dsimp only

theorem State.marginCheck_keeps (a0 : State) (a1 : Fld) (a2 : Fld) (a3 : Nat) (a4 : Nat) (a5 : Nat) (a6 : Nat)
    (a7 : Nat) : Keeps a0 (State.marginCheck a0 a1 a2 a3 a4 a5 a6 a7) := by
  unfold State.marginCheck
  try dsimp only
  repeat'
    first
    | with_reducible apply Keeps.refl
    | assumption
    | split
    | with_reducible apply Keeps.trans ?_ (State.raiseNo_keeps _ _ _ _)
    | with_reducible apply Keeps.trans ?_ (State.setFlag_keeps _ _ _ _)
    | intro _
    | dsimp only

theorem State.marginOne_keeps (a0 : State) (a1 : Sys2Proof.MarginReading) : Keeps a0 (State.marginOne a0 a1) :=
    by
  unfold State.marginOne
  try dsimp only
  repeat'
    first
    | with_reducible apply Keeps.refl
    | assumption
    | split
    | with_reducible apply Keeps.trans ?_ (State.marginCheck_keeps _ _ _ _ _ _ _ _)
    | with_reducible apply Keeps.trans ?_ (State.setFld_keeps _ _ _ _)
    | with_reducible apply Keeps.trans ?_ (State.doSymbolFail_keeps _ _ _)
    | intro _
    | dsimp only

theorem State.marginWorst_keeps (a0 : State) (a1 : List Sys2Proof.MarginReading) : Keeps a0 (State.marginWorst
    a0 a1) := by
  unfold State.marginWorst
  try dsimp only
  repeat'
    first
    | with_reducible apply Keeps.refl
    | assumption
    | split
    | with_reducible apply Keeps.trans ?_ (State.setFld_keeps _ _ _ _)
    | with_reducible apply Keeps.foldl _ _ ?_ ?_
    | with_reducible apply Keeps.foldl_fst _ _ ?_ ?_
    | intro _
    | dsimp only

theorem State.marginTaken_keeps (a0 : State) : Keeps a0 (State.marginTaken a0) := by
  unfold State.marginTaken
  simp only [Keeps.upd_iff]
  exact Keeps.refl _

theorem State.doMargins_keeps (a0 : State) (a1 : List Sys2Proof.MarginReading) : Keeps a0 (State.doMargins a0
    a1) := by
  unfold State.doMargins
  try dsimp only
  repeat'
    first
    | with_reducible apply Keeps.refl
    | assumption
    | split
    | with_reducible apply Keeps.trans ?_ (State.marginOne_keeps _ _)
    | with_reducible apply Keeps.trans ?_ (State.marginWorst_keeps _ _)
    | with_reducible apply Keeps.trans ?_ (State.marginTaken_keeps _)
    | with_reducible apply Keeps.foldl _ _ ?_ ?_
    | with_reducible apply Keeps.foldl_fst _ _ ?_ ?_
    | intro _
    | dsimp only

/-! ### Startup -/

theorem State.releaseSwitches_keeps (a0 : State) : Keeps a0 (State.releaseSwitches a0) := by
  unfold State.releaseSwitches
  try dsimp only
  repeat'
    first
    | with_reducible apply Keeps.refl
    | assumption
    | split
    | with_reducible apply Keeps.trans ?_ (State.driveSwitch_keeps _ _ _)
    | with_reducible apply Keeps.foldl _ _ ?_ ?_
    | with_reducible apply Keeps.foldl_fst _ _ ?_ ?_
    | intro _
    | dsimp only

theorem State.resetMain_keeps (a0 : State) : Keeps a0 (State.resetMain a0) := by
  refine (State.releaseSwitches_keeps a0).trans ?_
  exact ⟨rfl, fun h => Tbl.wf_filter _ _ _ h, fun h => fits_filter _ _ h⟩

theorem State.fillAllow_keeps (a0 : State) (a1 : Nat) (a2 : Nat) : Keeps a0 (State.fillAllow a0 a1 a2) := by
  unfold State.fillAllow
  try dsimp only
  repeat'
    first
    | with_reducible apply Keeps.refl
    | assumption
    | split
    | with_reducible apply Keeps.trans ?_ (State.setFld_keeps _ _ _ _)
    | intro _
    | dsimp only

theorem State.loadAllow_keeps (a0 : State) : Keeps a0 (State.loadAllow a0) := by
  unfold State.loadAllow
  try dsimp only
  repeat'
    first
    | with_reducible apply Keeps.refl
    | assumption
    | split
    | with_reducible apply Keeps.trans ?_ (State.fillAllow_keeps _ _ _)
    | with_reducible apply Keeps.trans ?_ (State.setFlag_keeps _ _ _ _)
    | with_reducible apply Keeps.trans ?_ (State.setFld_keeps _ _ _ _)
    | with_reducible apply Keeps.foldl _ _ ?_ ?_
    | with_reducible apply Keeps.foldl_fst _ _ ?_ ?_
    | intro _
    | dsimp only

theorem State.startFirmware_keeps (a0 : State) : Keeps a0 (State.startFirmware a0) := by
  unfold State.startFirmware
  try dsimp only
  repeat'
    first
    | with_reducible apply Keeps.refl
    | assumption
    | simp only [Keeps.upd_iff]
    | split
    | with_reducible apply Keeps.trans ?_ (State.loadAllow_keeps _)
    | with_reducible apply Keeps.trans ?_ (State.setFld_keeps _ _ _ _)
    | with_reducible apply Keeps.trans ?_ (State.setFlag_keeps _ _ _ _)
    | intro _
    | dsimp only

theorem State.railsUp_keeps (a0 : State) : Keeps a0 (State.railsUp a0) := by
  unfold State.railsUp
  exact ((((State.emit_keeps _ _).trans (State.emit_keeps _ _)).trans (State.emit_keeps _ _)).trans
    (State.emit_keeps _ _)).trans (State.emit_keeps _ _)

theorem State.railsDown_keeps (a0 : State) : Keeps a0 (State.railsDown a0) := by
  unfold State.railsDown
  exact ((((State.emit_keeps _ _).trans (State.emit_keeps _ _)).trans (State.emit_keeps _ _)).trans
    (State.emit_keeps _ _)).trans (State.emit_keeps _ _)

theorem State.mainOff_keeps (a0 : State) : Keeps a0 (State.mainOff a0) := by
  unfold State.mainOff
  try dsimp only
  repeat'
    first
    | with_reducible apply Keeps.refl
    | assumption
    | split
    | with_reducible apply Keeps.trans ?_ (State.railsDown_keeps _)
    | with_reducible apply Keeps.trans ?_ (State.emit_keeps _ _)
    | with_reducible apply Keeps.trans ?_ (State.resetMain_keeps _)
    | intro _
    | dsimp only

theorem State.relock_keeps (a0 : State) : Keeps a0 (State.relock a0) := by
  unfold State.relock
  split
  · exact (State.setFlag_keeps _ _ _ _).trans (State.audit!_keeps ..)
  · exact Keeps.refl _

theorem State.releaseMain_keeps (a0 : State) : Keeps a0 (State.releaseMain a0) := by
  unfold State.releaseMain
  try dsimp only
  repeat'
    first
    | with_reducible apply Keeps.refl
    | assumption
    | simp only [Keeps.upd_iff]
    | split
    | with_reducible apply Keeps.trans ?_ (State.relock_keeps _)
    | with_reducible apply Keeps.trans ?_ (State.emit_keeps _ _)
    | with_reducible apply Keeps.trans ?_ (State.setFld_keeps _ _ _ _)
    | with_reducible apply Keeps.trans ?_ (State.startFirmware_keeps _)
    | intro _
    | dsimp only

theorem State.doMainRelease_keeps (a0 : State) : Keeps a0 (State.doMainRelease a0) := by
  unfold State.doMainRelease
  try dsimp only
  repeat'
    first
    | with_reducible apply Keeps.refl
    | assumption
    | simp only [Keeps.upd_iff]
    | split
    | with_reducible apply Keeps.trans ?_ (State.releaseMain_keeps _)
    | intro _
    | dsimp only

theorem State.leaveAll_keeps (a0 : State) : Keeps a0 (State.leaveAll a0) := by
  unfold State.leaveAll
  try dsimp only
  repeat'
    first
    | with_reducible apply Keeps.refl
    | assumption
    | split
    | with_reducible apply Keeps.trans ?_ (State.leave_keeps _ _)
    | with_reducible apply Keeps.foldl _ _ ?_ ?_
    | with_reducible apply Keeps.foldl_fst _ _ ?_ ?_
    | intro _
    | dsimp only

theorem State.shutdown_keeps (a0 : State) (a1 : Nat) : Keeps a0 (State.shutdown a0 a1) := by
  unfold State.shutdown
  try dsimp only
  repeat'
    first
    | with_reducible apply Keeps.refl
    | assumption
    | split
    | with_reducible apply Keeps.trans ?_ (State.setFld_keeps _ _ _ _)
    | with_reducible apply Keeps.trans ?_ (State.leaveAll_keeps _)
    | with_reducible apply Keeps.trans ?_ (State.mainOff_keeps _)
    | with_reducible apply Keeps.trans ?_ (State.raiseNo_keeps _ _ _ _)
    | with_reducible apply Keeps.trans ?_ (State.releaseSwitches_keeps _)
    | intro _
    | dsimp only

theorem State.doInputLow_keeps (a0 : State) : Keeps a0 (State.doInputLow a0) := by
  unfold State.doInputLow
  try dsimp only
  repeat'
    first
    | with_reducible apply Keeps.refl
    | assumption
    | simp only [Keeps.upd_iff]
    | split
    | with_reducible apply Keeps.trans ?_ (State.shutdown_keeps _ _)
    | intro _
    | dsimp only

theorem State.doUnseated_keeps (a0 : State) : Keeps a0 (State.doUnseated a0) := by
  unfold State.doUnseated
  try dsimp only
  repeat'
    first
    | with_reducible apply Keeps.refl
    | assumption
    | simp only [Keeps.upd_iff]
    | split
    | with_reducible apply Keeps.trans ?_ (State.shutdown_keeps _ _)
    | intro _
    | dsimp only

theorem State.doStartBrownout_keeps (a0 : State) : Keeps a0 (State.doStartBrownout a0) := by
  unfold State.doStartBrownout
  try dsimp only
  repeat'
    first
    | with_reducible apply Keeps.refl
    | assumption
    | split
    | with_reducible apply Keeps.trans ?_ (State.mainOff_keeps _)
    | intro _
    | dsimp only

theorem State.doOvervoltage_keeps (a0 : State) : Keeps a0 (State.doOvervoltage a0) := by
  unfold State.doOvervoltage
  try dsimp only
  repeat'
    first
    | with_reducible apply Keeps.refl
    | assumption
    | simp only [Keeps.upd_iff]
    | split
    | with_reducible apply Keeps.trans ?_ (State.raiseNo_keeps _ _ _ _)
    | with_reducible apply Keeps.trans ?_ (State.mainOff_keeps _)
    | intro _
    | dsimp only

theorem State.doAuxRise_keeps (a0 : State) (a1 : BitVec 3) : Keeps a0 (State.doAuxRise a0 a1) := by
  unfold State.doAuxRise
  try dsimp only
  repeat'
    first
    | with_reducible apply Keeps.refl
    | assumption
    | simp only [Keeps.upd_iff]
    | split
    | intro _
    | dsimp only

theorem State.doAuxLost_keeps (a0 : State) : Keeps a0 (State.doAuxLost a0) := by
  unfold State.doAuxLost
  try dsimp only
  repeat'
    first
    | with_reducible apply Keeps.refl
    | assumption
    | simp only [Keeps.upd_iff]
    | split
    | with_reducible apply Keeps.trans ?_ (State.raiseNo_keeps _ _ _ _)
    | with_reducible apply Keeps.trans ?_ (State.setFlag_keeps _ _ _ _)
    | intro _
    | dsimp only

theorem State.doAuxReturn_keeps (a0 : State) : Keeps a0 (State.doAuxReturn a0) := by
  unfold State.doAuxReturn
  try dsimp only
  repeat'
    first
    | with_reducible apply Keeps.refl
    | assumption
    | simp only [Keeps.upd_iff]
    | split
    | with_reducible apply Keeps.trans ?_ (State.raiseNo_keeps _ _ _ _)
    | with_reducible apply Keeps.trans ?_ (State.setFlag_keeps _ _ _ _)
    | intro _
    | dsimp only

theorem State.flashOne_keeps (a0 : State) (a1 : Nat) : Keeps a0 (State.flashOne a0 a1) := by
  unfold State.flashOne
  try dsimp only
  repeat'
    first
    | with_reducible apply Keeps.refl
    | assumption
    | simp only [Keeps.upd_iff]
    | split
    | intro _
    | dsimp only

theorem State.auditFlush_keeps (a0 : State) : Keeps a0 (State.auditFlush a0) := by
  unfold State.auditFlush
  try dsimp only
  repeat'
    first
    | with_reducible apply Keeps.refl
    | assumption
    | split
    | with_reducible apply Keeps.trans ?_ (State.setFld_keeps _ _ _ _)
    | with_reducible apply Keeps.trans ?_ (State.flashOne_keeps _ _)
    | with_reducible apply Keeps.trans ?_ (State.raiseNo_keeps _ _ _ _)
    | with_reducible apply Keeps.trans ?_ (State.setFlag_keeps _ _ _ _)
    | with_reducible apply Keeps.foldl _ _ ?_ ?_
    | with_reducible apply Keeps.foldl_fst _ _ ?_ ?_
    | intro _
    | dsimp only

theorem State.doHoldup_keeps (a0 : State) : Keeps a0 (State.doHoldup a0) := by
  unfold State.doHoldup
  split
  · exact Keeps.refl _
  · refine ((State.auditFlush_keeps a0).trans (State.mainOff_keeps _)).trans ?_
    exact ⟨rfl, id, fun h => fits_filter _ _ h⟩

theorem State.moduleReset_keeps (a0 : State) : Keeps a0 (State.moduleReset a0) := by
  unfold State.moduleReset
  try dsimp only
  repeat'
    first
    | with_reducible apply Keeps.refl
    | assumption
    | simp only [Keeps.upd_iff]
    | split
    | with_reducible apply Keeps.trans ?_ (State.relock_keeps _)
    | with_reducible apply Keeps.trans ?_ (State.resetMain_keeps _)
    | with_reducible apply Keeps.trans ?_ (State.leaveAll_keeps _)
    | with_reducible apply Keeps.trans ?_ (State.setFld_keeps _ _ _ _)
    | with_reducible apply Keeps.trans ?_ (State.startFirmware_keeps _)
    | intro _
    | dsimp only

theorem State.doPerst_keeps (a0 : State) : Keeps a0 (State.doPerst a0) := by
  unfold State.doPerst
  try dsimp only
  repeat'
    first
    | with_reducible apply Keeps.refl
    | assumption
    | simp only [Keeps.upd_iff]
    | split
    | with_reducible apply Keeps.trans ?_ (State.wakeUp_keeps _ _)
    | with_reducible apply Keeps.trans ?_ (State.doCtxReset_keeps _ _ _)
    | with_reducible apply Keeps.foldl _ _ ?_ ?_
    | with_reducible apply Keeps.foldl_fst _ _ ?_ ?_
    | intro _
    | dsimp only

theorem State.hostTrains_keeps (a0 : State) : Keeps a0 (State.hostTrains a0) := by
  unfold State.hostTrains
  try dsimp only
  repeat'
    first
    | with_reducible apply Keeps.refl
    | assumption
    | simp only [Keeps.upd_iff]
    | split
    | with_reducible apply Keeps.trans ?_ (State.setFlag_keeps _ _ _ _)
    | intro _
    | dsimp only

theorem State.hostChooses_keeps (a0 : State) (a1 : Bool) (a2 : Option (Fin 10)) (a3 : Nat) (a4 : Nat) : Keeps a0
    (State.hostChooses a0 a1 a2 a3 a4) := by
  unfold State.hostChooses
  try dsimp only
  repeat'
    first
    | with_reducible apply Keeps.refl
    | assumption
    | simp only [Keeps.upd_iff]
    | split
    | intro _
    | dsimp only

theorem State.startRaise_keeps (a0 : State) (a1 : Nat) (a2 : Nat) : Keeps a0 (State.startRaise a0 a1 a2) := by
  unfold State.startRaise
  try dsimp only
  repeat'
    first
    | with_reducible apply Keeps.refl
    | assumption
    | split
    | with_reducible apply Keeps.trans ?_ (State.raiseNo_keeps _ _ _ _)
    | intro _
    | dsimp only

theorem State.startOff_keeps (a0 : State) (a1 : Nat) : Keeps a0 (State.startOff a0 a1) := by
  unfold State.startOff
  try dsimp only
  repeat'
    first
    | with_reducible apply Keeps.refl
    | assumption
    | simp only [Keeps.upd_iff]
    | split
    | with_reducible apply Keeps.trans ?_ (State.mainOff_keeps _)
    | with_reducible apply Keeps.trans ?_ (State.startRaise_keeps _ _ _)
    | intro _
    | dsimp only

theorem State.tillerFails_keeps (a0 : State) (a1 : Nat) (a2 : Nat) (a3 : Nat) : Keeps a0 (State.tillerFails a0
    a1 a2 a3) := by
  unfold State.tillerFails
  try dsimp only
  repeat'
    first
    | with_reducible apply Keeps.refl
    | assumption
    | simp only [Keeps.upd_iff]
    | split
    | with_reducible apply Keeps.trans ?_ (State.startRaise_keeps _ _ _)
    | with_reducible apply Keeps.trans ?_ (State.replaceTiller_keeps _ _ _)
    | intro _
    | dsimp only

theorem State.tillersFail_keeps (a0 : State) (a1 : Nat) (a2 : List Sys2Proof.StartFault) : Keeps a0
    (State.tillersFail a0 a1 a2) := by
  unfold State.tillersFail
  try dsimp only
  repeat'
    first
    | with_reducible apply Keeps.refl
    | assumption
    | split
    | with_reducible apply Keeps.trans ?_ (State.tillerFails_keeps _ _ _ _)
    | with_reducible apply Keeps.foldl _ _ ?_ ?_
    | with_reducible apply Keeps.foldl_fst _ _ ?_ ?_
    | intro _
    | dsimp only

theorem State.startFar_keeps (a0 : State) : Keeps a0 (State.startFar a0) := by
  unfold State.startFar
  try dsimp only
  repeat'
    first
    | with_reducible apply Keeps.refl
    | assumption
    | simp only [Keeps.upd_iff]
    | split
    | with_reducible apply Keeps.trans ?_ (State.setFld_keeps _ _ _ _)
    | with_reducible apply Keeps.trans ?_ (State.useFree_keeps _)
    | intro _
    | dsimp only

theorem State.startClocks_keeps (a0 : State) (a1 : List Sys2Proof.StartFault) : Keeps a0 (State.startClocks a0
    a1) := by
  unfold State.startClocks
  try dsimp only
  repeat'
    first
    | with_reducible apply Keeps.refl
    | assumption
    | simp only [Keeps.upd_iff]
    | split
    | with_reducible apply Keeps.trans ?_ (State.startRaise_keeps _ _ _)
    | with_reducible apply Keeps.trans ?_ (State.setFld_keeps _ _ _ _)
    | with_reducible apply Keeps.trans ?_ (State.emit_keeps _ _)
    | with_reducible apply Keeps.trans ?_ (State.hostTrains_keeps _)
    | with_reducible apply Keeps.trans ?_ (State.startFar_keeps _)
    | with_reducible apply Keeps.foldl _ _ ?_ ?_
    | with_reducible apply Keeps.foldl_fst _ _ ?_ ?_
    | intro _
    | dsimp only

theorem State.startFuses_keeps (a0 : State) (a1 : List Sys2Proof.StartFault) : Keeps a0 (State.startFuses a0 a1)
    := by
  unfold State.startFuses
  try dsimp only
  repeat'
    first
    | with_reducible apply Keeps.refl
    | assumption
    | simp only [Keeps.upd_iff]
    | split
    | with_reducible apply Keeps.trans ?_ (State.fenceSheaf_keeps _ _)
    | with_reducible apply Keeps.trans ?_ (State.startRaise_keeps _ _ _)
    | with_reducible apply Keeps.trans ?_ (State.connectionLost_keeps _ _)
    | with_reducible apply Keeps.trans ?_ (State.laneRepair_keeps _ _ _)
    | with_reducible apply Keeps.foldl _ _ ?_ ?_
    | with_reducible apply Keeps.foldl_fst _ _ ?_ ?_
    | intro _
    | dsimp only

theorem State.startHbm_keeps (a0 : State) (a1 : List Sys2Proof.StartFault) : Keeps a0 (State.startHbm a0 a1) :=
    by
  unfold State.startHbm
  try dsimp only
  repeat'
    first
    | with_reducible apply Keeps.refl
    | assumption
    | split
    | with_reducible apply Keeps.trans ?_ (State.relayStack_keeps _ _)
    | with_reducible apply Keeps.trans ?_ (State.startRaise_keeps _ _ _)
    | with_reducible apply Keeps.foldl _ _ ?_ ?_
    | with_reducible apply Keeps.foldl_fst _ _ ?_ ?_
    | intro _
    | dsimp only

theorem State.startGuests_keeps (a0 : State) (a1 : List Sys2Proof.StartFault) (a2 : List Sys2Proof.GuestInfo) :
    Keeps a0 (State.startGuests a0 a1 a2) := by
  unfold State.startGuests
  try dsimp only
  repeat'
    first
    | with_reducible apply Keeps.refl
    | assumption
    | split
    | with_reducible apply Keeps.trans ?_ (State.startRaise_keeps _ _ _)
    | with_reducible apply Keeps.trans ?_ (State.guestRefuse_keeps _ _ _ _)
    | with_reducible apply Keeps.trans ?_ (State.acceptGuest_keeps _ _ _)
    | with_reducible apply Keeps.foldl _ _ ?_ ?_
    | with_reducible apply Keeps.foldl_fst _ _ ?_ ?_
    | intro _
    | dsimp only

theorem State.startPlan_keeps (a0 : State) (a1 : List Sys2Proof.StartFault) : Keeps a0 (State.startPlan a0 a1)
    := by
  unfold State.startPlan
  try dsimp only
  repeat'
    first
    | with_reducible apply Keeps.refl
    | assumption
    | split
    | with_reducible apply Keeps.trans ?_ (State.overridden_keeps _ _)
    | with_reducible apply Keeps.trans ?_ (State.startRaise_keeps _ _ _)
    | with_reducible apply Keeps.trans ?_ (State.changeClock_keeps _ _)
    | with_reducible apply Keeps.trans ?_ (State.raiseNo_keeps _ _ _ _)
    | with_reducible apply Keeps.trans ?_ (State.setFlag_keeps _ _ _ _)
    | intro _
    | dsimp only

theorem State.startPorts_keeps (a0 : State) (a1 : List Sys2Proof.StartFault) : Keeps a0 (State.startPorts a0 a1)
    := by
  unfold State.startPorts
  try dsimp only
  repeat'
    first
    | with_reducible apply Keeps.refl
    | assumption
    | split
    | with_reducible apply Keeps.trans ?_ (State.driveSwitch_keeps _ _ _)
    | with_reducible apply Keeps.trans ?_ (State.startRaise_keeps _ _ _)
    | with_reducible apply Keeps.trans ?_ (State.setPortState_keeps _ _ _)
    | with_reducible apply Keeps.trans ?_ (State.setPort_keeps _ _ _)
    | with_reducible apply Keeps.foldl _ _ ?_ ?_
    | with_reducible apply Keeps.foldl_fst _ _ ?_ ?_
    | intro _
    | dsimp only

theorem State.becomeReady_keeps (a0 : State) : Keeps a0 (State.becomeReady a0) := by
  unfold State.becomeReady
  try dsimp only
  repeat'
    first
    | with_reducible apply Keeps.refl
    | assumption
    | simp only [Keeps.upd_iff]
    | split
    | with_reducible apply Keeps.trans ?_ (State.setFld_keeps _ _ _ _)
    | with_reducible apply Keeps.trans ?_ (State.setFlag_keeps _ _ _ _)
    | intro _
    | dsimp only

theorem State.startStep_keeps (a0 : State) (a1 : List Sys2Proof.StartFault) (a2 : List Sys2Proof.GuestInfo) :
    Keeps a0 (State.startStep a0 a1 a2) := by
  unfold State.startStep
  try dsimp only
  repeat'
    first
    | with_reducible apply Keeps.refl
    | assumption
    | with_reducible apply Keeps.trans ?_ (State.railsUp_keeps _)
    | split
    | with_reducible apply Keeps.trans ?_ (State.setFld_keeps _ _ _ _)
    | with_reducible apply Keeps.trans ?_ (State.startRaise_keeps _ _ _)
    | with_reducible apply Keeps.trans ?_ (State.startOff_keeps _ _)
    | with_reducible apply Keeps.trans ?_ (State.emit_keeps _ _)
    | with_reducible apply Keeps.trans ?_ (State.setFlag_keeps _ _ _ _)
    | with_reducible apply Keeps.trans ?_ (State.startClocks_keeps _ _)
    | with_reducible apply Keeps.trans ?_ (State.startFuses_keeps _ _)
    | with_reducible apply Keeps.trans ?_ (State.tillersFail_keeps _ _ _)
    | with_reducible apply Keeps.trans ?_ (State.startHbm_keeps _ _)
    | with_reducible apply Keeps.trans ?_ (State.startGuests_keeps _ _ _)
    | with_reducible apply Keeps.trans ?_ (State.startPlan_keeps _ _)
    | with_reducible apply Keeps.trans ?_ (State.becomeReady_keeps _)
    | with_reducible apply Keeps.trans ?_ (State.startPorts_keeps _ _)
    | intro _
    | dsimp only

/-! ### PowerCtl -/

theorem State.doHold_keeps (a0 : State) : Keeps a0 (State.doHold a0) := by
  unfold State.doHold
  try dsimp only
  repeat'
    first
    | with_reducible apply Keeps.refl
    | assumption
    | simp only [Keeps.upd_iff]
    | split
    | with_reducible apply Keeps.trans ?_ (State.setFld_keeps _ _ _ _)
    | intro _
    | dsimp only

theorem State.endHold_keeps (a0 : State) : Keeps a0 (State.endHold a0) := by
  unfold State.endHold
  try dsimp only
  repeat'
    first
    | with_reducible apply Keeps.refl
    | assumption
    | split
    | with_reducible apply Keeps.trans ?_ (State.setFld_keeps _ _ _ _)
    | intro _
    | dsimp only

theorem State.doResumeHold_keeps (a0 : State) (a1 : Nat) : Keeps a0 (State.doResumeHold a0 a1) := by
  unfold State.doResumeHold
  try dsimp only
  repeat'
    first
    | with_reducible apply Keeps.refl
    | assumption
    | simp only [Keeps.upd_iff]
    | split
    | with_reducible apply Keeps.trans ?_ (State.endHold_keeps _)
    | with_reducible apply Keeps.trans ?_ (State.raiseNo_keeps _ _ _ _)
    | with_reducible apply Keeps.trans ?_ (State.setFlag_keeps _ _ _ _)
    | with_reducible apply Keeps.trans ?_ (State.holdEvent_keeps _ _ _)
    | intro _
    | dsimp only

theorem State.doHoldLimit_keeps (a0 : State) : Keeps a0 (State.doHoldLimit a0) := by
  unfold State.doHoldLimit
  try dsimp only
  repeat'
    first
    | with_reducible apply Keeps.refl
    | assumption
    | split
    | with_reducible apply Keeps.trans ?_ (State.shutdown_keeps _ _)
    | intro _
    | dsimp only

theorem State.doHoldover_keeps (a0 : State) : Keeps a0 (State.doHoldover a0) := by
  unfold State.doHoldover
  try dsimp only
  repeat'
    first
    | with_reducible apply Keeps.refl
    | assumption
    | simp only [Keeps.upd_iff]
    | split
    | with_reducible apply Keeps.trans ?_ (State.raiseNo_keeps _ _ _ _)
    | with_reducible apply Keeps.trans ?_ (State.setFlag_keeps _ _ _ _)
    | intro _
    | dsimp only

theorem State.doRackref_keeps (a0 : State) (a1 : Nat) : Keeps a0 (State.doRackref a0 a1) := by
  unfold State.doRackref
  try dsimp only
  repeat'
    first
    | with_reducible apply Keeps.refl
    | assumption
    | simp only [Keeps.upd_iff]
    | split
    | intro _
    | dsimp only

theorem State.doHoldoverExit_keeps (a0 : State) : Keeps a0 (State.doHoldoverExit a0) := by
  unfold State.doHoldoverExit
  try dsimp only
  repeat'
    first
    | with_reducible apply Keeps.refl
    | assumption
    | simp only [Keeps.upd_iff]
    | split
    | with_reducible apply Keeps.trans ?_ (State.setFlag_keeps _ _ _ _)
    | intro _
    | dsimp only

theorem State.takeMtime_keeps (a0 : State) (a1 : Nat) (a2 : Sys2Proof.Word) : Keeps a0 (State.takeMtime a0 a1
    a2) := by
  unfold State.takeMtime
  try dsimp only
  repeat'
    first
    | with_reducible apply Keeps.refl
    | assumption
    | simp only [Keeps.upd_iff]
    | split
    | intro _
    | dsimp only

theorem State.planWrite_keeps (a0 : State) (a1 : Nat) : Keeps a0 (State.planWrite a0 a1) := by
  unfold State.planWrite
  try dsimp only
  repeat'
    first
    | with_reducible apply Keeps.refl
    | assumption
    | split
    | with_reducible apply Keeps.trans ?_ (State.overridden_keeps _ _)
    | with_reducible apply Keeps.trans ?_ (State.setFld_keeps _ _ _ _)
    | with_reducible apply Keeps.trans ?_ (State.askClock_keeps _ _)
    | intro _
    | dsimp only

theorem State.setOffset_keeps (a0 : State) (a1 : Nat) (a2 : Int) : Keeps a0 (State.setOffset a0 a1 a2) := by
  unfold State.setOffset
  try dsimp only
  repeat'
    first
    | with_reducible apply Keeps.refl
    | assumption
    | simp only [Keeps.upd_iff]
    | split
    | with_reducible apply Keeps.trans ?_ (State.emit_keeps _ _)
    | intro _
    | dsimp only

theorem State.setSince_keeps (a0 : State) (a1 : Nat) (a2 : Option Nat) : Keeps a0 (State.setSince a0 a1 a2) :=
    by
  unfold State.setSince
  try dsimp only
  repeat'
    first
    | with_reducible apply Keeps.refl
    | assumption
    | simp only [Keeps.upd_iff]
    | split
    | intro _
    | dsimp only

theorem State.doVloop_keeps (a0 : State) (a1 : Nat) (a2 : Nat) : Keeps a0 (State.doVloop a0 a1 a2) := by
  unfold State.doVloop
  try dsimp only
  repeat'
    first
    | with_reducible apply Keeps.refl
    | assumption
    | split
    | with_reducible apply Keeps.trans ?_ (State.setOffset_keeps _ _ _)
    | with_reducible apply Keeps.trans ?_ (State.setSince_keeps _ _ _)
    | intro _
    | dsimp only

theorem State.emergencyAct_keeps (a0 : State) (a1 : Bool) : Keeps a0 (State.emergencyAct a0 a1) := by
  unfold State.emergencyAct
  try dsimp only
  repeat'
    first
    | with_reducible apply Keeps.refl
    | assumption
    | simp only [Keeps.upd_iff]
    | split
    | with_reducible apply Keeps.trans ?_ (State.setFld_keeps _ _ _ _)
    | with_reducible apply Keeps.trans ?_ (State.useFree_keeps _)
    | with_reducible apply Keeps.trans ?_ (State.askClock_keeps _ _)
    | intro _
    | dsimp only

theorem State.emergencyOn_keeps (a0 : State) : Keeps a0 (State.emergencyOn a0) := by
  unfold State.emergencyOn
  try dsimp only
  repeat'
    first
    | with_reducible apply Keeps.refl
    | assumption
    | simp only [Keeps.upd_iff]
    | split
    | with_reducible apply Keeps.trans ?_ (State.emergencyAct_keeps _ _)
    | intro _
    | dsimp only

theorem State.emergencyOff_keeps (a0 : State) : Keeps a0 (State.emergencyOff a0) := by
  unfold State.emergencyOff
  try dsimp only
  repeat'
    first
    | with_reducible apply Keeps.refl
    | assumption
    | simp only [Keeps.upd_iff]
    | split
    | with_reducible apply Keeps.trans ?_ (State.setFld_keeps _ _ _ _)
    | with_reducible apply Keeps.trans ?_ (State.askClock_keeps _ _)
    | intro _
    | dsimp only

theorem State.capCheck_keeps (a0 : State) (a1 : Nat) : Keeps a0 (State.capCheck a0 a1) := by
  unfold State.capCheck
  try dsimp only
  repeat'
    first
    | with_reducible apply Keeps.refl
    | assumption
    | simp only [Keeps.upd_iff]
    | split
    | with_reducible apply Keeps.trans ?_ (State.overridden_keeps _ _)
    | with_reducible apply Keeps.trans ?_ (State.satAdd_keeps _ _ _ _)
    | with_reducible apply Keeps.trans ?_ (State.askClock_keeps _ _)
    | intro _
    | dsimp only

theorem State.doPowerCheck_keeps (a0 : State) (a1 : Nat) (a2 : Nat) : Keeps a0 (State.doPowerCheck a0 a1 a2) :=
    by
  unfold State.doPowerCheck
  try dsimp only
  repeat'
    first
    | with_reducible apply Keeps.refl
    | assumption
    | split
    | with_reducible apply Keeps.trans ?_ (State.capCheck_keeps _ _)
    | with_reducible apply Keeps.trans ?_ (State.setFld_keeps _ _ _ _)
    | with_reducible apply Keeps.trans ?_ (State.emergencyOn_keeps _)
    | intro _
    | dsimp only

theorem State.thermalOne_keeps (a0 : State) (a1 : Nat) (a2 : Nat) : Keeps a0 (State.thermalOne a0 a1 a2) := by
  unfold State.thermalOne
  try dsimp only
  repeat'
    first
    | with_reducible apply Keeps.refl
    | assumption
    | simp only [Keeps.upd_iff]
    | split
    | with_reducible apply Keeps.trans ?_ (State.raiseNo_keeps _ _ _ _)
    | with_reducible apply Keeps.trans ?_ (State.sendPause_keeps _ _)
    | intro _
    | dsimp only

theorem State.thermStatus_keeps (a0 : State) : Keeps a0 (State.thermStatus a0) := by
  unfold State.thermStatus
  try dsimp only
  repeat'
    first
    | with_reducible apply Keeps.refl
    | assumption
    | split
    | with_reducible apply Keeps.trans ?_ (State.setFld_keeps _ _ _ _)
    | with_reducible apply Keeps.foldl _ _ ?_ ?_
    | with_reducible apply Keeps.foldl_fst _ _ ?_ ?_
    | intro _
    | dsimp only

theorem State.trip_keeps (a0 : State) : Keeps a0 (State.trip a0) := by
  unfold State.trip
  try dsimp only
  repeat'
    first
    | with_reducible apply Keeps.refl
    | assumption
    | simp only [Keeps.upd_iff]
    | split
    | with_reducible apply Keeps.trans ?_ (State.mainOff_keeps _)
    | with_reducible apply Keeps.trans ?_ (State.raiseNo_keeps _ _ _ _)
    | with_reducible apply Keeps.trans ?_ (State.emit_keeps _ _)
    | intro _
    | dsimp only

theorem State.thermalHold_keeps (a0 : State) : Keeps a0 (State.thermalHold a0) := by
  unfold State.thermalHold
  try dsimp only
  repeat'
    first
    | with_reducible apply Keeps.refl
    | assumption
    | simp only [Keeps.upd_iff]
    | split
    | with_reducible apply Keeps.trans ?_ (State.holdEvent_keeps _ _ _)
    | with_reducible apply Keeps.trans ?_ (State.endHold_keeps _)
    | with_reducible apply Keeps.trans ?_ (State.setFld_keeps _ _ _ _)
    | intro _
    | dsimp only

theorem State.doThermal_keeps (a0 : State) (a1 : List (Sys2Proof.Sensor × Nat)) : Keeps a0 (State.doThermal a0
    a1) := by
  unfold State.doThermal
  try dsimp only
  repeat'
    first
    | with_reducible apply Keeps.refl
    | assumption
    | split
    | with_reducible apply Keeps.trans ?_ (State.thermStatus_keeps _)
    | with_reducible apply Keeps.trans ?_ (State.thermalOne_keeps _ _ _)
    | with_reducible apply Keeps.trans ?_ (State.trip_keeps _)
    | with_reducible apply Keeps.trans ?_ (State.thermalHold_keeps _)
    | with_reducible apply Keeps.trans ?_ (State.emergencyOn_keeps _)
    | with_reducible apply Keeps.trans ?_ (State.emergencyOff_keeps _)
    | with_reducible apply Keeps.foldl _ _ ?_ ?_
    | with_reducible apply Keeps.foldl_fst _ _ ?_ ?_
    | intro _
    | dsimp only

theorem State.doLaser_keeps (a0 : State) (a1 : Nat) (a2 : Nat) (a3 : Bool) : Keeps a0 (State.doLaser a0 a1 a2
    a3) := by
  unfold State.doLaser
  try dsimp only
  repeat'
    first
    | with_reducible apply Keeps.refl
    | assumption
    | split
    | with_reducible apply Keeps.trans ?_ (State.emit_keeps _ _)
    | with_reducible apply Keeps.trans ?_ (State.setFld_keeps _ _ _ _)
    | with_reducible apply Keeps.trans ?_ (State.doLaserFail_keeps _ _ _)
    | intro _
    | dsimp only

theorem State.enterDormant_keeps (a0 : State) : Keeps a0 (State.enterDormant a0) := by
  unfold State.enterDormant
  try dsimp only
  repeat'
    first
    | with_reducible apply Keeps.refl
    | assumption
    | split
    | with_reducible apply Keeps.trans ?_ (State.setFlag_keeps _ _ _ _)
    | with_reducible apply Keeps.trans ?_ (State.setFld_keeps _ _ _ _)
    | intro _
    | dsimp only

theorem State.entered_keeps (a0 : State) : Keeps a0 (State.entered a0) := by
  unfold State.entered
  try dsimp only
  repeat'
    first
    | with_reducible apply Keeps.refl
    | assumption
    | split
    | with_reducible apply Keeps.trans ?_ (State.setFld_keeps _ _ _ _)
    | with_reducible apply Keeps.trans ?_ (State.leaveDone_keeps _ _)
    | with_reducible apply Keeps.foldl _ _ ?_ ?_
    | with_reducible apply Keeps.foldl_fst _ _ ?_ ?_
    | intro _
    | dsimp only

theorem State.doWakeCause_keeps (a0 : State) (a1 : Nat) : Keeps a0 (State.doWakeCause a0 a1) := by
  unfold State.doWakeCause
  try dsimp only
  repeat'
    first
    | with_reducible apply Keeps.refl
    | assumption
    | split
    | with_reducible apply Keeps.trans ?_ (State.doPerst_keeps _)
    | with_reducible apply Keeps.trans ?_ (State.wakeUp_keeps _ _)
    | intro _
    | dsimp only

theorem State.doAgeing_keeps (a0 : State) (a1 : Nat) (a2 : Nat) (a3 : Nat) : Keeps a0 (State.doAgeing a0 a1 a2
    a3) := by
  unfold State.doAgeing
  try dsimp only
  repeat'
    first
    | with_reducible apply Keeps.refl
    | assumption
    | simp only [Keeps.upd_iff]
    | split
    | with_reducible apply Keeps.trans ?_ (State.setFld_keeps _ _ _ _)
    | with_reducible apply Keeps.trans ?_ (State.raiseNo_keeps _ _ _ _)
    | with_reducible apply Keeps.trans ?_ (State.setFlag_keeps _ _ _ _)
    | intro _
    | dsimp only

/-! ### Manage -/

theorem State.mgt_keeps (a0 : State) (a1 : State → State) (h1 : ∀ x0, Keeps x0 (a1 x0)) : Keeps a0 (State.mgt a0
    a1) := by
  unfold State.mgt
  try dsimp only
  repeat'
    first
    | with_reducible apply Keeps.refl
    | assumption
    | split
    | with_reducible apply Keeps.trans ?_ (h1 _)
    | intro _
    | dsimp only

theorem State.auditEvent_keeps (a0 : State) (a1 : AuditOrg) (a2 : Nat) (a3 : Nat) (a4 : Nat) : Keeps a0
    (State.auditEvent a0 a1 a2 a3 a4) := by
  unfold State.auditEvent
  try dsimp only
  repeat'
    first
    | with_reducible apply Keeps.refl
    | assumption
    | split
    | with_reducible apply Keeps.trans ?_ (State.audit!_keeps _ _ _ _ _ _ _ _)
    | intro _
    | dsimp only

theorem State.settime_keeps (a0 : State) (a1 : Sys2Proof.Word) : Keeps a0 (State.settime a0 a1) := by
  unfold State.settime
  try dsimp only
  repeat'
    first
    | with_reducible apply Keeps.refl
    | assumption
    | simp only [Keeps.upd_iff]
    | split
    | with_reducible apply Keeps.trans ?_ (State.takeMtime_keeps _ _ _)
    | intro _
    | dsimp only

theorem State.doSettimeBroadcast_keeps (a0 : State) (a1 : Sys2Proof.Transport) (a2 : List Sys2Proof.Byte) :
    Keeps a0 (State.doSettimeBroadcast a0 a1 a2) := by
  unfold State.doSettimeBroadcast
  try dsimp only
  repeat'
    first
    | with_reducible apply Keeps.refl
    | assumption
    | split
    | with_reducible apply Keeps.trans ?_ (State.mgt_keeps _ _ ?_)
    | with_reducible apply Keeps.trans ?_ (State.settime_keeps _ _)
    | intro _
    | dsimp only

theorem State.doSettimeDirected_keeps (a0 : State) (a1 : Sys2Proof.Transport) (a2 : List Sys2Proof.Byte) : Keeps
    a0 (State.doSettimeDirected a0 a1 a2) := by
  unfold State.doSettimeDirected
  try dsimp only
  repeat'
    first
    | with_reducible apply Keeps.refl
    | assumption
    | split
    | with_reducible apply Keeps.trans ?_ (State.mgt_keeps _ _ ?_)
    | with_reducible apply Keeps.trans ?_ (State.emit_keeps _ _)
    | with_reducible apply Keeps.trans ?_ (State.settime_keeps _ _)
    | intro _
    | dsimp only

theorem State.askPeer_keeps (a0 : State) (a1 : Nat) : Keeps a0 (State.askPeer a0 a1) := by
  unfold State.askPeer
  try dsimp only
  repeat'
    first
    | with_reducible apply Keeps.refl
    | assumption
    | simp only [Keeps.upd_iff]
    | split
    | with_reducible apply Keeps.trans ?_ (State.emit_keeps _ _)
    | with_reducible apply Keeps.trans ?_ (State.setFlag_keeps _ _ _ _)
    | with_reducible apply Keeps.trans ?_ (State.setFld_keeps _ _ _ _)
    | intro _
    | dsimp only

theorem State.peerResult_keeps (a0 : State) (a1 : Nat) : Keeps a0 (State.peerResult a0 a1) := by
  unfold State.peerResult
  try dsimp only
  repeat'
    first
    | with_reducible apply Keeps.refl
    | assumption
    | split
    | with_reducible apply Keeps.trans ?_ (State.setFlag_keeps _ _ _ _)
    | with_reducible apply Keeps.trans ?_ (State.setFld_keeps _ _ _ _)
    | intro _
    | dsimp only

theorem State.doPeerResponse_keeps (a0 : State) (a1 : List Sys2Proof.Byte) : Keeps a0 (State.doPeerResponse a0
    a1) := by
  unfold State.doPeerResponse
  try dsimp only
  repeat'
    first
    | with_reducible apply Keeps.refl
    | assumption
    | split
    | with_reducible apply Keeps.trans ?_ (State.mgt_keeps _ _ ?_)
    | with_reducible apply Keeps.trans ?_ (State.peerResult_keeps _ _)
    | intro _
    | dsimp only

theorem State.doPeerTimeout_keeps (a0 : State) : Keeps a0 (State.doPeerTimeout a0) := by
  unfold State.doPeerTimeout
  try dsimp only
  repeat'
    first
    | with_reducible apply Keeps.refl
    | assumption
    | split
    | with_reducible apply Keeps.trans ?_ (State.peerResult_keeps _ _)
    | intro _
    | dsimp only

theorem State.fenceUnit_keeps (a0 : State) (a1 : Sys2Proof.ViewUnit) : Keeps a0 (State.fenceUnit a0 a1) := by
  unfold State.fenceUnit
  try dsimp only
  repeat'
    first
    | with_reducible apply Keeps.refl
    | assumption
    | split
    | with_reducible apply Keeps.trans ?_ (State.setBit_keeps _ _ _ _)
    | with_reducible apply Keeps.trans ?_ (State.fenceSheaf_keeps _ _)
    | with_reducible apply Keeps.trans ?_ (State.fenceStack_keeps _ _)
    | with_reducible apply Keeps.trans ?_ (State.portDown_keeps _ _ _)
    | intro _
    | dsimp only

theorem State.fenceView_keeps (a0 : State) (a1 : Sys2Proof.ViewUnit × Bool × Bool) : Keeps a0 (State.fenceView
    a0 a1) := by
  unfold State.fenceView
  try dsimp only
  repeat'
    first
    | with_reducible apply Keeps.refl
    | assumption
    | split
    | with_reducible apply Keeps.trans ?_ (State.raiseNo_keeps _ _ _ _)
    | with_reducible apply Keeps.trans ?_ (State.setFlag_keeps _ _ _ _)
    | with_reducible apply Keeps.trans ?_ (State.fenceUnit_keeps _ _)
    | intro _
    | dsimp only

theorem State.compareViews_keeps (a0 : State) (a1 : List (Sys2Proof.ViewUnit × Bool × Bool)) : Keeps a0
    (State.compareViews a0 a1) := by
  unfold State.compareViews
  try dsimp only
  repeat'
    first
    | with_reducible apply Keeps.refl
    | assumption
    | simp only [Keeps.upd_iff]
    | split
    | with_reducible apply Keeps.trans ?_ (State.fenceView_keeps _ _)
    | with_reducible apply Keeps.foldl _ _ ?_ ?_
    | with_reducible apply Keeps.foldl_fst _ _ ?_ ?_
    | intro _
    | dsimp only

theorem State.auditClear_keeps (a0 : State) (a1 : AuditOrg) : Keeps a0 (State.auditClear a0 a1) := by
  unfold State.auditClear
  try dsimp only
  repeat'
    first
    | with_reducible apply Keeps.refl
    | assumption
    | simp only [Keeps.upd_iff]
    | split
    | with_reducible apply Keeps.trans ?_ (State.auditEvent_keeps _ _ _ _ _)
    | with_reducible apply Keeps.trans ?_ (State.setFld_keeps _ _ _ _)
    | intro _
    | dsimp only

theorem State.clearCmd_keeps (a0 : State) (a1 : Sys2Proof.Origin) : Keeps a0 (State.clearCmd a0 a1) := by
  unfold State.clearCmd
  try dsimp only
  repeat'
    first
    | with_reducible apply Keeps.refl
    | assumption
    | split
    | with_reducible apply Keeps.trans ?_ (State.access_keeps _ _ _ _ ?_)
    | with_reducible apply Keeps.trans ?_ (State.auditClear_keeps _ _)
    | with_reducible apply Keeps.trans ?_ (State.audit!_keeps _ _ _ _ _ _ _ _)
    | intro _
    | dsimp only

theorem State.presenceOpens_keeps (a0 : State) : Keeps a0 (State.presenceOpens a0) := by
  unfold State.presenceOpens
  try dsimp only
  repeat'
    first
    | with_reducible apply Keeps.refl
    | assumption
    | simp only [Keeps.upd_iff]
    | split
    | with_reducible apply Keeps.trans ?_ (State.auditEvent_keeps _ _ _ _ _)
    | with_reducible apply Keeps.trans ?_ (State.raiseNo_keeps _ _ _ _)
    | with_reducible apply Keeps.trans ?_ (State.setFlag_keeps _ _ _ _)
    | intro _
    | dsimp only

theorem State.presenceCloses_keeps (a0 : State) : Keeps a0 (State.presenceCloses a0) := by
  unfold State.presenceCloses
  try dsimp only
  repeat'
    first
    | with_reducible apply Keeps.refl
    | assumption
    | simp only [Keeps.upd_iff]
    | split
    | with_reducible apply Keeps.trans ?_ (State.auditEvent_keeps _ _ _ _ _)
    | with_reducible apply Keeps.trans ?_ (State.raiseNo_keeps _ _ _ _)
    | with_reducible apply Keeps.trans ?_ (State.setFlag_keeps _ _ _ _)
    | intro _
    | dsimp only

theorem State.rwpTry_keeps (a0 : State) (a1 : Sys2Proof.Origin) (a2 : Reg) (a3 : Nat) (a4 : State → Bool) (a5 :
    State → State) (a6 : State → State) (h5 : ∀ x0, Keeps x0 (a5 x0)) (h6 : ∀ x0, Keeps x0 (a6 x0)) : Keeps a0
    (State.rwpTry a0 a1 a2 a3 a4 a5 a6) := by
  unfold State.rwpTry
  try dsimp only
  repeat'
    first
    | with_reducible apply Keeps.refl
    | assumption
    | split
    | with_reducible apply Keeps.trans ?_ (State.access_keeps _ _ _ _ ?_)
    | with_reducible apply Keeps.trans ?_ (State.audit!_keeps _ _ _ _ _ _ _ _)
    | with_reducible apply Keeps.trans ?_ (h5 _)
    | with_reducible apply Keeps.trans ?_ (h6 _)
    | intro _
    | dsimp only

theorem State.refuseBundle_keeps (a0 : State) (a1 : Nat) (a2 : Nat) : Keeps a0 (State.refuseBundle a0 a1 a2) :=
    by
  unfold State.refuseBundle
  try dsimp only
  repeat'
    first
    | with_reducible apply Keeps.refl
    | assumption
    | split
    | with_reducible apply Keeps.trans ?_ (State.raiseNo_keeps _ _ _ _)
    | intro _
    | dsimp only

theorem State.transferFw_keeps (a0 : State) (a1 : Nat) (a2 : Bool) (a3 : Bool) : Keeps a0 (State.transferFw a0
    a1 a2 a3) := by
  unfold State.transferFw
  try dsimp only
  repeat'
    first
    | with_reducible apply Keeps.refl
    | assumption
    | simp only [Keeps.upd_iff]
    | split
    | with_reducible apply Keeps.trans ?_ (State.setFld_keeps _ _ _ _)
    | with_reducible apply Keeps.trans ?_ (State.refuseBundle_keeps _ _ _)
    | intro _
    | dsimp only

theorem State.doActivate_keeps (a0 : State) (a1 : Sys2Proof.Origin) : Keeps a0 (State.doActivate a0 a1) := by
  unfold State.doActivate
  try dsimp only
  repeat'
    first
    | with_reducible apply Keeps.refl
    | assumption
    | simp only [Keeps.upd_iff]
    | split
    | with_reducible apply Keeps.trans ?_ (State.auditEvent_keeps _ _ _ _ _)
    | intro _
    | dsimp only

theorem State.activateCmd_keeps (a0 : State) (a1 : Sys2Proof.Origin) : Keeps a0 (State.activateCmd a0 a1) := by
  unfold State.activateCmd
  try dsimp only
  repeat'
    first
    | with_reducible apply Keeps.refl
    | assumption
    | split
    | with_reducible apply Keeps.trans ?_ (State.rwpTry_keeps _ _ _ _ _ _ _ ?_ ?_)
    | with_reducible apply Keeps.trans ?_ (State.doActivate_keeps _ _)
    | with_reducible apply Keeps.trans ?_ (State.refuseBundle_keeps _ _ _)
    | intro _
    | dsimp only

theorem State.doConfirm_keeps (a0 : State) (a1 : Sys2Proof.Origin) : Keeps a0 (State.doConfirm a0 a1) := by
  unfold State.doConfirm
  try dsimp only
  repeat'
    first
    | with_reducible apply Keeps.refl
    | assumption
    | split
    | with_reducible apply Keeps.trans ?_ (State.auditEvent_keeps _ _ _ _ _)
    | with_reducible apply Keeps.trans ?_ (State.setFlag_keeps _ _ _ _)
    | intro _
    | dsimp only

theorem State.raiseCmd_keeps (a0 : State) (a1 : Sys2Proof.Origin) : Keeps a0 (State.raiseCmd a0 a1) := by
  unfold State.raiseCmd
  try dsimp only
  repeat'
    first
    | with_reducible apply Keeps.refl
    | assumption
    | exact Keeps.refl _
    | split
    | with_reducible apply Keeps.trans ?_ (State.rwpTry_keeps _ _ _ _ _ _ _ ?_ ?_)
    | with_reducible apply Keeps.trans ?_ (State.setFld_keeps _ _ _ _)
    | intro _
    | dsimp only

theorem State.revertFw_keeps (a0 : State) : Keeps a0 (State.revertFw a0) := by
  unfold State.revertFw
  try dsimp only
  repeat'
    first
    | with_reducible apply Keeps.refl
    | assumption
    | simp only [Keeps.upd_iff]
    | split
    | with_reducible apply Keeps.trans ?_ (State.raiseNo_keeps _ _ _ _)
    | with_reducible apply Keeps.trans ?_ (State.setFlag_keeps _ _ _ _)
    | with_reducible apply Keeps.trans ?_ (State.setFld_keeps _ _ _ _)
    | with_reducible apply Keeps.trans ?_ (State.moduleReset_keeps _)
    | intro _
    | dsimp only

theorem State.doUnlock_keeps (a0 : State) (a1 : Sys2Proof.Origin) : Keeps a0 (State.doUnlock a0 a1) := by
  unfold State.doUnlock
  try dsimp only
  repeat'
    first
    | with_reducible apply Keeps.refl
    | assumption
    | split
    | with_reducible apply Keeps.trans ?_ (State.raiseNo_keeps _ _ _ _)
    | with_reducible apply Keeps.trans ?_ (State.setFlag_keeps _ _ _ _)
    | intro _
    | dsimp only

theorem State.doLock_keeps (a0 : State) (a1 : Sys2Proof.Origin) : Keeps a0 (State.doLock a0 a1) := by
  unfold State.doLock
  try dsimp only
  repeat'
    first
    | with_reducible apply Keeps.refl
    | assumption
    | split
    | with_reducible apply Keeps.trans ?_ (State.auditEvent_keeps _ _ _ _ _)
    | with_reducible apply Keeps.trans ?_ (State.setFlag_keeps _ _ _ _)
    | intro _
    | dsimp only

/-! ### Observe -/

theorem State.sampleBase_keeps (a0 : State) : Keeps a0 (State.sampleBase a0) := by
  unfold State.sampleBase
  try dsimp only
  repeat'
    first
    | with_reducible apply Keeps.refl
    | assumption
    | simp only [Keeps.upd_iff]
    | split
    | intro _
    | dsimp only

theorem State.takeSample_keeps (a0 : State) (a1 : Nat) : Keeps a0 (State.takeSample a0 a1) := by
  unfold State.takeSample
  try dsimp only
  repeat'
    first
    | with_reducible apply Keeps.refl
    | assumption
    | split
    | with_reducible apply Keeps.trans ?_ (State.telPut_keeps _ _ _)
    | intro _
    | dsimp only

theorem State.clearTilObs_keeps (a0 : State) (a1 : Nat) : Keeps a0 (State.clearTilObs a0 a1) := by
  unfold State.clearTilObs
  try dsimp only
  repeat'
    first
    | with_reducible apply Keeps.refl
    | assumption
    | simp only [Keeps.upd_iff]
    | split
    | with_reducible apply Keeps.trans ?_ (State.setFld_keeps _ _ _ _)
    | with_reducible apply Keeps.foldl _ _ ?_ ?_
    | with_reducible apply Keeps.foldl_fst _ _ ?_ ?_
    | intro _
    | dsimp only

/-! ### Registers -/

theorem State.writeFlds_keeps (a0 : State) (a1 : List Fld) (a2 : Nat) (a3 : Nat) (a4 : Nat) : Keeps a0
    (State.writeFlds a0 a1 a2 a3 a4) := by
  unfold State.writeFlds
  try dsimp only
  repeat'
    first
    | with_reducible apply Keeps.refl
    | assumption
    | split
    | with_reducible apply Keeps.trans ?_ (State.writeFld_keeps _ _ _ _ _)
    | with_reducible apply Keeps.foldl _ _ ?_ ?_
    | with_reducible apply Keeps.foldl_fst _ _ ?_ ?_
    | intro _
    | dsimp only

theorem State.onBit_keeps (a0 : State) (a1 : Nat) (a2 : Nat) (a3 : Nat) (a4 : State → State) (h4 : ∀ x0, Keeps
    x0 (a4 x0)) : Keeps a0 (State.onBit a0 a1 a2 a3 a4) := by
  unfold State.onBit
  try dsimp only
  repeat'
    first
    | with_reducible apply Keeps.refl
    | assumption
    | split
    | with_reducible apply Keeps.trans ?_ (h4 _)
    | intro _
    | dsimp only

theorem State.onKey_keeps (a0 : State) (a1 : Nat) (a2 : Nat) (a3 : Nat) (a4 : State → State) (h4 : ∀ x0, Keeps
    x0 (a4 x0)) : Keeps a0 (State.onKey a0 a1 a2 a3 a4) := by
  unfold State.onKey
  try dsimp only
  repeat'
    first
    | with_reducible apply Keeps.refl
    | assumption
    | split
    | with_reducible apply Keeps.trans ?_ (h4 _)
    | intro _
    | dsimp only

theorem State.arrayStatusWrite_keeps (a0 : State) (a1 : Nat) (a2 : Nat) (a3 : Nat) : Keeps a0
    (State.arrayStatusWrite a0 a1 a2 a3) := by
  unfold State.arrayStatusWrite
  try dsimp only
  repeat'
    first
    | with_reducible apply Keeps.refl
    | assumption
    | split
    | with_reducible apply Keeps.trans ?_ (State.writeReg_keeps _ _ _ _ _)
    | with_reducible apply Keeps.trans ?_ (State.setFld_keeps _ _ _ _)
    | intro _
    | dsimp only

theorem State.vectorStatusWrite_keeps (a0 : State) (a1 : Nat) (a2 : Nat) (a3 : Nat) : Keeps a0
    (State.vectorStatusWrite a0 a1 a2 a3) := by
  unfold State.vectorStatusWrite
  try dsimp only
  repeat'
    first
    | with_reducible apply Keeps.refl
    | assumption
    | split
    | with_reducible apply Keeps.trans ?_ (State.writeReg_keeps _ _ _ _ _)
    | with_reducible apply Keeps.trans ?_ (State.setFld_keeps _ _ _ _)
    | intro _
    | dsimp only

theorem State.actTil_keeps (a0 : State) (a1 : Reg) (a2 : Nat) (a3 : Nat) (a4 : Nat) (a5 : State) (h5 : Keeps a0
    a5) : Keeps a0 (State.actTil a0 a1 a2 a3 a4 a5) := by
  unfold State.actTil
  try dsimp only
  repeat'
    first
    | with_reducible apply Keeps.refl
    | assumption
    | split
    | with_reducible apply Keeps.trans ?_ (State.doGang_keeps _ _ _ _)
    | with_reducible apply Keeps.trans ?_ (State.onBit_keeps _ _ _ _ _ ?_)
    | with_reducible apply Keeps.trans ?_ (State.setFld_keeps _ _ _ _)
    | with_reducible apply Keeps.trans ?_ (State.arrayStatusWrite_keeps _ _ _ _)
    | with_reducible apply Keeps.trans ?_ (State.vectorStatusWrite_keeps _ _ _ _)
    | with_reducible apply Keeps.trans ?_ (State.writeReg_keeps _ _ _ _ _)
    | with_reducible apply Keeps.trans ?_ (State.doParam_keeps _ _ _ _)
    | with_reducible apply Keeps.trans ?_ (State.doHalt_keeps _ _)
    | with_reducible apply Keeps.trans ?_ (State.doStep_keeps _ _)
    | with_reducible apply Keeps.trans ?_ (State.doResume_keeps _ _)
    | with_reducible apply Keeps.trans ?_ (State.clearTilObs_keeps _ _)
    | intro _
    | dsimp only

theorem State.doAdminOp_keeps (a0 : State) (a1 : Nat) : Keeps a0 (State.doAdminOp a0 a1) := by
  unfold State.doAdminOp
  try dsimp only
  repeat'
    first
    | with_reducible apply Keeps.refl
    | assumption
    | split
    | with_reducible apply Keeps.trans ?_ (State.adminRefuse_keeps _ _)
    | with_reducible apply Keeps.trans ?_ (State.doAllocate_keeps _ _ _)
    | with_reducible apply Keeps.trans ?_ (State.doFreeze_keeps _ _)
    | with_reducible apply Keeps.trans ?_ (State.doFree_keeps _ _)
    | with_reducible apply Keeps.trans ?_ (State.doRead_keeps _ _)
    | intro _
    | dsimp only

theorem State.actGlm_keeps (a0 : State) (a1 : Reg) (a2 : Nat) (a3 : Nat) (a4 : Nat) (a5 : State) (h5 : Keeps a0
    a5) : Keeps a0 (State.actGlm a0 a1 a2 a3 a4 a5) := by
  unfold State.actGlm
  try dsimp only
  repeat'
    first
    | with_reducible apply Keeps.refl
    | assumption
    | split
    | with_reducible apply Keeps.trans ?_ (State.doAdminOp_keeps _ _)
    | with_reducible apply Keeps.trans ?_ (State.doXlatInval_keeps _ _ _ _)
    | with_reducible apply Keeps.trans ?_ (State.doBarConfig_keeps _ _ _ _)
    | with_reducible apply Keeps.trans ?_ (State.sendSignalBy_keeps _ _ _ _ _ _)
    | with_reducible apply Keeps.trans ?_ (State.writeFld_keeps _ _ _ _ _)
    | with_reducible apply Keeps.trans ?_ (State.doArm_keeps _ _ _)
    | with_reducible apply Keeps.trans ?_ (State.disarm_keeps _ _)
    | intro _
    | dsimp only

theorem State.actCtx_keeps (a0 : State) (a1 : Sys2Proof.Origin) (a2 : Reg) (a3 : Nat) (a4 : Nat) (a5 : Nat) (a6
    : State) (h6 : Keeps a0 a6) : Keeps a0 (State.actCtx a0 a1 a2 a3 a4 a5 a6) := by
  unfold State.actCtx
  try dsimp only
  repeat'
    first
    | with_reducible apply Keeps.refl
    | assumption
    | split
    | with_reducible apply Keeps.trans ?_ (State.writeFlds_keeps _ _ _ _ _)
    | with_reducible apply Keeps.trans ?_ (State.onBit_keeps _ _ _ _ _ ?_)
    | with_reducible apply Keeps.trans ?_ (State.doRingResume_keeps _ _)
    | with_reducible apply Keeps.trans ?_ (State.doRingEnable_keeps _ _)
    | with_reducible apply Keeps.trans ?_ (State.setFlag_keeps _ _ _ _)
    | with_reducible apply Keeps.trans ?_ (State.doCancel_keeps _ _ _)
    | with_reducible apply Keeps.trans ?_ (State.writeFld_keeps _ _ _ _ _)
    | with_reducible apply Keeps.trans ?_ (State.doCtxEnable_keeps _ _ _)
    | with_reducible apply Keeps.trans ?_ (State.doXlatResume_keeps _ _)
    | with_reducible apply Keeps.trans ?_ (State.doCtxReset_keeps _ _ _)
    | with_reducible apply Keeps.trans ?_ (State.lostReport_keeps _ _ _)
    | with_reducible apply Keeps.trans ?_ (State.writeReg_keeps _ _ _ _ _)
    | with_reducible apply Keeps.trans ?_ (State.doTlbInval_keeps _ _ _ _)
    | intro _
    | dsimp only

theorem State.actHbm_keeps (a0 : State) (a1 : Reg) (a2 : Nat) (a3 : Nat) (a4 : Nat) (a5 : State) (h5 : Keeps a0
    a5) : Keeps a0 (State.actHbm a0 a1 a2 a3 a4 a5) := by
  unfold State.actHbm
  try dsimp only
  repeat'
    first
    | with_reducible apply Keeps.refl
    | assumption
    | split
    | with_reducible apply Keeps.trans ?_ (State.retirePage_keeps _ _)
    | with_reducible apply Keeps.trans ?_ (State.onKey_keeps _ _ _ _ _ ?_)
    | with_reducible apply Keeps.trans ?_ (State.clearRetired_keeps _)
    | with_reducible apply Keeps.trans ?_ (State.repairWrite_keeps _ _ _ _ _)
    | with_reducible apply Keeps.trans ?_ (State.regionWrite_keeps _ _ _ _)
    | with_reducible apply Keeps.trans ?_ (State.mirrorCtrl_keeps _ _ _)
    | with_reducible apply Keeps.trans ?_ (State.writeReg_keeps _ _ _ _ _)
    | with_reducible apply Keeps.trans ?_ (State.onBit_keeps _ _ _ _ _ ?_)
    | with_reducible apply Keeps.trans ?_ (State.logReplay_keeps _ _)
    | intro _
    | dsimp only

theorem State.routeRefuse_keeps (a0 : State) (a1 : Nat) (a2 : Nat) : Keeps a0 (State.routeRefuse a0 a1 a2) := by
  unfold State.routeRefuse
  try dsimp only
  repeat'
    first
    | with_reducible apply Keeps.refl
    | assumption
    | split
    | with_reducible apply Keeps.trans ?_ (State.raiseNo_keeps _ _ _ _)
    | with_reducible apply Keeps.trans ?_ (State.setFlag_keeps _ _ _ _)
    | intro _
    | dsimp only

theorem State.routeWrite_keeps (a0 : State) (a1 : Reg) (a2 : Nat) (a3 : Nat) (a4 : Nat) : Keeps a0
    (State.routeWrite a0 a1 a2 a3 a4) := by
  unfold State.routeWrite
  try dsimp only
  repeat'
    first
    | with_reducible apply Keeps.refl
    | assumption
    | split
    | with_reducible apply Keeps.trans ?_ (State.writeReg_keeps _ _ _ _ _)
    | with_reducible apply Keeps.trans ?_ (State.routeRefuse_keeps _ _ _)
    | intro _
    | dsimp only

theorem State.fenceBits_keeps (a0 : State) (a1 : Nat) (a2 : Nat) : Keeps a0 (State.fenceBits a0 a1 a2) := by
  unfold State.fenceBits
  try dsimp only
  repeat'
    first
    | with_reducible apply Keeps.refl
    | assumption
    | split
    | with_reducible apply Keeps.trans ?_ (State.setFld_keeps _ _ _ _)
    | with_reducible apply Keeps.trans ?_ (State.routeRefuse_keeps _ _ _)
    | intro _
    | dsimp only

theorem State.flowGo_keeps (a0 : State) : Keeps a0 (State.flowGo a0) := by
  unfold State.flowGo
  try dsimp only
  repeat'
    first
    | with_reducible apply Keeps.refl
    | assumption
    | split
    | with_reducible apply Keeps.trans ?_ (State.flowRead_keeps _ _ _)
    | with_reducible apply Keeps.trans ?_ (State.flowOpen_keeps _ _ _)
    | with_reducible apply Keeps.trans ?_ (State.flowClose_keeps _ _ _)
    | intro _
    | dsimp only

theorem State.actFab_keeps (a0 : State) (a1 : Reg) (a2 : Nat) (a3 : Nat) (a4 : Nat) (a5 : State) (h5 : Keeps a0
    a5) : Keeps a0 (State.actFab a0 a1 a2 a3 a4 a5) := by
  unfold State.actFab
  try dsimp only
  repeat'
    first
    | with_reducible apply Keeps.refl
    | assumption
    | split
    | with_reducible apply Keeps.trans ?_ (State.writeFlds_keeps _ _ _ _ _)
    | with_reducible apply Keeps.trans ?_ (State.portEnable_keeps _ _ _)
    | with_reducible apply Keeps.trans ?_ (State.onBit_keeps _ _ _ _ _ ?_)
    | with_reducible apply Keeps.trans ?_ (State.sendPause_keeps _ _)
    | with_reducible apply Keeps.trans ?_ (State.retrainPort_keeps _ _ _)
    | with_reducible apply Keeps.trans ?_ (State.onKey_keeps _ _ _ _ _ ?_)
    | with_reducible apply Keeps.trans ?_ (State.fuseChannels_keeps _ _ _)
    | with_reducible apply Keeps.trans ?_ (State.routeWrite_keeps _ _ _ _ _)
    | with_reducible apply Keeps.trans ?_ (State.fenceBits_keeps _ _ _)
    | with_reducible apply Keeps.trans ?_ (State.writeReg_keeps _ _ _ _ _)
    | with_reducible apply Keeps.trans ?_ (State.flowGo_keeps _)
    | with_reducible apply Keeps.trans ?_ (State.flowTrim_keeps _ _)
    | with_reducible apply Keeps.trans ?_ (State.flowSkip_keeps _ _ _)
    | with_reducible apply Keeps.trans ?_ (State.routeRefuse_keeps _ _ _)
    | intro _
    | dsimp only

theorem State.groupWrite_keeps (a0 : State) (a1 : Reg) (a2 : Nat) (a3 : Nat) (a4 : Nat) (a5 : Nat) : Keeps a0
    (State.groupWrite a0 a1 a2 a3 a4 a5) := by
  unfold State.groupWrite
  try dsimp only
  repeat'
    first
    | with_reducible apply Keeps.refl
    | assumption
    | split
    | with_reducible apply Keeps.trans ?_ (State.writeReg_keeps _ _ _ _ _)
    | intro _
    | dsimp only

theorem State.actCol_keeps (a0 : State) (a1 : Reg) (a2 : Nat) (a3 : Nat) (a4 : Nat) (a5 : State) (h5 : Keeps a0
    a5) : Keeps a0 (State.actCol a0 a1 a2 a3 a4 a5) := by
  unfold State.actCol
  try dsimp only
  repeat'
    first
    | with_reducible apply Keeps.refl
    | assumption
    | split
    | with_reducible apply Keeps.trans ?_ (State.writeReg_keeps _ _ _ _ _)
    | with_reducible apply Keeps.trans ?_ (State.disarmGroup_keeps _ _)
    | with_reducible apply Keeps.trans ?_ (State.writeFlds_keeps _ _ _ _ _)
    | with_reducible apply Keeps.trans ?_ (State.onBit_keeps _ _ _ _ _ ?_)
    | with_reducible apply Keeps.trans ?_ (State.armGroup_keeps _ _)
    | with_reducible apply Keeps.trans ?_ (State.groupWrite_keeps _ _ _ _ _ _)
    | intro _
    | dsimp only

theorem State.actPwr_keeps (a0 : State) (a1 : Reg) (a2 : Nat) (a3 : Nat) (a4 : Nat) (a5 : State) (h5 : Keeps a0
    a5) : Keeps a0 (State.actPwr a0 a1 a2 a3 a4 a5) := by
  unfold State.actPwr
  try dsimp only
  repeat'
    first
    | with_reducible apply Keeps.refl
    | assumption
    | split
    | with_reducible apply Keeps.trans ?_ (State.writeFld_keeps _ _ _ _ _)
    | with_reducible apply Keeps.trans ?_ (State.onKey_keeps _ _ _ _ _ ?_)
    | with_reducible apply Keeps.trans ?_ (State.onBit_keeps _ _ _ _ _ ?_)
    | with_reducible apply Keeps.trans ?_ (State.mapSpare_keeps _ _ _)
    | with_reducible apply Keeps.trans ?_ (State.fuseSheaf_keeps _ _)
    | with_reducible apply Keeps.trans ?_ (State.renumber_keeps _ _)
    | with_reducible apply Keeps.trans ?_ (State.fenceSheaf_keeps _ _)
    | with_reducible apply Keeps.trans ?_ (State.releaseMain_keeps _)
    | with_reducible apply Keeps.trans ?_ (State.shutdown_keeps _ _)
    | with_reducible apply Keeps.trans ?_ (State.moduleReset_keeps _)
    | with_reducible apply Keeps.trans ?_ (State.planWrite_keeps _ _)
    | with_reducible apply Keeps.trans ?_ (State.writeReg_keeps _ _ _ _ _)
    | with_reducible apply Keeps.trans ?_ (State.enterDormant_keeps _)
    | with_reducible apply Keeps.trans ?_ (State.wakeUp_keeps _ _)
    | with_reducible apply Keeps.trans ?_ (State.takeMtime_keeps _ _ _)
    | intro _
    | dsimp only

theorem State.obsRingWrite_keeps (a0 : State) (a1 : Reg) (a2 : Fld) (a3 : Nat) (a4 : Nat) : Keeps a0
    (State.obsRingWrite a0 a1 a2 a3 a4) := by
  unfold State.obsRingWrite
  try dsimp only
  repeat'
    first
    | with_reducible apply Keeps.refl
    | assumption
    | split
    | with_reducible apply Keeps.trans ?_ (State.writeFld_keeps _ _ _ _ _)
    | with_reducible apply Keeps.trans ?_ (State.writeReg_keeps _ _ _ _ _)
    | intro _
    | dsimp only

theorem State.captWrite_keeps (a0 : State) (a1 : Reg) (a2 : Nat) (a3 : Nat) (a4 : Nat) : Keeps a0
    (State.captWrite a0 a1 a2 a3 a4) := by
  unfold State.captWrite
  try dsimp only
  repeat'
    first
    | with_reducible apply Keeps.refl
    | assumption
    | split
    | with_reducible apply Keeps.trans ?_ (State.writeFlds_keeps _ _ _ _ _)
    | with_reducible apply Keeps.trans ?_ (State.writeReg_keeps _ _ _ _ _)
    | with_reducible apply Keeps.trans ?_ (State.setFld_keeps _ _ _ _)
    | intro _
    | dsimp only

theorem State.actObs_keeps (a0 : State) (a1 : Reg) (a2 : Nat) (a3 : Nat) (a4 : Nat) (a5 : State) (h5 : Keeps a0
    a5) : Keeps a0 (State.actObs a0 a1 a2 a3 a4 a5) := by
  unfold State.actObs
  try dsimp only
  repeat'
    first
    | with_reducible apply Keeps.refl
    | assumption
    | split
    | with_reducible apply Keeps.trans ?_ (State.writeReg_keeps _ _ _ _ _)
    | with_reducible apply Keeps.trans ?_ (State.sampleBase_keeps _)
    | with_reducible apply Keeps.trans ?_ (State.obsRingWrite_keeps _ _ _ _ _)
    | with_reducible apply Keeps.trans ?_ (State.captWrite_keeps _ _ _ _ _)
    | intro _
    | dsimp only

theorem State.actMgt_keeps (a0 : State) (a1 : Sys2Proof.Origin) (a2 : Reg) (a3 : Nat) (a4 : Nat) (a5 : Nat) (a6
    : State) (h6 : Keeps a0 a6) : Keeps a0 (State.actMgt a0 a1 a2 a3 a4 a5 a6) := by
  unfold State.actMgt
  try dsimp only
  repeat'
    first
    | with_reducible apply Keeps.refl
    | assumption
    | split
    | with_reducible apply Keeps.trans ?_ (State.onKey_keeps _ _ _ _ _ ?_)
    | with_reducible apply Keeps.trans ?_ (State.doActivate_keeps _ _)
    | with_reducible apply Keeps.trans ?_ (State.refuseBundle_keeps _ _ _)
    | with_reducible apply Keeps.trans ?_ (State.onBit_keeps _ _ _ _ _ ?_)
    | with_reducible apply Keeps.trans ?_ (State.doConfirm_keeps _ _)
    | with_reducible apply Keeps.trans ?_ (State.setFld_keeps _ _ _ _)
    | with_reducible apply Keeps.trans ?_ (State.doUnlock_keeps _ _)
    | with_reducible apply Keeps.trans ?_ (State.doLock_keeps _ _)
    | with_reducible apply Keeps.trans ?_ (State.writeReg_keeps _ _ _ _ _)
    | with_reducible apply Keeps.trans ?_ (State.askPeer_keeps _ _)
    | intro _
    | dsimp only

theorem State.regAct_keeps (a0 : State) (a1 : Sys2Proof.Origin) (a2 : Reg) (a3 : Nat) (a4 : Nat) (a5 : Nat) :
    Keeps a0 (State.regAct a0 a1 a2 a3 a4 a5) := by
  unfold State.regAct
  try dsimp only
  repeat'
    first
    | with_reducible apply Keeps.refl
    | assumption
    | split
    | with_reducible apply Keeps.trans ?_ (State.writeReg_keeps _ _ _ _ _)
    | with_reducible apply Keeps.trans ?_ (State.actTil_keeps _ _ _ _ _ _ ?_)
    | with_reducible apply Keeps.trans ?_ (State.actGlm_keeps _ _ _ _ _ _ ?_)
    | with_reducible apply Keeps.trans ?_ (State.actCtx_keeps _ _ _ _ _ _ _ ?_)
    | with_reducible apply Keeps.trans ?_ (State.actHbm_keeps _ _ _ _ _ _ ?_)
    | with_reducible apply Keeps.trans ?_ (State.actFab_keeps _ _ _ _ _ _ ?_)
    | with_reducible apply Keeps.trans ?_ (State.actCol_keeps _ _ _ _ _ _ ?_)
    | with_reducible apply Keeps.trans ?_ (State.actPwr_keeps _ _ _ _ _ _ ?_)
    | with_reducible apply Keeps.trans ?_ (State.actObs_keeps _ _ _ _ _ _ ?_)
    | with_reducible apply Keeps.trans ?_ (State.actMgt_keeps _ _ _ _ _ _ _ ?_)
    | intro _
    | dsimp only

theorem State.auditWrite_keeps (a0 : State) (a1 : State) (a2 : Sys2Proof.Origin) (a3 : Reg) (a4 : Nat) (a5 :
    Nat) (a6 : Nat) : Keeps a0 (State.auditWrite a0 a1 a2 a3 a4 a5 a6) := by
  unfold State.auditWrite
  try dsimp only
  repeat'
    first
    | with_reducible apply Keeps.refl
    | assumption
    | split
    | with_reducible apply Keeps.trans ?_ (State.audit!_keeps _ _ _ _ _ _ _ _)
    | intro _
    | dsimp only

theorem State.regPut_keeps (a0 : State) (a1 : Sys2Proof.Origin) (a2 : Reg) (a3 : Nat) (a4 : Nat) (a5 : Nat) :
    Keeps a0 (State.regPut a0 a1 a2 a3 a4 a5) := by
  unfold State.regPut
  try dsimp only
  repeat'
    first
    | with_reducible apply Keeps.refl
    | assumption
    | split
    | with_reducible apply Keeps.trans ?_ (State.detWrite_keeps _ _ _)
    | with_reducible apply Keeps.trans ?_ (State.audit!_keeps _ _ _ _ _ _ _ _)
    | with_reducible apply Keeps.trans ?_ (State.auditWrite_keeps _ _ _ _ _ _ _)
    | with_reducible apply Keeps.trans ?_ (State.regAct_keeps _ _ _ _ _ _)
    | with_reducible apply Keeps.trans ?_ (State.auditClear_keeps _ _)
    | intro _
    | dsimp only

theorem State.halfPut_keeps (a0 : State) (a1 : Sys2Proof.Origin) (a2 : Reg) (a3 : Nat) (a4 : Bool) (a5 : Bool)
    (a6 : Nat) : Keeps a0 (State.halfPut a0 a1 a2 a3 a4 a5 a6) := by
  unfold State.halfPut
  try dsimp only
  repeat'
    first
    | with_reducible apply Keeps.refl
    | assumption
    | split
    | with_reducible apply Keeps.trans ?_ (State.regPut_keeps _ _ _ _ _ _)
    | with_reducible apply Keeps.trans ?_ (State.latch_keeps _ _ _ _)
    | intro _
    | dsimp only

theorem State.msixPut_keeps (a0 : State) (a1 : Nat) (a2 : Nat) (a3 : Bool) (a4 : Bool) (a5 : Nat) : Keeps a0
    (State.msixPut a0 a1 a2 a3 a4 a5) := by
  unfold State.msixPut
  try dsimp only
  repeat'
    first
    | with_reducible apply Keeps.refl
    | assumption
    | split
    | with_reducible apply Keeps.trans ?_ (State.setMsixWord_keeps _ _ _ _)
    | intro _
    | dsimp only

theorem State.placePut_keeps (a0 : State) (a1 : Sys2Proof.Origin) (a2 : Place) (a3 : Bool) (a4 : Bool) (a5 :
    Nat) : Keeps a0 (State.placePut a0 a1 a2 a3 a4 a5) := by
  unfold State.placePut
  try dsimp only
  repeat'
    first
    | with_reducible apply Keeps.refl
    | assumption
    | split
    | with_reducible apply Keeps.trans ?_ (State.halfPut_keeps _ _ _ _ _ _ _)
    | with_reducible apply Keeps.trans ?_ (State.msixPut_keeps _ _ _ _ _ _)
    | intro _
    | dsimp only

theorem State.regWrite_keeps (a0 : State) (a1 : Sys2Proof.Origin) (a2 : Nat) (a3 : Nat) (a4 : Nat) : Keeps a0
    (State.regWrite a0 a1 a2 a3 a4) := by
  unfold State.regWrite
  try dsimp only
  repeat'
    first
    | with_reducible apply Keeps.refl
    | assumption
    | split
    | with_reducible apply Keeps.trans ?_ (State.hostWakes_keeps _ _ _)
    | with_reducible apply Keeps.trans ?_ (State.placePut_keeps _ _ _ _ _ _)
    | with_reducible apply Keeps.trans ?_ (State.access_keeps _ _ _ _ ?_)
    | intro _
    | dsimp only

theorem State.latchedWrite_keeps (a0 : State) (a1 : Sys2Proof.Origin) (a2 : Nat) (a3 : Nat) : Keeps a0
    (State.latchedWrite a0 a1 a2 a3) := by
  unfold State.latchedWrite
  try dsimp only
  repeat'
    first
    | with_reducible apply Keeps.refl
    | assumption
    | split
    | with_reducible apply Keeps.trans ?_ (State.regWrite_keeps _ _ _ _ _)
    | intro _
    | dsimp only

theorem State.setJtag_keeps (a0 : State) (a1 : Nat) : Keeps a0 (State.setJtag a0 a1) := by
  unfold State.setJtag
  try dsimp only
  repeat'
    first
    | with_reducible apply Keeps.refl
    | assumption
    | simp only [Keeps.upd_iff]
    | split
    | intro _
    | dsimp only

theorem State.jtagDrive_keeps (a0 : State) (a1 : Nat) : Keeps a0 (State.jtagDrive a0 a1) := by
  unfold State.jtagDrive
  try dsimp only
  repeat'
    first
    | with_reducible apply Keeps.refl
    | assumption
    | split
    | with_reducible apply Keeps.trans ?_ (State.setJtag_keeps _ _)
    | intro _
    | dsimp only

theorem State.doJtag_keeps (a0 : State) (a1 : Sys2Proof.JtagIr) : Keeps a0 (State.doJtag a0 a1) := by
  unfold State.doJtag
  try dsimp only
  repeat'
    first
    | with_reducible apply Keeps.refl
    | assumption
    | split
    | with_reducible apply Keeps.trans ?_ (State.setJtag_keeps _ _)
    | with_reducible apply Keeps.trans ?_ (State.emit_keeps _ _)
    | with_reducible apply Keeps.trans ?_ (State.useFree_keeps _)
    | with_reducible apply Keeps.trans ?_ (State.jtagDrive_keeps _ _)
    | with_reducible apply Keeps.trans ?_ (State.regWrite_keeps _ _ _ _ _)
    | intro _
    | dsimp only

theorem State.hostWrite_keeps (a0 : State) (a1 : Bool) (a2 : Nat) (a3 : List Sys2Proof.PByte) : Keeps a0
    (State.hostWrite a0 a1 a2 a3) := by
  unfold State.hostWrite
  try dsimp only
  repeat'
    first
    | with_reducible apply Keeps.refl
    | assumption
    | split
    | with_reducible apply Keeps.trans ?_ (State.wakeUp_keeps _ _)
    | with_reducible apply Keeps.trans ?_ (State.emit_keeps _ _)
    | with_reducible apply Keeps.trans ?_ (State.count_keeps _ _ _)
    | with_reducible apply Keeps.trans ?_ (State.memWrite_keeps _ _ _ _)
    | intro _
    | dsimp only

/-! ### Tick -/

theorem State.edge_keeps (a0 : State) : Keeps a0 (State.edge a0) := by
  unfold State.edge
  try dsimp only
  repeat'
    first
    | with_reducible apply Keeps.refl
    | assumption
    | simp only [Keeps.upd_iff]
    | split
    | with_reducible apply Keeps.trans ?_ (State.setFld_keeps _ _ _ _)
    | intro _
    | dsimp only

theorem State.mgtEdge_keeps (a0 : State) : Keeps a0 (State.mgtEdge a0) := by
  unfold State.mgtEdge
  try dsimp only
  repeat'
    first
    | with_reducible apply Keeps.refl
    | assumption
    | simp only [Keeps.upd_iff]
    | split
    | intro _
    | dsimp only

theorem State.countCycles_keeps (a0 : State) (a1 : Nat) (a2 : Nat) : Keeps a0 (State.countCycles a0 a1 a2) := by
  unfold State.countCycles
  try dsimp only
  repeat'
    first
    | with_reducible apply Keeps.refl
    | assumption
    | split
    | with_reducible apply Keeps.trans ?_ (State.count_keeps _ _ _)
    | intro _
    | dsimp only

theorem State.countWaits_keeps (a0 : State) (a1 : Nat) (a2 : Nat) : Keeps a0 (State.countWaits a0 a1 a2) := by
  unfold State.countWaits
  try dsimp only
  repeat'
    first
    | with_reducible apply Keeps.refl
    | assumption
    | split
    | with_reducible apply Keeps.trans ?_ (State.satAdd_keeps _ _ _ _)
    | intro _
    | dsimp only

theorem State.countWdog_keeps (a0 : State) (a1 : Nat) (a2 : Nat) : Keeps a0 (State.countWdog a0 a1 a2) := by
  unfold State.countWdog
  try dsimp only
  repeat'
    first
    | with_reducible apply Keeps.refl
    | assumption
    | split
    | with_reducible apply Keeps.trans ?_ (State.setTil_keeps _ _ _)
    | intro _
    | dsimp only

theorem State.tilEdge_keeps (a0 : State) (a1 : Nat) (a2 : Nat) : Keeps a0 (State.tilEdge a0 a1 a2) := by
  unfold State.tilEdge
  try dsimp only
  repeat'
    first
    | with_reducible apply Keeps.refl
    | assumption
    | split
    | with_reducible apply Keeps.trans ?_ (State.countWdog_keeps _ _ _)
    | with_reducible apply Keeps.trans ?_ (State.countWaits_keeps _ _ _)
    | with_reducible apply Keeps.trans ?_ (State.countCycles_keeps _ _ _)
    | intro _
    | dsimp only

theorem State.coreEdge_keeps (a0 : State) : Keeps a0 (State.coreEdge a0) := by
  unfold State.coreEdge
  try dsimp only
  repeat'
    first
    | with_reducible apply Keeps.refl
    | assumption
    | split
    | with_reducible apply Keeps.trans ?_ (State.tilEdge_keeps _ _ _)
    | with_reducible apply Keeps.foldl _ _ ?_ ?_
    | with_reducible apply Keeps.foldl_fst _ _ ?_ ?_
    | intro _
    | dsimp only

theorem State.flowEdge_keeps (a0 : State) : Keeps a0 (State.flowEdge a0) := by
  unfold State.flowEdge
  try dsimp only
  repeat'
    first
    | with_reducible apply Keeps.refl
    | assumption
    | split
    | with_reducible apply Keeps.trans ?_ (State.drainFlow_keeps _ _ _ _)
    | with_reducible apply Keeps.foldl _ _ ?_ ?_
    | with_reducible apply Keeps.foldl_fst _ _ ?_ ?_
    | intro _
    | dsimp only

theorem State.headEdge_keeps (a0 : State) : Keeps a0 (State.headEdge a0) := by
  unfold State.headEdge
  try dsimp only
  repeat'
    first
    | with_reducible apply Keeps.refl
    | assumption
    | split
    | with_reducible apply Keeps.trans ?_ (State.reckonHeads_keeps _)
    | intro _
    | dsimp only

theorem State.scrubEdge_keeps (a0 : State) (a1 : Nat) : Keeps a0 (State.scrubEdge a0 a1) := by
  unfold State.scrubEdge
  try dsimp only
  repeat'
    first
    | with_reducible apply Keeps.refl
    | assumption
    | simp only [Keeps.upd_iff]
    | split
    | intro _
    | dsimp only

theorem tick_keeps (a0 : State) : Keeps a0 (tick a0) := by
  unfold tick
  try dsimp only
  repeat'
    first
    | with_reducible apply Keeps.refl
    | assumption
    | split
    | with_reducible apply Keeps.trans ?_ (State.flushFolds_keeps _)
    | with_reducible apply Keeps.trans ?_ (State.relayEdge_keeps _)
    | with_reducible apply Keeps.trans ?_ (State.scrubEdge_keeps _ _)
    | with_reducible apply Keeps.trans ?_ (State.flowEdge_keeps _)
    | with_reducible apply Keeps.trans ?_ (State.telDrain_keeps _)
    | with_reducible apply Keeps.trans ?_ (State.mgtEdge_keeps _)
    | with_reducible apply Keeps.trans ?_ (State.edge_keeps _)
    | with_reducible apply Keeps.trans ?_ (State.coreEdge_keeps _)
    | with_reducible apply Keeps.trans ?_ (State.headEdge_keeps _)
    | intro _
    | dsimp only

end Sys2Proof.Machine
end

