-- ==== Sys2Proof/Laws/KeepsCommands.lean ====
section
/-! SUPPORT. What every command keeps (Laws/Keeps.lean): one lemma for each meaning. -/

set_option linter.unusedTactic false
set_option linter.unreachableTactic false

set_option Elab.async false

namespace Sys2Proof.Machine

theorem execNop_keeps (a0 : Fin 12) (a1 : Fin 64) (a2 : State) {t : State} (h : execNop a0 a1 a2 = .next t) :
    Keeps a2 t := by
  obtain rfl := Host.Outcome.next.inj h
  exact State.doNop_keeps ..

theorem execFence_keeps (a0 : Fin 12) (a1 : Fin 64) (a2 : State) {t : State} (h : execFence a0 a1 a2 = .next t) :
    Keeps a2 t := by
  obtain rfl := Host.Outcome.next.inj h
  exact State.doFence_keeps ..

theorem execPset_keeps (a0 : Fin 12) (a1 : Fin 64) (a2 : State) {t : State} (h : execPset a0 a1 a2 = .next t) :
    Keeps a2 t := by
  obtain rfl := Host.Outcome.next.inj h
  exact State.doPset_keeps ..

theorem execPadd_keeps (a0 : Fin 12) (a1 : Fin 64) (a2 : State) {t : State} (h : execPadd a0 a1 a2 = .next t) :
    Keeps a2 t := by
  obtain rfl := Host.Outcome.next.inj h
  exact State.doPadd_keeps ..

theorem execPcpy_keeps (a0 : Fin 12) (a1 : Fin 64) (a2 : State) {t : State} (h : execPcpy a0 a1 a2 = .next t) :
    Keeps a2 t := by
  obtain rfl := Host.Outcome.next.inj h
  exact State.doPcpy_keeps ..

theorem execLoop_keeps (a0 : Fin 12) (a1 : Fin 64) (a2 : State) {t : State} (h : execLoop a0 a1 a2 = .next t) :
    Keeps a2 t := by
  obtain rfl := Host.Outcome.next.inj h
  exact State.doLoop_keeps ..

theorem execEndl_keeps (a0 : Fin 12) (a1 : Fin 64) (a2 : State) {t : State} (h : execEndl a0 a1 a2 = .next t) :
    Keeps a2 t := by
  obtain rfl := Host.Outcome.next.inj h
  exact State.doEndl_keeps ..

theorem execAgset_keeps (a0 : Fin 12) (a1 : Fin 64) (a2 : State) {t : State} (h : execAgset a0 a1 a2 = .next t) :
    Keeps a2 t := by
  obtain rfl := Host.Outcome.next.inj h
  exact State.doAgset_keeps ..

theorem execWait_keeps (a0 : Fin 12) (a1 : Fin 64) (a2 : State) {t : State} (h : execWait a0 a1 a2 = .next t) :
    Keeps a2 t := by
  obtain rfl := Host.Outcome.next.inj h
  exact State.doWait_keeps ..

theorem execSignal_keeps (a0 : Fin 12) (a1 : Fin 64) (a2 : State) {t : State} (h : execSignal a0 a1 a2 = .next t)
    : Keeps a2 t := by
  obtain rfl := Host.Outcome.next.inj h
  exact State.doSignal_keeps ..

theorem execEndReplay_keeps (a0 : Fin 12) (a1 : Fin 64) (a2 : State) {t : State} (h : execEndReplay a0 a1 a2 =
    .next t) : Keeps a2 t := by
  obtain rfl := Host.Outcome.next.inj h
  exact State.doEnd_keeps ..

theorem execReplayComplete_keeps (a0 : Fin 12) (a1 : Fin 64) (a2 : State) {t : State} (h : execReplayComplete a0
    a1 a2 = .next t) : Keeps a2 t := by
  obtain rfl := Host.Outcome.next.inj h
  exact State.doReplayComplete_keeps ..

theorem execLd_keeps (a0 : Fin 12) (a1 : Fin 64) (a2 : State) {t : State} (h : execLd a0 a1 a2 = .next t) : Keeps
    a2 t := by
  obtain rfl := Host.Outcome.next.inj h
  exact State.doLd_keeps ..

theorem execSt_keeps (a0 : Fin 12) (a1 : Fin 64) (a2 : State) {t : State} (h : execSt a0 a1 a2 = .next t) : Keeps
    a2 t := by
  obtain rfl := Host.Outcome.next.inj h
  exact State.doSt_keeps ..

theorem execMm_keeps (a0 : Fin 12) (a1 : Fin 64) (a2 : State) {t : State} (h : execMm a0 a1 a2 = .next t) : Keeps
    a2 t := by
  obtain rfl := Host.Outcome.next.inj h
  exact State.doMm_keeps ..

theorem execLdUnitMove_keeps (a0 : Fin 12) (a1 : Fin 64) (a2 : BitVec 5) (a3 : State) {t : State} (h :
    execLdUnitMove a0 a1 a2 a3 = .next t) : Keeps a3 t := by
  obtain rfl := Host.Outcome.next.inj h
  exact State.doLdUnit_keeps ..

theorem execStUnitMove_keeps (a0 : Fin 12) (a1 : Fin 64) (a2 : State) {t : State} (h : execStUnitMove a0 a1 a2 =
    .next t) : Keeps a2 t := by
  obtain rfl := Host.Outcome.next.inj h
  exact State.doStUnit_keeps ..

theorem execMmPassIssue_keeps (a0 : Fin 12) (a1 : Fin 64) (a2 : Fin 4) (a3 : Sys2Proof.ArrayErr) (a4 : State) {t
    : State} (h : execMmPassIssue a0 a1 a2 a3 a4 = .next t) : Keeps a4 t := by
  obtain rfl := Host.Outcome.next.inj h
  exact State.doPass_keeps ..

theorem execPassAccumulationComplete_keeps (a0 : Fin 12) (a1 : Fin 64) (a2 : Fin 4) (a3 : Sys2Proof.ArrayErr) (a4
    : State) {t : State} (h : execPassAccumulationComplete a0 a1 a2 a3 a4 = .next t) : Keeps a4 t := by
  obtain rfl := Host.Outcome.next.inj h
  exact State.doAccumulate_keeps ..

theorem execTileDrain_keeps (a0 : Fin 12) (a1 : Fin 64) (a2 : Fin 4) (a3 : Sys2Proof.ArrayErr) (a4 : State) {t :
    State} (h : execTileDrain a0 a1 a2 a3 a4 = .next t) : Keeps a4 t := by
  obtain rfl := Host.Outcome.next.inj h
  exact State.doDrain_keeps ..

theorem execMaStallClr_keeps (a0 : Fin 12) (a1 : Fin 64) (a2 : State) {t : State} (h : execMaStallClr a0 a1 a2 =
    .next t) : Keeps a2 t := by
  unfold execMaStallClr at h
  obtain rfl := Host.Outcome.next.inj h
  repeat'
    first
    | with_reducible apply Keeps.refl
    | intro _
    | with_reducible apply Keeps.trans ?_ (State.access_keeps _ _ _ _ ?_)
    | with_reducible apply Keeps.trans ?_ (State.setFld_keeps _ _ _ _)
    | dsimp only

theorem execVectorChunkIssue_keeps (a0 : Fin 12) (a1 : Fin 64) (a2 : State) {t : State} (h : execVectorChunkIssue
    a0 a1 a2 = .next t) : Keeps a2 t := by
  obtain rfl := Host.Outcome.next.inj h
  exact State.doChunk_keeps ..

theorem execStatisticRecordWrite_keeps (a0 : Fin 12) (a1 : Fin 64) (a2 : State) {t : State} (h :
    execStatisticRecordWrite a0 a1 a2 = .next t) : Keeps a2 t := by
  obtain rfl := Host.Outcome.next.inj h
  exact State.doStatRecord_keeps ..

theorem execVeStallClr_keeps (a0 : Fin 12) (a1 : Fin 64) (a2 : State) {t : State} (h : execVeStallClr a0 a1 a2 =
    .next t) : Keeps a2 t := by
  unfold execVeStallClr at h
  obtain rfl := Host.Outcome.next.inj h
  repeat'
    first
    | with_reducible apply Keeps.refl
    | intro _
    | with_reducible apply Keeps.trans ?_ (State.access_keeps _ _ _ _ ?_)
    | with_reducible apply Keeps.trans ?_ (State.setFld_keeps _ _ _ _)
    | dsimp only

theorem execFadd_keeps (a0 : Fin 12) (a1 : Fin 64) (a2 : State) {t : State} (h : execFadd a0 a1 a2 = .next t) :
    Keeps a2 t := by
  obtain rfl := Host.Outcome.next.inj h
  exact State.doVector_keeps ..

theorem execFsub_keeps (a0 : Fin 12) (a1 : Fin 64) (a2 : State) {t : State} (h : execFsub a0 a1 a2 = .next t) :
    Keeps a2 t := by
  obtain rfl := Host.Outcome.next.inj h
  exact State.doVector_keeps ..

theorem execFmul_keeps (a0 : Fin 12) (a1 : Fin 64) (a2 : State) {t : State} (h : execFmul a0 a1 a2 = .next t) :
    Keeps a2 t := by
  obtain rfl := Host.Outcome.next.inj h
  exact State.doVector_keeps ..

theorem execFma_keeps (a0 : Fin 12) (a1 : Fin 64) (a2 : State) {t : State} (h : execFma a0 a1 a2 = .next t) :
    Keeps a2 t := by
  obtain rfl := Host.Outcome.next.inj h
  exact State.doVector_keeps ..

theorem execFmin_keeps (a0 : Fin 12) (a1 : Fin 64) (a2 : State) {t : State} (h : execFmin a0 a1 a2 = .next t) :
    Keeps a2 t := by
  obtain rfl := Host.Outcome.next.inj h
  exact State.doVector_keeps ..

theorem execFmax_keeps (a0 : Fin 12) (a1 : Fin 64) (a2 : State) {t : State} (h : execFmax a0 a1 a2 = .next t) :
    Keeps a2 t := by
  obtain rfl := Host.Outcome.next.inj h
  exact State.doVector_keeps ..

theorem execFabs_keeps (a0 : Fin 12) (a1 : Fin 64) (a2 : State) {t : State} (h : execFabs a0 a1 a2 = .next t) :
    Keeps a2 t := by
  obtain rfl := Host.Outcome.next.inj h
  exact State.doVector_keeps ..

theorem execFneg_keeps (a0 : Fin 12) (a1 : Fin 64) (a2 : State) {t : State} (h : execFneg a0 a1 a2 = .next t) :
    Keeps a2 t := by
  obtain rfl := Host.Outcome.next.inj h
  exact State.doVector_keeps ..

theorem execFsgn_keeps (a0 : Fin 12) (a1 : Fin 64) (a2 : State) {t : State} (h : execFsgn a0 a1 a2 = .next t) :
    Keeps a2 t := by
  obtain rfl := Host.Outcome.next.inj h
  exact State.doVector_keeps ..

theorem execFcmp_keeps (a0 : Fin 12) (a1 : Fin 64) (a2 : State) {t : State} (h : execFcmp a0 a1 a2 = .next t) :
    Keeps a2 t := by
  obtain rfl := Host.Outcome.next.inj h
  exact State.doVector_keeps ..

theorem execSel_keeps (a0 : Fin 12) (a1 : Fin 64) (a2 : State) {t : State} (h : execSel a0 a1 a2 = .next t) :
    Keeps a2 t := by
  obtain rfl := Host.Outcome.next.inj h
  exact State.doVector_keeps ..

theorem execCvt_keeps (a0 : Fin 12) (a1 : Fin 64) (a2 : State) {t : State} (h : execCvt a0 a1 a2 = .next t) :
    Keeps a2 t := by
  obtain rfl := Host.Outcome.next.inj h
  exact State.doVector_keeps ..

theorem execRcp_keeps (a0 : Fin 12) (a1 : Fin 64) (a2 : State) {t : State} (h : execRcp a0 a1 a2 = .next t) :
    Keeps a2 t := by
  obtain rfl := Host.Outcome.next.inj h
  exact State.doVector_keeps ..

theorem execSqrt_keeps (a0 : Fin 12) (a1 : Fin 64) (a2 : State) {t : State} (h : execSqrt a0 a1 a2 = .next t) :
    Keeps a2 t := by
  obtain rfl := Host.Outcome.next.inj h
  exact State.doVector_keeps ..

theorem execRsqrt_keeps (a0 : Fin 12) (a1 : Fin 64) (a2 : State) {t : State} (h : execRsqrt a0 a1 a2 = .next t) :
    Keeps a2 t := by
  obtain rfl := Host.Outcome.next.inj h
  exact State.doVector_keeps ..

theorem execExp_keeps (a0 : Fin 12) (a1 : Fin 64) (a2 : State) {t : State} (h : execExp a0 a1 a2 = .next t) :
    Keeps a2 t := by
  obtain rfl := Host.Outcome.next.inj h
  exact State.doVector_keeps ..

theorem execExp2_keeps (a0 : Fin 12) (a1 : Fin 64) (a2 : State) {t : State} (h : execExp2 a0 a1 a2 = .next t) :
    Keeps a2 t := by
  obtain rfl := Host.Outcome.next.inj h
  exact State.doVector_keeps ..

theorem execLog_keeps (a0 : Fin 12) (a1 : Fin 64) (a2 : State) {t : State} (h : execLog a0 a1 a2 = .next t) :
    Keeps a2 t := by
  obtain rfl := Host.Outcome.next.inj h
  exact State.doVector_keeps ..

theorem execLog2_keeps (a0 : Fin 12) (a1 : Fin 64) (a2 : State) {t : State} (h : execLog2 a0 a1 a2 = .next t) :
    Keeps a2 t := by
  obtain rfl := Host.Outcome.next.inj h
  exact State.doVector_keeps ..

theorem execTanh_keeps (a0 : Fin 12) (a1 : Fin 64) (a2 : State) {t : State} (h : execTanh a0 a1 a2 = .next t) :
    Keeps a2 t := by
  obtain rfl := Host.Outcome.next.inj h
  exact State.doVector_keeps ..

theorem execSigm_keeps (a0 : Fin 12) (a1 : Fin 64) (a2 : State) {t : State} (h : execSigm a0 a1 a2 = .next t) :
    Keeps a2 t := by
  obtain rfl := Host.Outcome.next.inj h
  exact State.doVector_keeps ..

theorem execIadd_keeps (a0 : Fin 12) (a1 : Fin 64) (a2 : State) {t : State} (h : execIadd a0 a1 a2 = .next t) :
    Keeps a2 t := by
  obtain rfl := Host.Outcome.next.inj h
  exact State.doVector_keeps ..

theorem execIsub_keeps (a0 : Fin 12) (a1 : Fin 64) (a2 : State) {t : State} (h : execIsub a0 a1 a2 = .next t) :
    Keeps a2 t := by
  obtain rfl := Host.Outcome.next.inj h
  exact State.doVector_keeps ..

theorem execImin_keeps (a0 : Fin 12) (a1 : Fin 64) (a2 : State) {t : State} (h : execImin a0 a1 a2 = .next t) :
    Keeps a2 t := by
  obtain rfl := Host.Outcome.next.inj h
  exact State.doVector_keeps ..

theorem execImax_keeps (a0 : Fin 12) (a1 : Fin 64) (a2 : State) {t : State} (h : execImax a0 a1 a2 = .next t) :
    Keeps a2 t := by
  obtain rfl := Host.Outcome.next.inj h
  exact State.doVector_keeps ..

theorem execAnd_keeps (a0 : Fin 12) (a1 : Fin 64) (a2 : State) {t : State} (h : execAnd a0 a1 a2 = .next t) :
    Keeps a2 t := by
  obtain rfl := Host.Outcome.next.inj h
  exact State.doVector_keeps ..

theorem execOr_keeps (a0 : Fin 12) (a1 : Fin 64) (a2 : State) {t : State} (h : execOr a0 a1 a2 = .next t) : Keeps
    a2 t := by
  obtain rfl := Host.Outcome.next.inj h
  exact State.doVector_keeps ..

theorem execXor_keeps (a0 : Fin 12) (a1 : Fin 64) (a2 : State) {t : State} (h : execXor a0 a1 a2 = .next t) :
    Keeps a2 t := by
  obtain rfl := Host.Outcome.next.inj h
  exact State.doVector_keeps ..

theorem execShl_keeps (a0 : Fin 12) (a1 : Fin 64) (a2 : State) {t : State} (h : execShl a0 a1 a2 = .next t) :
    Keeps a2 t := by
  obtain rfl := Host.Outcome.next.inj h
  exact State.doVector_keeps ..

theorem execShr_keeps (a0 : Fin 12) (a1 : Fin 64) (a2 : State) {t : State} (h : execShr a0 a1 a2 = .next t) :
    Keeps a2 t := by
  obtain rfl := Host.Outcome.next.inj h
  exact State.doVector_keeps ..

theorem execWadd_keeps (a0 : Fin 12) (a1 : Fin 64) (a2 : State) {t : State} (h : execWadd a0 a1 a2 = .next t) :
    Keeps a2 t := by
  obtain rfl := Host.Outcome.next.inj h
  exact State.doVector_keeps ..

theorem execWcvt_keeps (a0 : Fin 12) (a1 : Fin 64) (a2 : State) {t : State} (h : execWcvt a0 a1 a2 = .next t) :
    Keeps a2 t := by
  obtain rfl := Host.Outcome.next.inj h
  exact State.doVector_keeps ..

theorem execRsum_keeps (a0 : Fin 12) (a1 : Fin 64) (a2 : State) {t : State} (h : execRsum a0 a1 a2 = .next t) :
    Keeps a2 t := by
  obtain rfl := Host.Outcome.next.inj h
  exact State.doVector_keeps ..

theorem execRsumsq_keeps (a0 : Fin 12) (a1 : Fin 64) (a2 : State) {t : State} (h : execRsumsq a0 a1 a2 = .next t)
    : Keeps a2 t := by
  obtain rfl := Host.Outcome.next.inj h
  exact State.doVector_keeps ..

theorem execRmax_keeps (a0 : Fin 12) (a1 : Fin 64) (a2 : State) {t : State} (h : execRmax a0 a1 a2 = .next t) :
    Keeps a2 t := by
  obtain rfl := Host.Outcome.next.inj h
  exact State.doVector_keeps ..

theorem execRmaxabs_keeps (a0 : Fin 12) (a1 : Fin 64) (a2 : State) {t : State} (h : execRmaxabs a0 a1 a2 = .next
    t) : Keeps a2 t := by
  obtain rfl := Host.Outcome.next.inj h
  exact State.doVector_keeps ..

theorem execMand_keeps (a0 : Fin 12) (a1 : Fin 64) (a2 : State) {t : State} (h : execMand a0 a1 a2 = .next t) :
    Keeps a2 t := by
  obtain rfl := Host.Outcome.next.inj h
  exact State.doVector_keeps ..

theorem execMor_keeps (a0 : Fin 12) (a1 : Fin 64) (a2 : State) {t : State} (h : execMor a0 a1 a2 = .next t) :
    Keeps a2 t := by
  obtain rfl := Host.Outcome.next.inj h
  exact State.doVector_keeps ..

theorem execMxor_keeps (a0 : Fin 12) (a1 : Fin 64) (a2 : State) {t : State} (h : execMxor a0 a1 a2 = .next t) :
    Keeps a2 t := by
  obtain rfl := Host.Outcome.next.inj h
  exact State.doVector_keeps ..

theorem execMnot_keeps (a0 : Fin 12) (a1 : Fin 64) (a2 : State) {t : State} (h : execMnot a0 a1 a2 = .next t) :
    Keeps a2 t := by
  obtain rfl := Host.Outcome.next.inj h
  exact State.doVector_keeps ..

theorem execVgath_keeps (a0 : Fin 12) (a1 : Fin 64) (a2 : State) {t : State} (h : execVgath a0 a1 a2 = .next t) :
    Keeps a2 t := by
  obtain rfl := Host.Outcome.next.inj h
  exact State.doVector_keeps ..

theorem execWatchdogExpiry_keeps (a0 : Fin 12) (a1 : Fin 64) (a2 : State) {t : State} (h : execWatchdogExpiry a0
    a1 a2 = .next t) : Keeps a2 t := by
  obtain rfl := Host.Outcome.next.inj h
  exact State.doWatchdog_keeps ..

theorem execHalt_keeps (a0 : Fin 12) (a1 : Fin 64) (a2 : State) {t : State} (h : execHalt a0 a1 a2 = .next t) :
    Keeps a2 t := by
  unfold execHalt at h
  obtain rfl := Host.Outcome.next.inj h
  repeat'
    first
    | with_reducible apply Keeps.refl
    | intro _
    | with_reducible apply Keeps.trans ?_ (State.access_keeps _ _ _ _ ?_)
    | with_reducible apply Keeps.trans ?_ (State.doHalt_keeps _ _)
    | dsimp only

theorem execStep_keeps (a0 : Fin 12) (a1 : Fin 64) (a2 : State) {t : State} (h : execStep a0 a1 a2 = .next t) :
    Keeps a2 t := by
  unfold execStep at h
  obtain rfl := Host.Outcome.next.inj h
  repeat'
    first
    | with_reducible apply Keeps.refl
    | intro _
    | with_reducible apply Keeps.trans ?_ (State.access_keeps _ _ _ _ ?_)
    | with_reducible apply Keeps.trans ?_ (State.doStep_keeps _ _)
    | dsimp only

theorem execResume_keeps (a0 : Fin 12) (a1 : Fin 64) (a2 : State) {t : State} (h : execResume a0 a1 a2 = .next t)
    : Keeps a2 t := by
  unfold execResume at h
  obtain rfl := Host.Outcome.next.inj h
  repeat'
    first
    | with_reducible apply Keeps.refl
    | intro _
    | with_reducible apply Keeps.trans ?_ (State.access_keeps _ _ _ _ ?_)
    | with_reducible apply Keeps.trans ?_ (State.doResume_keeps _ _)
    | dsimp only

theorem execParamWrite_keeps (a0 : Fin 12) (a1 : Fin 64) (a2 : BitVec 8) (a3 : Sys2Proof.Word) (a4 : State) {t :
    State} (h : execParamWrite a0 a1 a2 a3 a4 = .next t) : Keeps a4 t := by
  unfold execParamWrite at h
  obtain rfl := Host.Outcome.next.inj h
  repeat'
    first
    | with_reducible apply Keeps.refl
    | intro _
    | with_reducible apply Keeps.trans ?_ (State.access_keeps _ _ _ _ ?_)
    | with_reducible apply Keeps.trans ?_ (State.doParam_keeps _ _ _ _)
    | dsimp only

theorem execBreakRegisterWrite_keeps (a0 : Fin 12) (a1 : Fin 64) (a2 : Sys2Proof.Origin) (a3 : Fin 3) (a4 :
    Sys2Proof.Word) (a5 : State) {t : State} (h : execBreakRegisterWrite a0 a1 a2 a3 a4 a5 = .next t) : Keeps a5
    t := by
  unfold execBreakRegisterWrite at h
  obtain rfl := Host.Outcome.next.inj h
  repeat'
    first
    | with_reducible apply Keeps.refl
    | intro _
    | with_reducible apply Keeps.trans ?_ (State.regCmd_keeps _ _ _ _ _ _ ?_)
    | with_reducible apply Keeps.trans ?_ (State.doBreakWrite_keeps _ _ _ _)
    | dsimp only

theorem execGlumeSignalApply_keeps (a0 : BitVec 16) (a1 : BitVec 16) (a2 : State) {t : State} (h :
    execGlumeSignalApply a0 a1 a2 = .next t) : Keeps a2 t := by
  obtain rfl := Host.Outcome.next.inj h
  exact State.doSignalApply_keeps ..

theorem execNotifyFire_keeps (a0 : BitVec 12) (a1 : State) {t : State} (h : execNotifyFire a0 a1 = .next t) :
    Keeps a1 t := by
  obtain rfl := Host.Outcome.next.inj h
  exact State.doNotifyFire_keeps ..

theorem execNotifyArm_keeps (a0 : BitVec 12) (a1 : BitVec 16) (a2 : State) {t : State} (h : execNotifyArm a0 a1
    a2 = .next t) : Keeps a2 t := by
  unfold execNotifyArm at h
  obtain rfl := Host.Outcome.next.inj h
  repeat'
    first
    | with_reducible apply Keeps.refl
    | split
    | with_reducible apply Keeps.trans ?_ (State.doArm_keeps _ _ _)
    | dsimp only

theorem execWaitSatisfied_keeps (a0 : Sys2Proof.Waiter) (a1 : State) {t : State} (h : execWaitSatisfied a0 a1 =
    .next t) : Keeps a1 t := by
  obtain rfl := Host.Outcome.next.inj h
  exact State.doSatisfied_keeps ..

theorem execWaitTimeout_keeps (a0 : Sys2Proof.Waiter) (a1 : State) {t : State} (h : execWaitTimeout a0 a1 = .next
    t) : Keeps a1 t := by
  obtain rfl := Host.Outcome.next.inj h
  exact State.doTimeout_keeps ..

theorem execGlumeAllocate_keeps (a0 : Sys2Proof.Origin) (a1 : BitVec 16) (a2 : BitVec 12) (a3 : State) {t :
    State} (h : execGlumeAllocate a0 a1 a2 a3 = .next t) : Keeps a3 t := by
  unfold execGlumeAllocate at h
  obtain rfl := Host.Outcome.next.inj h
  repeat'
    first
    | with_reducible apply Keeps.refl
    | intro _
    | with_reducible apply Keeps.trans ?_ (State.adminOp_keeps _ _ _ _ _ _ ?_)
    | with_reducible apply Keeps.trans ?_ (State.doAllocate_keeps _ _ _)
    | dsimp only

theorem execGlumeFreeze_keeps (a0 : Sys2Proof.Origin) (a1 : BitVec 16) (a2 : State) {t : State} (h :
    execGlumeFreeze a0 a1 a2 = .next t) : Keeps a2 t := by
  unfold execGlumeFreeze at h
  obtain rfl := Host.Outcome.next.inj h
  repeat'
    first
    | with_reducible apply Keeps.refl
    | intro _
    | with_reducible apply Keeps.trans ?_ (State.adminOp_keeps _ _ _ _ _ _ ?_)
    | with_reducible apply Keeps.trans ?_ (State.doFreeze_keeps _ _)
    | dsimp only

theorem execGlumeFree_keeps (a0 : Sys2Proof.Origin) (a1 : BitVec 16) (a2 : State) {t : State} (h : execGlumeFree
    a0 a1 a2 = .next t) : Keeps a2 t := by
  unfold execGlumeFree at h
  obtain rfl := Host.Outcome.next.inj h
  repeat'
    first
    | with_reducible apply Keeps.refl
    | intro _
    | with_reducible apply Keeps.trans ?_ (State.adminOp_keeps _ _ _ _ _ _ ?_)
    | with_reducible apply Keeps.trans ?_ (State.doFree_keeps _ _)
    | dsimp only

theorem execGlumeRead_keeps (a0 : Sys2Proof.Origin) (a1 : BitVec 16) (a2 : State) {t : State} (h : execGlumeRead
    a0 a1 a2 = .next t) : Keeps a2 t := by
  unfold execGlumeRead at h
  obtain rfl := Host.Outcome.next.inj h
  repeat'
    first
    | with_reducible apply Keeps.refl
    | intro _
    | with_reducible apply Keeps.trans ?_ (State.adminOp_keeps _ _ _ _ _ _ ?_)
    | with_reducible apply Keeps.trans ?_ (State.doRead_keeps _ _)
    | dsimp only

theorem execGlumeAdminComplete_keeps (a0 : State) {t : State} (h : execGlumeAdminComplete a0 = .next t) : Keeps
    a0 t := by
  obtain rfl := Host.Outcome.next.inj h
  exact State.doAdminComplete_keeps ..

theorem execXlatInval_keeps (a0 : Sys2Proof.Origin) (a1 : BitVec 12) (a2 : Bool) (a3 : BitVec 16) (a4 : State) {t
    : State} (h : execXlatInval a0 a1 a2 a3 a4 = .next t) : Keeps a4 t := by
  unfold execXlatInval at h
  obtain rfl := Host.Outcome.next.inj h
  repeat'
    first
    | with_reducible apply Keeps.refl
    | intro _
    | split
    | with_reducible apply Keeps.trans ?_ (State.access_keeps _ _ _ _ ?_)
    | with_reducible apply Keeps.trans ?_ (State.doXlatInval_keeps _ _ _ _)
    | with_reducible apply Keeps.trans ?_ (State.latch_keeps _ _ _ _)
    | dsimp only

theorem execXlatInvalComplete_keeps (a0 : State) {t : State} (h : execXlatInvalComplete a0 = .next t) : Keeps a0
    t := by
  obtain rfl := Host.Outcome.next.inj h
  exact State.doXlatInvalComplete_keeps ..

theorem execHostSignal_keeps (a0 : BitVec 12) (a1 : BitVec 16) (a2 : State) {t : State} (h : execHostSignal a0 a1
    a2 = .next t) : Keeps a2 t := by
  unfold execHostSignal at h
  obtain rfl := Host.Outcome.next.inj h
  repeat'
    first
    | with_reducible apply Keeps.refl
    | split
    | with_reducible apply Keeps.trans ?_ (State.sendSignalBy_keeps _ _ _ _ _ _)
    | dsimp only

theorem execGlumeValueRead_keeps (a0 : BitVec 12) (a1 : State) {t : State} (h : execGlumeValueRead a0 a1 = .next
    t) : Keeps a1 t := by
  unfold execGlumeValueRead at h
  obtain rfl := Host.Outcome.next.inj h
  repeat'
    first
    | with_reducible apply Keeps.refl
    | simp only [Keeps.upd_iff]
    | split
    | with_reducible apply Keeps.trans ?_ (State.doValueRead_keeps _ _)
    | dsimp only

theorem execGangCmpWrite_keeps (a0 : Fin 12) (a1 : Fin 64) (a2 : Sys2Proof.Origin) (a3 : BitVec 2) (a4 : Bool)
    (a5 : State) {t : State} (h : execGangCmpWrite a0 a1 a2 a3 a4 a5 = .next t) : Keeps a5 t := by
  unfold execGangCmpWrite at h
  obtain rfl := Host.Outcome.next.inj h
  repeat'
    first
    | with_reducible apply Keeps.refl
    | intro _
    | split
    | with_reducible apply Keeps.trans ?_ (State.regCmd_keeps _ _ _ _ _ _ ?_)
    | with_reducible apply Keeps.trans ?_ (State.doGang_keeps _ _ _ _)
    | dsimp only

theorem execDoorbellSnoop_keeps (a0 : BitVec 14) (a1 : Option Sys2Proof.HostErr) (a2 : State) {t : State} (h :
    execDoorbellSnoop a0 a1 a2 = .next t) : Keeps a2 t := by
  obtain rfl := Host.Outcome.next.inj h
  exact State.doSnoop_keeps ..

theorem execDoorbellPoll_keeps (a0 : BitVec 14) (a1 : Option Sys2Proof.HostErr) (a2 : State) {t : State} (h :
    execDoorbellPoll a0 a1 a2 = .next t) : Keeps a2 t := by
  obtain rfl := Host.Outcome.next.inj h
  exact State.doPoll_keeps ..

theorem execRingEnable_keeps (a0 : Sys2Proof.Origin) (a1 : BitVec 14) (a2 : State) {t : State} (h :
    execRingEnable a0 a1 a2 = .next t) : Keeps a2 t := by
  unfold execRingEnable at h
  obtain rfl := Host.Outcome.next.inj h
  repeat'
    first
    | with_reducible apply Keeps.refl
    | intro _
    | with_reducible apply Keeps.trans ?_ (State.ringAccess_keeps _ _ _ _ ?_)
    | with_reducible apply Keeps.trans ?_ (State.doRingEnable_keeps _ _)
    | dsimp only

theorem execCommandFetch_keeps (a0 : BitVec 14) (a1 : Option Sys2Proof.HostErr) (a2 : State) {t : State} (h :
    execCommandFetch a0 a1 a2 = .next t) : Keeps a2 t := by
  obtain rfl := Host.Outcome.next.inj h
  exact State.doFetch_keeps ..

theorem execCommandNop_keeps (a0 : BitVec 14) (a1 : State) {t : State} (h : execCommandNop a0 a1 = .next t) :
    Keeps a1 t := by
  obtain rfl := Host.Outcome.next.inj h
  exact State.doCmdNop_keeps ..

theorem execRun_keeps (a0 : BitVec 14) (a1 : Option Sys2Proof.HostErr) (a2 : State) {t : State} (h : execRun a0
    a1 a2 = .next t) : Keeps a2 t := by
  obtain rfl := Host.Outcome.next.inj h
  exact State.doRun_keeps ..

theorem execXfer_keeps (a0 : BitVec 14) (a1 : Option Sys2Proof.HostErr) (a2 : State) {t : State} (h : execXfer
    a0 a1 a2 = .next t) : Keeps a2 t := by
  obtain rfl := Host.Outcome.next.inj h
  exact State.doXfer_keeps ..

theorem execCommandComplete_keeps (a0 : BitVec 14) (a1 : Sys2Proof.Word) (a2 : State) {t : State} (h :
    execCommandComplete a0 a1 a2 = .next t) : Keeps a2 t := by
  obtain rfl := Host.Outcome.next.inj h
  exact State.doComplete_keeps ..

theorem execRingCancel_keeps (a0 : Sys2Proof.Origin) (a1 : BitVec 14) (a2 : Sys2Proof.Word) (a3 : State) {t :
    State} (h : execRingCancel a0 a1 a2 a3 = .next t) : Keeps a3 t := by
  unfold execRingCancel at h
  obtain rfl := Host.Outcome.next.inj h
  repeat'
    first
    | with_reducible apply Keeps.refl
    | intro _
    | with_reducible apply Keeps.trans ?_ (State.ringAccess_keeps _ _ _ _ ?_)
    | with_reducible apply Keeps.trans ?_ (State.doCancel_keeps _ _ _)
    | with_reducible apply Keeps.trans ?_ (State.latch_keeps _ _ _ _)
    | dsimp only

theorem execCancelledRetire_keeps (a0 : BitVec 14) (a1 : State) {t : State} (h : execCancelledRetire a0 a1 =
    .next t) : Keeps a1 t := by
  obtain rfl := Host.Outcome.next.inj h
  exact State.doRetire_keeps ..

theorem execRingResume_keeps (a0 : Sys2Proof.Origin) (a1 : BitVec 14) (a2 : State) {t : State} (h :
    execRingResume a0 a1 a2 = .next t) : Keeps a2 t := by
  unfold execRingResume at h
  obtain rfl := Host.Outcome.next.inj h
  repeat'
    first
    | with_reducible apply Keeps.refl
    | intro _
    | with_reducible apply Keeps.trans ?_ (State.ringAccess_keeps _ _ _ _ ?_)
    | with_reducible apply Keeps.trans ?_ (State.doRingResume_keeps _ _)
    | dsimp only

theorem execContextEnable_keeps (a0 : Sys2Proof.Origin) (a1 : BitVec 12) (a2 : Bool) (a3 : State) {t : State} (h
    : execContextEnable a0 a1 a2 a3 = .next t) : Keeps a3 t := by
  unfold execContextEnable at h
  obtain rfl := Host.Outcome.next.inj h
  repeat'
    first
    | with_reducible apply Keeps.refl
    | intro _
    | split
    | with_reducible apply Keeps.trans ?_ (State.regCmd_keeps _ _ _ _ _ _ ?_)
    | with_reducible apply Keeps.trans ?_ (State.doCtxEnable_keeps _ _ _)
    | dsimp only

theorem execTranslationResume_keeps (a0 : BitVec 12) (a1 : State) {t : State} (h : execTranslationResume a0 a1 =
    .next t) : Keeps a1 t := by
  unfold execTranslationResume at h
  obtain rfl := Host.Outcome.next.inj h
  repeat'
    first
    | with_reducible apply Keeps.refl
    | split
    | with_reducible apply Keeps.trans ?_ (State.doXlatResume_keeps _ _)
    | dsimp only

theorem execTlbInval_keeps (a0 : BitVec 12) (a1 : Bool) (a2 : Sys2Proof.Word) (a3 : State) {t : State} (h :
    execTlbInval a0 a1 a2 a3 = .next t) : Keeps a3 t := by
  unfold execTlbInval at h
  obtain rfl := Host.Outcome.next.inj h
  repeat'
    first
    | with_reducible apply Keeps.refl
    | split
    | with_reducible apply Keeps.trans ?_ (State.doTlbInval_keeps _ _ _ _)
    | with_reducible apply Keeps.trans ?_ (State.latch_keeps _ _ _ _)
    | dsimp only

theorem execTlbInvalComplete_keeps (a0 : BitVec 12) (a1 : State) {t : State} (h : execTlbInvalComplete a0 a1 =
    .next t) : Keeps a1 t := by
  obtain rfl := Host.Outcome.next.inj h
  exact State.doTlbDone_keeps ..

theorem execContextReset_keeps (a0 : BitVec 12) (a1 : State) {t : State} (h : execContextReset a0 a1 = .next t) :
    Keeps a1 t := by
  unfold execContextReset at h
  obtain rfl := Host.Outcome.next.inj h
  repeat'
    first
    | with_reducible apply Keeps.refl
    | split
    | with_reducible apply Keeps.trans ?_ (State.doCtxReset_keeps _ _ _)
    | dsimp only

theorem execFunctionLevelReset_keeps (a0 : BitVec 12) (a1 : State) {t : State} (h : execFunctionLevelReset a0 a1
    = .next t) : Keeps a1 t := by
  obtain rfl := Host.Outcome.next.inj h
  exact State.doFlr_keeps ..

theorem execContextResetDone_keeps (a0 : BitVec 12) (a1 : State) {t : State} (h : execContextResetDone a0 a1 =
    .next t) : Keeps a1 t := by
  obtain rfl := Host.Outcome.next.inj h
  exact State.doResetDone_keeps ..

theorem execMsixMessage_keeps (a0 : BitVec 12) (a1 : Fin 8) (a2 : State) {t : State} (h : execMsixMessage a0 a1
    a2 = .next t) : Keeps a2 t := by
  obtain rfl := Host.Outcome.next.inj h
  exact State.doMsix_keeps ..

theorem execScrubRead_keeps (a0 : BitVec 40) (a1 : Sys2Proof.EccErr) (a2 : Bool) (a3 : State) {t : State} (h :
    execScrubRead a0 a1 a2 a3 = .next t) : Keeps a3 t := by
  obtain rfl := Host.Outcome.next.inj h
  exact State.doScrub_keeps ..

theorem execGoSoft_keeps (a0 : Sys2Proof.Origin) (a1 : Sys2Proof.Word) (a2 : State) {t : State} (h : execGoSoft
    a0 a1 a2 = .next t) : Keeps a2 t := by
  unfold execGoSoft at h
  obtain rfl := Host.Outcome.next.inj h
  repeat'
    first
    | with_reducible apply Keeps.refl
    | intro _
    | with_reducible apply Keeps.trans ?_ (State.regCmd_keeps _ _ _ _ _ _ ?_)
    | with_reducible apply Keeps.trans ?_ (State.repairWrite_keeps _ _ _ _ _)
    | dsimp only

theorem execGoHard_keeps (a0 : Sys2Proof.Origin) (a1 : Sys2Proof.Word) (a2 : State) {t : State} (h : execGoHard
    a0 a1 a2 = .next t) : Keeps a2 t := by
  obtain rfl := Host.Outcome.next.inj h
  exact State.doGoHard_keeps ..

theorem execHbmRepairDone_keeps (a0 : Bool) (a1 : State) {t : State} (h : execHbmRepairDone a0 a1 = .next t) :
    Keeps a1 t := by
  obtain rfl := Host.Outcome.next.inj h
  exact State.doRepairDone_keeps ..

theorem execHbmRetire_keeps (a0 : Sys2Proof.Origin) (a1 : BitVec 19) (a2 : State) {t : State} (h : execHbmRetire
    a0 a1 a2 = .next t) : Keeps a2 t := by
  unfold execHbmRetire at h
  obtain rfl := Host.Outcome.next.inj h
  repeat'
    first
    | with_reducible apply Keeps.refl
    | intro _
    | with_reducible apply Keeps.trans ?_ (State.regCmd_keeps _ _ _ _ _ _ ?_)
    | with_reducible apply Keeps.trans ?_ (State.retirePage_keeps _ _)
    | dsimp only

theorem execHbmRetireClr_keeps (a0 : Sys2Proof.Origin) (a1 : State) {t : State} (h : execHbmRetireClr a0 a1 =
    .next t) : Keeps a1 t := by
  unfold execHbmRetireClr at h
  obtain rfl := Host.Outcome.next.inj h
  repeat'
    first
    | with_reducible apply Keeps.refl
    | intro _
    | with_reducible apply Keeps.trans ?_ (State.rwpCmd_keeps _ _ _ _ _ _ ?_)
    | with_reducible apply Keeps.trans ?_ (State.clearRetired_keeps _)
    | dsimp only

theorem execRegionWrite_keeps (a0 : Sys2Proof.Origin) (a1 : Bool) (a2 : Sys2Proof.Word) (a3 : State) {t : State}
    (h : execRegionWrite a0 a1 a2 a3 = .next t) : Keeps a3 t := by
  unfold execRegionWrite at h
  obtain rfl := Host.Outcome.next.inj h
  repeat'
    first
    | with_reducible apply Keeps.refl
    | intro _
    | split
    | with_reducible apply Keeps.trans ?_ (State.regCmd_keeps _ _ _ _ _ _ ?_)
    | with_reducible apply Keeps.trans ?_ (State.regionWrite_keeps _ _ _ _)
    | dsimp only

theorem execCopy_keeps (a0 : Fin 12) (a1 : Nat) (a2 : Option Sys2Proof.HostErr) (a3 : State) {t : State} (h :
    execCopy a0 a1 a2 a3 = .next t) : Keeps a3 t := by
  obtain rfl := Host.Outcome.next.inj h
  exact State.doCopy_keeps ..

theorem execFill_keeps (a0 : Fin 12) (a1 : Nat) (a2 : State) {t : State} (h : execFill a0 a1 a2 = .next t) :
    Keeps a2 t := by
  obtain rfl := Host.Outcome.next.inj h
  exact State.doFill_keeps ..

theorem execMilletRead_keeps (a0 : Fin 12) (a1 : Nat) (a2 : Option Sys2Proof.HostErr) (a3 : State) {t : State}
    (h : execMilletRead a0 a1 a2 a3 = .next t) : Keeps a3 t := by
  obtain rfl := Host.Outcome.next.inj h
  exact State.doMillet_keeps ..

theorem execMilletWrite_keeps (a0 : Fin 12) (a1 : Nat) (a2 : Option Sys2Proof.HostErr) (a3 : State) {t : State}
    (h : execMilletWrite a0 a1 a2 a3 = .next t) : Keeps a3 t := by
  obtain rfl := Host.Outcome.next.inj h
  exact State.doMillet_keeps ..

theorem execMilletAdd32_keeps (a0 : Fin 12) (a1 : Nat) (a2 : Option Sys2Proof.HostErr) (a3 : State) {t : State}
    (h : execMilletAdd32 a0 a1 a2 a3 = .next t) : Keeps a3 t := by
  obtain rfl := Host.Outcome.next.inj h
  exact State.doMillet_keeps ..

theorem execMilletAdd64_keeps (a0 : Fin 12) (a1 : Nat) (a2 : Option Sys2Proof.HostErr) (a3 : State) {t : State}
    (h : execMilletAdd64 a0 a1 a2 a3 = .next t) : Keeps a3 t := by
  obtain rfl := Host.Outcome.next.inj h
  exact State.doMillet_keeps ..

theorem execDigestPiece_keeps (a0 : Fin 12) (a1 : Nat) (a2 : Option Sys2Proof.HostErr) (a3 : State) {t : State}
    (h : execDigestPiece a0 a1 a2 a3 = .next t) : Keeps a3 t := by
  obtain rfl := Host.Outcome.next.inj h
  exact State.doDigest_keeps ..

theorem execDigestPieceCopy_keeps (a0 : Fin 12) (a1 : Nat) (a2 : Option Sys2Proof.HostErr) (a3 : State) {t :
    State} (h : execDigestPieceCopy a0 a1 a2 a3 = .next t) : Keeps a3 t := by
  obtain rfl := Host.Outcome.next.inj h
  exact State.doDigest_keeps ..

theorem execDigestFinal_keeps (a0 : Fin 12) (a1 : Nat) (a2 : Option Sys2Proof.HostErr) (a3 : State) {t : State}
    (h : execDigestFinal a0 a1 a2 a3 = .next t) : Keeps a3 t := by
  obtain rfl := Host.Outcome.next.inj h
  exact State.doDigest_keeps ..

theorem execDigestProv_keeps (a0 : Fin 12) (a1 : Nat) (a2 : Option Sys2Proof.HostErr) (a3 : State) {t : State}
    (h : execDigestProv a0 a1 a2 a3 = .next t) : Keeps a3 t := by
  obtain rfl := Host.Outcome.next.inj h
  exact State.doDigest_keeps ..

theorem execTransferOperationComplete_keeps (a0 : Fin 12) (a1 : Nat) (a2 : State) {t : State} (h :
    execTransferOperationComplete a0 a1 a2 = .next t) : Keeps a2 t := by
  obtain rfl := Host.Outcome.next.inj h
  exact State.doOpComplete_keeps ..

theorem execFarMemoryTimeout_keeps (a0 : Sys2Proof.FarWaiter) (a1 : State) {t : State} (h : execFarMemoryTimeout
    a0 a1 = .next t) : Keeps a1 t := by
  obtain rfl := Host.Outcome.next.inj h
  split
  · exact State.doFarTimeout_keeps ..
  · split
    · exact State.linkFarTimeout_keeps ..
    · exact Keeps.refl _

theorem execFarLinkDown_keeps (a0 : State) {t : State} (h : execFarLinkDown a0 = .next t) : Keeps a0 t := by
  obtain rfl := Host.Outcome.next.inj h
  exact State.doFarDown_keeps ..

theorem execBarrierSlotConfig_keeps (a0 : Sys2Proof.Origin) (a1 : Fin 16) (a2 : Fin 2) (a3 : Sys2Proof.Word) (a4
    : State) {t : State} (h : execBarrierSlotConfig a0 a1 a2 a3 a4 = .next t) : Keeps a4 t := by
  unfold execBarrierSlotConfig at h
  obtain rfl := Host.Outcome.next.inj h
  repeat'
    first
    | with_reducible apply Keeps.refl
    | intro _
    | split
    | with_reducible apply Keeps.trans ?_ (State.regCmd_keeps _ _ _ _ _ _ ?_)
    | with_reducible apply Keeps.trans ?_ (State.doBarConfig_keeps _ _ _ _)
    | dsimp only

theorem execBarrierArrive_keeps (a0 : Fin 16) (a1 : State) {t : State} (h : execBarrierArrive a0 a1 = .next t) :
    Keeps a1 t := by
  obtain rfl := Host.Outcome.next.inj h
  exact State.doArrive_keeps ..

theorem execArrivalToken_keeps (a0 : Fin 8) (a1 : BitVec 256) (a2 : Fin 16) (a3 : BitVec 32) (a4 : BitVec 16)
    (a5 : State) {t : State} (h : execArrivalToken a0 a1 a2 a3 a4 a5 = .next t) : Keeps a5 t := by
  obtain rfl := Host.Outcome.next.inj h
  exact State.tokenPkt_keeps _ _ _ _ _ (fun _ => State.doArrivalToken_keeps ..)

theorem execReleaseToken_keeps (a0 : Fin 8) (a1 : BitVec 256) (a2 : Fin 16) (a3 : BitVec 32) (a4 : Sys2Proof.Word)
    (a5 : BitVec 16) (a6 : State) {t : State} (h : execReleaseToken a0 a1 a2 a3 a4 a5 a6 = .next t) : Keeps a6 t := by
  obtain rfl := Host.Outcome.next.inj h
  exact State.tokenPkt_keeps _ _ _ _ _ (fun _ => State.doReleaseToken_keeps ..)

theorem execBarrierRelease_keeps (a0 : Fin 16) (a1 : State) {t : State} (h : execBarrierRelease a0 a1 = .next t)
    : Keeps a1 t := by
  obtain rfl := Host.Outcome.next.inj h
  exact State.doBarRelease_keeps ..

theorem execBarrierRoundTimeout_keeps (a0 : Fin 16) (a1 : State) {t : State} (h : execBarrierRoundTimeout a0 a1 =
    .next t) : Keeps a1 t := by
  obtain rfl := Host.Outcome.next.inj h
  exact State.doRoundTimeout_keeps ..

theorem execPacketForward_keeps (a0 : Fin 9) (a1 : Fin 7) (a2 : State) {t : State} (h : execPacketForward a0 a1
    a2 = .next t) : Keeps a2 t := by
  unfold execPacketForward at h
  obtain rfl := Host.Outcome.next.inj h
  repeat'
    first
    | with_reducible apply Keeps.refl
    | split
    | with_reducible apply Keeps.trans ?_ (State.serve_keeps _ _ _ _)
    | dsimp only

theorem execAgingServe_keeps (a0 : Fin 9) (a1 : Fin 7) (a2 : State) {t : State} (h : execAgingServe a0 a1 a2 =
    .next t) : Keeps a2 t := by
  obtain rfl := Host.Outcome.next.inj h
  exact State.doAging_keeps ..

theorem execEscapeMove_keeps (a0 : Fin 9) (a1 : Fin 7) (a2 : State) {t : State} (h : execEscapeMove a0 a1 a2 =
    .next t) : Keeps a2 t := by
  obtain rfl := Host.Outcome.next.inj h
  exact State.doEscape_keeps ..

theorem execPacketInject_keeps (a0 : BitVec 14) (a1 : State) {t : State} (h : execPacketInject a0 a1 = .next t) :
    Keeps a1 t := by
  obtain rfl := Host.Outcome.next.inj h
  exact State.doInject_keeps ..

theorem execWrite_keeps (a0 : Fin 8) (a1 : BitVec 256) (a2 : List Sys2Proof.Byte) (a3 : State) {t : State} (h :
    execWrite a0 a1 a2 a3 = .next t) : Keeps a3 t := by
  obtain rfl := Host.Outcome.next.inj h
  exact State.arrive_keeps ..

theorem execStream_keeps (a0 : Fin 8) (a1 : BitVec 256) (a2 : List Sys2Proof.Byte) (a3 : State) {t : State} (h :
    execStream a0 a1 a2 a3 = .next t) : Keeps a3 t := by
  obtain rfl := Host.Outcome.next.inj h
  exact State.arrive_keeps ..

theorem execReadReq_keeps (a0 : Fin 8) (a1 : BitVec 256) (a2 : List Sys2Proof.Byte) (a3 : State) {t : State} (h :
    execReadReq a0 a1 a2 a3 = .next t) : Keeps a3 t := by
  obtain rfl := Host.Outcome.next.inj h
  exact State.arrive_keeps ..

theorem execReadResp_keeps (a0 : Fin 8) (a1 : BitVec 256) (a2 : List Sys2Proof.Byte) (a3 : State) {t : State} (h
    : execReadResp a0 a1 a2 a3 = .next t) : Keeps a3 t := by
  obtain rfl := Host.Outcome.next.inj h
  exact State.arrive_keeps ..

theorem execRemoteSignal_keeps (a0 : Fin 8) (a1 : BitVec 256) (a2 : List Sys2Proof.Byte) (a3 : State) {t : State}
    (h : execRemoteSignal a0 a1 a2 a3 = .next t) : Keeps a3 t := by
  obtain rfl := Host.Outcome.next.inj h
  exact State.arrive_keeps ..

theorem execAck_keeps (a0 : Fin 8) (a1 : BitVec 256) (a2 : List Sys2Proof.Byte) (a3 : State) {t : State} (h :
    execAck a0 a1 a2 a3 = .next t) : Keeps a3 t := by
  obtain rfl := Host.Outcome.next.inj h
  exact State.arrive_keeps ..

theorem execNak_keeps (a0 : Fin 8) (a1 : BitVec 256) (a2 : List Sys2Proof.Byte) (a3 : State) {t : State} (h :
    execNak a0 a1 a2 a3 = .next t) : Keeps a3 t := by
  obtain rfl := Host.Outcome.next.inj h
  exact State.arrive_keeps ..

theorem execUnreach_keeps (a0 : Fin 8) (a1 : BitVec 256) (a2 : List Sys2Proof.Byte) (a3 : State) {t : State} (h :
    execUnreach a0 a1 a2 a3 = .next t) : Keeps a3 t := by
  obtain rfl := Host.Outcome.next.inj h
  exact State.arrive_keeps ..

theorem execLine_keeps (a0 : Fin 8) (a1 : BitVec 256) (a2 : List Sys2Proof.Byte) (a3 : State) {t : State} (h :
    execLine a0 a1 a2 a3 = .next t) : Keeps a3 t := by
  unfold execLine at h
  obtain rfl := Host.Outcome.next.inj h
  repeat'
    first
    | with_reducible apply Keeps.refl
    | intro _
    | with_reducible apply Keeps.trans ?_ (State.checkPkt_keeps _ _ _ _ _ _ ?_)
    | with_reducible apply Keeps.trans ?_ (State.lineGot_keeps _ _ _)
    | dsimp only

theorem execRemoteSignalRelease_keeps (a0 : BitVec 14) (a1 : State) {t : State} (h : execRemoteSignalRelease a0
    a1 = .next t) : Keeps a1 t := by
  obtain rfl := Host.Outcome.next.inj h
  exact State.doRelease_keeps ..

theorem execAckTimer_keeps (a0 : BitVec 14) (a1 : State) {t : State} (h : execAckTimer a0 a1 = .next t) : Keeps
    a1 t := by
  obtain rfl := Host.Outcome.next.inj h
  exact State.doAckTimer_keeps ..

theorem execGapTimeout_keeps (a0 : BitVec 14) (a1 : State) {t : State} (h : execGapTimeout a0 a1 = .next t) :
    Keeps a1 t := by
  obtain rfl := Host.Outcome.next.inj h
  exact State.doGap_keeps ..

theorem execRtoExpire_keeps (a0 : BitVec 14) (a1 : State) {t : State} (h : execRtoExpire a0 a1 = .next t) : Keeps
    a1 t := by
  obtain rfl := Host.Outcome.next.inj h
  exact State.doRto_keeps ..

theorem execFlowRead_keeps (a0 : Sys2Proof.Origin) (a1 : Bool) (a2 : BitVec 14) (a3 : State) {t : State} (h :
    execFlowRead a0 a1 a2 a3 = .next t) : Keeps a3 t := by
  unfold execFlowRead at h
  obtain rfl := Host.Outcome.next.inj h
  repeat'
    first
    | with_reducible apply Keeps.refl
    | intro _
    | with_reducible apply Keeps.trans ?_ (State.regCmd_keeps _ _ _ _ _ _ ?_)
    | with_reducible apply Keeps.trans ?_ (State.flowRead_keeps _ _ _)
    | dsimp only

theorem execFlowOpen_keeps (a0 : Sys2Proof.Origin) (a1 : Bool) (a2 : BitVec 14) (a3 : State) {t : State} (h :
    execFlowOpen a0 a1 a2 a3 = .next t) : Keeps a3 t := by
  unfold execFlowOpen at h
  obtain rfl := Host.Outcome.next.inj h
  repeat'
    first
    | with_reducible apply Keeps.refl
    | intro _
    | with_reducible apply Keeps.trans ?_ (State.regCmd_keeps _ _ _ _ _ _ ?_)
    | with_reducible apply Keeps.trans ?_ (State.flowOpen_keeps _ _ _)
    | dsimp only

theorem execFlowClose_keeps (a0 : Sys2Proof.Origin) (a1 : Bool) (a2 : BitVec 14) (a3 : State) {t : State} (h :
    execFlowClose a0 a1 a2 a3 = .next t) : Keeps a3 t := by
  unfold execFlowClose at h
  obtain rfl := Host.Outcome.next.inj h
  repeat'
    first
    | with_reducible apply Keeps.refl
    | intro _
    | with_reducible apply Keeps.trans ?_ (State.regCmd_keeps _ _ _ _ _ _ ?_)
    | with_reducible apply Keeps.trans ?_ (State.flowClose_keeps _ _ _)
    | dsimp only

theorem execGroupArm_keeps (a0 : Sys2Proof.Origin) (a1 : BitVec 8) (a2 : State) {t : State} (h : execGroupArm a0
    a1 a2 = .next t) : Keeps a2 t := by
  unfold execGroupArm at h
  obtain rfl := Host.Outcome.next.inj h
  repeat'
    first
    | with_reducible apply Keeps.refl
    | intro _
    | with_reducible apply Keeps.trans ?_ (State.regCmd_keeps _ _ _ _ _ _ ?_)
    | with_reducible apply Keeps.trans ?_ (State.armGroup_keeps _ _)
    | dsimp only

theorem execGroupDisarm_keeps (a0 : Sys2Proof.Origin) (a1 : BitVec 8) (a2 : State) {t : State} (h :
    execGroupDisarm a0 a1 a2 = .next t) : Keeps a2 t := by
  unfold execGroupDisarm at h
  obtain rfl := Host.Outcome.next.inj h
  repeat'
    first
    | with_reducible apply Keeps.refl
    | intro _
    | with_reducible apply Keeps.trans ?_ (State.regCmd_keeps _ _ _ _ _ _ ?_)
    | with_reducible apply Keeps.trans ?_ (State.disarmGroup_keeps _ _)
    | dsimp only

theorem execChunkEnter_keeps (a0 : Fin 12) (a1 : Fin 64) (a2 : BitVec 5) (a3 : Fin 5) (a4 : State) {t : State} (h
    : execChunkEnter a0 a1 a2 a3 a4 = .next t) : Keeps a4 t := by
  obtain rfl := Host.Outcome.next.inj h
  exact State.doChunkEnter_keeps ..

theorem execColPartial_keeps (a0 : Fin 8) (a1 : BitVec 256) (a2 : List Sys2Proof.Byte) (a3 : Fin 5) (a4 : State)
    {t : State} (h : execColPartial a0 a1 a2 a3 a4 = .next t) : Keeps a4 t := by
  obtain rfl := Host.Outcome.next.inj h
  exact State.arrive_keeps ..

theorem execColFinal_keeps (a0 : Fin 8) (a1 : BitVec 256) (a2 : List Sys2Proof.Byte) (a3 : State) {t : State} (h
    : execColFinal a0 a1 a2 a3 = .next t) : Keeps a3 t := by
  obtain rfl := Host.Outcome.next.inj h
  exact State.arrive_keeps ..

theorem execColExp_keeps (a0 : Fin 8) (a1 : BitVec 256) (a2 : List Sys2Proof.Byte) (a3 : State) {t : State} (h :
    execColExp a0 a1 a2 a3 = .next t) : Keeps a3 t := by
  obtain rfl := Host.Outcome.next.inj h
  exact State.arrive_keeps ..

theorem execColRow_keeps (a0 : Fin 8) (a1 : BitVec 256) (a2 : List Sys2Proof.Byte) (a3 : State) {t : State} (h :
    execColRow a0 a1 a2 a3 = .next t) : Keeps a3 t := by
  obtain rfl := Host.Outcome.next.inj h
  exact State.arrive_keeps ..

theorem execRouteRecord_keeps (a0 : Fin 12) (a1 : Fin 64) (a2 : BitVec 5) (a3 : State) {t : State} (h :
    execRouteRecord a0 a1 a2 a3 = .next t) : Keeps a3 t := by
  obtain rfl := Host.Outcome.next.inj h
  exact State.doRoute_keeps ..

theorem execLaneEnd_keeps (a0 : Fin 12) (a1 : Fin 64) (a2 : BitVec 5) (a3 : State) {t : State} (h : execLaneEnd
    a0 a1 a2 a3 = .next t) : Keeps a3 t := by
  obtain rfl := Host.Outcome.next.inj h
  exact State.doLaneEnd_keeps ..

theorem execMarkerReceive_keeps (a0 : Fin 8) (a1 : Fin 45) (a2 : Sys2Proof.Word) (a3 : Nat) (a4 : Fin 241) (a5 :
    Fin 9) (a6 : State) {t : State} (h : execMarkerReceive a0 a1 a2 a3 a4 a5 a6 = .next t) : Keeps a6 t := by
  obtain rfl := Host.Outcome.next.inj h
  exact State.doMarker_keeps ..

theorem execChannelFail_keeps (a0 : Fin 8) (a1 : Fin 45) (a2 : Bool) (a3 : State) {t : State} (h :
    execChannelFail a0 a1 a2 a3 = .next t) : Keeps a3 t := by
  obtain rfl := Host.Outcome.next.inj h
  exact State.doChannelFail_keeps ..

theorem execChannelSymbolRateFail_keeps (a0 : Fin 8) (a1 : Fin 45) (a2 : State) {t : State} (h :
    execChannelSymbolRateFail a0 a1 a2 = .next t) : Keeps a2 t := by
  obtain rfl := Host.Outcome.next.inj h
  exact State.doSymbolFail_keeps ..

theorem execLaserFail_keeps (a0 : Fin 8) (a1 : Fin 45) (a2 : State) {t : State} (h : execLaserFail a0 a1 a2 =
    .next t) : Keeps a2 t := by
  obtain rfl := Host.Outcome.next.inj h
  exact State.doLaserFail_keeps ..

theorem execUcieModuleLost_keeps (a0 : Fin 8) (a1 : Fin 4) (a2 : State) {t : State} (h : execUcieModuleLost a0 a1
    a2 = .next t) : Keeps a2 t := by
  obtain rfl := Host.Outcome.next.inj h
  exact State.doModuleLost_keeps ..

theorem execSlotReceive_keeps (a0 : Fin 8) (a1 : Bool) (a2 : BitVec 48) (a3 : Bool) (a4 : List (Option (BitVec
    256))) (a5 : State) {t : State} (h : execSlotReceive a0 a1 a2 a3 a4 a5 = .next t) : Keeps a5 t := by
  obtain rfl := Host.Outcome.next.inj h
  exact State.doSlot_keeps ..

theorem execLcfReceive_keeps (a0 : Fin 8) (a1 : List Sys2Proof.Byte) (a2 : State) {t : State} (h : execLcfReceive
    a0 a1 a2 = .next t) : Keeps a2 t := by
  obtain rfl := Host.Outcome.next.inj h
  exact State.doLcf_keeps ..

theorem execLcfTimeout_keeps (a0 : Fin 8) (a1 : State) {t : State} (h : execLcfTimeout a0 a1 = .next t) : Keeps
    a1 t := by
  obtain rfl := Host.Outcome.next.inj h
  exact State.doLcfTimeout_keeps ..

theorem execPauseGo_keeps (a0 : Sys2Proof.Origin) (a1 : Fin 8) (a2 : State) {t : State} (h : execPauseGo a0 a1 a2
    = .next t) : Keeps a2 t := by
  unfold execPauseGo at h
  obtain rfl := Host.Outcome.next.inj h
  repeat'
    first
    | with_reducible apply Keeps.refl
    | intro _
    | split
    | with_reducible apply Keeps.trans ?_ (State.regCmd_keeps _ _ _ _ _ _ ?_)
    | with_reducible apply Keeps.trans ?_ (State.sendPause_keeps _ _)
    | dsimp only

theorem execPauseExpire_keeps (a0 : Fin 8) (a1 : State) {t : State} (h : execPauseExpire a0 a1 = .next t) : Keeps
    a1 t := by
  obtain rfl := Host.Outcome.next.inj h
  exact State.doPauseExpire_keeps ..

theorem execPauseLimit_keeps (a0 : Fin 8) (a1 : State) {t : State} (h : execPauseLimit a0 a1 = .next t) : Keeps
    a1 t := by
  obtain rfl := Host.Outcome.next.inj h
  exact State.doPauseLimit_keeps ..

theorem execPortStateAdvance_keeps (a0 : Fin 8) (a1 : Sys2Proof.PortView) (a2 : State) {t : State} (h :
    execPortStateAdvance a0 a1 a2 = .next t) : Keeps a2 t := by
  obtain rfl := Host.Outcome.next.inj h
  exact State.doPortAdvance_keeps ..

theorem execAutoRetrain_keeps (a0 : Fin 8) (a1 : Sys2Proof.GuestInfo) (a2 : State) {t : State} (h :
    execAutoRetrain a0 a1 a2 = .next t) : Keeps a2 t := by
  obtain rfl := Host.Outcome.next.inj h
  exact State.doAutoRetrain_keeps ..

theorem execRetrain_keeps (a0 : Sys2Proof.Origin) (a1 : Fin 8) (a2 : Sys2Proof.GuestInfo) (a3 : State) {t :
    State} (h : execRetrain a0 a1 a2 a3 = .next t) : Keeps a3 t := by
  unfold execRetrain at h
  obtain rfl := Host.Outcome.next.inj h
  repeat'
    first
    | with_reducible apply Keeps.refl
    | intro _
    | split
    | with_reducible apply Keeps.trans ?_ (State.regCmd_keeps _ _ _ _ _ _ ?_)
    | with_reducible apply Keeps.trans ?_ (State.retrainPort_keeps _ _ _)
    | dsimp only

theorem execPortEnableWrite_keeps (a0 : Sys2Proof.Origin) (a1 : Fin 8) (a2 : Bool) (a3 : State) {t : State} (h :
    execPortEnableWrite a0 a1 a2 a3 = .next t) : Keeps a3 t := by
  unfold execPortEnableWrite at h
  obtain rfl := Host.Outcome.next.inj h
  repeat'
    first
    | with_reducible apply Keeps.refl
    | intro _
    | split
    | with_reducible apply Keeps.trans ?_ (State.regCmd_keeps _ _ _ _ _ _ ?_)
    | with_reducible apply Keeps.trans ?_ (State.portEnable_keeps _ _ _)
    | dsimp only

theorem execChannelFuse_keeps (a0 : Sys2Proof.Origin) (a1 : Fin 8) (a2 : Bool) (a3 : State) {t : State} (h :
    execChannelFuse a0 a1 a2 a3 = .next t) : Keeps a3 t := by
  unfold execChannelFuse at h
  obtain rfl := Host.Outcome.next.inj h
  repeat'
    first
    | with_reducible apply Keeps.refl
    | intro _
    | split
    | with_reducible apply Keeps.trans ?_ (State.rwpCmd_keeps _ _ _ _ _ _ ?_)
    | with_reducible apply Keeps.trans ?_ (State.fuseChannels_keeps _ _ _)
    | dsimp only

theorem execGuestLost_keeps (a0 : Fin 8) (a1 : State) {t : State} (h : execGuestLost a0 a1 = .next t) : Keeps a1
    t := by
  obtain rfl := Host.Outcome.next.inj h
  exact State.doGuestLost_keeps ..

theorem execLinkFrame_keeps (a0 : Fin 8) (a1 : State) {t : State} (h : execLinkFrame a0 a1 = .next t) : Keeps a1
    t := by
  obtain rfl := Host.Outcome.next.inj h
  exact State.doFrame_keeps ..

theorem execModeWrite_keeps (a0 : Sys2Proof.Origin) (a1 : Bool) (a2 : Bool) (a3 : State) {t : State} (h :
    execModeWrite a0 a1 a2 a3 = .next t) : Keeps a3 t := by
  unfold execModeWrite at h
  obtain rfl := Host.Outcome.next.inj h
  repeat'
    first
    | with_reducible apply Keeps.refl
    | split
    | with_reducible apply Keeps.trans ?_ (State.detWrite_keeps _ _ _)
    | dsimp only

theorem execEvtClr_keeps (a0 : Sys2Proof.Origin) (a1 : State) {t : State} (h : execEvtClr a0 a1 = .next t) :
    Keeps a1 t := by
  obtain rfl := Host.Outcome.next.inj h
  exact State.detWrite_keeps ..

theorem execClockChange_keeps (a0 : State) {t : State} (h : execClockChange a0 = .next t) : Keeps a0 t := by
  obtain rfl := Host.Outcome.next.inj h
  exact State.doClockChange_keeps ..

theorem execStretchApply_keeps (a0 : State) {t : State} (h : execStretchApply a0 = .next t) : Keeps a0 t := by
  obtain rfl := Host.Outcome.next.inj h
  exact State.doStretch_keeps ..

theorem execD2dLaneRepair_keeps (a0 : Sys2Proof.D2d) (a1 : Fin 64) (a2 : State) {t : State} (h :
    execD2dLaneRepair a0 a1 a2 = .next t) : Keeps a2 t := by
  unfold execD2dLaneRepair at h
  obtain rfl := Host.Outcome.next.inj h
  repeat'
    first
    | with_reducible apply Keeps.refl
    | split
    | with_reducible apply Keeps.trans ?_ (State.laneRepair_keeps _ _ _)
    | dsimp only

theorem execMap_keeps (a0 : Sys2Proof.Origin) (a1 : Fin 12) (a2 : Fin 64) (a3 : State) {t : State} (h : execMap
    a0 a1 a2 a3 = .next t) : Keeps a3 t := by
  unfold execMap at h
  obtain rfl := Host.Outcome.next.inj h
  repeat'
    first
    | with_reducible apply Keeps.refl
    | intro _
    | with_reducible apply Keeps.trans ?_ (State.spareCmd_keeps _ _ _ _ _ _ ?_)
    | with_reducible apply Keeps.trans ?_ (State.mapSpare_keeps _ _ _)
    | dsimp only

theorem execSpareMapComplete_keeps (a0 : Fin 12) (a1 : State) {t : State} (h : execSpareMapComplete a0 a1 = .next
    t) : Keeps a1 t := by
  obtain rfl := Host.Outcome.next.inj h
  exact State.mapDone_keeps ..

theorem execFuse_keeps (a0 : Sys2Proof.Origin) (a1 : Fin 12) (a2 : State) {t : State} (h : execFuse a0 a1 a2 =
    .next t) : Keeps a2 t := by
  unfold execFuse at h
  obtain rfl := Host.Outcome.next.inj h
  repeat'
    first
    | with_reducible apply Keeps.refl
    | intro _
    | with_reducible apply Keeps.trans ?_ (State.rwpCmd_keeps _ _ _ _ _ _ ?_)
    | with_reducible apply Keeps.trans ?_ (State.fuseSheaf_keeps _ _)
    | dsimp only

theorem execRenumber_keeps (a0 : Sys2Proof.Origin) (a1 : Fin 12) (a2 : State) {t : State} (h : execRenumber a0 a1
    a2 = .next t) : Keeps a2 t := by
  unfold execRenumber at h
  obtain rfl := Host.Outcome.next.inj h
  repeat'
    first
    | with_reducible apply Keeps.refl
    | intro _
    | with_reducible apply Keeps.trans ?_ (State.spareCmd_keeps _ _ _ _ _ _ ?_)
    | with_reducible apply Keeps.trans ?_ (State.renumber_keeps _ _)
    | dsimp only

theorem execFenceSheaf_keeps (a0 : Sys2Proof.Origin) (a1 : Fin 12) (a2 : State) {t : State} (h : execFenceSheaf
    a0 a1 a2 = .next t) : Keeps a2 t := by
  unfold execFenceSheaf at h
  obtain rfl := Host.Outcome.next.inj h
  repeat'
    first
    | with_reducible apply Keeps.refl
    | intro _
    | with_reducible apply Keeps.trans ?_ (State.spareCmd_keeps _ _ _ _ _ _ ?_)
    | with_reducible apply Keeps.trans ?_ (State.fenceSheaf_keeps _ _)
    | dsimp only

theorem execMirrorEnable_keeps (a0 : Sys2Proof.Origin) (a1 : Sys2Proof.Word) (a2 : State) {t : State} (h :
    execMirrorEnable a0 a1 a2 = .next t) : Keeps a2 t := by
  unfold execMirrorEnable at h
  obtain rfl := Host.Outcome.next.inj h
  repeat'
    first
    | with_reducible apply Keeps.refl
    | intro _
    | with_reducible apply Keeps.trans ?_ (State.regCmd_keeps _ _ _ _ _ _ ?_)
    | with_reducible apply Keeps.trans ?_ (State.mirrorCtrl_keeps _ _ _)
    | dsimp only

theorem execMirrorSync_keeps (a0 : State) {t : State} (h : execMirrorSync a0 = .next t) : Keeps a0 t := by
  obtain rfl := Host.Outcome.next.inj h
  exact State.doSync_keeps ..

theorem execMirrorSyncComplete_keeps (a0 : State) {t : State} (h : execMirrorSyncComplete a0 = .next t) : Keeps
    a0 t := by
  obtain rfl := Host.Outcome.next.inj h
  exact State.doSyncDone_keeps ..

theorem execMirrorBlockCommit_keeps (a0 : Nat) (a1 : State) {t : State} (h : execMirrorBlockCommit a0 a1 = .next
    t) : Keeps a1 t := by
  obtain rfl := Host.Outcome.next.inj h
  exact State.doCommit_keeps ..

theorem execNeighbourLost_keeps (a0 : State) {t : State} (h : execNeighbourLost a0 = .next t) : Keeps a0 t := by
  obtain rfl := Host.Outcome.next.inj h
  exact State.doNeighbourLost_keeps ..

theorem execFlowTrim_keeps (a0 : Sys2Proof.Origin) (a1 : BitVec 14) (a2 : State) {t : State} (h : execFlowTrim a0
    a1 a2 = .next t) : Keeps a2 t := by
  unfold execFlowTrim at h
  obtain rfl := Host.Outcome.next.inj h
  repeat'
    first
    | with_reducible apply Keeps.refl
    | intro _
    | with_reducible apply Keeps.trans ?_ (State.regCmd_keeps _ _ _ _ _ _ ?_)
    | with_reducible apply Keeps.trans ?_ (State.flowTrim_keeps _ _)
    | dsimp only

theorem execFlowSkip_keeps (a0 : Sys2Proof.Origin) (a1 : BitVec 14) (a2 : BitVec 32) (a3 : State) {t : State} (h
    : execFlowSkip a0 a1 a2 a3 = .next t) : Keeps a3 t := by
  unfold execFlowSkip at h
  obtain rfl := Host.Outcome.next.inj h
  repeat'
    first
    | with_reducible apply Keeps.refl
    | intro _
    | with_reducible apply Keeps.trans ?_ (State.regCmd_keeps _ _ _ _ _ _ ?_)
    | with_reducible apply Keeps.trans ?_ (State.flowSkip_keeps _ _ _)
    | dsimp only

theorem execLogReplay_keeps (a0 : Sys2Proof.Origin) (a1 : BitVec 14) (a2 : State) {t : State} (h : execLogReplay
    a0 a1 a2 = .next t) : Keeps a2 t := by
  unfold execLogReplay at h
  obtain rfl := Host.Outcome.next.inj h
  repeat'
    first
    | with_reducible apply Keeps.refl
    | intro _
    | with_reducible apply Keeps.trans ?_ (State.regCmd_keeps _ _ _ _ _ _ ?_)
    | with_reducible apply Keeps.trans ?_ (State.logReplay_keeps _ _)
    | dsimp only

theorem execLogReplayComplete_keeps (a0 : State) {t : State} (h : execLogReplayComplete a0 = .next t) : Keeps a0
    t := by
  obtain rfl := Host.Outcome.next.inj h
  exact State.doReplayDone_keeps ..

theorem execMarginMeasure_keeps (a0 : List Sys2Proof.MarginReading) (a1 : State) {t : State} (h :
    execMarginMeasure a0 a1 = .next t) : Keeps a1 t := by
  obtain rfl := Host.Outcome.next.inj h
  exact State.doMargins_keeps ..

theorem execMainRelease_keeps (a0 : State) {t : State} (h : execMainRelease a0 = .next t) : Keeps a0 t := by
  obtain rfl := Host.Outcome.next.inj h
  exact State.doMainRelease_keeps ..

theorem execMainOn_keeps (a0 : Sys2Proof.Origin) (a1 : State) {t : State} (h : execMainOn a0 a1 = .next t) :
    Keeps a1 t := by
  unfold execMainOn at h
  obtain rfl := Host.Outcome.next.inj h
  repeat'
    first
    | with_reducible apply Keeps.refl
    | intro _
    | split
    | with_reducible apply Keeps.trans ?_ (State.regCmd_keeps _ _ _ _ _ _ ?_)
    | with_reducible apply Keeps.trans ?_ (State.releaseMain_keeps _)
    | dsimp only

theorem execOrderlyShutdown_keeps (a0 : State) {t : State} (h : execOrderlyShutdown a0 = .next t) : Keeps a0 t :=
    by
  obtain rfl := Host.Outcome.next.inj h
  exact State.doInputLow_keeps ..

theorem execOff_keeps (a0 : Sys2Proof.Origin) (a1 : State) {t : State} (h : execOff a0 a1 = .next t) : Keeps a1 t
    := by
  unfold execOff at h
  obtain rfl := Host.Outcome.next.inj h
  repeat'
    first
    | with_reducible apply Keeps.refl
    | intro _
    | with_reducible apply Keeps.trans ?_ (State.regCmd_keeps _ _ _ _ _ _ ?_)
    | with_reducible apply Keeps.trans ?_ (State.shutdown_keeps _ _)
    | dsimp only

theorem execSeatedRelease_keeps (a0 : State) {t : State} (h : execSeatedRelease a0 = .next t) : Keeps a0 t := by
  obtain rfl := Host.Outcome.next.inj h
  exact State.doUnseated_keeps ..

theorem execBrownoutBeforeReady_keeps (a0 : State) {t : State} (h : execBrownoutBeforeReady a0 = .next t) : Keeps
    a0 t := by
  obtain rfl := Host.Outcome.next.inj h
  exact State.doStartBrownout_keeps ..

theorem execInputOvervoltage_keeps (a0 : State) {t : State} (h : execInputOvervoltage a0 = .next t) : Keeps a0 t
    := by
  obtain rfl := Host.Outcome.next.inj h
  exact State.doOvervoltage_keeps ..

theorem execAuxRise_keeps (a0 : BitVec 3) (a1 : State) {t : State} (h : execAuxRise a0 a1 = .next t) : Keeps a1 t
    := by
  obtain rfl := Host.Outcome.next.inj h
  exact State.doAuxRise_keeps ..

theorem execAuxLost_keeps (a0 : State) {t : State} (h : execAuxLost a0 = .next t) : Keeps a0 t := by
  obtain rfl := Host.Outcome.next.inj h
  exact State.doAuxLost_keeps ..

theorem execAuxReturn_keeps (a0 : State) {t : State} (h : execAuxReturn a0 = .next t) : Keeps a0 t := by
  obtain rfl := Host.Outcome.next.inj h
  exact State.doAuxReturn_keeps ..

theorem execHoldupExpire_keeps (a0 : State) {t : State} (h : execHoldupExpire a0 = .next t) : Keeps a0 t := by
  obtain rfl := Host.Outcome.next.inj h
  exact State.doHoldup_keeps ..

theorem execModuleReset_keeps (a0 : Sys2Proof.Origin) (a1 : State) {t : State} (h : execModuleReset a0 a1 = .next
    t) : Keeps a1 t := by
  unfold execModuleReset at h
  obtain rfl := Host.Outcome.next.inj h
  repeat'
    first
    | with_reducible apply Keeps.refl
    | intro _
    | with_reducible apply Keeps.trans ?_ (State.regCmd_keeps _ _ _ _ _ _ ?_)
    | with_reducible apply Keeps.trans ?_ (State.moduleReset_keeps _)
    | dsimp only

theorem execPerstAssert_keeps (a0 : State) {t : State} (h : execPerstAssert a0 = .next t) : Keeps a0 t := by
  obtain rfl := Host.Outcome.next.inj h
  exact State.doPerst_keeps ..

theorem execPerstDeassert_keeps (a0 : Bool) (a1 : Option (Fin 10)) (a2 a3 : BitVec 40) (a4 : State) {t : State}
    (h : execPerstDeassert a0 a1 a2 a3 a4 = .next t) : Keeps a4 t := by
  obtain rfl := Host.Outcome.next.inj h
  exact (State.hostChooses_keeps ..).trans (State.hostTrains_keeps ..)

theorem execStartupStep_keeps (a0 : List Sys2Proof.StartFault) (a1 : List Sys2Proof.GuestInfo) (a2 : State) {t :
    State} (h : execStartupStep a0 a1 a2 = .next t) : Keeps a2 t := by
  unfold execStartupStep at h
  obtain rfl := Host.Outcome.next.inj h
  repeat'
    first
    | with_reducible apply Keeps.refl
    | split
    | with_reducible apply Keeps.trans ?_ (State.startStep_keeps _ _ _)
    | dsimp only

theorem execBrownoutHold_keeps (a0 : State) {t : State} (h : execBrownoutHold a0 = .next t) : Keeps a0 t := by
  obtain rfl := Host.Outcome.next.inj h
  exact State.doHold_keeps ..

theorem execBrownoutResume_keeps (a0 : BitVec 10) (a1 : State) {t : State} (h : execBrownoutResume a0 a1 = .next
    t) : Keeps a1 t := by
  obtain rfl := Host.Outcome.next.inj h
  exact State.doResumeHold_keeps ..

theorem execHoldLimit_keeps (a0 : State) {t : State} (h : execHoldLimit a0 = .next t) : Keeps a0 t := by
  obtain rfl := Host.Outcome.next.inj h
  exact State.doHoldLimit_keeps ..

theorem execHoldoverEnter_keeps (a0 : State) {t : State} (h : execHoldoverEnter a0 = .next t) : Keeps a0 t := by
  obtain rfl := Host.Outcome.next.inj h
  exact State.doHoldover_keeps ..

theorem execRackrefReturn_keeps (a0 : Sys2Proof.Word) (a1 : State) {t : State} (h : execRackrefReturn a0 a1 =
    .next t) : Keeps a1 t := by
  obtain rfl := Host.Outcome.next.inj h
  exact State.doRackref_keeps ..

theorem execHoldoverExit_keeps (a0 : State) {t : State} (h : execHoldoverExit a0 = .next t) : Keeps a0 t := by
  obtain rfl := Host.Outcome.next.inj h
  exact State.doHoldoverExit_keeps ..

theorem execMtimeSet_keeps (a0 : Sys2Proof.Origin) (a1 : Sys2Proof.Word) (a2 : State) {t : State} (h :
    execMtimeSet a0 a1 a2 = .next t) : Keeps a2 t := by
  unfold execMtimeSet at h
  obtain rfl := Host.Outcome.next.inj h
  repeat'
    first
    | with_reducible apply Keeps.refl
    | intro _
    | with_reducible apply Keeps.trans ?_ (State.regCmd_keeps _ _ _ _ _ _ ?_)
    | with_reducible apply Keeps.trans ?_ (State.takeMtime_keeps _ _ _)
    | dsimp only

theorem execClockPlanWrite_keeps (a0 : Sys2Proof.Origin) (a1 : BitVec 16) (a2 : State) {t : State} (h :
    execClockPlanWrite a0 a1 a2 = .next t) : Keeps a2 t := by
  unfold execClockPlanWrite at h
  obtain rfl := Host.Outcome.next.inj h
  repeat'
    first
    | with_reducible apply Keeps.refl
    | intro _
    | with_reducible apply Keeps.trans ?_ (State.regCmd_keeps _ _ _ _ _ _ ?_)
    | with_reducible apply Keeps.trans ?_ (State.planWrite_keeps _ _)
    | dsimp only

theorem execVloopAdjust_keeps (a0 : Fin 12) (a1 : Nat) (a2 : State) {t : State} (h : execVloopAdjust a0 a1 a2 =
    .next t) : Keeps a2 t := by
  obtain rfl := Host.Outcome.next.inj h
  exact State.doVloop_keeps ..

theorem execPowerCapCheck_keeps (a0 : BitVec 16) (a1 : BitVec 16) (a2 : State) {t : State} (h : execPowerCapCheck
    a0 a1 a2 = .next t) : Keeps a2 t := by
  obtain rfl := Host.Outcome.next.inj h
  exact State.doPowerCheck_keeps ..

theorem execThermalCheck_keeps (a0 : List (Sys2Proof.Sensor × Nat)) (a1 : State) {t : State} (h :
    execThermalCheck a0 a1 = .next t) : Keeps a1 t := by
  obtain rfl := Host.Outcome.next.inj h
  exact State.doThermal_keeps ..

theorem execLaserBiasAdjust_keeps (a0 : Fin 8) (a1 : Fin 45) (a2 : Bool) (a3 : State) {t : State} (h :
    execLaserBiasAdjust a0 a1 a2 a3 = .next t) : Keeps a3 t := by
  obtain rfl := Host.Outcome.next.inj h
  exact State.doLaser_keeps ..

theorem execEnter_keeps (a0 : Sys2Proof.Origin) (a1 : State) {t : State} (h : execEnter a0 a1 = .next t) : Keeps
    a1 t := by
  unfold execEnter at h
  obtain rfl := Host.Outcome.next.inj h
  repeat'
    first
    | with_reducible apply Keeps.refl
    | intro _
    | with_reducible apply Keeps.trans ?_ (State.regCmd_keeps _ _ _ _ _ _ ?_)
    | with_reducible apply Keeps.trans ?_ (State.enterDormant_keeps _)
    | dsimp only

theorem execDormantEntryComplete_keeps (a0 : State) {t : State} (h : execDormantEntryComplete a0 = .next t) :
    Keeps a0 t := by
  obtain rfl := Host.Outcome.next.inj h
  exact State.entered_keeps ..

theorem execWake_keeps (a0 : Sys2Proof.Origin) (a1 : State) {t : State} (h : execWake a0 a1 = .next t) : Keeps a1
    t := by
  unfold execWake at h
  obtain rfl := Host.Outcome.next.inj h
  repeat'
    first
    | with_reducible apply Keeps.refl
    | intro _
    | with_reducible apply Keeps.trans ?_ (State.regCmd_keeps _ _ _ _ _ _ ?_)
    | with_reducible apply Keeps.trans ?_ (State.wakeUp_keeps _ _)
    | dsimp only

theorem execDormantWake_keeps (a0 : BitVec 3) (a1 : State) {t : State} (h : execDormantWake a0 a1 = .next t) :
    Keeps a1 t := by
  obtain rfl := Host.Outcome.next.inj h
  exact State.doWakeCause_keeps ..

theorem execAgeingRecord_keeps (a0 : BitVec 4) (a1 : BitVec 12) (a2 : Nat) (a3 : State) {t : State} (h :
    execAgeingRecord a0 a1 a2 a3 = .next t) : Keeps a3 t := by
  obtain rfl := Host.Outcome.next.inj h
  exact State.doAgeing_keeps ..

theorem execSettimeBroadcast_keeps (a0 : Sys2Proof.Transport) (a1 : List Sys2Proof.Byte) (a2 : State) {t : State}
    (h : execSettimeBroadcast a0 a1 a2 = .next t) : Keeps a2 t := by
  obtain rfl := Host.Outcome.next.inj h
  exact State.doSettimeBroadcast_keeps ..

theorem execSettimeDirected_keeps (a0 : Sys2Proof.Transport) (a1 : List Sys2Proof.Byte) (a2 : State) {t : State}
    (h : execSettimeDirected a0 a1 a2 = .next t) : Keeps a2 t := by
  obtain rfl := Host.Outcome.next.inj h
  exact State.doSettimeDirected_keeps ..

theorem execPeerQuery_keeps (a0 : Sys2Proof.Origin) (a1 : BitVec 24) (a2 : State) {t : State} (h : execPeerQuery
    a0 a1 a2 = .next t) : Keeps a2 t := by
  unfold execPeerQuery at h
  obtain rfl := Host.Outcome.next.inj h
  repeat'
    first
    | with_reducible apply Keeps.refl
    | intro _
    | with_reducible apply Keeps.trans ?_ (State.regCmd_keeps _ _ _ _ _ _ ?_)
    | with_reducible apply Keeps.trans ?_ (State.askPeer_keeps _ _)
    | dsimp only

theorem execPeerQueryResponse_keeps (a0 : List Sys2Proof.Byte) (a1 : State) {t : State} (h :
    execPeerQueryResponse a0 a1 = .next t) : Keeps a1 t := by
  obtain rfl := Host.Outcome.next.inj h
  exact State.doPeerResponse_keeps ..

theorem execPeerQueryTimeout_keeps (a0 : State) {t : State} (h : execPeerQueryTimeout a0 = .next t) : Keeps a0 t
    := by
  unfold execPeerQueryTimeout at h
  obtain rfl := Host.Outcome.next.inj h
  repeat'
    first
    | with_reducible apply Keeps.refl
    | intro _
    | with_reducible apply Keeps.trans ?_ (State.mgt_keeps _ _ ?_)
    | with_reducible apply Keeps.trans ?_ (State.doPeerTimeout_keeps _)
    | dsimp only

theorem execViewCompare_keeps (a0 : List (Sys2Proof.ViewUnit × Bool × Bool)) (a1 : State) {t : State} (h :
    execViewCompare a0 a1 = .next t) : Keeps a1 t := by
  unfold execViewCompare at h
  obtain rfl := Host.Outcome.next.inj h
  repeat'
    first
    | with_reducible apply Keeps.refl
    | intro _
    | with_reducible apply Keeps.trans ?_ (State.mgt_keeps _ _ ?_)
    | with_reducible apply Keeps.trans ?_ (State.compareViews_keeps _ _)
    | dsimp only

theorem execAuditFlush_keeps (a0 : State) {t : State} (h : execAuditFlush a0 = .next t) : Keeps a0 t := by
  unfold execAuditFlush at h
  obtain rfl := Host.Outcome.next.inj h
  repeat'
    first
    | with_reducible apply Keeps.refl
    | intro _
    | with_reducible apply Keeps.trans ?_ (State.mgt_keeps _ _ ?_)
    | with_reducible apply Keeps.trans ?_ (State.auditFlush_keeps _)
    | dsimp only

theorem execClear_keeps (a0 : Sys2Proof.Origin) (a1 : State) {t : State} (h : execClear a0 a1 = .next t) : Keeps
    a1 t := by
  obtain rfl := Host.Outcome.next.inj h
  exact State.clearCmd_keeps ..

theorem execPresenceOpen_keeps (a0 : State) {t : State} (h : execPresenceOpen a0 = .next t) : Keeps a0 t := by
  unfold execPresenceOpen at h
  obtain rfl := Host.Outcome.next.inj h
  repeat'
    first
    | with_reducible apply Keeps.refl
    | intro _
    | with_reducible apply Keeps.trans ?_ (State.mgt_keeps _ _ ?_)
    | with_reducible apply Keeps.trans ?_ (State.presenceOpens_keeps _)
    | dsimp only

theorem execPresenceClose_keeps (a0 : State) {t : State} (h : execPresenceClose a0 = .next t) : Keeps a0 t := by
  unfold execPresenceClose at h
  obtain rfl := Host.Outcome.next.inj h
  repeat'
    first
    | with_reducible apply Keeps.refl
    | intro _
    | with_reducible apply Keeps.trans ?_ (State.mgt_keeps _ _ ?_)
    | with_reducible apply Keeps.trans ?_ (State.presenceCloses_keeps _)
    | dsimp only

theorem execFirmwareTransfer_keeps (a0 : BitVec 31) (a1 : Bool) (a2 : Bool) (a3 : State) {t : State} (h :
    execFirmwareTransfer a0 a1 a2 a3 = .next t) : Keeps a3 t := by
  unfold execFirmwareTransfer at h
  obtain rfl := Host.Outcome.next.inj h
  repeat'
    first
    | with_reducible apply Keeps.refl
    | intro _
    | with_reducible apply Keeps.trans ?_ (State.mgt_keeps _ _ ?_)
    | with_reducible apply Keeps.trans ?_ (State.transferFw_keeps _ _ _ _)
    | dsimp only

theorem execActivate_keeps (a0 : Sys2Proof.Origin) (a1 : State) {t : State} (h : execActivate a0 a1 = .next t) :
    Keeps a1 t := by
  obtain rfl := Host.Outcome.next.inj h
  exact State.activateCmd_keeps ..

theorem execConfirm_keeps (a0 : Sys2Proof.Origin) (a1 : State) {t : State} (h : execConfirm a0 a1 = .next t) :
    Keeps a1 t := by
  unfold execConfirm at h
  obtain rfl := Host.Outcome.next.inj h
  repeat'
    first
    | with_reducible apply Keeps.refl
    | intro _
    | with_reducible apply Keeps.trans ?_ (State.regCmd_keeps _ _ _ _ _ _ ?_)
    | with_reducible apply Keeps.trans ?_ (State.doConfirm_keeps _ _)
    | dsimp only

theorem execRaise_keeps (a0 : Sys2Proof.Origin) (a1 : State) {t : State} (h : execRaise a0 a1 = .next t) : Keeps
    a1 t := by
  obtain rfl := Host.Outcome.next.inj h
  exact State.raiseCmd_keeps ..

theorem execFirmwareRevert_keeps (a0 : State) {t : State} (h : execFirmwareRevert a0 = .next t) : Keeps a0 t :=
    by
  unfold execFirmwareRevert at h
  obtain rfl := Host.Outcome.next.inj h
  repeat'
    first
    | with_reducible apply Keeps.refl
    | intro _
    | with_reducible apply Keeps.trans ?_ (State.mgt_keeps _ _ ?_)
    | with_reducible apply Keeps.trans ?_ (State.revertFw_keeps _)
    | dsimp only

theorem execUnlock_keeps (a0 : Sys2Proof.Origin) (a1 : State) {t : State} (h : execUnlock a0 a1 = .next t) :
    Keeps a1 t := by
  unfold execUnlock at h
  obtain rfl := Host.Outcome.next.inj h
  repeat'
    first
    | with_reducible apply Keeps.refl
    | intro _
    | with_reducible apply Keeps.trans ?_ (State.rwpCmd_keeps _ _ _ _ _ _ ?_)
    | with_reducible apply Keeps.trans ?_ (State.doUnlock_keeps _ _)
    | dsimp only

theorem execLock_keeps (a0 : Sys2Proof.Origin) (a1 : State) {t : State} (h : execLock a0 a1 = .next t) : Keeps a1
    t := by
  unfold execLock at h
  obtain rfl := Host.Outcome.next.inj h
  repeat'
    first
    | with_reducible apply Keeps.refl
    | intro _
    | with_reducible apply Keeps.trans ?_ (State.regCmd_keeps _ _ _ _ _ _ ?_)
    | with_reducible apply Keeps.trans ?_ (State.doLock_keeps _ _)
    | dsimp only

theorem execTelemetrySample_keeps (a0 : Fin 13) (a1 : State) {t : State} (h : execTelemetrySample a0 a1 = .next
    t) : Keeps a1 t := by
  obtain rfl := Host.Outcome.next.inj h
  exact State.takeSample_keeps ..

theorem execObsClr_keeps (a0 : Fin 12) (a1 : Fin 64) (a2 : State) {t : State} (h : execObsClr a0 a1 a2 = .next t)
    : Keeps a2 t := by
  unfold execObsClr at h
  obtain rfl := Host.Outcome.next.inj h
  repeat'
    first
    | with_reducible apply Keeps.refl
    | intro _
    | with_reducible apply Keeps.trans ?_ (State.access_keeps _ _ _ _ ?_)
    | with_reducible apply Keeps.trans ?_ (State.clearTilObs_keeps _ _)
    | dsimp only

theorem execRegisterWrite_keeps (a0 : Sys2Proof.Origin) (a1 : BitVec 26) (a2 : Nat) (a3 : Sys2Proof.Word) (a4 :
    State) {t : State} (h : execRegisterWrite a0 a1 a2 a3 a4 = .next t) : Keeps a4 t := by
  obtain rfl := Host.Outcome.next.inj h
  exact State.regWrite_keeps ..

theorem execLatchedLowerWrite_keeps (a0 : Sys2Proof.Origin) (a1 : BitVec 26) (a2 : BitVec 32) (a3 : State) {t :
    State} (h : execLatchedLowerWrite a0 a1 a2 a3 = .next t) : Keeps a3 t := by
  obtain rfl := Host.Outcome.next.inj h
  exact State.latchedWrite_keeps ..

theorem execPldmEffecterWrite_keeps (a0 : BitVec 8) (a1 : BitVec 26) (a2 : Sys2Proof.Word) (a3 : State) {t :
    State} (h : execPldmEffecterWrite a0 a1 a2 a3 = .next t) : Keeps a3 t := by
  obtain rfl := Host.Outcome.next.inj h
  exact State.regWrite_keeps ..

theorem execJtagInstruction_keeps (a0 : Sys2Proof.JtagIr) (a1 : State) {t : State} (h : execJtagInstruction a0 a1
    = .next t) : Keeps a1 t := by
  unfold execJtagInstruction at h
  repeat' split at h
  all_goals cases h
  all_goals
   repeat'
    first
    | with_reducible apply Keeps.refl
    | intro _
    | split
    | with_reducible apply Keeps.trans ?_ (State.doJtag_keeps _ _)
    | with_reducible apply Keeps.trans ?_ (State.mgt_keeps _ _ ?_)
    | dsimp only

theorem execBar2Write_keeps (a0 : Bool) (a1 : BitVec 40) (a2 : List Sys2Proof.PByte) (a3 : State) {t : State} (h
    : execBar2Write a0 a1 a2 a3 = .next t) : Keeps a3 t := by
  obtain rfl := Host.Outcome.next.inj h
  exact State.hostWrite_keeps ..

end Sys2Proof.Machine
end

