-- ==== Sys2Proof/Laws/Rings.lean ====
section
/-! SUPPORT. What the frame of NOP, RUN and XFER does with a settled head, said once for each case. -/

set_option Elab.async false

namespace Sys2Proof.Machine

/-- A refused head stops the ring with class 0x10 (R281). -/
theorem State.tryStart_refused {s : State} {r : Nat} {cmd : BitVec 512} {reason : Nat} (h1 : s.settleHead r = s)
    (h2 : s.ringLive r = true) (h3 : s.headCancelled r = false) (h4 : s.headCmd r = some cmd)
    (mine : Nat → Bool) (act : State → BitVec 512 → State) (h5 : mine (cmdKind cmd) = true)
    (h6 : cmdRefused cmd (s.owner r) = some reason) : s.tryStart r mine act = s.refuseHead r reason := by
  simp [State.tryStart, h1, h2, h3, h4, h5, h6]

/-- A head whose waits are open waits (R283). -/
theorem State.tryStart_waits {s : State} {r : Nat} {cmd : BitVec 512} (h1 : s.settleHead r = s)
    (h2 : s.ringLive r = true) (h3 : s.headCancelled r = false) (h4 : s.headCmd r = some cmd)
    (mine : Nat → Bool) (act : State → BitVec 512 → State) (h5 : mine (cmdKind cmd) = true)
    (h6 : cmdRefused cmd (s.owner r) = none) (h7 : (s.evalHead r).otherwiseReady r = false) :
    s.tryStart r mine act = s.evalHead r := by
  simp [State.tryStart, h1, h2, h3, h4, h5, h6, h7]

/-- A ready head whose turn it is acts (R283). -/
theorem State.tryStart_acts {s : State} {r : Nat} {cmd : BitVec 512} (h1 : s.settleHead r = s)
    (h2 : s.ringLive r = true) (h3 : s.headCancelled r = false) (h4 : s.headCmd r = some cmd)
    (mine : Nat → Bool) (act : State → BitVec 512 → State) (h5 : mine (cmdKind cmd) = true)
    (h6 : cmdRefused cmd (s.owner r) = none) (h7 : (s.evalHead r).otherwiseReady r = true)
    (h8 : (s.evalHead r).namesLost cmd = false) (h9 : (s.evalHead r).myTurn r cmd = true) :
    s.tryStart r mine act = act (s.evalHead r) cmd := by
  simp [State.tryStart, h1, h2, h3, h4, h5, h6, h7, h8, h9]

end Sys2Proof.Machine
end

