-- ==== Sys2Proof/WellFormed.lean ====
section
/-! DEFINITION. Which commands are well formed. Unit numbers, ports, flows, contexts and virtual IDs have types of
exactly their range; what is left to check is the width of a register access, the lengths of messages and packets,
and the ranges of readings. -/

namespace Sys2Proof

/-- A packet header and its payload: LEN of a data type (0-3, 10-13) is the number of payload bytes, at most 4,096
(R361). -/
def packetWf (payload : List Byte) : Bool := decide (payload.length ≤ 4096)

/-- A host read's error carries one of the four statuses of R302. -/
def hostErrWf (h : Option HostErr) : Bool := h.all (fun e => decide (1 ≤ e.status.toNat ∧ e.status.toNat ≤ 4))

/-- The checks that a well-formed command meets. -/
def Instr.wf : Instr → Bool
  | .registerWrite _ _ width _ => width = 1 || width = 2 || width = 4 || width = 8
  | .lcfReceive _ bytes => decide (bytes.length = 256)
  | .write _ _ pl | .stream _ _ pl | .readReq _ _ pl | .readResp _ _ pl | .remoteSignal _ _ pl | .ack _ _ pl
  | .nak _ _ pl | .unreach _ _ pl | .line _ _ pl |  .colFinal _ _ pl | .colExp _ _ pl
  | .colRow _ _ pl => packetWf pl
  | .colPartial _ _ pl _ => packetWf pl
  | .bar2Write _ addr bytes => decide (addr.toNat + bytes.length ≤ 2 ^ 40)
  | .startupStep _ guests => decide (guests.length ≤ 8)
  | .ageingRecord kind _ _ => decide (1 ≤ kind.toNat ∧ kind.toNat ≤ 5)
  | .dormantWake cause => decide (1 ≤ cause.toNat ∧ cause.toNat ≤ 5)
  | .commandFetch _ h | .doorbellSnoop _ h | .doorbellPoll _ h | .run _ h | .xfer _ h => hostErrWf h
  | .copy _ _ h | .milletRead _ _ h | .milletWrite _ _ h | .milletAdd32 _ _ h | .milletAdd64 _ _ h
  | .digestPiece _ _ h | .digestPieceCopy _ _ h | .digestFinal _ _ h | .digestProv _ _ h => hostErrWf h
  | .slotReceive _ _ _ _ units => decide (units.length ≤ 8)
  | .mirrorBlockCommit block => decide (block < 2359296)
  | _ => true

end Sys2Proof
end

