-- ==== Sys2Proof/Tests/Slice0.lean ====
section
/-! SUPPORT. Tests. First the smoke test of well-formedness, then worked values of the spec, then for each statement of
Obligations.lean with hypotheses a theorem that shows concrete states and operands that meet them, clause by clause. -/

set_option Elab.async false

namespace Sys2Proof.Tests

open Sys2Proof.Machine

/-! ### States -/

/-- A part that is READY and on its supplies, with the host port up and nothing else done. -/
def up : State :=
  let s := (State.reset.setFld .PWR_STATUS_STATE 0 2).setFlag .PWR_STATUS_READY 0 true
  { s with power := { s.power with auxGood := true, vinGood := true, seated := true, hostUp := true, perst := false } }

/-- `up` with fields set. -/
def upWith (l : List (Fld × Nat × Nat)) : State := l.foldl (fun s p => s.setFld p.1 p.2.1 p.2.2) up

/-- The reset state with fields set, on aux alone. -/
def offWith (l : List (Fld × Nat × Nat)) : State :=
  l.foldl (fun s p => s.setFld p.1 p.2.1 p.2.2) { State.reset with power := { Power.reset with auxGood := true } }

/-- An instruction word (R147): opcode, MOD, DST, A, B, C, PX, IMM. -/
def ins (opc mod dst a b c px imm : Nat) : Nat :=
  opc * 2 ^ 120 + mod * 2 ^ 112 + dst * 2 ^ 104 + a * 2 ^ 96 + b * 2 ^ 88 + c * 2 ^ 80 + px * 2 ^ 64 + imm

/-- Tiller 0 of Sheaf 0 runs a program of the one instruction w, with these P registers and this state of its own. -/
def runs (w : Nat) (ps : List (Nat × Nat) := []) (x : Tiller := Tiller.reset) : State :=
  let s := upWith ([(Fld.TIL_PROG_STATUS_STATE, 0, 4), (.TIL_PROG_IMAGE_NINST, 0, 1)] ++
    ps.map (fun p => (Fld.TIL_PARAM_VALUE, p.1, p.2)))
  { s.setTil 0 x with mem := ((leBytes 16 w).zip (List.range 16)).filterMap (fun p =>
      if p.1 = 0 then none else some (0x100000000000 + p.2, p.1)) }

/-- An instruction in flight in a unit, with steps left. -/
def flight (w unit steps : Nat) (conv : List Word := []) : Inst :=
  { id := 0, pc := 0, word := BitVec.ofNat 128 w, unit := unit, steps := steps, done := 0, tile := 0, conv := conv, scal := 0,
    poisoned := 0, watch := none, gfault := false, capt := [] }

/-- The exec of a command ends in a next state. -/
def next? (c : Instr) (s : State) : Bool :=
  match exec c s with
  | .next _ => true
  | _ => false

/-! ### Well-formedness: an ill-formed term for each check is refused -/

theorem test_wf_width : (Instr.registerWrite .pf 0 3 0).wf = false ∧ (Instr.registerWrite .pf 0 8 0).wf = true := by decide
theorem test_wf_lcf : (Instr.lcfReceive 0 []).wf = false ∧ (Instr.lcfReceive 0 (List.replicate 256 0)).wf = true := by
  decide +kernel
theorem test_wf_packet : (Instr.write 0 0 (List.replicate 4097 0)).wf = false ∧ (Instr.colRow 0 0 []).wf = true ∧
    (Instr.colPartial 0 0 (List.replicate 4097 0) 0).wf = false := by decide +kernel
theorem test_wf_bar2 : (Instr.bar2Write false (-1) [⟨0, false⟩, ⟨0, false⟩]).wf = false ∧
    (Instr.bar2Write false (-1) [⟨0, false⟩]).wf = true := by decide
theorem test_wf_startup : (Instr.startupStep [] (List.replicate 9 ⟨0, 0, 0, 0, 0, 0, 0, 0⟩)).wf = false := by decide
theorem test_wf_ageing : (Instr.ageingRecord 0 0 0).wf = false ∧ (Instr.ageingRecord 5 0 0).wf = true ∧
    (Instr.ageingRecord 6 0 0).wf = false := by decide
theorem test_wf_wake : (Instr.dormantWake 0).wf = false ∧ (Instr.dormantWake 6).wf = false ∧
    (Instr.dormantWake 1).wf = true := by decide
theorem test_wf_fetch : (Instr.commandFetch 0 (some ⟨0, 5⟩)).wf = false ∧ (Instr.commandFetch 0 (some ⟨0, 4⟩)).wf = true ∧
    (Instr.xfer 0 (some ⟨0, 0⟩)).wf = false ∧ (Instr.digestProv 0 0 (some ⟨0, 0⟩)).wf = false ∧
    (Instr.milletAdd64 0 0 none).wf = true := by decide
theorem test_wf_slot : (Instr.slotReceive 0 false 0 false (List.replicate 9 none)).wf = false ∧
    (Instr.slotReceive 0 false 0 false (List.replicate 8 (some 0))).wf = true := by decide
theorem test_wf_block : (Instr.mirrorBlockCommit 2359296).wf = false ∧ (Instr.mirrorBlockCommit 2359295).wf = true := by
  decide

/-! ### Witnesses: the block and the front end of a Tiller -/

theorem witness_IdleStepIsOneEdge :
    (up.pending = [] ∧ up.power.mtimeSet = none ∧ up.fld .PWR_STATUS_STATE 0 ≠ 0 ∧ up.power.slew = none) ∧
    (∃ s : State, s.power.mtimeSet = some (1, 25)) ∧
    (State.reset.power.mtimeSet = none ∧ State.reset.fld .PWR_STATUS_STATE 0 = 0 ∧ State.reset.power.settime = false) :=
  ⟨by decide +kernel, ⟨{ up with power := { up.power with mtimeSet := some (1, 25) } }, rfl⟩, by decide +kernel⟩

theorem witness_OnlyPrivateJtagStops :
    (upWith [(.MGT_DEBUG_UNLOCKED, 0, 1)]).flag .MGT_DEBUG_UNLOCKED 0 = true ∧ up.flag .MGT_DEBUG_UNLOCKED 0 = false := by
  decide +kernel

theorem witness_EveryStepKeepsSound :
    State.Sound { up with pending := [.presenceOpen] } ∧ ∃ t, step { up with pending := [.presenceOpen] } = .next t :=
  ⟨⟨by decide +kernel, by decide +kernel⟩, ⟨_, rfl⟩⟩

theorem witness_StepTakesOneCommand : ∃ t, step { up with pending := [.presenceOpen, .presenceClose] } = .next t := ⟨_, rfl⟩

theorem witness_FieldsFitTheirWidths : up.Sound := ⟨by decide +kernel, by decide +kernel⟩

/-- An instruction that is in flight for the whole test. -/
def busy : Tiller := { Tiller.reset with insts := [flight 0 5 1] }

theorem witness_PlainInstructionsAct :
    (runs 0).at 0 0x00 (feCheck 0 0 false ((runs 0).inst 0)) ∧
    ((runs (ins 0x0A 0 0 0 0 0 0 0)).at 0 0x0A (feCheck 0 0 false ((runs (ins 0x0A 0 0 0 0 0 0 0)).inst 0)) ∧
      ((runs (ins 0x0A 0 0 0 0 0 0 0)).til 0).insts = []) ∧
    ((runs (ins 0x0A 0 0 0 0 0 0 0) [] busy).at 0 0x0A (feCheck 0 0 false ((runs (ins 0x0A 0 0 0 0 0 0 0) [] busy).inst 0)) ∧
      ((runs (ins 0x0A 0 0 0 0 0 0 0) [] busy).til 0).insts ≠ []) ∧
    (runs (ins 0x04 0 0 0 0 0 255 7)).at 0 0x04
      (feCheck 0 (2 ^ 64 - 1) true ((runs (ins 0x04 0 0 0 0 0 255 7)).inst 0)) ∧
    (runs (ins 0x05 0 0 0 0 0 0 (2 ^ 64 - 1))).at 0 0x05
      (feCheck 0 (2 ^ 64 - 1) true ((runs (ins 0x05 0 0 0 0 0 0 (2 ^ 64 - 1))).inst 0)) ∧
    (runs (ins 0x06 0 0 0 0 0 3 255)).at 0 0x06 (feCheck 0 255 true ((runs (ins 0x06 0 0 0 0 0 3 255)).inst 0)) := by
  decide +kernel

/-- A loop of 2 with its head at 1. -/
def looping : Tiller := { Tiller.reset with loopCnt := [(7, 2)], loopHead := [(7, 1)] }

theorem witness_LoopsAndGeneratorsLoad :
    (runs (ins 0x02 0x70 0 0 0 0 0 (9 * 2 ^ 32))).at 0 0x02 (feCheck 0x71 (2 ^ 48 - 1)
      (bitAt ((runs (ins 0x02 0x70 0 0 0 0 0 (9 * 2 ^ 32))).inst 0).mod 0)
        ((runs (ins 0x02 0x70 0 0 0 0 0 (9 * 2 ^ 32))).inst 0)) ∧
    (runs (ins 0x02 0x01 0 0 0 0 5 0) [(5, 3)]).at 0 0x02 (feCheck 0x71 (2 ^ 48 - 1)
      (bitAt ((runs (ins 0x02 0x01 0 0 0 0 5 0) [(5, 3)]).inst 0).mod 0) ((runs (ins 0x02 0x01 0 0 0 0 5 0) [(5, 3)]).inst 0)) ∧
    (runs (ins 0x03 0x70 0 0 0 0 0 0) [] looping).at 0 0x03
      (feCheck 0x70 0 false ((runs (ins 0x03 0x70 0 0 0 0 0 0) [] looping).inst 0)) ∧
    (runs (ins 0x07 0 0 0 0 0 251 15) [(252, 2 ^ 53)]).at 0 0x07
      (feCheck 0 15 true ((runs (ins 0x07 0 0 0 0 0 251 15) [(252, 2 ^ 53)]).inst 0) ++
        [(decide (251 < 251), ⟨0x38, 2, 5⟩),
          (((runs (ins 0x07 0 0 0 0 0 251 15) [(252, 2 ^ 53)]).agLoad 0 251).run == 0, ⟨0x38, 3, 5⟩)]) ∧
    ((runs (ins 0x07 0 0 0 0 0 252 0)).canDispatch 0 = true ∧
      (runs (ins 0x07 0 0 0 0 0 252 0)).pc 0 < (runs (ins 0x07 0 0 0 0 0 252 0)).fld .TIL_PROG_IMAGE_NINST 0 ∧
      ((runs (ins 0x07 0 0 0 0 0 252 0)).inst 0).opc = 0x07 ∧
      firstBad (feCheck 0 15 true ((runs (ins 0x07 0 0 0 0 0 252 0)).inst 0)) = none ∧
      251 < ((runs (ins 0x07 0 0 0 0 0 252 0)).inst 0).px) ∧
    ((runs (ins 0x07 0 0 0 0 0 251 0)).canDispatch 0 = true ∧
      (runs (ins 0x07 0 0 0 0 0 251 0)).pc 0 < (runs (ins 0x07 0 0 0 0 0 251 0)).fld .TIL_PROG_IMAGE_NINST 0 ∧
      ((runs (ins 0x07 0 0 0 0 0 251 0)).inst 0).opc = 0x07 ∧
      firstBad (feCheck 0 15 true ((runs (ins 0x07 0 0 0 0 0 251 0)).inst 0)) = none ∧
      ((runs (ins 0x07 0 0 0 0 0 251 0)).inst 0).px ≤ 251 ∧
      (runs (ins 0x07 0 0 0 0 0 251 0)).preg 0 252 / 2 ^ 53 % 2 ^ 11 = 0) := by decide +kernel

/-- Queue 24 bound to egress, queue 9 to a read window and 10 to a write window of 64 bytes. -/
def bound (x : Tiller) : Tiller :=
  { x with bind := [(9, 0x1000000000000000#64 ||| 63#64), (10, 0x2000000000000000#64 ||| 63#64), (24, 0x3000000000000000#64),
      (28, 0x4000000000000000#64)]
           ags := [(0, ⟨[1, 1, 1, 1, 1, 1], [0, 0, 0, 0, 0, 0], 64, 0, [0, 0, 0, 0, 0, 0], 0, 0⟩)] }

theorem witness_WaitsAndSignals :
    (runs (ins 0x08 0 0 0 0 0 4 65535)).at 0 0x08 (feCheck 0 65535 true ((runs (ins 0x08 0 0 0 0 0 4 65535)).inst 0)) ∧
    ((runs (ins 0x08 0 0 0 0 0 4 65535) [(4, 1)]).at 0 0x08
        (feCheck 0 65535 true ((runs (ins 0x08 0 0 0 0 0 4 65535) [(4, 1)]).inst 0)) ∧
      (runs (ins 0x08 0 0 0 0 0 4 65535) [(4, 1)]).preg 0 4 ≠ 0 ∧
      (match ((runs (ins 0x08 0 0 0 0 0 4 65535) [(4, 1)]).glumeXlat 0 0 65535).2 with
        | .bad _ _ => true
        | _ => false) = true) ∧
    (runs (ins 0x09 0 0 0 0 0 0 1)).at 0 0x09 (signalBad ((runs (ins 0x09 0 0 0 0 0 0 1)).inst 0) ++
      [(opKind ((runs (ins 0x09 0 0 0 0 0 0 1)).inst 0).dst == 1 && (runs (ins 0x09 0 0 0 0 0 0 1)).qkind 0 0 != .egress,
        ⟨0x39, 0, 5⟩)]) ∧
    ((runs (ins 0x09 0 56 0 0 0 0 1) [] (bound Tiller.reset)).at 0 0x09
        (signalBad ((runs (ins 0x09 0 56 0 0 0 0 1) [] (bound Tiller.reset)).inst 0) ++
          [(opKind ((runs (ins 0x09 0 56 0 0 0 0 1) [] (bound Tiller.reset)).inst 0).dst == 1 &&
            (runs (ins 0x09 0 56 0 0 0 0 1) [] (bound Tiller.reset)).qkind 0 24 != .egress, ⟨0x39, 24, 5⟩)]) ∧
      ((runs (ins 0x09 0 56 0 0 0 0 1) [] (bound Tiller.reset)).inst 0).dst ≠ 0 ∧
      descBad true ((runs (ins 0x09 0 56 0 0 0 0 1) [] (bound Tiller.reset)).desc 0 24) = false ∧
      descMode ((runs (ins 0x09 0 56 0 0 0 0 1) [] (bound Tiller.reset)).desc 0 24) ≠ 1) := by decide +kernel

/-- A SIGNAL that waits to enter egress queue 24: it may, or an earlier LD into that queue is in flight. -/
def entering : Tiller := { Tiller.reset with sigWait := [⟨1, 24, 7, 9⟩] }
def entersLate : Tiller := { entering with insts := [flight (ins 0x10 0 56 41 0 0 0 (2 ^ 48 + 64 * 2 ^ 16)) 32 1] }

theorem witness_WaitsAndSignals_enters : entering.sigWait = [⟨1, 24, 7, 9⟩] ∧ entering.signalEnters ⟨1, 24, 7, 9⟩ = true ∧
    entersLate.sigWait = [⟨1, 24, 7, 9⟩] ∧ entersLate.signalEnters ⟨1, 24, 7, 9⟩ = false := by decide +kernel

/-- A Glume cache of Sheaf 0 that knows virtual ID 1 of context 0 as Glume 5, whose value is 3. -/
def glumed (s : State) : State :=
  { s.setFld .GLM_CTX_CFG_TCOUNT 0 16 with glumes := [(5, ⟨.owned, 0, 3⟩)], gcaches := [(0, [⟨0, 1, 0x80000005⟩])] }

theorem witness_WaitsAndSignals_glume : (∃ s1, (glumed (runs (ins 0x08 0 0 0 0 0 4 1) [(4, 3)])).glumeXlat 0 0 1 = (s1, .ok 5)) ∧
    (glumed (runs (ins 0x08 0 0 0 0 0 4 1) [(4, 3)])).at 0 0x08
      (feCheck 0 65535 true ((glumed (runs (ins 0x08 0 0 0 0 0 4 1) [(4, 3)])).inst 0)) :=
  ⟨⟨_, rfl⟩, by decide +kernel⟩

/-- A command that Tiller 0 holds. -/
def job : Job := ⟨0, 0, 0, 0, 0, 0⟩

theorem witness_ReplaysStartAndEnd :
    (up.wrapAdd .TIL_CMD_COUNT_COUNT 0 1).breakHit 0 0 0 = false ∧
    (let s := upWith [(.TIL_BRK_CTRL_ON_CMD, 0, 1), (.TIL_BRK_CTRL_CTX_ANY, 0, 1), (.TIL_BRK_CTRL_ONCE, 0, 1), (.TIL_BRK_CMD_COUNT, 0, 1)]
     (s.wrapAdd .TIL_CMD_COUNT_COUNT 0 1).breakHit 0 0 0 = true ∧ s.flag .TIL_BRK_CTRL_ONCE 0 = true) ∧
    ((runs (ins 1 0 0 0 0 0 0 0)).at 0 0x01 (feCheck 0 0 false ((runs (ins 1 0 0 0 0 0 0 0)).inst 0)) ∧
      ((runs (ins 1 0 0 0 0 0 0 0)).til 0).insts = [] ∧ ((runs (ins 1 0 0 0 0 0 0 0)).til 0).leftover = none ∧
      ((runs (ins 1 0 0 0 0 0 0 0)).til 0).egressDone = true) ∧
    ((runs (ins 1 0 0 0 0 0 0 0) [] busy).at 0 0x01 (feCheck 0 0 false ((runs (ins 1 0 0 0 0 0 0 0) [] busy).inst 0)) ∧
      ((runs (ins 1 0 0 0 0 0 0 0) [] busy).til 0).insts ≠ []) ∧
    ({ Tiller.reset with egress := [(24, [.eop])] } : Tiller).egressDone = false ∧
    ({ Tiller.reset with tileNext := 1 } : Tiller).leftover = some 8 ∧
    ((up.setTil 0 { Tiller.reset with ended := true, job := some job }).ready = true ∧
      (up.setTil 0 { Tiller.reset with ended := true, job := some job }).present 0 = true ∧
      ((up.setTil 0 { Tiller.reset with ended := true, job := some job }).til 0).ended = true ∧
      ((up.setTil 0 { Tiller.reset with ended := true, job := some job }).til 0).job = some job) := by decide +kernel

/-- One unit of 64 bytes from window Q9 to egress queue Q24, one tile from Q8 to window Q10, one pass of array 0. -/
def ldWord : Nat := ins 0x10 0 56 41 0 0 0 (2 ^ 48 + 64 * 2 ^ 16)
def stWord : Nat := ins 0x11 0 42 60 0 0 0 (2 ^ 48 + 4 * 2 ^ 16)
def mmWord : Nat := ins 0x20 0xC0 40 32 36 0 0 (2 ^ 48 + 2 ^ 12 + 2 ^ 6)

theorem witness_MoversAndMatrixDispatch :
    (runs ldWord [] (bound Tiller.reset)).at 0 0x10 (ldEncBad ((runs ldWord [] (bound Tiller.reset)).inst 0) ++
      (runs ldWord [] (bound Tiller.reset)).ldQueueBad 0 ((runs ldWord [] (bound Tiller.reset)).inst 0)) ∧
    (runs stWord [] (bound Tiller.reset)).at 0 0x11 (stEncBad ((runs stWord [] (bound Tiller.reset)).inst 0) ++
      (runs stWord [] (bound Tiller.reset)).stQueueBad 0 ((runs stWord [] (bound Tiller.reset)).inst 0)) ∧
    (runs mmWord).at 0 0x20 (mmEncBad ((runs mmWord).inst 0) ++ mmQueueBad ((runs mmWord).inst 0) ++
      (runs mmWord).mmShapeBad 0 ((runs mmWord).inst 0)) := by decide +kernel

theorem witness_DispatchTrapsOrWaits :
    up.canDispatch 0 = false ∧ (runs 0).canDispatch 0 = true ∧
    ((runs 0).setPc 0 1).canDispatch 0 = true ∧ ((runs 0).setPc 0 1).fld .TIL_PROG_IMAGE_NINST 0 ≤ ((runs 0).setPc 0 1).pc 0 ∧
    (runs 0).pc 0 < (runs 0).fld .TIL_PROG_IMAGE_NINST 0 ∧ ((runs 0).inst 0).opc ≠ 0x01 ∧
    (runs (ins 0x0B 0 0 0 0 0 0 0)).canDispatch 0 = true ∧
    opcodeKnown ((runs (ins 0x0B 0 0 0 0 0 0 0)).inst 0).opc = false := by decide +kernel

theorem witness_UnitsMove :
    (let s := (runs 0).setTil 0 { bound Tiller.reset with insts := [flight ldWord 32 1] }
     let e := encOf (BitVec.ofNat 128 ldWord)
     s.head 0 (8 + 24) (flight ldWord 32 1) ∧ s.ldDescBad 0 e = false ∧ (s.til 0).ldRoom e = true ∧
      ∃ r, agTake (s.binding 0 9) 65 (s.ag 0 9) 64 = .ok r) ∧
    (let s := (runs 0).setTil 0 { bound Tiller.reset with insts := [flight ldWord 32 1]
                                                          egress := [(24, List.replicate 16384 (.byte ⟨0, false⟩))] }
     (s.til 0).ldRoom (encOf (BitVec.ofNat 128 ldWord)) = false) ∧
    (let s := (runs 0).setTil 0 { bound Tiller.reset with insts := [flight stWord 5 1]
                                                          ingress := [(28, List.replicate 4 ⟨1, false⟩)] }
     let e := encOf (BitVec.ofNat 128 stWord)
     s.head 0 5 (flight stWord 5 1) ∧ (decide (28 ≤ opIdx e.a) && descBad false (s.desc 0 (opIdx e.a))) = false ∧
      (∃ r, (s.til 0).stSource (flight stWord 5 1) e = some r ∧ r.1.length = 4) ∧
      ∃ r, agTake (s.binding 0 10) 5 (s.ag 0 10) 4 = .ok r) ∧
    (let w := ins 0x10 0 56 73 0 0 0 (2 * 2 ^ 48 + 16 * 2 ^ 16)
     let i : Inst := { flight w 32 2 with done := 1 }
     let s := (runs 0).setTil 0 { bound Tiller.reset with insts := [i] }
     let e := encOf (BitVec.ofNat 128 w)
     s.head 0 (8 + 24) i ∧ s.ldDescBad 0 e = false ∧ (s.til 0).ldRoom e = true ∧ e.a / 32 ≠ 1 ∧
      i.done / ldTogether e * ldStepBytes e = 16 ∧
      ∃ r, agTake (s.binding 0 9) (16 + 16 + 1) (s.ag 0 9) (16 + 16) = .ok r) ∧
    (let s := (runs 0).setTil 0 { bound Tiller.reset with insts := [flight stWord 5 1] }
     s.head 0 5 (flight stWord 5 1) ∧ (s.til 0).stSource (flight stWord 5 1) (encOf (BitVec.ofNat 128 stWord)) = none) :=
  ⟨⟨by decide +kernel, by decide +kernel, by decide +kernel, ⟨_, rfl⟩⟩, by decide +kernel,
    ⟨by decide +kernel, by decide +kernel, ⟨_, rfl, rfl⟩, ⟨_, rfl⟩⟩,
    ⟨by decide +kernel, by decide +kernel, by decide +kernel, by decide +kernel, by decide +kernel, ⟨_, rfl⟩⟩, by decide +kernel⟩

/-! ### Witnesses: movers, arrays, the control of a Tiller, the vector engine -/

theorem witness_ProgramFaultStopsTiller : 0xFF < 256 ∧ 2 ^ 16 - 1 < 2 ^ 16 := by decide

/-- A pass slot of 1 vector of 32 zeros in feeder 0 and a block of 64 columns in loader 0, formats 0. -/
def loaded : Tiller :=
  { Tiller.reset with
    insts := [flight mmWord 0 1]
    feeders := [(0, [⟨0, 1, List.replicate 32 ⟨.fin false 0 0, false⟩, none, false, false⟩])]
    loaders := [(0, ⟨some ⟨0, List.replicate 2048 ⟨.fin false 0 0, false⟩, false, 0, [], []⟩, none, none⟩)] }

theorem witness_PassesIssue :
    let s := (runs 0).setTil 0 loaded
    let e := encOf (BitVec.ofNat 128 mmWord)
    s.head 0 (gangLead (s.gang 0) 0) (flight mmWord 0 1) ∧
    (∃ slot rest, (s.til 0).feeder (gangLead (s.gang 0) 0) = slot :: rest ∧
      (s.til 0).passReady e (passPos e 0) slot (gangArrays (s.gang 0) 0) = true ∧
      s.passBad 0 e (passPos e 0) slot (gangArrays (s.gang 0) 0) = none) ∧
    (s.til 0).tailClash (gangArrays (s.gang 0) 0) = none :=
  ⟨by decide +kernel, ⟨_, _, rfl, by decide +kernel, by decide +kernel⟩, by decide +kernel⟩

/-- A pass of one row in the pipe of array 0, and a finished buffer 1 of array 0. -/
def drains : Tiller :=
  { Tiller.reset with
    pipes := [(0, [⟨0, 0, false, true, true, 0, 0, 1, 0, []⟩])]
    accs := [(1, { AccBuf.empty with finished := true })] }

theorem witness_PassesAccumulateAndDrain :
    let s := (runs 0).setTil 0 drains
    (s.unitsRun 0 = true ∧ (∃ p rest, (s.til 0).pipe 0 = p :: rest)) ∧
    ((s.til 0).firstFinished 0 = some 1 ∧ s.gang 0 = 0 ∧ ((s.til 0).acc 0 1).tile < (s.til 0).tileHead + 8 ∧
      (s.til 0).drainsBefore ((s.til 0).acc 0 1).tile < 2) ∧
    ((runs 0).unitsRun 0 = true ∧ ((runs 0).til 0).pipe 0 = []) ∧ ((runs 0).til 0).firstFinished 0 = none :=
  ⟨⟨by decide +kernel, ⟨_, _, rfl⟩⟩, by decide +kernel, by decide +kernel, by decide +kernel⟩

theorem witness_IntegerSumsSaturate :
    ((-(2 ^ 63 - 1) : Int) ≤ (BitVec.ofNat 64 (2 ^ 63 - 2)).toInt + (1 : Word).toInt ∧
      (BitVec.ofNat 64 (2 ^ 63 - 2)).toInt + (1 : Word).toInt ≤ 2 ^ 63 - 1) ∧
    2 ^ 63 - 1 < (BitVec.ofNat 64 (2 ^ 63 - 1)).toInt + (1 : Word).toInt ∧
    (BitVec.ofNat 64 (2 ^ 63)).toInt + (0 : Word).toInt < -(2 ^ 63 - 1) := by decide

/-- Tiller 0 in a STATE. -/
def inState (k : Nat) : State := upWith [(.TIL_PROG_STATUS_STATE, 0, k)]

theorem witness_TillersObeyControl :
    (up.answers .pf .TIL_MA_CTRL ∧ up.answers .pf .TIL_VE_CTRL ∧ up.tstate 0 < 2) ∧
    ((inState 7).answers .pf .TIL_MA_CTRL ∧ 6 < (inState 7).tstate 0) ∧
    ((inState 6).answers .pf .TIL_MA_CTRL ∧ 2 ≤ (inState 6).tstate 0 ∧ (inState 6).tstate 0 ≤ 6 ∧
      (inState 6).fld .TIL_MA_CTRL_GANG 0 ≠ 1 ∧ (inState 6).fld .TIL_MA_CTRL_GANG 0 = 0 ∧
      (inState 6).flag .TIL_MA_CTRL_CMP 0 = false) ∧
    ((inState 4).answers .pf .TIL_PROG_CTRL ∧ (inState 4).tstate 0 = 4 ∧ (inState 5).answers .pf .TIL_PROG_CTRL ∧
      (inState 5).tstate 0 = 5 ∧ (inState 6).answers .pf .TIL_PROG_CTRL ∧ (inState 6).tstate 0 = 6) ∧
    ((inState 6).answers .pf .TIL_PARAM ∧ 5 < (inState 6).tstate 0 ∧ (inState 2).answers .pf .TIL_PARAM ∧
      (inState 2).tstate 0 = 2) ∧
    (up.answers .pf .TIL_BRK_CTRL ∧ up.answers .pf .TIL_BRK_CMD ∧ up.answers .pf .TIL_BRK_TAG) ∧
    (let s := (upWith [(.TIL_PROG_STATUS_STATE, 0, 4), (.TIL_WDOG_LIMIT, 0, 1)]).setTil 0 { Tiller.reset with wdog := 102400 }
     s.unitsRun 0 = true ∧ s.fld .TIL_WDOG_LIMIT 0 ≠ 0 ∧
      s.fld .TIL_WDOG_LIMIT 0 * 102400 ≤ (s.til 0).wdog ∧ s.wdogHeld 0 = false) ∧
    (upWith [(.TIL_WDOG_LIMIT, 0, 1)] |>.til 0).wdog < (upWith [(.TIL_WDOG_LIMIT, 0, 1)]).fld .TIL_WDOG_LIMIT 0 * 102400 ∧
    (upWith [(.TIL_WDOG_LIMIT, 0, 0)]).fld .TIL_WDOG_LIMIT 0 = 0 := by decide +kernel

/-- FADD VT2, VT0, VT1 on e elements, and other instructions of the engine. -/
def faddWord (e : Nat) : Nat := ins 0x40 0 98 96 97 0 0 (e * 2 ^ 48)
def cvtWord : Nat := ins 0x4B 0 98 96 0 0 0 (64 * 2 ^ 48)
def mandWord : Nat := ins 0x78 0 130 128 129 0 0 (4096 * 2 ^ 48)
def rsumWord : Nat := ins 0x70 0 98 96 0 0 0 (64 * 2 ^ 48)

theorem witness_VectorInstructionsDispatch :
    (∀ w ∈ [faddWord 0, faddWord 4096, cvtWord, mandWord, rsumWord],
      let s := runs w [(1, 15)]
      let e := s.inst 0
      s.at 0 (w / 2 ^ 120) (vecEncBad e ++ s.vecQueueBad 0 e ++ vecShapeBad e (s.convBlock 0 e)) ∧
      ∀ j ∈ (s.til 0).insts, j.id < (s.til 0).nextId) ∧
    convReserved ((runs cvtWord [(0, 15), (1, 15), (2, 15)]).inst 0)
      ((runs cvtWord [(0, 15), (1, 15), (2, 15)]).convBlock 0 ((runs cvtWord [(0, 15), (1, 15), (2, 15)]).inst 0)) = true ∧
    convReserved ((runs (faddWord 1)).inst 0) [] = false ∧ up.canDispatch 0 = false ∧
    ((runs 0).canDispatch 0 = true ∧ (runs 0).pc 0 < (runs 0).fld .TIL_PROG_IMAGE_NINST 0 ∧ ((runs 0).inst 0).opc ≠ 0x40) := by
  decide +kernel

theorem witness_ChunksIssue :
    (let s := (runs 0).setTil 0 { Tiller.reset with insts := [flight mandWord 4 1] }
     s.head 0 4 (flight mandWord 4 1) ∧ vkind (encOf (BitVec.ofNat 128 mandWord)).opc = .mask) ∧
    (∀ w ∈ [faddWord 64, rsumWord], let s := (runs 0).setTil 0 { Tiller.reset with insts := [flight w 4 1] }
     let e := encOf (BitVec.ofNat 128 w)
     s.head 0 4 (flight w 4 1) ∧ vkind e.opc ≠ .mask ∧ vkind e.opc ≠ .gather ∧ s.vecDescBad 0 e = none ∧
      s.tileShort 0 e [] = false ∧ s.chunkReady 0 (flight w 4 1) e 0 64 = true) ∧
    (let w := ins 0x40 0 98 40 97 0 0 (64 * 2 ^ 48)
     let s := (runs 0).setTil 0 { Tiller.reset with insts := [flight w 4 1] }
     s.chunkReady 0 (flight w 4 1) (encOf (BitVec.ofNat 128 w)) 0 64 = false) := by decide +kernel

theorem witness_ChunksIssue_reads :
    let s := (runs 0).setTil 0 { Tiller.reset with insts := [flight (faddWord 64) 4 1] }
    let e := encOf (BitVec.ofNat 128 (faddWord 64))
    ∃ r, s.readAll 0 (flight (faddWord 64) 4 1) e 0 64 0 (dataOperands e) = .ok r ∧
      poisonedInputs r.2 ((s.til 0).lives e 0 64) = 0 := ⟨_, rfl, by decide +kernel⟩

/-- A source of FADD that is poisoned, with and without POISON_FAULT. -/
def poisonedVt (l : List (Fld × Nat × Nat)) : State :=
  let s := upWith ([(Fld.TIL_PROG_STATUS_STATE, 0, 4), (.TIL_PROG_IMAGE_NINST, 0, 1)] ++ l)
  s.setTil 0 { Tiller.reset with insts := [flight (faddWord 64) 4 1], vtPoison := [(0, true)] }

theorem witness_ChunksIssue_poisoned : ∀ l ∈ [[], [(Fld.TIL_VE_CTRL_POISON_FAULT, 0, 1)]],
    let s := poisonedVt l
    let i := flight (faddWord 64) 4 1
    let e := encOf (BitVec.ofNat 128 (faddWord 64))
    s.head 0 4 i ∧ s.vecDescBad 0 e = none ∧ s.tileShort 0 e [] = false ∧ s.chunkReady 0 i e 0 64 = true ∧
      s.flag .TIL_VE_CTRL_POISON_FAULT 0 = !(l.isEmpty) ∧
      (match s.readAll 0 i e 0 64 0 (dataOperands e) with
        | .ok r => poisonedInputs r.2 ((s.til 0).lives e 0 64) == 1
        | _ => false) = true := by decide +kernel

theorem witness_LanesCompute : 0 < [true].length ∧ (([[VIn.none]] : List (List VIn)).getD 0 []).getD 0 VIn.none = VIn.none := by
  decide

/-- A bank with a record, its instruction in flight, and the command that it belongs to. -/
def watching : Tiller :=
  { Tiller.reset with
    insts := [{ flight (faddWord 64) 4 1 with done := 1, watch := some 0 }]
    banks := [(0, { StatBank.empty with busy := true, ready := true })]
    job := some job }

theorem witness_StatisticRecordsAreWritten :
    let s := (runs 0).setTil 0 watching
    s.unitsRun 0 = true ∧ (∃ k b i, (s.til 0).readyBank = some (k, b) ∧
      (s.til 0).insts.find? (fun i => i.id == b.inst) = some i) ∧ (s.til 0).job = some job ∧
    ((runs 0).til 0).readyBank = none :=
  ⟨by decide +kernel, ⟨_, _, _, rfl, rfl⟩, rfl, rfl⟩

/-! ### Witnesses: Glumes, barriers, rings and contexts -/

/-- A signal of value v to Glume pid on its way, and that Glume. -/
def signalled (pid : Nat) (v : Word) (g : Glume) : State :=
  { up with signals := [⟨0, 1, BitVec.ofNat 16 pid, v, false⟩], glumes := [(pid, g)] }

/-- Tiller 0 waits for 3 on Glume 5 (virtual ID 1) since MTIME 0, the Glume holding v, and so do context 0's notify and
ring 0's head. -/
def waits (v : Word) (tmult : Nat) : State :=
  let s := upWith [(.TIL_PROG_STATUS_STATE, 0, 5), (.GLM_CTX_CFG_TMULT, 0, tmult), (.PWR_MTIME_MTIME, 0, 2 ^ 40)]
  let s := s.setTil 0 { Tiller.reset with wait := some ⟨1, 5, 3, 0⟩ }
  { s with glumes := [(5, ⟨.owned, 0, v⟩)]
           contexts := [(0, { Context.reset with notify := some ⟨1, 5, 3, 0⟩ })]
           rings := [(0, { Ring.reset with waits := [some ⟨1, 5, 3, 0⟩, none] })] }

theorem witness_GlumesSignalAndWait_signals :
    (∀ p ∈ [(0xEFFF, (1 : Word), (⟨.frozen, 0, 0⟩ : Glume)), (5, 1, ⟨.free, 0, 0⟩), (0xF000, 1, ⟨.owned, 0, 0⟩),
        (5, 1, ⟨.owned, 0, BitVec.ofNat 64 (2 ^ 64 - 2)⟩), (5, 1, ⟨.owned, 0, BitVec.ofNat 64 (2 ^ 64 - 1)⟩)],
      takeSigs (BitVec.ofNat 16 p.1) 1 false (signalled p.1 p.2.1 p.2.2).signals =
        ([⟨0, 1, BitVec.ofNat 16 p.1, p.2.1, false⟩], []) ∧
      (signalled p.1 p.2.1 p.2.2).glume p.1 = p.2.2) ∧
    up.bankFenced 5 = false ∧ up.bankFenced 0xEFFF = false ∧ 5 / 4096 ≠ 15 ∧ 0xEFFF / 4096 ≠ 15 ∧ 0xF000 / 4096 = 15 ∧
    2 ^ 64 - 2 + 1 < 2 ^ 64 ∧ 2 ^ 64 ≤ 2 ^ 64 - 1 + 1 ∧ (∀ y ∈ up.signals, y.pid ≠ 5) ∧
    takeSigs 5 3 false [⟨0, 1, 5, 1, false⟩, ⟨0, 2, 6, 1, false⟩, ⟨0, 1, 5, 2, true⟩] =
      ([⟨0, 1, 5, 1, false⟩, ⟨0, 1, 5, 2, true⟩], [⟨0, 2, 6, 1, false⟩]) ∧
    takeSigs 5 3 false [⟨0, 2, 6, 1, true⟩, ⟨0, 1, 5, 1, true⟩, ⟨0, 1, 5, 2, false⟩] =
      ([⟨0, 1, 5, 2, false⟩], [⟨0, 2, 6, 1, true⟩, ⟨0, 1, 5, 1, true⟩]) := by decide +kernel

theorem witness_GlumesSignalAndWait_waits :
    ((waits 3 0).ready = true ∧ ((waits 3 0).til 0).wait = some ⟨1, 5, 3, 0⟩ ∧ 3 ≤ (waits 3 0).glumeValue 5) ∧
    (waits 2 0).glumeValue 5 < 3 ∧ (waits 2 1).waitOver ((waits 2 1).tctx 0) ⟨1, 5, 3, 0⟩ = true ∧
    (waits 2 0).fld .GLM_CTX_CFG_TMULT ((waits 2 0).tctx 0) = 0 ∧
    (((waits 2 1).ring 0).waits = [some ⟨1, 5, 3, 0⟩, none] ∧ (waits 2 1).waitOver ((waits 2 1).owner 0) ⟨1, 5, 3, 0⟩ = true) ∧
    ((waits 2 1).tstate 0 = 5 ∧ ((waits 2 1).til 0).stepping = false ∧ ((waits 2 1).til 0).halting = false) ∧
    ((waits 2 1).ctx 0).notify = some ⟨1, 5, 3, 0⟩ := by decide +kernel

/-- Context 0 enabled, with virtual ID 1 in the cache of Rachis B as Glume 5, whose value is 3. -/
def windowed (l : List (Fld × Nat × Nat)) : State :=
  { upWith ([(.CTX_CFG_ENABLE, 0, 1), (.CTX_STATUS_STATE, 0, 1), (.GLM_CTX_CFG_TCOUNT, 0, 16)] ++ l) with
    glumes := [(5, ⟨.owned, 0, 3⟩)], gcaches := [(13, [⟨0, 1, 0x80000005⟩])] }

theorem witness_GlumesSignalAndWait_host :
    (let s := windowed [(.GLM_CTX_NOTIFY_THRESH_THRESH, 0, 4)]
     let s0 := (s.setFld .GLM_CTX_NOTIFY_VID 0 1).setFlag .GLM_CTX_NOTIFY_ARMED 0 true
     s.window 0 = true ∧ s.fld .GLM_CTX_NOTIFY_THRESH_THRESH 0 = 4 ∧ ∃ s1, s0.glumeXlat 13 0 1 = (s1, .ok 5) ∧
      s1.glumeValue 5 < 4) ∧
    (let s := windowed [(.GLM_CTX_SIG_VALUE_VALUE, 0, 1), (.GLM_CTX_READ_VID, 0, 1)]
     s.window 0 = true ∧ s.fld .GLM_CTX_SIG_VALUE_VALUE 0 ≠ 0 ∧ s.fld .GLM_CTX_READ_VID 0 = 1 ∧
      ∃ s1, s.glumeXlat 13 0 1 = (s1, .ok 5)) ∧
    (let s := windowed [(.GLM_CTX_READ_VID, 0, 1), (.CTX_STATUS_STATE, 0, 2)]
     s.windowReads 0 = true ∧ s.fld .GLM_CTX_READ_VID 0 = 1 ∧ up.windowReads 0 = false ∧
      ∃ s1, s.glumePid 13 0 1 = (s1, .ok 5) ∧ (s1.glume 5).st ≠ .free ∧ (s1.glume 5).owner = 0) :=
  ⟨⟨by decide +kernel, by decide +kernel, ⟨_, rfl, by decide +kernel⟩⟩,
    ⟨by decide +kernel, by decide +kernel, by decide +kernel, ⟨_, rfl⟩⟩,
    ⟨by decide +kernel, by decide +kernel, by decide +kernel, ⟨_, rfl, by decide +kernel, by decide +kernel⟩⟩⟩

theorem witness_GlumesAreAdministered :
    (up.answers .pf .GLM_ADMIN ∧ up.answers .pf .GLM_XLAT_INVAL) ∧ up.adminPid = none ∧
    up.glmInval = none ∧ (up.glume 65535).st = .free ∧
    (({ up with glumes := [(5, ⟨.owned, 0, 3⟩)] } : State).glume 5).st = .owned ∧
    (({ up with glumes := [(5, ⟨.frozen, 0, 3⟩)] } : State).glume 5).st = .frozen ∧
    ({ up with adminPid := some (1, 5) } : State).adminPid ≠ none ∧
    (let s : State := { up with adminPid := some (1, 5) }; s.answers .pf .GLM_ADMIN) ∧
    ({ up with glmInval := some (0, true, 0) } : State).glmInval = some (0, true, 0) := by decide +kernel

/-- Barrier slot 15 enabled: a root without children and without an arrival threshold, or with a parent. -/
def slot (root : Nat) (b : Barrier) : State :=
  { upWith [(.GLM_BAR_CFG0_ENABLE, 15, 1), (.GLM_BAR_CFG0_ROOT, 15, root), (.GLM_BAR_CFG0_PARENT, 15, 7),
      (.PWR_MTIME_MTIME, 0, 2 ^ 40)] with barriers := [(15, b)] }

theorem witness_BarriersArriveAndRelease :
    (up.answers .pf .GLM_BAR_CFG0 ∧ up.answers .pf .GLM_BAR_CFG1 ∧ up.flag .GLM_BAR_CFG0_ENABLE 15 = false) ∧
    (∀ root ∈ [0, 1], (slot root Barrier.reset).flag .GLM_BAR_CFG0_ENABLE 15 = true ∧
      (∀ p < 8, bitAt ((slot root Barrier.reset).fld .GLM_BAR_CFG0_CHILDREN 15) p = true →
        Barrier.reset.tokens.getLsbD p = true) ∧
      ((slot root Barrier.reset).barWait 15).2 = true ∧
      ((slot root Barrier.reset).barWait 15).1.barrier 15 = Barrier.reset ∧
      ((slot root Barrier.reset).barWait 15).1.flag .GLM_BAR_CFG0_ROOT 15 = decide (root = 1)) ∧
    (1 = ((slot 0 Barrier.reset).fld .GLM_BAR_STATUS_ROUND 15 + 1) % 2 ^ 32 ∧ (slot 0 Barrier.reset).stretches 15 = false ∧
      2 ≠ ((slot 0 Barrier.reset).fld .GLM_BAR_STATUS_ROUND 15 + 1) % 2 ^ 32 ∧ (slot 0 Barrier.reset).now < 2 ^ 41) ∧
    ((slot 0 { Barrier.reset with release := some (2 ^ 40, 0) }).now = 2 ^ 40 ∧
      (slot 0 { Barrier.reset with release := some (2 ^ 40 + 1, 0) }).now < 2 ^ 40 + 1) ∧
    (let b : Barrier := { Barrier.reset with arrivedAt := some 0 }
     (slot 0 b).fld .GLM_BAR_LEAD_ARR_TMO_US 0 * 1000 ≤ (slot 0 b).now - 0 ∧ b.timedOut = false) := by decide +kernel

/-- A page table at 0 and 0x1000 in HBM: the first GiB of a context's addresses is the first GiB of HBM, the next one the
first GiB of the host window. -/
def table : Table Byte := [(0, 3), (1, 0x10), (0x1000, 5), (0x1008, 5), (0x100D, 0x80)]

/-- Ring r of context 0 enabled, with this state of its own, and the table. -/
def ringed (r : Nat) (x : Ring) (l : List (Fld × Nat × Nat) := []) (m : Table Byte := []) : State :=
  { upWith ([(.CTX_CFG_ENABLE, 0, 1), (.CTX_STATUS_STATE, 0, 1), (.CTX_RING_BASE_ENABLE, r, 1),
      (.CTX_RING_CFG_DB_ADDR, r, 0x40000000 / 8), (.CTX_RING_BASE_BASE, r, 0x2000 / 64)] ++ l) with
    rings := [(r, x)], mem := table ++ m }

theorem witness_RingsTakeDoorbells :
    (∀ r ∈ [0, 16383], (ringed r Ring.reset).ringWatched r = true ∧
      (ringed r Ring.reset).flag .CTX_RING_BASE_DBMODE r = false) ∧
    (let s := ringed 5 Ring.reset [(.CTX_RING_BASE_DBMODE, 5, 1), (.PWR_MTIME_MTIME, 0, 10 ^ 6)]
     s.ringWatched 5 = true ∧ s.flag .CTX_RING_BASE_DBMODE 5 = true ∧
      (s.ring 5).polledAt + max 100 (s.fld .CMD_CFG_POLL_NS 0) ≤ s.now) ∧
    (ringed 5 Ring.reset).now < ((ringed 5 Ring.reset).ring 5).polledAt + max 100 ((ringed 5 Ring.reset).fld .CMD_CFG_POLL_NS 0) ∧
    up.ringWatched 5 = false ∧ up.ringLive 5 = false ∧
    (up.answers .pf .CTX_RING_BASE ∧ up.flag .CTX_RING_BASE_ENABLE 5 = false ∧ up.enableRefused 5 = some 0) ∧
    (upWith [(.CTX_RING_BASE_DBMODE, 5, 1)]).enableRefused 5 = none ∧
    (let s := ringed 5 { Ring.reset with tail := 1 }
     s.ringLive 5 = true ∧ s.nextFetch 5 = some (s.fld .CTX_RING_HEAD_HEAD 5)) := by decide +kernel

/-- A read gives its bytes. -/
def given (x : State × Got) : List Byte :=
  match x.2 with
  | .ok b => b
  | _ => []

theorem witness_RingsTakeDoorbells_reads :
    (let s := ringed 5 { Ring.reset with tail := 1 } [] [(0x800000000000, 1)]
     let p := s.readCva 0 0 0x40000000 64 0 (s.ringAcc 5 none) (pagesOf 64)
     s.fld .CTX_RING_CFG_DB_ADDR 5 * 8 / 64 * 64 = 0x40000000 ∧ s.fld .CTX_RING_CFG_DB_ADDR 5 * 8 % 64 = 0 ∧
      (p.2.map vals).any (fun l => decide (leNat (l.take 8) = 1)) = true ∧ (p.2.map anyPoison) = some false ∧
      s.lineRings 5 = [5]) ∧
    (let s := ringed 5 { Ring.reset with tail := 1 } [] [(0x800000000000, 1)]
     let p := s.readCva 0 0 0x40000000 64 0 (s.ringAcc 5 (some ⟨0, 3⟩)) (pagesOf 64)
     (p.2.map anyPoison) = some true) ∧
    (let s := ringed 5 { Ring.reset with tail := 1 }
     (s.ring 5).tail ≤ 1 ∧ 1 ≤ s.headShown 5 + s.cmdEntries 5 ∧ 0 < (s.ring 5).tail ∧ (BitVec.ofNat 64 0) ∉ (s.ring 5).badTails ∧
      (BitVec.ofNat 64 0) ∈ ((ringed 5 { Ring.reset with tail := 1, badTails := [0] }).ring 5).badTails) ∧
    (let s := ringed 5 { Ring.reset with tail := 1 }
     let r := s.readFor 5 (s.fld .CTX_RING_BASE_BASE 5 * 64) 64 2 none
     r.2 = .ok (given r)) ∧
    (let s := ringed 5 { Ring.reset with tail := 1 } [(.CTX_RING_BASE_BASE, 5, 0x40000000 / 64)]
     (s.readFor 5 (s.fld .CTX_RING_BASE_BASE 5 * 64) 64 2 (some ⟨0, 1⟩)).2 = .poisoned) := by decide +kernel

/-- A RUN of image 7 at 0x3000 on Tiller 0 of Sheaf 0, and an XFER of one operation. -/
def runCmd : BitVec 512 := 1 + BitVec.ofNat 512 (7 * 2 ^ 96 + 0x3000 * 2 ^ 128 + 2 ^ 240)
def xferCmd : BitVec 512 := 2 + BitVec.ofNat 512 (0x3000 * 2 ^ 128 + 2 ^ 176 + 2 ^ 240)

/-- Ring 0 with command c fetched at its head and no wait open. -/
def headed (c : BitVec 512) (l : List (Fld × Nat × Nat) := []) (m : Table Byte := []) : State :=
  ringed 0 { Ring.reset with tail := 1, fetched := [(0, ⟨c⟩)], waits := [none, none], readyAt := some 0 } l m

/-- An image with ID 7 of one instruction, END. -/
def image : Table Byte := [(0x3000, 0x05), (0x3001, 0x71), (0x3002, 0x12), (0x3003, 0xAE), (0x3004, 1), (0x3008, 7),
  (0x300C, 1), (0x314F, 1)]

/-- What the head of ring 0 needs to start. -/
def starts (c : BitVec 512) : Bool :=
  decide ((headed c).settleHead 0 = headed c) && (headed c).ringLive 0 && !((headed c).headCancelled 0) &&
    (headed c).headCmd 0 == some c && (cmdRefused c ((headed c).fld .CTX_RING_CFG_CTX 0)).isNone &&
    ((headed c).evalHead 0).otherwiseReady 0 && !(((headed c).evalHead 0).namesLost c) && ((headed c).evalHead 0).myTurn 0 c

theorem witness_CommandsStart_nop : starts 0 = true ∧ cmdKind 0 = 0 := by decide +kernel
theorem witness_CommandsStart_run : starts runCmd = true ∧ cmdKind runCmd = 1 ∧ cmdTillers runCmd = [0] ∧
    cmdNPatch runCmd = 0 := by decide +kernel
theorem witness_CommandsStart_xfer : starts xferCmd = true ∧ cmdKind xferCmd = 2 := by decide +kernel
theorem witness_CommandsStart_refused : cmdRefused (BitVec.ofNat 512 128) 0 = some 0 ∧ cmdKind (BitVec.ofNat 512 128) = 0 := by
  decide +kernel

theorem witness_CommandsStart_tillers :
    (let s := (headed runCmd [(.TIL_PROG_IMAGE_NINST, 0, 1), (.TIL_PROG_IMAGE_IMAGE_ID, 0, 7)]).evalHead 0
     (s.til 0).job.isSome = false ∧ s.needsLoad 0 runCmd = false) ∧
    ((headed runCmd).evalHead 0).needsLoad 0 runCmd = true ∧
    (((headed runCmd).setTil 0 { Tiller.reset with job := some job }).til 0).job.isSome = true := by decide +kernel

theorem witness_CommandsStart_waits :
    let s := ringed 0 { Ring.reset with tail := 1, fetched := [(0, ⟨runCmd⟩)], waits := [some ⟨1, 5, 3, 0⟩, none] }
    s.settleHead 0 = s ∧ (s.evalHead 0).otherwiseReady 0 = false := by decide +kernel

theorem witness_CommandsStart_reads :
    (let r := ((headed runCmd [] image).evalHead 0).readImage 0 (cmdProg runCmd) none
     r.2 = .ok (given r) ∧ imgBad (given r) = none) ∧
    (let r := ((headed xferCmd).evalHead 0).readOn 0 true (cmdProg xferCmd) (64 * cmdNPatch xferCmd) 2 none
     r.2 = .ok (given r)) := by decide +kernel

/-- Ring 0 with a command running at position 0. -/
def run0 : Running := ⟨0, runCmd, 0, [(0, 1)], 0, none, []⟩

theorem witness_CommandsEnd :
    (let s := ringed 0 { Ring.reset with running := [run0] }
     (s.ring 0).running.find? (fun c => c.pos == 0) = some run0 ∧ s.ready = true ∧ run0.fault = none ∧ run0.ops = 0 ∧
      ∀ p ∈ run0.tillers, p.2 = 1) ∧
    (up.ring 0).running.find? (fun c => c.pos == 0) = none ∧
    (let s := ringed 0 Ring.reset [(.CTX_RING_HEAD_HEAD, 0, 1)]
     s.answers .pf .CTX_RING_BASE ∧ (s.ring 0).upto < 1 ∧ 1 ≤ s.fld .CTX_RING_HEAD_HEAD 0) ∧
    (up.answers .pf .CTX_RING_BASE ∧ (up.ring 0).upto < 1 ∧ up.fld .CTX_RING_HEAD_HEAD 0 < 1 ∧ 0 ≤ (up.ring 0).upto) ∧
    (let s := ringed 0 { Ring.reset with tail := 1, fetched := [(0, ⟨runCmd⟩)], upto := 1 }
     s.ringWatched 0 = true ∧ (s.ring 0).stopped = [] ∧ s.fld .CTX_RING_HEAD_HEAD 0 < (s.ring 0).upto ∧
      s.headCmd 0 = some runCmd) ∧
    (let s := ringed 0 { Ring.reset with running := [run0], stopped := [(0, 0x39)] }
     s.answers .pf .CTX_RING_BASE ∧ (s.ring 0).stopped = (0, 0x39) :: [] ∧
      (s.ring 0).running.find? (fun c => c.pos == 0) = some run0) := by decide +kernel

theorem witness_ContextsAreControlled :
    (∀ c ∈ [0, 4095], up.answers .pf .CTX_CFG ∧ up.fld .CTX_STATUS_STATE c ≠ 2) ∧
    (let s := upWith [(.CTX_CFG_ENABLE, 4095, 1), (.CTX_STATUS_STATE, 4095, 1), (.CTX_STATUS_FROZEN, 4095, 1)]
     s.window 4095 = true ∧ s.flag .CTX_STATUS_FROZEN 4095 = true ∧ (s.ctx 4095).tlbInval = none) ∧
    ((windowed []).window 0 = true ∧ (windowed []).flag .CTX_STATUS_FROZEN 0 = false) ∧
    (({ up with contexts := [(5, { Context.reset with tlbInval := some (true, 0) })] } : State).ctx 5).tlbInval =
      some (true, 0) ∧
    up.hostPort = true ∧ (upWith [(.CTX_STATUS_STATE, 5, 2)]).fld .CTX_STATUS_STATE 5 = 2 ∧
    (let s : State := { up with contexts := [(5, { Context.reset with vecPending := 4 })], msix := [(5 * 256 + 5, 0)] }
     s.power.hostUp = true ∧ (s.ctx 5).vecPending.getLsbD 2 = true ∧ bitAt (s.msixWord 5 5) 32 = false ∧ (s.ctx 5).vecLast.any (fun p => p.1 == 2) = false) ∧
    (up.ctx 5).vecPending.getLsbD 7 = false := by decide +kernel

/-! ### Witnesses: memory, transfers and memory health -/

/-- An accessor of context 0. -/
def acc0 : Accessor := Accessor.of ⟨1, 0⟩ (some 0)

theorem witness_WritesReadBack : up.accClass acc0 0x8FFFFFFFFF = 0 ∧
    Tbl.get EccErr.clean up.ecc (up.wordKey 0x8FFFFFFFFF) = .clean ∧ up.accClass acc0 0x9000000000 = 0x40 := by decide +kernel

theorem witness_AddressMapPlaces :
    (Tbl.get false up.absent (tix 11 63) = false ∧ up.flag .MGT_DET_DUMAP_HI_FENCED 11 = false) ∧
    Tbl.get false ({ up with absent := [(767, true)] } : State).absent (tix 11 63) = true ∧
    (upWith [(.MGT_DET_DUMAP_HI_FENCED, 11, 1)]).flag .MGT_DET_DUMAP_HI_FENCED 11 = true ∧
    2 ^ 30 - 1 < (upWith [(.FAR_STATUS_CAP_GIB, 0, 1)]).fld .FAR_STATUS_CAP_GIB 0 * 2 ^ 30 ∧
    (match up.region 0x9000000000, up.region 0xFFFFFFFFFFF with
      | .hole, .hole => true
      | _, _ => false) = true := by decide +kernel

/-- Operation words (R282): OP, ROWS, LEN, SRC, DST, OP_A, OP_B, the rest. -/
def opWord (op rows len src dst a b rest : Nat) : BitVec 512 :=
  BitVec.ofNat 512 (op + rows * 2 ^ 32 + len * 2 ^ 64 + src * 2 ^ 128 + dst * 2 ^ 192 + a * 2 ^ 256 + b * 2 ^ 320 +
    rest * 2 ^ 384)

/-- Sheaf 0 with one operation in its engine, of context 0 with the table. -/
def engined (w : BitVec 512) (performed : Bool := false) (l : List (Fld × Nat × Nat) := []) (m : Table Byte := []) : State :=
  { ringed 0 Ring.reset l m with engines := [(0, [⟨0, 0, 0, 0, w, none, performed⟩])] }

/-- What `opNow` finds. -/
def xop (w : BitVec 512) : XferOp := ⟨0, 0, 0, 0, w, none, false⟩

/-- Nothing goes wrong outside the part. -/
def fine : XferErr := ⟨none, false⟩

def copyOp : BitVec 512 := opWord 0 2 8 0x10000 0x20000 8 8 0
def fillOp : BitVec 512 := opWord 1 1 16 0xAB 0x20000 0 0 0
def milletOp (k : Nat) : BitVec 512 := opWord (2 + k * 256) 1 0 0x10000 0x20000 0x30000 0x40000 32

/-- The segments of a translation that succeeded. -/
def segs (x : State × Option (List (Nat × Nat))) : List (Nat × Nat) := x.2.getD []

theorem witness_TransfersPerform :
    (let s := engined copyOp; let o := xop copyOp
     s.opNow 0 0 = some o ∧ cmdField o.op 0 3 0 = 0 ∧ blockOpBad o = false ∧
      (let x := s.xlatRows 0 o fine 0 (rowsOf (opSrc o) (opA o) (opRows o) (opLen o))
       x.2 = some (segs x) ∧ (x.1.xlatRows 0 o fine 1 (rowsOf (opDst o) (opB o) (opRows o) (opLen o))).2.isSome = true)) ∧
    (let o := xop (opWord 0 0 8 0 0 0 0 0); (engined o.op).opNow 0 0 = some o ∧ blockOpBad o = true) ∧
    (let s := engined fillOp; let o := xop fillOp
     s.opNow 0 0 = some o ∧ cmdField o.op 0 3 0 = 1 ∧ blockOpBad o = false ∧
      (s.xlatRows 0 o fine 1 (rowsOf (opDst o) (opB o) (opRows o) (opLen o))).2.isSome = true) := by decide +kernel

theorem witness_TransfersPerform_millet :
    ∀ k ∈ [0, 1, 2, 3], let s := engined (milletOp k); let o := xop (milletOp k)
     s.opNow 0 0 = some o ∧ cmdField o.op 0 3 0 = 2 ∧ cmdField o.op 0 11 8 = k ∧ milletBad o = false ∧
      (s.xlatRows 0 o fine 0 [(opSrc o, milletIdxBytes o * opRows o)]).2.isSome = true ∧
      (s.xlatRows 0 o fine 0 [(opA o, 32 * opRows o)]).2.isSome = true ∧
      (s.xlatRows 0 o fine 1 [(opDst o, 32 * opRows o)]).2.isSome = true ∧
      (s.milletSectors 0 o fine [0]).2.2 = false := by decide +kernel

/-- A Millet operation under way: one sector is left, or none; CAP lets the stack go on or has been used up. -/
theorem witness_TransfersPerform_work :
    (let o : XferOp := { xop (milletOp 0) with work := some ⟨[some 0x30000], [], []⟩ }
     let s : State := { engined (milletOp 0) with engines := [(0, [o])] }
     s.opNow 0 0 = some o ∧ milletBad o = false ∧ o.work ≠ none) ∧
    (let s : State := { up with memCtl := { up.memCtl with milUsed := [((up.hbmMap 0x30000).stack, 800)] } }
     min 3200 (s.fld .MIL_CFG_CAP 0) ≤ Tbl.get 0 s.memCtl.milUsed (s.hbmMap 0x30000).stack) ∧
    (milletReturns (xop (milletOp 0)) = true ∧ milletReturns (xop (milletOp 2)) = false) := by decide +kernel

theorem witness_MilletLanesAdd : (List.replicate 32 (0xFF : Byte)).length = 32 := by decide

def digOp (mode len src dst b rest : Nat) : BitVec 512 := opWord 3 1 len src dst 0 b (mode + rest)

/-- A digest operation that may be performed, its source and its results in translated memory. -/
def digests (w : BitVec 512) : Bool :=
  decide ((engined w).opNow 0 0 = some (xop w)) && cmdField w 0 3 0 == 3 && (digestBad (xop w)).isNone &&
    ((engined w).xlatRows 0 (xop w) fine 0 [(opSrc (xop w), 192)]).2.isSome &&
    ((engined w).xlatRows 0 (xop w) fine 1 [(0x20000, 32)]).2.isSome

theorem witness_DigestsHash_refused : let o := xop (digOp 0 1 0x10000 1 0x20000 8)
    (engined o.op).opNow 0 0 = some o ∧ digestBad o = some 0x18 ∧ digMode o = 0 := by decide +kernel
theorem witness_DigestsHash_piece : digests (digOp 0 (2 ^ 20) 0x10000 0 0x20000 0) = true := by decide +kernel
theorem witness_DigestsHash_pieceCopy : digests (digOp 1 8 0x10000 0x30000 0x20000 8) = true := by decide +kernel
theorem witness_DigestsHash_final : digests (digOp 2 32 0x10000 0x20000 0 (2 ^ 64)) = true := by decide +kernel
theorem witness_DigestsHash_prov : digests (digOp 3 192 0x10000 0x20000 0 0) = true := by decide +kernel

theorem witness_TransfersCompleteOrFail :
    (let s := engined copyOp true; (s.engine 0)[0]? = some ⟨0, 0, 0, 0, copyOp, none, true⟩ ∧ s.ready = true) ∧
    ((engined copyOp).engine 0)[0]? = some (xop copyOp) ∧
    ((engined copyOp).opNow 0 0 = some (xop copyOp) ∧ (engined copyOp).opFar (xop copyOp) = false) ∧
    ((upWith [(.FAR_STATUS_RATE, 0, 1)]).ready = true ∧ (upWith [(.FAR_STATUS_RATE, 0, 1)]).fld .FAR_STATUS_RATE 0 ≠ 0) ∧
    up.fld .FAR_STATUS_RATE 0 = 0 := by decide +kernel

theorem witness_TransfersCompleteOrFail_far :
    let s := engined copyOp false [(.FAR_STATUS_RATE, 0, 1), (.FAR_STATUS_CAP_GIB, 0, 1)]
    let s := { s with mem := [(0, 3), (1, 0x10), (0x1000, 5), (0x1005, 0x40)] }
    s.opNow 0 0 = some (xop copyOp) ∧ s.opFar (xop copyOp) = true ∧ s.fld .FAR_STATUS_RATE 0 ≠ 0 := by decide +kernel

theorem witness_MemoryHealthIsKept :
    (let s := upWith [(.HBM_CFG_SCRUB_H, 0, 1)]
     s.ready = true ∧ 0x8FFFFFFFE0 < 0x9000000000 ∧ s.fld .HBM_CFG_SCRUB_H 0 ≠ 0 ∧
      bitAt (s.fld .HBM_STATUS_FENCED 0) (s.hbmMap 0x8FFFFFFFE0).stack = false ∧
      Tbl.get EccErr.clean s.ecc (s.wordKey 0x8FFFFFFFE0) = .clean) ∧
    (upWith [(.HBM_CFG_SCRUB_H, 0, 0)]).fld .HBM_CFG_SCRUB_H 0 = 0 ∧
    (up.answers .pf .HBM_REPAIR ∧ up.flag .HBM_REPAIR_BUSY 0 = false ∧ up.flag .MGT_PRESENCE_OPEN 0 = false) ∧
    (let s := upWith [(.MGT_PRESENCE_OPEN, 0, 1)]; s.answers .pf .HBM_REPAIR ∧ s.answers .pf .HBM_RETIRE_CLR ∧
      s.flag .MGT_PRESENCE_OPEN 0 = true) ∧
    (up.memCtl.autoSoft = [] ∧ ({ up with memCtl := { up.memCtl with autoSoft := [7] } } : State).memCtl.autoSoft = 7 :: []) ∧
    (let s : State := { upWith [(.HBM_REPAIR_BUSY, 0, 1)] with repairHard := true }
     s.flag .HBM_REPAIR_BUSY 0 = true ∧ s.repairNamed = true ∧ s.repairHard = true) ∧
    (up.answers .pf .HBM_RETIRE ∧ up.retired.length < 512 ∧ 294911 ∉ up.retired) ∧
    (up.answers .pf .HBM_RETIRE_CLR ∧ up.answers .pf .HBM_MIR_REGION ∧ up.flag .HBM_MIR_REGION_ENABLE 0 = false) := by
  decide +kernel

/-! ### Witnesses: links -/

/-- A part whose axis X has 4 modules, it being 0, with port 0 in a state. -/
def ported (st : Nat) (l : List (Fld × Nat × Nat) := []) (x : Port := Port.reset) : State :=
  { upWith ([(.FAB_AXIS_LEN_M1, 0, 3), (.LNK_STATUS_STATE, 0, st)] ++ l) with ports := [(0, x)] }

/-- A good marker of logical channel 3. -/
def marker : Word := BitVec.ofNat 64 (markerWord 3 32 1 0)

theorem witness_ChannelsAreReplaced :
    (∀ st ∈ [1, 4, 5], (ported st).linksRun = true ∧ (ported st).portState 0 = st) ∧ markerValid marker.toNat = true ∧
    markerValid 0 = false ∧ bitsOf marker.toNat 31 26 < 32 ∧
    (let w := markerWord 63 32 1 0; markerValid w = true ∧ 32 ≤ bitsOf w 31 26) ∧
    (let x : Port := { Port.reset with lockCnt := [(43, 4), (44, 4)], lost := [(44, 1)] }
     4 ≤ Tbl.get 0 x.lockCnt 44 ∧ Tbl.get 0 x.lost 44 ≠ 0 ∧ 4 ≤ Tbl.get 0 x.lockCnt 43 ∧ Tbl.get 0 x.lost 43 = 0) ∧
    Tbl.get 0 Port.reset.lockCnt 44 < 4 ∧
    (bitAt ((ported 3).failedCh 0 true) 44 = false ∧ bitAt ((ported 5 [(.LNK_CHFUSE_RX_FUSED, 0, 2 ^ 44)]).failedCh 0 true) 44 = true) ∧
    (∃ e : Fin 45, 4 ≤ Tbl.get 0 ({ Port.reset with lockCnt := [(44, 4)] } : Port).lockCnt e) ∧
    (∀ e : Fin 45, Tbl.get 0 Port.reset.lockCnt e < 4) ∧
    (ported 5 [(.LNK_GUEST_ADMITTED, 0, 1)]).flag .LNK_GUEST_ADMITTED 0 = true ∧
    ((remap 0 (List.range 32) [(0, 0)]).2 = [] ∧ (remap 1 (List.range 32) [(0, 0)]).2 ≠ []) ∧
    (spareFor [(0, 4)] 0 0 = some 40 ∧ spareFor [] (2 ^ 40) 0 = some 4) ∧
    (((ported 5).port 0).map.length < (ported 5).minCh 0 ∧
      (let s := ported 4 [(.LNK_STATUS_NACT_RX, 0, 32), (.LNK_CFG_MIN_CH, 0, 1)] { Port.reset with mapTx := [(0, 0)] }
       s.minCh 0 ≤ (s.port 0).map.length ∧ s.minCh 0 ≤ s.fld .LNK_STATUS_NACT_RX 0)) ∧
    (bitAt Port.reset.modLost.toNat 3 = false ∧ bitAt ({ Port.reset with modLost := 8 } : Port).modLost.toNat 3 = true) ∧
    (up.answers .pf .LNK_CHFUSE_RX ∧ up.answers .pf .LNK_CHFUSE_TX ∧ up.flag .MGT_PRESENCE_OPEN 0 = false) ∧
    (let s := upWith [(.MGT_PRESENCE_OPEN, 0, 1)]; s.answers .pf .LNK_CHFUSE_RX ∧ s.flag .MGT_PRESENCE_OPEN 0 = true) := by
  decide +kernel

/-- An LCF of a type from node 1, port 1, boot 0, with a byte 1. -/
def lcf (type flags : Nat) : List Byte :=
  [BitVec.ofNat 8 type, BitVec.ofNat 8 flags, 0, 0] ++ [1, 0, 0, 1] ++ List.replicate 244 0
def lcfSealed (type flags : Nat) : List Byte := lcf type flags ++ leBytes 4 (crc32 (lcf type flags))

theorem witness_StreamsAreReplayed_lcf :
    (∀ p ∈ [(1, 0), (2, 0), (1, 2)], let b := lcfSealed p.1 p.2
     lcfGood b = true ∧ lcfField b 0 7 0 = p.1 ∧ lcfField b 1 1 1 = p.2 / 2 ∧ lcfField b 1 3 3 = 0 ∧ lcfField b 1 4 4 = 0 ∧
      (∀ st ∈ [2, 4], (ported st).identityGood 0 (lcfField b 4 23 0) (lcfField b 4 26 24) (lcfField b 8 15 0) = true)) ∧
    (∀ p ∈ [(0x08, 1, 0), (0x10, 0, 1), (0x18, 1, 1)], lcfField (lcfSealed 1 p.1) 1 3 3 = p.2.1 ∧
      lcfField (lcfSealed 1 p.1) 1 4 4 = p.2.2) ∧
    (ported 4).identityGood 0 2 0 0 = false ∧ lcfGood [] = false ∧
    (let u := (ported 5 [(.LNK_CFG_MIN_CH, 0, 1)]).peerFails 0 0; 4 ≤ u.portState 0 ∧ u.portState 0 ≤ 5) := by decide +kernel

/-- A slot with a number, resent so often. -/
def sent (seq tries : Nat) : Slot := ⟨seq, [], tries⟩

theorem witness_StreamsAreReplayed :
    ((ported 4).linksRun = true ∧ 4 ≤ (ported 4).portState 0 ∧ (ported 5).portState 0 ≤ 5) ∧
    (let x : Port := { Port.reset with rxD := ⟨2 ^ 48 - 1, true, []⟩, rxC := ⟨7, false, []⟩
                                       txD := ⟨6, [sent 2 0, sent 3 15, sent 4 16, sent 5 0], [5]⟩
                                       pauseUntil := some 40, pauseSince := some 0 }
     let s := ported 5 [(.PWR_MTIME_MTIME, 0, 4 * 10 ^ 9)] x
     ((2 ^ 48 - 1 : BitVec 48).toNat = (s.port 0).rxD.expect ∧ (s.port 0).rxD.nak = true ∧ (s.port 0).rxC.nak = false) ∧
      ((0 : BitVec 48).toNat ≠ (s.port 0).rxC.expect ∧ ((s.port 0).rxC.expect + 2 ^ 48 - 0) % 2 ^ 48 ≤ 2 ^ 47 ∧
        (8 : BitVec 48).toNat ≠ (s.port 0).rxC.expect ∧ 2 ^ 47 < ((s.port 0).rxC.expect + 2 ^ 48 - 8) % 2 ^ 48) ∧
      (((s.port 0).tx false).sent = [sent 2 0] ++ sent 3 15 :: [sent 4 16, sent 5 0] ∧ (sent 3 15).tries < 16 ∧
        3 ∉ ((s.port 0).tx false).resend ∧ 5 ∈ ((s.port 0).tx false).resend ∧ 16 ≤ (sent 4 16).tries ∧
        ∀ e ∈ ((s.port 0).tx false).sent, e.seq ≠ 9) ∧
      ((s.port 0).lastLcf + 10000 ≤ s.now ∧ s.now % 1000 = 0 ∧ (s.port 0).leaving = none) ∧
      ((s.port 0).pauseUntil = some 40 ∧ 40 ≤ s.now ∧ (s.port 0).pauseSince = some 0 ∧ (s.port 0).pauseSaid = false ∧
        0 + 1000 * s.fld .LNK_CFG_PAUSE_MAX_US 0 ≤ s.now)) ∧
    (∀ st ∈ [1, 2, 3, 4], let s := ported st [] { Port.reset with leaving := some 0 }
     s.now % 1000 = 0 ∧ (s.port 0).leaving = some 0 ∧ 0 ≤ s.now ∧ ((ported st).port 0).leaving = none) ∧
    10 * (ported 5).bufferedUnits 0 ≤ 1184256 ∧
    (let s := ported 5 [(.PWR_MTIME_MTIME, 0, 1)] { Port.reset with pauseUntil := some 2, pauseSince := some 0 }
     s.now < (s.port 0).lastLcf + 10000 ∧ s.now % 1000 ≠ 0 ∧ s.now < 2 ∧ s.now < 0 + 1000 * s.fld .LNK_CFG_PAUSE_MAX_US 0) ∧
    (ported 5 [(.LNK_STATUS_PAUSED, 0, 1)]).flag .LNK_STATUS_PAUSED 0 = true ∧ (ported 5).flag .LNK_STATUS_PAUSED 0 = false ∧
    (ported 5).answers .pf .LNK_CFG ∧ ({ Port.reset with pauseSaid := true } : Port).pauseSaid = true := by decide +kernel

/-- A packet of 4,096 payload bytes. -/
def longPkt : Pkt := { pktOf 0 [] with payload := List.replicate 4096 0 }

theorem witness_StreamsAreReplayed_full :
    1184256 < 10 * ({ ported 5 with inbufs := [(bufKey 0 4, List.replicate 920 longPkt)] } : State).bufferedUnits 0 := by
  have h : longPkt.units = 129 := by decide +kernel
  simp [-List.reduceReplicate, State.bufferedUnits, h, Tbl.get, bufKey, List.range_succ]

theorem witness_LongPausesAreReportedOnce :
    let s := ported 5 [(.PWR_MTIME_MTIME, 0, 4 * 10 ^ 9)] { Port.reset with pauseUntil := some (5 * 10 ^ 9), pauseSince := some 0 }
    s.linksRun = true ∧ (s.port 0).pauseSince = some 0 ∧ 0 + 1000 * s.fld .LNK_CFG_PAUSE_MAX_US 0 ≤ s.now ∧
      next? (.pauseLimit 0) s = true := by decide +kernel

/-- A guest that answers on its sideband, and one that does not. -/
def guest (sideband : Bool) : GuestInfo := ⟨sideband, 1, 2, 3, true, 15, 1, true⟩

/-- Both ports of axis X with a guest and enabled, or port 1 not. -/
def axisX (en adm : Nat) : State :=
  ported 0 [(.LNK_CFG_ENABLE, 0, 1), (.LNK_CFG_ENABLE, 1, en), (.LNK_GUEST_ADMITTED, 0, 1), (.LNK_GUEST_ADMITTED, 1, adm)]

theorem witness_PortsComeUpAndGoDown :
    (let s := ported 0 [(.LNK_CFG_ENABLE, 0, 1), (.LNK_GUEST_ADMITTED, 0, 1)]
     s.linksRun = true ∧ s.portState 0 = 0 ∧ s.flag .LNK_CFG_ENABLE 0 = true ∧ s.flag .LNK_GUEST_ADMITTED 0 = true) ∧
    ((ported 0 [(.LNK_CFG_ENABLE, 0, 0)]).flag .LNK_CFG_ENABLE 0 = false ∧ (ported 0 [(.LNK_CFG_ENABLE, 0, 0)]).portState 0 = 0) ∧
    ((ported 1 [(.LNK_CFG_MIN_CH, 0, 32)]).minCh 0 ≤ popCount (2 ^ 32 - 1) ∧
      popCount (2 ^ 31 - 1) < (ported 1 [(.LNK_CFG_MIN_CH, 0, 32)]).minCh 0) ∧
    ((1#45) ≠ 0 ∧ (ported 2).portState 0 = 2 ∧ (ported 3).portState 0 = 3 ∧
      ∀ c : Fin 45, (1#45).getLsbD c = true → 4 ≤ Tbl.get 0 ({ Port.reset with lockCnt := [(0, 4)] } : Port).lockCnt c) ∧
    (let s := ported 3 [(.LNK_CFG_MIN_CH, 0, 1)] { Port.reset with gotMask := true }
     s.minCh 0 ≤ (assignMap (s.failedCh 0 false) (s.port 0).modLost (s.chCap 0)).1.length ∧
      s.minCh 0 ≤ (assignMap (s.failedCh 0 true) (s.port 0).modLost (s.chCap 0)).1.length ∧ (s.port 0).gotMask = true ∧
      ((ported 3).port 0).gotMask = false) ∧
    ((ported 4 [] { Port.reset with identOk := 3 }).portState 0 = 4 ∧ ((ported 4).port 0).identOk < 3 ∧
      5 ≤ (ported 5).portState 0) ∧
    up.guestStep (guest false) = some 1 ∧ (guest true).modules = 15#4 ∧
    (upWith [(.SEC_STATUS_ALLOW_LOADED, 0, 1), (.SEC_ALLOW_VALID, 31, 1), (.SEC_ALLOW_VENDOR, 31, 1), (.SEC_ALLOW_DEVICE, 31, 2),
      (.SEC_ALLOW_MIN_FW, 31, 3)]).guestStep (guest true) = none ∧
    (let s := ported 7 [(.LNK_CFG_AUTO_RETRAIN, 0, 1), (.PWR_MTIME_MTIME, 0, 1000000)] { Port.reset with failedAt := some 0 }
     (s.port 0).failedAt = some 0 ∧ s.portState 0 = 7 ∧ s.flag .LNK_CFG_AUTO_RETRAIN 0 = true ∧ 0 + 1000000 ≤ s.now) ∧
    ((ported 4).answers .pf .LNK_CFG ∧ ((ported 4).port 0).leaving = none ∧ (ported 3).portState 0 < 4) ∧
    (ported 4).flag .LNK_GUEST_ADMITTED 0 = false ∧
    ((∀ q < 8, q / 2 = 0 → ((axisX 1 1).flag .LNK_CFG_ENABLE q = true ∨ ((axisX 1 1).port q).leaving.isSome = true) ∧
        (axisX 1 1).flag .LNK_GUEST_ADMITTED q = true) ∧
      ((axisX 0 1).flag .LNK_CFG_ENABLE 1 = false ∧ ((axisX 0 1).port 1).leaving = none) ∧
      (∀ q < 8, q / 2 = 0 → (axisX 1 0).flag .LNK_CFG_ENABLE q = true) ∧ (axisX 1 0).flag .LNK_GUEST_ADMITTED 1 = false) ∧
    ((ported 1).fld .FAB_AXIS_LEN_M1 (0 / 2) ≠ 0 ∧ (ported 1).flag .FAB_AXIS_LINE (0 / 2) = false) ∧
    ((ported 5).axisUsed 0 = true ∧ (ported 5).portOpen 0 = true ∧ (ported 5).portOpen 1 = false ∧ (ported 5).axisUsed 1 = false) ∧
    6 ≤ (ported 7).portState 0 := by decide +kernel

/-! ### Witnesses: packets and flows -/

/-- Port 0 is ACTIVE on an axis X of 4, this module being coordinate 0, with 4 GiB pools unless fields say otherwise. -/
def fabric (l : List (Fld × Nat × Nat) := []) : State := ported 5 l

/-- A header of a type with its HCRC: virtual channel v, destination node d, partition q, SEQ, DFLOW f, LEN n. -/
def header (type v d q seq f n : Nat) : Nat :=
  let h := type * 2 ^ 28 + v * 2 ^ 24 + d + q * 2 ^ 56 + seq * 2 ^ 64 + f * 2 ^ 96 + n * 2 ^ 160
  h + headerCrc h * 2 ^ 184

/-- The packet of a header. -/
def pkt (type v d seq f : Nat) : Pkt := pktOf (header type v d 0 seq f 0) []

/-- Port 0 has received these units in the control stream or in the data stream. -/
def holding (control : Bool) (u : List (BitVec 256)) (l : List (Fld × Nat × Nat) := []) : State :=
  ported 5 l (if control then { Port.reset with rxC := ⟨1, false, u⟩ } else { Port.reset with rxD := ⟨1, false, u⟩ })

/-- A header of a type on channel v to node d, with no payload. -/
def head (type v d : Nat) : BitVec 256 := BitVec.ofNat 256 (header type v d 0 0 5 0)

theorem witness_PacketsArrive :
    up.portOpen 0 = false ∧ (fabric []).portOpen 0 = true ∧ ((fabric []).port 0).holds [head 0 3 0] = none ∧
    (∀ ctl ∈ [true, false], ∀ x ∈ [header 0 3 0 0 0 0 0 + 2 ^ 184, header 0 5 0 0 0 0 0, header 8 0 0 0 0 0 0, header 0 3 0 1 0 0 0,
        header 0 3 1 0 0 0 0],
      ((holding ctl [BitVec.ofNat 256 x]).port 0).holds [BitVec.ofNat 256 x] = some ctl ∧
        (unitsOf ([] : List Byte)).length = payloadUnits (cutPkt x [])) ∧
    (headerBad (header 0 3 0 0 0 0 0 + 2 ^ 184) = true ∧ (cutPkt (header 0 3 0 0 0 0 0 + 2 ^ 184) []).vc ≤ 4) ∧
    (headerBad (header 0 5 0 0 0 0 0) = true ∧ 4 < (cutPkt (header 0 5 0 0 0 0 0) []).vc) ∧
    (∀ t ∈ [0, 1, 2, 3, 4, 5, 6, 7, 8], headerBad (header t 3 0 0 0 0 0) = false ∧ (cutPkt (header t 3 0 0 0 0 0) []).type = t ∧
      (cutPkt (header t 3 0 0 0 0 0) []).part.toNat = (fabric []).fld .FAB_NODE_PART 0 ∧
      (cutPkt (header t 3 0 0 0 0 0) []).dst.toNat = (fabric []).selfNode) ∧
    (cutPkt (header 0 3 0 1 0 0 0) []).part.toNat ≠ (fabric []).fld .FAB_NODE_PART 0 ∧
    headerBad (header 0 3 0 1 0 0 0) = false ∧
    headerBad (header 0 3 1 0 0 0 0) = false ∧ (cutPkt (header 0 3 1 0 0 0 0) []).dst.toNat ≠ (fabric []).selfNode := by
  decide +kernel

/-- What port 0 holds stands at the front of its stream. -/
theorem holding_holds (ctl : Bool) (h : BitVec 256) (u : List (BitVec 256)) (l : List (Fld × Nat × Nat)) :
    ((holding ctl (h :: u) l).port 0).holds (h :: u) = some ctl := by
  cases ctl <;> simp [holding, ported, State.port, Port.holds, Port.reset, Tbl.get]

/-- A packet of a type that arrives by port 0 with its payload. -/
theorem arrives (l : List (Fld × Nat × Nat)) (type : Nat) (ctl : Bool) (h : BitVec 256) (pl : List Byte)
    (hd : (headerBad h.toNat || (pktOf h.toNat []).type != type ||
      decide ((pktOf h.toNat []).type = 4)) = false)
    (hu : (unitsOf pl).length = ((pktOf h.toNat []).len.toNat + 31) / 32)
    (hs : (holding ctl (h :: unitsOf pl) l).portOpen 0 = true ∧
      (pktOf h.toNat []).part.toNat = (holding ctl (h :: unitsOf pl) l).fld .FAB_NODE_PART 0) :
    (holding ctl (h :: unitsOf pl) l).comes 0 type h pl ctl (cutPkt h.toNat pl) := by
  simp only [Bool.or_eq_false_iff, bne_eq_false_iff_eq, decide_eq_false_iff_not] at hd
  have ht : (pktOf h.toNat pl).type ≠ 4 := hd.2
  have hc : cutPkt h.toNat pl = { pktOf h.toNat pl with payload := pl.take (pktOf h.toNat pl).len.toNat } := by
    simp [cutPkt, ht]
  refine ⟨hs.1, hd.1.1, rfl, by rw [hc]; exact hd.1.2, ?_, holding_holds .., by rw [hc]; exact hs.2⟩
  rw [hc]
  exact hu.trans (if_neg ht).symm

/-- A BARRIER header of 32 payload bytes, and a token of slot 15 that port 0 holds, the slot enabled or not. -/
def tokenHead : BitVec 256 := BitVec.ofNat 256 (header 9 0 0 0 0 0 32)
def tokened (rel : Bool) (round t : Nat) (ctl : Bool) (en : Nat) : State :=
  holding ctl (tokenHead :: unitsOf (tokenBytes rel 15 round t 0)) [(.GLM_BAR_CFG0_ENABLE, 15, en)]

/-- Tokens of the round that the slot is in (1) and of another (2), a slot enabled or not: the state they leave to be judged. -/
theorem witness_BarriersArriveAndRelease_judged : ∀ rel ctl : Bool, ∀ round ∈ [1, 2], ∀ en ∈ [0, 1], ∀ t ∈ [0, 10],
    let pl := tokenBytes rel 15 round t 0
    let s1 := ((tokened rel round t ctl en).taken 0 tokenHead pl ctl (cutPkt tokenHead.toNat pl)).freePkt 0
      (cutPkt tokenHead.toNat pl)
    s1.flag .GLM_BAR_CFG0_ENABLE 15 = decide (en = 1) ∧ (s1.fld .GLM_BAR_STATUS_ROUND 15 + 1) % 2 ^ 32 = 1 ∧ s1.now = 0 := by
  decide +kernel

theorem witness_BarriersArriveAndRelease_tokens : ∀ rel ctl : Bool, ∀ round ∈ [1, 2], ∀ en ∈ [0, 1], ∀ t ∈ [0, 10],
    (tokened rel round t ctl en).comes 0 9 tokenHead (tokenBytes rel 15 round t 0) ctl
      (cutPkt tokenHead.toNat (tokenBytes rel 15 round t 0)) := by
  intro rel ctl round hr en he t ht
  refine arrives _ 9 ctl tokenHead _ (by decide +kernel) ?_ ?_
  · rw [show ((pktOf tokenHead.toNat []).len.toNat + 31) / 32 = 1 by decide +kernel]
    simp [unitsOf, tokenBytes, leBytes]
  · revert rel ctl round en t
    decide +kernel

theorem witness_BarriersArriveAndRelease_hops : (fabric []).canSend 0 0 1 = true ∧ ((fabric []).port 0).hopQ = [] ∧
    ({ fabric [] with ports := [(0, { Port.reset with credit := [(8, 2 ^ 32 - 1)] })] } : State).canSend 0 0 1 = false := by
  decide +kernel

/-- Receive flow f open for context 0, expecting e. -/
def receiving (f e : Nat) (l : List (Fld × Nat × Nat) := []) : State :=
  { fabric l with recvFlows := [(f, { RecvFlow.reset with opened := true, expected := e, win := 4096 })] }

theorem witness_PacketsArrive_flows :
    ((fabric []).recvFlow 16383).opened = false ∧
    ((receiving 5 0 [(.CTX_CFG_EPOCH, 0, 1)]).recvFlow 5).opened = true ∧
    (pkt 0 3 0 0 5).epoch.toNat ≠ (receiving 5 0 [(.CTX_CFG_EPOCH, 0, 1)]).fld .CTX_CFG_EPOCH 0 ∧
    (pkt 0 3 0 0 5).epoch.toNat = (receiving 5 0).fld .CTX_CFG_EPOCH 0 ∧
    2 ^ 31 ≤ ((pkt 0 3 0 0 5).seq.toNat + 2 ^ 32 - ((receiving 5 1).recvFlow 5).expected) % 2 ^ 32 ∧
    ((pkt 0 3 0 7 5).seq.toNat = ((receiving 5 7).recvFlow 5).expected ∧ ((receiving 5 7).recvFlow 5).parked = [] ∧
      (receiving 5 7).mirrorBlock (pkt 0 3 0 7 5) = none) ∧
    (((pkt 0 3 0 (2 ^ 31 - 1) 5).seq.toNat + 2 ^ 32 - ((receiving 5 0).recvFlow 5).expected) % 2 ^ 32 = 2 ^ 31 - 1 ∧
      ((receiving 5 0).recvFlow 5).parked.any (fun e => e.1 == 2 ^ 31 - 1) = false ∧
      (((receiving 5 0).recvFlow 5).parked.map (fun e => 32 * e.2.units)).sum + 32 * (pkt 0 3 0 (2 ^ 31 - 1) 5).units ≤
        ((receiving 5 0).recvFlow 5).win) ∧
    (let s : State := { fabric [] with recvFlows := [(5, { RecvFlow.reset with opened := true })] }
     (s.recvFlow 5).win < ((s.recvFlow 5).parked.map (fun e => 32 * e.2.units)).sum + 32 * (pkt 0 3 0 1 5).units) ∧
    (let s : State := { fabric [] with sendFlows := [(5, { SendFlow.reset with opened := true })] }
     (pkt 7 0 0 0 5).type = 7 ∧ (s.sendFlow 5).opened = true ∧ (s.sendFlow 5).failed = false ∧ (pkt 5 0 0 0 5).type = 5) := by
  decide +kernel

/-- Send flow 5 open to node 1 with a packet queued. -/
def sending (win skip : Nat) (l : List (Fld × Nat × Nat) := []) (replay : Bool := false) : State :=
  { fabric l with sendFlows := [(5, { SendFlow.reset with
      opened := true, node := 1, win := win, skip := skip,
      queue := if replay then [] else [pkt 0 3 1 0 0], replayQ := if replay then [pkt 0 3 1 0 0] else [] })] }

theorem witness_PacketsAreRouted_inject :
    (fabric []).mayInject 5 = false ∧
    (∀ s ∈ [sending 4096 0, sending 4096 1, sending 0 0, sending 4096 0 [] true], s.mayInject 5 = true ∧ (s.nextPkt 5).isSome = true) ∧
    0 < ((sending 4096 1).sendFlow 5).skip ∧
    (let p := (sending 4096 0).addressed 5 (pkt 0 3 1 0 0)
     ((sending 0 0).sendFlow 5).win < ((sending 0 0).sendFlow 5).open' + 32 * p.units ∧
      ((sending 4096 0).sendFlow 5).open' + 32 * p.units ≤ ((sending 4096 0).sendFlow 5).win ∧
      p.dst.toNat ≠ (sending 4096 0).selfNode ∧ (sending 4096 0).absentAxis p = none ∧
      ((sending 4096 0).exitOf 8 p).isSome = true ∧
      (sending 4096 0 [(.FAB_ABSENT_ABSENT, 0, 2)]).absentAxis p = some 0 ∧
      (sending 4096 0 [(.FAB_ABSENT_ABSENT, 0, 2)]).aliasOf 1 = none ∧
      (let u := { sending 4096 0 with ports := [(0, { Port.reset with credit := [(8 + 4, 2 ^ 32 - 1)] })] }
       u.exitOf 8 p = none) ∧
      (sending 4096 0).outranked 0 9 4 p = false ∧
      ({ sending 4096 0 with inbufs := [(bufKey 1 4, [pkt 0 3 1 0 0])] } : State).outranked 0 9 4 p = true) := by decide +kernel

/-- Buffer b of port 1 holds this packet. -/
def buffered (b : Nat) (p : Pkt) (l : List (Fld × Nat × Nat) := []) : State :=
  { fabric l with inbufs := [(bufKey 1 b, [p])] }

theorem witness_PacketsAreRouted_forward :
    (let s := buffered 4 (pkt 0 3 0 0 0); s.linksRun = true ∧ (s.inbuf (bufKey 1 4)).head? = some (pkt 0 3 0 0 0) ∧
      (pkt 0 3 0 0 0).dst.toNat = s.selfNode) ∧
    (let p := pkt 0 3 1 0 0; let s := buffered 4 p
     p.dst.toNat ≠ s.selfNode ∧ s.absentAxis p = none ∧ s.stranded p = false ∧ (s.exitOf 1 p).isSome = true ∧
      s.outranked 0 1 4 p = false ∧
      0 + (buffered 4 { p with able := some 0 } [(.PWR_MTIME_MTIME, 0, 10 ^ 9)]).fld .FAB_CTRL_AGE_NS 0 ≤
        (buffered 4 { p with able := some 0 } [(.PWR_MTIME_MTIME, 0, 10 ^ 9)]).now ∧
      s.now < 0 + s.fld .FAB_CTRL_AGE_NS 0 ∧
      (buffered 4 p [(.FAB_ABSENT_ABSENT, 0, 2)]).absentAxis p = some 0 ∧
      (let u := { buffered 4 p with ports := [(0, { Port.reset with credit := [(8 + 4, 2 ^ 32 - 1)] })] }
       u.stranded p = false ∧ u.exitOf 1 p = none) ∧
      (let q := { p with head := 1 }; (upWith [(.FAB_AXIS_LEN_M1, 0, 3)]).stranded q = true)) ∧
    (let p := { pkt 0 3 1 0 0 with stuck := some 0 }
     let s := { buffered 4 p [(.PWR_MTIME_MTIME, 0, 10 ^ 9)] with ports := [(0, { Port.reset with credit := [(8 + 4, 2 ^ 32 - 1)] })] }
     1 ≤ p.vc ∧ p.vc ≤ 3 ∧ p.stuck = some 0 ∧ 0 + s.fld .FAB_CTRL_ESC_WAIT_NS 0 ≤ s.now ∧ s.orderedPort p = some 0 ∧
      (∀ o ∈ s.productive p, s.canSend o (bufIndex p.vc false) p.units = false) ∧ s.canSend 0 5 p.units = true ∧
      (buffered 4 p).now < 0 + s.fld .FAB_CTRL_ESC_WAIT_NS 0 ∧
      (∃ o ∈ (buffered 4 p).productive p, (buffered 4 p).canSend o (bufIndex p.vc false) p.units = true)) ∧
    ((pkt 0 3 1 0 0).able = none ∧ (pkt 0 3 1 0 0).stuck = none ∧ (fabric []).adaptivePort (pkt 0 3 1 0 0) = some 0) ∧
    ((fabric []).inbuf (bufKey 8 6)).head? = none ∧ 0 ∈ (fabric []).productive (pkt 0 3 1 0 0) ∧
    (let p := pkt 0 3 1 0 0
     (buffered 4 p).outranked 0 1 4 p = false ∧ ({ buffered 4 p with inbufs := [(bufKey 1 4, [p]), (bufKey 1 3, [p])] } : State).outranked
       0 1 4 p = true) := by decide +kernel

theorem witness_FlowsAreKept :
    (let s : State := { fabric [] with recvFlows := [(5, { RecvFlow.reset with
        opened := true, held := [pkt 4 3 0 0 5], win := 4096, sinceAck := 1024 })] }
     (pkt 4 3 0 0 5).epoch.toNat = s.fld .CTX_CFG_EPOCH 0 ∧
      (pkt 4 3 0 0 5).epoch.toNat ≠ (fabric [(.CTX_CFG_EPOCH, 0, 1)]).fld .CTX_CFG_EPOCH 0 ∧ (s.drainFlow 0 5 ((s.recvFlow 5).parked.length + 1)) = s ∧ (s.recvFlow 5).held = pkt 4 3 0 0 5 :: [] ∧ s.linksRun = true ∧
      (s.recvFlow 5).parked = [] ∧ (s.recvFlow 5).win ≤ 4 * (s.recvFlow 5).sinceAck) ∧
    (4 * ((receiving 5 0).recvFlow 5).sinceAck < ((receiving 5 0).recvFlow 5).win ∧ ((receiving 5 0).recvFlow 5).sinceAck = 0 ∧
      ((receiving 5 0).recvFlow 5).held = []) ∧
    (let s : State := { fabric [(.PWR_MTIME_MTIME, 0, 10 ^ 9)] with recvFlows := [(5, { RecvFlow.reset with opened := true, gapAt := some 0 })] }
     (s.recvFlow 5).gapAt = some 0 ∧ 0 + 1000 * s.fld .FAB_TIMER_GAP_US 0 ≤ s.now) ∧
    (fabric []).now < 0 + 1000 * (fabric []).fld .FAB_TIMER_GAP_US 0 ∧ ((receiving 5 0).recvFlow 5).gapAt = none ∧
    (let s : State := { fabric [(.PWR_MTIME_MTIME, 0, 10 ^ 9)] with sendFlows := [(5, { SendFlow.reset with
        opened := true, retain := [(0, pkt 0 3 1 0 0)], resends := [(0, 2)] })] }
     (s.sendFlow 5).retain = (0, pkt 0 3 1 0 0) :: [] ∧ (s.sendFlow 5).failed = false ∧
      (s.sendFlow 5).lastAck + 1000 * s.fld .FAB_TIMER_RTO_US 0 ≤ s.now ∧
      Tbl.get 0 (s.sendFlow 5).resends 0 < s.fld .FAB_TIMER_RETRY_MAX 0) ∧
    (upWith [(.FAB_TIMER_RETRY_MAX, 0, 2)]).fld .FAB_TIMER_RETRY_MAX 0 ≤ 2 ∧ ((fabric []).sendFlow 5).retain = [] ∧
    (let x : SendFlow := { SendFlow.reset with opened := true, retain := [(7, pkt 0 3 1 7 0)] }
     x.failed = false ∧ x.retain = [(7, pkt 0 3 1 7 0)] ∧ (fabric []).now < x.lastAck + 1000 * (fabric []).fld .FAB_TIMER_RTO_US 0) ∧
    (up.answers .pf .FAB_FLOW_SEL ∧ up.openBad false 16383 = false ∧ up.openBad true 0 = false ∧
      (sending 0 0).openBad false 5 = true ∧ (receiving 5 0).openBad true 5 = true) := by decide +kernel

/-! ### Witnesses: collective groups, modes, samples, spares and mirrors -/

/-- Group 255 of two ranks that this module hosts, of OP op with 4 chunks and entries of 64 bytes. -/
def grouped (op arm : Nat) (l : List (Fld × Nat × Nat) := []) : State :=
  fabric ([(.COL_GRP_CFG0_NRANK_M1, 255, 1), (.COL_GRP_CFG0_OP, 255, op), (.COL_GRP_CFG0_ARM, 255, arm),
    (.COL_GRP_CFG1_CHUNKS, 255, 4), (.COL_GRP_DISP_ROW32, 255, 1), (.COL_GRP_DISP_CAP, 255, 1),
    (.COL_GRP_CFG1_FLOW_P, 255, 5), (.COL_GRP_CFG1_FLOW_M, 255, 6)] ++ l)

/-- Tiller 0's egress queue 24, of group 255 in a mode, with items. -/
def pushing (op mode : Nat) (items : List EItem) (l : List (Fld × Nat × Nat) := []) : State :=
  (grouped op 1 l).setTil 0 { bound Tiller.reset with
    desc := [(24, BitVec.ofNat 64 (mode * 2 ^ 60 + 255 * 2 ^ 52))], egress := [(24, items)] }

theorem witness_GroupsReduce_arm :
    ((grouped 0 0).answers .pf .COL_GRP_CFG0 ∧ (grouped 0 0).armed 255 = false ∧ (grouped 0 0).armBad 255 = false ∧
      (grouped 0 0).flag .COL_GRP_PROXY_EN 255 = false) ∧
    (let s := grouped 0 0 [(.COL_GRP_PROXY_EN, 255, 1)]; s.armBad 255 = false ∧ s.flag .COL_GRP_PROXY_EN 255 = true) ∧
    (up.armBad 0 = true ∧ up.armed 0 = false ∧ up.ranks 0 < 2) ∧ (grouped 0 1).armed 255 = true ∧
    (grouped 0 1).groupExact 255 = false := by decide +kernel

/-- Tiller 0's END has been reached and its queue 24 holds a rest. -/
def resting (op mode : Nat) (items : List EItem) : State :=
  let s := pushing op mode items [(.TIL_PROG_STATUS_STATE, 0, 4), (.TIL_PROG_IMAGE_NINST, 0, 1)]
  { s with mem := [(0x10000000000F, 1)] }

theorem witness_GroupsReduce_chunks :
    let s := pushing 0 1 (List.replicate 4096 (.byte ⟨0, false⟩))
    s.colGroup 0 24 1 = some 255 ∧ 4096 ≤ (itemBytes (s.colItems 0 24)).length ∧ (s.group 255).contrib.length < 64 ∧
    (descEbase (s.desc 0 24) + Tbl.get 0 (s.til 0).taken 24) / 1024 < s.fld .COL_GRP_CFG1_CHUNKS 255 ∧
    (pushing 0 1 [] [(.COL_GRP_CFG1_CHUNKS, 255, 0)]).fld .COL_GRP_CFG1_CHUNKS 255 ≤ 0 ∧
    (s.takeBytes 0 24 4096).pushRank 255 0 = some 0 ∧
    (s.group 255).start + Tbl.get 0 (s.group 255).pushes 0 ≤ s.round 255 ∧ up.colGroup 0 31 1 = none ∧
    (let s : State := { s with groups := [(255, { Group.reset with contrib := List.replicate 64 ⟨0, 0, 0, 0, []⟩ })] }
     64 ≤ (s.group 255).contrib.length) ∧
    (let s : State := { s with groups := [(255, { Group.reset with pushes := [(0, 1)] })] }
     s.round 255 < (s.group 255).start + Tbl.get 0 (s.group 255).pushes 0) ∧
    (let s := resting 0 1 [.byte ⟨0, false⟩]
     s.colGroup 0 24 1 = some 255 ∧ (itemBytes (s.colItems 0 24)).length = 1 ∧ s.endWaits 0 = true ∧
      (pushing 0 1 [.byte ⟨0, false⟩]).endWaits 0 = false) := by decide +kernel

/-- The collective packets that arrive for this module, and for another. -/
theorem witness_GroupsReduce_arrive : ∀ type ∈ [10, 11, 12, 13], ∀ d ∈ [0, 1], ∀ ctl : Bool,
    (holding ctl (head type 3 d :: unitsOf []) []).comes 0 type (head type 3 d) [] ctl (cutPkt (head type 3 d).toNat []) := by
  intro type ht d hd ctl
  refine arrives [] type ctl (head type 3 d) [] ?_ ?_ ?_ <;> (revert type d ctl; decide +kernel)

theorem witness_GroupsReduce_packets :
    (∀ t ∈ [10, 11, 12, 13], (cutPkt (head t 3 0).toNat []).dst.toNat = (fabric []).selfNode ∧
      (cutPkt (head t 3 1).toNat []).dst.toNat ≠ (fabric []).selfNode) ∧
    (fabric []).groupOfPkt (pkt 10 3 0 0 5) = none ∧
    (∀ t ∈ [10, 11, 12], (grouped 0 1).groupOfPkt (pkt t 3 0 0 5) = some 255) ∧
    (pkt 10 3 0 0 5).colRank ∈ (grouped 0 1).hosted 255 ∧ (grouped 0 1).aheadOf 255 (pkt 10 3 0 0 5) = false ∧
    (grouped 0 1).aheadOf 255 { pkt 10 3 0 0 5 with addr := 2 ^ 32 } = true ∧
    (pkt 10 3 0 0 5).colRank ∉ (grouped 0 1 [(.COL_MEMBER_NODE_ID, 255 * 64, 3)]).hosted 255 ∧
    (let x := { Group.reset with later := [pkt 10 3 0 0 5, { pkt 10 3 0 0 5 with addr := 2 ^ 32 }] }
     let s : State := { grouped 0 1 with groups := [(255, x)] }
     (∃ p ∈ (s.group 255).later, s.aheadOf 255 p = false) ∧
      ∀ p ∈ ({ grouped 0 1 with groups := [(255, { x with later := [{ pkt 10 3 0 0 5 with addr := 2 ^ 32 }] })] } : State).group 255
        |>.later, s.aheadOf 255 p = true) ∧
    (((grouped 0 1).group 255).plan ≠ (grouped 0 1).round 255 + 1 ∧
      ((({ grouped 0 1 with groups := [(255, { Group.reset with plan := 1 })] } : State).group 255).plan =
        (grouped 0 1).round 255 + 1) ∧
      (grouped 0 1 [(.FAB_AXIS_LINE, 0, 1)]).flag .FAB_AXIS_LINE ((grouped 0 1).fld .COL_GRP_CFG0_AXIS 255) = true ∧
      (grouped 0 1).flag .FAB_AXIS_LINE ((grouped 0 1).fld .COL_GRP_CFG0_AXIS 255) = false ∧
      (grouped 0 1).flag .COL_GRP_STATUS_LINE_PLAN 255 = false) ∧
    ((grouped 0 1).armed 255 = true ∧ (grouped 0 1).groupOp 255 ≠ 3 ∧ (grouped 0 1).roundDone 255 = false ∧
      (grouped 3 1).groupOp 255 = 3 ∧ (grouped 3 1).nextWork 255 = none ∧
      (grouped 0 1 [(.COL_GRP_CFG1_CHUNKS, 255, 0)]).roundDone 255 = true) := by decide +kernel

theorem witness_DispatchRoutesRows :
    (grouped 3 1).groupOfPkt (pkt 13 3 0 0 5) = some 255 ∧ up.colGroup 0 24 2 = none ∧
    (let s := pushing 3 2 (List.replicate 64 (.byte ⟨0, false⟩))
     s.colGroup 0 24 2 = some 255 ∧ s.entryBytes 255 ≤ (itemBytes (s.colItems 0 24)).length ∧
      s.recordBad 255 ((vals (itemBytes (s.colItems 0 24))).take 32) = false ∧ s.rowOver 255 0 0 0 = false ∧
      s.rowOver 255 0 0 (2 ^ 63 + 128) = true ∧ s.recordBad 255 (leBytes 32 (2 * 2 ^ 50)) = true) ∧
    (let s : State := { pushing 3 2 [] with groups := [(255, { Group.reset with laneQ := [(0, 25)], laneSaid := [(0, true)] })] }
     Tbl.get 25 (s.group 255).laneQ 0 = 25 ∧ Tbl.get 26 (s.group 255).laneQ 0 ≠ 26 ∧ Tbl.get false (s.group 255).laneSaid 0 = true) ∧
    Tbl.get false Group.reset.laneSaid 0 = false ∧
    (let s := pushing 3 2 [.byte ⟨0, false⟩, .signal 1 7]
     s.colGroup 0 24 2 = some 255 ∧ (itemBytes (s.colItems 0 24)).length = 1 ∧ 1 < s.entryBytes 255 ∧ 1 < (s.colItems 0 24).length) ∧
    (let s := resting 3 2 [.byte ⟨0, false⟩]
     s.colGroup 0 24 2 = some 255 ∧ itemBytes (s.colItems 0 24) ≠ [] ∧ s.endWaits 0 = true ∧
      (pushing 3 2 [.byte ⟨0, false⟩]).endWaits 0 = false) ∧
    (let s := pushing 3 2 [.signal 1 7]
     s.colGroup 0 24 2 = some 255 ∧ s.colItems 0 24 = .signal 1 7 :: []) ∧
    (0 ∈ (grouped 3 1).hosted 255 ∧ 63 ∉ (grouped 3 1).hosted 255) ∧
    (bitAt (2 ^ 63) 63 = true ∧ bitAt 0 63 = false) := by decide +kernel

theorem witness_ModesAndClockChange :
    (let s := upWith [(.FAB_CTRL_INJ_HOLD, 0, 1)]; s.answers .pf .MGT_DET_CTRL ∧ s.modeFree = true) ∧
    (let s := upWith [(.FAB_CTRL_INJ_HOLD, 0, 1), (.PWR_STATUS_START_STEP, 0, 10)]
     s.answers .pf .MGT_DET_CTRL ∧ s.modeFree = true ∧ s.strict = false ∧ 8 ≤ s.fld .PWR_STATUS_START_STEP 0 ∧
      up.fld .PWR_STATUS_START_STEP 0 < 8) ∧
    (up.answers .pf .MGT_DET_CTRL ∧ up.modeFree = false ∧ up.fld .MGT_DET_CTRL_STRICT 0 ≤ 1 ∧ up.fld .MGT_DET_CTRL_PORTABLE 0 ≤ 1) ∧
    (4 ≤ (inState 4).tstate 0 ∧ (upWith [(.TIL_PROG_STATUS_STATE, 767, 6)]).tstate 767 ≤ 6) ∧
    (up.power.freqNext = none ∧ up.power.stretchAt = [] ∧ up.power.stretchOn = none) ∧
    (let s : State := { up with power := { up.power with
        freqNext := some 600, stretchAt := [(0, 3, 1), (5, 0, 2)], stretchOn := some (0, 0) } }
     s.power.freqNext = some 600 ∧ s.ready = true ∧ s.linksRun = true ∧ s.power.stretchAt = (0, 3, 1) :: [(5, 0, 2)] ∧ 0 ≤ s.now ∧
      s.power.stretchOn = some (0, 0) ∧
      s.strict = false ∧ s.fld .PWR_CLK_PLAN_FREQ_NOW_MHZ 0 ≠ 601 ∧ 600 < 2 ^ Fld.width .PWR_CLK_PLAN_FREQ_NOW_MHZ) ∧
    State.reset.ready = false ∧ (upWith [(.MGT_DET_CTRL_STRICT, 0, 1)]).strict = true ∧ up.now < 1 ∧
    (up.flag .MGT_DET_CTRL_PORTABLE 0 = false ∧ (upWith [(.MGT_DET_CTRL_PORTABLE, 0, 1)]).flag .MGT_DET_CTRL_PORTABLE 0 = true) := by
  decide +kernel

/-- Logical Tiller 0 of Sheaf 0 at physical position 64, and another one absent: the two orders of a fold. -/
theorem test_fold_order : (let s : State := { up with phys := [(0, 64)], absent := [(1, true)] }
    (s.foldOrder 0).take 2 = [2, 3] ∧ (s.foldOrder 0).getLast? = some 0 ∧
    ((({ s with regs := (upWith [(.MGT_DET_CTRL_PORTABLE, 0, 1)]).regs } : State).foldOrder 0).take 2 = [0, 2])) := by decide +kernel

theorem witness_SamplesAreWritten :
    (∀ src ∈ [0, 12], let s := upWith [(.OBS_SAMPLE_EN, 0, 1), (.OBS_SAMPLE_SOURCES, 0, 0x1FFF)]
     1 ≤ s.fld .PWR_STATUS_STATE 0 ∧ s.fld .PWR_STATUS_STATE 0 ≤ 3 ∧ s.flag .OBS_SAMPLE_EN 0 = true ∧
      bitAt (s.fld .OBS_SAMPLE_SOURCES 0) src = true ∧
      s.now % max 1000 (min 1000000000 (s.fld .OBS_SAMPLE_PERIOD_NS 0)) = 0) ∧
    (let s := upWith [(.PWR_MTIME_MTIME, 0, 1)]; s.now % max 1000 (min 1000000000 (s.fld .OBS_SAMPLE_PERIOD_NS 0)) ≠ 0) ∧
    up.flag .OBS_SAMPLE_EN 0 = false ∧ up.answers .pf .TIL_OBS_CTRL := by decide +kernel

/-- A connection whose spares carry lanes 0 to n - 1. -/
def spared (d : D2d) (n : Nat) : State :=
  { up with power := { up.power with spareLanes := [(laneKey d, List.range n)] } }

theorem witness_SparesAndFences_full : ∀ d ∈ [D2d.vertical 11 3, .crossing 31, .engine 7 3], (spared d (laneSpares d)).linksRun = true ∧
    laneSpares d ≤ ((spared d (laneSpares d)).laneMap d).length := by
  intro d hd
  simp only [List.mem_cons, List.not_mem_nil, or_false] at hd
  rcases hd with rfl | rfl | rfl <;> exact ⟨by decide +kernel, by simp [spared, State.laneMap, Tbl.get, laneKey]⟩

theorem witness_SparesAndFences :
    (up.linksRun = true ∧ State.reset.linksRun = false ∧
      ((spared (.vertical 11 3) 3).laneMap (.vertical 11 3)).length < laneSpares (.vertical 11 3)) ∧
    (up.answers .pf .SHF_SPARE ∧ up.sheafStates 11 2 6 = false ∧ up.flag .SHF_SPARE_BUSY 11 = false ∧
      up.flag .MGT_PRESENCE_OPEN 0 = false ∧ up.sheafStates 11 2 7 = false) ∧
    (let s := upWith [(.MGT_PRESENCE_OPEN, 0, 1)]; s.answers .pf .SHF_SPARE ∧ s.flag .MGT_PRESENCE_OPEN 0 = true) ∧
    (let s := upWith [(.TIL_PROG_STATUS_STATE, 767, 6)]; s.sheafStates 11 2 6 = true ∧ s.sheafStates 11 2 7 = true) ∧
    (upWith [(.SHF_SPARE_BUSY, 11, 1)]).flag .SHF_SPARE_BUSY 11 = true ∧ up.freeSpare 11 = some 64 ∧
    ({ up with used := [(11 * 68 + 64, true), (11 * 68 + 65, true), (11 * 68 + 66, true), (11 * 68 + 67, true)] } : State).freeSpare
      11 = none ∧
    (upWith [(.MGT_DET_DUMAP_HI_FENCED, 11, 1)]).flag .MGT_DET_DUMAP_HI_FENCED 11 = true := by decide +kernel

/-- A mirror that is on, SYNC_VID being virtual ID 1 at 3, with n syncs answered. -/
def mirrored (n : Nat) (sync : Option Nat) (l : List (Fld × Nat × Nat) := []) : State :=
  { fabric ([(.HBM_MIR_CTRL_ENABLE, 0, 1), (.HBM_MIR_CTRL_SYNC_VID, 0, 1), (.GLM_CTX_CFG_TCOUNT, 0, 16)] ++ l) with
    glumes := [(5, ⟨.owned, 0, 3⟩)], gcaches := [(mirCache, [⟨0, 1, 0x80000005⟩])]
    mirror := { Mirror.reset with lastSync := n, sync := sync } }

theorem witness_MirrorsAndTakeover_mirror :
    ((mirrored 2 none).answers .pf .HBM_MIR_CTRL ∧ (mirrored 2 none).flag .HBM_MIR_CTRL_ENABLE 0 = true ∧
      (mirrored 2 none).ready = true ∧ (mirrored 2 none).mirror.sync = none) ∧
    ((mirrored 2 none).mirror.lastSync < (mirrored 2 none).syncValue.2 ∧ (mirrored 3 none).syncValue.2 ≤ 3) ∧
    up.flag .HBM_MIR_CTRL_ENABLE 0 = false ∧
    (up.writeReg .HBM_MIR_CTRL 0 (2 ^ 64 - 1) (2 ^ 64 - 1)).flag .HBM_MIR_CTRL_ENABLE 0 = true ∧
    (up.writeReg .HBM_MIR_CTRL 0 (2 ^ 64 - 1) 0).flag .HBM_MIR_CTRL_ENABLE 0 = false ∧
    ((mirrored 2 (some 1)).mirror.sync ≠ none ∧
      ((mirrored 2 (some 1)).sendFlow ((mirrored 2 (some 1)).fld .HBM_MIR_CTRL_FLOW 0)).queue = [] ∧
      ((mirrored 2 (some 1)).sendFlow ((mirrored 2 (some 1)).fld .HBM_MIR_CTRL_FLOW 0)).retain = []) ∧
    (let s : State := { fabric [(.HBM_MIR_REGION_ENABLE, 0, 1)] with
      mirror := { Mirror.reset with rx := [(2359295, (0, List.replicate 65536 (0, ⟨0, false⟩)))] } }
     s.flag .HBM_MIR_REGION_ENABLE 0 = true ∧ 65536 ≤ (Tbl.get (0, []) s.mirror.rx 2359295).2.length ∧
      (Tbl.get (0, []) s.mirror.rx 0).2.length < 65536 ∧ s.linksRun = true ∧
      s.accClass (roleAcc .mirror 0 5) (s.fld .HBM_MIR_REGION_BASE_PG 0 * 2 ^ 21 + 2359295 * 65536) ≠ 0x40) ∧
    (let s : State := { fabric [(.HBM_MIR_REGION_ENABLE, 0, 1), (.HBM_MIR_REGION_BASE_PG, 0, 0x48000)] with
      mirror := { Mirror.reset with rx := [(0, (0, List.replicate 65536 (0, ⟨0, false⟩)))] } }
     s.flag .HBM_MIR_REGION_ENABLE 0 = true ∧ 65536 ≤ (Tbl.get (0, []) s.mirror.rx 0).2.length ∧
      s.accClass (roleAcc .mirror 0 5) (s.fld .HBM_MIR_REGION_BASE_PG 0 * 2 ^ 21 + 0 * 65536) = 0x40) := by decide +kernel

theorem witness_MirrorsAndTakeover_takeover :
    (let s := fabric [(.LNK_STATUS_STATE, 5, 5), (.FAB_AXIS_LEN_M1, 2, 3), (.MGT_PEER_NODE, 0, 3 * 2 ^ 12), (.LNK_PEER_BYPASS, 5, 1),
      (.MGT_PEER_RESULT, 0, 2)]
     s.linksRun = true ∧ s.portState 5 = 5 ∧ s.flag .MGT_PEER_BUSY 0 = false ∧ s.fld .MGT_PEER_NODE 0 = s.minusZ ∧
      s.fld .LNK_PEER_BYPASS 5 ≠ 0 ∧ s.fld .MGT_PEER_RESULT 0 ≠ 0) ∧
    up.fld .LNK_PEER_BYPASS 5 = 0 ∧
    (up.answers .pf .FAB_FLOW_TRIM ∧ up.answers .pf .FAB_FLOW_SKIP ∧ up.answers .pf .HBM_LOG_REPLAY) ∧
    (((sending 0 0).sendFlow 5).opened = true ∧ (up.sendFlow 5).opened = false ∧
      (sending 0 0).flag .HBM_LOG_REPLAY_BUSY 0 = false ∧ (sending 0 0).logOvf = false) ∧
    (let a : LogRec := ⟨0, 64, 1, { pkt 0 3 1 0 0 with sflow := 5 }⟩
     let b : LogRec := ⟨2 ^ 40, 64, 2, { pkt 0 3 1 0 0 with sflow := 5 }⟩
     let s : State := { sending 0 0 [(.HBM_LOG_REGION_ENABLE, 0, 1), (.HBM_LOG_REGION_SIZE_PG, 0, 1)] with logRecs := [a, b] }
     s.logRecs.filter (fun r => r.pkt.sflow.toNat == 5) = [a] ++ b :: [] ∧ s.recReadable a = true ∧ s.recReadable b = false ∧
      s.logOvf = false) ∧
    ((upWith [(.HBM_LOG_REPLAY_BUSY, 0, 1)]).flag .HBM_LOG_REPLAY_BUSY 0 = true ∧
      (up.sendFlow 0).replayQ = [] ∧ ((sending 0 0 [] true).sendFlow 5).replayQ ≠ []) ∧
    (upWith [(.HLT_MARGIN_CFG_EN, 0, 1)]).flag .HLT_MARGIN_CFG_EN 0 = true ∧
    (let u := upWith [(.HLT_MARGIN_CFG_EN, 0, 1), (.PWR_MTIME_MTIME, 0, 60 * 10 ^ 9)]
     let s : State := { u with power := { u.power with marginAt := some 0 } }
     s.power.marginAt = some 0 ∧ 0 + s.fld .HLT_MARGIN_CFG_PERIOD_S 0 * 10 ^ 9 ≤ s.now ∧
      up.now < 0 + up.fld .HLT_MARGIN_CFG_PERIOD_S 0 * 10 ^ 9) ∧ up.power.marginAt = none ∧
    (upWith [(.HLT_MARGIN_CFG_EN, 0, 0)]).flag .HLT_MARGIN_CFG_EN 0 = false ∧
    ((30 : Nat) ≤ 30 ∧ (12 : Nat) ≤ 29 ∧ (29 : Nat) < 30 ∧ (11 : Nat) < 12 ∧ (12 : Nat) ≤ 30) := by decide +kernel

/-! ### Witnesses: power, health, management and registers -/

/-- A state with the supplies' own fields changed. -/
def powered (s : State) (f : Power → Power) : State := { s with power := f s.power }

theorem witness_SuppliesRuleMain :
    (let s := powered (offWith [(.PWR_CFG_AUTO_ON, 0, 1)]) (fun p => { p with vinGood := true, seated := true })
     s.mayRelease = true ∧ s.flag .PWR_CFG_AUTO_ON 0 = true) ∧
    ((offWith []).mayRelease = false ∧ (offWith [(.PWR_CFG_AUTO_ON, 0, 0)]).flag .PWR_CFG_AUTO_ON 0 = false) ∧
    (up.answers .pf .PWR_CTRL ∧ up.mayRelease = false) ∧
    (let s := powered (offWith []) (fun p => { p with vinGood := true, seated := true })
     s.mayRelease = true ∧ s.answers (.mgmt 0) .PWR_CTRL) ∧
    (up.fld .PWR_STATUS_STATE 0 ≠ 0 ∧ State.reset.fld .PWR_STATUS_STATE 0 = 0 ∧ up.fld .PWR_STATUS_STATE 0 ≠ 1 ∧
      (upWith [(.PWR_STATUS_STATE, 0, 1)]).fld .PWR_STATUS_STATE 0 = 1) ∧
    (up.power.auxGood = true ∧ up.power.vinGood = true ∧ State.reset.power.auxGood = false ∧ (offWith []).power.auxGood = true ∧
      (offWith []).power.vinGood = false ∧ State.reset.power.vinGood = false) ∧
    (4 ≤ (upWith [(.LNK_STATUS_STATE, 7, 5)]).portState 7 ∧ (upWith [(.LNK_STATUS_STATE, 7, 5)]).portState 7 ≤ 5) := by decide +kernel

/-- Main power on, START_STEP n done. -/
def starting (n : Nat) : State := upWith [(.PWR_STATUS_STATE, 0, 1), (.PWR_STATUS_READY, 0, 0), (.PWR_STATUS_START_STEP, 0, n)]

theorem witness_ResetsAndStartUp :
    (up.answers .pf .PWR_CTRL ∧ up.fld .PWR_STATUS_STATE 0 ≠ 0 ∧ up.flag .MGT_DEBUG_UNLOCKED 0 = false ∧
      (upWith [(.MGT_DEBUG_UNLOCKED, 0, 1)]).flag .MGT_DEBUG_UNLOCKED 0 = true) ∧
    (let s := offWith []; s.answers (.mgmt 0) .PWR_CTRL ∧ s.fld .PWR_STATUS_STATE 0 = 0 ∧ s.fld .PWR_STATUS_STATE 0 ≠ 1) ∧
    ((starting 3).power.refclk = true ∧ 3 ≤ (starting 3).fld .PWR_STATUS_START_STEP 0 ∧
      (starting 2).fld .PWR_STATUS_START_STEP 0 < 3) ∧
    (∀ k ∈ [1, 2, 3, 4, 5, 6, 7, 8, 9, 10], (starting (k - 1)).fld .PWR_STATUS_STATE 0 = 1 ∧
      k = (starting (k - 1)).fld .PWR_STATUS_START_STEP 0 + 1) ∧
    StartFault.stepFails ∈ [StartFault.stepFails] ∧ StartFault.refclkAbsent ∉ [StartFault.stepFails] := by decide +kernel

theorem witness_HoldsAndTime :
    (up.flag .PWR_STATUS_READY 0 = true ∧ up.fld .PWR_STATUS_STATE 0 = 2 ∧ up.power.holdAt = none) ∧
    (let s := powered (upWith [(.PWR_STATUS_STATE, 0, 3), (.PWR_MTIME_MTIME, 0, 10 ^ 12)]) (fun p => { p with holdAt := some 0 })
     s.power.holdAt = some 0 ∧ s.strict = false ∧ s.power.thermAt = none ∧ s.fld .PWR_STATUS_STATE 0 = 3 ∧
      s.fld .PWR_CFG_HOLD_MAX_MS 0 * 1000000 ≤ s.now - 0) ∧
    (let s := powered (upWith [(.MGT_DET_CTRL_STRICT, 0, 1)]) (fun p => { p with holdAt := some 0, thermAt := some 0 })
     s.strict = true ∧ s.power.thermAt ≠ none ∧ s.now - 0 < s.fld .PWR_CFG_HOLD_MAX_MS 0 * 1000000) ∧
    (up.fld .PWR_STATUS_STATE 0 ≠ 0 ∧ up.flag .PWR_STATUS_HOLDOVER 0 = false) ∧
    (let s := powered (upWith [(.PWR_STATUS_HOLDOVER, 0, 1)]) (fun p => { p with slew := some 0 })
     s.flag .PWR_STATUS_HOLDOVER 0 = true ∧ s.power.rackref = true ∧ s.power.slew = some s.now) ∧
    (upWith [(.PWR_STATUS_HOLDOVER, 0, 1)]).power.slew ≠ some (upWith [(.PWR_STATUS_HOLDOVER, 0, 1)]).now ∧
    (up.answers .pf .PWR_MTIME_SET ∧ up.flag .PWR_STATUS_READY 0 = true) ∧
    (let s := upWith [(.PWR_STATUS_STATE, 0, 1), (.PWR_STATUS_READY, 0, 0), (.MGT_DEBUG_UNLOCKED, 0, 1)]
     s.answers .jtag .PWR_MTIME_SET ∧ s.flag .PWR_STATUS_READY 0 = false) := by decide +kernel

theorem witness_ClockVoltageAndHeat :
    (up.answers .pf .PWR_CLK_PLAN ∧ up.strict = false ∧ up.fld .PWR_STATUS_START_STEP 0 < 8) ∧
    (let s := upWith [(.MGT_DET_CTRL_STRICT, 0, 1)]; s.answers .pf .PWR_CLK_PLAN ∧ s.strict = true ∧ s.modeFree = false) ∧
    8 ≤ (upWith [(.PWR_STATUS_START_STEP, 0, 10)]).fld .PWR_STATUS_START_STEP 0 ∧
    ((upWith [(.PWR_CFG_VLOOP_EN, 0, 1)]).linksRun = true ∧ (upWith [(.PWR_CFG_VLOOP_EN, 0, 1)]).flag .PWR_CFG_VLOOP_EN 0 = true ∧
      (upWith [(.PWR_CFG_VLOOP_EN, 0, 0)]).flag .PWR_CFG_VLOOP_EN 0 = false) ∧
    (let s := powered (upWith [(.PWR_MTIME_MTIME, 0, 2000000), (.HLT_MARGIN_SHF_V_MV, 3, 40)]) (fun p => { p with slackSince := [(3, 0)] })
     s.power.slackSince.find? (fun p => p.1 == 3) = some (3, 0) ∧ 0 + 1000000 ≤ s.now ∧ 40 ≤ s.fld .HLT_MARGIN_SHF_V_MV 3 ∧
      -60 < Tbl.get 0 s.power.vOffset 3) ∧
    up.power.slackSince.find? (fun p => p.1 == 3) = none ∧
    (max 1200 (up.fld .PWR_CAP_CAP_W 0) < 60000 ∧ (2860 : Nat) ≤ 2860 ∧
      (upWith [(.MGT_DET_CTRL_STRICT, 0, 1)]).strict = true ∧ 0 ≤ max 1200 (up.fld .PWR_CAP_CAP_W 0)) ∧
    (powered up (fun p => { p with capOver := 99 })).power.capOver = 99 ∧ State.reset.linksRun = false ∧
    up.fld .PWR_STATUS_STATE 0 ≠ 0 ∧ State.reset.fld .PWR_STATUS_STATE 0 = 0 ∧ (upWith [(.PWR_STATUS_STATE, 0, 4)]).linksRun = false ∧
    (3 ≤ (powered up (fun p => { p with temps := [(0, 200)] })).topLevel ∧ up.topLevel < 3 ∧ up.hotNow = false) ∧
    (let s := powered up (fun p => { p with temps := [(0, 111)] }); s.topLevel < 3 ∧ s.hotNow = true) ∧
    (sensorLevel 0 (Tbl.get 0 up.power.temps 0) = sensorLevel 0 1 ∧ sensorLevel 0 (Tbl.get 0 up.power.temps 0) ≠ sensorLevel 0 200) ∧
    (upWith [(.LNK_GUEST_ADMITTED, 7, 1)]).flag .LNK_GUEST_ADMITTED 7 = true := by decide +kernel

/-- With margins off and a target of 0 mV, a slack of 18 ps and the rail's factor is above the target and no low margin. -/
theorem witness_ClockVoltageAndHeat_margin : (upWith [(.PWR_CFG_V_TARGET_MV, 0, 0)]).flag .HLT_MARGIN_CFG_EN 0 = false ∧
    (18 ≤ 18 + Config.railFactor 3 ∧ 40 * Config.railFactor 3 ≤ (18 + Config.railFactor 3) * 1000) ∧
    (upWith [(.PWR_CFG_V_TARGET_MV, 0, 0)]).targetSlack 3 < 18 + Config.railFactor 3 := by
  have h : (upWith [(.PWR_CFG_V_TARGET_MV, 0, 0)]).fld .PWR_CFG_V_TARGET_MV 0 = 0 := by decide +kernel
  refine ⟨by decide +kernel, by omega, ?_⟩
  simp only [State.targetSlack, h, Nat.zero_mul, Nat.zero_div]
  omega

/-- A slack target of 0 mV is 0 ps for every rail, whatever its factor. -/
theorem witness_ClockVoltageAndHeat_slack : (upWith [(.PWR_CFG_V_TARGET_MV, 0, 0)]).targetSlack 3 < 18 := by
  have h : (upWith [(.PWR_CFG_V_TARGET_MV, 0, 0)]).fld .PWR_CFG_V_TARGET_MV 0 = 0 := by decide +kernel
  simp [State.targetSlack, h]

theorem witness_DormantAndAgeing :
    (let s := upWith ((List.range 8).map (fun p => (Fld.LNK_CFG_ENABLE, p, 0)) ++ [(.FAB_CTRL_INJ_HOLD, 0, 1)])
     s.answers .pf .PWR_DORMANT ∧ s.mayEnter = true) ∧
    (up.answers .pf .PWR_DORMANT ∧ up.mayEnter = false ∧ up.fld .PWR_STATUS_STATE 0 ≠ 4 ∧ up.fld .PWR_STATUS_STATE 0 ≠ 5) ∧
    (upWith [(.PWR_STATUS_STATE, 0, 5)]).fld .PWR_STATUS_STATE 0 = 5 ∧
    (∀ p < 8, ((upWith [(.PWR_STATUS_STATE, 0, 5)]).port p).leaving = none) ∧
    (let s := upWith [(.PWR_STATUS_STATE, 0, 4), (.PWR_WAKE_AT_MTIME, 0, 7), (.PWR_MTIME_MTIME, 0, 7)]
     s.fld .PWR_STATUS_STATE 0 = 4 ∧ s.answers (.mgmt 0) .PWR_DORMANT ∧ s.fld .PWR_WAKE_AT_MTIME 0 ≠ 0 ∧
      s.fld .PWR_WAKE_AT_MTIME 0 ≤ s.now) ∧
    (upWith [(.PWR_STATUS_STATE, 0, 4), (.PWR_WAKE_AT_MTIME, 0, 8), (.PWR_MTIME_MTIME, 0, 7)]).now < 8 ∧
    (1 ≤ (5#4).toNat ∧ (5#4).toNat ≤ 5 ∧ 5 < (6#4).toNat ∧ (0#4).toNat = 0) := by decide +kernel

theorem witness_RackTimeAndViews :
    (State.reset.power.auxGood = false ∧ (offWith []).power.auxGood = true) ∧
    settimeValue 0x01 0x00 ([1, 0] ++ List.replicate 8 7) = some 0x0707070707070707 ∧ settimeValue 0x01 0x00 [] = none ∧
    settimeValue 0x02 0x01 ([2, 1] ++ List.replicate 8 7) = some 0x0707070707070707 ∧ settimeValue 0x02 0x01 [2] = none ∧
    ((offWith []).flag .PWR_STATUS_READY 0 = false ∧ up.flag .PWR_STATUS_READY 0 = true) ∧ up.answers .pf .MGT_PEER ∧
    (let s := upWith [(.MGT_PEER_BUSY, 0, 1), (.MGT_PEER_NODE, 0, 2 ^ 24 - 1)]
     s.flag .MGT_PEER_BUSY 0 = true ∧ s.fld .MGT_PEER_NODE 0 < 2 ^ 24 ∧ s.power.clock < s.power.peerAt + 250000000) ∧
    (powered up (fun p => { p with clock := 250000000 })).power.peerAt + 250000000 ≤
      (powered up (fun p => { p with clock := 250000000 })).power.clock ∧ up.flag .MGT_PEER_BUSY 0 = false := by decide +kernel

/-- Presence is open. -/
def present (l : List (Fld × Nat × Nat) := []) : State :=
  powered (upWith ([(.MGT_PRESENCE_OPEN, 0, 1)] ++ l)) (fun p => { p with presenceAt := some 0, slotVer := [5, 4] })

theorem witness_PresenceFirmwareAndDebug :
    (up.power.auxGood = true ∧ up.flag .MGT_PRESENCE_OPEN 0 = false ∧ up.power.presenceAt = none) ∧
    (present.power.presenceAt = some 0 ∧ present.flag .MGT_PRESENCE_OPEN 0 = true ∧ present.power.clock < 0 + 60000000000) ∧
    0 + 60000000000 ≤ (powered present (fun p => { p with clock := 60000000000 })).power.clock ∧
    (let s := present [(.SEC_STATUS_KEY_FUSED, 0, 1), (.MGT_FW_VER_MIN_VER, 0, 3)]
     s.flag .SEC_STATUS_KEY_FUSED 0 = true ∧ s.fld .MGT_FW_VER_MIN_VER 0 ≤ (3#31).toNat ∧
      (2#31).toNat < s.fld .MGT_FW_VER_MIN_VER 0) ∧ (upWith [(.SEC_STATUS_KEY_FUSED, 0, 0)]).flag .SEC_STATUS_KEY_FUSED 0 = false ∧
    (let s := present [(.MGT_FW_STAGE, 0, 2)]; s.answers .pf .MGT_FW ∧ s.flag .MGT_FW_TRIAL 0 = false ∧ s.fld .MGT_FW_STAGE 0 = 2) ∧
    (let s := present [(.MGT_FW_TRIAL, 0, 1)]; s.answers .pf .MGT_FW ∧ s.flag .MGT_FW_TRIAL 0 = true) ∧
    (present.answers .pf .MGT_FW_VER ∧ present.answers .pf .MGT_DEBUG ∧ up.answers .pf .MGT_FW ∧ up.answers .pf .MGT_FW_VER ∧
      up.answers .pf .MGT_DEBUG) ∧ up.revertCause = none ∧
    (let s := present [(.MGT_FW_TRIAL, 0, 1), (.PWR_MTIME_MTIME, 0, 600000000000)]
     s.fld .MGT_FW_VER_MIN_VER 0 ≤ s.power.slotVer.getD (1 - s.fld .MGT_FW_SLOT 0) 0 ∧ s.flag .PWR_STATUS_READY 0 = true ∧
      s.power.readyAt + 600000000000 ≤ s.now ∧ s.revertCause = some 0) := by decide +kernel

theorem witness_ClearLeavesOneEntry :
    (present.answers .pf .MGT_AUDIT_STAT ∧ present.flag .MGT_PRESENCE_OPEN 0 = true) ∧
    (up.answers .pf .MGT_AUDIT_STAT ∧ up.flag .MGT_PRESENCE_OPEN 0 = false) := by decide +kernel

theorem witness_AuditEntriesAreLaidOut : (upWith [(.MGT_AUDIT_STAT_UNFLUSHED, 0, 4095)]).fld .MGT_AUDIT_STAT_UNFLUSHED 0 < 4096 := by
  decide +kernel

theorem witness_RegistersTakeWrites :
    (up.answers .pf .PWR_CFG ∧ (Reg.off .PWR_CFG 0) % 8 = 0 ∧ up.barPlace (Reg.off .PWR_CFG 0) = some (.reg .PWR_CFG 0) ∧
      pfWindow (Reg.off .PWR_CFG 0) = false ∧ Reg.latches .PWR_CFG = false) ∧
    (up.answers .pf .GLM_ADMIN ∧ up.barPlace (Reg.off .GLM_ADMIN 0) = some (.reg .GLM_ADMIN 0) ∧ Reg.latches .GLM_ADMIN = true) ∧
    (let s := upWith [(.CTX_CFG_ENABLE, 4095, 1), (.CTX_STATUS_STATE, 4095, 1)]
     s.fld .PWR_STATUS_STATE 0 ≠ 4 ∧ (s.winPlace 4095 0x2008).isSome = true ∧ (0x2008 : Nat) % 8 = 0 ∧ s.hostPort = true ∧ s.flag .CTX_CFG_ENABLE 4095 = true ∧
      s.fld .CTX_STATUS_STATE 4095 ≠ 2) ∧ up.flag .CTX_CFG_ENABLE 4095 = false ∧
    ((Fld.info .PWR_CFG_AUTO_ON).access = .RW ∧ (Fld.info .PWR_STATUS_STATE).access = .RO ∧
      (Fld.info .PWR_STATUS_HOLD_SEEN).access = .W1C) ∧
    (Reg.effecter .PWR_CTRL = true ∧ up.power.auxGood = true) ∧ State.reset.fld .PWR_STATUS_STATE 0 = 0 ∧
    (up.power.hostUp = true ∧ up.flag .PWR_STATUS_READY 0 = true ∧ up.fld .PWR_STATUS_STATE 0 ≠ 4 ∧
      (0x7FFFFFFFFF : Nat) + 1 ≤ 0x8000000000 ∧ (0x8000000000 : Nat) < 0x7FFFFFFFFF + 2) ∧
    ((upWith [(.CMD_CFG_CXL, 0, 1)]).flag .CMD_CFG_CXL 0 = true ∧ up.flag .CMD_CFG_CXL 0 = false) ∧
    (let s := { up with power := { up.power with bar2 := 9, hdmBase := 0x1000, hdmSize := 0x1000 } }
     0x7FFFFFFFFF + 1 ≤ 2 ^ s.power.bar2 * 2 ^ 30 ∧ 2 ^ s.power.bar2 * 2 ^ 30 < 0x7FFFFFFFFF + 2 ∧ s.power.hdmBase ≤ 0x1FFF ∧
      0x1FFF + 1 ≤ s.power.hdmBase + s.power.hdmSize ∧ 0x1FFF + 1 ≤ 576 * 2 ^ 30 ∧ 0xFFF < s.power.hdmBase ∧
      s.power.hdmBase + s.power.hdmSize < 0x1FFF + 2) ∧
    (up.answers .pf .PWR_CFG ∧ Reg.PWR_CFG ≠ .GLM_CTX_VALUE ∧ Reg.off .PWR_CFG 0 % 8 = 0 ∧ pfWindow (Reg.off .PWR_CFG 0) = false) ∧
    (up.barPlace 0x3FFFFF8 = none ∧ pfWindow 0x3FFFFF8 = false ∧ up.answers .pf (judged 0x3FFFFF8 none)) ∧
    ((upWith [(.PWR_STATUS_STATE, 0, 4)]).fld .PWR_STATUS_STATE 0 = 4 ∧ (upWith [(.PWR_STATUS_STATE, 0, 4)]).power.hostUp = true ∧
      (windowed []).fld .PWR_STATUS_STATE 0 ≠ 4) ∧
    ((windowed []).hostPort = true ∧ (windowed []).flag .CTX_CFG_ENABLE 0 = true ∧ (windowed []).winPlace 0 0xFFF8 = none ∧
      ((windowed []).winPlace 0 0x2008).isSome = true) ∧
    (offWith []).power.hostUp = false := by decide +kernel

/-! ### Worked values of the spec -/

/-- R8's example: e0 in bits 5:0, e1 in 11:6, e2 in 17:12, so that e2 has bits 7:4 of byte 1 and 1:0 of byte 2. -/
theorem test_fp6_packing : packNat 6 [0x3F, 0, 0x2D] = 0x2D03F ∧ unpack 6 3 0x2D03F = [0x3F, 0, 0x2D] ∧
    leBytes 3 (packNat 6 [0, 0, 0x3F]) = [0, 0xF0, 0x03] := by decide +kernel

/-- R61: under RNE, FP16 overflows from 65,520. -/
theorem test_fp16_overflow : (convScalar 2 0 false 0 (.fin false 65519 0)).bits = 0x7BFF ∧
    (convScalar 2 0 false 0 (.fin false 65520 0)).bits = 0x7C00 ∧
    (convScalar 2 0 true 0 (.fin false 65520 0)).bits = 0x7BFF := by decide +kernel

/-- The example of R68: the four words of elements 0 to 3 under seed, tensor, step and salt 0. -/
theorem test_philox : (List.range 4).map (philox 0 0 0 0) = [0x6627E8D5, 0xE169C58D, 0xBC57AC4C, 0x9B00DBD8] := by
  decide +kernel

/-- The example after R68: FP32 1.3 in E4M3 under SR with those words, and under RNE. -/
theorem test_stochastic : (List.range 4).map (fun i => (convScalar 3 4 true (philox 0 0 0 0 i) (ofFp32 0x3FA66666)).bits) =
    [0x3B, 0x3A, 0x3A, 0x3A] ∧ (convScalar 3 0 true 0 (ofFp32 0x3FA66666)).bits = 0x3A := by decide +kernel

/-- A block of 64 with the values of the worked example of R52. -/
def huskExample : List FVal := (List.range 64).map (fun i =>
  ofFp32 (if i = 0 then 0x40A00000 else if i = 5 ∨ i = 20 then 0x40400000 else if i = 17 then 0xBF8CCCCD
    else if i = 32 then 0x3F333333 else if i = 33 then 0x3DCCCCCD else 0))

/-- The worked example of R52. -/
theorem test_husk6 :
    let c := convBlock 14 0 (List.replicate 64 0) huskExample
    c.record.take 2 = [0x81, 0xF9] ∧ [0, 17, 20, 32, 33].map (fun i => ((c.elems[i]?).map (·.bits)).getD 0) =
      [0x1B, 0x29, 0x18, 0x07, 0x01] ∧ c.elems.all (fun e => !e.ovf) = true := by decide +kernel

/-- The example after R49: an MXFP4 block whose largest magnitude is 5.0. -/
theorem test_mxfp4 :
    let c := convBlock 12 0 (List.replicate 32 0) (ofFp32 0x40A00000 :: List.replicate 31 (.fin false 0 0))
    c.record.take 2 = [127, 0x06] := by decide +kernel

/-- The example of R236 on a machine with no fenced stack. -/
theorem test_hbm_map : State.reset.hbmMap 0x123456780 = ⟨11, 29, 0, 10, 388, 12⟩ := by decide +kernel

/-- Published check values of the CRC-32 of IEEE 802.3 and of the CRC-8 with polynomial 0x07 over "123456789". -/
theorem test_crc : crc32 ((List.range 9).map (fun i => BitVec.ofNat 8 (0x31 + i))) = 0xCBF43926 ∧
    crc8 ((List.range 9).map (fun i => BitVec.ofNat 8 (0x31 + i))) = 0xF4 := by decide +kernel

/-- The published SHA-256 of "abc" (its first eight bytes). -/
theorem test_sha256 : (sha256 [0x61, 0x62, 0x63]).take 8 = [0xBA, 0x78, 0x16, 0xBF, 0x8F, 0x01, 0xCF, 0xEA] := by
  decide +kernel

/-- The example of node IDs in chapter 10: (1,2,0,3) is 0x0C0081. -/
theorem test_node_id : (List.range 4).map (nodeCoord 0x0C0081) = [1, 2, 0, 3] := by decide +kernel

/-- The example command of chapter 8. -/
def exampleCommand : BitVec 512 := BitVec.ofNat 512
  (0xFC000521 + 0x00030011 * 2 ^ 32 + 0x0003004000000000 * 2 ^ 128 + 0x0FFF004000001000 * 2 ^ 192 +
    0x0000001100000010 * 2 ^ 256 + 7 * 2 ^ 320 + 1 * 2 ^ 448)

/-- The example command of chapter 8 read field by field. -/
theorem test_command : cmdKind exampleCommand = 1 ∧ cmdCtx exampleCommand = 5 ∧ cmdNFirst exampleCommand = 0 ∧
    cmdNLast exampleCommand = 63 ∧ cmdLayer exampleCommand = 0x11 ∧ cmdOperator exampleCommand = 3 ∧
    cmdNPatch exampleCommand = 3 ∧ cmdProg exampleCommand = 0x4000000000 ∧ cmdPatch exampleCommand = 0x4000001000 ∧
    cmdSheafs exampleCommand = 0xFFF ∧ cmdWait exampleCommand 0 = (0x10, 7) ∧ cmdSig exampleCommand 0 = (0x11, 1) := by
  decide +kernel

/-- The block has no command word (opcode_table.json gives its rows no bits). -/
theorem test_no_words : decodeTableWord 0 0 = none ∧ (up.withFetchWord 0 0) = up := by decide +kernel

end Sys2Proof.Tests
end

section
/-! PROOFS. What raising an error record leaves unchanged, and the long pause of a data stream (R342). -/

namespace Sys2Proof.Machine

/-! ### The frame of an error record

Writing a record can translate the address of its queue, write memory, and raise further records of both. Of the register
file all this reaches the position and the LOST count of the error queue, FROZEN, the marks of the memory, and the audit
log's counters; it does not reach the ports. -/

/-- The register fields that raising records may write. -/
def recordFlds : List Fld :=
  [.CTX_EQ_CFG_LOST, .CTX_EQ_POS_PROD, .CTX_STATUS_FROZEN, .HBM_STATUS_CE_SEEN, .HBM_STATUS_UE_SEEN, .FAR_STATUS_POISON_SEEN,
    .FAR_STATUS_LINK_DOWN, .MGT_AUDIT_STAT_LOST, .MGT_AUDIT_STAT_UNFLUSHED, .MGT_AUDIT_SEQ_NEXT]

/-- t differs from s only as raising records may make it differ: the ports stand, and so does every field outside
`recordFlds`. -/
structure RecordFrame (s t : State) : Prop where
  ports : t.ports = s.ports
  fld : ∀ (g : Fld) (j : Nat), g ∉ recordFlds → t.fld g j = s.fld g j

namespace RecordFrame

theorem refl (s : State) : RecordFrame s s := ⟨rfl, fun _ _ _ => rfl⟩

theorem trans {s t u : State} (h : RecordFrame s t) (k : RecordFrame t u) : RecordFrame s u :=
  ⟨k.ports.trans h.ports, fun g j hg => (k.fld g j hg).trans (h.fld g j hg)⟩

/-- An update of neither ports nor registers. -/
theorem of_eq {s t : State} (hp : t.ports = s.ports) (hr : t.regs = s.regs) : RecordFrame s t :=
  ⟨hp, fun g j _ => by simp only [State.fld, hr]⟩

theorem setFld (s : State) {f : Fld} (hf : f ∈ recordFlds) (i v : Nat) : RecordFrame s (s.setFld f i v) :=
  ⟨rfl, fun _ j hg => s.fld_setFld_of_ne i j v (fun e => hg (e ▸ hf))⟩

theorem foldl {α : Type} {f : State → α → State} (hf : ∀ s x, RecordFrame s (f s x)) (l : List α) (s : State) :
    RecordFrame s (l.foldl f s) := by
  induction l generalizing s with
  | nil => exact refl s
  | cons x l ih => exact (hf s x).trans (ih (f s x))

theorem gather {α : Type} {f : State → α → State × List ErrRec} (hf : ∀ s x, RecordFrame s (f s x).1) (l : List α)
    (s : State) : RecordFrame s (gather f s l).1 := by
  suffices h : ∀ p : State × List ErrRec,
      RecordFrame p.1 (l.foldl (fun p x => ((f p.1 x).1, p.2 ++ (f p.1 x).2)) p).1 from h (s, [])
  induction l with
  | nil => exact fun p => refl p.1
  | cons x l ih => exact fun p => (hf p.1 x).trans (ih ((f p.1 x).1, p.2 ++ (f p.1 x).2))

theorem setBit (s : State) {f : Fld} (hf : f ∈ recordFlds) (i k : Nat) : RecordFrame s (s.setBit f i k) :=
  setFld s hf i _

theorem setFlag (s : State) {f : Fld} (hf : f ∈ recordFlds) (i : Nat) (b : Bool) : RecordFrame s (s.setFlag f i b) :=
  setFld s hf i _

end RecordFrame

/-! ### Memory events -/

theorem State.stopMark_recordFrame (s : State) (cls : Nat) : RecordFrame s (s.stopMark cls) := by
  unfold State.stopMark
  split
  · exact .setFld s (by decide) _ _
  · exact .refl s

theorem State.rowCe_recordFrame (s : State) (w : Accessor) (a : Nat) (wr scrub : Bool) :
    RecordFrame s (s.rowCe w a wr scrub).1 := by
  unfold State.rowCe
  dsimp only
  have hrows (rows : List RowCe) : RecordFrame s { s with rows := rows } := .of_eq rfl rfl
  split
  · split
    · exact .trans (.trans (hrows _) (.setBit _ (by decide) 0 _)) (.of_eq rfl rfl)
    · exact .trans (hrows _) (.setBit _ (by decide) 0 _)
  · exact hrows _

theorem State.wordLost_recordFrame (s : State) (w : Accessor) (a : Nat) (wr scrub : Bool) :
    RecordFrame s (s.wordLost w a wr scrub).1 := by
  unfold State.wordLost
  dsimp only
  have h : RecordFrame s ((s.setEcc (s.wordKey a) .clean).setPoison (s.wordKey a) true) := .of_eq rfl rfl
  split
  · exact h.trans (.setFld _ (by decide) _ _)
  · exact h.trans (.setFld _ (by decide) _ _)
  · exact h

theorem State.wordFixed_recordFrame (s : State) (w : Accessor) (a : Nat) (wr scrub : Bool) :
    RecordFrame s (s.wordFixed w a wr scrub).1 := by
  unfold State.wordFixed
  dsimp only
  have hecc : RecordFrame s (s.setEcc (s.wordKey a) .clean) := .of_eq rfl rfl
  split
  · exact hecc.trans (State.rowCe_recordFrame ..)
  all_goals exact .of_eq rfl rfl

theorem State.farPoison_recordFrame (s : State) (w : Accessor) (a : Nat) : RecordFrame s (s.farPoison w a).1 := by
  unfold State.farPoison
  split
  · exact .setFld s (by decide) _ _
  · exact .refl s

theorem State.checkWord_recordFrame (s : State) (w : Accessor) (a : Nat) (wr : Bool) :
    RecordFrame s (s.checkWord w a wr).1 := by
  unfold State.checkWord
  split
  · split
    · exact s.farPoison_recordFrame w a
    · exact .refl s
  · exact s.wordFixed_recordFrame w a wr false
  · exact s.wordLost_recordFrame w a wr false

/-! ### Reading and writing memory -/

theorem State.poke_recordFrame (s : State) (a : Nat) (b : Byte) : RecordFrame s (s.poke a b) := .of_eq rfl rfl

theorem State.countRead_recordFrame (s : State) (a n : Nat) : RecordFrame s (s.countRead a n) := by
  unfold State.countRead
  split <;> exact .of_eq rfl rfl

theorem State.markDirty_recordFrame (s : State) (a n : Nat) : RecordFrame s (s.markDirty a n) := by
  unfold State.markDirty
  split <;> exact .of_eq rfl rfl

theorem State.wrote_recordFrame (s : State) (a n : Nat) : RecordFrame s (s.wrote a n) := by
  unfold State.wrote
  split
  · exact (s.markDirty_recordFrame a n).trans (.of_eq rfl rfl)
  all_goals exact .of_eq rfl rfl

theorem State.readBytes_recordFrame (s : State) (w : Accessor) (a n : Nat) : RecordFrame s (s.readBytes w a n).1 := by
  unfold State.readBytes
  dsimp only
  have hcheck := RecordFrame.gather (fun s x => State.checkWord_recordFrame s w x false)
    ((s.wordStarts a n).filter (fun x => s.accClass w x == 0)) s
  have huse (t : State) (c : Bool) : RecordFrame t (if c then t else t.useFree) := by
    split <;> exact .of_eq rfl rfl
  refine .trans (.trans hcheck ?_) (huse _ _)
  refine .trans ?_ (State.countRead_recordFrame _ a n)
  split
  · exact .refl _
  · exact State.stopMark_recordFrame _ _

theorem State.writeWord_recordFrame (s : State) (w : Accessor) (x cover : Nat) (bad : Bool) :
    RecordFrame s (s.writeWord w x cover bad).1 := by
  unfold State.writeWord
  dsimp only
  have hread : RecordFrame s (if s.poisoned x then (s, []) else s.checkWord w x true).1 := by
    split
    · exact .refl s
    · exact s.checkWord_recordFrame w x true
  split
  · exact .of_eq rfl rfl
  · split
    · exact hread.trans (.of_eq rfl rfl)
    · exact hread

theorem State.writeCells_recordFrame (s : State) (w : Accessor) (cells : List (Nat × PByte)) :
    RecordFrame s (s.writeCells w cells).1 := by
  unfold State.writeCells
  dsimp only
  have hpoke (l : List (Nat × PByte)) (t : State) : RecordFrame t (l.foldl (fun st p => st.poke p.1 p.2.val) t) :=
    .foldl (fun t p => t.poke_recordFrame p.1 p.2.val) l t
  split
  case' h_2 => refine .trans ?_ (State.stopMark_recordFrame _ _)
  all_goals
    refine .trans (.gather (fun t k => ?_) _ s) (hpoke _ _)
    split
    · exact .refl t
    · exact State.writeWord_recordFrame ..

theorem State.writeBytes_recordFrame (s : State) (w : Accessor) (a : Nat) (bytes : List PByte) :
    RecordFrame s (s.writeBytes w a bytes).1 :=
  (State.writeCells_recordFrame ..).trans (State.wrote_recordFrame ..)

/-! ### Translation -/

theorem State.walkReads_recordFrame (s : State) (h : Option HostErr) (c cva : Nat) (u : UnitRef) :
    RecordFrame s (s.walkReads h c cva u).1 := by
  unfold State.walkReads
  split
  · exact .refl s
  · exact .gather (fun t ea => t.readBytes_recordFrame _ ea 8) _ s

theorem State.frozen_recordFrame (s : State) (c cva acc : Nat) (u : UnitRef) : RecordFrame s (s.frozen c cva acc u) :=
  have hheld : RecordFrame s (s.holdWalk c cva acc u) := .of_eq rfl rfl
  hheld.trans (.setFlag _ (by decide) c true)

theorem State.xlat_recordFrame (s : State) (h : Option HostErr) (k c cva acc : Nat) (u : UnitRef) :
    RecordFrame s (s.xlat h k c cva acc u).1 := by
  unfold State.xlat
  dsimp only
  split
  · split
    · exact s.frozen_recordFrame c cva acc u
    · exact .of_eq rfl rfl
  · split
    · exact .of_eq rfl rfl
    · have hreads := s.walkReads_recordFrame h c cva u
      split
      · exact hreads.trans (State.frozen_recordFrame _ c cva acc u)
      · exact hreads.trans (.of_eq rfl rfl)

/-! ### The error queue -/

theorem State.setVector_recordFrame (s : State) (c v : Nat) : RecordFrame s (s.setVector c v) := .of_eq rfl rfl

theorem State.setVectors_recordFrame (s : State) (vecs : List (Nat × Nat)) : RecordFrame s (s.setVectors vecs) := by
  unfold State.setVectors
  exact .foldl (fun t v => t.setVector_recordFrame v.1 v.2) vecs s

theorem State.slotWrite_recordFrame (s : State) (c k dev : Nat) (body : BitVec 256) (vecs : List (Nat × Nat)) :
    RecordFrame s (s.slotWrite errorQueue c k dev body vecs).1 := by
  unfold State.slotWrite
  dsimp only
  split
  · exact (s.stopMark_recordFrame _).trans (.setFld _ (by decide) _ _)
  · exact ((State.writeBytes_recordFrame ..).trans (.setFld _ (by decide) _ _)).trans (State.setVectors_recordFrame ..)

theorem State.queueWrite_recordFrame (s : State) (c k : Nat) (body : BitVec 256) (vecs : List (Nat × Nat)) :
    RecordFrame s (s.queueWrite errorQueue c k body vecs).1 := by
  unfold State.queueWrite
  dsimp only
  have hx := s.xlat_recordFrame none k c (s.fld errorQueue.base c * 64 + 32 * (s.fld errorQueue.prod c %
    queueEntries (s.fld errorQueue.size c))) 1 (writerUnit k)
  split
  · exact .setFld s (by decide) _ _
  · split
    · exact .of_eq rfl rfl
    · split
      next e =>
        rw [e] at hx
        exact hx.trans (State.slotWrite_recordFrame ..)
      next e =>
        rw [e] at hx
        exact hx.trans (.of_eq rfl rfl)

theorem State.mirrorRecord_recordFrame (s : State) (c : Nat) (body : BitVec 256) :
    RecordFrame s (s.mirrorRecord c body).1 := by
  unfold State.mirrorRecord
  split
  · exact State.queueWrite_recordFrame ..
  · exact .refl s

theorem State.lostRecord_recordFrame (s : State) (c : Nat) : RecordFrame s (s.lostRecord errorQueue c).1 := by
  unfold State.lostRecord
  dsimp only
  split
  · exact .refl s
  · exact ((RecordFrame.setFld s (by decide) _ _).trans (State.queueWrite_recordFrame ..)).trans
      (State.mirrorRecord_recordFrame ..)

theorem State.queuePut_recordFrame (s : State) (c k : Nat) (body : BitVec 256) (vecs : List (Nat × Nat)) :
    RecordFrame s (s.queuePut errorQueue c k body vecs).1 :=
  (s.lostRecord_recordFrame c).trans (State.queueWrite_recordFrame ..)

/-! ### Raising -/

theorem State.post_recordFrame (s : State) (r : ErrRec) (n mtime : Nat) : RecordFrame s (s.post r n mtime).1 := by
  unfold State.post
  dsimp only
  have hvectors (l : List Nat) (t : State) : RecordFrame t (l.foldl (fun t v => t.setVector 0 v) t) :=
    .foldl (fun t v => t.setVector_recordFrame 0 v) l t
  have hput := s.queuePut_recordFrame (r.ctx.getD 0) portCache (r.bits n mtime) (recordVectors r)
  refine .trans ?_ (hvectors _ _)
  split
  · dsimp only
    exact hput.trans (State.queuePut_recordFrame _ 0 portCache (r.bits n mtime) [])
  · exact hput

theorem State.postAll_recordFrame (depth : Nat) (s : State) (r : ErrRec) (n mtime : Nat) :
    RecordFrame s (s.postAll depth r n mtime) := by
  induction depth generalizing s r n mtime with
  | zero => exact .setFld s (by decide) _ _
  | succ depth ih => exact (s.post_recordFrame r n mtime).trans (.foldl (fun t e => ih t e 1 t.now) _ _)

theorem State.record_recordFrame (s : State) (r : ErrRec) : RecordFrame s (s.record r) := by
  unfold State.record
  split
  · exact .of_eq rfl rfl
  · exact s.postAll_recordFrame 6 r 1 s.now

theorem State.auditPut_recordFrame (s : State) (took : Bool) (o : AuditOrg) (cls off old data detail : Nat) :
    RecordFrame s (s.auditPut took o cls off old data detail) :=
  ((RecordFrame.setFld s (by decide) _ _).trans (.setFld _ (by decide) _ _)).trans (.of_eq rfl rfl)

theorem State.audit!_recordFrame (s : State) (took : Bool) (o : AuditOrg) (cls off old data detail : Nat) :
    RecordFrame s (s.audit! took o cls off old data detail) := by
  unfold State.audit!
  dsimp only
  have hput := s.auditPut_recordFrame took o cls off old data detail
  split
  · exact (RecordFrame.setFld s (by decide) _ _).trans (State.record_recordFrame ..)
  · split
    · exact hput.trans (.of_eq rfl rfl)
    · exact hput

/-- Raising a record changes no port and no register field outside `recordFlds`. -/
theorem State.raise_recordFrame (s : State) (r : ErrRec) : RecordFrame s (s.raise r) := by
  unfold State.raise
  dsimp only
  split
  · exact (s.record_recordFrame r).trans (State.audit!_recordFrame ..)
  · exact s.record_recordFrame r

theorem State.raiseNo_port (s : State) (cls : Nat) (u : UnitRef) (detail p : Nat) :
    (s.raiseNo cls u detail).port p = s.port p := by
  simp only [State.port, State.raiseNo, (s.raise_recordFrame _).ports]

theorem State.raiseNo_flag (s : State) (cls : Nat) (u : UnitRef) (detail : Nat) {g : Fld} (j : Nat) (hg : g ∉ recordFlds) :
    (s.raiseNo cls u detail).flag g j = s.flag g j := by
  simp only [State.flag, State.raiseNo, (s.raise_recordFrame _).fld g j hg]

/-! ### The long pause (R342) -/

/-- Port p has said that its pause is long: its own mark and LNK_STATUS.PAUSE_LONG. -/
def State.markPauseLong (s : State) (p : Nat) : State :=
  (s.setPort p { s.port p with pauseSaid := true }).setFlag .LNK_STATUS_PAUSE_LONG p true

@[simp] theorem State.markPauseLong_port (s : State) (p : Nat) :
    (s.markPauseLong p).port p = { s.port p with pauseSaid := true } := s.port_setPort p _

theorem State.markPauseLong_outside (s : State) (p : Nat) :
    s.markPauseLong p = { s with regs := (s.markPauseLong p).regs, ports := (s.markPauseLong p).ports } := rfl

theorem State.markPauseLong_sameRegs (s : State) (p : Nat) :
    s.sameRegs (s.markPauseLong p) [(.LNK_STATUS_PAUSE_LONG, p)] := by
  intro f i hfi
  refine State.fld_setFld_ne (s.setPort p _) _ f p i _ ?_
  rintro ⟨rfl, rfl⟩
  exact hfi (List.mem_singleton_self _)

/-- A pause that has been reported is not reported again. -/
theorem State.doPauseLimit_of_said {s : State} {p : Nat} (h : (s.port p).pauseSaid = true) : s.doPauseLimit p = s := by
  unfold State.doPauseLimit
  dsimp only
  split <;> simp [h]

/-- A pause that is due and not yet reported raises class 0x59. -/
theorem State.doPauseLimit_of_due {s : State} {p t : Nat} (hrun : s.linksRun = true) (hsince : (s.port p).pauseSince = some t)
    (hsaid : (s.port p).pauseSaid = false) (hdue : t + 1000 * s.fld .LNK_CFG_PAUSE_MAX_US p ≤ s.now) :
    s.doPauseLimit p = (s.markPauseLong p).raiseNo 0x59 (linkUnit p) (linkDetail p 0 ((s.now - t) / 1000)) := by
  simp [State.doPauseLimit, State.markPauseLong, hrun, hsince, hsaid, hdue]

theorem linkDetail_port (p : Fin 8) (rest : Nat) : linkDetail p 0 rest = p.val + rest * 2 ^ 16 := by
  have hp : p.val % 256 = p.val := Nat.mod_eq_of_lt (by omega)
  simp [linkDetail, hp]

/-- Settles O41: the record is raised on a state that differs in the port's mark and PAUSE_LONG, and raising it reaches
neither the ports nor LNK_STATUS.PAUSED; the mark then keeps the command from raising it again. -/
theorem longPausesAreReportedOnce : Obligations.LongPausesAreReportedOnce := by
  intro s u p t hrun hsince hdue hexec
  have hu : s.doPauseLimit p = u := Host.Outcome.next.inj hexec
  have once (h : (u.port p).pauseSaid = true) : exec (.pauseLimit p) u = .next u :=
    congrArg Host.Outcome.next (State.doPauseLimit_of_said h)
  cases hsaid : (s.port p).pauseSaid with
  | true =>
    obtain rfl : s = u := (State.doPauseLimit_of_said hsaid).symm.trans hu
    exact ⟨nofun, fun _ => rfl, hsaid, hsince, rfl, rfl, once hsaid⟩
  | false =>
    rw [State.doPauseLimit_of_due hrun hsince hsaid hdue, linkDetail_port] at hu
    have hport : u.port p = { s.port p with pauseSaid := true } := by
      rw [← hu, State.raiseNo_port, State.markPauseLong_port]
    have hpaused : u.flag .LNK_STATUS_PAUSED p = s.flag .LNK_STATUS_PAUSED p := by
      rw [← hu, State.raiseNo_flag _ _ _ _ _ (by decide)]
      exact State.flag_setFld_of_ne _ _ _ _ (by decide)
    refine ⟨fun _ => ⟨s.markPauseLong p, hu.symm, s.markPauseLong_outside p, s.markPauseLong_sameRegs p⟩, nofun, ?_⟩
    simp only [hport] at once ⊢
    exact ⟨trivial, hsince, trivial, hpaused, once trivial⟩

end Sys2Proof.Machine
end

section
/-! PROOFS. The audit log: an entry's layout (R552), and CLEAR under presence (R555). -/

namespace Sys2Proof.Machine

/-! ### Fields side by side

A number made of bit fields, listed from bit 0 upward, each a width and a value. The value of every field then stands at
the sum of the widths before it, and the list reads like the table of the spec. -/

/-- The number whose bit fields, from bit 0 upward, have these widths and values. -/
def packFields : List (Nat × Nat) → Nat
  | [] => 0
  | (w, v) :: l => v % 2 ^ w + 2 ^ w * packFields l

/-- The first bit of field k. -/
def fieldStart (l : List (Nat × Nat)) (k : Nat) : Nat := ((l.map Prod.fst).take k).sum

theorem packFields_lt (l : List (Nat × Nat)) : packFields l < 2 ^ fieldStart l l.length := by
  induction l with
  | nil => decide
  | cons p l ih =>
    have hv : p.2 % 2 ^ p.1 < 2 ^ p.1 := Nat.mod_lt _ (by positivity)
    calc packFields (p :: l) < 2 ^ p.1 * (packFields l + 1) := by simp only [packFields, Nat.mul_succ]; omega
      _ ≤ 2 ^ p.1 * 2 ^ fieldStart l l.length := Nat.mul_le_mul_left _ ih
      _ = 2 ^ fieldStart (p :: l) (p :: l).length := by simp [fieldStart, Nat.pow_add]

/-- Dropping the bits below field k leaves the fields from k on. -/
theorem packFields_div (l : List (Nat × Nat)) (k : Nat) :
    packFields l / 2 ^ fieldStart l k = packFields (l.drop k) := by
  induction l generalizing k with
  | nil => simp [packFields]
  | cons p l ih =>
    cases k with
    | zero => simp [fieldStart]
    | succ k =>
      have hv : p.2 % 2 ^ p.1 < 2 ^ p.1 := Nat.mod_lt _ (by positivity)
      have hstart : fieldStart (p :: l) (k + 1) = p.1 + fieldStart l k := by simp [fieldStart]
      rw [hstart, Nat.pow_add, ← Nat.div_div_eq_div_mul, packFields, Nat.add_mul_div_left _ _ (by positivity),
        Nat.div_eq_of_lt hv, Nat.zero_add, ih, List.drop_succ_cons]

/-- Field k reads as its value cut to its width. -/
theorem bitsOf_packFields {l : List (Nat × Nat)} {k w v hi lo : Nat} (hk : l[k]? = some (w, v))
    (hlo : fieldStart l k = lo) (hhi : hi + 1 = lo + w) : bitsOf (packFields l) hi lo = v % 2 ^ w := by
  obtain ⟨hlt, hval⟩ := List.getElem?_eq_some_iff.mp hk
  have hwidth : hi + 1 - lo = w := by omega
  rw [bitsOf, hwidth, ← hlo, packFields_div, List.drop_eq_getElem_cons hlt, hval, packFields,
    Nat.add_mul_mod_self_left, Nat.mod_mod]

/-! ### The entry -/

theorem leNat_lt (l : List Byte) : leNat l < 256 ^ l.length := by
  induction l with
  | nil => decide
  | cons b l ih =>
    have hb : b.toNat < 256 := b.isLt
    simp only [leNat, List.length_cons, Nat.pow_succ]
    omega

theorem chainOf_lt (prev : BitVec 512) : chainOf prev < 2 ^ 128 :=
  calc chainOf prev < 256 ^ ((sha256 (leBytes 64 prev.toNat)).take 16).length := leNat_lt _
    _ ≤ 256 ^ 16 := Nat.pow_le_pow_right (by decide) (List.length_take_le ..)
    _ = 2 ^ 128 := by decide

/-- Every field of the register table is read from a word. -/
theorem State.fld_lt_word (s : State) (f : Fld) (i : Nat) : s.fld f i < 2 ^ 64 := BitVec.isLt _

section
variable (s : State) (took : Bool) (o : AuditOrg) (cls off old data detail : Nat)

/-- The entry that `State.auditPut` writes. -/
def State.auditEntry : BitVec 512 :=
  BitVec.ofNat 512 (auditWord s.now (s.fld .MGT_AUDIT_SEQ_NEXT 0) took o cls off old data detail +
    chainOf s.auditPrev * 2 ^ 384)

/-- The fields of an entry as R552 lists them: the time, SEQ, ORIGIN, TOOK, the reserved bits, CLASS, ORIGIN_ID, OFFSET,
OLD, DATA, DETAIL and CHAIN. -/
def State.auditFields : List (Nat × Nat) :=
  [(64, s.now), (64, s.fld .MGT_AUDIT_SEQ_NEXT 0), (4, o.code), (1, if took then 1 else 0), (3, 0), (8, cls),
    (16, o.id), (32, off), (64, old), (64, data), (64, detail), (128, chainOf s.auditPrev)]

/-- The widths of an entry's fields. -/
def auditWidths : List Nat := [64, 64, 4, 1, 3, 8, 16, 32, 64, 64, 64, 128]

theorem State.auditFields_widths : (s.auditFields took o cls off old data detail).map Prod.fst = auditWidths := rfl

/-- The sum that the model writes is these fields side by side. -/
theorem State.auditWord_add_chain : auditWord s.now (s.fld .MGT_AUDIT_SEQ_NEXT 0) took o cls off old data detail +
    chainOf s.auditPrev * 2 ^ 384 = packFields (s.auditFields took o cls off old data detail) := by
  have hnow : s.now % 2 ^ 64 = s.now := Nat.mod_eq_of_lt (s.fld_lt_word _ _)
  have hseq := Nat.mod_eq_of_lt (s.fld_lt_word .MGT_AUDIT_SEQ_NEXT 0)
  have hchain := Nat.mod_eq_of_lt (chainOf_lt s.auditPrev)
  have htook : (if took then 16 else 0) = 16 * ((if took then 1 else 0) % 2 ^ 1) := by cases took <;> rfl
  simp only [auditWord, State.auditFields, packFields, hnow, hseq, hchain, htook, Nat.zero_mod]
  omega

theorem State.auditEntry_toNat : (s.auditEntry took o cls off old data detail).toNat =
    packFields (s.auditFields took o cls off old data detail) := by
  have hlen : fieldStart (s.auditFields took o cls off old data detail) 12 = 512 := by
    rw [fieldStart, s.auditFields_widths]
    decide
  rw [State.auditEntry, s.auditWord_add_chain, BitVec.toNat_ofNat, ← hlen]
  exact Nat.mod_eq_of_lt (packFields_lt _)

variable {s took o cls off old data detail} in
/-- An entry's bits at field k of R552 are that field's value cut to its width. -/
theorem State.bitsOf_auditEntry (k : Nat) {w v hi lo : Nat}
    (hk : (s.auditFields took o cls off old data detail)[k]? = some (w, v))
    (hlo : (auditWidths.take k).sum = lo := by decide) (hhi : hi + 1 = lo + w := by decide) :
    bitsOf (s.auditEntry took o cls off old data detail).toNat hi lo = v % 2 ^ w := by
  rw [State.auditEntry_toNat]
  exact bitsOf_packFields hk hlo hhi

theorem State.auditEntry_time : bitsOf (s.auditEntry took o cls off old data detail).toNat 63 0 = s.now :=
  (State.bitsOf_auditEntry 0 rfl).trans (Nat.mod_eq_of_lt (s.fld_lt_word _ _))

theorem State.auditEntry_seq :
    bitsOf (s.auditEntry took o cls off old data detail).toNat 127 64 = s.fld .MGT_AUDIT_SEQ_NEXT 0 :=
  (State.bitsOf_auditEntry 1 rfl).trans (Nat.mod_eq_of_lt (s.fld_lt_word _ _))

theorem State.auditEntry_took :
    bitsOf (s.auditEntry took o cls off old data detail).toNat 132 132 = if took then 1 else 0 :=
  (State.bitsOf_auditEntry 3 rfl).trans (by cases took <;> rfl)

theorem State.auditEntry_chain :
    bitsOf (s.auditEntry took o cls off old data detail).toNat 511 384 = chainOf s.auditPrev :=
  (State.bitsOf_auditEntry 11 rfl).trans (Nat.mod_eq_of_lt (chainOf_lt _))

end

/-! ### Adding an entry -/

/-- u is s with the entry e added: e stands in the slot of its SEQ and is the one that the next CHAIN hashes. -/
structure State.AddsEntry (s u : State) (e : BitVec 512) : Prop where
  audit : u.audit = Tbl.put s.audit (s.fld .MGT_AUDIT_SEQ_NEXT 0 % 4096) e
  auditPrev : u.auditPrev = e
  seqNext : u.fld .MGT_AUDIT_SEQ_NEXT 0 = (s.fld .MGT_AUDIT_SEQ_NEXT 0 + 1) % 2 ^ 64
  flash : u.flash = s.flash
  mem : u.mem = s.mem
  power : u.power = s.power

theorem State.AddsEntry.setVector {s u : State} {e : BitVec 512} (h : s.AddsEntry u e) (c v : Nat) :
    s.AddsEntry (u.setVector c v) e := ⟨h.audit, h.auditPrev, h.seqNext, h.flash, h.mem, h.power⟩

section
variable (s : State) (took : Bool) (o : AuditOrg) (cls off old data detail : Nat)

theorem State.auditPut_seqNext : (s.auditPut took o cls off old data detail).fld .MGT_AUDIT_SEQ_NEXT 0 =
    (s.fld .MGT_AUDIT_SEQ_NEXT 0 + 1) % 2 ^ 64 :=
  calc (s.auditPut took o cls off old data detail).fld .MGT_AUDIT_SEQ_NEXT 0
    _ = ((s.wrapAdd .MGT_AUDIT_SEQ_NEXT 0 1).wrapAdd .MGT_AUDIT_STAT_UNFLUSHED 0 1).fld .MGT_AUDIT_SEQ_NEXT 0 := by
      simp only [State.auditPut, State.fld]
    _ = (s.wrapAdd .MGT_AUDIT_SEQ_NEXT 0 1).fld .MGT_AUDIT_SEQ_NEXT 0 := State.fld_setFld_of_ne _ _ _ _ (by decide)
    _ = (s.fld .MGT_AUDIT_SEQ_NEXT 0 + 1) % 2 ^ 64 := State.fld_setFld_same _ _ _ _

theorem State.auditPut_addsEntry :
    s.AddsEntry (s.auditPut took o cls off old data detail) (s.auditEntry took o cls off old data detail) :=
  { audit := rfl
    auditPrev := rfl
    seqNext := s.auditPut_seqNext ..
    flash := by unfold State.auditPut; rfl
    mem := by unfold State.auditPut; rfl
    power := by unfold State.auditPut; rfl }

/-- While fewer than 4,096 entries are unflushed an entry is added (R554). -/
theorem State.audit!_addsEntry (h : s.fld .MGT_AUDIT_STAT_UNFLUSHED 0 < 4096) :
    s.AddsEntry (s.audit! took o cls off old data detail) (s.auditEntry took o cls off old data detail) := by
  have hput := s.auditPut_addsEntry took o cls off old data detail
  unfold State.audit!
  rw [if_neg (Nat.not_le.mpr h)]
  dsimp only
  split
  · exact hput.setVector 0 4
  · exact hput

end

/-- Settles O59: the entry is the list of fields of R552 packed from bit 0, so each is read back at its offset. -/
theorem auditEntriesAreLaidOut : Obligations.AuditEntriesAreLaidOut := by
  intro s u took o cls off old data detail hroom hu
  obtain ⟨haudit, hprev, hnext, -, -, -⟩ := s.audit!_addsEntry took o cls off old data detail hroom
  rw [hu]
  refine ⟨s.auditEntry took o cls off old data detail, haudit ▸ Tbl.get_put_same .., hprev, s.auditEntry_time ..,
    s.auditEntry_seq .., ?reserved, s.auditEntry_took .., ?origin, ?recClass, ?originId, ?offset, ?old, ?data, ?detail,
    s.auditEntry_chain .., hnext⟩
  case reserved => exact State.bitsOf_auditEntry 4 (w := 3) (v := 0) rfl
  case origin => exact State.bitsOf_auditEntry 2 (w := 4) rfl
  case recClass => exact State.bitsOf_auditEntry 5 (w := 8) rfl
  case originId => exact State.bitsOf_auditEntry 6 (w := 16) rfl
  case offset => exact State.bitsOf_auditEntry 7 rfl
  case old => exact State.bitsOf_auditEntry 8 rfl
  case data => exact State.bitsOf_auditEntry 9 rfl
  case detail => exact State.bitsOf_auditEntry 10 rfl

/-! ### CLEAR -/

/-- The log emptied, before the clear's own entry is written. -/
def State.auditEmptied (s : State) : State :=
  ({ s with audit := [], flash := [], flashed := 0 } : State).setFld .MGT_AUDIT_STAT_UNFLUSHED 0 0

theorem State.auditEmptied_seqNext (s : State) :
    s.auditEmptied.fld .MGT_AUDIT_SEQ_NEXT 0 = s.fld .MGT_AUDIT_SEQ_NEXT 0 :=
  State.fld_setFld_of_ne _ _ _ _ (by decide)

theorem State.auditEmptied_unflushed (s : State) : s.auditEmptied.fld .MGT_AUDIT_STAT_UNFLUSHED 0 = 0 :=
  State.fld_setFld_same _ _ _ _

/-- The entry of a clear. -/
def State.clearEntry (s : State) (o : AuditOrg) : BitVec 512 := s.auditEmptied.auditEntry true o 0 0xFFFFFFFF 0 1 0

/-- A clear is one entry added to the emptied log, which has room for it whatever was unflushed before. -/
theorem State.auditClear_addsEntry (s : State) (o : AuditOrg) :
    s.auditEmptied.AddsEntry (s.auditClear o) (s.clearEntry o) :=
  s.auditEmptied.audit!_addsEntry true o 0 0xFFFFFFFF 0 1 0 (by rw [s.auditEmptied_unflushed]; decide)

theorem State.clearEntry_seq (s : State) (o : AuditOrg) :
    bitsOf (s.clearEntry o).toNat 127 64 = s.fld .MGT_AUDIT_SEQ_NEXT 0 :=
  (s.auditEmptied.auditEntry_seq ..).trans s.auditEmptied_seqNext

theorem State.clearEntry_chain (s : State) (o : AuditOrg) :
    bitsOf (s.clearEntry o).toNat 511 384 = chainOf s.auditPrev := s.auditEmptied.auditEntry_chain ..

theorem State.clearCmd_present {s : State} {o : Origin} (h : s.answers o .MGT_AUDIT_STAT)
    (hp : s.flag .MGT_PRESENCE_OPEN 0 = true) : s.clearCmd o =
      (s.auditOf s true (Origin.presence o) .MGT_AUDIT_STAT 0 1).auditClear (Origin.presence o) :=
  (State.access_of_answers h _).trans (if_pos hp)

theorem State.clearCmd_absent {s : State} {o : Origin} (h : s.answers o .MGT_AUDIT_STAT)
    (hp : s.flag .MGT_PRESENCE_OPEN 0 = false) :
    s.clearCmd o = s.auditOf s false (Origin.audit o) .MGT_AUDIT_STAT 0 1 :=
  (State.access_of_answers h _).trans (if_neg (ne_true_of_eq_false hp))

/-- Settles O58: emptying the log leaves SEQ and the last entry as they were, so the clear's entry, the only one in the
emptied log, carries both on. -/
theorem clearLeavesOneEntry : Obligations.ClearLeavesOneEntry := by
  intro s s1 o hans
  refine ⟨fun hp hs1 => ?_, fun hp => congrArg Host.Outcome.next (State.clearCmd_absent hans hp)⟩
  have hexec : exec (.clear o) s = .next (s1.auditClear (Origin.presence o)) :=
    congrArg Host.Outcome.next (hs1 ▸ State.clearCmd_present hans hp)
  obtain ⟨haudit, hprev, hnext, hflash, hmem, hpower⟩ := s1.auditClear_addsEntry (Origin.presence o)
  rw [s1.auditEmptied_seqNext] at haudit hnext
  exact ⟨_, s1.clearEntry (Origin.presence o), hexec, haudit, hflash, s1.clearEntry_seq _, s1.clearEntry_chain _,
    hnext, hprev, hmem, hpower⟩

end Sys2Proof.Machine
end

section
/-! PROOFS. What every step keeps, and how a step answers: the queue, the reset state, and the soundness of the state. -/

namespace Sys2Proof.Machine

/-! ### Every command, every step -/

/-- Every command keeps the queue and the soundness of the state, by the law of its own meaning. -/
theorem exec_keeps : ∀ (c : Instr) (s t : State), exec c s = .next t → Keeps s t
  | .registerWrite .., _, _, h => execRegisterWrite_keeps _ _ _ _ _ h
  | .latchedLowerWrite .., _, _, h => execLatchedLowerWrite_keeps _ _ _ _ h
  | .nop .., _, _, h => execNop_keeps _ _ _ h
  | .endReplay .., _, _, h => execEndReplay_keeps _ _ _ h
  | .replayComplete .., _, _, h => execReplayComplete_keeps _ _ _ h
  | .loop .., _, _, h => execLoop_keeps _ _ _ h
  | .endl .., _, _, h => execEndl_keeps _ _ _ h
  | .pset .., _, _, h => execPset_keeps _ _ _ h
  | .padd .., _, _, h => execPadd_keeps _ _ _ h
  | .pcpy .., _, _, h => execPcpy_keeps _ _ _ h
  | .agset .., _, _, h => execAgset_keeps _ _ _ h
  | .wait .., _, _, h => execWait_keeps _ _ _ h
  | .signal .., _, _, h => execSignal_keeps _ _ _ h
  | .fence .., _, _, h => execFence_keeps _ _ _ h
  | .ld .., _, _, h => execLd_keeps _ _ _ h
  | .st .., _, _, h => execSt_keeps _ _ _ h
  | .ldUnitMove .., _, _, h => execLdUnitMove_keeps _ _ _ _ h
  | .stUnitMove .., _, _, h => execStUnitMove_keeps _ _ _ h
  | .mm .., _, _, h => execMm_keeps _ _ _ h
  | .mmPassIssue .., _, _, h => execMmPassIssue_keeps _ _ _ _ _ h
  | .passAccumulationComplete .., _, _, h => execPassAccumulationComplete_keeps _ _ _ _ _ h
  | .tileDrain .., _, _, h => execTileDrain_keeps _ _ _ _ _ h
  | .gangCmpWrite .., _, _, h => execGangCmpWrite_keeps _ _ _ _ _ _ h
  | .maStallClr .., _, _, h => execMaStallClr_keeps _ _ _ h
  | .fadd .., _, _, h => execFadd_keeps _ _ _ h
  | .fsub .., _, _, h => execFsub_keeps _ _ _ h
  | .fmul .., _, _, h => execFmul_keeps _ _ _ h
  | .fma .., _, _, h => execFma_keeps _ _ _ h
  | .fmin .., _, _, h => execFmin_keeps _ _ _ h
  | .fmax .., _, _, h => execFmax_keeps _ _ _ h
  | .fabs .., _, _, h => execFabs_keeps _ _ _ h
  | .fneg .., _, _, h => execFneg_keeps _ _ _ h
  | .fsgn .., _, _, h => execFsgn_keeps _ _ _ h
  | .fcmp .., _, _, h => execFcmp_keeps _ _ _ h
  | .sel .., _, _, h => execSel_keeps _ _ _ h
  | .cvt .., _, _, h => execCvt_keeps _ _ _ h
  | .rcp .., _, _, h => execRcp_keeps _ _ _ h
  | .sqrt .., _, _, h => execSqrt_keeps _ _ _ h
  | .rsqrt .., _, _, h => execRsqrt_keeps _ _ _ h
  | .exp .., _, _, h => execExp_keeps _ _ _ h
  | .exp2 .., _, _, h => execExp2_keeps _ _ _ h
  | .log .., _, _, h => execLog_keeps _ _ _ h
  | .log2 .., _, _, h => execLog2_keeps _ _ _ h
  | .tanh .., _, _, h => execTanh_keeps _ _ _ h
  | .sigm .., _, _, h => execSigm_keeps _ _ _ h
  | .iadd .., _, _, h => execIadd_keeps _ _ _ h
  | .isub .., _, _, h => execIsub_keeps _ _ _ h
  | .imin .., _, _, h => execImin_keeps _ _ _ h
  | .imax .., _, _, h => execImax_keeps _ _ _ h
  | .and .., _, _, h => execAnd_keeps _ _ _ h
  | .or .., _, _, h => execOr_keeps _ _ _ h
  | .xor .., _, _, h => execXor_keeps _ _ _ h
  | .shl .., _, _, h => execShl_keeps _ _ _ h
  | .shr .., _, _, h => execShr_keeps _ _ _ h
  | .wadd .., _, _, h => execWadd_keeps _ _ _ h
  | .wcvt .., _, _, h => execWcvt_keeps _ _ _ h
  | .rsum .., _, _, h => execRsum_keeps _ _ _ h
  | .rsumsq .., _, _, h => execRsumsq_keeps _ _ _ h
  | .rmax .., _, _, h => execRmax_keeps _ _ _ h
  | .rmaxabs .., _, _, h => execRmaxabs_keeps _ _ _ h
  | .mand .., _, _, h => execMand_keeps _ _ _ h
  | .mor .., _, _, h => execMor_keeps _ _ _ h
  | .mxor .., _, _, h => execMxor_keeps _ _ _ h
  | .mnot .., _, _, h => execMnot_keeps _ _ _ h
  | .vgath .., _, _, h => execVgath_keeps _ _ _ h
  | .vectorChunkIssue .., _, _, h => execVectorChunkIssue_keeps _ _ _ h
  | .statisticRecordWrite .., _, _, h => execStatisticRecordWrite_keeps _ _ _ h
  | .veStallClr .., _, _, h => execVeStallClr_keeps _ _ _ h
  | .watchdogExpiry .., _, _, h => execWatchdogExpiry_keeps _ _ _ h
  | .halt .., _, _, h => execHalt_keeps _ _ _ h
  | .step .., _, _, h => execStep_keeps _ _ _ h
  | .resume .., _, _, h => execResume_keeps _ _ _ h
  | .paramWrite .., _, _, h => execParamWrite_keeps _ _ _ _ _ h
  | .breakRegisterWrite .., _, _, h => execBreakRegisterWrite_keeps _ _ _ _ _ _ h
  | .glumeSignalApply .., _, _, h => execGlumeSignalApply_keeps _ _ _ h
  | .waitSatisfied .., _, _, h => execWaitSatisfied_keeps _ _ h
  | .waitTimeout .., _, _, h => execWaitTimeout_keeps _ _ h
  | .glumeAllocate .., _, _, h => execGlumeAllocate_keeps _ _ _ _ h
  | .glumeFreeze .., _, _, h => execGlumeFreeze_keeps _ _ _ h
  | .glumeFree .., _, _, h => execGlumeFree_keeps _ _ _ h
  | .glumeRead .., _, _, h => execGlumeRead_keeps _ _ _ h
  | .xlatInval .., _, _, h => execXlatInval_keeps _ _ _ _ _ h
  | .hostSignal .., _, _, h => execHostSignal_keeps _ _ _ h
  | .glumeValueRead .., _, _, h => execGlumeValueRead_keeps _ _ h
  | .notifyArm .., _, _, h => execNotifyArm_keeps _ _ _ h
  | .notifyFire .., _, _, h => execNotifyFire_keeps _ _ h
  | .barrierSlotConfig .., _, _, h => execBarrierSlotConfig_keeps _ _ _ _ _ h
  | .barrierArrive .., _, _, h => execBarrierArrive_keeps _ _ h
  | .arrivalToken .., _, _, h => execArrivalToken_keeps _ _ _ _ _ _ h
  | .releaseToken .., _, _, h => execReleaseToken_keeps _ _ _ _ _ _ _ h
  | .barrierRelease .., _, _, h => execBarrierRelease_keeps _ _ h
  | .barrierRoundTimeout .., _, _, h => execBarrierRoundTimeout_keeps _ _ h
  | .commandFetch .., _, _, h => execCommandFetch_keeps _ _ _ h
  | .doorbellSnoop .., _, _, h => execDoorbellSnoop_keeps _ _ _ h
  | .doorbellPoll .., _, _, h => execDoorbellPoll_keeps _ _ _ h
  | .ringEnable .., _, _, h => execRingEnable_keeps _ _ _ h
  | .commandNop .., _, _, h => execCommandNop_keeps _ _ h
  | .run .., _, _, h => execRun_keeps _ _ _ h
  | .xfer .., _, _, h => execXfer_keeps _ _ _ h
  | .commandComplete .., _, _, h => execCommandComplete_keeps _ _ _ h
  | .ringCancel .., _, _, h => execRingCancel_keeps _ _ _ _ h
  | .cancelledRetire .., _, _, h => execCancelledRetire_keeps _ _ h
  | .ringResume .., _, _, h => execRingResume_keeps _ _ _ h
  | .translationResume .., _, _, h => execTranslationResume_keeps _ _ h
  | .tlbInval .., _, _, h => execTlbInval_keeps _ _ _ _ h
  | .contextEnable .., _, _, h => execContextEnable_keeps _ _ _ _ h
  | .contextReset .., _, _, h => execContextReset_keeps _ _ h
  | .functionLevelReset .., _, _, h => execFunctionLevelReset_keeps _ _ h
  | .contextResetDone .., _, _, h => execContextResetDone_keeps _ _ h
  | .msixMessage .., _, _, h => execMsixMessage_keeps _ _ _ h
  | .copy .., _, _, h => execCopy_keeps _ _ _ _ h
  | .fill .., _, _, h => execFill_keeps _ _ _ h
  | .milletRead .., _, _, h => execMilletRead_keeps _ _ _ _ h
  | .milletWrite .., _, _, h => execMilletWrite_keeps _ _ _ _ h
  | .milletAdd32 .., _, _, h => execMilletAdd32_keeps _ _ _ _ h
  | .milletAdd64 .., _, _, h => execMilletAdd64_keeps _ _ _ _ h
  | .digestPiece .., _, _, h => execDigestPiece_keeps _ _ _ _ h
  | .digestPieceCopy .., _, _, h => execDigestPieceCopy_keeps _ _ _ _ h
  | .digestFinal .., _, _, h => execDigestFinal_keeps _ _ _ _ h
  | .digestProv .., _, _, h => execDigestProv_keeps _ _ _ _ h
  | .transferOperationComplete .., _, _, h => execTransferOperationComplete_keeps _ _ _ h
  | .farMemoryTimeout .., _, _, h => execFarMemoryTimeout_keeps _ _ h
  | .farLinkDown, _, _, h => execFarLinkDown_keeps _ h
  | .scrubRead .., _, _, h => execScrubRead_keeps _ _ _ _ h
  | .goSoft .., _, _, h => execGoSoft_keeps _ _ _ h
  | .goHard .., _, _, h => execGoHard_keeps _ _ _ h
  | .hbmRepairDone .., _, _, h => execHbmRepairDone_keeps _ _ h
  | .hbmRetire .., _, _, h => execHbmRetire_keeps _ _ _ h
  | .hbmRetireClr .., _, _, h => execHbmRetireClr_keeps _ _ h
  | .regionWrite .., _, _, h => execRegionWrite_keeps _ _ _ _ h
  | .ucieModuleLost .., _, _, h => execUcieModuleLost_keeps _ _ _ h
  | .markerReceive .., _, _, h => execMarkerReceive_keeps _ _ _ _ _ _ _ h
  | .slotReceive .., _, _, h => execSlotReceive_keeps _ _ _ _ _ _ h
  | .lcfReceive .., _, _, h => execLcfReceive_keeps _ _ _ h
  | .channelFail .., _, _, h => execChannelFail_keeps _ _ _ _ h
  | .channelSymbolRateFail .., _, _, h => execChannelSymbolRateFail_keeps _ _ _ h
  | .laserFail .., _, _, h => execLaserFail_keeps _ _ _ h
  | .pauseGo .., _, _, h => execPauseGo_keeps _ _ _ h
  | .pauseExpire .., _, _, h => execPauseExpire_keeps _ _ h
  | .pauseLimit .., _, _, h => execPauseLimit_keeps _ _ h
  | .portStateAdvance .., _, _, h => execPortStateAdvance_keeps _ _ _ h
  | .lcfTimeout .., _, _, h => execLcfTimeout_keeps _ _ h
  | .autoRetrain .., _, _, h => execAutoRetrain_keeps _ _ _ h
  | .retrain .., _, _, h => execRetrain_keeps _ _ _ _ h
  | .portEnableWrite .., _, _, h => execPortEnableWrite_keeps _ _ _ _ h
  | .channelFuse .., _, _, h => execChannelFuse_keeps _ _ _ _ h
  | .packetInject .., _, _, h => execPacketInject_keeps _ _ h
  | .packetForward .., _, _, h => execPacketForward_keeps _ _ _ h
  | .escapeMove .., _, _, h => execEscapeMove_keeps _ _ _ h
  | .agingServe .., _, _, h => execAgingServe_keeps _ _ _ h
  | .write .., _, _, h => execWrite_keeps _ _ _ _ h
  | .stream .., _, _, h => execStream_keeps _ _ _ _ h
  | .readReq .., _, _, h => execReadReq_keeps _ _ _ _ h
  | .readResp .., _, _, h => execReadResp_keeps _ _ _ _ h
  | .remoteSignal .., _, _, h => execRemoteSignal_keeps _ _ _ _ h
  | .remoteSignalRelease .., _, _, h => execRemoteSignalRelease_keeps _ _ h
  | .ack .., _, _, h => execAck_keeps _ _ _ _ h
  | .nak .., _, _, h => execNak_keeps _ _ _ _ h
  | .unreach .., _, _, h => execUnreach_keeps _ _ _ _ h
  | .line .., _, _, h => execLine_keeps _ _ _ _ h
  | .ackTimer .., _, _, h => execAckTimer_keeps _ _ h
  | .gapTimeout .., _, _, h => execGapTimeout_keeps _ _ h
  | .rtoExpire .., _, _, h => execRtoExpire_keeps _ _ h
  | .flowRead .., _, _, h => execFlowRead_keeps _ _ _ _ h
  | .flowOpen .., _, _, h => execFlowOpen_keeps _ _ _ _ h
  | .flowClose .., _, _, h => execFlowClose_keeps _ _ _ _ h
  | .groupArm .., _, _, h => execGroupArm_keeps _ _ _ h
  | .groupDisarm .., _, _, h => execGroupDisarm_keeps _ _ _ h
  | .chunkEnter .., _, _, h => execChunkEnter_keeps _ _ _ _ _ h
  | .colPartial .., _, _, h => execColPartial_keeps _ _ _ _ _ h
  | .colFinal .., _, _, h => execColFinal_keeps _ _ _ _ h
  | .colExp .., _, _, h => execColExp_keeps _ _ _ _ h
  | .colRow .., _, _, h => execColRow_keeps _ _ _ _ h
  | .routeRecord .., _, _, h => execRouteRecord_keeps _ _ _ _ h
  | .laneEnd .., _, _, h => execLaneEnd_keeps _ _ _ _ h
  | .modeWrite .., _, _, h => execModeWrite_keeps _ _ _ _ h
  | .evtClr .., _, _, h => execEvtClr_keeps _ _ h
  | .stretchApply, _, _, h => execStretchApply_keeps _ h
  | .d2dLaneRepair .., _, _, h => execD2dLaneRepair_keeps _ _ _ h
  | .map .., _, _, h => execMap_keeps _ _ _ _ h
  | .fuse .., _, _, h => execFuse_keeps _ _ _ h
  | .renumber .., _, _, h => execRenumber_keeps _ _ _ h
  | .fenceSheaf .., _, _, h => execFenceSheaf_keeps _ _ _ h
  | .mirrorEnable .., _, _, h => execMirrorEnable_keeps _ _ _ h
  | .mirrorSync, _, _, h => execMirrorSync_keeps _ h
  | .mirrorSyncComplete, _, _, h => execMirrorSyncComplete_keeps _ h
  | .mirrorBlockCommit .., _, _, h => execMirrorBlockCommit_keeps _ _ h
  | .neighbourLost, _, _, h => execNeighbourLost_keeps _ h
  | .flowTrim .., _, _, h => execFlowTrim_keeps _ _ _ h
  | .flowSkip .., _, _, h => execFlowSkip_keeps _ _ _ _ h
  | .logReplay .., _, _, h => execLogReplay_keeps _ _ _ h
  | .marginMeasure .., _, _, h => execMarginMeasure_keeps _ _ h
  | .auxRise .., _, _, h => execAuxRise_keeps _ _ h
  | .auxLost, _, _, h => execAuxLost_keeps _ h
  | .auxReturn, _, _, h => execAuxReturn_keeps _ h
  | .inputOvervoltage, _, _, h => execInputOvervoltage_keeps _ h
  | .holdupExpire, _, _, h => execHoldupExpire_keeps _ h
  | .mainRelease, _, _, h => execMainRelease_keeps _ h
  | .startupStep .., _, _, h => execStartupStep_keeps _ _ _ h
  | .brownoutHold, _, _, h => execBrownoutHold_keeps _ h
  | .brownoutResume .., _, _, h => execBrownoutResume_keeps _ _ h
  | .holdLimit, _, _, h => execHoldLimit_keeps _ h
  | .orderlyShutdown, _, _, h => execOrderlyShutdown_keeps _ h
  | .mainOn .., _, _, h => execMainOn_keeps _ _ h
  | .off .., _, _, h => execOff_keeps _ _ h
  | .moduleReset .., _, _, h => execModuleReset_keeps _ _ h
  | .perstAssert, _, _, h => execPerstAssert_keeps _ h
  | .perstDeassert .., _, _, h => execPerstDeassert_keeps _ _ _ _ _ h
  | .holdoverEnter, _, _, h => execHoldoverEnter_keeps _ h
  | .holdoverExit, _, _, h => execHoldoverExit_keeps _ h
  | .mtimeSet .., _, _, h => execMtimeSet_keeps _ _ _ h
  | .clockPlanWrite .., _, _, h => execClockPlanWrite_keeps _ _ _ h
  | .clockChange, _, _, h => execClockChange_keeps _ h
  | .vloopAdjust .., _, _, h => execVloopAdjust_keeps _ _ _ h
  | .powerCapCheck .., _, _, h => execPowerCapCheck_keeps _ _ _ h
  | .thermalCheck .., _, _, h => execThermalCheck_keeps _ _ h
  | .laserBiasAdjust .., _, _, h => execLaserBiasAdjust_keeps _ _ _ _ h
  | .enter .., _, _, h => execEnter_keeps _ _ h
  | .wake .., _, _, h => execWake_keeps _ _ h
  | .dormantWake .., _, _, h => execDormantWake_keeps _ _ h
  | .ageingRecord .., _, _, h => execAgeingRecord_keeps _ _ _ _ h
  | .telemetrySample .., _, _, h => execTelemetrySample_keeps _ _ h
  | .obsClr .., _, _, h => execObsClr_keeps _ _ _ h
  | .settimeBroadcast .., _, _, h => execSettimeBroadcast_keeps _ _ _ h
  | .settimeDirected .., _, _, h => execSettimeDirected_keeps _ _ _ h
  | .peerQuery .., _, _, h => execPeerQuery_keeps _ _ _ h
  | .peerQueryResponse .., _, _, h => execPeerQueryResponse_keeps _ _ h
  | .peerQueryTimeout, _, _, h => execPeerQueryTimeout_keeps _ h
  | .pldmEffecterWrite .., _, _, h => execPldmEffecterWrite_keeps _ _ _ _ h
  | .firmwareTransfer .., _, _, h => execFirmwareTransfer_keeps _ _ _ _ h
  | .viewCompare .., _, _, h => execViewCompare_keeps _ _ h
  | .auditFlush, _, _, h => execAuditFlush_keeps _ h
  | .clear .., _, _, h => execClear_keeps _ _ h
  | .presenceOpen, _, _, h => execPresenceOpen_keeps _ h
  | .presenceClose, _, _, h => execPresenceClose_keeps _ h
  | .activate .., _, _, h => execActivate_keeps _ _ h
  | .confirm .., _, _, h => execConfirm_keeps _ _ h
  | .raise .., _, _, h => execRaise_keeps _ _ h
  | .firmwareRevert, _, _, h => execFirmwareRevert_keeps _ h
  | .unlock .., _, _, h => execUnlock_keeps _ _ h
  | .lock .., _, _, h => execLock_keeps _ _ h
  | .jtagInstruction .., _, _, h => execJtagInstruction_keeps _ _ h
  | .seatedRelease, _, _, h => execSeatedRelease_keeps _ h
  | .brownoutBeforeReady, _, _, h => execBrownoutBeforeReady_keeps _ h
  | .guestLost .., _, _, h => execGuestLost_keeps _ _ h
  | .rackrefReturn .., _, _, h => execRackrefReturn_keeps _ _ h
  | .linkFrame .., _, _, h => execLinkFrame_keeps _ _ h
  | .bar2Write .., _, _, h => execBar2Write_keeps _ _ _ _ h
  | .glumeAdminComplete, _, _, h => execGlumeAdminComplete_keeps _ h
  | .xlatInvalComplete, _, _, h => execXlatInvalComplete_keeps _ h
  | .tlbInvalComplete .., _, _, h => execTlbInvalComplete_keeps _ _ h
  | .spareMapComplete .., _, _, h => execSpareMapComplete_keeps _ _ h
  | .logReplayComplete, _, _, h => execLogReplayComplete_keeps _ h
  | .dormantEntryComplete, _, _, h => execDormantEntryComplete_keeps _ h

/-- A step that answers keeps what the state with the command taken from its queue holds. -/
theorem step_keeps {s t : State} (h : step s = .next t) : Keeps { s with pending := s.pending.tail } t := by
  unfold step at h
  split at h
  next c rest hq => simpa [hq] using exec_keeps c _ t h
  next hq =>
    obtain rfl := Host.Outcome.next.inj h
    obtain ⟨hp, hm, hf⟩ := tick_keeps s
    exact ⟨by simpa [hq] using hp, hm, hf⟩

/-- Settles O4: soundness speaks of memory and registers only, which taking the command from the queue leaves alone. -/
theorem everyStepKeepsSound : Obligations.EveryStepKeepsSound :=
  fun _ _ hs h => (step_keeps h).sound ⟨hs.mem, hs.fields⟩

/-- Settles O6. -/
theorem stepTakesOneCommand : Obligations.StepTakesOneCommand := fun _ _ h => (step_keeps h).pending

/-- Settles O1. -/
theorem stepRunsFrontCommand : Obligations.StepRunsFrontCommand := fun _ _ _ => rfl

/-- Settles O7: a field below its width is not cut when it is written back. -/
theorem fieldsFitTheirWidths : Obligations.FieldsFitTheirWidths := by
  intro s f i hs
  have hlt : s.fld f i < 2 ^ f.width := s.fld_lt hs.fields f i
  exact ⟨hlt, by rw [State.fld_setFld_same, Nat.mod_eq_of_lt hlt]⟩

/-! ### The reset state -/

theorem Fld.reset_lt (f : Fld) : f.info.reset < 2 ^ 64 := by cases f <;> decide

/-- With nothing listed a field reads its reset value. -/
theorem State.fld_of_regs_nil {s : State} (h : s.regs = []) (f : Fld) (i : Nat) : s.fld f i = f.info.reset := by
  unfold State.fld
  rw [h, Tbl.get_nil, BitVec.toNat_ofNat, Nat.mod_eq_of_lt f.reset_lt]

/-- Settles O5: the reset state lists no register and no byte, so each reads its default. -/
theorem resetIsSound : Obligations.ResetIsSound := by
  have hfld (f : Fld) (i : Nat) : State.reset.fld f i = f.info.reset := State.fld_of_regs_nil rfl f i
  refine ⟨⟨rfl, rfl⟩, rfl, rfl, hfld, hfld .PWR_STATUS_STATE 0, ?_⟩
  rw [State.flag, hfld]
  rfl

/-! ### How commands and the empty queue answer -/

/-- Settles O3: `.priv` of the TAP is the only command whose meaning has a branch that does not answer. -/
theorem onlyPrivateJtagStops : Obligations.OnlyPrivateJtagStops := by
  refine ⟨fun c s hpriv => ?_, fun code s hdebug => ?_, fun code s hdebug => ?_⟩
  · cases c with
    | jtagInstruction ir =>
      cases ir with
      | priv code => exact absurd rfl (hpriv code)
      | _ => exact ⟨_, rfl⟩
    | _ => exact ⟨_, rfl⟩
  · exact if_pos hdebug
  · exact if_neg (ne_true_of_eq_false hdebug)

/-- Settles O2: each clause is one branch of `State.edge`. -/
theorem idleStepIsOneEdge : Obligations.IdleStepIsOneEdge := by
  refine ⟨fun s hq => ⟨by rw [step, hq], (tick_keeps s).pending.trans hq⟩, fun s hset hmain hslew => ?running,
    fun s n v hset hn => ?taken, fun s hset hmain hsettime => ?standing⟩
  case running => simp [State.edge, hset, hslew, hmain]
  case taken =>
    have hv : v.toNat / 10 * 10 < 2 ^ 64 := by omega
    simp only [State.edge, hset, if_pos hn]
    exact ⟨(State.fld_setFld_same _ _ _ _).trans (Nat.mod_eq_of_lt hv), rfl⟩
  case standing => simp [State.edge, hset, hmain, hsettime]

end Sys2Proof.Machine
end

section
/-! PROOFS. The front end of a Tiller: which registers an update reaches, what a dispatch does, and the instructions that the front
end performs itself (R147-R168). -/

namespace Sys2Proof.Machine

/-! ### Which registers an update reaches -/

section
variable {s t u : State} {l m : List (Fld × Nat)}

theorem State.sameRegs_of_regs (h : t.regs = s.regs) (l : List (Fld × Nat)) : s.sameRegs t l :=
  fun _ _ _ => by simp only [State.fld, h]

theorem State.sameRegs_setFld (s : State) {f : Fld} {i : Nat} (v : Nat) (h : (f, i) ∈ l) : s.sameRegs (s.setFld f i v) l := by
  intro g j hg
  refine s.fld_setFld_ne f g i j v ?_
  rintro ⟨rfl, rfl⟩
  exact hg h

theorem State.sameRegs_setFlag (s : State) {f : Fld} {i : Nat} (b : Bool) (h : (f, i) ∈ l) : s.sameRegs (s.setFlag f i b) l :=
  s.sameRegs_setFld _ h

theorem State.sameRegs_satAdd (s : State) {f : Fld} {i : Nat} (n : Nat) (h : (f, i) ∈ l) : s.sameRegs (s.satAdd f i n) l :=
  s.sameRegs_setFld _ h

theorem State.sameRegs.trans (h : s.sameRegs t l) (k : t.sameRegs u l) : s.sameRegs u l :=
  fun f i hf => (k f i hf).trans (h f i hf)

end

@[simp] theorem State.count_fld (s : State) (k n : Nat) (f : Fld) (i : Nat) : (s.count k n).fld f i = s.fld f i := rfl
@[simp] theorem State.count_til (s : State) (k n t : Nat) : (s.count k n).til t = s.til t := rfl

/-! ### What a dispatch does -/

/-- The Tiller behind a dispatch: its watchdog starts anew and a step or a halt is served. -/
def Tiller.served (x : Tiller) : Tiller := { x with wdog := 0, stepping := false, halting := false }

/-- A dispatch that no step and no halt waits for. -/
def State.counted (s : State) (t : Nat) : State :=
  ((s.satAdd .TIL_OBS_INST_INSTR t 1).count (tcKey t 18) 1).setTil t (s.til t).served

theorem State.dispatched_eq (s : State) (t : Nat) : s.dispatched t =
    if ((s.til t).stepping || (s.til t).halting) && s.tstate t == 4 then (s.counted t).setTstate t 6 else s.counted t := by
  have hstate : (s.counted t).tstate t = s.tstate t := State.fld_setFld_of_ne _ _ _ _ (by decide)
  rw [← hstate]
  rfl

theorem State.dispatched_outside (s : State) (t : Nat) : s.dispatched t =
    { s with regs := (s.dispatched t).regs, tillers := (s.dispatched t).tillers, obs := (s.dispatched t).obs } := by
  rw [s.dispatched_eq]
  split <;> rfl

theorem State.dispatched_til (s : State) (t : Nat) : (s.dispatched t).til t = (s.til t).served := by
  rw [s.dispatched_eq]
  split <;> exact State.til_setTil _ _ _

theorem State.dispatched_til_ne (s : State) {t t' : Nat} (h : t' ≠ t) : (s.dispatched t).til t' = s.til t' := by
  rw [s.dispatched_eq]
  split <;> exact State.til_setTil_ne _ _ h

theorem State.dispatched_tstate (s : State) (t : Nat) : (s.dispatched t).tstate t =
    if ((s.til t).stepping || (s.til t).halting) && s.tstate t == 4 then 6 else s.tstate t := by
  rw [s.dispatched_eq]
  split
  · exact State.fld_setFld_same _ _ _ _
  · exact State.fld_setFld_of_ne _ _ _ _ (by decide)

theorem State.counted_sameRegs (s : State) {t : Nat} {l : List (Fld × Nat)} (h : (.TIL_OBS_INST_INSTR, t) ∈ l) :
    s.sameRegs (s.counted t) l := s.sameRegs_satAdd 1 h

theorem State.dispatched_sameRegs (s : State) {t : Nat} {l : List (Fld × Nat)} (hinst : (.TIL_OBS_INST_INSTR, t) ∈ l)
    (hstate : (.TIL_PROG_STATUS_STATE, t) ∈ l) : s.sameRegs (s.dispatched t) l := by
  rw [s.dispatched_eq]
  split
  · exact (s.counted_sameRegs hinst).trans (State.sameRegs_setFld _ _ hstate)
  · exact s.counted_sameRegs hinst

theorem State.counted_instr (s : State) (t : Nat) :
    (s.counted t).fld .TIL_OBS_INST_INSTR t = min (s.fld .TIL_OBS_INST_INSTR t + 1) (2 ^ 64 - 1) := by
  refine (s.fld_setFld_same .TIL_OBS_INST_INSTR t _).trans (Nat.mod_eq_of_lt ?_)
  show min _ (2 ^ 64 - 1) < 2 ^ 64
  omega

theorem State.dispatched_instr (s : State) (t : Nat) :
    (s.dispatched t).fld .TIL_OBS_INST_INSTR t = min (s.fld .TIL_OBS_INST_INSTR t + 1) (2 ^ 64 - 1) := by
  rw [s.dispatched_eq]
  split
  · exact (State.fld_setFld_of_ne _ _ _ _ (by decide)).trans (s.counted_instr t)
  · exact s.counted_instr t

/-! ### The next instruction -/

theorem State.nextPc_pc (s : State) (t pc : Nat) : (s.nextPc t pc).pc t = (pc + 1) % 2 ^ 16 := by
  have hpc := (s.setPc t (pc + 1)).dispatched_sameRegs (t := t)
    (l := [(.TIL_OBS_INST_INSTR, t), (.TIL_PROG_STATUS_STATE, t)]) (by simp) (by simp) .TIL_PROG_STATUS_PC t (by simp)
  exact hpc.trans (s.fld_setFld_same _ _ _)

theorem State.nextPc_outside (s : State) (t pc : Nat) : s.nextPc t pc =
    { s with regs := (s.nextPc t pc).regs, tillers := (s.nextPc t pc).tillers, obs := (s.nextPc t pc).obs } :=
  (s.setPc t (pc + 1)).dispatched_outside t

theorem State.nextPc_sameRegs (s : State) (t pc : Nat) : s.sameRegs (s.nextPc t pc)
    [(.TIL_PROG_STATUS_PC, t), (.TIL_OBS_INST_INSTR, t), (.TIL_PROG_STATUS_STATE, t)] :=
  (s.sameRegs_setFld _ (by simp)).trans (State.dispatched_sameRegs _ (by simp) (by simp))

theorem State.nextPc_instr (s : State) (t pc : Nat) :
    (s.nextPc t pc).fld .TIL_OBS_INST_INSTR t = min (s.fld .TIL_OBS_INST_INSTR t + 1) (2 ^ 64 - 1) := by
  refine (State.dispatched_instr _ t).trans ?_
  rw [State.setPc, State.fld_setFld_of_ne _ _ _ _ (by decide)]

theorem State.nextPc_tstate (s : State) (t pc : Nat) : (s.nextPc t pc).tstate t =
    if ((s.til t).stepping || (s.til t).halting) && s.tstate t == 4 then 6 else s.tstate t := by
  have hstate : (s.setPc t (pc + 1)).tstate t = s.tstate t := s.fld_setFld_of_ne _ _ _ (by decide)
  refine (State.dispatched_tstate _ t).trans ?_
  rw [hstate]
  rfl

/-! ### An instruction at the PC -/

/-- The frame of a dispatch, for a command's meaning. -/
theorem State.next_frontEnd {s : State} {t opc : Nat} {l : List (Bool × Bad)} (h : s.at t opc l)
    {check : State → Enc → Option Bad} {act : State → Enc → Nat → State} (hc : check s (s.inst t) = firstBad l) :
    (Host.Outcome.next (s.frontEnd t opc check act) : Host.Outcome State Fault Refusal) =
      .next (act s (s.inst t) (s.pc t)) :=
  congrArg Host.Outcome.next (s.frontEnd_of_at h check act hc)

theorem State.doNop_eq_frontEnd {s : State} {t : Nat} (h : opcodeKnown (s.inst t).opc = true) :
    s.doNop t = s.frontEnd t 0x00 (fun _ e => firstBad (feCheck 0 0 false e)) (fun s _ pc => s.nextPc t pc) := by
  unfold State.doNop
  rw [if_neg]
  simp only [State.inst] at h
  simp [h]

theorem firstBad_eq_none {l : List (Bool × Bad)} : firstBad l = none ↔ ∀ p ∈ l, p.1 = false := by
  induction l with
  | nil => simp [firstBad]
  | cons p l ih => obtain ⟨b, x⟩ := p; cases b <;> simp [firstBad, ih]

theorem firstBad_append (l m : List (Bool × Bad)) : firstBad (l ++ m) = (firstBad l).or (firstBad m) := by
  induction l with
  | nil => rfl
  | cons p l ih => obtain ⟨b, x⟩ := p; cases b <;> simp [firstBad, ih]

/-- A number of 64 bits with no bit set from bit k on lies below 2^k. -/
theorem lt_two_pow_of_and_eq_zero {x k : Nat} (hx : x < 2 ^ 64) (hk : k ≤ 64) (h : x &&& (2 ^ 64 - 2 ^ k) = 0) : x < 2 ^ k := by
  have hsplit : 2 ^ 64 = 2 ^ (64 - k) * 2 ^ k := by rw [← Nat.pow_add, Nat.sub_add_cancel hk]
  have hmask : (2 ^ 64 - 2 ^ k) >>> k = 2 ^ (64 - k) - 1 := by
    rw [Nat.shiftRight_eq_div_pow, hsplit, ← Nat.sub_one_mul, Nat.mul_div_cancel _ (by positivity)]
  have hhigh : x >>> k < 2 ^ (64 - k) := by
    rw [Nat.shiftRight_eq_div_pow, Nat.div_lt_iff_lt_mul (by positivity), ← hsplit]
    exact hx
  have hzero : x >>> k = 0 :=
    calc x >>> k = x >>> k &&& (2 ^ (64 - k) - 1) := by rw [Nat.and_two_pow_sub_one_eq_mod, Nat.mod_eq_of_lt hhigh]
      _ = (x &&& (2 ^ 64 - 2 ^ k)) >>> k := by rw [Nat.shiftRight_and_distrib, hmask]
      _ = 0 := by rw [h, Nat.zero_shiftRight]
  rwa [Nat.shiftRight_eq_div_pow, Nat.div_eq_zero_iff_lt (by positivity)] at hzero

theorem encOf_imm_lt (w : BitVec 128) : (encOf w).imm < 2 ^ 64 := Nat.mod_lt _ (by positivity)

theorem State.setFld_mod (s : State) (f : Fld) (i v : Nat) : s.setFld f i (v % 2 ^ f.width) = s.setFld f i v := by
  simp only [State.setFld, Nat.mod_mod]

/-- Settles O8: each instruction is the act of its dispatch, and what follows every one of them is `State.nextPc`. -/
theorem plainInstructionsAct : Obligations.PlainInstructionsAct := by
  intro sh n s
  refine ⟨fun h => ?nop, fun h hidle => ?fence, fun h hbusy => ?held, fun h => State.next_frontEnd h rfl, fun h => ?padd,
    fun h => ?pcpy, ?next⟩
  case nop =>
    have hknown : opcodeKnown (s.inst (tix sh n)).opc = true := by rw [h.2.2.1]; decide
    exact (congrArg Host.Outcome.next (State.doNop_eq_frontEnd hknown)).trans (State.next_frontEnd h rfl)
  case fence => exact (State.next_frontEnd h rfl).trans (congrArg _ (if_pos (by simp [hidle])))
  case held => exact (State.next_frontEnd h rfl).trans (congrArg _ (if_neg (by simp [hbusy])))
  case padd =>
    refine (State.next_frontEnd h rfl).trans (congrArg (fun u : State => Host.Outcome.next (u.nextPc _ _)) ?_)
    exact (s.setFld_mod .TIL_PARAM_VALUE _ _).symm
  case pcpy =>
    have hmask : (s.inst (tix sh n)).imm &&& (2 ^ 64 - 2 ^ 8) = 0 :=
      bne_eq_false_iff_eq.mp (firstBad_eq_none.mp h.2.2.2 ((s.inst (tix sh n)).imm &&& (2 ^ 64 - 1 - 255) != 0, badField)
        (by simp [feCheck]))
    have himm : (s.inst (tix sh n)).imm < 256 := lt_two_pow_of_and_eq_zero (encOf_imm_lt _) (by decide) hmask
    rw [Nat.mod_eq_of_lt himm]
    exact State.next_frontEnd h rfl
  case next =>
    rintro t pc _ rfl
    exact ⟨s.nextPc_pc t pc, s.nextPc_outside t pc, s.nextPc_sameRegs t pc, s.nextPc_instr t pc, s.nextPc_tstate t pc,
      State.dispatched_til _ t, fun t' ht => State.dispatched_til_ne _ ht⟩

/-! ### Instructions that fault at their dispatch -/

/-- An instruction that fails a check of R582 is its program fault. -/
theorem State.frontEnd_of_bad {s : State} {t opc : Nat} {b : Bad} (hd : s.canDispatch t = true)
    (hpc : s.pc t < s.fld .TIL_PROG_IMAGE_NINST t) (hopc : (s.inst t).opc = opc) {check : State → Enc → Option Bad}
    (act : State → Enc → Nat → State) (hb : check s (s.inst t) = some b) : s.frontEnd t opc check act = s.badInst t (s.pc t) b := by
  unfold State.frontEnd
  unfold State.inst at hb hopc
  simp only [hd, hopc, hb, if_true, Nat.not_le.mpr hpc, if_false]

/-- Only a shape fault touches SHAPE_ERR. -/
theorem State.badInst_eq_progFault (s : State) (t pc : Nat) {b : Bad} (h : b.cls ≠ 0x36) :
    s.badInst t pc b = s.progFault t b.cls pc (tilDetail pc b.source b.sub 0 0) := by
  rw [State.badInst, if_neg h]

/-! ### Loops and generators (R159, R162) -/

/-- A generator as P registers j to j+4 describe it, its walk at the start (R159). -/
theorem State.agLoad_eq (s : State) (t j : Nat) : s.agLoad t j =
    ⟨[s.preg t j % 2 ^ 16, s.preg t j / 2 ^ 16 % 2 ^ 16, s.preg t j / 2 ^ 32 % 2 ^ 16, s.preg t j / 2 ^ 48 % 2 ^ 16,
        s.preg t (j + 1) % 2 ^ 16, s.preg t (j + 1) / 2 ^ 16 % 2 ^ 16],
      [signedOf 32 (s.preg t (j + 2)), signedOf 32 (s.preg t (j + 2) / 2 ^ 32), signedOf 32 (s.preg t (j + 3)),
        signedOf 32 (s.preg t (j + 3) / 2 ^ 32), signedOf 32 (s.preg t (j + 4)), signedOf 32 (s.preg t (j + 4) / 2 ^ 32)],
      s.preg t (j + 1) / 2 ^ 53 % 2 ^ 11, s.preg t (j + 1) / 2 ^ 32 % 2 ^ 21, [0, 0, 0, 0, 0, 0], 0, 0⟩ := by
  simp [State.agLoad, bitsOf]

/-- Settles O9: LOOP and ENDL are the acts of their dispatch, a count of 0 one branch of LOOP's; the two faults of AGSET are the
checks that it adds to its encoding's. -/
theorem loopsAndGeneratorsLoad : Obligations.LoopsAndGeneratorsLoad := by
  refine ⟨fun sh n s => ⟨fun h k cnt hk hcnt => ?loop, ?endl⟩, fun sh n s px g hpx hg =>
    ⟨fun h => ?agset, fun hd hpc hopc hfe hbig => ?px, fun hd hpc hopc hfe hsmall hrun => ?run⟩⟩
  case loop =>
    refine (State.next_frontEnd h rfl).trans (congrArg _ ?_)
    simp only [← hk, ← hcnt]
    by_cases hzero : cnt = 0
    · simp only [hzero, if_true]
      rfl
    · simp only [hzero, if_false]
      rfl
  case endl =>
    rintro h k left rfl rfl
    exact State.next_frontEnd h rfl
  case agset =>
    subst hpx hg
    simp only [← State.agLoad_eq]
    exact State.next_frontEnd h rfl
  case px =>
    subst hpx
    refine congrArg _ ((State.frontEnd_of_bad (b := ⟨0x38, 2, 5⟩) hd hpc hopc _ ?_).trans (s.badInst_eq_progFault _ _ (by decide)))
    rw [firstBad_append, hfe]
    simp [firstBad, hbig]
  case run =>
    subst hpx
    have hrun0 : (s.agLoad (tix sh n) (s.inst (tix sh n)).px).run = 0 := (congrArg Ag.run (s.agLoad_eq _ _)).trans hrun
    refine congrArg _ ((State.frontEnd_of_bad (b := ⟨0x38, 3, 5⟩) hd hpc hopc _ ?_).trans (s.badInst_eq_progFault _ _ (by decide)))
    rw [firstBad_append, hfe]
    simp [firstBad, hrun0, Nat.not_lt.mpr hsmall]

/-! ### WAIT and SIGNAL (R157, R158) -/

theorem tix_div (sh : Fin 12) (n : Fin 64) : tix sh n / 64 = sh.val := by unfold tix; omega

theorem tix_mod (sh : Fin 12) (n : Fin 64) : tix sh n % 64 = n.val := by unfold tix; omega

theorem Tiller.signalEnters_iff (x : Tiller) (w : SigWait) : x.signalEnters w = true ↔
    (∀ i ∈ x.insts, i.id < w.id → (encOf i.word).dst ≠ 32 + w.q) ∧ (∀ v ∈ x.sigWait, v.q = w.q → w.id ≤ v.id) ∧
      egressBytes (Tbl.get [] x.egress w.q) + 32 ≤ 16384 := by
  simp [Tiller.signalEnters, Tiller.pushesBefore, Tiller.egressRoom, and_assoc]

/-- Settles O10: WAIT and SIGNAL are the acts of their dispatch, whose branches are the cases; a SIGNAL alone in its queue's line
is admitted by one round of `Tiller.admitSignals`. -/
theorem waitsAndSignals : Obligations.WaitsAndSignals := by
  refine ⟨fun sh n s vid th hvid hth h => ?wait,
    fun sh n s vid v q hvid hv hq h => ⟨fun hdst => ?here, fun hdst hgood hmode => ?queued⟩,
    fun x w => ⟨x.signalEnters_iff w, fun hone henters => ?enters, fun hone hwaits => ?waits⟩⟩
  case wait =>
    have hvid' : (s.inst (tix sh n)).imm % 65536 = vid := hvid.symm
    refine ⟨fun hzero => ?_, fun hth0 s1 s2 pid v hx hv hs2 => ?_, fun hth0 s1 cls pid hx => ?_⟩ <;>
      refine (State.next_frontEnd h rfl).trans (congrArg _ ?_)
    · simp only [hvid', ← hth, hzero, if_true]
    · simp only [hvid', ← hth, hth0, if_false, tix_div, hx, ← hv, ← hs2]
      rfl
    · simp only [hvid', ← hth, hth0, if_false, tix_div, tix_mod, hx]
  case here =>
    subst hq
    refine (State.next_frontEnd h rfl).trans (congrArg _ ?_)
    simp only [← hvid, ← hv, hdst, if_true, List.isEmpty_iff, tix_div]
  case queued =>
    subst hq
    refine (State.next_frontEnd h rfl).trans (congrArg _ ?_)
    simp only [← hvid, ← hv, hdst, hgood, hmode, if_false, Bool.false_or, beq_iff_eq]
  case enters => simp [Tiller.admitSignals, hone, henters, Tiller.push]
  case waits => simp [Tiller.admitSignals, hone, hwaits]

/-! ### Replays (R167, R168, R171) -/

theorem State.flag_congr {s t : State} {f : Fld} {i : Nat} (h : t.fld f i = s.fld f i) : t.flag f i = s.flag f i := by
  rw [State.flag, State.flag, h]

/-- A Tiller that takes a command: with nothing in flight, and empty queues and arrays. -/
def Tiller.given (x : Tiller) (j : Job) : Tiller := { x.clearQueues with job := some j, lastCtx := some j.ctx }

/-- Tiller t as a replay finds it, but for the registers. -/
def State.replayed (s : State) (t : Nat) (j : Job) : State := (s.setTil t ((s.til t).given j)).reloadAgs t

/-- The state in which a replay checks its breaks. -/
def State.readied (s : State) (t : Nat) (j : Job) : State := ((s.replayed t j).wrapAdd .TIL_CMD_COUNT_COUNT t 1).setPc t 0

/-- The fields that a break touches. -/
def breakFlds : List Fld := [.TIL_PROG_STATUS_STATE, .TIL_BRK_CTRL_ON_CMD, .TIL_BRK_CTRL_ON_TAG]

/-- A replay after its break check. -/
structure State.Begins (r u : State) (t c tag : Nat) : Prop where
  outside : u = { r with regs := u.regs }
  fld : ∀ f i, f ∉ breakFlds → u.fld f i = r.fld f i
  runs : r.breakHit t c tag = false → u.tstate t = 4
  stops : r.breakHit t c tag = true → u.tstate t = 6
  once : r.breakHit t c tag = true → r.flag .TIL_BRK_CTRL_ONCE t = true →
    u.flag .TIL_BRK_CTRL_ON_CMD t = false ∧ u.flag .TIL_BRK_CTRL_ON_TAG t = false

theorem State.startReplay_begins (s : State) (t : Nat) (j : Job) :
    (s.readied t j).Begins (s.startReplay t j) t j.ctx.toNat j.tag.toNat := by
  have honce : ((s.readied t j).setTstate t 6).flag .TIL_BRK_CTRL_ONCE t = (s.readied t j).flag .TIL_BRK_CTRL_ONCE t :=
    State.flag_setFld_of_ne _ _ _ _ (by decide)
  have hdef : s.startReplay t j =
      if (s.readied t j).breakHit t j.ctx.toNat j.tag.toNat then
        if (s.readied t j).flag .TIL_BRK_CTRL_ONCE t then
          (((s.readied t j).setTstate t 6).setFlag .TIL_BRK_CTRL_ON_CMD t false).setFlag .TIL_BRK_CTRL_ON_TAG t false
        else (s.readied t j).setTstate t 6
      else (s.readied t j).setTstate t 4 := by
    rw [← honce]
    rfl
  rw [hdef]
  generalize s.readied t j = r
  have hfld (u : State) (v : Nat) (h : ∀ f i, f ∉ breakFlds → u.fld f i = (r.setTstate t v).fld f i) (f : Fld) (i : Nat)
      (hf : f ∉ breakFlds) : u.fld f i = r.fld f i :=
    (h f i hf).trans (r.fld_setFld_of_ne _ _ _ (fun e => hf (e ▸ by decide)))
  cases hbreak : r.breakHit t j.ctx.toNat j.tag.toNat with
  | false =>
    exact ⟨rfl, hfld _ 4 fun _ _ _ => rfl, fun _ => r.fld_setFld_same _ _ _, by simp [hbreak], by simp [hbreak]⟩
  | true =>
    cases ho : r.flag .TIL_BRK_CTRL_ONCE t with
    | false =>
      exact ⟨rfl, hfld _ 6 fun _ _ _ => rfl, by simp [hbreak], fun _ => r.fld_setFld_same _ _ _, by simp [ho]⟩
    | true =>
      refine ⟨rfl, hfld _ 6 fun f i hf => ?_, by simp [hbreak], fun _ => ?_, fun _ _ => ⟨?_, ?_⟩⟩
      · simp only [breakFlds, List.mem_cons, List.not_mem_nil, or_false, not_or] at hf
        simp [State.setFlag, Ne.symm hf.2.1, Ne.symm hf.2.2]
      all_goals simp [State.setFlag, State.tstate, State.setTstate, State.flag]
      decide

theorem State.readied_til (s : State) (t : Nat) (j : Job) : (s.readied t j).til t =
    { (s.til t).clearQueues with
      job := some j, lastCtx := some j.ctx, loopCnt := [], loopHead := []
      ags := ((List.range 32).filter (fun q => bindWindow (s.binding t q))).foldl (fun d q =>
        Tbl.put d (bindAg (s.binding t q)) (s.agLoad t (bindPdesc (s.binding t q)))) []
      desc := ((List.range 32).filter (fun q => bindKind (s.binding t q) == 3 || bindKind (s.binding t q) == 4)).foldl
        (fun d q => Tbl.put d q (BitVec.ofNat 64 (s.preg t (bindPdesc (s.binding t q))))) [] } := by
  have hbind (q : Nat) : (s.setTil t ((s.til t).given j)).binding t q = s.binding t q := by
    rw [State.binding, State.til_setTil]
    rfl
  have hload (x : Tiller) (k : Nat) : (s.setTil t x).agLoad t k = s.agLoad t k := rfl
  have hpreg (x : Tiller) (k : Nat) : (s.setTil t x).preg t k = s.preg t k := rfl
  refine (State.til_setTil _ _ _).trans ?_
  simp only [State.til_setTil, hbind, hload, hpreg]
  rfl

theorem State.readied_til_ne (s : State) {t t' : Nat} (j : Job) (h : t' ≠ t) : (s.readied t j).til t' = s.til t' :=
  (State.til_setTil_ne _ _ h).trans (s.til_setTil_ne _ h)

theorem State.readied_fld (s : State) (t : Nat) (j : Job) {f : Fld} (i : Nat) (h : f ≠ .TIL_PROG_STATUS_PC) :
    (s.readied t j).fld f i = (s.wrapAdd .TIL_CMD_COUNT_COUNT t 1).fld f i := State.fld_setFld_of_ne _ _ _ _ h.symm

theorem State.readied_breakHit (s : State) (t : Nat) (j : Job) (c tag : Nat) :
    (s.readied t j).breakHit t c tag = (s.wrapAdd .TIL_CMD_COUNT_COUNT t 1).breakHit t c tag := by
  have hfld (f : Fld) (h : f ≠ .TIL_PROG_STATUS_PC) := s.readied_fld t j t h
  simp [State.breakHit, State.flag, hfld]

/-- Settles O11: a replay's start is the readied Tiller and its break check; END is the act of its dispatch. -/
theorem replaysStartAndEnd : Obligations.ReplaysStartAndEnd := by
  refine ⟨fun s s1 u t j hu hs1 => ?start, fun sh n s => ⟨?ends, ?holds, ?left, ?complete⟩⟩
  case start =>
    obtain ⟨hout, hfld, hruns, hstops, honce⟩ := s.startReplay_begins t j
    rw [← hu] at hout hfld hruns hstops honce
    have htil (k : Nat) : u.til k = (s.readied t j).til k := by rw [hout]; rfl
    have hfree (f : Fld) (i : Nat) (hf : f ∉ breakFlds) (hpc : f ≠ .TIL_PROG_STATUS_PC) :
        u.fld f i = (s.wrapAdd .TIL_CMD_COUNT_COUNT t 1).fld f i := (hfld f i hf).trans (s.readied_fld t j i hpc)
    rw [s.readied_breakHit, ← hs1] at hruns hstops honce
    have honceFlag : (s.readied t j).flag .TIL_BRK_CTRL_ONCE t = s.flag .TIL_BRK_CTRL_ONCE t :=
      (State.flag_congr (s.readied_fld t j t (by decide))).trans (s.flag_setFld_of_ne _ _ _ (by decide))
    rw [honceFlag] at honce
    have htilt := (htil t).trans (s.readied_til t j)
    refine ⟨(hfld _ _ (by decide)).trans (State.fld_setFld_same _ _ _ _), htilt, ?_, ?_, ?_, ?_, ?_, ?_, ?_, ?_, ?_, ?_, ?_, ?_,
      fun k => ?param, ?count, ?outside, fun t' ht => (htil t').trans (s.readied_til_ne j ht), hruns,
      fun hb => ⟨hstops hb, honce hb⟩⟩
    case param => exact (hfree _ _ (by decide) (by decide)).trans (s.fld_setFld_of_ne _ _ _ (by decide))
    case count => exact (hfree _ _ (by decide) (by decide)).trans (s.fld_setFld_same _ _ _)
    case outside => rw [hout]; rfl
    all_goals rw [htilt]; rfl
  case ends =>
    rintro h hidle hnone hdone s1 rfl
    exact (State.next_frontEnd h rfl).trans (congrArg _ (by simp [hidle, hnone, hdone]))
  case holds =>
    rintro h hwait
    refine (State.next_frontEnd h rfl).trans (congrArg _ ?_)
    rcases hwait with hbusy | ⟨hnone, hdone⟩
    · simp [hbusy]
    · simp [hnone, hdone]
  case left =>
    intro q h hidle hq
    refine (State.next_frontEnd h rfl).trans (congrArg _ ?_)
    simp [hidle, hq, s.badInst_eq_progFault]
  case complete =>
    rintro hready hpresent hended hidle hnone hdone j s1 hj rfl
    refine congrArg Host.Outcome.next ?_
    simp [State.doReplayComplete, hready, hpresent, hended, hidle, hnone, hdone, hj, State.jobDone, State.setTstate]

/-! ### LD, ST and MM (R150-R152) -/

/-- Settles O12: the acts of their dispatch. -/
theorem moversAndMatrixDispatch : Obligations.MoversAndMatrixDispatch := by
  refine fun sh n s => ⟨fun h => State.next_frontEnd h rfl, fun h => State.next_frontEnd h rfl, ?mm⟩
  rintro h s1 rfl
  exact State.next_frontEnd h rfl

end Sys2Proof.Machine
end

section
/-! PROOFS. The units of a Tiller: movers, matrix arrays and the control registers (R81-R102, R141-R152, R172-R178). -/

namespace Sys2Proof.Machine

/-! ### Control (R100, R172-R178) -/

theorem brkReg_unaudited (k : Nat) : (brkReg k).audited = false := by
  unfold brkReg
  split <;> decide

/-- GANG changes while no program runs, or keeps its value (R100). -/
theorem State.doGang_of_idle {s : State} {t : Nat} (h : s.tstate t < 2 ∨ 6 < s.tstate t) (g : Nat) (cmp : Bool) :
    s.doGang t g cmp = (s.rings.map (fun p => p.1)).foldl (fun u r => u.markReady r)
      ((s.setFld .TIL_MA_CTRL_GANG t g).setFlag .TIL_MA_CTRL_CMP t cmp) :=
  if_neg (by simp only [State.runsProgram, Bool.and_eq_true, decide_eq_true_eq]; omega)

theorem State.doGang_of_runs {s : State} {t : Nat} (h2 : 2 ≤ s.tstate t) (h6 : s.tstate t ≤ 6) (g : Nat) (cmp : Bool) :
    s.doGang t g cmp = if s.fld .TIL_MA_CTRL_GANG t = g ∧ s.flag .TIL_MA_CTRL_CMP t = cmp then s
      else s.setFlag .TIL_MA_STATUS_GANG_REFUSED t true := by
  simp [State.doGang, State.runsProgram, h2, h6]

/-- Settles O19: each command is one access to its register, and each clause a branch of the register's act. -/
theorem tillersObeyControl : Obligations.TillersObeyControl := by
  intro sh n s
  refine ⟨fun h => congrArg _ (State.access_of_answers h _), fun h => congrArg _ (State.access_of_answers h _),
    fun org g cmp h => ?gang, fun h => ?ctrl, fun k v h => ?param, fun org reg v h => ?brk, ?expired, ?running⟩
  case gang =>
    have hact : exec (.gangCmpWrite sh n org g cmp) s = .next (s.doGang (tix sh n) g.toNat cmp) :=
      congrArg _ (State.regCmd_plain h (by decide) _ _ _)
    refine ⟨fun hidle => ?_, fun h2 h6 hnew => ?_, fun h2 h6 hg hcmp => ?_⟩ <;> rw [hact]
    · rw [State.doGang_of_idle hidle]
    · rw [State.doGang_of_runs h2 h6, if_neg (by tauto)]
    · rw [State.doGang_of_runs h2 h6, if_pos ⟨hg, hcmp⟩]
  case ctrl =>
    have hhalt : exec (.halt sh n) s = .next (s.doHalt (tix sh n)) := congrArg _ (State.access_of_answers h _)
    have hstep : exec (.step sh n) s = .next (s.doStep (tix sh n)) := congrArg _ (State.access_of_answers h _)
    have hresume : exec (.resume sh n) s = .next (s.doResume (tix sh n)) := congrArg _ (State.access_of_answers h _)
    rw [hhalt, hstep, hresume]
    refine ⟨fun h4 => ?_, fun h5 => ?_, fun h6 => ⟨?_, ?_⟩, fun h6 => ⟨?_, ?_⟩⟩
    · simp [State.doHalt, h4, State.setTstate]
    · simp [State.doHalt, h5]
    · rw [State.doStep, if_pos h6]
    · rw [State.doResume, if_pos h6, State.setTstate]
    · rw [State.doStep, if_neg h6]
    · rw [State.doResume, if_neg h6]
  case param =>
    have hact : exec (.paramWrite sh n k v) s = .next (s.doParam (tix sh n) k.toNat v.toNat) :=
      congrArg _ (State.access_of_answers h _)
    rw [hact]
    exact ⟨fun hfree => congrArg _ (if_neg (by omega)), fun h2 h5 => congrArg _ (if_pos ⟨h2, h5⟩)⟩
  case brk => exact congrArg _ (State.regCmd_plain h (brkReg_unaudited _) _ _ _)
  case expired =>
    intro hruns hlimit hover hheld
    refine congrArg _ (if_pos ?_)
    simp [hruns, hheld, State.wdogOver, State.flag, hlimit, hover]
  case running =>
    intro hunder
    refine congrArg _ (if_neg ?_)
    have hover : s.wdogOver (tix sh n) = false := by
      rcases hunder with h0 | hlt
      · simp [State.wdogOver, State.flag, h0]
      · simp [State.wdogOver, Nat.not_le.mpr hlt]
    simp [hover]

/-! ### Movers (R141-R152) -/

/-- Settles O15: each clause is the branch of the mover's step that its conditions choose. -/
theorem unitsMove : Obligations.UnitsMove := by
  rintro sh n s i e rfl
  refine ⟨?moves, fun q hi hgood hroom => ?full, ?stores, fun hi hgood hnone => ?empty⟩
  case moves =>
    rintro q offs g _ _ k skip hi hgood hroom hk hskip hag rfl rfl
    refine congrArg Host.Outcome.next ?_
    have hpeek : peekSkip (encOf i.word) i k = skip := hskip.symm
    simp only [State.doLdUnit, moverUnit, hi, hgood, hroom, ← hk, hpeek, hag, Bool.not_true, Bool.false_eq_true, if_false]
    rfl
  case full =>
    refine congrArg Host.Outcome.next ?_
    simp [State.doLdUnit, moverUnit, hi, hgood, hroom]
  case stores =>
    intro bytes x offs g hi hgood hsrc hag
    refine congrArg Host.Outcome.next ?_
    simp [State.doStUnit, storeMover, hi, hgood, hsrc, hag]
  case empty =>
    refine congrArg Host.Outcome.next ?_
    simp [State.doStUnit, storeMover, hi, hgood, hnone]

/-! ### Integer sums (R56, R59, R70) -/

theorem ofNat_wrapInt (w : Nat) (v : Int) : BitVec.ofNat w (wrapInt w v) = BitVec.ofInt w v := by
  have hpos : (0 : Int) < ((2 ^ w : Nat) : Int) := by positivity
  have hlt : wrapInt w v < 2 ^ w := (Int.toNat_lt (Int.emod_nonneg _ hpos.ne')).mpr (Int.emod_lt_of_pos _ hpos)
  apply BitVec.eq_of_toNat_eq
  rw [BitVec.toNat_ofNat, Nat.mod_eq_of_lt hlt, BitVec.toNat_ofInt, wrapInt]

/-- A sum within W64 is exact. -/
theorem w64Add_within {a b : Word} (hlo : -(2 ^ 63 - 1) ≤ a.toInt + b.toInt) (hhi : a.toInt + b.toInt ≤ 2 ^ 63 - 1) :
    w64Add a b = (BitVec.ofInt 64 (a.toInt + b.toInt), false) := by
  simp only [w64Add, if_neg (not_lt.mpr hhi), if_neg (not_lt.mpr hlo)]

theorem w64Add_above {a b : Word} (h : 2 ^ 63 - 1 < a.toInt + b.toInt) : w64Add a b = (BitVec.ofInt 64 (2 ^ 63 - 1), true) := by
  simp only [w64Add, if_pos h]

theorem w64Add_below {a b : Word} (h : a.toInt + b.toInt < -(2 ^ 63 - 1)) :
    w64Add a b = (BitVec.ofInt 64 (-(2 ^ 63 - 1)), true) := by
  simp only [w64Add, if_neg (show ¬(2 ^ 63 - 1 < a.toInt + b.toInt) by omega), if_pos h]

theorem toInt_ofInt_64 {v : Int} (hlo : -(2 ^ 63) ≤ v) (hhi : v < 2 ^ 63) : (BitVec.ofInt 64 v).toInt = v := by
  rw [BitVec.toInt_ofInt]
  exact Int.bmod_eq_of_le (by omega) (by omega)

/-- Settles O18: the three ranges of a sum are the three branches of `w64Add`. -/
theorem integerSumsSaturate : Obligations.IntegerSumsSaturate := by
  refine ⟨fun acts ws => congrArg BitVec.toInt (ofNat_wrapInt 64 _), fun a b hlo hhi => ?_, fun a b h => ?_,
    fun a b h => ?_⟩
  · rw [w64Add_within hlo hhi]
    exact ⟨toInt_ofInt_64 (by omega) (by omega), rfl⟩
  · rw [w64Add_above h]
    exact ⟨by decide, rfl⟩
  · rw [w64Add_below h]
    exact ⟨by decide, rfl⟩

/-! ### Accumulation and drains (R81, R89, R93) -/

theorem AccBuf.poisonRows_none (b : AccBuf) : b.poisonRows .none = b := by
  simp [AccBuf.poisonRows, BadRows.has]

/-- Settles O17: without an error, accumulation and drain are the acts of their commands on the buffer itself. -/
theorem passesAccumulateAndDrain : Obligations.PassesAccumulateAndDrain := by
  refine fun sh n a s => ⟨fun p rest hrun hpipe => congrArg Host.Outcome.next ?_, ?drain, fun hrun hpipe => congrArg Host.Outcome.next ?_,
    fun hnone => congrArg Host.Outcome.next ?_⟩
  · simp only [State.doAccumulate, hrun, hpipe, State.arrayErr, if_true]
  case drain =>
    rintro b buf hrun hfirst rfl hgang hroom hport
    refine congrArg Host.Outcome.next ?_
    have hwait : ¬((s.til (tix sh n)).tileHead + 8 ≤ ((s.til (tix sh n)).acc a.val b).tile ∨
        2 ≤ (s.til (tix sh n)).drainsBefore ((s.til (tix sh n)).acc a.val b).tile) := by omega
    simp [State.doDrain, hrun, hfirst, hgang, gangArrays, hwait, State.arrayErr, AccBuf.poisonRows_none, State.drainInto]
    rfl
  · simp [State.doAccumulate, hpipe]
  · simp [State.doDrain, hnone]

end Sys2Proof.Machine
end

section
/-! PROOFS. A pass issues on the arrays of its gang (R87, R102, R151). -/

namespace Sys2Proof.Machine

/-! ### The weights of an array -/

theorem Tbl.get_eq_find? {α : Type} (d : α) (t : Table α) (k : Nat) :
    Tbl.get d t k = ((t.find? (fun p => p.1 == k)).map Prod.snd).getD d := by
  induction t with
  | nil => rfl
  | cons p t ih =>
    obtain ⟨j, v⟩ := p
    by_cases h : k = j
    · simp [Tbl.get, h]
    · simp [Tbl.get, h, ih, Ne.symm h]

/-- What an array holds before any block is loaded (R86). -/
def zeroBlock : WBlock := plainBlock 0 zeroWeights

theorem Tiller.weights_eq (x : Tiller) (a : Nat) : x.weights a = (Tbl.get zeroBlock x.active a).elems := by
  rw [Tbl.get_eq_find?, Tiller.weights]
  split
  · simp [*]
  · simp [*, zeroBlock, plainBlock]

/-! ### One array of the gang at a time -/

/-- y has array k as x has it: its pipe, its loader and its active block. -/
structure Tiller.SameArray (x y : Tiller) (k : Nat) : Prop where
  pipe : y.pipe k = x.pipe k
  loader : y.loader k = x.loader k
  active : Tbl.get zeroBlock y.active k = Tbl.get zeroBlock x.active k

theorem Tiller.SameArray.refl (x : Tiller) (k : Nat) : x.SameArray x k := ⟨rfl, rfl, rfl⟩

theorem Tiller.SameArray.trans {x y z : Tiller} {k : Nat} (h : x.SameArray y k) (h' : y.SameArray z k) : x.SameArray z k :=
  ⟨h'.pipe.trans h.pipe, h'.loader.trans h.loader, h'.active.trans h.active⟩

/-- The block that the front of a pass makes active: a WS block decoded for its group (R83). -/
def WBlock.decoded (b : WBlock) (g : Nat) : WBlock :=
  if b.ws then { b with elems := wsOperands b.fmt.toNat g b.side b.head, ws := false, head := [], side := [] } else b

theorem Tiller.front_of_none {x : Tiller} {a : Nat} (h : (x.loader a).shadow = none) (g : Nat) : x.front a g = x := by
  simp only [Tiller.front, h]

theorem Tiller.front_of_some {x : Tiller} {a : Nat} {b : WBlock} (h : (x.loader a).shadow = some b) (g : Nat) :
    x.front a g = ({ x with active := Tbl.put x.active a (b.decoded g) } : Tiller).setLoader a
      { x.loader a with shadow := (x.loader a).held, held := none } := by
  simp only [Tiller.front, h, WBlock.decoded]

theorem Tiller.front_other (x : Tiller) {a k : Nat} (h : k ≠ a) (g : Nat) : x.SameArray (x.front a g) k := by
  cases hs : (x.loader a).shadow with
  | none => rw [Tiller.front_of_none hs]; exact .refl x k
  | some b =>
    rw [Tiller.front_of_some hs]
    exact ⟨rfl, Tbl.get_put_ne _ _ _ _ _ h, Tbl.get_put_ne _ _ _ _ _ h⟩

/-- What the front leaves as it was. -/
theorem Tiller.front_rest (x : Tiller) (a g : Nat) : (x.front a g).pipes = x.pipes ∧ (x.front a g).insts = x.insts := by
  cases hs : (x.loader a).shadow with
  | none => rw [Tiller.front_of_none hs]; exact ⟨rfl, rfl⟩
  | some b => rw [Tiller.front_of_some hs]; exact ⟨rfl, rfl⟩

/-- The weights behind the front depend on their own array only. -/
theorem Tiller.SameArray.front_weights {x y : Tiller} {k : Nat} (h : x.SameArray y k) (g : Nat) :
    (y.front k g).weights k = (x.front k g).weights k := by
  rw [Tiller.weights_eq, Tiller.weights_eq]
  cases hs : (x.loader k).shadow with
  | none =>
    rw [Tiller.front_of_none hs, Tiller.front_of_none (h.loader ▸ hs), h.active]
  | some b =>
    rw [Tiller.front_of_some hs, Tiller.front_of_some (h.loader ▸ hs)]
    simp only [Tiller.setLoader, Tbl.get_put_same]

theorem Tiller.SameArray.weights {x y : Tiller} {k : Nat} (h : x.SameArray y k) : y.weights k = x.weights k := by
  rw [Tiller.weights_eq, Tiller.weights_eq, h.active]

/-! ### A pass starts -/

section
variable (e : Enc) (i : Inst) (pos : PassPos) (slot : FeedSlot)

/-- The Tiller whose array a multiplies: a front has passed unless the pass keeps the block (R82, R151). -/
def Tiller.fronted (x : Tiller) (a : Nat) : Tiller := if mmReuse e then x else x.front a pos.g

theorem Tiller.fronted_other (x : Tiller) {a k : Nat} (h : k ≠ a) : x.SameArray (x.fronted e pos a) k := by
  unfold Tiller.fronted
  split
  · exact .refl x k
  · exact x.front_other h pos.g

theorem Tiller.fronted_rest (x : Tiller) (a : Nat) :
    (x.fronted e pos a).pipes = x.pipes ∧ (x.fronted e pos a).insts = x.insts := by
  unfold Tiller.fronted
  split
  · exact ⟨rfl, rfl⟩
  · exact x.front_rest a pos.g

theorem Tiller.SameArray.fronted_weights {x y : Tiller} {k : Nat} (h : x.SameArray y k) :
    (y.fronted e pos k).weights k = (x.fronted e pos k).weights k := by
  unfold Tiller.fronted
  split
  · exact h.weights
  · exact h.front_weights pos.g

/-- The pass of instruction i on array k of x. -/
def Tiller.newPass (x : Tiller) (k tileNo : Nat) : PassInPipe :=
  { inst := i.id, acc := pos.acc, w64 := mmW64 e, first := pos.first, drain := pos.drain, tile := tileNo
    rowBase := pos.rowBase, rows := mmM e, g := pos.g
    results := passElems (wideFmt (mmAfmt e) || wideFmt (mmWfmt e)) (mmW64 e) (mmM e) slot.elems
      ((x.fronted e pos k).weights k) }

/-- Marking no row leaves the results as they are. -/
theorem BadRows.mark_none (l : List TElem) (f : Nat → Nat) :
    (l.zip (List.range l.length)).map (fun p => if BadRows.none.has (f p.2) then { p.1 with poison := true } else p.1) = l := by
  have hmap : (fun p : TElem × Nat => if BadRows.none.has (f p.2) then { p.1 with poison := true } else p.1) = Prod.fst :=
    funext fun p => if_neg Bool.false_ne_true
  rw [hmap, List.map_fst_zip (by simp)]

/-- What a pass without an error writes. -/
theorem Tiller.startPass_eq (x : Tiller) (a tileNo : Nat) : x.startPass e i pos slot a tileNo .none =
    { x.fronted e pos a with
      pipes := Tbl.put (x.fronted e pos a).pipes a ((x.fronted e pos a).pipe a ++ [x.newPass e i pos slot a tileNo])
      accs := Tbl.put (x.fronted e pos a).accs (accKey a pos.acc)
        { (x.fronted e pos a).acc a pos.acc with g := some pos.g }
      lastPass := Tbl.put (x.fronted e pos a).lastPass a (streamCycles (mmAfmt e) (mmWfmt e) (mmM e)) } := by
  simp only [Tiller.startPass, Tiller.setPipe, Tiller.setAcc, Tiller.newPass, Tiller.fronted, Tiller.pipe]
  rw [BadRows.mark_none _ (fun j => pos.rowBase + j / 64)]

theorem Tiller.startPass_other (x : Tiller) {a k : Nat} (h : k ≠ a) (tileNo : Nat) :
    x.SameArray (x.startPass e i pos slot a tileNo .none) k := by
  rw [Tiller.startPass_eq]
  exact (x.fronted_other e pos h).trans ⟨Tbl.get_put_ne _ _ _ _ _ h, rfl, rfl⟩

theorem Tiller.startPass_insts (x : Tiller) (a tileNo : Nat) : (x.startPass e i pos slot a tileNo .none).insts = x.insts := by
  rw [Tiller.startPass_eq]
  exact (x.fronted_rest e pos a).2

theorem Tiller.startPass_pipe (x : Tiller) (k tileNo : Nat) :
    (x.startPass e i pos slot k tileNo .none).pipe k = x.pipe k ++ [x.newPass e i pos slot k tileNo] := by
  have hpipe : (x.fronted e pos k).pipe k = x.pipe k := congrArg (Tbl.get [] · k) (x.fronted_rest e pos k).1
  rw [Tiller.startPass_eq, ← hpipe]
  exact Tbl.get_put_same ..

/-- The arrays of a gang start their passes one after the other. -/
def Tiller.startAll (tileNo : Nat → Nat) (x : Tiller) (l : List (Nat × Nat)) : Tiller :=
  l.foldl (fun y p => y.startPass e i pos slot p.1 (tileNo p.2) .none) x

theorem Tiller.startAll_insts (tileNo : Nat → Nat) (x : Tiller) (l : List (Nat × Nat)) :
    (x.startAll e i pos slot tileNo l).insts = x.insts := by
  induction l generalizing x with
  | nil => rfl
  | cons p l ih => exact (ih _).trans (x.startPass_insts e i pos slot p.1 _)

theorem Tiller.startAll_other (tileNo : Nat → Nat) (x : Tiller) {k : Nat} {l : List (Nat × Nat)}
    (h : k ∉ l.map Prod.fst) : x.SameArray (x.startAll e i pos slot tileNo l) k := by
  induction l generalizing x with
  | nil => exact .refl x k
  | cons p l ih =>
    simp only [List.map_cons, List.mem_cons, not_or] at h
    exact (x.startPass_other e i pos slot h.1 _).trans (ih _ h.2)

theorem Tiller.startAll_pipe (tileNo : Nat → Nat) (x : Tiller) {k : Nat} {l : List (Nat × Nat)}
    (hl : (l.map Prod.fst).Nodup) (hk : k ∈ l.map Prod.fst) :
    ∃ no, (x.startAll e i pos slot tileNo l).pipe k = x.pipe k ++ [x.newPass e i pos slot k no] := by
  induction l generalizing x with
  | nil => exact absurd hk List.not_mem_nil
  | cons q l ih =>
    simp only [List.map_cons, List.nodup_cons] at hl
    by_cases hq : k = q.1
    · subst hq
      exact ⟨_, (Tiller.startAll_other e i pos slot tileNo _ hl.1).pipe.trans (x.startPass_pipe e i pos slot q.1 _)⟩
    · have hsame := x.startPass_other e i pos slot hq (tileNo q.2)
      obtain ⟨no, hno⟩ := ih (x.startPass e i pos slot q.1 (tileNo q.2) .none) hl.2 (by simpa [hq] using hk)
      rw [hsame.pipe, Tiller.newPass, hsame.fronted_weights] at hno
      exact ⟨no, hno⟩

end

/-! ### The feeder behind a pass -/

/-- y differs from x at most in feeders and loaders. -/
def Tiller.SamePasses (x y : Tiller) : Prop := y.pipes = x.pipes ∧ y.insts = x.insts

theorem Tiller.SamePasses.trans {x y z : Tiller} (h : x.SamePasses y) (k : y.SamePasses z) : x.SamePasses z :=
  ⟨k.1.trans h.1, k.2.trans h.2⟩

theorem Tiller.samePasses_foldl {α : Type} {f : Tiller → α → Tiller} (hf : ∀ (y : Tiller) a, y.SamePasses (f y a)) (x : Tiller) (l : List α) :
    x.SamePasses (l.foldl f x) := by
  induction l generalizing x with
  | nil => exact ⟨rfl, rfl⟩
  | cons a l ih => exact (hf x a).trans (ih (f x a))

theorem Tiller.mergeAll_samePasses (x : Tiller) (arrs : List Nat) : x.SamePasses (x.mergeAll arrs) :=
  Tiller.samePasses_foldl (by intro _ _; exact ⟨rfl, rfl⟩) _ arrs

theorem Tiller.takeTail_samePasses (x : Tiller) (lead : Nat) (arrs : List Nat) : x.SamePasses (x.takeTail lead arrs) := by
  unfold Tiller.takeTail
  split
  · split
    · exact Tiller.SamePasses.trans (y := x.setFeeder lead _) ⟨rfl, rfl⟩ (Tiller.samePasses_foldl (by intro _ _; exact ⟨rfl, rfl⟩) _ arrs)
    · exact ⟨rfl, rfl⟩
  · exact ⟨rfl, rfl⟩

theorem Tiller.settle_samePasses (x : Tiller) (gang a : Nat) : x.SamePasses (x.settle gang a) :=
  ((((x.mergeAll_samePasses _).trans (Tiller.takeTail_samePasses _ _ _)).trans (Tiller.mergeAll_samePasses _ _)).trans
    (Tiller.takeTail_samePasses _ _ _)).trans (Tiller.mergeAll_samePasses _ _)

theorem Tiller.popSlot_samePasses (x : Tiller) (e : Enc) (last : Bool) (slot : FeedSlot) (arrs : List Nat) :
    x.SamePasses (x.popSlot e last slot arrs) := by
  have hpop : x.SamePasses (if opKind e.a = 2 && last then
      x.setFeeder (mmArr e) ({ slot with kept := true, tail := none } :: (x.feeder (mmArr e)).drop 1)
    else x.setFeeder (mmArr e) ((x.feeder (mmArr e)).drop 1)) := by split <;> exact ⟨rfl, rfl⟩
  unfold Tiller.popSlot
  dsimp only
  split
  · exact hpop.trans (Tiller.samePasses_foldl (by intro _ _; exact ⟨rfl, rfl⟩) _ arrs)
  · exact hpop

theorem gangArrays_nodup (g a : Nat) : (gangArrays g a).Nodup := by
  unfold gangArrays
  split
  · split <;> decide
  · decide
  · exact List.nodup_singleton a

/-! ### The command -/

/-- The Tiller after a pass without an error. -/
def State.passTiller (s : State) (t a : Nat) (i : Inst) (slot : FeedSlot) : Tiller :=
  let e := encOf i.word
  let arrs := gangArrays (s.gang t) a
  (((s.til t).startAll e i (passPos e i.done) slot
    (fun k => i.tile + s.tileOffset t arrs (passPos e i.done).bufNo k) (arrs.zip (List.range arrs.length))).popSlot e
      (i.done + 1 == i.steps) slot arrs).settle (s.gang t) a

theorem State.passTiller_insts (s : State) (t a : Nat) (i : Inst) (slot : FeedSlot) :
    (s.passTiller t a i slot).insts = (s.til t).insts := by
  unfold State.passTiller
  exact ((Tiller.settle_samePasses _ _ _).2.trans (Tiller.popSlot_samePasses _ _ _ _ _).2).trans
    (Tiller.startAll_insts _ _ _ _ _ _ _)

theorem State.passTiller_pipe (s : State) (t a : Nat) (i : Inst) (slot : FeedSlot) {k : Nat}
    (hk : k ∈ gangArrays (s.gang t) a) : ∃ no, (s.passTiller t a i slot).pipe k =
      (s.til t).pipe k ++ [(s.til t).newPass (encOf i.word) i (passPos (encOf i.word) i.done) slot k no] := by
  have hfst : ((gangArrays (s.gang t) a).zip (List.range (gangArrays (s.gang t) a).length)).map Prod.fst =
      gangArrays (s.gang t) a := List.map_fst_zip (by simp)
  obtain ⟨no, hno⟩ := (s.til t).startAll_pipe (encOf i.word) i (passPos (encOf i.word) i.done) slot
    (fun k => i.tile + s.tileOffset t (gangArrays (s.gang t) a) (passPos (encOf i.word) i.done).bufNo k)
    (hfst ▸ gangArrays_nodup _ _) (hfst ▸ hk)
  refine ⟨no, Eq.trans (congrArg (fun l => Tbl.get [] l k) ?_) hno⟩
  exact (Tiller.settle_samePasses _ (s.gang t) a).1.trans (Tiller.popSlot_samePasses _ _ _ slot _).1

theorem State.sameRegs.count {s u : State} {l : List (Fld × Nat)} (h : s.sameRegs u l) (k n : Nat) : s.sameRegs (u.count k n) l := h

/-- What a pass counts (R85, R543). -/
def State.passCount (s : State) (t stall macs : Nat) : State :=
  ((s.satAdd .TIL_MA_FRONT_STALL_CYCLES t stall).satAdd .TIL_OBS_MAC_MACS t macs).count (tcKey t 16) macs

theorem State.passCount_sameRegs (s : State) (t stall macs : Nat) : s.sameRegs (s.passCount t stall macs)
    [(.TIL_MA_FRONT_STALL_CYCLES, t), (.TIL_OBS_MAC_MACS, t)] := by
  unfold State.passCount
  exact ((s.sameRegs_satAdd stall (by simp)).trans (State.sameRegs_satAdd _ macs (by simp))).count _ _

theorem State.passCount_macs (s : State) (t stall macs : Nat) :
    (s.passCount t stall macs).fld .TIL_OBS_MAC_MACS t = min (s.fld .TIL_OBS_MAC_MACS t + macs) (2 ^ 64 - 1) := by
  have hcut (v : Nat) : min v (2 ^ 64 - 1) % 2 ^ 64 = min v (2 ^ 64 - 1) := Nat.mod_eq_of_lt (by omega)
  have hwidth : Fld.TIL_OBS_MAC_MACS.width = 64 := rfl
  simp only [State.passCount, State.count_fld, State.satAdd, State.fld_setFld_same, hwidth, hcut]
  rw [State.fld_setFld_of_ne _ _ _ _ (by decide)]

@[simp] theorem State.passCount_til (s : State) (t stall macs k : Nat) : (s.passCount t stall macs).til k = s.til k := rfl

@[simp] theorem State.stepped_til (s : State) (t : Nat) : (s.stepped t).til t = { s.til t with wdog := 0 } := s.til_setTil t _

theorem State.stepped_til_ne (s : State) {t k : Nat} (h : k ≠ t) : (s.stepped t).til k = s.til k := s.til_setTil_ne _ h

@[simp] theorem State.setInst_til (s : State) (t : Nat) (i : Inst) : (s.setInst t i).til t =
    { s.til t with insts := (s.til t).insts.map (fun j => if j.id == i.id then i else j) } := s.til_setTil t _

theorem State.setInst_til_ne (s : State) {t k : Nat} (i : Inst) (h : k ≠ t) : (s.setInst t i).til k = s.til k :=
  s.til_setTil_ne _ h

/-- Tiller t holds x, and instruction i of it has performed one step more. -/
def State.passDone (s : State) (t : Nat) (i : Inst) (x : Tiller) : State :=
  ((s.setTil t x).setInst t { i with done := i.done + 1 }).stepped t

theorem State.passDone_outside (s : State) (t : Nat) (i : Inst) (x : Tiller) :
    s.passDone t i x = { s with tillers := (s.passDone t i x).tillers } := rfl

theorem State.passDone_til (s : State) (t : Nat) (i : Inst) (x : Tiller) : (s.passDone t i x).til t =
    { x with insts := x.insts.map (fun j => if j.id == i.id then { i with done := i.done + 1 } else j), wdog := 0 } := by
  rw [State.passDone, State.stepped_til, State.setInst_til, State.til_setTil]

theorem State.passDone_til_ne (s : State) {t k : Nat} (i : Inst) (x : Tiller) (h : k ≠ t) : (s.passDone t i x).til k = s.til k := by
  rw [State.passDone, State.stepped_til_ne _ h, State.setInst_til_ne _ _ h, State.til_setTil_ne _ _ h]

theorem State.passDone_fld (s : State) (t : Nat) (i : Inst) (x : Tiller) (f : Fld) (k : Nat) :
    (s.passDone t i x).fld f k = s.fld f k := rfl

theorem State.passCount_outside (s : State) (t stall macs : Nat) : s.passCount t stall macs =
    { s with regs := (s.passCount t stall macs).regs, obs := (s.passCount t stall macs).obs } := rfl

/-- Without an error a pass that is ready and passes its checks is one new Tiller and two counters. -/
theorem State.doPass_issues {s : State} {t a : Nat} {i : Inst} {slot : FeedSlot} {rest : List FeedSlot}
    (hi : s.unitStep t (gangLead (s.gang t) a) = some i) (hslot : (s.til t).feeder (gangLead (s.gang t) a) = slot :: rest)
    (hclash : (s.til t).tailClash (gangArrays (s.gang t) a) = none)
    (hready : (s.til t).passReady (encOf i.word) (passPos (encOf i.word) i.done) slot (gangArrays (s.gang t) a) = true)
    (hgood : s.passBad t (encOf i.word) (passPos (encOf i.word) i.done) slot (gangArrays (s.gang t) a) = none) :
    s.doPass t a .none = (s.passDone t i (s.passTiller t a i slot)).passCount t
      ((s.til t).frontStall (encOf i.word) (gangArrays (s.gang t) a))
      (mmM (encOf i.word) * 2048 * (gangArrays (s.gang t) a).length) := by
  simp only [State.doPass, hi, hslot, hclash, hready, hgood, State.arrayErr, ite_self]
  rfl

/-- Settles O16: every array's pipe gains its own pass, whatever the other arrays of the gang do before and after it. -/
theorem passesIssue : Obligations.PassesIssue := by
  rintro sh n a s i e slot rest arrs rfl rfl hi hslot hclash hready hgood
  refine ⟨_, congrArg Host.Outcome.next (State.doPass_issues hi hslot hclash hready hgood), fun k hk => ?pipe, ?insts, ?outside,
    ?regs, ?macs, fun t' ht => ?other⟩
  case pipe =>
    obtain ⟨no, hno⟩ := s.passTiller_pipe (tix sh n) a.val i slot hk
    refine ⟨(s.til (tix sh n)).newPass (encOf i.word) i (passPos (encOf i.word) i.done) slot k no, ?_, rfl, rfl, rfl⟩
    rw [State.passCount_til, State.passDone_til]
    exact hno
  case insts => rw [State.passCount_til, State.passDone_til, State.passTiller_insts]
  case outside => rw [State.passCount_outside, State.passDone_outside]
  case regs =>
    intro f k hf
    rw [State.passCount_sameRegs _ _ _ _ f k hf, State.passDone_fld]
  case macs => rw [State.passCount_macs, State.passDone_fld]
  case other => rw [State.passCount_til, State.passDone_til_ne _ _ _ ht]

end Sys2Proof.Machine
end

section
/-! PROOFS. Memory: the address map (R10, R12, R393), writes that read back (R13, R234, R248) and Millet additions (R241, R243). -/

namespace Sys2Proof.Machine

/-! ### The address map -/

/-- An address in the window of a Tiller's store, cut into Sheaf, Tiller and offset. -/
theorem State.region_tillerWindow (s : State) (sh : Fin 12) (n : Fin 64) (off : Nat) (h : off < 2 ^ 24) :
    s.region (0x100000000000 + sh.val * 2 ^ 32 + n.val * 2 ^ 24 + off) =
      if off < 0x200000 ∧ Tbl.get false s.absent (tix sh n) = false ∧ s.flag .MGT_DET_DUMAP_HI_FENCED sh.val = false
      then .store (tix sh n) off else .hole := by
  have hsh := sh.isLt
  have hn := n.isLt
  have hoff : 0x100000000000 + sh.val * 2 ^ 32 + n.val * 2 ^ 24 + off - 0x100000000000 =
      sh.val * 2 ^ 32 + n.val * 2 ^ 24 + off := by omega
  have hsheaf : (sh.val * 2 ^ 32 + n.val * 2 ^ 24 + off) / 2 ^ 32 = sh.val := by omega
  have htil : (sh.val * 2 ^ 32 + n.val * 2 ^ 24 + off) / 2 ^ 24 % 256 = n.val := by omega
  have hrest : (sh.val * 2 ^ 32 + n.val * 2 ^ 24 + off) % 2 ^ 24 = off := by omega
  unfold State.region
  rw [if_neg (by omega), if_pos (by omega)]
  simp only [hoff, hsheaf, htil, hrest, hn, true_and, Bool.not_eq_true', tix]
  exact if_congr Iff.rfl rfl rfl

/-- Settles O32: each range of the map is one branch of `region`. -/
theorem addressMapPlaces : Obligations.AddressMapPlaces := by
  refine ⟨fun s a h => if_pos h, fun s sh n off hoff hhere hfence => ?_, fun s sh n off hoff hout => ?_,
    fun s t off ht hoff => ?_, fun s off hcap hoff => ?_, fun s off hoff => ?_, fun s a hlow hhigh => ?_,
    fun s w a h => by rw [State.accClass, h], fun s w a off h hfar => by rw [State.accClass, h]; simp [hfar]⟩
  · rw [s.region_tillerWindow sh n off (by omega), if_pos ⟨hoff, hhere, hfence⟩]
  · rw [s.region_tillerWindow sh n off hoff, if_neg]
    rintro ⟨hin, hhere, hfence⟩
    rcases hout with h | h | h
    · simp [hhere] at h
    · simp [hfence] at h
    · omega
  · have htile : (0x200000000000 + t * 0x8000000 + off - 0x200000000000) / 0x8000000 = t := by omega
    have hrest : (0x200000000000 + t * 0x8000000 + off - 0x200000000000) % 0x8000000 = off := by omega
    unfold State.region
    rw [if_neg (by omega), if_neg (by omega), if_pos (by omega), htile, hrest]
  · have hfar : 0x400000000000 + off - 0x400000000000 = off := by omega
    unfold State.region
    rw [if_neg (by omega), if_neg (by omega), if_neg (by omega), if_pos (by omega), hfar, if_pos hcap]
  · have hhost : 0x800000000000 + off - 0x800000000000 = off := by omega
    unfold State.region
    rw [if_neg (by omega), if_neg (by omega), if_neg (by omega), if_neg (by omega), if_pos (by omega), hhost]
  · unfold State.region
    rw [if_neg (by omega), if_neg (by omega), if_neg (by omega), if_neg (by omega), if_neg (by omega)]

/-! ### Steps that give records -/

/-- What every step of a list keeps, `gather` keeps. -/
theorem gather_same {α β : Type} {f : State → α → State × List ErrRec} {g : State → β}
    (hf : ∀ s x, g (f s x).1 = g s) (l : List α) (s : State) : g (gather f s l).1 = g s := by
  suffices h : ∀ p : State × List ErrRec,
      g (l.foldl (fun p x => ((f p.1 x).1, p.2 ++ (f p.1 x).2)) p).1 = g p.1 from h (s, [])
  induction l with
  | nil => exact fun p => rfl
  | cons x l ih => exact fun p => (ih _).trans (hf p.1 x)

/-- A relation to the start that every step keeps without a record holds at the end, without a record. -/
theorem gather_silent {α : Type} {f : State → α → State × List ErrRec} {P : State → Prop} (l : List α)
    (hf : ∀ s, ∀ x ∈ l, P s → P (f s x).1 ∧ (f s x).2 = []) (s : State) (hs : P s) :
    P (gather f s l).1 ∧ (gather f s l).2 = [] := by
  suffices h : ∀ p : State × List ErrRec, P p.1 → p.2 = [] →
      P (l.foldl (fun p x => ((f p.1 x).1, p.2 ++ (f p.1 x).2)) p).1 ∧
        (l.foldl (fun p x => ((f p.1 x).1, p.2 ++ (f p.1 x).2)) p).2 = [] from h (s, []) hs rfl
  induction l with
  | nil => exact fun p hp hr => ⟨hp, hr⟩
  | cons x l ih =>
    intro p hp hr
    obtain ⟨hstep, hnone⟩ := hf p.1 x (List.mem_cons_self ..) hp
    exact ih (fun s y hy => hf s y (List.mem_cons_of_mem _ hy)) _ hstep (by simp only [hr, hnone, List.append_nil])

/-! ### A write leaves the bytes it does not write -/

theorem State.rowCe_mem (s : State) (w : Accessor) (a : Nat) (wr scrub : Bool) : (s.rowCe w a wr scrub).1.mem = s.mem := by
  unfold State.rowCe
  dsimp only
  split
  · split <;> rfl
  · rfl

theorem State.wordLost_mem (s : State) (w : Accessor) (a : Nat) (wr scrub : Bool) :
    (s.wordLost w a wr scrub).1.mem = s.mem := by
  unfold State.wordLost
  split <;> rfl

theorem State.wordFixed_mem (s : State) (w : Accessor) (a : Nat) (wr scrub : Bool) :
    (s.wordFixed w a wr scrub).1.mem = s.mem := by
  unfold State.wordFixed
  split
  · exact State.rowCe_mem _ w a wr scrub
  all_goals rfl

theorem State.farPoison_mem (s : State) (w : Accessor) (a : Nat) : (s.farPoison w a).1.mem = s.mem := by
  unfold State.farPoison
  split <;> rfl

theorem State.checkWord_mem (s : State) (w : Accessor) (a : Nat) (wr : Bool) : (s.checkWord w a wr).1.mem = s.mem := by
  unfold State.checkWord
  split
  · split
    · exact s.farPoison_mem w a
    · rfl
  · exact s.wordFixed_mem w a wr false
  · exact s.wordLost_mem w a wr false

theorem State.writeWord_mem (s : State) (w : Accessor) (x cover : Nat) (bad : Bool) :
    (s.writeWord w x cover bad).1.mem = s.mem := by
  have hcheck : (if s.poisoned x then (s, []) else s.checkWord w x true).1.mem = s.mem := by
    split
    · rfl
    · exact s.checkWord_mem w x true
  unfold State.writeWord
  split
  · rfl
  · dsimp only
    split <;> exact hcheck

@[simp] theorem State.wrote_mem (s : State) (a n : Nat) : (s.wrote a n).mem = s.mem := by
  unfold State.wrote State.markDirty
  split
  · split <;> rfl
  all_goals rfl

@[simp] theorem State.stopMark_mem (s : State) (cls : Nat) : (s.stopMark cls).mem = s.mem := by
  unfold State.stopMark
  split <;> rfl

theorem State.peek_congr {s t : State} (h : t.mem = s.mem) (x : Nat) : t.peek x = s.peek x := by
  simp only [State.peek, h]

/-- Bytes written one by one, seen from an address that none of them has. -/
theorem State.peek_foldl_poke_of_notMem (l : List (Nat × PByte)) (s : State) (x : Nat) (h : ∀ p ∈ l, p.1 ≠ x) :
    (l.foldl (fun st p => st.poke p.1 p.2.val) s).peek x = s.peek x := by
  induction l generalizing s with
  | nil => rfl
  | cons p l ih =>
    exact (ih _ fun q hq => h q (List.mem_cons_of_mem _ hq)).trans
      (s.peek_poke_ne _ (h p (List.mem_cons_self ..)).symm)

/-- Bytes written one by one at addresses of their own: each is read back. -/
theorem State.peek_foldl_poke_of_mem (l : List (Nat × PByte)) (s : State) (hdup : (l.map Prod.fst).Nodup) (p : Nat × PByte)
    (hp : p ∈ l) : (l.foldl (fun st p => st.poke p.1 p.2.val) s).peek p.1 = p.2.val := by
  induction l generalizing s with
  | nil => simp at hp
  | cons q l ih =>
    simp only [List.map_cons, List.nodup_cons, List.mem_map, not_exists, not_and] at hdup
    rcases List.mem_cons.mp hp with rfl | hl
    · exact (State.peek_foldl_poke_of_notMem l _ p.1 fun r hr => hdup.1 r hr).trans (s.peek_poke_same _ _)
    · exact ih _ hdup.2 hl

/-- The bytes of a write, each with its address. -/
def cellsAt (a : Nat) (bytes : List PByte) : List (Nat × PByte) := ((List.range bytes.length).map (fun k => a + k)).zip bytes

theorem cellsAt_addr {a : Nat} {bytes : List PByte} {p : Nat × PByte} (h : p ∈ cellsAt a bytes) :
    ∃ k < bytes.length, p.1 = a + k := by
  obtain ⟨k, hk, e⟩ := List.mem_map.mp (List.of_mem_zip (a := p.1) (b := p.2) h).1
  exact ⟨k, List.mem_range.mp hk, e.symm⟩

theorem cellsAt_nodup (a : Nat) (bytes : List PByte) : ((cellsAt a bytes).map Prod.fst).Nodup := by
  rw [cellsAt, List.map_fst_zip (by simp)]
  exact (List.nodup_range).map fun x y h => by simpa using h

theorem cellsAt_mem {a k : Nat} {bytes : List PByte} (h : k < bytes.length) : (a + k, bytes[k]) ∈ cellsAt a bytes := by
  refine List.mem_iff_getElem.mpr ⟨k, by simp [cellsAt, h], by simp [cellsAt]⟩

/-- The cells that a write may write. -/
def State.writable (s : State) (w : Accessor) (cells : List (Nat × PByte)) : List (Nat × PByte) :=
  cells.filter (fun p => s.accClass w p.1 == 0)

/-- The check bits and the poison of every word that a write touches. -/
def State.checkCells (s : State) (w : Accessor) (good : List (Nat × PByte)) : State × List ErrRec :=
  Machine.gather (fun st k =>
    let mine := good.filter (fun p => s.wordKey p.1 == k)
    match mine.head? with
    | none => (st, [])
    | some p => st.writeWord w p.1 ((mine.map (·.1)).eraseDups.length) (mine.any (·.2.poison))) s
    (good.map (fun p => s.wordKey p.1)).eraseDups

theorem State.writeCells_eq (s : State) (w : Accessor) (cells : List (Nat × PByte)) :
    s.writeCells w cells =
      let p := s.checkCells w (s.writable w cells)
      let s2 := (s.writable w cells).foldl (fun st p => st.poke p.1 p.2.val) p.1
      match (cells.filter (fun p => s.accClass w p.1 != 0)).head? with
      | none => (s2, p.2)
      | some c => (s2.stopMark (s.accClass w c.1), p.2 ++ [s2.stopRecord w (s.accClass w c.1) c.1 true]) := rfl

theorem State.checkCells_mem (s : State) (w : Accessor) (good : List (Nat × PByte)) :
    (s.checkCells w good).1.mem = s.mem :=
  gather_same (g := State.mem) (fun st k => by
    dsimp only
    split
    · rfl
    · exact st.writeWord_mem w _ _ _) _ s

/-- Memory after a write is memory with the bytes that may be written. -/
theorem State.writeBytes_peek (s : State) (w : Accessor) (a : Nat) (bytes : List PByte) (x : Nat) :
    (s.writeBytes w a bytes).1.peek x =
      ((s.writable w (cellsAt a bytes)).foldl (fun st p => st.poke p.1 p.2.val)
        (s.checkCells w (s.writable w (cellsAt a bytes))).1).peek x := by
  refine State.peek_congr ?_ x
  show ((s.writeCells w (cellsAt a bytes)).1.wrote a bytes.length).mem = _
  rw [State.wrote_mem, State.writeCells_eq]
  dsimp only
  split
  · rfl
  · exact State.stopMark_mem _ _

theorem State.writeBytes_peek_of_unwritten (s : State) (w : Accessor) (a : Nat) (bytes : List PByte) (x : Nat)
    (h : ∀ p ∈ s.writable w (cellsAt a bytes), p.1 ≠ x) : (s.writeBytes w a bytes).1.peek x = s.peek x := by
  rw [State.writeBytes_peek, State.peek_foldl_poke_of_notMem _ _ _ h]
  exact State.peek_congr (s.checkCells_mem w _) x

theorem State.writeBytes_sameMem (s : State) (w : Accessor) (a : Nat) (bytes : List PByte) :
    s.sameMem (s.writeBytes w a bytes).1 a bytes.length := by
  refine fun x hx => s.writeBytes_peek_of_unwritten w a bytes x fun p hp => ?_
  obtain ⟨k, hk, e⟩ := cellsAt_addr (List.mem_of_mem_filter hp)
  omega

/-! ### A write into words without a check error makes no record -/

/-- t is s but for the marks of words: the poison, the check errors, and what was written since a re-lay; and no word has a check
error that had none. -/
structure State.MarksOnly (s t : State) : Prop where
  outside : t = { s with
    poison := t.poison
    ecc := t.ecc
    memCtl := { s.memCtl with rewritten := t.memCtl.rewritten } }
  ecc : ∀ k, Tbl.get EccErr.clean s.ecc k = .clean → Tbl.get EccErr.clean t.ecc k = .clean

theorem State.MarksOnly.wordKey {s t : State} (h : s.MarksOnly t) (x : Nat) : t.wordKey x = s.wordKey x := by
  rw [h.outside]
  rfl

theorem State.MarksOnly.setPoison {s t : State} (h : s.MarksOnly t) (k : Nat) (b : Bool) : s.MarksOnly (t.setPoison k b) where
  outside := by
    rw [h.outside]
    rfl
  ecc := h.ecc

theorem State.MarksOnly.setEcc {s t : State} (h : s.MarksOnly t) (k : Nat) : s.MarksOnly (t.setEcc k .clean) where
  outside := by
    rw [h.outside]
    rfl
  ecc := fun j hj => by
    by_cases e : j = k
    · simp [State.setEcc, e]
    · simpa [State.setEcc, Tbl.get_set_ne _ _ _ _ _ _ e] using h.ecc j hj

/-- A write to a word without a check error makes no record, whole or in part. -/
theorem State.MarksOnly.writeWord {s t : State} (h : s.MarksOnly t) (w : Accessor) (x cover : Nat) (bad : Bool)
    (hx : Tbl.get EccErr.clean s.ecc (s.wordKey x) = .clean) :
    s.MarksOnly (t.writeWord w x cover bad).1 ∧ (t.writeWord w x cover bad).2 = [] := by
  have hclean : Tbl.get EccErr.clean t.ecc (t.wordKey x) = .clean := by rw [h.wordKey, h.ecc _ hx]
  have hcheck : (if t.poisoned x then (t, []) else t.checkWord w x true) = (t, []) := by
    simp [State.checkWord, hclean]
  unfold State.writeWord
  rw [hcheck]
  split
  · exact ⟨(h.setPoison _ _).setEcc _, rfl⟩
  · dsimp only
    split
    · exact ⟨h.setPoison _ _, rfl⟩
    · exact ⟨h, rfl⟩

theorem State.checkCells_silent (s : State) (w : Accessor) (good : List (Nat × PByte))
    (hgood : ∀ p ∈ good, Tbl.get EccErr.clean s.ecc (s.wordKey p.1) = .clean) :
    s.MarksOnly (s.checkCells w good).1 ∧ (s.checkCells w good).2 = [] := by
  refine gather_silent (P := s.MarksOnly) _ (fun t k _ ht => ?_) s ⟨rfl, fun _ h => h⟩
  dsimp only
  split
  · exact ⟨ht, rfl⟩
  next p hp => exact ht.writeWord w p.1 _ _ (hgood p (List.mem_of_mem_filter (List.mem_of_mem_head? hp)))

theorem State.foldl_poke_frame (l : List (Nat × PByte)) (s : State) :
    (l.foldl (fun st p => st.poke p.1 p.2.val) s).regs = s.regs ∧
      (l.foldl (fun st p => st.poke p.1 p.2.val) s).tillers = s.tillers := by
  induction l generalizing s with
  | nil => exact ⟨rfl, rfl⟩
  | cons p l ih => exact ih _

theorem State.wrote_frame (s : State) (a n : Nat) : (s.wrote a n).regs = s.regs ∧ (s.wrote a n).tillers = s.tillers := by
  unfold State.wrote State.markDirty
  split
  · split <;> exact ⟨rfl, rfl⟩
  all_goals exact ⟨rfl, rfl⟩

/-- A write that may write all its bytes, into words without a check error: no record, and neither registers nor Tillers. -/
theorem State.writeBytes_clean (s : State) (w : Accessor) (a : Nat) (bytes : List PByte)
    (h : ∀ k < bytes.length, s.accClass w (a + k) = 0 ∧ Tbl.get EccErr.clean s.ecc (s.wordKey (a + k)) = .clean) :
    (s.writeBytes w a bytes).2 = [] ∧ (s.writeBytes w a bytes).1.regs = s.regs ∧
      (s.writeBytes w a bytes).1.tillers = s.tillers := by
  have hall : s.writable w (cellsAt a bytes) = cellsAt a bytes := by
    refine List.filter_eq_self.mpr fun p hp => ?_
    obtain ⟨k, hk, e⟩ := cellsAt_addr hp
    simp [e, (h k hk).1]
  have hnone : (cellsAt a bytes).filter (fun p => s.accClass w p.1 != 0) = [] := by
    refine List.filter_eq_nil_iff.mpr fun p hp => ?_
    obtain ⟨k, hk, e⟩ := cellsAt_addr hp
    simp [e, (h k hk).1]
  obtain ⟨hmarks, hsilent⟩ := s.checkCells_silent w (cellsAt a bytes) fun p hp => by
    obtain ⟨k, hk, e⟩ := cellsAt_addr hp
    rw [e]
    exact (h k hk).2
  have hcells : s.writeCells w (cellsAt a bytes) =
      ((cellsAt a bytes).foldl (fun st p => st.poke p.1 p.2.val) (s.checkCells w (cellsAt a bytes)).1, []) := by
    rw [State.writeCells_eq, hall, hnone]
    exact congrArg (Prod.mk _) hsilent
  have hsame : (s.checkCells w (cellsAt a bytes)).1.regs = s.regs ∧ (s.checkCells w (cellsAt a bytes)).1.tillers = s.tillers := by
    rw [hmarks.outside]
    exact ⟨rfl, rfl⟩
  have hpoke := State.foldl_poke_frame (cellsAt a bytes) (s.checkCells w (cellsAt a bytes)).1
  have hbytes : s.writeBytes w a bytes = ((s.writeCells w (cellsAt a bytes)).1.wrote a bytes.length,
      (s.writeCells w (cellsAt a bytes)).2) := rfl
  rw [hbytes, hcells]
  have hwrote := ((cellsAt a bytes).foldl (fun st p => st.poke p.1 p.2.val)
    (s.checkCells w (cellsAt a bytes)).1).wrote_frame a bytes.length
  exact ⟨rfl, hwrote.1.trans (hpoke.1.trans hsame.1), hwrote.2.trans (hpoke.2.trans hsame.2)⟩

/-- Settles O31: the bytes that may be written are written one by one at addresses of their own, the marks of their words
apart; without a stopped byte or a check error there is no record to write. -/
theorem writesReadBack : Obligations.WritesReadBack := by
  intro s u w a bytes hu
  refine ⟨fun h => ?_, fun k hk => ?_, s.writeBytes_sameMem w a bytes⟩
  · obtain ⟨hnone, hregs, htil⟩ := s.writeBytes_clean w a bytes h
    have hraise : u = (s.writeBytes w a bytes).1 := by
      rw [hu, State.memWrite, raised, hnone]
      rfl
    rw [hraise]
    refine ⟨fun k hk => ?_, s.writeBytes_sameMem w a bytes, hregs, htil⟩
    rw [State.writeBytes_peek]
    refine State.peek_foldl_poke_of_mem _ _ ((cellsAt_nodup a bytes).sublist (List.filter_sublist.map _)) _
      (List.mem_filter.mpr ⟨cellsAt_mem hk, by simp [(h k hk).1]⟩)
  · refine s.writeBytes_peek_of_unwritten w a bytes _ fun p hp e => hk ?_
    simpa [e] using (List.mem_filter.mp hp).2

/-! ### Little-endian numbers (R241) -/

theorem leBytes_length (n x : Nat) : (leBytes n x).length = n := by
  induction n generalizing x with
  | zero => rfl
  | succ n ih => simp [leBytes, ih]

theorem leNat_leBytes (n x : Nat) : leNat (leBytes n x) = x % 256 ^ n := by
  induction n generalizing x with
  | zero => simp [leBytes, leNat, Nat.mod_one]
  | succ n ih =>
    rw [leBytes, leNat, ih, BitVec.toNat_ofNat, Nat.pow_succ' (n := n) (m := 256), Nat.mod_mul]

/-- The lanes of a list made of parts of one length, put one behind the other. -/
theorem flatMap_lane {α : Type} (f : Nat → List α) (w n j : Nat) (hf : ∀ k, (f k).length = w) (hj : j < n) :
    (((List.range n).flatMap f).drop (w * j)).take w = f j := by
  have hcut : List.range n = List.range j ++ j :: (List.range (n - j - 1)).map (· + (j + 1)) := by
    have hn : n = j + (1 + (n - j - 1)) := by omega
    conv_lhs => rw [hn]
    rw [List.range_add, List.range_add]
    simp [Function.comp_def, Nat.add_comm, Nat.add_left_comm, List.range_succ]
  have hlen : ((List.range j).flatMap f).length = w * j := by
    simp [List.length_flatMap, hf, Nat.mul_comm]
  rw [hcut, List.flatMap_append, List.flatMap_cons, List.drop_left' hlen, List.take_left' (hf j)]

theorem milletAdd_lane (w j : Nat) (old data : List Byte) (hj : j < 32 / w) :
    leNat (((milletAdd w old data).drop (w * j)).take w) =
      (leNat ((old.drop (w * j)).take w) + leNat ((data.drop (w * j)).take w)) % 256 ^ w := by
  rw [milletAdd, flatMap_lane _ w (32 / w) j (fun k => leBytes_length w _) hj, leNat_leBytes]

/-- Settles O34: a lane of the sum is the little-endian form of the lanes' sum, cut to its bytes. -/
theorem milletLanesAdd : Obligations.MilletLanesAdd :=
  fun old data _ _ => ⟨fun j hj => milletAdd_lane 4 j old data (by omega), fun j hj => milletAdd_lane 8 j old data (by omega)⟩

end Sys2Proof.Machine
end

section
/-! PROOFS. The vector engine: dispatch, chunks, lanes and statistic records (R108-R131, R138, R139, R155). -/

namespace Sys2Proof.Machine
/-- What one lane gives, from its operands, its live bit and its choice. -/
def laneOf (e : Enc) (conv : List Word) (zneg : Bool) (a b c : VIn) (live sel : Bool) : VRes :=
  let w := if mode16 e then 16 else 32
  let n := (dataOperands e).length
  let poison := live && (a.poison || (decide (2 ≤ n) && b.poison) || (decide (3 ≤ n) && c.poison))
  match vkind e.opc with
  | .int => { src := .fin false 0 0, bits := intOp e.opc a.bits b.bits, ovf := false, poison := poison, sat := false, live := live }
  | .w64 =>
    let r := w64Add (BitVec.ofNat 64 a.bits) (BitVec.ofNat 64 b.bits)
    { src := .fin false 0 0, bits := r.1.toNat, ovf := false, poison := poison, sat := a.sat || b.sat || r.2, live := live }
  | .compare =>
    { src := .fin false 0 0, bits := one (compareOp (veCond e) a.val b.val), ovf := false, poison := poison, sat := false,
      live := live }
  | .elementary =>
    let r := elemFn e.opc a.val
    let q := elemSource e.opc a.val r
    { src := if converts e then ofFp32 r else q.1, bits := r, ovf := !(converts e) && q.2, poison := poison, sat := false,
      live := live }
  | .select =>
    let y := if sel then a else b
    { src := y.val, bits := selectBits e conv (if sel then 0 else 1) y, ovf := false, poison := poison
      sat := y.sat && selW64 e conv, live := live }
  | .gather => { src := a.val, bits := 0, ovf := false, poison := poison, sat := false, live := live }
  | _ =>
    { src := floatOp e.opc w zneg sel a b c, bits := 0, ovf := false, poison := poison, sat := a.sat && srcW64 e conv, live := live }

theorem laneResults_length (e : Enc) (conv : List Word) (zneg : Bool) (ins : List (List VIn)) (lives sels : List Bool) :
    (laneResults e conv zneg ins lives sels).length = lives.length := by simp [laneResults]

theorem laneResults_lane (e : Enc) (conv : List Word) (zneg : Bool) (ins : List (List VIn)) (lives sels : List Bool) {j : Nat}
    (h : j < lives.length) : (laneResults e conv zneg ins lives sels)[j]? = some (laneOf e conv zneg
      ((ins.getD 0 []).getD j VIn.none) ((ins.getD 1 []).getD j VIn.none) ((ins.getD 2 []).getD j VIn.none)
      (lives.getD j false) (sels.getD j false)) := by
  have hzip : (lives.zip (List.range lives.length))[j]? = some (lives.getD j false, j) := by
    simp [h]
  rw [laneResults, List.getElem?_map, hzip]
  rfl

theorem laneOf_live (e : Enc) (conv : List Word) (zneg : Bool) (a b c : VIn) (live sel : Bool) :
    (laneOf e conv zneg a b c live sel).live = live := by
  unfold laneOf
  dsimp only
  split <;> rfl

theorem laneOf_poison (e : Enc) (conv : List Word) (zneg : Bool) (a b c : VIn) (live sel : Bool) :
    (laneOf e conv zneg a b c live sel).poison = (live && (a.poison || (decide (2 ≤ (dataOperands e).length) && b.poison) ||
        (decide (3 ≤ (dataOperands e).length) && c.poison))) := by
  unfold laneOf
  dsimp only
  split <;> rfl

/-! ### The operation that an operation code names -/

theorem intOp_table (o a b : Nat) :
    (o = 0x60 → intOp o a b = (a + b) % 2 ^ 32) ∧ (o = 0x61 → intOp o a b = (a + 2 ^ 32 - b) % 2 ^ 32) ∧
    (o = 0x62 → intOp o a b = if signedOf 32 a ≤ signedOf 32 b then a else b) ∧
    (o = 0x63 → intOp o a b = if signedOf 32 a ≤ signedOf 32 b then b else a) ∧
    (o = 0x64 → intOp o a b = a &&& b) ∧ (o = 0x65 → intOp o a b = a ||| b) ∧ (o = 0x66 → intOp o a b = a ^^^ b) ∧
    (o = 0x67 → intOp o a b = a * 2 ^ (b % 32) % 2 ^ 32) ∧ (o = 0x68 → intOp o a b = a / 2 ^ (b % 32)) := by
  unfold intOp
  split <;> simp_all

theorem floatOp_table (o w : Nat) (zneg sel : Bool) (a b c : VIn) :
    (o = 0x40 → floatOp o w zneg sel a b c = a.val.add zneg b.val) ∧
    (o = 0x41 → floatOp o w zneg sel a b c = a.val.add zneg b.val.negate) ∧
    (o = 0x42 → floatOp o w zneg sel a b c = a.val.mul b.val) ∧
    (o = 0x43 → floatOp o w zneg sel a b c = (a.val.mul b.val).add zneg c.val) ∧
    (o = 0x44 → floatOp o w zneg sel a b c = a.val.min b.val) ∧ (o = 0x45 → floatOp o w zneg sel a b c = a.val.max b.val) ∧
    (o = 0x46 → floatOp o w zneg sel a b c = a.val.abs) ∧ (o = 0x47 → floatOp o w zneg sel a b c = a.val.negate) ∧
    (o = 0x48 → floatOp o w zneg sel a b c = withSign a.val (bitAt b.bits (w - 1))) ∧
    (o = 0x4B ∨ o = 0x6B → floatOp o w zneg sel a b c = a.val) := by
  unfold floatOp
  split <;> simp_all

theorem elemFn_table (o : Nat) (x : FVal) :
    (o = 0x50 → elemFn o x = fnRcp x) ∧ (o = 0x51 → elemFn o x = fnSqrt x) ∧ (o = 0x52 → elemFn o x = fnRsqrt x) ∧
    (o = 0x53 → elemFn o x = fnExp x) ∧ (o = 0x54 → elemFn o x = fnExp2 x) ∧ (o = 0x55 → elemFn o x = fnLog x) ∧
    (o = 0x56 → elemFn o x = fnLog2 x) ∧ (o = 0x57 → elemFn o x = fnTanh x) ∧ (o = 0x58 → elemFn o x = fnSigm x) := by
  unfold elemFn
  split <;> simp_all

/-! ### A lane by the kind of its operation -/

section Kinds
variable {e : Enc} {o : Nat} (h : e.opc = o) (conv : List Word) (zneg : Bool) (a b c : VIn) (live sel : Bool)
include h

theorem laneOf_int (hk : vkind o = .int) : (laneOf e conv zneg a b c live sel).bits = intOp e.opc a.bits b.bits := by
  subst h
  simp only [laneOf, hk]

theorem laneOf_w64 (hk : vkind o = .w64) :
    (laneOf e conv zneg a b c live sel).bits = (w64Add (BitVec.ofNat 64 a.bits) (BitVec.ofNat 64 b.bits)).1.toNat := by
  subst h
  simp only [laneOf, hk]

theorem laneOf_compare (hk : vkind o = .compare) :
    (laneOf e conv zneg a b c live sel).bits = one (compareOp (veCond e) a.val b.val) := by
  subst h
  simp only [laneOf, hk]

theorem laneOf_elementary (hk : vkind o = .elementary) :
    (laneOf e conv zneg a b c live sel).bits = elemFn e.opc a.val := by
  subst h
  simp only [laneOf, hk]

theorem laneOf_select (hk : vkind o = .select) :
    (laneOf e conv zneg a b c live sel).src = if sel then a.val else b.val := by
  subst h
  simp only [laneOf, hk]
  split <;> rfl

/-- The operations whose result is a value: arithmetic, the other floating-point operations, and conversions. -/
theorem laneOf_value (hk : vkind o = .arith ∨ vkind o = .float ∨ vkind o = .convert) :
    (laneOf e conv zneg a b c live sel).src = floatOp e.opc (if mode16 e then 16 else 32) zneg sel a b c := by
  subst h
  rcases hk with hk | hk | hk <;> simp only [laneOf, hk]

end Kinds

/-- Settles O22: the kind of the operation code chooses what a lane computes, and the code its operation. -/
theorem lanesCompute : Obligations.LanesCompute := by
  rintro e conv zneg ins lives sels j a b c hj rfl rfl rfl
  refine ⟨laneResults_length .., _, laneResults_lane e conv zneg ins lives sels hj, laneOf_live .., ?_⟩
  generalize (ins.getD 0 []).getD j VIn.none = a
  generalize (ins.getD 1 []).getD j VIn.none = b
  generalize (ins.getD 2 []).getD j VIn.none = c
  generalize lives.getD j false = live
  generalize sels.getD j false = sel
  obtain ⟨iadd, isub, imin, imax, and, or, xor, shl, shr⟩ := intOp_table e.opc a.bits b.bits
  obtain ⟨fadd, fsub, fmul, fma, fmin, fmax, fabs, fneg, fsgn, cvt⟩ :=
    floatOp_table e.opc (if mode16 e then 16 else 32) zneg sel a b c
  obtain ⟨rcp, sqrt, rsqrt, exp, exp2, log, log2, tanh, sigm⟩ := elemFn_table e.opc a.val
  have int {o : Nat} (h : e.opc = o) (hk : vkind o = .int) := laneOf_int h conv zneg a b c live sel hk
  have value {o : Nat} (h : e.opc = o) (hk) := laneOf_value h conv zneg a b c live sel hk
  have elem {o : Nat} (h : e.opc = o) (hk) := laneOf_elementary h conv zneg a b c live sel hk
  have hsign : (if mode16 e then 16 else 32) - 1 = if mode16 e then 15 else 31 := by split <;> rfl
  rw [hsign] at fsgn
  exact ⟨fun h => (int h (by decide)).trans (iadd h), fun h => (int h (by decide)).trans (isub h),
    fun h => (int h (by decide)).trans (imin h), fun h => (int h (by decide)).trans (imax h),
    fun h => (int h (by decide)).trans (and h), fun h => (int h (by decide)).trans (or h),
    fun h => (int h (by decide)).trans (xor h), fun h => (int h (by decide)).trans (shl h),
    fun h => (int h (by decide)).trans (shr h), fun h => laneOf_w64 h conv zneg a b c live sel (by decide),
    fun h => (value h (by decide)).trans (fadd h), fun h => (value h (by decide)).trans (fsub h),
    fun h => (value h (by decide)).trans (fmul h), fun h => (value h (by decide)).trans (fma h),
    fun h => (value h (by decide)).trans (fmin h), fun h => (value h (by decide)).trans (fmax h),
    fun h => (value h (by decide)).trans (fabs h), fun h => (value h (by decide)).trans (fneg h),
    fun h => (value h (by decide)).trans (fsgn h), fun h => laneOf_compare h conv zneg a b c live sel (by decide),
    fun h => laneOf_select h conv zneg a b c live sel (by decide), fun h => (value h (by decide)).trans (cvt (.inl h)),
    fun h => (value h (by decide)).trans (cvt (.inr h)), fun h => (elem h (by decide)).trans (rcp h),
    fun h => (elem h (by decide)).trans (sqrt h), fun h => (elem h (by decide)).trans (rsqrt h),
    fun h => (elem h (by decide)).trans (exp h), fun h => (elem h (by decide)).trans (exp2 h),
    fun h => (elem h (by decide)).trans (log h), fun h => (elem h (by decide)).trans (log2 h),
    fun h => (elem h (by decide)).trans (tanh h), fun h => (elem h (by decide)).trans (sigm h), laneOf_poison ..⟩

/-! ### Dispatch (R138) -/

namespace Tbl

theorem del_del {α : Type} (k : Nat) (t : Table α) : del k (del k t) = del k t := by
  induction t with
  | nil => rfl
  | cons p t ih =>
    by_cases h : k = p.1
    · simp [del, h ▸ ih, h]
    · simp [del, h, ih]

theorem del_ins {α : Type} (k : Nat) (v : α) (t : Table α) : del k (ins k v t) = del k t := by
  induction t with
  | nil => simp [ins, del]
  | cons p t ih =>
    simp only [ins]
    split
    · simp [del]
    · simp only [del, ih]

/-- The last of two writes to a key stands. -/
theorem put_put {α : Type} (t : Table α) (k : Nat) (v w : α) : put (put t k v) k w = put t k w := by
  simp only [put, del_ins, del_del]

end Tbl

theorem State.setTil_setTil (s : State) (t : Nat) (x y : Tiller) : (s.setTil t x).setTil t y = s.setTil t y := by
  simp only [State.setTil, Tbl.put_put]

/-- What a match notes stands outside a Tiller: the Tillers, memory and the P registers stay. -/
structure State.Notes (s u : State) : Prop where
  outside : u = { s with regs := u.regs }
  fld : ∀ (g : Fld) (j : Nat), g ≠ .OBS_CAPT_STATUS_FMT → g ≠ .OBS_CAPT_STATUS_MATCHES → u.fld g j = s.fld g j

theorem State.Notes.trans {s u v : State} (h : s.Notes u) (k : u.Notes v) : s.Notes v where
  outside := k.outside.trans (by rw [h.outside])
  fld := fun g j hf hm => (k.fld g j hf hm).trans (h.fld g j hf hm)

theorem State.noteMatch_notes (s : State) (k f : Nat) : s.Notes (s.noteMatch k f) := by
  unfold State.noteMatch
  dsimp only
  split
  · exact ⟨rfl, fun g j hf hm => (State.fld_setFld_of_ne _ _ _ _ hm.symm).trans (s.fld_setFld_of_ne _ _ _ hf.symm)⟩
  · exact ⟨rfl, fun g j _ hm => s.fld_setFld_of_ne _ _ _ hm.symm⟩

theorem State.foldl_noteMatch_notes (l : List Nat) (f : Nat) (s : State) :
    s.Notes (l.foldl (fun s k => s.noteMatch k f) s) := by
  induction l generalizing s with
  | nil => exact ⟨rfl, fun _ _ _ _ => rfl⟩
  | cons k l ih => exact (s.noteMatch_notes k f).trans (ih _)

theorem State.Notes.til {s u : State} (h : s.Notes u) (t : Nat) : u.til t = s.til t := by
  rw [h.outside]
  rfl

theorem State.Notes.fetch {s u : State} (h : s.Notes u) (t k : Nat) : u.fetch t k = s.fetch t k := by
  have hmem (a : Nat) : u.peek a = s.peek a := by
    rw [h.outside]
    rfl
  simp only [State.fetch, State.peekNat, State.peekBytes, State.instOffset, hmem,
    h.fld .TIL_PROG_IMAGE_BASE16 _ (by decide) (by decide)]

/-- Only the new instruction has the new number, so only it takes the capture slots. -/
theorem capt_of_new {insts : List Inst} {i : Inst} {id : Nat} (cap : List Nat) (h : ∀ j ∈ insts, j.id < id) (hi : i.id = id) :
    (insts ++ [i]).map (fun j => if j.id == id then { j with capt := cap } else j) = insts ++ [{ i with capt := cap }] := by
  have hold : insts.map (fun j => if j.id == id then { j with capt := cap } else j) = insts := by
    refine (List.map_congr_left fun j hj => ?_).trans (List.map_id _)
    rw [if_neg (by simpa using (h j hj).ne)]
    rfl
  rw [List.map_append, hold]
  simp [hi]

/-- Every vector instruction is dispatched with its own operation code. -/
theorem vectorInstructions_dispatch (sh : Fin 12) (n : Fin 64) (s : State) :
    ∀ p ∈ [(Instr.fadd sh n, 0x40), (.fsub sh n, 0x41), (.fmul sh n, 0x42), (.fma sh n, 0x43), (.fmin sh n, 0x44),
        (.fmax sh n, 0x45), (.fabs sh n, 0x46), (.fneg sh n, 0x47), (.fsgn sh n, 0x48), (.fcmp sh n, 0x49),
        (.sel sh n, 0x4A), (.cvt sh n, 0x4B), (.rcp sh n, 0x50), (.sqrt sh n, 0x51), (.rsqrt sh n, 0x52),
        (.exp sh n, 0x53), (.exp2 sh n, 0x54), (.log sh n, 0x55), (.log2 sh n, 0x56), (.tanh sh n, 0x57),
        (.sigm sh n, 0x58), (.iadd sh n, 0x60), (.isub sh n, 0x61), (.imin sh n, 0x62), (.imax sh n, 0x63),
        (.and sh n, 0x64), (.or sh n, 0x65), (.xor sh n, 0x66), (.shl sh n, 0x67), (.shr sh n, 0x68),
        (.wadd sh n, 0x6A), (.wcvt sh n, 0x6B), (.rsum sh n, 0x70), (.rsumsq sh n, 0x71), (.rmax sh n, 0x72),
        (.rmaxabs sh n, 0x73), (.mand sh n, 0x78), (.mor sh n, 0x79), (.mxor sh n, 0x7A), (.mnot sh n, 0x7B),
        (.vgath sh n, 0x7C)],
      exec p.1 s = .next (s.doVector (tix sh n) p.2) := by
  simp only [List.forall_mem_cons, List.not_mem_nil, false_imp_iff, implies_true, and_true]
  exact ⟨rfl, rfl, rfl, rfl, rfl, rfl, rfl, rfl, rfl, rfl, rfl, rfl, rfl, rfl, rfl, rfl, rfl, rfl, rfl, rfl, rfl, rfl, rfl, rfl,
    rfl, rfl, rfl, rfl, rfl, rfl, rfl, rfl, rfl, rfl, rfl, rfl, rfl, rfl, rfl, rfl, rfl⟩

/-- A vector instruction in flight: the new instruction holds its chunks, its conversion block, its scalar and its slots. -/
theorem State.doVector_flight {s : State} {t opc : Nat} {e : Enc} {conv : List Word} (he : e = s.inst t)
    (hconv : conv = s.convBlock t e) (h : s.at t opc (vecEncBad e ++ s.vecQueueBad t e ++ vecShapeBad e conv)) (h0 : veE e ≠ 0)
    (hres : convReserved e conv = false) (hids : ∀ j ∈ (s.til t).insts, j.id < (s.til t).nextId) :
    s.doVector t opc = (((s.captures t e conv).foldl (fun s k => s.noteMatch k (captFmt e conv)) s).setTil t { s.til t with
      insts := (s.til t).insts ++ [⟨(s.til t).nextId, s.pc t, s.fetch t (s.pc t), 4, chunks e conv, 0, 0, conv,
        BitVec.ofNat 64 (s.preg t (veScalp e)), 0, none, false, s.captures t e conv⟩],
      nextId := (s.til t).nextId + 1 }).nextPc t (s.pc t) := by
  subst he hconv
  have hnotes := State.foldl_noteMatch_notes (s.captures t (s.inst t) (s.convBlock t (s.inst t)))
    (captFmt (s.inst t) (s.convBlock t (s.inst t))) s
  refine (State.frontEnd_of_at h _ _ rfl).trans ?_
  rw [if_neg h0, if_neg (by simp [hres])]
  simp only [State.enqueue, State.til_setTil, State.setTil_setTil, hnotes.til, hnotes.fetch, State.preg,
    hnotes.fld .TIL_PARAM_VALUE _ (by decide) (by decide), vectorUnit]
  rw [capt_of_new _ hids rfl]

/-- A Tiller at another instruction is left as it is. -/
theorem State.frontEnd_of_other {s : State} {t opc : Nat} (hd : s.canDispatch t = true)
    (hpc : s.pc t < s.fld .TIL_PROG_IMAGE_NINST t) (hopc : (s.inst t).opc ≠ opc) (check : State → Enc → Option Bad)
    (act : State → Enc → Nat → State) : s.frontEnd t opc check act = s := by
  unfold State.frontEnd
  rw [if_pos hd, if_neg (by omega)]
  exact if_neg hopc

/-- Settles O20: the instructions share one dispatch, whose branches are the clauses. -/
theorem vectorInstructionsDispatch : Obligations.VectorInstructionsDispatch := by
  intro sh n s p hp
  rw [vectorInstructions_dispatch sh n s p hp]
  refine ⟨?_, fun hd => congrArg _ (if_neg (by simp [hd])), fun hd hpc hopc => congrArg _ ?_⟩
  · rintro e conv rfl rfl h
    refine ⟨fun h0 => ?_, fun h0 hres => ?_, fun h0 hres hids => congrArg _ (State.doVector_flight rfl rfl h h0 hres hids)⟩
    · exact (State.next_frontEnd h rfl).trans (congrArg _ (if_pos h0))
    · exact (State.next_frontEnd h rfl).trans (congrArg _ ((if_neg h0).trans (if_pos hres)))
  · exact State.frontEnd_of_other hd hpc hopc _ _

/-! ### Chunks (R113, R116, R121, R125, R139) -/

/-- The clause of a chunk that issues: everything it needs is there and its operands are read. -/
theorem State.doChunk_of_read {s s1 : State} {t : Nat} {i : Inst} {ins : List (List VIn)} {e : Enc} {e0 m : Nat} {lives : List Bool}
    (he : e = encOf i.word) (he0 : e0 = i.done * chunkSize e i.conv) (hm : m = min (chunkSize e i.conv) (veE e - e0))
    (hl : lives = (s.til t).lives e e0 m) (h : s.head t 4 i)
    (hmask : vkind e.opc ≠ .mask) (hdesc : s.vecDescBad t e = none) (hshort : s.tileShort t e i.conv = false)
    (hready : s.chunkReady t i e e0 m = true) (hread : s.readAll t i e e0 m 0 (dataOperands e) = .ok (s1, ins))
    (hgather : vkind e.opc ≠ .gather) :
    s.doChunk t =
      if poisonedInputs ins lives ≠ 0 && s.flag .TIL_VE_CTRL_POISON_FAULT t then
        ((s.setFlag .TIL_VE_STATUS_POISON_SEEN t true).satAdd .TIL_VE_STATUS_POISON_IN t
          (i.poisoned + poisonedInputs ins lives)).progFault t 0x35 i.pc
            (tilDetail i.pc 4 0 (i.poisoned + poisonedInputs ins lives) 0)
      else
        let k := s1.takeBank t { i with poisoned := i.poisoned + poisonedInputs ins lives } e
        if vkind e.opc = .row then
          (k.1.count (tcKey t 17) m).finishChunk t k.2 e (e0 / 64) (rowResults e.opc ((ins.getD 0 []).zip lives))
        else
          (k.1.count (tcKey t 17) m).finishChunk t k.2 e e0 (laneResults e i.conv (converts e && cwRound (cword i.conv) == 2) ins
            lives ((List.range m).map (fun j => (s.til t).maskBit (opIdx e.c) (e0 + j)))) := by
  subst he he0 hm hl
  unfold State.doChunk
  simp only [show s.unitStep t vectorUnit = some i from h, if_neg hmask, hdesc, hshort, hready, hread, if_neg hgather,
    Bool.not_true, Bool.false_eq_true, if_false, State.gatherBad]

/-- Signals that enter their queues leave the instructions in flight and the mask registers. -/
theorem Tiller.admitSignals_frame (x : Tiller) : x.admitSignals.insts = x.insts ∧ x.admitSignals.vm = x.vm := by
  suffices h : ∀ (l : List SigWait) (y : Tiller), (l.foldl (fun y w =>
      if y.signalEnters w then
        { y.push w.q [.signal w.vid w.value] with sigWait := y.sigWait.filter (fun v => v.id != w.id) }
      else y) y).insts = y.insts ∧ (l.foldl (fun y w =>
      if y.signalEnters w then
        { y.push w.q [.signal w.vid w.value] with sigWait := y.sigWait.filter (fun v => v.id != w.id) }
      else y) y).vm = y.vm from h _ x
  intro l
  induction l with
  | nil => exact fun y => ⟨rfl, rfl⟩
  | cons w l ih =>
    intro y
    simp only [List.foldl_cons]
    split
    · exact ih _
    · exact ih _

/-- What mask logic gives for bits 0 to E - 1 (R117, R121). -/
def Tiller.maskLogic (x : Tiller) (e : Enc) : List Bool :=
  (List.range (veE e)).map (fun k => x.live e k &&
    (match e.opc with
    | 0x78 => x.maskBit (opIdx e.a) k && x.maskBit (opIdx e.b) k
    | 0x79 => x.maskBit (opIdx e.a) k || x.maskBit (opIdx e.b) k
    | 0x7A => x.maskBit (opIdx e.a) k != x.maskBit (opIdx e.b) k
    | _ => !(x.maskBit (opIdx e.a) k)))

theorem State.maskChunk_eq (s : State) (t : Nat) (i : Inst) (e : Enc) :
    s.maskChunk t i e = (s.setTil t ((s.til t).vmWrite (opIdx e.dst) 0 ((s.til t).maskLogic e))).retire t i.id := rfl

theorem Tiller.vmWrite_insts (x : Tiller) (k d0 : Nat) (bits : List Bool) : (x.vmWrite k d0 bits).insts = x.insts := by
  unfold Tiller.vmWrite
  split <;> rfl

theorem Tiller.vmWrite_wdog (x : Tiller) (w k d0 : Nat) (bits : List Bool) :
    ({ x with wdog := w }.vmWrite k d0 bits).vm = (x.vmWrite k d0 bits).vm := by
  unfold Tiller.vmWrite
  split <;> rfl

/-- An instruction that completes leaves its Tiller with the others in flight. -/
theorem State.retire_til (s : State) (t id : Nat) :
    ((s.retire t id).til t).insts = (s.til t).insts.filter (fun j => j.id != id) ∧ ((s.retire t id).til t).vm = (s.til t).vm := by
  unfold State.retire
  rw [State.til_setTil]
  exact Tiller.admitSignals_frame _

theorem State.retire_til_ne (s : State) {t t' : Nat} (id : Nat) (h : t' ≠ t) : (s.retire t id).til t' = s.til t' :=
  s.til_setTil_ne _ h

theorem State.doChunk_mask {s : State} {t : Nat} {i : Inst} (h : s.head t 4 i) (hk : vkind (encOf i.word).opc = .mask) :
    s.doChunk t = (s.stepped t).maskChunk t i (encOf i.word) := by
  unfold State.doChunk
  rw [show s.unitStep t vectorUnit = some i from h]
  exact if_pos hk

/-- A chunk that waits for an operand, for room or for a bank leaves the state (R116). -/
theorem State.doChunk_waits {s : State} {t : Nat} {i : Inst} {e : Enc} {e0 m : Nat} (he : e = encOf i.word)
    (he0 : e0 = i.done * chunkSize e i.conv) (hm : m = min (chunkSize e i.conv) (veE e - e0)) (h : s.head t 4 i)
    (hmask : vkind e.opc ≠ .mask) (hdesc : s.vecDescBad t e = none) (hshort : s.tileShort t e i.conv = false)
    (hready : s.chunkReady t i e e0 m = false) : s.doChunk t = s := by
  subst he he0 hm
  unfold State.doChunk
  rw [show s.unitStep t vectorUnit = some i from h]
  dsimp only
  rw [if_neg hmask, hdesc]
  dsimp only
  rw [hshort, hready]
  rfl

/-- Settles O21: mask logic, a chunk that waits, and a chunk that reads its operands. -/
theorem chunksIssue : Obligations.ChunksIssue := by
  intro sh n s i e e0 m lives he he0 hm hl h
  have hmaskEq := State.maskChunk_eq (s.stepped (tix sh n)) (tix sh n) i e
  rw [he] at hmaskEq
  refine ⟨fun hmask => ⟨_, congrArg Host.Outcome.next (State.doChunk_mask h (he ▸ hmask)), rfl, ?_, ?_, ?_⟩,
    fun hmask hdesc hshort hready => congrArg Host.Outcome.next (State.doChunk_waits he he0 hm h hmask hdesc hshort hready),
    fun s1 ins hmask hgather hdesc hshort hready hread k hk => ⟨fun hgood => congrArg Host.Outcome.next ?_, fun hbad hfault => congrArg Host.Outcome.next ?_⟩⟩
  · rw [hmaskEq, (State.retire_til _ _ _).2, State.til_setTil]
    rw [State.stepped_til, Tiller.vmWrite_wdog, ← he]
    rfl
  · rw [hmaskEq, (State.retire_til _ _ _).1, State.til_setTil, Tiller.vmWrite_insts]
    simp only [State.stepped_til]
  · intro t' ht
    rw [hmaskEq, State.retire_til_ne _ _ ht, State.til_setTil_ne _ _ ht, State.stepped_til_ne _ ht]
  · rw [State.doChunk_of_read he he0 hm hl h hmask hdesc hshort hready hread hgather, if_neg, ← hk]
    rcases hgood with hgood | hgood <;> simp [hgood]
  · rw [State.doChunk_of_read he he0 hm hl h hmask hdesc hshort hready hread hgather, if_pos]
    simp [hbad, hfault]

/-- Settles O23: the branches of the record's writing. -/
theorem statisticRecordsAreWritten : Obligations.StatisticRecordsAreWritten := by
  intro sh n s hrun
  refine ⟨fun k b i j hbank hinst hjob => congrArg Host.Outcome.next ?_, fun hnone => congrArg Host.Outcome.next ?_⟩
  · rw [State.doStatRecord, if_pos hrun]
    simp only [hbank, hinst, hjob]
  · rw [State.doStatRecord, if_pos hrun]
    simp only [hnone]

end Sys2Proof.Machine
end

section
/-! PROOFS. The frame of memory accesses, records and reports, and what a program fault leaves (R13, R173, R248, R290-R301, R528). -/

namespace Sys2Proof.Machine

/-! ### What accesses, records and reports may change

An access to memory can find errors, translate, and write records; a record can write memory and raise more records; a report
writes queues, rings and packets of flows. None of them reaches the Tillers, the rings of the host, the Glumes, the ports, the
groups, the engines or the power state, or a register field outside `reportFlds`. -/

/-- The register fields that accesses, records and reports may write. -/
def reportFlds : List Fld :=
  recordFlds ++ [.CTX_CQ_CFG_LOST, .CTX_CQ_POS_PROD, .OBS_TEL_POS_PROD, .OBS_TRC_POS_PROD, .OBS_STATUS_TEL_LOST,
    .OBS_STATUS_TRC_LOST, .OBS_STATUS_REMOTE_ERR, .OBS_STATUS_CAP_LINK, .OBS_STATUS_CAP_HBM]

/-- t differs from s only as accesses, records and reports may make it differ. -/
structure Reports (s t : State) : Prop where
  outside : t = { s with
    regs := t.regs
    mem := t.mem
    poison := t.poison
    ecc := t.ecc
    fresh := t.fresh
    contexts := t.contexts
    folds := t.folds
    tlbs := t.tlbs
    rows := t.rows
    memCtl := t.memCtl
    sendFlows := t.sendFlows
    mirror := t.mirror
    obs := t.obs
    audit := t.audit
    auditPrev := t.auditPrev }
  fld : ∀ (g : Fld) (j : Nat), g ∉ reportFlds → t.fld g j = s.fld g j
  flow : ∀ f : Nat, t.sendFlow f = { s.sendFlow f with queue := (t.sendFlow f).queue }

namespace Reports

theorem refl (s : State) : Reports s s := ⟨rfl, fun _ _ _ => rfl, fun _ => rfl⟩

theorem trans {s t u : State} (h : Reports s t) (k : Reports t u) : Reports s u :=
  ⟨k.outside.trans (by rw [h.outside]), fun g j hg => (k.fld g j hg).trans (h.fld g j hg),
    fun f => (k.flow f).trans (by rw [h.flow f])⟩

/-- An update of no register and no flow. -/
theorem of_eq {s t : State} (ho : t = { s with
    mem := t.mem
    poison := t.poison
    ecc := t.ecc
    fresh := t.fresh
    contexts := t.contexts
    folds := t.folds
    tlbs := t.tlbs
    rows := t.rows
    memCtl := t.memCtl
    mirror := t.mirror
    obs := t.obs
    audit := t.audit
    auditPrev := t.auditPrev }) : Reports s t := by
  have hr : t.regs = s.regs := by rw [ho]
  have hf : t.sendFlows = s.sendFlows := by rw [ho]
  exact ⟨by rw [hr, hf]; exact ho, fun g j _ => by simp only [State.fld, hr], fun f => by simp only [State.sendFlow, hf]⟩

theorem setFld (s : State) {f : Fld} (hf : f ∈ reportFlds) (i v : Nat) : Reports s (s.setFld f i v) :=
  ⟨rfl, fun _ j hg => s.fld_setFld_of_ne i j v (fun e => hg (e ▸ hf)), fun _ => rfl⟩

/-- A packet that joins a flow's queue. -/
theorem queuePkt (s : State) (f : Nat) (p : Pkt) : Reports s (s.queuePkt f p) := by
  refine ⟨rfl, fun _ _ _ => rfl, fun g => ?_⟩
  by_cases h : g = f
  · subst h
    simp only [State.queuePkt, State.sendFlow_setSendFlow]
  · have hg : (s.queuePkt f p).sendFlow g = s.sendFlow g := Tbl.get_put_ne _ _ _ _ _ h
    rw [hg]

theorem foldl {α : Type} {f : State → α → State} (hf : ∀ s x, Reports s (f s x)) (l : List α) (s : State) :
    Reports s (l.foldl f s) := by
  induction l generalizing s with
  | nil => exact refl s
  | cons x l ih => exact (hf s x).trans (ih (f s x))

theorem gather {α : Type} {f : State → α → State × List ErrRec} (hf : ∀ s x, Reports s (f s x).1) (l : List α)
    (s : State) : Reports s (gather f s l).1 := by
  suffices h : ∀ p : State × List ErrRec,
      Reports p.1 (l.foldl (fun p x => ((f p.1 x).1, p.2 ++ (f p.1 x).2)) p).1 from h (s, [])
  induction l with
  | nil => exact fun p => refl p.1
  | cons x l ih => exact fun p => (hf p.1 x).trans (ih ((f p.1 x).1, p.2 ++ (f p.1 x).2))

section Reading
variable {s t : State} (h : Reports s t)
include h

theorem til (k : Nat) : t.til k = s.til k := by
  rw [h.outside]
  rfl

theorem ring (k : Nat) : t.ring k = s.ring k := by
  rw [h.outside]
  rfl

theorem glume (k : Nat) : t.glume k = s.glume k := by
  rw [h.outside]
  rfl

theorem port (k : Nat) : t.port k = s.port k := by
  rw [h.outside]
  rfl

theorem flag (g : Fld) (j : Nat) (hg : g ∉ reportFlds) : t.flag g j = s.flag g j := by
  simp only [State.flag, h.fld g j hg]

end Reading
end Reports

/-! ### Check bits and poison of memory -/

theorem State.stopMark_reports (s : State) (cls : Nat) : Reports s (s.stopMark cls) := by
  unfold State.stopMark
  split
  · exact .setFld s (by decide) _ _
  · exact .refl s

theorem State.rowCe_reports (s : State) (w : Accessor) (a : Nat) (wr scrub : Bool) :
    Reports s (s.rowCe w a wr scrub).1 := by
  have hrows (rows : List RowCe) : Reports s { s with rows := rows } := .of_eq rfl
  have hseen (rows : List RowCe) (k : Nat) : Reports s (({ s with rows := rows } : State).setBit .HBM_STATUS_CE_SEEN 0 k) :=
    (hrows rows).trans (.setFld _ (by decide) _ _)
  unfold State.rowCe
  dsimp only
  split
  · split
    · exact (hseen _ _).trans (.of_eq rfl)
    · exact hseen _ _
  · exact hrows _

theorem State.wordLost_reports (s : State) (w : Accessor) (a : Nat) (wr scrub : Bool) :
    Reports s (s.wordLost w a wr scrub).1 := by
  have hmark : Reports s ((s.setEcc (s.wordKey a) .clean).setPoison (s.wordKey a) true) := .of_eq rfl
  unfold State.wordLost
  dsimp only
  split
  · exact hmark.trans (.setFld _ (by decide) _ _)
  · exact hmark.trans (.setFld _ (by decide) _ _)
  · exact hmark

theorem State.wordFixed_reports (s : State) (w : Accessor) (a : Nat) (wr scrub : Bool) :
    Reports s (s.wordFixed w a wr scrub).1 := by
  have hecc : Reports s (s.setEcc (s.wordKey a) .clean) := .of_eq rfl
  unfold State.wordFixed
  dsimp only
  split
  · exact hecc.trans (State.rowCe_reports ..)
  all_goals exact hecc.trans (.of_eq rfl)

theorem State.farPoison_reports (s : State) (w : Accessor) (a : Nat) : Reports s (s.farPoison w a).1 := by
  unfold State.farPoison
  split
  · exact .setFld s (by decide) _ _
  · exact .refl s

theorem State.checkWord_reports (s : State) (w : Accessor) (a : Nat) (wr : Bool) : Reports s (s.checkWord w a wr).1 := by
  unfold State.checkWord
  split
  · split
    · exact s.farPoison_reports w a
    · exact .refl s
  · exact s.wordFixed_reports w a wr false
  · exact s.wordLost_reports w a wr false

/-! ### Reading and writing memory -/

theorem State.countRead_reports (s : State) (a n : Nat) : Reports s (s.countRead a n) := by
  unfold State.countRead
  split <;> exact .of_eq rfl

theorem State.markDirty_reports (s : State) (a n : Nat) : Reports s (s.markDirty a n) := by
  unfold State.markDirty
  split <;> exact .of_eq rfl

theorem State.wrote_reports (s : State) (a n : Nat) : Reports s (s.wrote a n) := by
  unfold State.wrote
  split
  · exact (s.markDirty_reports a n).trans (.of_eq rfl)
  all_goals exact .of_eq rfl

theorem State.readBytes_reports (s : State) (w : Accessor) (a n : Nat) : Reports s (s.readBytes w a n).1 := by
  unfold State.readBytes
  dsimp only
  have hcheck := Reports.gather (fun s x => State.checkWord_reports s w x false)
    ((s.wordStarts a n).filter (fun x => s.accClass w x == 0)) s
  have huse (t : State) (c : Bool) : Reports t (if c then t else t.useFree) := by
    split <;> exact .of_eq rfl
  refine .trans (.trans hcheck ?_) (huse _ _)
  refine .trans ?_ (State.countRead_reports _ a n)
  split
  · exact .refl _
  · exact State.stopMark_reports _ _

theorem State.writeWord_reports (s : State) (w : Accessor) (x cover : Nat) (bad : Bool) :
    Reports s (s.writeWord w x cover bad).1 := by
  have hread : Reports s (if s.poisoned x then (s, []) else s.checkWord w x true).1 := by
    split
    · exact .refl s
    · exact s.checkWord_reports w x true
  unfold State.writeWord
  dsimp only
  split
  · exact .of_eq rfl
  · split
    · exact hread.trans (.of_eq rfl)
    · exact hread

theorem State.checkCells_reports (s : State) (w : Accessor) (good : List (Nat × PByte)) :
    Reports s (s.checkCells w good).1 :=
  .gather (fun t k => by
    dsimp only
    split
    · exact .refl t
    · exact State.writeWord_reports ..) _ s

theorem State.writeCells_reports (s : State) (w : Accessor) (cells : List (Nat × PByte)) :
    Reports s (s.writeCells w cells).1 := by
  have hpoke (l : List (Nat × PByte)) (t : State) : Reports t (l.foldl (fun st p => st.poke p.1 p.2.val) t) :=
    .foldl (fun t p => .of_eq rfl) l t
  rw [State.writeCells_eq]
  dsimp only
  split
  · exact (s.checkCells_reports w _).trans (hpoke _ _)
  · exact ((s.checkCells_reports w _).trans (hpoke _ _)).trans (State.stopMark_reports _ _)

theorem State.writeBytes_reports (s : State) (w : Accessor) (a : Nat) (bytes : List PByte) :
    Reports s (s.writeBytes w a bytes).1 :=
  (State.writeCells_reports ..).trans (State.wrote_reports ..)

/-! ### Translation -/

theorem State.walkReads_reports (s : State) (h : Option HostErr) (c cva : Nat) (u : UnitRef) :
    Reports s (s.walkReads h c cva u).1 := by
  unfold State.walkReads
  split
  · exact .refl s
  · exact .gather (fun t ea => t.readBytes_reports _ ea 8) _ s

theorem State.frozen_reports (s : State) (c cva acc : Nat) (u : UnitRef) : Reports s (s.frozen c cva acc u) :=
  have hheld : Reports s (s.holdWalk c cva acc u) := .of_eq rfl
  hheld.trans (.setFld _ (by decide) c 1)

theorem State.xlat_reports (s : State) (h : Option HostErr) (k c cva acc : Nat) (u : UnitRef) :
    Reports s (s.xlat h k c cva acc u).1 := by
  unfold State.xlat
  dsimp only
  split
  · split
    · exact s.frozen_reports c cva acc u
    · exact .of_eq rfl
  · split
    · exact .of_eq rfl
    · have hreads := s.walkReads_reports h c cva u
      split
      · exact hreads.trans (State.frozen_reports _ c cva acc u)
      · exact hreads.trans (.of_eq rfl)

/-! ### The queues of a context -/

/-- The fields of a queue that putting a record into it may write. -/
def QFld.reported (q : QFld) : Prop := q.lost ∈ reportFlds ∧ q.prod ∈ reportFlds

theorem errorQueue_reported : errorQueue.reported := by unfold QFld.reported; decide

theorem completionQueue_reported : completionQueue.reported := by unfold QFld.reported; decide

theorem State.setVector_reports (s : State) (c v : Nat) : Reports s (s.setVector c v) := .of_eq rfl

theorem State.setVectors_reports (s : State) (vecs : List (Nat × Nat)) : Reports s (s.setVectors vecs) := by
  unfold State.setVectors
  exact .foldl (fun t v => t.setVector_reports v.1 v.2) vecs s

section Queues
variable {q : QFld} (hq : q.reported)
include hq

theorem State.slotWrite_reports (s : State) (c k dev : Nat) (body : BitVec 256) (vecs : List (Nat × Nat)) :
    Reports s (s.slotWrite q c k dev body vecs).1 := by
  unfold State.slotWrite
  dsimp only
  split
  · exact (s.stopMark_reports _).trans (.setFld _ hq.1 _ _)
  · exact ((State.writeBytes_reports ..).trans (.setFld _ hq.2 _ _)).trans (State.setVectors_reports ..)

theorem State.queueWrite_reports (s : State) (c k : Nat) (body : BitVec 256) (vecs : List (Nat × Nat)) :
    Reports s (s.queueWrite q c k body vecs).1 := by
  have hx := s.xlat_reports none k c (s.fld q.base c * 64 + 32 * (s.fld q.prod c % queueEntries (s.fld q.size c))) 1
    (writerUnit k)
  unfold State.queueWrite
  dsimp only
  split
  · exact .setFld s hq.1 _ _
  · split
    · exact .of_eq rfl
    · split
      next e =>
        rw [e] at hx
        exact hx.trans (State.slotWrite_reports hq ..)
      next e =>
        rw [e] at hx
        exact hx.trans (.of_eq rfl)

end Queues

theorem State.mirrorRecord_reports (s : State) (c : Nat) (body : BitVec 256) : Reports s (s.mirrorRecord c body).1 := by
  unfold State.mirrorRecord
  split
  · exact State.queueWrite_reports errorQueue_reported ..
  · exact .refl s

theorem State.lostRecord_reports {q : QFld} (hq : q.reported) (s : State) (c : Nat) : Reports s (s.lostRecord q c).1 := by
  unfold State.lostRecord
  dsimp only
  split
  · exact .refl s
  · exact ((Reports.setFld s hq.1 _ _).trans (State.queueWrite_reports errorQueue_reported ..)).trans
      (State.mirrorRecord_reports ..)

theorem State.queuePut_reports {q : QFld} (hq : q.reported) (s : State) (c k : Nat) (body : BitVec 256)
    (vecs : List (Nat × Nat)) : Reports s (s.queuePut q c k body vecs).1 := by
  have hlost : Reports s (Machine.gather (fun s q => s.lostRecord q c) s (if q.cq then [errorQueue, q] else [q])).1 := by
    split
    · exact (State.lostRecord_reports errorQueue_reported s c).trans (State.lostRecord_reports hq _ c)
    · exact State.lostRecord_reports hq s c
  exact hlost.trans (State.queueWrite_reports hq ..)

/-! ### Raising -/

theorem State.post_reports (s : State) (r : ErrRec) (n mtime : Nat) : Reports s (s.post r n mtime).1 := by
  have hvectors (l : List Nat) (t : State) : Reports t (l.foldl (fun t v => t.setVector 0 v) t) :=
    .foldl (fun t v => t.setVector_reports 0 v) l t
  have hput := s.queuePut_reports errorQueue_reported (r.ctx.getD 0) portCache (r.bits n mtime) (recordVectors r)
  unfold State.post
  dsimp only
  refine .trans ?_ (hvectors _ _)
  split
  · dsimp only
    exact hput.trans (State.queuePut_reports errorQueue_reported _ 0 portCache (r.bits n mtime) [])
  · exact hput

theorem State.postAll_reports (depth : Nat) (s : State) (r : ErrRec) (n mtime : Nat) :
    Reports s (s.postAll depth r n mtime) := by
  induction depth generalizing s r n mtime with
  | zero => exact .setFld s (by decide) _ _
  | succ depth ih => exact (s.post_reports r n mtime).trans (.foldl (fun t e => ih t e 1 t.now) _ _)

theorem State.putRecord_reports (s : State) (r : ErrRec) (n mtime : Nat) : Reports s (s.putRecord r n mtime) :=
  State.postAll_reports ..

theorem State.record_reports (s : State) (r : ErrRec) : Reports s (s.record r) := by
  unfold State.record
  split
  · exact .of_eq rfl
  · exact s.putRecord_reports r 1 s.now

theorem State.auditPut_reports (s : State) (took : Bool) (o : AuditOrg) (cls off old data detail : Nat) :
    Reports s (s.auditPut took o cls off old data detail) :=
  ((Reports.setFld s (by decide) _ _).trans (.setFld _ (by decide) _ _)).trans (.of_eq rfl)

theorem State.audit!_reports (s : State) (took : Bool) (o : AuditOrg) (cls off old data detail : Nat) :
    Reports s (s.audit! took o cls off old data detail) := by
  have hput := s.auditPut_reports took o cls off old data detail
  unfold State.audit!
  dsimp only
  split
  · exact (Reports.setFld s (by decide) _ _).trans (State.record_reports ..)
  · split
    · exact hput.trans (.of_eq rfl)
    · exact hput

theorem State.raise_reports (s : State) (r : ErrRec) : Reports s (s.raise r) := by
  unfold State.raise
  dsimp only
  split
  · exact (s.record_reports r).trans (State.audit!_reports ..)
  · exact s.record_reports r

theorem State.raiseAll_reports (s : State) (l : List ErrRec) : Reports s (s.raiseAll l) :=
  .foldl (fun t r => t.raise_reports r) l s

theorem State.raiseNo_reports (s : State) (cls : Nat) (u : UnitRef) (detail : Nat) : Reports s (s.raiseNo cls u detail) :=
  s.raise_reports _

theorem State.raiseCtx_reports (s : State) (cls c : Nat) (u : UnitRef) (detail : Nat) :
    Reports s (s.raiseCtx cls c u detail) :=
  s.raise_reports _

theorem State.raiseGlume_reports (s : State) (cls c pid detail : Nat) : Reports s (s.raiseGlume cls c pid detail) :=
  have huse : Reports s s.useFree := .of_eq rfl
  huse.trans (State.raiseCtx_reports ..)

/-! ### Accesses with their records -/

theorem State.postTo_reports {q : QFld} (hq : q.reported) (s : State) (c k : Nat) (body : BitVec 256)
    (vecs : List (Nat × Nat)) : Reports s (s.postTo q c k body vecs).1 :=
  (State.queuePut_reports hq ..).trans (State.raiseAll_reports ..)

theorem State.translate_reports (s : State) (h : Option HostErr) (k c cva acc : Nat) (u : UnitRef) :
    Reports s (s.translate h k c cva acc u).1 :=
  (State.xlat_reports ..).trans (State.raiseAll_reports ..)

theorem State.memRead_reports (s : State) (w : Accessor) (a n : Nat) : Reports s (s.memRead w a n).1 :=
  (State.readBytes_reports ..).trans (State.raiseAll_reports ..)

theorem State.memWriteCells_reports (s : State) (w : Accessor) (cells : List (Nat × PByte)) :
    Reports s (s.memWriteCells w cells) :=
  (State.writeCells_reports ..).trans (State.raiseAll_reports ..)

theorem State.memWrite_reports (s : State) (w : Accessor) (a : Nat) (bytes : List PByte) :
    Reports s (s.memWrite w a bytes) :=
  (State.writeBytes_reports ..).trans (State.raiseAll_reports ..)

theorem State.readCva_reports (k c acc : Nat) (w : Accessor) (fuel : Nat) (s : State) (cva n : Nat) :
    Reports s (s.readCva k c cva n acc w fuel).1 := by
  induction fuel generalizing s cva n with
  | zero => exact .refl s
  | succ fuel ih =>
    have hx := s.translate_reports w.hostErr k c cva acc w.unit
    unfold State.readCva
    dsimp only
    split
    · exact .refl s
    · split
      next e =>
        rw [e] at hx
        exact (hx.trans (State.memRead_reports ..)).trans (ih ..)
      next e =>
        rw [e] at hx
        exact hx

theorem State.writeCva_reports (k c : Nat) (w : Accessor) (fuel : Nat) (s : State) (cva : Nat) (bytes : List PByte) :
    Reports s (s.writeCva k c cva bytes w fuel).1 := by
  induction fuel generalizing s cva bytes with
  | zero => exact .refl s
  | succ fuel ih =>
    have hx := s.translate_reports w.hostErr k c cva 1 w.unit
    unfold State.writeCva
    dsimp only
    split
    · exact .refl s
    · split
      next e =>
        rw [e] at hx
        exact (hx.trans (State.memWrite_reports ..)).trans (ih ..)
      next e =>
        rw [e] at hx
        exact hx

/-! ### Observation rings and trace events -/

/-- The fields of an observation ring that an entry may write. -/
def RingFld.reported (q : RingFld) : Prop := q.prod ∈ reportFlds ∧ q.lost ∈ reportFlds

theorem obsRing_reported (tel : Bool) : (if tel then telRing else trcRing).reported := by
  cases tel <;> (unfold RingFld.reported; decide)

theorem State.ringStore_reports {q : RingFld} (hq : q.reported) (s : State) (tel : Bool) (body : Nat → List Byte) :
    Reports s (s.ringStore tel q body) := by
  have htake (t : State) (remote : Bool) (n : Nat) : Reports t ((t.obsTake remote n).count 24 n) := by
    cases remote <;> exact .of_eq rfl
  unfold State.ringStore
  dsimp only
  refine .trans (.trans ?_ (htake _ _ _)) (.setFld _ hq.1 _ _)
  split
  · exact .queuePkt ..
  · exact State.memWrite_reports ..

theorem State.ringLost_reports (s : State) (tel : Bool) : Reports s (s.ringLost tel) := by
  have hcount : Reports s (if tel then { s with obs := { s.obs with telLost := s.obs.telLost + 1 } }
      else { s with obs := { s.obs with trcLost := s.obs.trcLost + 1 } }) := by
    split <;> exact .of_eq rfl
  exact hcount.trans (.setFld _ (by cases tel <;> decide) _ _)

theorem State.ringPut_reports (s : State) (tel : Bool) (body : Nat → List Byte) (lostBody : Nat → Nat → List Byte) :
    Reports s (s.ringPut tel body lostBody) := by
  have hstore (t : State) (b : Nat → List Byte) := State.ringStore_reports (obsRing_reported tel) t tel b
  have hclear (t : State) : Reports t (if tel then { t with obs := { t.obs with telLost := 0 } }
      else { t with obs := { t.obs with trcLost := 0 } }) := by
    split <;> exact .of_eq rfl
  unfold State.ringPut
  extract_lets q n full lost
  split
  · exact .refl s
  · split
    · split
      · exact hstore s body
      · exact (s.ringLost_reports tel).trans (.setFld _ (by decide) _ _)
    · split
      · exact s.ringLost_reports tel
      · split
        · have hentry := (hstore s (lostBody lost)).trans (hclear _)
          split
          · exact hentry.trans (State.ringLost_reports _ tel)
          · exact hentry.trans (hstore _ body)
        · exact hstore s body

theorem State.obsWindow_reports (s : State) : Reports s s.obsWindow := by
  unfold State.obsWindow
  split <;> exact .of_eq rfl

theorem State.trace_reports (s : State) (kind ctx : Nat) (u : UnitRef) (a b c : Nat) :
    Reports s (s.trace kind ctx u a b c) := by
  have hcap (r : Bool) : (if r then Fld.OBS_STATUS_CAP_LINK else .OBS_STATUS_CAP_HBM) ∈ reportFlds := by cases r <;> decide
  unfold State.trace
  dsimp only
  split
  · split
    · exact (s.obsWindow_reports.trans (State.ringLost_reports ..)).trans (.setFld _ (hcap _) _ _)
    · exact s.obsWindow_reports.trans (State.ringPut_reports ..)
  · exact .refl s

/-! ### Reports of commands (R285, R290) -/

theorem State.completion_reports (s : State) (c : Nat) (cmd : BitVec 512) (pos ring : Nat) (cancelled faulted : Bool)
    (cause dur : Nat) : Reports s (s.completion c cmd pos ring cancelled faulted cause dur) := by
  unfold State.completion
  extract_lets vecs
  split
  next p _ =>
    have hp : Reports s p.1 := State.postTo_reports completionQueue_reported ..
    split
    · exact hp.trans (State.setVectors_reports ..)
    · exact hp
  next => exact s.setVectors_reports _

theorem State.reportFault_reports (s : State) (r pos : Nat) (cmd : BitVec 512) (cls dur : Nat) :
    Reports s (s.reportFault r pos cmd cls dur) :=
  ((State.completion_reports ..).trans (State.trace_reports ..)).trans (State.raiseCtx_reports ..)

/-! ### A program fault (R173) -/

/-- What a Tiller keeps when its command faults: all but its arrays, what is in flight, and its command. -/
def Tiller.faulted (x : Tiller) : Tiller :=
  { x.clearArrays with
    insts := [], sigWait := [], banks := [], bankNext := 0, wait := none, gated := false, halting := false, stepping := false,
    ended := false, job := none, wdog := 0 }

theorem State.faultTiller_til (s : State) (t cls : Nat) : (s.faultTiller t cls).til t = (s.til t).faulted := s.til_setTil t _

theorem State.faultTiller_til_ne (s : State) {t k : Nat} (cls : Nat) (h : k ≠ t) : (s.faultTiller t cls).til k = s.til k :=
  s.til_setTil_ne _ h

/-- The register fields of a Tiller that its fault writes. -/
def faultFlds : List Fld :=
  [.TIL_PROG_STATUS_STATE, .TIL_PROG_STATUS_FAULT_CLASS, .TIL_PROG_IMAGE_NINST, .TIL_PROG_IMAGE_IMAGE_ID, .TIL_PROG_IMAGE_BASE16]

/-- A fault of one Tiller writes the fields of that Tiller only. -/
theorem State.faultTiller_fld (s : State) {t j : Nat} (cls : Nat) {g : Fld} (h : j ≠ t ∨ g ∉ faultFlds) :
    (s.faultTiller t cls).fld g j = s.fld g j := by
  have hne {f : Fld} (hf : f ∈ faultFlds) : ¬(f = g ∧ t = j) := by
    rintro ⟨rfl, rfl⟩
    exact h.elim (fun e => e rfl) (fun e => e hf)
  have hstep (u : State) {f : Fld} (hf : f ∈ faultFlds) (v : Nat) : (u.setFld f t v).fld g j = u.fld g j :=
    u.fld_setFld_ne f g t j v (hne hf)
  unfold State.faultTiller State.noProgram State.setTstate
  rw [hstep _ (by decide), hstep _ (by decide), hstep _ (by decide), hstep _ (by decide), hstep _ (by decide)]
  rfl

theorem State.faultTiller_state (s : State) (t cls : Nat) :
    (s.faultTiller t cls).tstate t = 7 ∧ (s.faultTiller t cls).fld .TIL_PROG_STATUS_FAULT_CLASS t = cls % 2 ^ 8 ∧
      (s.faultTiller t cls).fld .TIL_PROG_IMAGE_NINST t = 0 := by
  have hw : Fld.TIL_PROG_STATUS_STATE.width = 3 ∧ Fld.TIL_PROG_STATUS_FAULT_CLASS.width = 8 := by decide
  simp [State.faultTiller, State.noProgram, State.setTstate, State.tstate, hw]

/-- What the fault of a command leaves of a Tiller that does not hold it: the Tiller and its fields, and every field that is
neither a Tiller's status nor a report's. -/
structure Spares (t : Nat) (s u : State) : Prop where
  til : u.til t = s.til t
  fld : ∀ (g : Fld) (j : Nat), g ∉ reportFlds → (j = t ∨ g ∉ faultFlds) → u.fld g j = s.fld g j

namespace Spares

theorem refl (t : Nat) (s : State) : Spares t s s := ⟨rfl, fun _ _ _ _ => rfl⟩

theorem trans {t : Nat} {s u v : State} (h : Spares t s u) (k : Spares t u v) : Spares t s v :=
  ⟨k.til.trans h.til, fun g j hg hj => (k.fld g j hg hj).trans (h.fld g j hg hj)⟩

theorem of_reports {t : Nat} {s u : State} (h : Reports s u) : Spares t s u := ⟨h.til t, fun g j hg _ => h.fld g j hg⟩

end Spares

/-- A Tiller of the faulted command stops; one that holds another command or none is not touched. -/
theorem State.spares_faultHolder {t : Nat} {s : State} (h : (s.til t).job = none) (r pos k : Nat) :
    Spares t s (match (s.til k).job with
      | some j => if j.ring.toNat == r && j.pos == pos then s.faultTiller k 0x15 else s
      | none => s) := by
  split
  next j hj =>
    have hk : t ≠ k := fun e => by simp [← e, h] at hj
    split
    · exact ⟨s.faultTiller_til_ne _ hk, fun g i _ hi => s.faultTiller_fld _ (hi.imp_left fun e => e.trans_ne hk)⟩
    · exact .refl t s
  next => exact .refl t s

theorem State.commandFault_spares {t : Nat} {s : State} (h : (s.til t).job = none) (r pos cls : Nat) :
    Spares t s (s.commandFault r pos cls) := by
  have hfold (l : List (Nat × Nat)) (u : State) (hu : Spares t s u) : Spares t s (l.foldl (fun s p =>
      match (s.til p.1).job with
      | some j => if j.ring.toNat == r && j.pos == pos then s.faultTiller p.1 0x15 else s
      | none => s) u) := by
    induction l generalizing u with
    | nil => exact hu
    | cons p l ih => exact ih _ (hu.trans (State.spares_faultHolder (by rw [hu.til, h]) r pos p.1))
  have hring (u : State) (x : Ring) : Spares t u (u.setRing r x) := ⟨rfl, fun _ _ _ _ => rfl⟩
  unfold State.commandFault
  dsimp only
  split
  · exact .refl t s
  · exact ((hfold _ s (.refl t s)).trans (hring _ _)).trans (.of_reports (State.reportFault_reports ..))

/-- The record, and the Tiller's own stop: what a program fault does before its command faults. -/
def State.tillerFault (s : State) (t cls pc detail : Nat) : State :=
  ((s.raise ⟨cls, some (s.tctx t), tilUnit t, detail, true, false⟩).faultTiller t cls).setPc t pc

theorem State.tillerFault_til (s : State) (t cls pc detail : Nat) : (s.tillerFault t cls pc detail).til t = (s.til t).faulted := by
  rw [← (s.raise_reports ⟨cls, some (s.tctx t), tilUnit t, detail, true, false⟩).til t]
  exact (State.setFld_til_eq ..).trans (State.faultTiller_til ..)

theorem State.tillerFault_fld (s : State) (t cls pc detail : Nat) {g : Fld} (j : Nat) (hr : g ∉ reportFlds)
    (hf : g ∉ faultFlds) (hpc : .TIL_PROG_STATUS_PC ≠ g) : (s.tillerFault t cls pc detail).fld g j = s.fld g j := by
  rw [State.tillerFault, State.setPc, State.fld_setFld_of_ne _ _ _ _ hpc, State.faultTiller_fld _ _ (.inr hf),
    (s.raise_reports _).fld _ _ hr]

theorem State.tillerFault_state (s : State) (t cls pc detail : Nat) :
    (s.tillerFault t cls pc detail).tstate t = 7 ∧
      (s.tillerFault t cls pc detail).fld .TIL_PROG_STATUS_FAULT_CLASS t = cls % 2 ^ 8 ∧
      (s.tillerFault t cls pc detail).fld .TIL_PROG_IMAGE_NINST t = 0 ∧ (s.tillerFault t cls pc detail).pc t = pc % 2 ^ 16 := by
  have hpcw : Fld.TIL_PROG_STATUS_PC.width = 16 := by decide
  obtain ⟨hstate, hclass, hninst⟩ := (s.raise ⟨cls, some (s.tctx t), tilUnit t, detail, true, false⟩).faultTiller_state t cls
  unfold State.tillerFault State.setPc
  refine ⟨?_, ?_, ?_, by rw [State.pc, State.fld_setFld_same, hpcw]⟩
  · rw [State.tstate, State.fld_setFld_of_ne _ _ _ _ (by decide)]
    exact hstate
  · rw [State.fld_setFld_of_ne _ _ _ _ (by decide), hclass]
  · rw [State.fld_setFld_of_ne _ _ _ _ (by decide), hninst]

theorem State.progFault_spares (s : State) (t cls pc detail : Nat) :
    Spares t (s.tillerFault t cls pc detail) (s.progFault t cls pc detail) := by
  have hjob : ((s.tillerFault t cls pc detail).til t).job = none := by
    rw [State.tillerFault_til]
    rfl
  unfold State.progFault
  dsimp only
  split
  · exact State.commandFault_spares hjob ..
  · exact .refl t _

/-- Settles O14: the fault of the command leaves the Tiller as its own fault left it. -/
theorem programFaultStopsTiller : Obligations.ProgramFaultStopsTiller := by
  rintro s u t cls pc detail hcls hpc rfl
  have hspares := s.progFault_spares t cls pc detail
  obtain ⟨hstate, hclass, hninst, hpcs⟩ := s.tillerFault_state t cls pc detail
  have hown {g : Fld} (hg : g ∉ reportFlds) := hspares.fld g t hg (.inl rfl)
  have htil := hspares.til.trans (s.tillerFault_til t cls pc detail)
  have hseven : (s.progFault t cls pc detail).tstate t = 7 := (hown (by decide)).trans hstate
  refine ⟨hseven, (hown (by decide)).trans (hclass.trans (Nat.mod_eq_of_lt hcls)),
    (hown (by decide)).trans (hpcs.trans (Nat.mod_eq_of_lt hpc)), (hown (by decide)).trans hninst, ?_, ?_, ?_, ?_, ?_, ?_, ?_, ?_,
    by simp [State.unitsRun, hseven],
    fun k => (hspares.fld _ _ (by decide) (.inr (by decide))).trans (s.tillerFault_fld t cls pc detail _ (by decide) (by decide) (by decide))⟩
  all_goals
    rw [htil]
    rfl

end Sys2Proof.Machine
end

section
/-! PROOFS. Glumes and step barriers (R188-R215, R219, R221, R228-R230). -/

namespace Sys2Proof.Machine

/-! ### Administration (R194, R219) -/

theorem State.adminOp_of_idle {s : State} {o : Origin} (h : s.answers o .GLM_ADMIN) (hidle : s.adminPid = none) (op ctx pid : Nat)
    (act : State → State) : s.adminOp o op ctx pid act =
      s.auditOf (act (s.latch .GLM_ADMIN 0 pid)) true (Origin.audit o) .GLM_ADMIN 0 (op * 2 ^ 60 + ctx * 2 ^ 32 + pid) := by
  rw [State.adminOp, State.regCmd_trigger h (by decide) (by decide)]
  simp [hidle]

theorem State.adminOp_of_busy {s : State} {o : Origin} (h : s.answers o .GLM_ADMIN) (hbusy : s.adminPid ≠ none) (op ctx pid : Nat)
    (act : State → State) : s.adminOp o op ctx pid act =
      s.auditOf ((s.latch .GLM_ADMIN 0 pid).adminRefuse 4) true (Origin.audit o) .GLM_ADMIN 0
        (op * 2 ^ 60 + ctx * 2 ^ 32 + pid) := by
  rw [State.adminOp, State.regCmd_trigger h (by decide) (by decide)]
  simp [Option.isSome_iff_ne_none, hbusy]

@[simp] theorem State.latch_glume (s : State) (r : Reg) (i v p : Nat) : (s.latch r i v).glume p = s.glume p := rfl

/-- Settles O25: each operation while none is in progress, by the state of its Glume, and each while one is. -/
theorem glumesAreAdministered : Obligations.GlumesAreAdministered := by
  intro s o pid
  have hpid : BitVec.ofNat 16 pid.toNat = pid := BitVec.ofNat_toNat ..
  refine ⟨?admin, rfl, ?inval, ?done⟩
  case admin =>
    rintro h s0 rfl
    refine ⟨fun c hidle hfree => ?_, fun c hidle hfree => ?_, fun hidle howned => ?_, fun hidle howned => ?_,
      fun hidle hfrozen => ?_, fun hidle hfrozen => ?_, fun hidle => ?_, fun hbusy c p hp => ?_⟩
    · refine congrArg Host.Outcome.next ((State.adminOp_of_idle h hidle 1 c.toNat pid.toNat _).trans ?_)
      simp only [State.doAllocate, State.latch_glume, hfree, if_true, State.adminBegin, hpid, BitVec.ofNat_toNat, Nat.one_mul]
      rfl
    · refine congrArg Host.Outcome.next ((State.adminOp_of_idle h hidle 1 c.toNat pid.toNat _).trans ?_)
      simp only [State.doAllocate, State.latch_glume, hfree, if_false, State.adminRefuse, Nat.one_mul]
    · refine congrArg Host.Outcome.next ((State.adminOp_of_idle h hidle 2 0 pid.toNat _).trans ?_)
      simp only [State.doFreeze, State.latch_glume, howned, if_true, State.adminBegin, hpid, Nat.zero_mul, Nat.add_zero]
    · refine congrArg Host.Outcome.next ((State.adminOp_of_idle h hidle 2 0 pid.toNat _).trans ?_)
      simp only [State.doFreeze, State.latch_glume, howned, if_false, State.adminRefuse, Nat.zero_mul, Nat.add_zero]
    · refine congrArg Host.Outcome.next ((State.adminOp_of_idle h hidle 3 0 pid.toNat _).trans ?_)
      simp only [State.doFree, State.latch_glume, hfrozen, if_true, State.adminBegin, hpid, Nat.zero_mul, Nat.add_zero]
      rfl
    · refine congrArg Host.Outcome.next ((State.adminOp_of_idle h hidle 3 0 pid.toNat _).trans ?_)
      simp only [State.doFree, State.latch_glume, hfrozen, if_false, State.adminRefuse, Nat.zero_mul, Nat.add_zero]
    · refine congrArg Host.Outcome.next ((State.adminOp_of_idle h hidle 4 0 pid.toNat _).trans ?_)
      simp only [State.doRead, State.adminBegin, hpid, Nat.zero_mul, Nat.add_zero]
      rfl
    · simp only [List.mem_cons, List.not_mem_nil, or_false] at hp
      rcases hp with rfl | rfl | rfl | rfl
      · exact congrArg Host.Outcome.next ((State.adminOp_of_busy h hbusy 1 c.toNat pid.toNat _).trans (by rw [Nat.one_mul]; rfl))
      · exact congrArg Host.Outcome.next ((State.adminOp_of_busy h hbusy 2 0 pid.toNat _).trans (by rw [Nat.zero_mul]; rfl))
      · exact congrArg Host.Outcome.next ((State.adminOp_of_busy h hbusy 3 0 pid.toNat _).trans (by rw [Nat.zero_mul]; rfl))
      · exact congrArg Host.Outcome.next ((State.adminOp_of_busy h hbusy 4 0 pid.toNat _).trans (by rw [Nat.zero_mul]; rfl))
  case inval =>
    intro c all vid h hidle
    refine congrArg Host.Outcome.next ((State.access_of_answers h _).trans ?_)
    simp only [State.doXlatInval, State.latch_glmInval, hidle]
  case done =>
    intro c all vid hbusy
    refine congrArg Host.Outcome.next ?_
    simp only [State.doXlatInvalComplete, hbusy, State.dropXlat]

/-! ### Signals at their bank (R188, R190, R192, R193) -/

/-- The signals of a cycle: some of those to the Glume, at most n, in their order; the others stay in theirs. -/
theorem takeSigs_spec (pid : BitVec 16) (l : List Sig) (n : Nat) (held : Bool) :
    (takeSigs pid n held l).1.Sublist l ∧ (takeSigs pid n held l).2.Sublist l ∧ (takeSigs pid n held l).1.length ≤ n ∧
      (∀ x ∈ (takeSigs pid n held l).1, x.pid = pid ∧ (held = true → x.host = false)) := by
  induction l generalizing n held with
  | nil => simp [takeSigs]
  | cons x xs ih =>
    simp only [takeSigs]
    split
    next hx =>
      obtain ⟨hpid, hn, hhost⟩ := hx
      obtain ⟨htake, hstay, hlen, hall⟩ := ih (n - 1) held
      refine ⟨htake.cons_cons x, hstay.cons x, by simp only [List.length_cons]; omega, fun y hy => ?_⟩
      rcases List.mem_cons.mp hy with rfl | hy
      · exact ⟨hpid, fun h => by simpa [h] using hhost⟩
      · exact hall y hy
    next =>
      obtain ⟨htake, hstay, hlen, hall⟩ := ih n (held || x.host)
      exact ⟨htake.cons x, hstay.cons_cons x, hlen, fun y hy => ⟨(hall y hy).1, fun h => (hall y hy).2 (by simp [h])⟩⟩

/-- A first host signal to another Glume lets no later host signal pass (R228). -/
theorem takeSigs_hostFirst {pid : BitVec 16} {y : Sig} (hhost : y.host = true) (hpid : y.pid ≠ pid) (n : Nat) (l : List Sig) :
    ∀ x ∈ (takeSigs pid n false (y :: l)).1, x.host = false := by
  have hstay : takeSigs pid n false (y :: l) = ((takeSigs pid n true l).1, y :: (takeSigs pid n true l).2) := by
    simp [takeSigs, hpid, hhost]
  rw [hstay]
  exact fun x hx => ((takeSigs_spec pid l n true).2.2.2 x hx).2 rfl

theorem takeSigs_none {pid : BitVec 16} {l : List Sig} (h : ∀ y ∈ l, y.pid ≠ pid) (n : Nat) (held : Bool) :
    takeSigs pid n held l = ([], l) := by
  induction l generalizing held with
  | nil => rfl
  | cons x xs ih =>
    simp only [takeSigs, h x (List.mem_cons_self ..), false_and, if_false, ih fun y hy => h y (List.mem_cons_of_mem _ hy)]

/-- A single signal that its bank refuses is turned away. -/
theorem State.applySigs_refused {s : State} {x : Sig} {cls p : Nat} (h : s.bankCheck x = .bad cls p) :
    s.applySigs [x] = s.turnAway x := by
  simp [State.applySigs, h]

/-- Signals that their bank takes add up at their Glume. -/
theorem State.applySigs_taken {s : State} {x : Sig} {xs : List Sig} (h : ∀ y ∈ x :: xs, s.bankCheck y = .ok y.pid.toNat) :
    s.applySigs (x :: xs) = s.glumeAdd x.pid.toNat x (((x :: xs).map (fun y => y.value.toNat)).sum) := by
  have hstay (l : List Sig) (hl : ∀ y ∈ l, s.bankCheck y = .ok y.pid.toNat) : l.foldl (fun s x => s.turnAway x) s = s := by
    induction l with
    | nil => rfl
    | cons y l ih =>
      have hy : s.turnAway y = s := by simp [State.turnAway, hl y (List.mem_cons_self ..)]
      rw [List.foldl_cons, hy, ih fun z hz => hl z (List.mem_cons_of_mem _ hz)]
  have hall : (x :: xs).filter (fun y => s.bankCheck y == .ok y.pid.toNat) = x :: xs :=
    List.filter_eq_self.mpr fun y hy => by simp [h y hy]
  rw [State.applySigs, hstay _ h, hall]

theorem State.glumeAdd_within {s : State} {pid total : Nat} (h : (s.glume pid).value.toNat + total < 2 ^ 64) (x : Sig) :
    s.glumeAdd pid x total =
      s.setGlume pid { s.glume pid with value := BitVec.ofNat 64 ((s.glume pid).value.toNat + total) } := by
  have hle : (s.glume pid).value.toNat + total ≤ glumeMax := Nat.le_sub_one_of_lt h
  simp only [State.glumeAdd, Nat.min_eq_left hle, if_neg (Nat.not_lt.mpr hle)]

theorem State.glumeAdd_above {s : State} {pid total : Nat} (h : 2 ^ 64 ≤ (s.glume pid).value.toNat + total) (x : Sig) :
    s.glumeAdd pid x total = (s.setGlume pid { s.glume pid with value := BitVec.ofNat 64 (2 ^ 64 - 1) }).raiseCtx 0x23
      x.ctx.toNat ⟨3, pid / 4096 % 16⟩ (glumeDetail x.vid.toNat pid 0 0 (min total (2 ^ 64 - 1))) := by
  have hlt : glumeMax < (s.glume pid).value.toNat + total := by unfold glumeMax; omega
  simp only [State.glumeAdd, Nat.min_eq_right hlt.le, if_pos hlt]
  rfl

theorem State.bankCheck_frozen {s : State} {x : Sig} (hbank : x.pid.toNat / 4096 ≠ 15) (hfence : s.bankFenced x.pid.toNat = false)
    (hst : (s.glume x.pid.toNat).st = .frozen) (howner : (s.glume x.pid.toNat).owner = x.ctx) :
    s.bankCheck x = .bad 0x26 x.pid.toNat := by
  simp [State.bankCheck, State.glumeCheck, State.glumeHeld, hbank, hfence, hst, howner]

theorem State.bankCheck_free {s : State} {x : Sig} (hbank : x.pid.toNat / 4096 ≠ 15) (hst : (s.glume x.pid.toNat).st = .free) :
    s.bankCheck x = .bad 0x21 x.pid.toNat := by
  simp [State.bankCheck, State.glumeCheck, State.glumeHeld, hbank, hst]

theorem State.bankCheck_owned {s : State} {x : Sig} (hbank : x.pid.toNat / 4096 ≠ 15) (hfence : s.bankFenced x.pid.toNat = false)
    (hst : (s.glume x.pid.toNat).st = .owned) (howner : (s.glume x.pid.toNat).owner = x.ctx) :
    s.bankCheck x = .ok x.pid.toNat := by
  simp [State.bankCheck, State.glumeCheck, State.glumeHeld, hbank, hfence, hst, howner]

theorem State.turnAway_bad {s : State} {x : Sig} {cls p : Nat} (h : s.bankCheck x = .bad cls p) :
    s.turnAway x = if cls = 0x26 then s.dropSignal else
      s.raiseCtx cls x.ctx.toNat (bankUnit x.pid.toNat) (glumeDetail x.vid.toNat x.pid.toNat 0 0 x.value.toNat) := by
  unfold State.turnAway
  rw [h]
  split <;> simp_all

/-! ### Waits (R198-R200, R205) -/

/-- A Tiller that is woken has no wait, and runs on behind its WAIT. -/
theorem State.wakeTiller_runs {s : State} {t : Nat} (hstep : (s.til t).stepping = false) (hhalt : (s.til t).halting = false)
    (vid th v : Nat) :
    ((s.wakeTiller t vid th v).til t).wait = none ∧ ((s.wakeTiller t vid th v).til t).gated = false ∧
      (s.wakeTiller t vid th v).pc t = (s.pc t + 1) % 2 ^ 16 ∧ (s.wakeTiller t vid th v).tstate t = 4 := by
  have hwidth : Fld.TIL_PROG_STATUS_STATE.width = 3 := by decide
  obtain ⟨u, hu⟩ : ∃ u, u = (s.setTil t { s.til t with wait := none, gated := false }).setTstate t 4 := ⟨_, rfl⟩
  have htil : u.til t = { s.til t with wait := none, gated := false } := by rw [hu]; exact s.til_setTil t _
  have hpc : u.pc t = s.pc t := by rw [hu]; exact State.fld_setFld_of_ne _ _ _ _ (by decide)
  have hstate : u.tstate t = 4 := by rw [hu, State.tstate, State.setTstate, State.fld_setFld_same, hwidth]; rfl
  have htrace := (u.nextPc t (u.pc t)).trace_reports 4 (s.tctx t) (tilUnit t) vid th v
  have hwake : s.wakeTiller t vid th v = (u.nextPc t (u.pc t)).trace 4 (s.tctx t) (tilUnit t) vid th v := by rw [hu]; rfl
  have hserved : (u.nextPc t (u.pc t)).til t = (u.til t).served := (u.setPc t (u.pc t + 1)).dispatched_til t
  rw [hwake, htrace.til t, hserved, htil]
  refine ⟨rfl, rfl, ?_, ?_⟩
  · rw [State.pc, htrace.fld _ _ (by decide), ← hpc]
    exact u.nextPc_pc t _
  · rw [State.tstate, htrace.fld _ _ (by decide)]
    refine (u.nextPc_tstate t _).trans ?_
    simp [htil, hstep, hhalt, hstate]

/-- Settles O24: the branches of the bank, of the waits and of the host's window. -/
theorem glumesSignalAndWait : Obligations.GlumesSignalAndWait := by
  intro s
  refine ⟨?refused, ?added, ?none, ?taken, ?tiller, fun r => rfl, ?command, fun c => ⟨rfl, rfl⟩, fun k => ⟨rfl, rfl⟩, ?woken,
    ?fired, ?armed, ?sent, ?read, fun c h => congrArg Host.Outcome.next (if_neg (by simp [h]))⟩
  case refused =>
    rintro pid n x rest s0 g htake rfl rfl
    have hact {cls p : Nat} (h : ({ s with signals := rest } : State).bankCheck x = .bad cls p) :
        s.doSignalApply pid n.toNat = ({ s with signals := rest } : State).turnAway x := by
      rw [State.doSignalApply, htake]
      exact State.applySigs_refused h
    refine ⟨fun hbank hfence hst howner => congrArg Host.Outcome.next ?_, fun hbank hst => congrArg Host.Outcome.next ?_,
      fun hbank => congrArg Host.Outcome.next ?_⟩
    · have h : ({ s with signals := rest } : State).bankCheck x = .bad 0x26 x.pid.toNat := State.bankCheck_frozen hbank hfence hst howner
      rw [hact h, State.turnAway_bad h, if_pos rfl, State.dropSignal]
    · have h : ({ s with signals := rest } : State).bankCheck x = .bad 0x21 x.pid.toNat := State.bankCheck_free hbank hst
      rw [hact h, State.turnAway_bad h, if_neg (by decide), bankUnit]
    · have h : ({ s with signals := rest } : State).bankCheck x = .bad 0x2A x.pid.toNat := by simp [State.bankCheck, hbank]
      rw [hact h, State.turnAway_bad h, if_neg (by decide), bankUnit, hbank]
  case added =>
    rintro pid n x xs rest s0 g total htake hs0 rfl hbank hfence hst howner rfl
    have hglume : s0.glume pid.toNat = s.glume pid.toNat := by
      rw [hs0]
      rfl
    have hfence0 : s0.bankFenced pid.toNat = false := by
      rw [hs0]
      exact hfence
    have hpid : ∀ y ∈ x :: xs, y.pid = pid := fun y hy =>
      ((takeSigs_spec pid s.signals n.toNat false).2.2.2 y (by rw [htake]; exact hy)).1
    have hact : s.doSignalApply pid n.toNat = s0.glumeAdd pid.toNat x (((x :: xs).map (fun y => y.value.toNat)).sum) := by
      rw [State.doSignalApply, htake, ← hpid x (List.mem_cons_self ..)]
      simp only [← hs0]
      refine State.applySigs_taken fun y hy => ?_
      refine State.bankCheck_owned ?_ ?_ ?_ ?_ <;> rw [hpid y hy]
      · exact hbank
      · exact hfence0
      · rw [hglume, hst]
      · rw [hglume, howner y hy]
    rw [← hglume]
    refine ⟨fun hsum => congrArg Host.Outcome.next ?_, fun hsum => congrArg Host.Outcome.next ?_⟩
    · rw [hact]
      exact State.glumeAdd_within hsum x
    · rw [hact]
      exact State.glumeAdd_above hsum x
  case none =>
    intro pid n h
    refine congrArg Host.Outcome.next ?_
    rw [State.doSignalApply, takeSigs_none h]
    rfl
  case taken =>
    intro pid n l
    obtain ⟨htake, hstay, hlen, hall⟩ := takeSigs_spec pid l n false
    refine ⟨htake, hstay, hlen, fun x hx => (hall x hx).1, ?_⟩
    rintro y l' rfl hhost hpid
    exact takeSigs_hostFirst hhost hpid n l'
  case tiller =>
    intro sh n w hw
    refine ⟨fun hready hmet => congrArg Host.Outcome.next ?_, fun hunmet => congrArg Host.Outcome.next ?_,
      fun hover => congrArg Host.Outcome.next ?_, fun hzero => congrArg Host.Outcome.next ?_⟩
    · simp [State.doSatisfied, State.tillerSatisfied, hw, hready, State.waitMet, hmet]
    · simp [State.doSatisfied, State.tillerSatisfied, hw, State.waitMet, hunmet]
    · simp [State.doTimeout, State.tillerTimeout, hw, hover, State.tillerWaitFails, State.waitDetail, tix_div, tix_mod]
    · simp [State.doTimeout, State.tillerTimeout, hw, State.waitOver, hzero]
  case command =>
    intro r w hw hover
    refine congrArg Host.Outcome.next ?_
    simp [State.doTimeout, State.headTimeout, hw, hover, State.headWaitFails, State.waitDetail, bankUnit, ringWaiter]
  case woken =>
    rintro t vid th v u - hstep hhalt rfl
    exact State.wakeTiller_runs hstep hhalt vid th v
  case fired =>
    intro c w hw
    refine congrArg Host.Outcome.next ?_
    simp [State.doNotifyFire, hw, State.waitMet, State.fireNotify]
  case armed =>
    rintro c vid s0 s1 pid th hwin rfl hth rfl hx hpid hth2 hunmet
    refine congrArg Host.Outcome.next ?_
    rw [if_pos hwin, State.doArm]
    simp only [hth, if_false, rachisB, hx]
    rw [if_neg]
    simp only [State.waitMet, BitVec.toNat_ofNat, Nat.mod_eq_of_lt hpid, Nat.mod_eq_of_lt hth2]
    simpa using hunmet
  case sent =>
    intro c vid hwin hval s1 pid hx
    refine congrArg Host.Outcome.next ?_
    rw [if_pos hwin, State.sendSignalBy, if_neg hval]
    simp only [rachisB, hx]
  case read =>
    intro c s1 pid hwin hx hst howner
    refine congrArg Host.Outcome.next ?_
    rw [if_pos hwin, State.doValueRead]
    simp only [rachisB, hx]
    have hheld : s1.glumeHeld c.toNat pid = .ok pid ∨ s1.glumeHeld c.toNat pid = .bad 0x26 pid := by
      simp only [State.glumeHeld, howner]
      cases hg : (s1.glume pid).st <;> simp_all
    rcases hheld with hheld | hheld <;> rw [hheld] <;> rfl

/-! ### Packets at the front of a port (R361-R365) -/

/-- A good packet that stands at the front of an open port's units is taken. -/
theorem State.checkPkt_of_comes {s : State} {port type : Nat} {hdr : BitVec 256} {payload : List Byte} {ctl : Bool} {p : Pkt}
    (h : s.comes port type hdr payload ctl p) (act : State → Pkt → State) :
    s.checkPkt port type hdr payload act = act (s.taken port hdr payload ctl p) p := by
  obtain ⟨hopen, hgood, rfl, htype, hwhole, hfront, hpart⟩ := h
  simp only [State.checkPkt, hopen, hgood, htype, hwhole, hfront, hpart, beq_self_eq_true, Bool.or_true, Bool.and_self, if_true,
    Bool.false_eq_true, if_false, ne_eq, not_true_eq_false, State.taken]

/-! ### What a release leaves (R213, R214) -/

theorem State.glumeEntry_fld (s : State) (k c vid : Nat) {g : Fld} (j : Nat) (hg : g ∉ reportFlds) :
    (s.glumeEntry k c vid).1.fld g j = s.fld g j := by
  unfold State.glumeEntry
  dsimp only
  split
  · rfl
  · split <;> exact (s.memRead_reports _ _ _).fld g j hg

theorem State.glumePid_fld (s : State) (k c vid : Nat) {g : Fld} (j : Nat) (hg : g ∉ reportFlds) :
    (s.glumePid k c vid).1.fld g j = s.fld g j := by
  unfold State.glumePid
  dsimp only
  split
  · rfl
  · split
    · exact s.glumeEntry_fld k c vid j hg
    · split <;> exact s.glumeEntry_fld k c vid j hg

theorem State.glumeXlat_fld (s : State) (k c vid : Nat) {g : Fld} (j : Nat) (hg : g ∉ reportFlds) :
    (s.glumeXlat k c vid).1.fld g j = s.fld g j := by
  have h := s.glumePid_fld k c vid j hg
  unfold State.glumeXlat
  split
  next e =>
    rw [e] at h
    exact h
  next => exact h

theorem State.sendSignal_fld (s : State) (k c vid value : Nat) {g : Fld} (j : Nat) (hg : g ∉ reportFlds)
    (hd : .GLM_STATUS_DROPPED ≠ g) : (s.sendSignal k c vid value).fld g j = s.fld g j := by
  have h := s.glumeXlat_fld k c vid j hg
  unfold State.sendSignal State.sendSignalBy
  split
  · rfl
  · split
    next e =>
      rw [e] at h
      exact h
    next e =>
      rw [e] at h
      exact (State.fld_setFld_of_ne _ _ _ _ hd).trans h
    next e =>
      rw [e] at h
      exact ((State.raiseGlume_reports ..).fld g j hg).trans h

theorem State.glumeAdd_fld (s : State) (pid : Nat) (x : Sig) (total : Nat) {g : Fld} (j : Nat) (hg : g ∉ reportFlds) :
    (s.glumeAdd pid x total).fld g j = s.fld g j := by
  unfold State.glumeAdd
  dsimp only
  split
  · exact (State.raiseCtx_reports ..).fld g j hg
  · rfl

theorem State.setCopies_fld (s : State) (pid v : Nat) (g : Fld) (j : Nat) : (s.setCopies pid v).fld g j = s.fld g j := by
  unfold State.setCopies
  split <;> rfl

theorem State.releaseGlume_fld (s : State) (k : Nat) {g : Fld} (j : Nat) (hg : g ∉ reportFlds) (hd : .GLM_STATUS_DROPPED ≠ g) :
    (s.releaseGlume k).fld g j = s.fld g j := by
  unfold State.releaseGlume
  dsimp only
  split
  · split
    · rw [State.setCopies_fld, State.glumeAdd_fld _ _ _ _ _ hg, State.glumeXlat_fld _ _ _ _ _ hg]
    · exact s.sendSignal_fld _ _ _ _ _ hg hd
  · exact s.sendSignal_fld _ _ _ _ _ hg hd

theorem State.recoveryPoint_frame (s : State) (k : Nat) : (s.recoveryPoint k).barriers = s.barriers ∧
    ∀ g j, .HBM_LOG_STATUS_RECORDS ≠ g → (s.recoveryPoint k).fld g j = s.fld g j := by
  unfold State.recoveryPoint
  split
  · exact ⟨rfl, fun g j hg => State.fld_setFld_of_ne _ _ _ _ hg⟩
  · exact ⟨rfl, fun _ _ _ => rfl⟩

theorem State.noteStretch_frame (s : State) (k t r : Nat) (st : BitVec 16) :
    (s.noteStretch k t r st).barriers = s.barriers ∧ (s.noteStretch k t r st).regs = s.regs := by
  unfold State.noteStretch
  split <;> exact ⟨rfl, rfl⟩

/-- After a release the slot is at its start, its round counted and its time noted. -/
theorem State.release_slot (s : State) (k t : Nat) (st : BitVec 16) (ht : t < 2 ^ 64) :
    (s.release k t st).barrier k = Barrier.reset ∧ (s.release k t st).fld .GLM_BAR_LAST_MTIME k = t ∧
      (s.release k t st).fld .GLM_BAR_STATUS_ROUND k = (s.fld .GLM_BAR_STATUS_ROUND k + 1) % 2 ^ 32 := by
  have hwidth : Fld.GLM_BAR_LAST_MTIME.width = 64 ∧ Fld.GLM_BAR_STATUS_ROUND.width = 32 := by decide
  obtain ⟨u, hu⟩ : ∃ u, u = ((((s.releaseGlume k).setBarrier k Barrier.reset).wrapAdd .GLM_BAR_STATUS_ROUND k 1).setFld
    .GLM_BAR_LAST_MTIME k t) := ⟨_, rfl⟩
  have hrel : s.release k t st = ((u.useFree.recoveryPoint k).noteStretch k t (s.barRound k) st).trace 8 (s.barCtx k)
      (u.glumeUnit 0xFFFF) k (s.barRound k) t := by
    rw [hu]
    rfl
  have htrace := ((u.useFree.recoveryPoint k).noteStretch k t (s.barRound k) st).trace_reports 8 (s.barCtx k)
    (u.glumeUnit 0xFFFF) k (s.barRound k) t
  obtain ⟨hbarN, hregN⟩ := (u.useFree.recoveryPoint k).noteStretch_frame k t (s.barRound k) st
  obtain ⟨hbarR, hfldR⟩ := u.useFree.recoveryPoint_frame k
  have hfld (g : Fld) (hg : g ∉ reportFlds) (hne : .HBM_LOG_STATUS_RECORDS ≠ g) : (s.release k t st).fld g k = u.fld g k := by
    rw [hrel, htrace.fld g k hg, State.fld, hregN]
    exact hfldR g k hne
  refine ⟨?_, ?_, ?_⟩
  · rw [hrel, State.barrier, htrace.outside]
    show Tbl.get Barrier.reset ((u.useFree.recoveryPoint k).noteStretch k t (s.barRound k) st).barriers k = Barrier.reset
    rw [hbarN, hbarR, hu]
    exact Tbl.get_put_same ..
  · rw [hfld _ (by decide) (by decide), hu, State.fld_setFld_same, hwidth.1, Nat.mod_eq_of_lt ht]
  · rw [hfld _ (by decide) (by decide), hu, State.fld_setFld_of_ne _ _ _ _ (by decide), State.wrapAdd, State.fld_setFld_same,
      hwidth.2]
    exact congrArg (fun n => (n + 1) % 2 ^ 32) (s.releaseGlume_fld k k (by decide) (by decide))

section Tokens
variable {s : State} {k round : Nat} (act : State → State)

theorem State.token_taken (hen : s.flag .GLM_BAR_CFG0_ENABLE k = true)
    (hround : round = (s.fld .GLM_BAR_STATUS_ROUND k + 1) % 2 ^ 32) : s.token k round act = act s := by
  rw [State.token, hen]
  exact if_neg (not_not.mpr hround)

theorem State.token_off (hoff : s.flag .GLM_BAR_CFG0_ENABLE k = false) :
    s.token k round act = s.satAdd .GLM_STATUS_DROPPED 0 1 := by
  rw [State.token, hoff]
  rfl

theorem State.token_other (hen : s.flag .GLM_BAR_CFG0_ENABLE k = true)
    (hround : round ≠ (s.fld .GLM_BAR_STATUS_ROUND k + 1) % 2 ^ 32) :
    s.token k round act = (s.setFlag .GLM_BAR_STATUS_MISMATCH k true).barRaise 0x29 k round := by
  rw [State.token, hen]
  exact if_pos hround

end Tokens

/-- Settles O26: the slot's registers, its arrival, its tokens and its release, branch by branch. -/
theorem barriersArriveAndRelease : Obligations.BarriersArriveAndRelease := by
  intro s k b hb
  have hbar : s.barrier k.val = b := hb.symm
  have hchildren : (∀ p < 8, bitAt (s.fld .GLM_BAR_CFG0_CHILDREN k.val) p = true → b.tokens.getLsbD p = true) →
      (s.barChildren k.val).all (fun p => b.tokens.getLsbD p) = true := fun h => by
    refine List.all_eq_true.mpr fun p hp => ?_
    obtain ⟨hlt, hbit⟩ := List.mem_filter.mp hp
    exact h p (List.mem_range.mp hlt) hbit
  have harrive (s1 : State) (hen : s.flag .GLM_BAR_CFG0_ENABLE k.val = true) (hnew : b.arrivedAt = none)
      (hch : ∀ p < 8, bitAt (s.fld .GLM_BAR_CFG0_CHILDREN k.val) p = true → b.tokens.getLsbD p = true)
      (hwait : s.barWait k.val = (s1, true)) : s.doArrive k.val = s1.barArrive k.val := by
    rw [State.doArrive, hbar, hen, hnew, hchildren hch]
    simp [hwait]
  refine ⟨?config, fun hen hnew hch s1 hwait hb1 hroot => congrArg Host.Outcome.next ?_,
    fun hen hnew hch s1 t hwait hb1 hroot ht => congrArg Host.Outcome.next ?_, ?arrival, ?release, ?hop, ?due, ?timeout, ?slot⟩
  case config =>
    rintro o reg v r s1 rfl h hoff rfl
    have hact : s.doBarConfig k.val reg.val v.toNat = if (s.writeReg (if reg.val = 0 then .GLM_BAR_CFG0 else .GLM_BAR_CFG1) k.val
        (2 ^ 64 - 1) v.toNat).flag .GLM_BAR_CFG0_ENABLE k.val then ((s.writeReg (if reg.val = 0 then .GLM_BAR_CFG0 else
          .GLM_BAR_CFG1) k.val (2 ^ 64 - 1) v.toNat).setFld .GLM_BAR_STATUS_ROUND k.val 0).setBarrier k.val Barrier.reset
        else s.writeReg (if reg.val = 0 then .GLM_BAR_CFG0 else .GLM_BAR_CFG1) k.val (2 ^ 64 - 1) v.toNat := by
      rw [State.doBarConfig, hoff]
      rfl
    rw [← hact]
    refine congrArg Host.Outcome.next (State.regCmd_change h ?_ ?_ _ _ _) <;> split <;> decide
  · rw [harrive s1 hen hnew hch hwait, State.barArrive, hroot, hb1]
    rfl
  · rw [harrive s1 hen hnew hch hwait, State.barArrive, hroot, hb1, ht]
    rfl
  case arrival =>
    rintro p hdr round st ctl pk s1 hcomes rfl
    have hact := State.checkPkt_of_comes hcomes (fun s pk => (s.freePkt p.val pk).doArrivalToken p.val k.val round.toNat st.toNat)
    exact ⟨fun hen hr => congrArg Host.Outcome.next (hact.trans (State.token_taken _ hen hr)),
      fun hen => congrArg Host.Outcome.next (hact.trans (State.token_off _ hen)),
      fun hen hr => congrArg Host.Outcome.next (hact.trans (State.token_other _ hen hr))⟩
  case release =>
    rintro p hdr round t st ctl pk s1 s2 hcomes hs1 rfl
    have hact := State.checkPkt_of_comes hcomes (fun s pk => (s.freePkt p.val pk).doReleaseToken k.val round.toNat t.toNat st)
    rw [← hs1] at hact
    exact ⟨fun hen hr => ⟨fun hlt => congrArg Host.Outcome.next (hact.trans ((State.token_taken _ hen hr).trans
        (if_neg (Nat.not_le.mpr hlt)))), fun hle => congrArg Host.Outcome.next (hact.trans ((State.token_taken _ hen hr).trans
        (if_pos hle)))⟩,
      fun hen => congrArg Host.Outcome.next (hact.trans (State.token_off _ hen)),
      fun hen hr => congrArg Host.Outcome.next (hact.trans (State.token_other _ hen hr))⟩
  case hop =>
    intro p pk hq
    have hone : s.sendHop p pk = s.sendHops p [pk] := by rw [State.sendHop, hq]; rfl
    exact ⟨fun hcan => hone.trans (if_pos hcan), fun hcan => hone.trans (if_neg (by simp [hcan]))⟩
  case due =>
    intro t st hrel hen
    refine ⟨fun hlt => congrArg Host.Outcome.next ?_, fun hle => congrArg Host.Outcome.next ?_⟩
    · simp [State.doBarRelease, hbar, hrel, hen, hlt]
    · simp [State.doBarRelease, hbar, hrel, hen, hle]
  case timeout =>
    intro t0 harr hen hfirst hover
    refine congrArg Host.Outcome.next ?_
    simp [State.doRoundTimeout, hbar, harr, hen, hfirst, hover, State.barRound]
  case slot =>
    rintro t st u rfl ht
    exact s.release_slot k.val t st ht

end Sys2Proof.Machine
end

section
/-! PROOFS. The commands of the rings (R165-R169, R275-R290, R302). -/

namespace Sys2Proof.Machine

/-- A ring's register of an access by the PF. -/
theorem State.ringAccess_pf {s : State} (h : s.answers .pf .CTX_RING_BASE) (r : Nat) (act : State → State) :
    s.ringAccess .pf r act = act s :=
  State.access_of_answers h act

/-! ### Doorbells and fetching (R276-R278, R286) -/

theorem State.newTail_inRange {s : State} {r v : Nat} (hlow : (s.ring r).tail ≤ v) (hhigh : v ≤ s.headShown r + s.cmdEntries r) :
    s.newTail r v = s.setRing r { s.ring r with tail := v } :=
  if_neg (by omega)

theorem State.newTail_outOfRange {s : State} {r v : Nat} (h : v < (s.ring r).tail ∨ s.headShown r + s.cmdEntries r < v) :
    s.newTail r v = if BitVec.ofNat 64 v ∈ (s.ring r).badTails then s else
      (s.setRing r { s.ring r with badTails := (s.ring r).badTails ++ [BitVec.ofNat 64 v] }).raiseCtx 0x16 (s.owner r)
        (s.cmdUnit r) (v % 2 ^ 64 + r * 2 ^ 64) := by
  unfold State.newTail
  dsimp only
  rw [if_pos h]
  simp only [List.contains_iff_mem]

/-- Settles O27: the doorbell's read, the word a ring takes from it, enabling, and the head's fetch. -/
theorem ringsTakeDoorbells : Obligations.RingsTakeDoorbells := by
  rintro s ring r h rfl
  refine ⟨fun hwatch hmode => ?_, fun hwatch hmode hdue => ?_, fun hwatch hearly => ?_, fun hoff => ⟨?_, ?_⟩, ?line, ?word,
    ?enable, ?fetch, fun hdead => ?_⟩
  · exact congrArg Host.Outcome.next (if_pos (by simp [hwatch, hmode]))
  · exact congrArg Host.Outcome.next (if_pos (by simp [hwatch, hmode, State.pollNs, hdue]))
  · exact congrArg Host.Outcome.next (if_neg (by simp [State.pollNs, Nat.not_le.mpr hearly]))
  · exact congrArg Host.Outcome.next (if_neg (by simp [hoff]))
  · exact congrArg Host.Outcome.next (if_neg (by simp [hoff]))
  case line =>
    intro s1 line hread
    simp only [State.readDoorbell, State.home, State.owner, State.dbAddr, hread]
    cases line <;> rfl
  case word =>
    rintro line w v s1 rfl rfl hs1
    have htake : s.takeDoorbell line ring.toNat = if anyPoison ((line.drop (s.dbAddr ring.toNat % 64)).take 8) then s1 else
        s1.newTail ring.toNat (leNat (vals ((line.drop (s.dbAddr ring.toNat % 64)).take 8))) := by
      rw [hs1]
      rfl
    have hring : s1.ring ring.toNat = { s.ring ring.toNat with polledAt := s.now } := by
      rw [hs1, State.ring_setRing]
    rw [htake]
    refine ⟨fun hbad => if_pos hbad, fun hgood hlow hhigh => ?_, fun hgood hout => ?_⟩
    · rw [State.dbAddr, if_neg (by simp [hgood])]
      exact State.newTail_inRange (by rw [hring]; exact hlow) hhigh
    · rw [State.dbAddr, if_neg (by simp [hgood]), State.newTail_outOfRange (by rw [hring]; exact hout)]
      have hbad : (s1.ring ring.toNat).badTails = (s.ring ring.toNat).badTails := by rw [hring]
      exact ⟨fun hseen => if_pos (hbad ▸ hseen), fun hnew => if_neg (hbad ▸ hnew)⟩
  case enable =>
    intro hans hoff
    have hact : exec (.ringEnable .pf ring) s = .next (s.doRingEnable ring.toNat) :=
      congrArg Host.Outcome.next (State.ringAccess_pf hans _ _)
    rw [hact, State.doRingEnable, if_neg (by simp [hoff])]
    exact ⟨fun hgood => by rw [hgood], fun reason hbad => by rw [hbad]; rfl⟩
  case fetch =>
    intro s1 hlive hnext
    have hact : s.doFetch ring.toNat h = s.fetchHead ring.toNat (s.ringHead ring.toNat) h := by
      rw [State.doFetch, if_pos hlive, hnext]
      exact if_pos rfl
    refine ⟨fun bytes hread => congrArg Host.Outcome.next ?_, fun hread => congrArg Host.Outcome.next ?_⟩
    · rw [hact, State.fetchHead]
      simp only [State.cmdAddr, State.ringHead, hread, State.putFetched]
    · rw [hact, State.fetchHead]
      simp only [State.cmdAddr, State.ringHead, hread]
  · exact congrArg Host.Outcome.next (if_neg (by simp [hdead]))

/-! ### Starting (R279-R284) -/

/-- A reserved KIND is refused with reason 0 (R281). -/
theorem cmdRefused_of_reservedKind {cmd : BitVec 512} (h : 3 ≤ cmdKind cmd) (owner : Nat) : cmdRefused cmd owner = some 0 :=
  if_pos (.inr (.inr (.inr h)))

/-- The head whose turn it is not waits. -/
theorem State.tryStart_notTurn {s : State} {r : Nat} {cmd : BitVec 512} (h1 : s.settleHead r = s) (h2 : s.ringLive r = true)
    (h3 : s.headCancelled r = false) (h4 : s.headCmd r = some cmd) (mine : Nat → Bool) (act : State → BitVec 512 → State)
    (h5 : mine (cmdKind cmd) = true) (h6 : cmdRefused cmd (s.owner r) = none) (h7 : (s.evalHead r).namesLost cmd = false)
    (h8 : (s.evalHead r).myTurn r cmd = false) : s.tryStart r mine act = s.evalHead r := by
  simp [State.tryStart, h1, h2, h3, h4, h5, h6, h7, h8]

/-- A start changes the head's position and the running commands once; what follows leaves both. -/
structure State.SameRun (r : Nat) (s u : State) : Prop where
  head : u.fld .CTX_RING_HEAD_HEAD r = s.fld .CTX_RING_HEAD_HEAD r
  running : (u.ring r).running = (s.ring r).running

theorem State.SameRun.refl (r : Nat) (s : State) : State.SameRun r s s := ⟨rfl, rfl⟩

theorem State.SameRun.trans {r : Nat} {s u v : State} (h : State.SameRun r s u) (k : State.SameRun r u v) : State.SameRun r s v :=
  ⟨k.head.trans h.head, k.running.trans h.running⟩

theorem State.SameRun.of_reports {r : Nat} {s u : State} (h : Reports s u) : State.SameRun r s u :=
  ⟨h.fld _ _ (by decide), by rw [h.ring]⟩

theorem State.SameRun.setRing {s : State} {r : Nat} {x : Ring} (h : x.running = (s.ring r).running) :
    State.SameRun r s (s.setRing r x) :=
  ⟨rfl, by rw [State.ring_setRing, h]⟩

theorem State.glumePid_ring (s : State) (k c vid r : Nat) : (s.glumePid k c vid).1.ring r = s.ring r := by
  have hentry : (s.glumeEntry k c vid).1.ring r = s.ring r := by
    unfold State.glumeEntry
    dsimp only
    split
    · rfl
    · split <;> exact (s.memRead_reports _ _ _).ring r
  unfold State.glumePid
  dsimp only
  split
  · rfl
  · split
    · exact hentry
    · split <;> exact hentry

theorem State.glumeXlat_ring (s : State) (k c vid r : Nat) : (s.glumeXlat k c vid).1.ring r = s.ring r := by
  have h := s.glumePid_ring k c vid r
  unfold State.glumeXlat
  split
  next e =>
    rw [e] at h
    exact h
  next => exact h

theorem State.poseWait_sameRun (s : State) (r : Nat) (w : Nat × Nat) : State.SameRun r s (s.poseWait r w).1 := by
  have hx : State.SameRun r s (s.glumeXlat (s.home r) (s.owner r) w.1).1 :=
    ⟨s.glumeXlat_fld _ _ _ _ (by decide), by rw [s.glumeXlat_ring]⟩
  unfold State.poseWait
  split
  · exact .refl r s
  · split
    next e =>
      rw [e] at hx
      exact hx.trans (.of_reports (State.raiseGlume_reports ..))
    next e =>
      rw [e] at hx
      exact hx

theorem State.stopHead_sameRun (s : State) (r cls : Nat) : State.SameRun r s (s.stopHead r cls) := .setRing rfl

theorem State.headFault_sameRun (s : State) (r cls : Nat) : State.SameRun r s (s.headFault r cls) := by
  unfold State.headFault
  dsimp only
  split
  · exact (s.stopHead_sameRun r cls).trans (.of_reports (State.reportFault_reports ..))
  · exact (s.stopHead_sameRun r cls).trans (.of_reports (State.raiseCtx_reports ..))

theorem State.markReady_sameRun (s : State) (r : Nat) : State.SameRun r s (s.markReady r) := by
  unfold State.markReady
  dsimp only
  split
  · exact .setRing rfl
  · exact .refl r s

theorem State.settleHead_sameRun (s : State) (r : Nat) : State.SameRun r s (s.settleHead r) := by
  have hpose (u : State) (ws : List (Option WaitPosed)) :
      State.SameRun r u ((u.setRing r { u.ring r with waits := ws }).markReady r) :=
    (State.SameRun.setRing (x := { u.ring r with waits := ws }) rfl).trans (State.markReady_sameRun ..)
  unfold State.settleHead
  split
  · split
    · exact .refl r s
    next cmd _ =>
      split
      · exact .refl r s
      · have h0 := s.poseWait_sameRun r (cmdWait cmd 0)
        dsimp only
        split
        · exact h0.trans (State.headFault_sameRun ..)
        · have h1 := h0.trans (State.poseWait_sameRun _ r (cmdWait cmd 1))
          split
          · exact h1.trans (State.headFault_sameRun ..)
          · exact h1.trans (hpose _ _)
  · exact .refl r s

/-- The head that starts is the last of the running commands, and the position behind it becomes the head. -/
theorem State.startHead_runs (s : State) (r : Nat) (cmd : BitVec 512) (ts : List Nat) (ops : Nat) :
    (s.startHead r cmd ts ops).fld .CTX_RING_HEAD_HEAD r = (s.fld .CTX_RING_HEAD_HEAD r + 1) % 2 ^ 64 ∧
      ∃ base, ((s.startHead r cmd ts ops).ring r).running = (s.ring r).running ++
        [⟨s.fld .CTX_RING_HEAD_HEAD r, cmd, s.now, ts.map (fun t => (t, 0)), ops, none, base⟩] := by
  have hwidth : Fld.CTX_RING_HEAD_HEAD.width = 64 := by decide
  unfold State.startHead
  extract_lets p x base c s1 last obs s2 s3
  have htrace : Reports s2 s3 := State.trace_reports ..
  have hsettle := (s3.dropHead r).settleHead_sameRun r
  have hdrop : (s3.dropHead r).fld .CTX_RING_HEAD_HEAD r = (s3.fld .CTX_RING_HEAD_HEAD r + 1) % 2 ^ 64 := by
    rw [State.dropHead, State.wrapAdd, State.fld_setFld_same, hwidth]
    rfl
  have hrun : ((s3.dropHead r).ring r).running = (s3.ring r).running := by
    rw [State.dropHead, State.wrapAdd, State.setFld_ring_eq, State.ring_setRing]
  refine ⟨?_, base, ?_⟩
  · rw [hsettle.head, hdrop, htrace.fld _ _ (by decide)]
    rfl
  · rw [hsettle.running, hrun, htrace.ring]
    exact congrArg Ring.running (s.ring_setRing r _)

/-- Settles O28: the frame of a start, and what the three kinds do behind it. -/
theorem commandsStart : Obligations.CommandsStart := by
  rintro s s2 ring r cmd h rfl hsettle hlive hcan hcmd rfl
  refine ⟨?frame, fun hkind => ?reserved, fun hgood hready hnames hturn => ⟨fun hkind => ?nop, fun hkind => ?run,
    fun hkind => ?xfer⟩, ?start⟩
  case frame =>
    intro p hp hkind
    have hwait (mine : Nat → Bool) (act : State → BitVec 512 → State) (hm : mine (cmdKind cmd) = true)
        (hgood : cmdRefused cmd (s.owner ring.toNat) = none)
        (hw : (s.evalHead ring.toNat).otherwiseReady ring.toNat = false ∨ ((s.evalHead ring.toNat).namesLost cmd = false ∧
          (s.evalHead ring.toNat).myTurn ring.toNat cmd = false)) : s.tryStart ring.toNat mine act = s.evalHead ring.toNat :=
      hw.elim (State.tryStart_waits hsettle hlive hcan hcmd mine act hm hgood)
        (fun hw => State.tryStart_notTurn hsettle hlive hcan hcmd mine act hm hgood hw.1 hw.2)
    simp only [List.mem_cons, List.not_mem_nil, or_false] at hp
    rcases hp with rfl | rfl | rfl
    · exact ⟨fun reason hbad => congrArg Host.Outcome.next (State.tryStart_refused hsettle hlive hcan hcmd _ _ (by simp [hkind]) hbad),
        fun hgood hw => congrArg Host.Outcome.next (hwait _ _ (by simp [hkind]) hgood hw)⟩
    · exact ⟨fun reason hbad => congrArg Host.Outcome.next (State.tryStart_refused hsettle hlive hcan hcmd _ _ (by simp [hkind]) hbad),
        fun hgood hw => congrArg Host.Outcome.next (hwait _ _ (by simp [hkind]) hgood hw)⟩
    · exact ⟨fun reason hbad => congrArg Host.Outcome.next (State.tryStart_refused hsettle hlive hcan hcmd _ _ (by simp [hkind]) hbad),
        fun hgood hw => congrArg Host.Outcome.next (hwait _ _ (by simp [hkind]) hgood hw)⟩
  case reserved =>
    refine congrArg Host.Outcome.next ((State.tryStart_refused hsettle hlive hcan hcmd _ _ (by simp [hkind])
      (cmdRefused_of_reservedKind hkind _)).trans ?_)
    unfold State.refuseHead State.owner State.cmdUnit State.home State.ringHead
    rw [Nat.zero_mul, Nat.add_zero]
  case nop =>
    exact congrArg Host.Outcome.next (State.tryStart_acts hsettle hlive hcan hcmd _ _ (by simp [hkind]) hgood hready hnames hturn)
  case run =>
    rintro ts rfl
    refine ⟨fun hbusy => congrArg Host.Outcome.next ?_, fun hfree => ⟨fun hloaded hpatch => congrArg Host.Outcome.next ?_,
      fun s3 s4 s5 s6 img pl himg hlist hok hload hpatch => congrArg Host.Outcome.next ?_⟩⟩
    all_goals
      refine (State.tryStart_acts hsettle hlive hcan hcmd _ _ (by simp [hkind]) hgood hready hnames hturn).trans ?_
      dsimp only
    · exact if_pos hbusy
    · rw [if_neg (by simp [hfree]), if_neg (by simp [hloaded])]
      have hnone : (cmdTillers cmd).filter (fun t => (s.evalHead ring.toNat).needsLoad t cmd) = [] :=
        List.filter_eq_nil_iff.mpr (by simpa using hloaded)
      simp [onRead, hpatch, State.runTillers, hnone, splitNats, State.patchList]
    · rw [if_neg (by simp [hfree]), himg]
      simp only [onRead, hlist]
      have hgoodImg : (if ((cmdTillers cmd).filter (fun t => s4.needsLoad t cmd)).isEmpty then none else imgBad img) = none := by
        rcases hok with hok | hok
        · rw [hok, ite_self]
        · rw [if_pos]
          rw [List.isEmpty_iff, List.filter_eq_nil_iff]
          simpa using hok
      simp only [State.runTillers, hgoodImg, ← hload, hpatch]
  case xfer =>
    intro s3 ops hread
    refine congrArg Host.Outcome.next ((State.tryStart_acts hsettle hlive hcan hcmd _ _ (by simp [hkind]) hgood hready hnames
      hturn).trans ?_)
    simp only [onRead, hread]
  case start =>
    rintro u ts ops rfl
    exact s.startHead_runs ring.toNat cmd ts ops

/-! ### Ending (R285, R289, R290) -/

/-- Settles O29: each clause is a branch of the end's definition. -/
theorem commandsEnd : Obligations.CommandsEnd := by
  rintro s ring r rfl
  refine ⟨?complete, fun pos hnone => congrArg Host.Outcome.next ?_, ?cancel, ?retire, ?started, ?unstarted,
    fun hans hrun => congrArg Host.Outcome.next ((State.ringAccess_pf hans _ _).trans (by rw [State.doRingResume, hrun]))⟩
  case complete =>
    rintro pos c s1 hfind hready hfault hops htil rfl
    have hdone : c.done = true := by
      simp only [Running.done, hfault, hops]
      simpa using htil
    refine congrArg Host.Outcome.next ?_
    rw [State.doComplete, hfind]
    exact if_pos (by simp [hready, hdone])
  · rw [State.doComplete, hnone]
  case cancel =>
    rintro upto x hans rfl
    have hact := State.ringAccess_pf hans ring.toNat
      (fun s => (s.latch .CTX_RING_CANCEL ring.toNat upto.toNat).doCancel ring.toNat upto.toNat)
    refine ⟨fun hnew hhead => congrArg Host.Outcome.next (hact.trans ?_), fun hnew hhead => congrArg Host.Outcome.next (hact.trans ?_),
      fun hold => congrArg Host.Outcome.next (hact.trans (if_neg (Nat.not_lt.mpr hold)))⟩
    · refine (if_pos hnew).trans (if_neg ?_)
      simpa [State.headCancelled, State.ringHead] using hhead
    · refine (if_pos hnew).trans ((if_pos ?_).trans ?_)
      · simpa [State.headCancelled, State.ringHead] using hhead
      · rw [State.ring_setRing]
        rfl
  case retire =>
    rintro cmd s1 hwatch hstop hhead hcmd rfl
    refine congrArg Host.Outcome.next ?_
    rw [State.doRetire, if_pos, hcmd]
    · rfl
    · simp [hwatch, hstop, State.headCancelled, State.ringHead, hhead]
  case started =>
    intro p cls rest c hans hstop hfind
    refine congrArg Host.Outcome.next ((State.ringAccess_pf hans _ _).trans ?_)
    simp only [State.doRingResume, hstop, hfind]
  case unstarted =>
    intro p cls rest cmd hans hstop hfind hcmd
    refine congrArg Host.Outcome.next ((State.ringAccess_pf hans _ _).trans ?_)
    simp only [State.doRingResume, hstop, hfind, hcmd]

end Sys2Proof.Machine
end

section
/-! PROOFS. Context reset and the audit log (R296, R551, R554). -/

namespace Sys2Proof.Machine

/-- The PF's context enabled, with an error queue whose address has no translation, and an audit log with no room. -/
def auditFull : State :=
  let s := (State.reset.setFld .PWR_STATUS_STATE 0 2).setFlag .PWR_STATUS_READY 0 true
  let s1 : State := { s with power := { s.power with
    auxGood := true, vinGood := true, seated := true, hostUp := true, perst := false } }
  (((s1.setFlag .CTX_CFG_ENABLE 0 true).setFld .CTX_STATUS_STATE 0 1).setFlag .CTX_EQ_CFG_ENABLE 0 true).setFld
    .MGT_AUDIT_STAT_UNFLUSHED 0 4096

theorem auditFull_window : auditFull.window 0 = true := by decide +kernel

/-- The reset's own audit entry finds no room, so class 0x0C goes to the PF's queue; its walk fails and freezes the context anew. -/
theorem auditFull_refrozen : (auditFull.doCtxReset 0 (ctrlOff 0)).flag .CTX_STATUS_FROZEN 0 = true := by decide +kernel

/-- Refutes O30: while 4,096 audit entries are unflushed, the entry of a reset of context 0 becomes a record of class 0x0C in that
context's own error queue; where the queue's address does not translate, the walk fault sets FROZEN again and holds the walk, so the
reset does not end with FROZEN clear although the mirror has no block under way. -/
theorem not_contextsAreControlled : ¬ Obligations.ContextsAreControlled := by
  intro h
  obtain ⟨-, -, -, -, -, hreset, -⟩ := h auditFull 0 0 rfl
  obtain ⟨-, -, -, -, hclear, -⟩ := hreset _ auditFull_window rfl
  obtain ⟨hfrozen, -⟩ := hclear (.inr rfl)
  rw [auditFull_refrozen] at hfrozen
  exact Bool.noConfusion hfrozen

end Sys2Proof.Machine
end

section
/-! PROOFS. The transfer engines (R241-R247, R255, R269, R282, R437-R442). -/

namespace Sys2Proof.Machine

/-! ### Operations -/

/-- With every range translated an operation goes on. -/
theorem withSegs_ok {x : State × Option (List (Nat × Nat))} {s : State} {l : List (Nat × Nat)} (h : x = (s, some l))
    (k : State → List (Nat × Nat) → State) : withSegs x k = k s l := by
  rw [h, withSegs]

theorem State.milletGo_eq (s : State) (sh k : Nat) (o : XferOp) (e : XferErr) (kind : Nat) (m rest : MilletWork)
    (run : State × List PByte × Nat)
    (hrun : run = s.milletClock.milletRun { xferAcc sh o e with millet := true } kind m.secs m.data)
    (hrest : rest = ⟨m.secs.drop run.2.2, m.data.drop (32 * run.2.2), m.res ++ run.2.1⟩) :
    s.milletGo sh k o e kind m =
      if !rest.secs.isEmpty then run.1.setWork sh k rest
      else withSegs (if milletReturns o then (run.1.setWork sh k rest).xlatRows sh o e 1 [(opDst o, 32 * opRows o)]
          else (run.1.setWork sh k rest, some []))
        (fun s lres => (if milletReturns o then s.writeSegs (xferAcc sh o e) lres rest.res else s).opDone sh k) := by
  subst hrest hrun
  rfl

theorem State.opDone_ring (s : State) (sh k r : Nat) : (s.opDone sh k).ring r = s.ring r := rfl

theorem State.opDone_peek (s : State) (sh k j : Nat) : (s.opDone sh k).peek j = s.peek j := rfl

/-- Settles O33: each engine command performs its operation once its ranges are translated, or refuses it. -/
theorem transfersPerform : Obligations.TransfersPerform := by
  rintro s sh k o h e w hnow rfl rfl
  refine ⟨?copy, ?refuse, ?fill, ?millet, ?go, ?cap, fun r j => ⟨rfl, rfl, rfl⟩⟩
  case copy =>
    rintro s1 s2 ls ld r hop hgood hsrc hdst rfl
    refine congrArg Host.Outcome.next ?_
    have hop' : opOf o = 0 := hop
    simp only [State.doCopy, hnow, hop', hgood, State.copyRows, withSegs_ok hsrc, withSegs_ok hdst]
    rfl
  case refuse =>
    intro hbad p hp hop
    simp only [List.mem_cons, List.not_mem_nil, or_false] at hp
    rcases hp with rfl | rfl
    · refine congrArg Host.Outcome.next ?_
      have hop' : opOf o = 0 := hop
      simp only [State.doCopy, hnow, hop', hbad]
      rfl
    · refine congrArg Host.Outcome.next ?_
      have hop' : opOf o = 1 := hop
      simp only [State.doFill, hnow, hop', hbad]
      rfl
  case fill =>
    rintro s1 ld rfl hop hgood hdst
    refine congrArg Host.Outcome.next ?_
    have hop' : opOf o = 1 := hop
    simp only [State.doFill, hnow, hop', hgood, withSegs_ok hdst]
    rfl
  case millet =>
    intro p hp hop hkind
    have hact : exec p.1 s = .next (s.doMillet sh k p.2 ⟨h, false⟩) := by
      simp only [List.mem_cons, List.not_mem_nil, or_false] at hp
      rcases hp with rfl | rfl | rfl | rfl <;> rfl
    rw [hact]
    have hop' : opOf o = 2 := hop
    have hkind' : milletKind o = p.2 := hkind
    have hmine : ¬ (opOf o ≠ 2 ∨ (milletKind o ≠ p.2 ∧ (p.2 ≠ 0 ∨ milletKind o < 4))) := by simp [hop', hkind']
    refine ⟨fun hbad => congrArg Host.Outcome.next ?_, fun hgood hwork => ?_, fun hgood m hwork =>
      congrArg Host.Outcome.next ?_⟩
    · simp only [State.doMillet, hnow, if_neg hmine, hbad]
      rfl
    · rintro s1 s2 li ldat ri rd idx secs hli hdat rfl rfl rfl hall rfl
      refine congrArg Host.Outcome.next ?_
      simp only [State.doMillet, hnow, if_neg hmine, hgood, hwork, State.milletStart, withSegs_ok hli, withSegs_ok hdat,
        hall]
      rfl
    · simp only [State.doMillet, hnow, if_neg hmine, hgood, hwork]
      rfl
  case go =>
    rintro kind m run rest s1 hrun hrest rfl
    rw [State.milletGo_eq s sh k o _ kind m rest run hrun hrest]
    refine ⟨fun hleft => if_pos (by simpa using hleft), fun hdone hret => ?_, fun s2 lres hdone hret hdst => ?_⟩
    · rw [if_neg (by simp [hdone])]
      simp only [hret, Bool.false_eq_true, if_false]
      rfl
    · rw [if_neg (by simp [hdone])]
      simp only [hret, if_true, withSegs_ok hdst]
  case cap =>
    intro acc kind a t d hfull
    exact if_neg (by simp [State.milletRoom, Nat.not_lt.mpr hfull])

/-! ### Digests -/

/-- Settles O35: each mode writes its hashes once its ranges are translated, and a broken rule is class 0x81. -/
theorem digestsHash : Obligations.DigestsHash := by
  rintro s sh k o h e w hnow hop rfl rfl
  have hmine : ∀ mode, digMode o = mode → ¬ (opOf o ≠ 3 ∨ digMode o ≠ mode) := by
    intro mode hmode
    have hop' : opOf o = 3 := hop
    simp [hop', hmode]
  refine ⟨fun off hbad p hp hmode => ?bad, fun hgood => ⟨?piece, ?pieceCopy, ?final, ?prov⟩⟩
  case bad =>
    have hact : exec p.1 s = .next (s.doDigest sh k p.2 ⟨h, false⟩) := by
      simp only [List.mem_cons, List.not_mem_nil, or_false] at hp
      rcases hp with rfl | rfl | rfl | rfl <;> rfl
    rw [hact]
    refine congrArg Host.Outcome.next ?_
    simp only [State.doDigest, hnow, if_neg (hmine _ hmode), hbad, State.digestRefuse, State.opRefuse]
  case piece =>
    rintro s1 s2 ls lh r n hmode rfl hsrc hhash rfl
    refine congrArg Host.Outcome.next ?_
    simp only [State.doDigest, hnow, if_neg (hmine _ hmode), hgood]
    change s.digestRange sh k o ⟨h, false⟩ false = _
    have hhash' : s1.xlatRows sh o ⟨h, false⟩ 1
      [(opB o + 32 * digPidx o, 32 * ((opLen o + pieceBytes - 1) / pieceBytes))] = (s2, some lh) := hhash
    simp only [State.digestRange, withSegs_ok hsrc, Bool.false_eq_true, if_false, withSegs_ok (rfl : (s1, some []) = _),
      withSegs_ok hhash']
    rfl
  case pieceCopy =>
    rintro s1 s2 s3 ls ld lh r n hmode rfl hsrc hdst hhash rfl
    refine congrArg Host.Outcome.next ?_
    simp only [State.doDigest, hnow, if_neg (hmine _ hmode), hgood]
    change s.digestRange sh k o ⟨h, false⟩ true = _
    have hhash' : s2.xlatRows sh o ⟨h, false⟩ 1
      [(opB o + 32 * digPidx o, 32 * ((opLen o + pieceBytes - 1) / pieceBytes))] = (s3, some lh) := hhash
    simp only [State.digestRange, withSegs_ok hsrc, if_true, withSegs_ok hdst, withSegs_ok hhash']
    rfl
  case final =>
    rintro s1 s2 ls ld r hmode hsrc hdst rfl
    refine congrArg Host.Outcome.next ?_
    simp only [State.doDigest, hnow, if_neg (hmine _ hmode), hgood, State.digestFinal, withSegs_ok hsrc, withSegs_ok hdst]
    rfl
  case prov =>
    rintro s1 s2 ls ld r hmode hsrc hdst rfl hzero
    refine congrArg Host.Outcome.next ?_
    simp only [State.doDigest, hnow, if_neg (hmine _ hmode), hgood]
    change s.digestProv sh k o ⟨h, false⟩ = _
    simp only [State.digestProv, withSegs_ok hsrc, withSegs_ok hdst, hzero, ne_eq, not_true_eq_false, if_false]

/-! ### Completion and far memory -/

/-- An accessor of a transfer engine reaches far memory. -/
theorem xferAcc_reachesFar (sh : Nat) (o : XferOp) (e : XferErr) : (xferAcc sh o e).reachesFar = true := rfl

/-- Settles O36: completion, far memory's timeouts, and the loss of its link. -/
theorem transfersCompleteOrFail : Obligations.TransfersCompleteOrFail := by
  intro s sh k o
  refine ⟨fun hop hready hdone => congrArg Host.Outcome.next ?_, fun hop hopen => congrArg Host.Outcome.next ?_,
    fun hnow hfar => congrArg Host.Outcome.next ?_, fun h a off hfar => ?_, fun hnow hnear => congrArg Host.Outcome.next ?_,
    fun p hready => congrArg Host.Outcome.next (if_pos hready), fun hready hrate => congrArg Host.Outcome.next ?_,
    fun hrate => congrArg Host.Outcome.next ?_⟩
  · simp only [State.doOpComplete, hop, hready, hdone, Bool.and_self, if_true]
    rfl
  · simp only [State.doOpComplete, hop, hopen, Bool.and_false, Bool.false_eq_true, if_false]
  · simp only [State.doFarTimeout, hnow, hfar, if_true]
    rfl
  · simp only [State.accClass, hfar, xferAcc_reachesFar, Bool.not_true, Bool.false_eq_true, if_false]
    exact if_pos (.inr rfl)
  · simp only [State.doFarTimeout, hnow, hnear, Bool.false_eq_true, if_false]
  · exact if_pos (by simp [hready, hrate])
  · exact if_neg (by simp [hrate])

end Sys2Proof.Machine
end

section
/-! PROOFS. Memory health (R249-R252, R256, R265-R267). -/

namespace Sys2Proof.Machine

theorem State.region_hbm (s : State) {a : Nat} (h : a < 0x9000000000) : s.region a = .hbm := if_pos h

theorem State.wordKey_hbm (s : State) {a : Nat} (h : a < 0x9000000000) : s.wordKey a = a / 32 * 4 := by
  rw [State.wordKey, s.region_hbm h]

/-- A scrub read of a sector of a stack that is there, by what it meets. -/
theorem State.doScrub_reads {s : State} {a : Nat} (hready : s.ready = true) (hhbm : a < 0x9000000000)
    (hon : s.fld .HBM_CFG_SCRUB_H 0 ≠ 0) (hhere : bitAt (s.fld .HBM_STATUS_FENCED 0) (s.hbmMap a).stack = false)
    (found : EccErr) (newer : Bool) :
    s.doScrub a found newer = match s.scrubSees a found with
      | .clean => s.count 0 32
      | .single => raised (if newer then (s.count 0 32).rowCe (s.scrubAcc a) a false true
          else (s.count 0 32).wordFixed (s.scrubAcc a) a false true)
      | .double =>
        let p := (s.count 0 32).wordLost (s.scrubAcc a) a false true
        raised (if newer then { p.1 with poison := s.poison, ecc := s.ecc, memCtl := s.memCtl } else p.1, p.2) :=
  if_pos (by simp [hready, hhbm, hon, hhere])

theorem State.doGoHard_of_answers {s : State} {o : Origin} (h : s.answers o .HBM_REPAIR) (v : Nat) :
    s.doGoHard o fullMask v = s.auditOf (s.repairWrite fullMask v (s.flag .MGT_PRESENCE_OPEN 0) true)
      (s.flag .MGT_PRESENCE_OPEN 0) (if s.flag .MGT_PRESENCE_OPEN 0 then Origin.presence o else Origin.audit o)
      .HBM_REPAIR 0 v :=
  State.access_of_answers h _

/-- Settles O37: scrubs, repairs, retirement and the two regions, branch by branch. -/
theorem memoryHealthIsKept : Obligations.MemoryHealthIsKept := by
  intro s o
  refine ⟨?scrub, fun hoff sector f newer => congrArg Host.Outcome.next (if_neg (by simp [hoff])), ?go, ?done, ?auto,
    ?retire, ?full, ?clear, ?mirror, ?log⟩
  case scrub =>
    rintro sector newer a rfl hready hhbm hon hhere
    have hscrub := State.doScrub_reads hready hhbm hon hhere
    refine ⟨fun hclean => congrArg Host.Outcome.next ?_, congrArg Host.Outcome.next ?_, congrArg Host.Outcome.next ?_,
      congrArg Host.Outcome.next ?_, congrArg Host.Outcome.next ?_⟩
    · rw [hscrub, State.scrubSees, if_pos rfl, hclean]
    · rw [hscrub, State.scrubSees, if_neg (by decide)]
      simp only [Bool.false_eq_true, if_false, State.wordFixed, State.region_hbm _ hhbm, State.wordKey_hbm _ hhbm]
    · rw [hscrub, State.scrubSees, if_neg (by decide)]
      rfl
    · rw [hscrub, State.scrubSees, if_neg (by decide)]
      rfl
    · rw [hscrub, State.scrubSees, if_neg (by decide)]
      rfl
  case go =>
    rintro v hans hidle s1 rfl
    have hstart : ∀ start hard, s.repairWrite fullMask v.toNat start hard =
        if start then { ((s.writeReg .HBM_REPAIR 0 fullMask v.toNat).repairLeft).setFlag .HBM_REPAIR_BUSY 0 true with
          repairHard := hard } else (s.writeReg .HBM_REPAIR 0 fullMask v.toNat).repairLeft :=
      fun start hard => if_neg (by simp [hidle])
    refine ⟨congrArg Host.Outcome.next ?_, fun hpres => congrArg Host.Outcome.next ?_, fun hpres =>
      congrArg Host.Outcome.next ?_⟩
    · rw [State.regCmd_trigger hans (by decide) (by decide), hstart]
      rfl
    · rw [State.doGoHard_of_answers hans, hpres, hstart]
      rfl
    · rw [State.doGoHard_of_answers hans, hpres, hstart]
      rfl
  case done =>
    intro hbusy
    refine ⟨congrArg Host.Outcome.next ?_, fun hnamed hhard => congrArg Host.Outcome.next ?_, fun hnamed hsoft =>
      congrArg Host.Outcome.next ?_⟩
    · simp only [State.doRepairDone, if_pos hbusy, Bool.false_and, Bool.false_eq_true, if_false, State.repairFails]
    · rw [State.doRepairDone, if_pos hbusy]
      simp only [hnamed, hhard, Bool.and_self, if_true]
    · rw [State.doRepairDone, if_pos hbusy]
      simp only [hnamed, hsoft, Bool.and_self, if_true, Bool.false_eq_true, if_false]
  case auto =>
    intro hidle
    have hauto : ∀ ok, s.doRepairDone ok = s.autoRepairDone ok := fun ok => if_neg (by simp [hidle])
    refine ⟨fun hnone ok => congrArg Host.Outcome.next ?_, ?_⟩
    · rw [hauto, State.autoRepairDone, hnone]
    · rintro code rest s1 hlist rfl
      refine ⟨congrArg Host.Outcome.next ?_, congrArg Host.Outcome.next ?_⟩
      · simp only [hauto, State.autoRepairDone, hlist, if_true]
      · simp only [hauto, State.autoRepairDone, hlist, Bool.false_eq_true, if_false, State.repairFails]
  case retire =>
    intro pg hans hroom hnew hpage
    refine congrArg Host.Outcome.next ?_
    rw [State.regCmd_trigger hans (by decide) (by decide), State.retirePage, if_neg (by simp [hnew]; omega)]
  case full =>
    intro pg hans hno
    refine congrArg Host.Outcome.next ?_
    rw [State.regCmd_trigger hans (by decide) (by decide), State.retirePage, if_pos (by simpa [Nat.lt_iff_add_one_le] using hno)]
  case clear =>
    intro hans
    exact ⟨fun hpres => congrArg Host.Outcome.next (State.rwpCmd_present hans hpres _ _ _),
      fun hpres => congrArg Host.Outcome.next (State.rwpCmd_absent hans hpres _ _ _)⟩
  case mirror =>
    rintro v s1 hans hoff rfl
    refine congrArg Host.Outcome.next ?_
    refine (State.regCmd_change (r := .HBM_MIR_REGION) hans (by decide) (by decide) _ _ _).trans ?_
    rw [State.regionWrite]
    simp only [if_true, mirRegion, hoff, Bool.false_eq_true, if_false, Bool.not_true, Bool.false_and]
    rfl
  case log =>
    rintro v s1 hans hoff rfl
    refine congrArg Host.Outcome.next ?_
    refine (State.regCmd_change (r := .HBM_LOG_REGION) hans (by decide) (by decide) _ _ _).trans ?_
    rw [State.regionWrite]
    simp only [Bool.false_eq_true, if_false, logRegion, hoff, Bool.not_false, Bool.true_and, Bool.or_eq_true, bne_iff_ne]
    rfl

end Sys2Proof.Machine
end

section
/-! PROOFS. The channels of the optical ports (R315-R317, R320, R327, R336-R338, R350, R357). -/

namespace Sys2Proof.Machine

/-! ### Entries of a table -/

theorem Tbl.mem_ins {α : Type} {k : Nat} {v : α} {t : Table α} {q : Nat × α} : q ∈ Tbl.ins k v t ↔ q = (k, v) ∨ q ∈ t := by
  induction t with
  | nil => simp [Tbl.ins]
  | cons p t ih =>
    obtain ⟨j, w⟩ := p
    by_cases h : k < j
    · simp [Tbl.ins, h]
    · simp [Tbl.ins, h, ih]
      tauto

theorem Tbl.mem_del {α : Type} {k : Nat} {t : Table α} {q : Nat × α} : q ∈ Tbl.del k t ↔ q ∈ t ∧ q.1 ≠ k := by
  induction t with
  | nil => simp [Tbl.del]
  | cons p t ih =>
    obtain ⟨j, w⟩ := p
    by_cases h : k = j
    · subst h
      rw [Tbl.del, if_pos rfl, ih, List.mem_cons]
      constructor
      · exact fun e => ⟨.inr e.1, e.2⟩
      · rintro ⟨rfl | e, hne⟩
        · exact absurd rfl hne
        · exact ⟨e, hne⟩
    · simp only [Tbl.del, if_neg h, List.mem_cons, ih]
      constructor
      · rintro (rfl | e)
        · exact ⟨.inl rfl, Ne.symm h⟩
        · exact ⟨.inr e.1, e.2⟩
      · rintro ⟨rfl | e, hne⟩
        · exact .inl rfl
        · exact .inr ⟨e, hne⟩

theorem Tbl.mem_put {α : Type} {k : Nat} {v : α} {t : Table α} {q : Nat × α} :
    q ∈ Tbl.put t k v ↔ q = (k, v) ∨ q ∈ t ∧ q.1 ≠ k := by
  rw [Tbl.put, Tbl.mem_ins, Tbl.mem_del]

/-- A key whose entries all hold one value reads as that value. -/
theorem Tbl.get_of_mem {α : Type} (d : α) {k : Nat} {v : α} {t : Table α} (h : (k, v) ∈ t)
    (huniq : ∀ w, (k, w) ∈ t → w = v) : Tbl.get d t k = v := by
  induction t with
  | nil => cases h
  | cons p t ih =>
    obtain ⟨j, w⟩ := p
    by_cases hj : k = j
    · subst hj
      rw [Tbl.get, if_pos rfl]
      exact huniq w (List.mem_cons_self ..)
    · rw [Tbl.get, if_neg hj]
      refine ih ?_ (fun w hw => huniq w (List.mem_cons_of_mem _ hw))
      rcases List.mem_cons.mp h with e | e
      · exact absurd (congrArg Prod.fst e) hj
      · exact e

/-! ### Markers and locks (R327, R336, R337) -/

theorem bitsOf_lt (x hi lo : Nat) : bitsOf x hi lo < 2 ^ (hi + 1 - lo) := Nat.mod_lt _ (by positivity)

theorem State.fld_setPort (s : State) (p : Nat) (x : Port) (f : Fld) (i : Nat) : (s.setPort p x).fld f i = s.fld f i := rfl

/-- What a receiver knows of a map after a valid marker on channel c, before the entries that have not shown themselves are
taken from it. -/
def learned (m : Table Nat) (c w : Nat) : Table Nat :=
  if bitsOf w 31 26 < 32 then Tbl.put (m.filter (fun q => q.2 != c)) (bitsOf w 31 26) c else m.filter (fun q => q.2 != c)

theorem mem_learned {m : Table Nat} {c w : Nat} {q : Nat × Nat} (h : q ∈ learned m c w) :
    q = (bitsOf w 31 26, c) ∧ bitsOf w 31 26 < 32 ∨ q.2 ≠ c ∧ (bitsOf w 31 26 < 32 → q.1 ≠ bitsOf w 31 26) := by
  unfold learned at h
  split at h
  case isTrue hlow =>
    rcases Tbl.mem_put.mp h with e | ⟨hq, hne⟩
    · exact .inl ⟨e, hlow⟩
    · exact .inr ⟨by simpa using (List.mem_filter.mp hq).2, fun _ => hne⟩
  case isFalse hhigh => exact .inr ⟨by simpa using (List.mem_filter.mp h).2, fun e => absurd e hhigh⟩

theorem mem_learned_self {m : Table Nat} {c w : Nat} (h : bitsOf w 31 26 < 32) : (bitsOf w 31 26, c) ∈ learned m c w := by
  rw [learned, if_pos h]
  exact Tbl.mem_put.mpr (.inl rfl)

/-- The map of the receiver after a marker is what it has learned, or those entries of it whose channels have shown themselves. -/
theorem State.learnMap_eq (s : State) (p c w : Nat) : ∃ (u : State) (seen : BitVec 45),
    s.learnMap p c w = u.nactCheck p ∧ (c < 45 → seen.getLsbD c = true) ∧
    ((u.port p).mapRx = learned (s.port p).mapRx c w ∨
      (u.port p).mapRx = (learned (s.port p).mapRx c w).filter (fun q => seen.getLsbD q.2)) ∧
    u.fld .LNK_STATUS_NACT_RX p = bitsOf w 25 20 ∧ u.fld .LNK_STATUS_GEN_RX p = bitsOf w 19 16 ∧
    u = { s with ports := u.ports, regs := u.regs } := by
  refine ⟨_, (if bitsOf w 19 16 = s.fld .LNK_STATUS_GEN_RX p then (s.port p).seen else 0) ||| (1#45 <<< c), rfl, ?_, ?_, ?_,
    ?_, rfl⟩
  · intro h
    simp [h]
  · change (Port.mapRx (State.port (State.setPort ..) p) = _ ∨ Port.mapRx (State.port (State.setPort ..) p) = _)
    rw [State.port_setPort]
    exact Or.symm (ite_eq_or_eq _ _ _)
  · rw [State.fld_setFld_same]
    exact Nat.mod_eq_of_lt (bitsOf_lt w 25 20)
  · rw [State.fld_setFld_of_ne _ _ _ _ (by decide), State.fld_setFld_same]
    exact Nat.mod_eq_of_lt (bitsOf_lt w 19 16)

/-- A marker word on a locked channel of a port that runs. -/
theorem State.doMarker_locked {s : State} {p c : Nat} (hrun : s.linksRun = true) (hlow : 1 ≤ s.portState p)
    (hhigh : s.portState p ≤ 5) (hlock : 4 ≤ Tbl.get 0 (s.port p).lockCnt c) (w gap corr uncorr : Nat) :
    s.doMarker p c w gap corr uncorr =
      if markerValid w then
        if 4 ≤ s.portState p then ((s.countWords p corr uncorr).setPort p { s.port p with
          lost := Tbl.put (s.port p).lost c 0 }).learnMap p c w
        else (s.countWords p corr uncorr).setPort p { s.port p with lost := Tbl.put (s.port p).lost c 0 }
      else if Tbl.get 0 (s.port p).lost c = 0 then
        (s.countWords p corr uncorr).setPort p { s.port p with lost := Tbl.put (s.port p).lost c 1 }
      else (s.countWords p corr uncorr).lockLost p c := by
  rw [State.doMarker, if_pos (by simp [hrun, hlow, hhigh])]
  exact if_pos (by simp [Port.locked, hlock])

theorem State.doMarker_notLocked {s : State} {p c : Nat} (hrun : s.linksRun = true) (hlow : 1 ≤ s.portState p)
    (hhigh : s.portState p ≤ 5) (hlock : Tbl.get 0 (s.port p).lockCnt c < 4) (w gap corr uncorr : Nat) :
    s.doMarker p c w gap corr uncorr = s.setPort p { s.port p with
      lockCnt := Tbl.put (s.port p).lockCnt c (markerCount (Tbl.get 0 (s.port p).lockCnt c) gap (markerValid w))
      lost := Tbl.put (s.port p).lost c 0 } := by
  rw [State.doMarker, if_pos (by simp [hrun, hlow, hhigh])]
  exact if_neg (by simp [Port.locked, hlock])

theorem markerCount_eq (cnt gap : Nat) (ok : Bool) :
    markerCount cnt gap ok = if ok = true ∧ (cnt = 0 ∨ gap = 44800) then cnt + 1 else 0 := by
  simp [markerCount, markerGap]

theorem Port.dark_iff (x : Port) : x.dark = true ↔ ∀ e : Fin 45, Tbl.get 0 x.lockCnt e < 4 := by
  simp only [Port.dark, List.all_eq_true, List.mem_range, Port.locked, Bool.not_eq_true', decide_eq_false_iff_not,
    Nat.not_le]
  exact ⟨fun h e => h e e.isLt, fun h c hc => h ⟨c, hc⟩⟩

theorem State.rxFail_of_failed {s : State} {p c : Nat} (h : bitAt (s.failedCh p true) c = true) : s.rxFail p c = s := if_pos h

theorem State.rxFail_of_sound {s : State} {p c : Nat} (h : bitAt (s.failedCh p true) c = false) :
    s.rxFail p c = (s.setPort p { s.port p with startRx := (s.port p).startRx ||| (1#45 <<< c) }).urgentLcf p none :=
  if_neg (by simp [h])

/-! ### Spares (R315) and remaps (R337, R350) -/

theorem linkDetail_fin (p : Fin 8) {dir : Nat} (h : dir < 256) (rest : Nat) :
    linkDetail p dir rest = p.val + dir * 2 ^ 8 + rest * 2 ^ 16 := by
  rw [linkDetail, Nat.mod_eq_of_lt h, Nat.mod_eq_of_lt (show p.val < 256 by omega)]

theorem chFree_iff {m : Table Nat} {c : Nat} : chFree m c = true ↔ ∀ q ∈ m, q.2 ≠ c := by
  simp [chFree]

/-- The spare is the first free and sound one of its fibre's own and F8's. -/
theorem spareFor_spec {m : Table Nat} {failed c d : Nat} (h : spareFor m failed c = some d) :
    (d = 5 * (c / 5) + 4 ∨ 40 ≤ d ∧ d ≤ 44) ∧ bitAt failed d = false ∧ (∀ q ∈ m, q.2 ≠ d) ∧
    (d ≠ 5 * (c / 5) + 4 → bitAt failed (5 * (c / 5) + 4) = true ∨ ∃ q ∈ m, q.2 = 5 * (c / 5) + 4) := by
  have hgood := List.find?_some h
  rw [Bool.and_eq_true, Bool.not_eq_true', chFree_iff] at hgood
  refine ⟨?_, hgood.2, hgood.1, fun hne => ?_⟩
  · have hmem := List.mem_of_find?_eq_some h
    simp only [List.mem_cons, List.not_mem_nil, or_false] at hmem
    omega
  · unfold spareFor at h
    rw [List.find?_cons] at h
    split at h
    · exact absurd (Option.some.inj h).symm hne
    · rename_i hno
      rw [Bool.and_eq_false_iff, Bool.not_eq_false'] at hno
      rcases hno with hused | hfail
      · exact .inr (by simpa [chFree] using hused)
      · exact .inl hfail

theorem State.reportSwaps_append (s : State) (p dir nact : Nat) (a b : List Swap) :
    s.reportSwaps p dir nact (a ++ b) = (s.reportSwaps p dir nact a).reportSwaps p dir nact b := List.foldl_append

/-! ### UCIe modules (R320) -/

/-- The port after the loss of a UCIe module: eight channels leave both directions. -/
def Port.withoutModule (x : Port) (m : Nat) : Port :=
  let lost := x.modLost ||| (1#4 <<< m)
  { x with
    modLost := lost
    mapTx := x.mapTx.filter (fun q => !(moduleHas lost q.1))
    mapNext := x.mapNext.map (fun t => t.filter (fun q => !(moduleHas lost q.1)))
    mapRx := x.mapRx.filter (fun q => !(moduleHas lost q.1)) }

/-- The state before the record of a lost module. -/
def State.moduleGone (s : State) (p m : Nat) : State :=
  let x := (s.port p).withoutModule m
  (((s.setPort p x).setFld .LNK_GUEST_MOD_OK p (15 - x.modLost.toNat)).setFld .LNK_STATUS_NACT_RX p x.mapRx.length).setFlag
    .LNK_STATUS_CH_REMOVED p true

theorem State.moduleLost_eq (s : State) (p m : Nat) :
    s.moduleLost p m = (s.moduleGone p m).raiseNo 0x58 (linkUnit p) (linkDetail p 0 m) := by
  simp only [State.moduleLost, State.moduleGone, Port.withoutModule]

theorem State.moduleGone_port (s : State) (p m : Nat) : (s.moduleGone p m).port p = (s.port p).withoutModule m :=
  s.port_setPort p _

/-- Settles O38: markers, failures of channels, spares, and the loss of a module. -/
theorem channelsAreReplaced : Obligations.ChannelsAreReplaced := by
  refine ⟨?marker, ?lock, ?fail, ?laser, ?remap, ?report, ?spare, ?nact, fun s p => ?switch, ?module, ?fuse⟩
  case marker =>
    rintro s p c w gap k n s0 hrun hlow hhigh rfl
    refine ⟨fun hlock hok => ⟨fun hearly => congrArg Host.Outcome.next ?_, fun hlate => ?_⟩, fun hlock hbad =>
      ⟨fun hfirst => congrArg Host.Outcome.next ?_, fun hsecond => congrArg Host.Outcome.next ?_⟩, fun hno =>
      congrArg Host.Outcome.next ?_⟩
    · rw [State.doMarker_locked hrun hlow hhigh hlock, if_pos hok, if_neg (by omega)]
      rfl
    · obtain ⟨u, seen, hu, hseen, hmap, hnact, hgen, hout⟩ := ((s.countWords p k n).setPort p { s.port p with
        lost := Tbl.put (s.port p).lost c 0 }).learnMap_eq p c w.toNat
      rw [State.port_setPort] at hmap
      have hsub : ∀ q ∈ (u.port p).mapRx, q ∈ learned (s.port p).mapRx c w.toNat := by
        rcases hmap with e | e
        · exact fun q hq => e ▸ hq
        · exact fun q hq => (List.mem_filter.mp (e ▸ hq)).1
      refine ⟨u, congrArg Host.Outcome.next ?_, fun hch => ?_, fun hch q hq hc => ?_, hnact, hgen, hout⟩
      · rw [State.doMarker_locked hrun hlow hhigh hlock, if_pos hok, if_pos hlate, hu]
      · refine Tbl.get_of_mem 99 ?_ (fun v hv => ?_)
        · rcases hmap with e | e
          · exact e ▸ mem_learned_self hch
          · exact e ▸ List.mem_filter.mpr ⟨mem_learned_self hch, hseen c.isLt⟩
        · rcases mem_learned (hsub _ hv) with ⟨e, -⟩ | ⟨-, hne⟩
          · exact congrArg Prod.snd e
          · exact absurd rfl (hne hch)
      · rcases mem_learned (hsub _ hq) with ⟨-, hlt⟩ | ⟨hne, -⟩
        · omega
        · exact hne hc
    · rw [State.doMarker_locked hrun hlow hhigh hlock, if_neg (by simp [hbad]), if_pos hfirst]
      rfl
    · rw [State.doMarker_locked hrun hlow hhigh hlock, if_neg (by simp [hbad]), if_neg hsecond]
      rfl
    · rw [State.doMarker_notLocked hrun hlow hhigh hno, markerCount_eq]
  case lock =>
    rintro s p c u v hu hv
    have hfail : u.rxFail p c = v := by
      rw [hv, State.rxFail]
    have hlost : s.lockLost p c = if (v.port p).dark then v.portDown p 2 else v := by
      rw [State.lockLost, ← hu, hfail]
    rw [hlost]
    refine ⟨fun ⟨e, he⟩ => if_neg fun hdark => ?_, fun hall => if_pos ((Port.dark_iff _).mpr hall)⟩
    exact absurd ((Port.dark_iff _).mp hdark e) (by omega)
  case fail =>
    intro s p c hrun hlow hhigh
    have hgate : (s.linksRun && decide (3 ≤ s.portState p) && decide (s.portState p ≤ 5)) = true := by
      simp [hrun, hlow, hhigh]
    have hcode : s.doChannelFail p c false = s.rxFail p c := by
      rw [State.doChannelFail, if_pos hgate, if_neg (by decide)]
    have hlock : s.doChannelFail p c true = s.lockLost p c := by
      rw [State.doChannelFail, if_pos hgate, if_pos rfl]
    have hrate : s.doSymbolFail p c = s.rxFail p c := by
      rw [State.doSymbolFail, if_pos hgate]
    refine ⟨fun hsound => ⟨congrArg Host.Outcome.next ?_, congrArg Host.Outcome.next ?_⟩, fun hfailed =>
      ⟨congrArg Host.Outcome.next ?_, congrArg Host.Outcome.next ?_⟩, congrArg Host.Outcome.next hlock⟩
    · rw [hcode, State.rxFail_of_sound hsound]
    · rw [hrate, State.rxFail_of_sound hsound]
    · rw [hcode, State.rxFail_of_failed hfailed]
    · rw [hrate, State.rxFail_of_failed hfailed]
  case laser =>
    intro s p c hrun hguest
    exact congrArg Host.Outcome.next (if_pos (by simp [hrun, hguest]))
  case remap =>
    refine fun s p => ⟨_, rfl, fun hnone => if_pos (by simp [hnone]), fun hsome => if_neg (by simpa using hsome)⟩
  case report =>
    refine fun s p dir nact c l d => ⟨?_, ?_, s.reportSwaps_append p dir nact⟩
    · simp only [State.reportSwaps, List.foldl_cons, List.foldl_nil, linkDetail_fin p (show dir.val < 256 by omega)]
    · simp only [State.reportSwaps, List.foldl_cons, List.foldl_nil, linkDetail_fin p (show dir.val < 256 by omega)]
  case spare => exact fun m failed c d h => spareFor_spec h
  case nact =>
    intro s p hlow hhigh
    refine ⟨fun hfew => if_pos ⟨hlow, hhigh, hfew⟩, fun htx hrx => if_neg ?_⟩
    rintro ⟨-, -, hfew⟩
    omega
  case switch =>
    rw [State.mapSwitch, State.port_setPort]
    exact ⟨rfl, rfl⟩
  case module =>
    intro s p m hrun hguest
    refine ⟨fun hhere => ⟨s.moduleGone p m, congrArg Host.Outcome.next ?_, ?_, ?_, ?_, ?_, ?_, rfl⟩, fun hgone =>
      congrArg Host.Outcome.next (if_neg (by simp [hgone]))⟩
    · rw [State.doModuleLost, if_pos (by simp [hrun, hguest, hhere]), State.moduleLost_eq]
    · intro q
      rw [State.moduleGone_port]
      simp [Port.withoutModule, moduleHas]
    · intro q
      rw [State.moduleGone_port]
      simp [Port.withoutModule, moduleHas]
    · rw [State.moduleGone_port, State.moduleGone, State.setFlag, State.fld_setFld_of_ne _ _ _ _ (by decide),
        State.fld_setFld_same]
      rfl
    · rw [State.moduleGone, State.setFlag, State.flag, State.fld_setFld_same]
      rfl
    · rw [State.moduleGone, State.setFlag, State.fld_setFld_of_ne _ _ _ _ (by decide),
        State.fld_setFld_of_ne _ _ _ _ (by decide), State.fld_setFld_same]
      exact Nat.mod_eq_of_lt (lt_of_le_of_lt (Nat.sub_le ..) (show 15 < 2 ^ Fld.LNK_GUEST_MOD_OK.width by decide))
  case fuse =>
    rintro s o p rx r rfl hans
    refine ⟨fun hpres => congrArg Host.Outcome.next ?_, fun hpres => congrArg Host.Outcome.next ?_⟩
    · rw [State.rwpCmd_present hans hpres]
      cases rx <;> rfl
    · exact State.rwpCmd_absent hans hpres _ _ _

end Sys2Proof.Machine
end

section
/-! PROOFS. Slots, link-control flits, frames and pauses (R321, R329-R335, R340-R348). -/

namespace Sys2Proof.Machine

/-! ### Slots (R329, R333-R335) -/

/-- The receiving side of a stream of a port. -/
def Port.rx (x : Port) (control : Bool) : RxStream := if control then x.rxC else x.rxD

/-- A slot that comes to a port whose stream works. -/
theorem State.doSlot_runs {s : State} {p : Nat} (hrun : s.linksRun = true) (hlow : 4 ≤ s.portState p) (hhigh : s.portState p ≤ 5)
    (control : Bool) (seq : Nat) (bad : Bool) (u : List (Option (BitVec 256))) {r : RxStream}
    (hr : r = (if control then (s.port p).rxC else (s.port p).rxD)) {put : RxStream → State}
    (hput : put = fun r => s.setPort p (if control then { s.port p with rxC := r } else { s.port p with rxD := r })) :
    s.doSlot p control seq bad u =
      if !bad && seq == r.expect then (put (r.take u)).pauseIfFull p
      else if !bad && decide ((r.expect + 2 ^ 48 - seq) % 2 ^ 48 ≤ 2 ^ 47) then s
      else if r.nak then s
      else (put { r with nak := true }).urgentLcf p none := by
  subst hr hput
  rw [State.doSlot, if_pos (by simp [hrun, hlow, hhigh])]

/-- The buffers of a port hold 131,584 units. -/
theorem bufUnits_sum : 9 * ((List.range 7).map bufUnits).sum = 1184256 := by decide

theorem State.pauseIfFull_eq (s : State) (p : Nat) :
    s.pauseIfFull p = if 1184256 < 10 * s.bufferedUnits p then s.sendPause p else s := by
  rw [State.pauseIfFull, bufUnits_sum]

/-- The first element of a list that a test takes, with nothing before it that it takes. -/
theorem find?_of_first {α : Type} {P : α → Bool} {a b : List α} {e : α} (he : P e = true) (ha : ∀ x ∈ a, P x = false) :
    (a ++ e :: b).find? P = some e := by
  rw [List.find?_append, List.find?_eq_none.mpr (by simpa using ha), Option.none_or, List.find?_cons, he]

theorem dropWhile_of_first {α : Type} {P : α → Bool} {a b : List α} {e : α} (he : P e = false) (ha : ∀ x ∈ a, P x = true) :
    (a ++ e :: b).dropWhile P = e :: b := by
  rw [List.dropWhile_append_of_pos (by simpa using ha), List.dropWhile_cons_of_neg (by simp [he])]

theorem TxStream.acked_next (x : TxStream) (n : Nat) : (x.acked n).next = x.next := by
  unfold TxStream.acked
  split <;> rfl

theorem TxStream.acked_of_none {x : TxStream} {n : Nat} (h : ∀ e ∈ x.sent, e.seq ≠ n) : x.acked n = x :=
  if_neg (by simpa using h)

theorem TxStream.acked_of_first {x : TxStream} {n : Nat} {a b : List Slot} {e : Slot} (hx : x.sent = a ++ e :: b)
    (he : e.seq = n) (ha : ∀ f ∈ a, f.seq ≠ n) :
    x.acked n = { x with sent := b, resend := x.resend.filter (fun k => b.any (fun e => e.seq == k)) } := by
  have hdrop : (x.sent.dropWhile (fun e => e.seq != n)).drop 1 = b := by
    rw [hx, dropWhile_of_first (by simp [he]) (by simpa using ha)]
    rfl
  rw [TxStream.acked, if_pos (by simp [hx, he])]
  simp only [hdrop]

theorem TxStream.from'_of_first {x : TxStream} {n : Nat} {a b : List Slot} {e : Slot} (hx : x.sent = a ++ e :: b)
    (he : e.seq = n) (ha : ∀ f ∈ a, f.seq ≠ n) : x.from' n = n :: b.map (·.seq) := by
  rw [TxStream.from', hx, dropWhile_of_first (by simp [he]) (by simpa using ha), List.map_cons, he]

/-! ### What an LCF carries (R334, R337, R344, R345, R429) -/

/-- The checks of an accepted identity change no port's state. -/
theorem State.acceptPeer_state (s : State) (p node boot txport : Nat) (j : Nat) :
    (s.acceptPeer p node boot txport).portState j = s.portState j := by
  have hmark : ∀ (t : State) (d : Nat), (t.markBypassed p d).portState j = t.portState j := by
    intro t d
    refine List.foldlRecOn (motive := fun u : State => u.portState j = t.portState j) _ _ rfl (fun u hu k _ => ?_)
    exact (State.fld_setFld_of_ne _ _ _ _ (by decide)).trans hu
  have hset : ∀ (t : State) (d : Nat), ((((t.setFld .LNK_PEER_BOOT p boot).setFld .LNK_PEER_TXPORT p txport).setFld
      .LNK_PEER_NODE_ID p node).setFld .LNK_PEER_BYPASS p d).portState j = t.portState j := by
    intro t d
    simp [State.portState]
  unfold State.acceptPeer
  dsimp only
  split
  · exact hset _ _
  · rw [State.portState, (State.raiseNo_reports _ _ _ _).fld _ _ (by decide)]
    exact (hmark _ _).trans ((State.fld_setFld_of_ne _ _ _ _ (by decide)).trans (hset s _))

theorem State.strictCheck_state (s : State) (p : Nat) (strict : Bool) (j : Nat) :
    (s.strictCheck p strict).portState j = s.portState j := by
  unfold State.strictCheck
  dsimp only
  split
  · rfl
  · split
    · rfl
    · rw [State.portState, (State.raiseNo_reports _ _ _ _).fld _ _ (by decide)]
      exact State.fld_setFld_of_ne _ _ _ _ (by decide)

theorem State.doLcf_runs {s : State} {p : Nat} (hrun : s.linksRun = true) (hlow : 2 ≤ s.portState p) (hhigh : s.portState p ≤ 5)
    {b : List Byte} (hgood : lcfGood b = true) : s.doLcf p b = s.lcfIdentified p b :=
  if_pos (by simp [hrun, hlow, hhigh, hgood])

theorem State.lcfTake_runs {s u : State} {p : Nat} {b : List Byte} (hu : u = s.peerFails p (lcfField b 0x10 44 0))
    (hlow : 4 ≤ u.portState p) (hhigh : u.portState p ≤ 5) {v w : State}
    (hv : v = ((u.slotAck p false (lcfField b 0x18 47 0)).slotAck p true (lcfField b 0x20 47 0)).creditsGot p b)
    (hw : w = (if lcfField b 1 5 5 = 1 then v.pauseGot p (lcfField b 2 15 0) else v)) :
    s.lcfTake p b =
      if lcfField b 1 4 4 = 1 then
        (if lcfField b 1 3 3 = 1 then w.slotNak p false (lcfField b 0x28 47 0) else w).slotNak p true (lcfField b 0x30 47 0)
      else if lcfField b 1 3 3 = 1 then w.slotNak p false (lcfField b 0x28 47 0) else w := by
  rw [State.lcfTake, ← hu, if_pos ⟨hlow, hhigh⟩, ← hv]
  simp only [← hw]

/-- Writing a list of keys once each leaves each with its value. -/
theorem Tbl.get_foldl_put {α : Type} (d : α) (f : Nat → α) (l : List Nat) (t : Table α) {k : Nat} (h : k ∈ l) :
    Tbl.get d (l.foldl (fun t k => Tbl.put t k (f k)) t) k = f k := by
  induction l using List.reverseRecOn with
  | nil => cases h
  | append_singleton l j ih =>
    rw [List.foldl_append, List.foldl_cons, List.foldl_nil]
    by_cases hk : k = j
    · subst hk
      exact Tbl.get_put_same ..
    · rw [Tbl.get_put_ne _ _ _ _ _ hk]
      exact ih (by simpa [hk] using h)

theorem State.creditsGot_credit (s : State) (p : Nat) (b : List Byte) {k : Nat} (h : k < 7) :
    Tbl.get 0 ((s.creditsGot p b).port p).credit k = lcfField b (0x80 + 4 * k) 31 0 := by
  have hput := Tbl.get_foldl_put 0 (fun k => lcfField b (0x80 + 4 * k) 31 0) (List.range 7) (s.port p).credit
    (List.mem_range.mpr h)
  simp only [State.creditsGot, State.port_setPort, hput]

/-! ### Frames (R321, R322, R343, R347) -/

/-- Packets that a port takes change no register. -/
theorem State.sendHops_regs (out : Nat) (l : List Pkt) (s : State) : (s.sendHops out l).regs = s.regs := by
  induction l generalizing s with
  | nil => rfl
  | cons q l ih =>
    unfold State.sendHops
    split
    · exact ih _
    · rfl

theorem State.doFrame_due {s : State} {p : Nat} (hrun : s.linksRun = true) (hlow : 1 ≤ s.portState p) (hhigh : s.portState p ≤ 5)
    (hdue : s.now % 1000 = 0) :
    s.doFrame p = if (s.port p).leaving.any (fun t => decide (t ≤ s.now)) then s.leaveDone p else s.sendFrame p :=
  if_pos (by simp [hrun, hlow, hhigh, hdue])

theorem deal_nil (period : Nat → Nat) (chs : List Nat) : deal period chs [] = [] := rfl

theorem mem_deal {period : Nat → Nat} {chs : List Nat} {l : List (Option Word)} {k : Nat} {w : Word}
    (h : l[k]? = some (some w)) : (period (k / chs.length), chs.getD (k % chs.length) 0, w) ∈ deal period chs l := by
  refine List.mem_filterMap.mpr ⟨(some w, k), ?_, rfl⟩
  rw [List.mem_zipIdx_iff_getElem?]
  exact h

/-- Settles O39: slots, LCFs, acknowledgements, frames and pauses, branch by branch. -/
theorem streamsAreReplayed : Obligations.StreamsAreReplayed := by
  intro s p hrun
  refine ⟨?slot, fun hfull => ?_, fun hroom => ?_, fun b hbad => congrArg Host.Outcome.next (if_neg (by simp [hbad])), ?lcf,
    fun mask => rfl, ?take, ?credits, ?ack, ?nak, ?paused, ?resumed, ?works, ?frame, ?words, fun hoff => congrArg
    Host.Outcome.next (if_neg (by simp [hoff])), ?expire, ?limit, fun hsaid => congrArg Host.Outcome.next ?_⟩
  case slot =>
    intro hlow hhigh control r put hr hput
    have hslot := State.doSlot_runs hrun hlow hhigh control
    refine ⟨fun seq u heq => congrArg Host.Outcome.next ?_, fun seq bad u hbad => ?_, fun seq u hne hold =>
      congrArg Host.Outcome.next ?_⟩
    · rw [hslot _ _ _ hr hput, if_pos (by simp [heq])]
      rfl
    · have hno : ¬ (!bad && seq.toNat == r.expect) = true := by
        rcases hbad with rfl | ⟨hne, -⟩
        · simp
        · simp [hne]
      have hearly : ¬ (!bad && decide ((r.expect + 2 ^ 48 - seq.toNat) % 2 ^ 48 ≤ 2 ^ 47)) = true := by
        rcases hbad with rfl | ⟨-, hfar⟩
        · simp
        · simp only [Bool.and_eq_true, decide_eq_true_eq, not_and]
          omega
      refine ⟨fun hnak => congrArg Host.Outcome.next ?_, fun hnak => congrArg Host.Outcome.next ?_⟩
      · rw [hslot _ _ _ hr hput, if_neg hno, if_neg hearly, if_neg (by simp [hnak])]
      · rw [hslot _ _ _ hr hput, if_neg hno, if_neg hearly, if_pos hnak]
    · rw [hslot _ _ _ hr hput, if_neg (by simp [hne]), if_pos]
      simp only [Bool.not_false, Bool.true_and, decide_eq_true_eq]
      exact hold
  · exact (State.pauseIfFull_eq s p).trans (if_pos hfull)
  · exact (State.pauseIfFull_eq s p).trans (if_neg (by omega))
  case lcf =>
    rintro hlow hhigh b node txport boot u hgood hnode htxport hboot hu
    have hstate : u.portState p = s.portState p := by rw [hu, State.strictCheck_state, State.acceptPeer_state]
    have hlcf : s.doLcf p b = if s.identityGood p node txport boot then
        if lcfField b 1 1 1 = 1 then (s.acceptPeer p node boot txport).portLost p else u.lcfAccepted p b
        else s.identityFail p node txport := by
      rw [State.doLcf_runs hrun hlow hhigh hgood, State.lcfIdentified, hu, hnode, htxport, hboot]
    refine ⟨fun hid => ⟨fun hleave => congrArg Host.Outcome.next ?_, fun hstay => ⟨fun hearly =>
      congrArg Host.Outcome.next ?_, fun hlate htrain => congrArg Host.Outcome.next ?_, fun hlate htype =>
      congrArg Host.Outcome.next ?_⟩⟩, fun hwrong => congrArg Host.Outcome.next ?_⟩
    · rw [hlcf, if_pos hid, if_pos hleave]
    · rw [hlcf, if_pos hid, if_neg (by omega), State.lcfAccepted, if_pos (by omega)]
    · rw [hlcf, if_pos hid, if_neg (by omega), State.lcfAccepted, if_neg (by omega), if_neg (by omega)]
    · rw [hlcf, if_pos hid, if_neg (by omega), State.lcfAccepted, if_neg (by omega), if_pos htype]
    · rw [hlcf, if_neg (by simp [hwrong]), State.identityFail]
  case take =>
    intro b u v w hu hlow hhigh hv hw
    have htake := State.lcfTake_runs hu hlow hhigh hv hw
    refine ⟨fun hd hc => ?_, fun hd hc => ?_, fun hd hc => ?_, fun hd hc => ?_⟩ <;> simp [htake, hd, hc]
  case credits =>
    exact fun b k => s.creditsGot_credit p b k.isLt
  case ack =>
    rintro control x n rfl
    refine ⟨_, rfl, TxStream.acked_next _ n, TxStream.acked_of_none, fun a b e hx he ha => ?_⟩
    rw [TxStream.acked_of_first hx he ha]
    simp
  case nak =>
    rintro control x n rfl
    refine ⟨fun hno => ?_, fun a b e hx he ha hnew => ?_⟩
    · unfold State.slotNak
      dsimp only
      split
      · rfl
      · rename_i e hfind
        rcases hno with hnone | hunder
        · exact absurd (by simpa using List.find?_some hfind) (hnone e (List.mem_of_find?_eq_some hfind))
        · exact if_pos (List.contains_iff_mem.mpr hunder)
    · have hfind : ((s.port p).tx control).sent.find? (fun e => e.seq == n) = some e := by
        rw [hx]
        exact find?_of_first (by simp [he]) (by simpa using ha)
      have hnew' : ¬ ((s.port p).tx control).resend.contains n = true := by simpa using hnew
      refine ⟨fun hmany => ?_, fun hfew => ?_⟩
      · simp only [State.slotNak, hfind, if_neg hnew', if_pos hmany]
      · simp only [State.slotNak, hfind, if_neg hnew', if_neg (Nat.not_le.mpr hfew), TxStream.from'_of_first hx he ha]
  case paused =>
    intro n hpos
    rw [State.pauseGot, if_neg (by omega)]
    cases (s.port p).pauseSince <;> rfl
  case resumed => rw [State.pauseGot, if_pos rfl]
  case works =>
    intro hlow hhigh
    refine ⟨fun hlong => congrArg Host.Outcome.next (if_pos (by simp [hrun, hlow, hhigh, hlong])), fun hshort =>
      congrArg Host.Outcome.next (if_neg (by simp [hshort])), fun o hans => congrArg Host.Outcome.next ?_⟩
    rw [State.regCmd_trigger hans (by decide) (by decide), if_pos (by simp [hrun, hlow, hhigh]), State.sendPause]
  case frame =>
    intro hlow hhigh hdue
    have hframe := State.doFrame_due hrun hlow hhigh hdue
    refine ⟨fun t hleave hover => congrArg Host.Outcome.next ?_, fun u lcf r hstay hu hr => ?_⟩
    · rw [hframe, if_pos (by simp [hleave, hover]), State.leaveDone]
    · have hsend : s.doFrame p = s.sendFrame p := by
        rw [hframe, if_neg]
        rw [Option.any_eq_true]
        rintro ⟨t, ht, hover⟩
        exact absurd (of_decide_eq_true hover) (Nat.not_le.mpr (hstay t ht))
      have hport : u.portState p = s.portState p := by
        rw [hu, State.portState, State.fld, State.sendHops_regs]
        rfl
      have hu' : (s.mapSwitch p).sendHops p ((s.mapSwitch p).port p).hopQ = u := by
        rw [hu, State.mapSwitch, State.port_setPort]
      refine ⟨fun hfirst => congrArg Host.Outcome.next ?_, fun htrain hlcf => congrArg Host.Outcome.next ?_, fun hworks hlcf =>
        congrArg Host.Outcome.next ?_⟩
      · rw [hsend, State.sendFrame, if_pos (by omega), hu', State.training, if_neg (by omega)]
      · rw [hsend, State.sendFrame, if_pos (by omega), hu', State.training, if_pos (by omega), ← hlcf]
      · rw [hsend, State.sendFrame, if_neg (by omega), hu', ← hlcf]
        simp only [← hr]
  case words =>
    rintro lcf chs c d rfl rfl rfl
    refine ⟨fun hpause => ?_, fun hgo => ?_, fun period l k w => mem_deal⟩
    · simp only [State.frameWords, hpause, if_true, deal_nil, List.append_nil]
    · simp only [State.frameWords, hgo, Bool.false_eq_true, if_false]
  case expire =>
    intro t ht
    refine ⟨fun hover => congrArg Host.Outcome.next ?_, fun hearly => congrArg Host.Outcome.next ?_⟩
    · simp only [State.doPauseExpire, ht, hrun, hover, and_self, if_true]
    · simp only [State.doPauseExpire, ht, if_neg (fun h : _ ∧ t ≤ s.now => Nat.not_le.mpr hearly h.2)]
  case limit =>
    intro t ht hnew
    refine ⟨fun hover => congrArg Host.Outcome.next ?_, fun hearly => congrArg Host.Outcome.next ?_⟩
    · simp only [State.doPauseLimit, ht, hrun, hnew, hover, Bool.not_false, Bool.and_self, decide_true, if_true]
    · simp only [State.doPauseLimit, ht]
      exact if_neg (by simp [hearly])
  · unfold State.doPauseLimit
    dsimp only
    split
    · exact if_neg (by simp [hsaid])
    · rfl

end Sys2Proof.Machine
end

section
/-! PROOFS. Bring-up, retraining and loss of a port (R317-R320, R343, R346-R348, R358, R377). -/

namespace Sys2Proof.Machine

/-! ### The state of a port (R343, R348) -/

/-- A port that enters a state is the state's write and a trace. -/
theorem State.setPortState_reports (s : State) (p v : Nat) : Reports (s.setFld .LNK_STATUS_STATE p v) (s.setPortState p v) := by
  unfold State.setPortState
  dsimp only
  split
  · exact .refl _
  · exact State.trace_reports ..

theorem State.setPortState_port (s : State) (p v k : Nat) : (s.setPortState p v).port k = s.port k :=
  (s.setPortState_reports p v).port k

theorem State.setPortState_state (s : State) (p v : Nat) : (s.setPortState p v).portState p = v % 2 ^ Fld.LNK_STATUS_STATE.width :=
  ((s.setPortState_reports p v).fld _ _ (by decide)).trans (s.fld_setFld_same ..)

theorem State.setPortState_fld (s : State) (p v : Nat) {g : Fld} (j : Nat) (hr : g ∉ reportFlds) (hg : g ≠ .LNK_STATUS_STATE) :
    (s.setPortState p v).fld g j = s.fld g j :=
  ((s.setPortState_reports p v).fld g j hr).trans (s.fld_setFld_of_ne _ _ _ hg.symm)

theorem State.portOff_state (s : State) (p : Nat) : (s.portOff p).portState p = 0 := by
  refine (State.fld_setFld_of_ne _ _ _ _ (by decide)).trans ((State.setPortState_state _ p 0).trans ?_)
  exact Nat.zero_mod _

theorem State.portOff_fld (s : State) (p : Nat) {g : Fld} (j : Nat) (hr : g ∉ reportFlds)
    (hg : g ∉ [Fld.LNK_STATUS_STATE, .LNK_STATUS_PAUSED]) : (s.portOff p).fld g j = s.fld g j := by
  simp only [List.mem_cons, List.not_mem_nil, or_false, not_or] at hg
  exact (State.fld_setFld_of_ne _ _ _ _ (Ne.symm hg.2)).trans (State.setPortState_fld _ p 0 j hr hg.1)

/-! ### Starting (R317, R343) -/

theorem State.litLocked_iff (s : State) (p : Nat) (lit : BitVec 45) :
    s.litLocked p lit.toNat = true ↔ ∀ c : Fin 45, lit.getLsbD c = true → 4 ≤ Tbl.get 0 (s.port p).lockCnt c := by
  have hbit : ∀ c, bitAt lit.toNat c = lit.getLsbD c := by
    intro c
    rw [bitAt, BitVec.getLsbD, Nat.testBit_eq_decide_div_mod_eq]
    exact beq_eq_decide ..
  simp only [State.litLocked, List.all_eq_true, List.mem_range, hbit, Port.locked, Bool.or_eq_true, Bool.not_eq_true',
    decide_eq_true_eq]
  refine ⟨fun h c hc => (h c c.isLt).resolve_left (by simp [hc]), fun h c hc => ?_⟩
  by_cases hl : lit.getLsbD c = true
  · exact .inr (h ⟨c, hc⟩ hl)
  · exact .inl (by simpa using hl)

theorem State.doPortAdvance_of_state {s : State} (hrun : s.linksRun = true) (p : Nat) (v : PortView) :
    s.doPortAdvance p v = match s.portState p with
      | 0 => if s.flag .LNK_CFG_ENABLE p && s.flag .LNK_GUEST_ADMITTED p then s.portStart p else s
      | 1 => if s.minCh p ≤ popCount v.lit.toNat then s.setPortState p 2 else s
      | 2 => if v.lit ≠ 0 ∧ s.litLocked p v.lit.toNat ∧ v.testDone then s.lockDone p v else s
      | 3 => s.deskewed p v
      | 4 => if 3 ≤ (s.port p).identOk then (s.setPortState p 5).portChange else s
      | _ => s :=
  if_pos hrun

theorem State.portStart_port (s : State) (p : Nat) :
    (s.portStart p).port p = { s.port p with startTx := 0, startRx := 0, gotMask := false } := by
  simp only [State.portStart, State.setPortState_port, State.setFld_port_eq, State.port_setPort]

theorem State.portStart_fld (s : State) (p : Nat) {g : Fld} (j : Nat) (hr : g ∉ reportFlds)
    (hg : g ∉ [Fld.LNK_STATUS_STATE, .LNK_CNT_UNCORR, .LNK_CNT_CORR_SYM, .LNK_CNT2_REPLAYS, .LNK_CNT2_REMAPS]) :
    (s.portStart p).fld g j = s.fld g j := by
  simp only [List.mem_cons, List.not_mem_nil, or_false, not_or] at hg
  obtain ⟨h1, h2, h3, h4, h5⟩ := hg
  simp only [State.portStart, State.setPortState_fld _ p 1 j hr h1, State.fld_setFld_of_ne _ _ _ _ (Ne.symm h2),
    State.fld_setFld_of_ne _ _ _ _ (Ne.symm h3), State.fld_setFld_of_ne _ _ _ _ (Ne.symm h4),
    State.fld_setFld_of_ne _ _ _ _ (Ne.symm h5), State.fld_setPort]

theorem State.portStart_counters (s : State) (p : Nat) {g : Fld}
    (hg : g ∈ [Fld.LNK_CNT_UNCORR, .LNK_CNT_CORR_SYM, .LNK_CNT2_REPLAYS, .LNK_CNT2_REMAPS]) : (s.portStart p).fld g p = 0 := by
  simp only [List.mem_cons, List.not_mem_nil, or_false] at hg
  rcases hg with rfl | rfl | rfl | rfl <;>
    exact (State.setPortState_fld _ p 1 p (by decide) (by decide)).trans (by simp)

/-! ### Guests (R318-R320) -/

theorem State.guestStep_lt {s : State} {g : GuestInfo} {step : Nat} (h : s.guestStep g = some step) : step < 8 := by
  unfold State.guestStep at h
  split_ifs at h <;> simp only [Option.some.injEq] at h <;> omega

/-- A guest that is admitted with all its modules. -/
theorem State.acceptGuest_whole {s : State} {g : GuestInfo} (h : s.guestStep g = none) (hm : g.modules = 15#4) (p : Nat) :
    s.acceptGuest p g = ((((((s.guestRead p g).setFld .LNK_GUEST_ADMIT p 0).setFlag .LNK_GUEST_ADMITTED p true).setFld
      .LNK_GUEST_RATE p g.rate.toNat).setFld .LNK_GUEST_MOD_OK p 15).setPort p { s.port p with modLost := 0 }).portOff p := by
  have hnone : (List.range 4).filter (fun m => !(bitAt (15#4).toNat m)) = [] := by decide
  simp only [State.acceptGuest, h, hm, hnone, List.foldl_nil]

/-- What stands before the record of a refused guest. -/
def State.guestRefused (s : State) (p step : Nat) (g : GuestInfo) : State :=
  ((((((if step = 1 then s else s.guestRead p g).setFld .LNK_GUEST_ADMIT p step).setFlag .LNK_GUEST_ADMITTED p false).setFld
    .LNK_GUEST_RATE p 0).setFld .LNK_GUEST_MOD_OK p 0)).portOff p

theorem State.acceptGuest_refused {s : State} {g : GuestInfo} {step : Nat} (h : s.guestStep g = some step) (p : Nat) :
    s.acceptGuest p g = (s.guestRefused p step g).raiseNo 0x57 (linkUnit p)
      (linkDetail p 0 (step + g.vendor.toNat * 2 ^ 8 + g.device.toNat * 2 ^ 24)) := by
  simp only [State.acceptGuest, h, State.guestRefuse, State.guestRefused]

/-! ### Switches (R346) -/

theorem State.driveSwitch_bit (s : State) {a : Nat} (h : a < 4) (on : Bool) :
    (s.driveSwitch a on).power.switches.getLsbD a = on := by
  unfold State.driveSwitch
  split
  · assumption
  · cases on <;> simp [h]

theorem State.axisUsable_iff (s : State) (a : Nat) : s.axisUsable a = true ↔ ∀ q, q / 2 = a →
    s.flag .LNK_CFG_ENABLE q = true ∨ (s.port q).leaving.isSome = true := by
  have hq : ∀ q, q / 2 = a ↔ q = 2 * a ∨ q = 2 * a + 1 := by omega
  simp only [State.axisUsable, State.portUsed, hq, Bool.and_eq_true, Bool.or_eq_true, forall_eq_or_imp, forall_eq]

theorem State.axisLocal_iff (s : State) (a : Nat) : s.axisLocal a = true ↔ ∀ q, q / 2 = a →
    (s.flag .LNK_CFG_ENABLE q = true ∨ (s.port q).leaving.isSome = true) ∧ s.flag .LNK_GUEST_ADMITTED q = true := by
  rw [State.axisLocal, Bool.and_eq_true, Bool.and_eq_true, State.axisUsable_iff]
  have hq : ∀ q, q / 2 = a ↔ q = 2 * a ∨ q = 2 * a + 1 := by omega
  simp only [hq, forall_eq_or_imp, forall_eq]
  exact ⟨fun ⟨⟨⟨h1, h2⟩, h3⟩, h4⟩ => ⟨⟨h1, h3⟩, h2, h4⟩, fun ⟨⟨h1, h3⟩, h2, h4⟩ => ⟨⟨⟨h1, h2⟩, h3⟩, h4⟩⟩

/-! ### A port that goes down (R348, R377) -/

theorem State.sendHops_port_ne (out : Nat) (l : List Pkt) (s : State) {k : Nat} (h : k ≠ out) :
    (s.sendHops out l).port k = s.port k := by
  induction l generalizing s with
  | nil => exact Tbl.get_put_ne _ _ _ _ _ h
  | cons q l ih =>
    unfold State.sendHops
    split
    · exact (ih _).trans (Tbl.get_put_ne _ _ _ _ _ h)
    · exact Tbl.get_put_ne _ _ _ _ _ h

/-- The fields of an axis that a conversion sets. -/
def State.axisLine (s : State) (a brk : Nat) : State :=
  ((s.setFlag .FAB_AXIS_LINE a true).setFld .FAB_AXIS_BREAK a brk).setFlag .FAB_AXIS_AUTO a true

theorem State.convertAxis_line {s : State} {a : Nat} (h : s.flag .FAB_AXIS_LINE a = true ∨ s.axisUsed a = false) (brk out : Nat) :
    s.convertAxis a brk out = s := if_pos (by simpa using h)

theorem State.convertAxis_ring {s : State} {a : Nat} (hring : s.flag .FAB_AXIS_LINE a = false) (hused : s.axisUsed a = true)
    (brk out : Nat) : s.convertAxis a brk out =
      (if s.portOpen out then (s.axisLine a brk).sendHop out ((s.axisLine a brk).hopPkt out 8 (brk + a * 2 ^ 8) [])
        else s.axisLine a brk).raiseNo 0x66 (linkUnit out) (a % 256 + brk * 2 ^ 8) := by
  have hopen : (s.axisLine a brk).portOpen out = s.portOpen out := by
    simp [State.portOpen, State.linksRun, State.portState, State.axisLine, State.setFlag]
  rw [← hopen]
  exact if_neg (by simp [hring, hused])

theorem State.convertAxis_port_ne (s : State) (a brk : Nat) {out k : Nat} (h : k ≠ out) :
    (s.convertAxis a brk out).port k = s.port k := by
  by_cases hring : s.flag .FAB_AXIS_LINE a = false ∧ s.axisUsed a = true
  · rw [State.convertAxis_ring hring.1 hring.2, (State.raiseNo_reports _ _ _ _).port]
    split
    · exact State.sendHops_port_ne out _ _ h
    · rfl
  · rw [State.convertAxis_line]
    cases hl : s.flag .FAB_AXIS_LINE a <;> simp_all

theorem State.convertAxis_fld (s : State) (a brk out : Nat) {g : Fld} (j : Nat) (hr : g ∉ reportFlds)
    (hg : g ∉ [Fld.FAB_AXIS_LINE, .FAB_AXIS_BREAK, .FAB_AXIS_AUTO]) : (s.convertAxis a brk out).fld g j = s.fld g j := by
  by_cases hring : s.flag .FAB_AXIS_LINE a = false ∧ s.axisUsed a = true
  · have hline : (s.axisLine a brk).fld g j = s.fld g j := by
      simp only [List.mem_cons, List.not_mem_nil, or_false, not_or] at hg
      obtain ⟨h1, h2, h3⟩ := hg
      simp only [State.axisLine, State.setFlag, State.fld_setFld_of_ne _ _ _ _ (Ne.symm h1),
        State.fld_setFld_of_ne _ _ _ _ (Ne.symm h2), State.fld_setFld_of_ne _ _ _ _ (Ne.symm h3)]
    rw [State.convertAxis_ring hring.1 hring.2, (State.raiseNo_reports _ _ _ _).fld _ _ hr]
    split
    · rw [State.sendHop, State.fld, State.sendHops_regs]
      exact hline
    · exact hline
  · rw [State.convertAxis_line]
    cases hl : s.flag .FAB_AXIS_LINE a <;> simp_all

/-- An axis in ring mode that is in use is a line after its conversion, broken where it says. -/
theorem State.convertAxis_axis {s : State} {a : Nat} (hring : s.flag .FAB_AXIS_LINE a = false) (hused : s.axisUsed a = true)
    (brk out : Nat) : (s.convertAxis a brk out).flag .FAB_AXIS_LINE a = true ∧
      (s.convertAxis a brk out).fld .FAB_AXIS_BREAK a = brk % 2 ^ Fld.FAB_AXIS_BREAK.width := by
  have hfld : ∀ g : Fld, g ∉ reportFlds → (s.convertAxis a brk out).fld g a = (s.axisLine a brk).fld g a := by
    intro g hr
    rw [State.convertAxis_ring hring hused, (State.raiseNo_reports _ _ _ _).fld _ _ hr]
    split
    · rw [State.sendHop, State.fld, State.sendHops_regs]
      rfl
    · rfl
  constructor
  · rw [State.flag, hfld _ (by decide)]
    simp [State.axisLine, State.setFlag, State.fld_setFld_of_ne]
    decide
  · rw [hfld _ (by decide)]
    simp [State.axisLine, State.setFlag, State.fld_setFld_of_ne]

/-- The port's own part of its loss: FAILED, with fresh streams. -/
def State.portFailed (s : State) (p : Nat) : State :=
  (((s.setPort p { (s.port p).freshStreams with failedAt := some s.now, identOk := 0, lockCnt := [], lost := [] }).setPortState p
    7).setFlag .LNK_STATUS_PAUSED p false).portChange

theorem State.portLost_eq (s : State) (p : Nat) :
    s.portLost p = (s.portFailed p).convertAxis (portAxis p) (s.breakAt p) (portTwin p) := by
  rw [State.portLost, State.portFailed]

theorem State.portFailed_port (s : State) (p : Nat) : (s.portFailed p).port p =
    { (s.port p).freshStreams with failedAt := some s.now, identOk := 0, lockCnt := [], lost := [] } :=
  (State.setPortState_port _ p 7 p).trans (State.port_setPort ..)

theorem State.portFailed_fld (s : State) (p : Nat) {g : Fld} (j : Nat) (hr : g ∉ reportFlds)
    (hg : g ∉ [Fld.LNK_STATUS_STATE, .LNK_STATUS_PAUSED, .MGT_DET_EVT_PORT_CHANGES]) : (s.portFailed p).fld g j = s.fld g j := by
  simp only [List.mem_cons, List.not_mem_nil, or_false, not_or] at hg
  obtain ⟨h1, h2, h3⟩ := hg
  exact (State.fld_setFld_of_ne _ _ _ _ (Ne.symm h3)).trans ((State.fld_setFld_of_ne _ _ _ _ (Ne.symm h2)).trans
    (State.setPortState_fld _ p 7 j hr h1))

theorem State.portFailed_state (s : State) (p : Nat) : (s.portFailed p).portState p = 7 :=
  (State.fld_setFld_of_ne _ _ _ _ (by decide)).trans ((State.fld_setFld_of_ne _ _ _ _ (by decide)).trans
    (State.setPortState_state _ p 7))

theorem portTwin_ne (p : Nat) : p ≠ portTwin p := by
  unfold portTwin
  split <;> omega

/-- Settles O40: the states of a port, its guests, its switch, and its loss. -/
theorem portsComeUpAndGoDown : Obligations.PortsComeUpAndGoDown := by
  intro s p hrun
  refine ⟨fun v => ?advance, ?accept, ?refuse, ?auto, ?retrain, ?enable, ?drive, ?release, ?keep, fun hguest =>
    congrArg Host.Outcome.next (if_pos (by simp [hrun, hguest])), fun hnone => congrArg Host.Outcome.next (if_neg (by
    simp [hnone])), ?down, fun cause hout => if_neg (by omega), ?convert⟩
  case advance =>
    have hadv := State.doPortAdvance_of_state hrun p v
    refine ⟨fun h0 hen had => ⟨s.portStart p, congrArg Host.Outcome.next ?_, ?_⟩, fun h0 hno => congrArg Host.Outcome.next ?_,
      fun h1 hlit => congrArg Host.Outcome.next ?_, fun h1 hfew => congrArg Host.Outcome.next ?_, fun h2 =>
      ⟨fun hlit htest hlock => congrArg Host.Outcome.next ?_, fun hno => congrArg Host.Outcome.next ?_⟩, ?deskew,
      fun h4 hid => congrArg Host.Outcome.next ?_, fun h4 hid => congrArg Host.Outcome.next ?_, fun h5 =>
      congrArg Host.Outcome.next ?_⟩
    · simp only [hadv, h0, hen, had, Bool.and_self, if_true]
    · refine ⟨State.setPortState_state _ p 1, ?_, ?_, s.portStart_counters p (by decide), s.portStart_counters p (by decide),
        s.portStart_counters p (by decide), s.portStart_counters p (by decide), ?_⟩
      · simp [State.failedCh, State.portStart_port, s.portStart_fld p p (g := .LNK_CHFUSE_RX_FUSED) (by decide) (by decide)]
      · simp [State.failedCh, State.portStart_port, s.portStart_fld p p (g := .LNK_CHFUSE_TX_FUSED) (by decide) (by decide)]
      · rw [State.portStart_port]
    · simp only [hadv, h0]
      exact if_neg (by rcases hno with e | e <;> simp [e])
    · simp only [hadv, h1, if_pos hlit]
    · simp only [hadv, h1, if_neg (Nat.not_le.mpr hfew)]
    · simp only [hadv, h2]
      exact if_pos ⟨hlit, (State.litLocked_iff s p v.lit).mpr hlock, htest⟩
    · simp only [hadv, h2]
      refine if_neg (fun ⟨hlit, hlock, htest⟩ => ?_)
      rcases hno with h | h | ⟨c, hc, hlow⟩
      · exact hlit h
      · exact Bool.false_ne_true (h ▸ htest)
      · exact absurd ((State.litLocked_iff s p v.lit).mp hlock c hc) (Nat.not_le.mpr hlow)
    case deskew =>
      rintro tx rx h3 rfl rfl
      refine ⟨fun htx hrx hdesk hmask => congrArg Host.Outcome.next ?_, fun hno => congrArg Host.Outcome.next ?_⟩
      · simp only [hadv, h3, State.deskewed]
        rw [if_neg (by simp [htx, hrx, hdesk, hmask])]
        rfl
      · simp only [hadv, h3, State.deskewed]
        exact if_pos (by simpa using hno)
    · simp only [hadv, h4, if_pos hid]
    · simp only [hadv, h4, if_neg (Nat.not_le.mpr hid)]
    · rw [hadv]
      split <;> [omega; omega; omega; omega; omega; rfl]
  case accept =>
    intro g hgood hmods
    rw [State.acceptGuest_whole hgood hmods]
    refine ⟨?_, ?_, ?_, ?_, State.portOff_state _ p⟩
    · rw [State.flag, State.portOff_fld _ p p (by decide) (by decide)]
      simp [State.setFlag, State.fld_setFld_of_ne]
      decide
    · rw [State.portOff_fld _ p p (by decide) (by decide)]
      simp [State.fld_setFld_of_ne]
      exact Nat.mod_eq_of_lt g.rate.isLt
    · rw [State.portOff_fld _ p p (by decide) (by decide)]
      simp [State.fld_setFld_of_ne, State.setFlag, State.guestRead]
      exact Nat.mod_eq_of_lt g.vendor.isLt
    · rw [State.portOff_fld _ p p (by decide) (by decide)]
      simp
      decide
  case refuse =>
    intro g step hstep
    refine ⟨s.guestRefused p step g, State.acceptGuest_refused hstep p, ?_, ?_, ?_, ?_, State.portOff_state _ p⟩
    · rw [State.flag, State.guestRefused, State.portOff_fld _ p p (by decide) (by decide)]
      simp [State.setFlag, State.fld_setFld_of_ne]
    · rw [State.guestRefused, State.portOff_fld _ p p (by decide) (by decide)]
      simp [State.setFlag, State.fld_setFld_of_ne]
      exact Nat.mod_eq_of_lt (State.guestStep_lt hstep)
    · rw [State.guestRefused, State.portOff_fld _ p p (by decide) (by decide)]
      simp [State.fld_setFld_of_ne]
    · rw [State.guestRefused, State.portOff_fld _ p p (by decide) (by decide)]
      simp
  case auto =>
    intro g t ht h7 hauto
    refine ⟨fun hdue => congrArg Host.Outcome.next ?_, fun hearly => congrArg Host.Outcome.next ?_⟩
    · simp only [State.doAutoRetrain, ht, State.retrainPort]
      exact if_pos (by simp [hrun, h7, hauto, hdue])
    · simp only [State.doAutoRetrain, ht]
      exact if_neg (by simp [hearly])
  case retrain =>
    intro g o hans
    refine congrArg Host.Outcome.next ?_
    rw [State.regCmd_trigger hans (by decide) (by decide), if_pos hrun, State.retrainPort]
  case enable =>
    rintro o u hans rfl
    refine ⟨congrArg Host.Outcome.next ?_, fun hlow hhigh hstay => congrArg Host.Outcome.next ?_, fun hout =>
      congrArg Host.Outcome.next ?_⟩
    · rw [State.regCmd_trigger hans (by decide) (by decide)]
      rfl
    · rw [State.regCmd_trigger hans (by decide) (by decide), State.portEnable, if_neg (by decide), if_neg (by decide),
        State.disablePort, if_pos ⟨hlow, hhigh⟩, if_neg (by simp [hstay]), State.leave, State.now, State.setFlag,
        State.setFld_port_eq, State.fld_setFld_of_ne _ _ _ _ (by decide), State.now]
    · rw [State.regCmd_trigger hans (by decide) (by decide), State.portEnable, if_neg (by decide), if_neg (by decide),
        State.disablePort, if_neg (by omega), State.leaveDone]
  case drive =>
    intro hall
    have hloc : s.axisLocal (portAxis p) = true :=
      (State.axisLocal_iff s _).mpr (fun q hq => hall q hq (by rw [portAxis] at hq; omega))
    rw [State.switchUpdate, if_pos hloc]
    exact s.driveSwitch_bit (show p.val / 2 < 4 by omega) true
  case release =>
    rintro ⟨q, hq, -, hen, hleave⟩
    have huse : ¬ s.axisUsable (portAxis p) = true := by
      intro h
      rcases (State.axisUsable_iff s _).mp h q hq with e | e
      · simp [hen] at e
      · simp [hleave] at e
    have hloc : ¬ s.axisLocal (portAxis p) = true := fun h => huse (by
      rw [State.axisLocal, Bool.and_eq_true, Bool.and_eq_true] at h
      exact h.1.1)
    rw [State.switchUpdate, if_neg hloc, if_neg huse]
    exact s.driveSwitch_bit (show p.val / 2 < 4 by omega) false
  case keep =>
    rintro hall ⟨q, hq, -, hguest⟩
    have huse : s.axisUsable (portAxis p) = true :=
      (State.axisUsable_iff s _).mpr (fun q hq => hall q hq (by rw [portAxis] at hq; omega))
    have hloc : ¬ s.axisLocal (portAxis p) = true := by
      intro h
      have hall := ((State.axisLocal_iff s _).mp h q hq).2
      simp [hguest] at hall
    rw [State.switchUpdate, if_neg hloc, if_pos huse]
  case down =>
    intro cause u hlow hhigh hu
    have hreg : ∀ (g : Fld) (j : Nat), g ∉ reportFlds → g ≠ .LNK_STATUS_DOWN_EVT → u.fld g j = s.fld g j := by
      intro g j hr hg
      rw [hu, (State.raiseNo_reports _ _ _ _).fld _ _ hr]
      exact State.fld_setFld_of_ne _ _ _ _ hg.symm
    have hport : (u.portLost p).port p = (u.portFailed p).port p := by
      rw [State.portLost_eq, State.convertAxis_port_ne _ _ _ (portTwin_ne p)]
    have hbreak : u.breakAt p = if p.val % 2 = 0 then s.coord (p / 2) else
        (s.coord (p / 2) + s.axisLen (p / 2) - 1) % s.axisLen (p / 2) := by
      simp only [State.breakAt, State.coord, State.selfNode, State.axisLen, hreg .FAB_NODE_NODE_ID 0 (by decide) (by decide),
        hreg .FAB_AXIS_LEN_M1 _ (by decide) (by decide), portAxis, portPlus, beq_iff_eq]
    have hfailed : ∀ (g : Fld) (j : Nat), g ∈ [Fld.FAB_AXIS_LEN_M1, .FAB_AXIS_LINE] → (u.portFailed p).fld g j = s.fld g j := by
      intro g j hg
      simp only [List.mem_cons, List.not_mem_nil, or_false] at hg
      rcases hg with rfl | rfl
      · exact (State.portFailed_fld u p j (by decide) (by decide)).trans (hreg _ j (by decide) (by decide))
      · exact (State.portFailed_fld u p j (by decide) (by decide)).trans (hreg _ j (by decide) (by decide))
    refine ⟨?_, ?_, ?_, ?_, ?_, ?_, ?_, ⟨u.portFailed p, u.portLost_eq p, u.portFailed_state p⟩, fun hused => ?_⟩
    · rw [State.portDown, if_pos ⟨hlow, hhigh⟩, ← hu]
    · rw [State.portLost_eq, State.portState, State.convertAxis_fld _ _ _ _ _ (by decide) (by decide)]
      exact u.portFailed_state p
    · rw [hport, State.portFailed_port]
    · rw [hport, State.portFailed_port, Port.freshStreams]
    · rw [hport, State.portFailed_port, Port.freshStreams]
    · rw [hport, State.portFailed_port, Port.freshStreams]
    · rw [hport, State.portFailed_port, Port.freshStreams]
    · have hu' : (u.portFailed p).axisUsed (portAxis p) = true := by
        rw [State.axisUsed, hfailed _ _ (by decide)]
        simpa [portAxis] using hused
      have hl : (u.portFailed p).flag .FAB_AXIS_LINE (portAxis p) = s.flag .FAB_AXIS_LINE (p / 2) := by
        rw [State.flag, hfailed _ _ (by decide)]
        rfl
      cases hline : s.flag .FAB_AXIS_LINE (p / 2) with
      | false =>
        obtain ⟨hset, hbrk⟩ := State.convertAxis_axis (hl.trans hline) hu' (u.breakAt p) (portTwin p)
        refine ⟨hset, fun _ => hbrk.trans ?_⟩
        rw [hbreak]
        rfl
      | true =>
        refine ⟨?_, fun h => absurd h (by decide)⟩
        rw [State.portLost_eq, State.convertAxis_line (.inl (hl.trans hline))]
        exact hl.trans hline
  case convert =>
    rintro a brk out u
    refine ⟨fun h => State.convertAxis_line h brk out, ?_⟩
    rintro hring hused rfl
    refine ⟨fun hopen => ?_, fun hclosed => ?_⟩
    · rw [State.convertAxis_ring hring hused, if_pos hopen]
      rfl
    · rw [State.convertAxis_ring hring hused, if_neg (by simp [hclosed])]
      rfl

end Sys2Proof.Machine
end

section
/-! PROOFS. Packets that arrive (R361-R365, R372, R374-R377). -/

namespace Sys2Proof.Machine

/-! ### Checks of a packet (R363, R379) -/

theorem State.checkPkt_of_closed {s : State} {port : Nat} (h : s.portOpen port = false) (type : Nat) (hdr : BitVec 256)
    (payload : List Byte) (act : State → Pkt → State) : s.checkPkt port type hdr payload act = s :=
  if_neg (by simp [h])

theorem State.checkPkt_of_absent {s : State} {port : Nat} {hdr : BitVec 256} {payload : List Byte}
    (h : (s.port port).holds (hdr :: unitsOf payload) = none) (type : Nat) (act : State → Pkt → State) :
    s.checkPkt port type hdr payload act = s := by
  simp only [State.checkPkt, h]
  split <;> rfl

/-- A packet that stands whole at the front of an open port's units is taken, whatever its header. -/
theorem State.checkPkt_of_stands {s : State} {port type : Nat} {hdr : BitVec 256} {payload : List Byte} {ctl : Bool} {p : Pkt}
    (hp : p = cutPkt hdr.toNat payload) (hopen : s.portOpen port = true) (hwhole : (unitsOf payload).length = payloadUnits p)
    (hfront : (s.port port).holds (hdr :: unitsOf payload) = some ctl) (hkind : headerBad hdr.toNat = true ∨ p.type = type)
    (act : State → Pkt → State) :
    s.checkPkt port type hdr payload act =
      if headerBad hdr.toNat then (s.taken port hdr payload ctl p).badHeader port p
      else if p.part.toNat ≠ s.fld .FAB_NODE_PART 0 then (s.taken port hdr payload ctl p).badPart port p
      else act (s.taken port hdr payload ctl p) p := by
  subst hp
  have hgate : (s.portOpen port && (headerBad hdr.toNat || (cutPkt hdr.toNat payload).type == type) &&
      (unitsOf payload).length == payloadUnits (cutPkt hdr.toNat payload)) = true := by
    simp [hopen, hwhole, hkind]
  simp only [State.checkPkt, hgate, if_true, hfront, State.taken]

/-- What an arrival does with a packet that its checks pass. -/
def arrival (port resid : Nat) (s : State) (p : Pkt) : State :=
  if p.dst.toNat = s.selfNode then (s.freePkt port p).eject port p resid else s.enqueuePkt port p

theorem State.arrive_eq (s : State) (port type : Nat) (hdr : BitVec 256) (payload : List Byte) (resid : Nat) :
    s.arrive port type hdr payload resid = s.checkPkt port type hdr payload (arrival port resid) := rfl

theorem arrival_here {port resid : Nat} {s : State} {p : Pkt} (h : p.dst.toNat = s.selfNode) :
    arrival port resid s p = (s.freePkt port p).eject port p resid := if_pos h

theorem arrival_away {port resid : Nat} {s : State} {p : Pkt} (h : p.dst.toNat ≠ s.selfNode) :
    arrival port resid s p = s.enqueuePkt port p := if_neg h

/-! ### Arrival at a receive flow (R374) -/

theorem eject_flow {p : Pkt} (h : flowType p.type = true) (s : State) (port resid : Nat) :
    s.eject port p resid = s.flowArrive port p resid := by
  unfold State.eject
  split
  · rename_i ht
    rw [ht] at h
    exact absurd h (by decide)
  · rename_i ht
    rw [ht] at h
    exact absurd h (by decide)
  · rename_i ht
    rw [ht] at h
    exact absurd h (by decide)
  · exact if_pos h

theorem State.traceGot_reports (s : State) (port : Nat) (p : Pkt) (dup : Bool) : Reports s (s.traceGot port p dup) := by
  unfold State.traceGot
  split
  · exact State.trace_reports ..
  · exact .refl s

theorem Reports.recvFlow {s t : State} (h : Reports s t) (d : Nat) : t.recvFlow d = s.recvFlow d := by
  rw [h.outside]
  rfl

theorem RecvFlow.gap_parked (x : RecvFlow) (now : Nat) (moved : Bool) : (x.gap now moved).parked = x.parked := by
  unfold RecvFlow.gap
  split
  · rfl
  · split <;> rfl

theorem RecvFlow.gap_expected (x : RecvFlow) (now : Nat) (moved : Bool) : (x.gap now moved).expected = x.expected := by
  unfold RecvFlow.gap
  split
  · rfl
  · split <;> rfl

section Arrives
variable {s : State} {port : Nat} {q : Pkt} {x : RecvFlow} (hx : x = s.recvFlow q.dflow.toNat)
include hx

theorem State.flowArrive_notMine (h : x.opened = false ∨ x.ctx ≠ q.ctx) (resid : Nat) :
    s.flowArrive port q resid = (s.traceGot port q false).refusePkt port q := by
  have hmine : (!(s.recvFlow q.dflow.toNat).opened || (s.recvFlow q.dflow.toNat).ctx != q.ctx) = true := by
    rw [← hx]
    simpa using h
  have hno : ((s.recvFlow q.dflow.toNat).opened && (s.recvFlow q.dflow.toNat).ctx == q.ctx) = false := by
    rw [← hx]
    rcases h with e | e <;> simp [e]
  simp only [State.flowArrive, hmine, hno, if_true, Bool.false_and]

theorem State.flowArrive_oldEpoch (hopen : x.opened = true) (hctx : x.ctx = q.ctx)
    (h : q.epoch.toNat ≠ s.fld .CTX_CFG_EPOCH q.ctx.toNat) (resid : Nat) :
    s.flowArrive port q resid = (s.traceGot port q false).dropEpoch q := by
  subst hx
  have hno : (q.epoch.toNat == s.fld .CTX_CFG_EPOCH q.ctx.toNat) = false := by simpa using h
  simp [State.flowArrive, hopen, hctx, hno, h]

/-- A packet that its open flow takes: a duplicate, the next one, one ahead, or one beyond WIN. -/
theorem State.flowArrive_mine (hopen : x.opened = true) (hctx : x.ctx = q.ctx)
    (h : q.epoch.toNat = s.fld .CTX_CFG_EPOCH q.ctx.toNat) (resid : Nat) {dup : Bool}
    (hdup : dup = (decide (2 ^ 31 ≤ (q.seq.toNat + 2 ^ 32 - x.expected) % 2 ^ 32) ||
      x.parked.any (fun e => e.1 == q.seq.toNat))) :
    s.flowArrive port q resid =
      if dup then (s.traceGot port q dup).satAdd .FAB_CNT0_DUPS 0 1
      else if (q.seq.toNat + 2 ^ 32 - x.expected) % 2 ^ 32 = 0 ∧ s.canDeliver q then
        ((s.traceGot port q dup).deliverOne port q resid).drainFlow port q.dflow.toNat (x.parked.length + 1)
      else if (x.parked.map (fun e => 32 * e.2.units)).sum + 32 * q.units ≤ x.win then (s.traceGot port q dup).park q
      else (s.traceGot port q dup).refusePkt port q := by
  subst hx hdup
  simp only [State.flowArrive, hopen, hctx, h, Bool.not_true, bne_self_eq_false, Bool.or_self, Bool.false_eq_true, if_false,
    beq_self_eq_true, Bool.and_self, Bool.true_and, ne_eq, not_true_eq_false, decide_eq_true_eq]

end Arrives

/-- Nothing is parked, so nothing follows in sequence. -/
theorem State.drainFlow_of_none {s : State} {d : Nat} (h : (s.recvFlow d).parked = []) (port n : Nat) :
    s.drainFlow port d n = s := by
  cases n with
  | zero => rfl
  | succ n => simp only [State.drainFlow, h, List.find?_nil]

/-- The flow and the state behind the next packet of a flow with nothing parked, before the packet lands. -/
theorem State.deliverOne_nothingParked {s : State} {q : Pkt} (h : (s.recvFlow q.dflow.toNat).parked = []) (port resid : Nat) :
    ∃ v : State, s.deliverOne port q resid = v.land port q resid ∧ (v.recvFlow q.dflow.toNat).parked = [] ∧
      (v.recvFlow q.dflow.toNat).expected = ((s.recvFlow q.dflow.toNat).expected + 1) % 2 ^ 32 ∧
      v = { s with recvFlows := v.recvFlows } := by
  refine ⟨_, rfl, ?_, ?_, rfl⟩
  · rw [State.recvFlow_setRecvFlow, RecvFlow.gap_parked]
    simp [h]
  · rw [State.recvFlow_setRecvFlow, RecvFlow.gap_expected]

theorem State.mirrorBlock_congr {s t : State} (q : Pkt) (h : ∀ (g : Fld) (j : Nat), g ∉ reportFlds → t.fld g j = s.fld g j) :
    t.mirrorBlock q = s.mirrorBlock q := by
  have hn := h .FAB_NODE_NODE_ID 0 (by decide)
  have hl := h .FAB_AXIS_LEN_M1 2 (by decide)
  have he := h .HBM_MIR_REGION_ENABLE 0 (by decide)
  have hb := h .HBM_MIR_REGION_BASE_PG 0 (by decide)
  have hs := h .HBM_MIR_REGION_SIZE_PG 0 (by decide)
  simp only [State.mirrorBlock, State.minusZ, State.coord, State.selfNode, State.axisLen, State.flag, hn, hl, he, hb, hs]
  rfl

theorem State.linkDone_recvFlow (s : State) (port a d : Nat) : (s.linkDone port a).recvFlow d = s.recvFlow d := by
  unfold State.linkDone
  split <;> rfl

theorem State.linkWrites_recvFlow (s : State) (port : Nat) (q : Pkt) (d : Nat) :
    (s.linkWrites port q).recvFlow d = s.recvFlow d :=
  (State.linkDone_recvFlow ..).trans ((State.memWrite_reports ..).recvFlow d)

/-! ### Answers (R375) -/

/-- An ACK takes the retained packets that it names from its flow, and nothing else. -/
theorem State.mem_retain_ackGot (s : State) (f n : Nat) (e : Nat × Pkt) : e ∈ ((s.ackGot f n).sendFlow f).retain ↔
    e ∈ (s.sendFlow f).retain ∧ 2 ^ 31 ≤ (n + 2 ^ 32 - e.1) % 2 ^ 32 := by
  unfold State.ackGot
  dsimp only
  split
  · rw [State.sendFlow_setSendFlow, List.mem_filter]
    simp
  · rename_i hnone
    simp only [Bool.not_eq_true, List.any_eq_false, decide_eq_true_eq, Nat.not_lt] at hnone
    exact ⟨fun he => ⟨he, hnone e he⟩, fun he => he.1⟩

theorem State.ackGot_frame (s : State) (f n : Nat) : s.ackGot f n = { s with sendFlows := (s.ackGot f n).sendFlows } := by
  unfold State.ackGot
  dsimp only
  split <;> rfl

/-- Settles O42: the checks of a packet, its arrival at its flow, and the answers. -/
theorem packetsArrive : Obligations.PacketsArrive := by
  intro s p h pl q hq
  refine ⟨fun x hx => ?checks, fun port x s0 hx hflow hs0 => ?arrives, fun port f n hack hf hn => ?ack,
    fun port f hun hf hopen hlive => ?unreach⟩
  case checks =>
    obtain ⟨act, hact, harr, hline⟩ : ∃ act : State → Pkt → State, exec x.1 s = .next (s.checkPkt p x.2 h pl act) ∧
        (x.2 ≠ 8 → act = arrival p 0) ∧ (x.2 = 8 → act = fun s q => s.lineGot p q) := by
      have hplain : ∀ (i : Instr) (k : Nat), k ≠ 8 → exec i s = .next (s.arrive p k h pl 0) → ∃ act : State → Pkt → State,
          exec i s = .next (s.checkPkt p k h pl act) ∧ (k ≠ 8 → act = arrival p 0) ∧
          (k = 8 → act = fun s q => s.lineGot p q) :=
        fun i k hk hi => ⟨arrival p 0, hi, fun _ => rfl, fun e => absurd e hk⟩
      simp only [List.mem_cons, List.not_mem_nil, or_false] at hx
      rcases hx with rfl | rfl | rfl | rfl | rfl | rfl | rfl | rfl | rfl
      pick_goal 9
      · exact ⟨_, rfl, fun e => absurd rfl e, fun _ => rfl⟩
      all_goals exact hplain _ _ (Nat.ne_of_beq_eq_false rfl) rfl
    rw [hact]
    refine ⟨fun hclosed => congrArg Host.Outcome.next (State.checkPkt_of_closed hclosed ..), fun habs =>
      congrArg Host.Outcome.next (State.checkPkt_of_absent habs ..), fun control s1 hopen hwhole hfront hs1 => ?_⟩
    have hstands := fun hkind => State.checkPkt_of_stands (type := x.2) hq hopen hwhole hfront hkind act
    rw [← hs1] at hstands
    have hself : s1.selfNode = s.selfNode := by
      rw [hs1]
      rfl
    refine ⟨fun hbad => ⟨fun hlow => congrArg Host.Outcome.next ?_, fun hhigh => congrArg Host.Outcome.next ?_⟩,
      fun hgood htype => ⟨fun hpart => congrArg Host.Outcome.next ?_, fun hpart hno => ⟨fun hhere =>
      congrArg Host.Outcome.next ?_, fun haway => congrArg Host.Outcome.next ?_⟩, fun hpart h8 =>
      congrArg Host.Outcome.next ?_⟩⟩
    · rw [hstands (.inl hbad), if_pos hbad, State.badHeader, if_pos hlow, State.freePkt]
    · rw [hstands (.inl hbad), if_pos hbad, State.badHeader, if_neg (by omega)]
    · rw [hstands (.inr htype), if_neg (by simp [hgood]), if_pos hpart, State.badPart, State.freePkt]
    · rw [hstands (.inr htype), if_neg (by simp [hgood]), if_neg (by simp [hpart]), harr (htype ▸ hno),
        arrival_here (hhere.trans hself.symm), State.freePkt]
    · rw [hstands (.inr htype), if_neg (by simp [hgood]), if_neg (by simp [hpart]), harr (htype ▸ hno),
        arrival_away (fun e => haway (e.trans hself))]
    · rw [hstands (.inr htype), if_neg (by simp [hgood]), if_neg (by simp [hpart]), hline (htype ▸ h8)]
      simp only [State.lineGot, State.freePkt]
  case arrives =>
    rw [eject_flow hflow]
    refine ⟨fun hno => ?_, fun hopen hctx hold => ?_, fun hopen hctx hepoch => ?_⟩
    · rw [State.flowArrive_notMine hx hno, ← hs0, State.refusePkt]
    · rw [State.flowArrive_oldEpoch hx hopen hctx hold, ← hs0, State.dropEpoch]
    have hmine := fun dup => State.flowArrive_mine (port := port) hx hopen hctx hepoch 0 (dup := dup)
    refine ⟨fun hdup => ?_, fun hnext hlt hnone hkind hmirror => ?_, fun k hpos hlt hdist hnew => ?_⟩
    · rw [hmine true, if_pos rfl]
      rw [eq_comm, Bool.or_eq_true, decide_eq_true_eq, List.any_eq_true]
      simpa using hdup
    · have hdist : (q.seq.toNat + 2 ^ 32 - x.expected) % 2 ^ 32 = 0 := by
        rw [hnext, Nat.add_sub_cancel_left, Nat.mod_self]
      have hdeliver : s.canDeliver q = true := by
        rcases hkind with e | e <;> simp [State.canDeliver, e]
      have hrep := s.traceGot_reports port q false
      rw [← hs0] at hrep
      have hx0 : s0.recvFlow q.dflow.toNat = x := (hrep.recvFlow _).trans hx.symm
      obtain ⟨v, hv, hparked, hexp, hout⟩ := State.deliverOne_nothingParked (s := s0) (q := q) (by rw [hx0, hnone]) port 0
      have hland : v.land port q 0 = v.linkWrites port q := by
        have hblock : v.mirrorBlock q = none := by
          refine (State.mirrorBlock_congr q (fun g j hg => ?_)).trans hmirror
          rw [hout]
          exact hrep.fld g j hg
        rcases hkind with e | e
        · simp only [State.land, e, State.writeLands, hblock]
        · simp only [State.land, e]
      refine ⟨v, ?_, by rw [hexp, hx0], hout⟩
      rw [hmine false (by rw [hdist, hnone]; rfl), if_neg (by decide), if_pos ⟨hdist, hdeliver⟩, ← hs0, hv, hland,
        State.drainFlow_of_none (by rw [State.linkWrites_recvFlow, hparked])]
      rfl
    · have hpark : s.flowArrive port q 0 = if (x.parked.map (fun e => 32 * e.2.units)).sum + 32 * q.units ≤ x.win then
          s0.park q else s0.refusePkt port q := by
        rw [hmine false (by rw [hdist, hnew, Bool.or_false, eq_comm, decide_eq_false_iff_not]; omega), if_neg (by decide), if_neg (by rw [hdist]; omega), ← hs0]
      have hx0 : s0.recvFlow q.dflow.toNat = x := by
        rw [hs0, (s.traceGot_reports port q false).recvFlow, hx]
      rw [hpark]
      refine ⟨fun hfits => ?_, fun hover => ?_⟩
      · rw [if_pos hfits]
        refine ⟨rfl, ?_, ?_⟩
        · rw [State.park, State.recvFlow_setRecvFlow, RecvFlow.gap_parked, hx0]
        · rw [State.park, State.recvFlow_setRecvFlow, RecvFlow.gap_expected, hx0]
      · rw [if_neg (by omega), State.refusePkt]
  case ack =>
    have heject : s.eject port q 0 = s.ackGot f n := by
      simp only [State.eject, hack, hf, hn]
    rw [heject]
    exact ⟨s.mem_retain_ackGot f n, s.ackGot_frame f n⟩
  case unreach =>
    have heject : s.eject port q 0 = s.unreachGot f := by
      simp only [State.eject, hun, hf]
    rw [heject, State.unreachGot, if_pos (by simp [hopen, hlive]), State.failFlow]

end Sys2Proof.Machine
end

section
/-! PROOFS. Packets that leave (R366-R371, R373, R378). -/

namespace Sys2Proof.Machine

/-! ### Paths (R366, R367) -/

/-- A productive port is open, and leads the minimal way that the packet's HEAD agrees with. -/
theorem State.mem_productive {s : State} {p : Pkt} {o : Nat} (h : o ∈ s.productive p) : s.portOpen o = true ∧ o < 8 ∧
    (if o % 2 = 0 then (s.mayMove p (o / 2)).1 else (s.mayMove p (o / 2)).2) = true := by
  obtain ⟨hmem, hopen⟩ := List.mem_filter.mp h
  obtain ⟨a, ha, ho⟩ := List.mem_flatMap.mp hmem
  rw [List.mem_range] at ha
  dsimp only at ho
  rcases List.mem_append.mp ho with ho | ho
  · split at ho
    case isTrue hm =>
      rw [List.mem_singleton] at ho
      have hdiv : o / 2 = a := by omega
      refine ⟨hopen, by omega, ?_⟩
      rw [if_pos (by omega), hdiv, hm]
    case isFalse => cases ho
  · split at ho
    case isTrue hm =>
      rw [List.mem_singleton] at ho
      have hdiv : o / 2 = a := by omega
      refine ⟨hopen, by omega, ?_⟩
      rw [if_neg (by omega), hdiv, hm]
    case isFalse => cases ho

theorem State.minimal_distance {s : State} {a d : Nat} (h : (s.minimal a d).1 = true ∨ (s.minimal a d).2 = true) :
    s.plusDistance a d ≠ 0 := by
  intro hzero
  have hnone : s.minimal a d = (false, false) := if_pos (.inl hzero)
  simp [hnone] at h

/-- In a ring the + direction is minimal only when it is no longer than the - direction. -/
theorem State.minimal_ring {s : State} {a d : Nat} (h : (s.minimal a d).1 = true) (hring : s.flag .FAB_AXIS_LINE a = false) :
    2 * s.plusDistance a d ≤ s.axisLen a := by
  unfold State.minimal at h
  dsimp only at h
  split at h
  · cases h
  · rw [if_neg (by simp [hring])] at h
    exact of_decide_eq_true h

theorem mem_of_pickFrom {ptr o : Nat} {l : List Nat} (h : pickFrom ptr l = some o) : o ∈ l := by
  unfold pickFrom at h
  split at h
  · rename_i q hq
    exact Option.some.inj h ▸ List.mem_of_find?_eq_some hq
  · exact List.mem_of_mem_head? h

theorem le_foldl_max (l : List Nat) (a : Nat) : a ≤ l.foldl max a ∧ ∀ x ∈ l, x ≤ l.foldl max a := by
  induction l generalizing a with
  | nil => simp
  | cons y l ih =>
    obtain ⟨h1, h2⟩ := ih (max a y)
    rw [List.foldl_cons]
    refine ⟨(le_max_left a y).trans h1, fun x hx => ?_⟩
    rcases List.mem_cons.mp hx with rfl | hx
    · exact (le_max_right a x).trans h1
    · exact h2 x hx

/-- A best port is productive, takes the packet, and no productive port that takes it has more free credits. -/
theorem State.mem_bestPorts {s : State} {p : Pkt} {o : Nat} (h : o ∈ s.bestPorts p) : o ∈ s.productive p ∧
    s.canSend o (bufIndex p.vc false) p.units = true ∧
    ∀ x ∈ s.productive p, s.canSend x (bufIndex p.vc false) p.units = true →
      s.creditFree x (bufIndex p.vc false) ≤ s.creditFree o (bufIndex p.vc false) := by
  obtain ⟨hmem, htop⟩ := List.mem_filter.mp h
  obtain ⟨hprod, hsend⟩ := List.mem_filter.mp hmem
  refine ⟨hprod, hsend, fun x hx hxs => ?_⟩
  rw [of_decide_eq_true htop]
  exact (le_foldl_max _ 0).2 _ (List.mem_map_of_mem (List.mem_filter.mpr ⟨hx, hxs⟩))

/-! ### A packet that is sent (R364-R366) -/

theorem Port.took_credit (x : Port) (b now : Nat) (p : Pkt) :
    Tbl.get 0 (x.took b now p).credit (8 + b) = (Tbl.get 0 x.credit (8 + b) + p.units) % 2 ^ 32 := by
  unfold Port.took
  dsimp only
  split <;> exact Tbl.get_put_same ..

theorem Port.took_control (x : Port) {b : Nat} (h : b < 2) (now : Nat) (p : Pkt) :
    (x.took b now p).ctlQ = x.ctlQ ++ [(now, p.frame)] ∧ (x.took b now p).dataQ = x.dataQ := by
  simp only [Port.took, if_pos h, and_self]

theorem Port.took_data (x : Port) {b : Nat} (h : 2 ≤ b) (now : Nat) (p : Pkt) :
    (x.took b now p).ctlQ = x.ctlQ ∧ (x.took b now p).dataQ = x.dataQ ++ p.frame := by
  simp only [Port.took, if_neg (Nat.not_lt.mpr h), and_self]

/-! ### Serving a buffer (R370, R371, R378) -/

section Head
variable {s : State} {i b : Nat} {p : Pkt} (hhead : (s.inbuf (bufKey i b)).head? = some p)
include hhead

theorem State.serve_here (h : p.dst.toNat = s.selfNode) (aging : Bool) :
    s.serve i b aging = (s.popHead i b p).eject (min i 7) p 0 := by
  simp only [State.serve, hhead, if_pos h]

theorem State.serve_absent (h : p.dst.toNat ≠ s.selfNode) {a : Nat} (habs : s.absentAxis p = some a) (aging : Bool) :
    s.serve i b aging = (s.popHead i b p).unreachable p a := by
  simp only [State.serve, hhead, if_neg h, habs]

/-- A head packet whose destination is on another module that is there: stranded, without an exit, or with one. -/
theorem State.serve_stranded (h : p.dst.toNat ≠ s.selfNode) (habs : s.absentAxis p = none) (hs : s.stranded p = true)
    (aging : Bool) : s.serve i b aging = (s.popHead i b p).strand p i := by
  simp only [State.serve, hhead, if_neg h, habs, hs, if_true]

theorem State.serve_noExit (h : p.dst.toNat ≠ s.selfNode) (habs : s.absentAxis p = none) (hs : s.stranded p = false)
    (he : s.exitOf i p = none) (aging : Bool) : s.serve i b aging = s := by
  simp only [State.serve, hhead, if_neg h, habs, hs, he, Bool.false_eq_true, if_false]

theorem State.serve_exit (h : p.dst.toNat ≠ s.selfNode) (habs : s.absentAxis p = none) (hs : s.stranded p = false)
    {o : Nat} {lane : Bool} (he : s.exitOf i p = some (o, lane)) (aging : Bool) :
    s.serve i b aging = if !aging && s.outranked o i b p then s else s.passOn i b p o p.vc lane := by
  simp only [State.serve, hhead, if_neg h, habs, hs, he, Bool.false_eq_true, if_false]

theorem State.doAging_aged (hrun : s.linksRun = true) {t : Nat} (hable : p.able = some t)
    (hage : t + s.fld .FAB_CTRL_AGE_NS 0 ≤ s.now) : s.doAging i b = s.serve i b true := by
  simp only [State.doAging, hhead, hrun, State.aged, hable, Option.any_some, hage, decide_true, Bool.and_self, if_true]

theorem State.doAging_young (h : ∀ t, p.able = some t → s.now < t + s.fld .FAB_CTRL_AGE_NS 0) : s.doAging i b = s := by
  have hyoung : s.aged p = false := by
    rw [State.aged, Option.any_eq_false]
    exact fun t ht => by simpa using h t ht
  simp only [State.doAging, hhead, hyoung, Bool.and_false, Bool.false_eq_true, if_false]

/-- The conditions under which a head packet escapes (R369). -/
def State.escapes (s : State) (p : Pkt) : Bool :=
  s.linksRun && decide (1 ≤ p.vc) && decide (p.vc ≤ 3) && p.dst.toNat != s.selfNode && s.blocked p &&
    p.stuck.any (fun t => decide (t + s.fld .FAB_CTRL_ESC_WAIT_NS 0 ≤ s.now))

theorem State.doEscape_moves (h : s.escapes p = true) {o : Nat} (hord : s.orderedPort p = some o)
    (hsend : s.canSend o 5 p.units = true) : s.doEscape i b = s.passOn i b p o 4 false := by
  rw [State.escapes] at h
  simp only [State.doEscape, hhead, h, hord, hsend, if_true]

theorem State.doEscape_stays (h : s.escapes p = false) : s.doEscape i b = s := by
  rw [State.escapes] at h
  simp only [State.doEscape, hhead, h, Bool.false_eq_true, if_false]

end Head

theorem State.blocked_iff (s : State) (p : Pkt) : s.blocked p = true ↔
    ∀ x ∈ s.productive p, s.canSend x (bufIndex p.vc false) p.units = false := by
  simp [State.blocked]

/-! ### Injection (R373, R374, R464, R467) -/

theorem State.originate_fields (s : State) (p : Pkt) : (s.originate p).seq = p.seq ∧ (s.originate p).ctx = p.ctx ∧
    (s.originate p).src = BitVec.ofNat 24 s.selfNode ∧ (s.originate p).payload = p.payload := by
  unfold State.originate
  dsimp only
  split <;> exact ⟨rfl, rfl, rfl, rfl⟩

/-- The state behind the input log's record of a packet; a replayed one is recorded already. -/
def State.logFirst (s : State) (w : PktFrom) (p : Pkt) (port : Nat) : State :=
  match w with
  | .replay => s
  | _ => s.logWrite p port

theorem State.logFirst_replay (s : State) (p : Pkt) (port : Nat) : s.logFirst .replay p port = s := rfl

theorem State.logFirst_new (s : State) {w : PktFrom} (h : w ≠ .replay) (p : Pkt) (port : Nat) :
    s.logFirst w p port = s.logWrite p port := by
  cases w with
  | replay => exact absurd rfl h
  | queued => rfl
  | egress t q rest => rfl

theorem State.inject_eq (s : State) (f : Nat) (p : Pkt) (w : PktFrom) : s.inject f p w =
    if p.dst.toNat = s.selfNode then
      ((((s.takePkt f p w).logFirst w p 0).flowSent f p).traceSent p 0 false).eject 0 p 0
    else match (if (s.aliasOf (s.sendFlow f).node.toNat).isSome then none else s.absentAxis p) with
      | some _ => ((s.takePkt f p w).dropPkt).failFlow f 0x60 (f + p.dst.toNat * 2 ^ 32) (linkUnit 0)
      | none => match s.exitOf 8 p with
        | none => s
        | some (o, lane) => if s.outranked o 9 (bufIndex p.vc lane) p then s
          else (((((s.takePkt f p w).logFirst w p o).flowSent f p).sendOn o p p.vc lane).rrNext (s.bestPorts p) p.vc
            o).traceSent p o false := by
  cases w <;> rfl

/-- Settles O43: injection, forwarding, aging and escape, and what they choose among. -/
theorem packetsAreRouted : Obligations.PacketsAreRouted := by
  refine ⟨fun s flow f hf => ?inject, fun s i b p hrun hhead => ?forward, fun s i p => ?reckon, fun s i b hnone => ?empty,
    fun s p o ho => ?productive, fun s p o ho => State.mem_bestPorts (mem_of_pickFrom ho), fun s u o p q vc lane hu hq => ?sent⟩
  case inject =>
    subst hf
    refine ⟨fun hno => congrArg Host.Outcome.next (if_neg (by simp [hno])), fun hnone => congrArg Host.Outcome.next ?_,
      fun p0 p w hmay hnext hp => ?_, fun p => ?_, fun p => ?_⟩
    · simp only [State.doInject, hnone]
      exact ite_self _
    · have hact : s.doInject flow.toNat = if 0 < (s.sendFlow flow.toNat).skip then (s.takePkt flow.toNat p w).withhold flow.toNat p
          else if (s.sendFlow flow.toNat).win < (s.sendFlow flow.toNat).open' + 32 * p.units then s
          else s.inject flow.toNat p w := by
        rw [State.doInject, if_pos hmay, hnext, hp]
      refine ⟨fun hskip => congrArg Host.Outcome.next ?_, fun hskip hfull => congrArg Host.Outcome.next ?_, fun hskip hroom => ?_⟩
      · rw [hact, if_pos hskip]
      · rw [hact, if_neg (by omega), if_pos hfull]
      have hinj : s.doInject flow.toNat = s.inject flow.toNat p w := by rw [hact, if_neg (by omega), if_neg (by omega)]
      have hlog : ∀ o, (w = .replay → (s.takePkt flow.toNat p w).logFirst w p o = s.takePkt flow.toNat p w) ∧
          (w ≠ .replay → (s.takePkt flow.toNat p w).logFirst w p o = (s.takePkt flow.toNat p w).logWrite p o) := by
        intro o
        refine ⟨?_, fun hw => State.logFirst_new _ hw p o⟩
        rintro rfl
        rfl
      refine ⟨fun hhere => ⟨(s.takePkt flow.toNat p w).logFirst w p 0, (hlog 0).1, (hlog 0).2, congrArg Host.Outcome.next ?_⟩,
        fun a haway halias habs => congrArg Host.Outcome.next ?_, fun haway hway => ⟨fun hexit => congrArg Host.Outcome.next ?_,
        fun o lane hexit => ⟨fun hrank => congrArg Host.Outcome.next ?_, fun hrank =>
        ⟨(s.takePkt flow.toNat p w).logFirst w p o, (hlog o).1, (hlog o).2, congrArg Host.Outcome.next ?_⟩⟩⟩⟩
      · rw [hinj, State.inject_eq, if_pos hhere]
      · simp only [hinj, State.inject_eq, if_neg haway, halias, Option.isSome_none, Bool.false_eq_true, if_false, habs]
      all_goals
        have hthere : (if (s.aliasOf (s.sendFlow flow.toNat).node.toNat).isSome then none else s.absentAxis p) = none := by
          rcases hway with h | h
          · rw [h, ite_self]
          · exact if_pos (Option.isSome_iff_ne_none.mpr h)
      · simp only [hinj, State.inject_eq, if_neg haway, hthere, hexit]
      · simp only [hinj, State.inject_eq, if_neg haway, hthere, hexit, hrank, if_true]
      · simp only [hinj, State.inject_eq, if_neg haway, hthere, hexit, hrank, Bool.false_eq_true, if_false]
    · rw [State.flowSent, State.sendFlow_setSendFlow]
      exact ⟨rfl, rfl⟩
    · exact s.originate_fields _
  case forward =>
    have hfwd : exec (.packetForward i b) s = .next (s.serve i b false) := congrArg Host.Outcome.next (if_pos hrun)
    refine ⟨fun hhere => ?_, fun haway => ⟨fun a habs => ?_, fun habs => ⟨fun hstr => ?_, fun hstr hexit => ?_,
      fun o lane hstr hexit => ⟨fun hrank => ?_, fun hrank => ?_, fun t hable hage => congrArg Host.Outcome.next ?_⟩⟩,
      fun o t hlow hhigh hstuck hord => ⟨fun hwait hfull hesc => congrArg Host.Outcome.next ?_, fun hno =>
      congrArg Host.Outcome.next ?_⟩, fun hfree => congrArg Host.Outcome.next ?_⟩, fun hyoung =>
      congrArg Host.Outcome.next (State.doAging_young hhead hyoung)⟩
    · rw [hfwd, State.serve_here hhead hhere]
    · rw [hfwd, State.serve_absent hhead haway habs]
    · rw [hfwd, State.serve_stranded hhead haway habs hstr]
    · rw [hfwd, State.serve_noExit hhead haway habs hstr hexit]
    · rw [hfwd, State.serve_exit hhead haway habs hstr hexit, if_pos (by simp [hrank])]
    · rw [hfwd, State.serve_exit hhead haway habs hstr hexit, if_neg (by simp [hrank])]
    · rw [State.doAging_aged hhead hrun hable hage, State.serve_exit hhead haway habs hstr hexit, if_neg (by simp)]
    · refine State.doEscape_moves hhead ?_ hord hesc
      simp [State.escapes, hrun, hlow, hhigh, haway, (State.blocked_iff s p).mpr hfull, hstuck, hwait]
    · refine State.doEscape_stays hhead (Bool.eq_false_iff.mpr fun hall => ?_)
      simp only [State.escapes, Bool.and_eq_true, hstuck, Option.any_some, decide_eq_true_eq] at hall
      obtain ⟨⟨-, hblocked⟩, hlong⟩ := hall
      rcases hno with h | ⟨x, hx, hsend⟩
      · omega
      · rw [(State.blocked_iff s p).mp hblocked x hx] at hsend
        cases hsend
    · exact State.doEscape_stays hhead (by simp [State.escapes, hfree])
  case reckon =>
    refine ⟨rfl, ?_⟩
    by_cases h : (s.productive p).any (fun o => s.canSend o (bufIndex p.vc false) p.units) = true
    · rw [if_pos h]
      exact if_neg (by simp [State.blocked, h])
    · rw [if_neg h]
      exact if_pos (by simpa [State.blocked] using h)
  case empty =>
    refine ⟨congrArg Host.Outcome.next ?_, congrArg Host.Outcome.next ?_, congrArg Host.Outcome.next ?_⟩
    · simp only [State.serve, hnone]
      exact ite_self _
    · simp only [State.doAging, hnone]
    · simp only [State.doEscape, hnone]
  case productive =>
    obtain ⟨hopen, hlt, hmove⟩ := State.mem_productive ho
    rcases Nat.mod_two_eq_zero_or_one o with heven | hodd
    · rw [if_pos heven, State.mayMove, Bool.and_eq_true] at hmove
      exact ⟨hopen, hlt, State.minimal_distance (.inl hmove.1), by simpa [heven] using hmove.2, fun hring _ =>
        State.minimal_ring hmove.1 hring⟩
    · rw [if_neg (by omega), State.mayMove, Bool.and_eq_true] at hmove
      exact ⟨hopen, hlt, State.minimal_distance (.inr hmove.1), by simpa [hodd] using hmove.2, fun _ heven => by omega⟩
  case sent =>
    have hport : u.port o = (s.port o).took (bufIndex vc lane) s.now q := by
      rw [hu, hq]
      exact s.port_setPort o _
    refine ⟨by rw [hu]; rfl, by rw [hu]; rfl, by rw [hu]; rfl, fun j hj => ?_, ?_, fun hlow => ?_, fun hhigh => ?_⟩
    · rw [hu]
      exact Tbl.get_put_ne _ _ _ _ _ hj
    · rw [hport, Port.took_credit, hq]
      rfl
    · rw [hport]
      exact Port.took_control _ hlow ..
    · rw [hport]
      exact Port.took_data _ hhigh ..

end Sys2Proof.Machine
end

section
/-! PROOFS. Flows, their timers and their tables (R202, R203, R373-R375, R389). -/

namespace Sys2Proof.Machine

/-! ### Held signals (R202, R203) -/

theorem State.doRelease_none {s : State} {d : Nat} (hp : (s.recvFlow d).parked = []) (hh : (s.recvFlow d).held = []) :
    s.doRelease d = s := by
  simp only [State.doRelease, State.drainFlow_of_none hp, hh]

theorem State.doRelease_first {s s0 : State} {d : Nat} (hs0 : s0 = s.drainFlow 0 d ((s.recvFlow d).parked.length + 1))
    (hrun : s.linksRun = true) {h : Pkt} {t : List Pkt} (hheld : (s0.recvFlow d).held = h :: t) :
    s.doRelease d = (s0.setRecvFlow d { s0.recvFlow d with
      held := t.map (fun q => { q with since := q.since - h.since })
      sigs := (s0.recvFlow d).sigs + 1
      tailBytes := (s0.recvFlow d).tailBytes - h.since }).releaseSignal (if (s0.recvFlow d).tile then 14 else 12) h := by
  subst hs0
  simp only [State.doRelease, hheld, hrun, if_true]

/-! ### Timers (R375) -/

/-- The ACK of a flow with nothing parked is due. -/
theorem State.doAckTimer_due {s : State} {d : Nat} (hp : (s.recvFlow d).parked = []) (hrun : s.linksRun = true)
    (hopen : (s.recvFlow d).opened = true) (hdue : (s.recvFlow d).win ≤ 4 * (s.recvFlow d).sinceAck ∨
      0 < (s.recvFlow d).sinceAck ∧ (s.recvFlow d).ackAt + 1000 * s.fld .FAB_TIMER_ACK_US 0 ≤ s.now) :
    s.doAckTimer d = (s.setRecvFlow d { s.recvFlow d with sinceAck := 0, ackAt := s.now }).answer 5 (s.recvFlow d).node
      (s.recvFlow d).peer (((s.recvFlow d).expected + 2 ^ 32 - 1) % 2 ^ 32) := by
  rw [State.doAckTimer, State.drainFlow_of_none hp]
  exact if_pos (by simpa [hrun, hopen] using hdue)

theorem State.doAckTimer_early {s : State} {d : Nat} (hp : (s.recvFlow d).parked = [])
    (hfew : 4 * (s.recvFlow d).sinceAck < (s.recvFlow d).win)
    (hnot : (s.recvFlow d).sinceAck = 0 ∨ s.now < (s.recvFlow d).ackAt + 1000 * s.fld .FAB_TIMER_ACK_US 0) :
    s.doAckTimer d = s := by
  rw [State.doAckTimer, State.drainFlow_of_none hp]
  refine if_neg ?_
  simp only [Bool.and_eq_true, Bool.or_eq_true, decide_eq_true_eq]
  rintro ⟨-, h | ⟨h1, h2⟩⟩ <;> omega

theorem State.doGap_due {s : State} {d t : Nat} (ht : (s.recvFlow d).gapAt = some t) (hrun : s.linksRun = true)
    (hopen : (s.recvFlow d).opened = true) (hdue : t + 1000 * s.fld .FAB_TIMER_GAP_US 0 ≤ s.now) :
    s.doGap d = (s.setRecvFlow d { s.recvFlow d with gapAt := some s.now }).answer 6 (s.recvFlow d).node (s.recvFlow d).peer
      ((s.recvFlow d).expected + (s.recvFlow d).nakMask * 2 ^ 32) := by
  simp only [State.doGap, ht, hrun, hopen, hdue, decide_true, Bool.and_self, if_true]

theorem State.doGap_early {s : State} {d t : Nat} (ht : (s.recvFlow d).gapAt = some t)
    (hearly : s.now < t + 1000 * s.fld .FAB_TIMER_GAP_US 0) : s.doGap d = s := by
  simp only [State.doGap, ht]
  exact if_neg (by simp [hearly])

theorem State.resendPkt_again {s : State} {f q : Nat} (h : Tbl.get 0 (s.sendFlow f).resends q < s.fld .FAB_TIMER_RETRY_MAX 0)
    (p : Pkt) : s.resendPkt f q p = ((s.setSendFlow f { s.sendFlow f with
      resends := Tbl.put (s.sendFlow f).resends q (Tbl.get 0 (s.sendFlow f).resends q + 1) }).satAdd .FAB_CNT0_RESENDS 0
        1).enqueuePkt 8 { p with vc := typeVc p.type, lane := false, head := 0 } :=
  if_neg (by omega)

theorem State.resendPkt_spent {s : State} {f q : Nat} (h : s.fld .FAB_TIMER_RETRY_MAX 0 ≤ Tbl.get 0 (s.sendFlow f).resends q)
    (p : Pkt) : s.resendPkt f q p = s.failFlow f 0x64 (f + q * 2 ^ 32) (linkUnit 0) :=
  if_pos h

theorem State.setSendFlow_setSendFlow (s : State) (f : Nat) (x y : SendFlow) :
    (s.setSendFlow f x).setSendFlow f y = s.setSendFlow f y := by
  simp only [State.setSendFlow, Tbl.put_put]

theorem State.doRto_due {s : State} {f q : Nat} {p : Pkt} {l : List (Nat × Pkt)} (hr : (s.sendFlow f).retain = (q, p) :: l)
    (hrun : s.linksRun = true) (hlive : (s.sendFlow f).failed = false)
    (hdue : (s.sendFlow f).lastAck + 1000 * s.fld .FAB_TIMER_RTO_US 0 ≤ s.now) :
    s.doRto f = (s.setSendFlow f { s.sendFlow f with lastAck := s.now }).resendPkt f q p := by
  simp only [State.doRto, hr]
  exact if_pos (by simp [hrun, hlive, hdue])

theorem State.doRto_early {s : State} {f : Nat} (h : s.now < (s.sendFlow f).lastAck + 1000 * s.fld .FAB_TIMER_RTO_US 0) :
    s.doRto f = s := by
  unfold State.doRto
  dsimp only
  split
  · rfl
  · exact if_neg (by simp [h])

/-- A record leaves a flow as open or as failed as it was. -/
theorem Reports.failed {s t : State} (h : Reports s t) (f : Nat) : (t.sendFlow f).failed = (s.sendFlow f).failed := by
  rw [h.flow f]

theorem State.nakGot_one {s : State} {f q : Nat} {p : Pkt} (hlive : (s.sendFlow f).failed = false)
    (hr : (s.sendFlow f).retain = [(q, p)]) (mask : Nat) : s.nakGot f q mask =
      (s.raiseCtx 0x63 (s.sendFlow f).ctx.toNat (linkUnit 0) (f + q * 2 ^ 32)).resendPkt f q p := by
  have hnamed : (q + 2 ^ 32 - q) % 2 ^ 32 = 0 := by rw [Nat.add_sub_cancel_left, Nat.mod_self]
  have hlive' := ((s.raiseCtx_reports 0x63 (s.sendFlow f).ctx.toNat (linkUnit 0) (f + q * 2 ^ 32)).failed f).trans hlive
  simp only [State.nakGot, hlive, hr, List.filter_cons, hnamed, beq_self_eq_true, Bool.true_or, if_true, List.filter_nil,
    List.isEmpty_cons, Bool.or_self, Bool.false_eq_true, if_false, List.foldl_cons, List.foldl_nil, hlive']

/-! ### The flow tables (R373, R389) -/

theorem selData_eq (rx : Bool) (op f : Nat) :
    selData rx op f = 2 ^ 63 + (if rx then 2 ^ 62 else 0) + op * 2 ^ 60 + f := rfl

theorem State.selFlow_sendFlow (s : State) (rx : Bool) (op f j : Nat) : (s.selFlow rx op f).sendFlow j = s.sendFlow j := rfl

theorem State.selFlow_recvFlow (s : State) (rx : Bool) (op f j : Nat) : (s.selFlow rx op f).recvFlow j = s.recvFlow j := rfl

/-- The registers that the read of an entry fills. -/
def State.flowFill (s : State) (peer win ctx : Nat) (tile : Bool) (node next mark : Nat) : State :=
  ((((((s.setFld .FAB_FLOW_DATA_PEER_FLOW 0 peer).setFld .FAB_FLOW_DATA_WIN_M1 0 (win / 4096 - 1)).setFld
    .FAB_FLOW_DATA_CTX 0 ctx).setFlag .FAB_FLOW_DATA_TILE 0 tile).setFld .FAB_FLOW_DATA_PEER_NODE 0 node).setFld
      .FAB_FLOW_SEQ_NEXT 0 next).setFld .FAB_FLOW_SEQ_MARK 0 mark

theorem State.flowRead_send (s : State) (f : Nat) : s.flowRead false f =
    (s.selFlow false 0 f).flowFill (s.sendFlow f).peer.toNat (s.sendFlow f).win (s.sendFlow f).ctx.toNat (s.sendFlow f).tile
      (s.sendFlow f).node.toNat (s.sendFlow f).next (((s.sendFlow f).acked + 2 ^ 32 - 1) % 2 ^ 32) := by
  simp only [State.flowRead, Bool.false_eq_true, if_false, State.flowFill]

theorem State.flowRead_recv (s : State) (f : Nat) : s.flowRead true f =
    (s.selFlow true 0 f).flowFill (s.recvFlow f).peer.toNat (s.recvFlow f).win (s.recvFlow f).ctx.toNat (s.recvFlow f).tile
      (s.recvFlow f).node.toNat (s.recvFlow f).expected (s.recvFlow f).parked.length := by
  simp only [State.flowRead, if_true, State.flowFill]

section Fill
variable (s : State) (peer win ctx : Nat) (tile : Bool) (node next mark : Nat)

theorem State.flowFill_frame : s.flowFill peer win ctx tile node next mark =
    { s with regs := (s.flowFill peer win ctx tile node next mark).regs } := rfl

theorem State.flowFill_peer (h : peer < 2 ^ 14) :
    (s.flowFill peer win ctx tile node next mark).fld .FAB_FLOW_DATA_PEER_FLOW 0 = peer := by
  simp only [State.flowFill, State.setFlag, State.fld_setFld_of_ne, ne_eq, reduceCtorEq, not_false_eq_true,
    State.fld_setFld_same]
  exact Nat.mod_eq_of_lt h

theorem State.flowFill_node (h : node < 2 ^ 24) :
    (s.flowFill peer win ctx tile node next mark).fld .FAB_FLOW_DATA_PEER_NODE 0 = node := by
  simp only [State.flowFill, State.fld_setFld_of_ne, ne_eq, reduceCtorEq, not_false_eq_true, State.fld_setFld_same]
  exact Nat.mod_eq_of_lt h

theorem State.flowFill_ctx (h : ctx < 2 ^ 12) :
    (s.flowFill peer win ctx tile node next mark).fld .FAB_FLOW_DATA_CTX 0 = ctx := by
  simp only [State.flowFill, State.setFlag, State.fld_setFld_of_ne, ne_eq, reduceCtorEq, not_false_eq_true,
    State.fld_setFld_same]
  exact Nat.mod_eq_of_lt h

theorem State.flowFill_next :
    (s.flowFill peer win ctx tile node next mark).fld .FAB_FLOW_SEQ_NEXT 0 = next % 2 ^ Fld.FAB_FLOW_SEQ_NEXT.width := by
  simp only [State.flowFill, State.fld_setFld_of_ne, ne_eq, reduceCtorEq, not_false_eq_true, State.fld_setFld_same]

theorem State.flowFill_mark :
    (s.flowFill peer win ctx tile node next mark).fld .FAB_FLOW_SEQ_MARK 0 = mark % 2 ^ Fld.FAB_FLOW_SEQ_MARK.width := by
  simp only [State.flowFill, State.fld_setFld_same]

theorem State.flowFill_sel {g : Fld} (h : g ∈ [Fld.FAB_FLOW_SEL_FLOW, .FAB_FLOW_SEL_DIR]) :
    (s.flowFill peer win ctx tile node next mark).fld g 0 = s.fld g 0 := by
  simp only [List.mem_cons, List.not_mem_nil, or_false] at h
  rcases h with rfl | rfl <;>
    simp only [State.flowFill, State.setFlag, State.fld_setFld_of_ne, ne_eq, reduceCtorEq, not_false_eq_true]

end Fill

theorem State.flowOpen_refused {s : State} {rx : Bool} {f : Nat} (h : s.openBad rx f = true) : s.flowOpen rx f =
    ((s.selFlow rx 1 f).setFlag .FAB_FLOW_SEL_REFUSED 0 true).raiseNo 0x65 (linkUnit 0) (f + (if rx then 2 ^ 16 else 0)) :=
  if_pos h

theorem State.flowOpen_send {s : State} {f : Nat} (h : s.openBad false f = false) : s.flowOpen false f =
    (s.selFlow false 1 f).setSendFlow f { SendFlow.reset with
      opened := true
      node := BitVec.ofNat 24 (s.fld .FAB_FLOW_DATA_PEER_NODE 0)
      peer := BitVec.ofNat 14 (s.fld .FAB_FLOW_DATA_PEER_FLOW 0)
      ctx := BitVec.ofNat 12 (s.fld .FAB_FLOW_DATA_CTX 0)
      win := s.newWin
      tile := s.flag .FAB_FLOW_DATA_TILE 0
      lastAck := s.now } := by
  simp only [State.flowOpen, h, Bool.false_eq_true, if_false]

theorem State.flowOpen_recv {s : State} {f : Nat} (h : s.openBad true f = false) : s.flowOpen true f =
    (s.selFlow true 1 f).setRecvFlow f { RecvFlow.reset with
      opened := true
      node := BitVec.ofNat 24 (s.fld .FAB_FLOW_DATA_PEER_NODE 0)
      peer := BitVec.ofNat 14 (s.fld .FAB_FLOW_DATA_PEER_FLOW 0)
      ctx := BitVec.ofNat 12 (s.fld .FAB_FLOW_DATA_CTX 0)
      win := s.newWin
      tile := s.flag .FAB_FLOW_DATA_TILE 0
      ackAt := s.now } := by
  simp only [State.flowOpen, h, Bool.false_eq_true, if_false, if_true]

/-- Settles O44: held signals, the timers of both directions, and the flow tables. -/
theorem flowsAreKept : Obligations.FlowsAreKept := by
  rintro s flow f rfl
  refine ⟨?release, fun hp => ?calm, fun t ht => ?gap, fun hnone => congrArg Host.Outcome.next ?_, fun q p hfew =>
    State.resendPkt_again hfew p, fun q mask p hlive hr hlt => State.nakGot_one hlive hr mask, fun q p l hr hrun hlive => ?rto,
    fun hnone => congrArg Host.Outcome.next ?_, fun o hans => ?tables⟩
  case release =>
    rintro s0 s1 h t hs0 hheld hrun hs1
    have hact := State.doRelease_first hs0 hrun hheld
    rw [← hs1] at hact
    have hepoch : ∀ c, s1.fld .CTX_CFG_EPOCH c = s0.fld .CTX_CFG_EPOCH c := by
      intro c
      rw [hs1]
      rfl
    refine ⟨fun hnow => congrArg Host.Outcome.next ?_, fun hold => congrArg Host.Outcome.next ?_⟩
    · rw [hact, State.releaseSignal, if_pos (hnow.trans (hepoch _).symm)]
    · rw [hact, State.releaseSignal, if_neg (fun e => hold (e.trans (hepoch _)))]
  case calm =>
    exact ⟨State.drainFlow_of_none hp .., fun hh => congrArg Host.Outcome.next (State.doRelease_none hp hh),
      fun hrun hopen hdue => congrArg Host.Outcome.next (State.doAckTimer_due hp hrun hopen hdue),
      fun hfew hnot => congrArg Host.Outcome.next (State.doAckTimer_early hp hfew hnot)⟩
  case gap =>
    exact ⟨fun hrun hopen hdue => congrArg Host.Outcome.next (State.doGap_due ht hrun hopen hdue),
      fun hearly => congrArg Host.Outcome.next (State.doGap_early ht hearly)⟩
  · simp only [State.doGap, hnone]
  case rto =>
    refine ⟨fun hdue => ⟨fun hfew => congrArg Host.Outcome.next ?_, fun hspent => congrArg Host.Outcome.next ?_⟩,
      fun hearly => congrArg Host.Outcome.next (State.doRto_early hearly)⟩
    · rw [State.doRto_due hr hrun hlive hdue, State.resendPkt_again (by rw [State.sendFlow_setSendFlow]; exact hfew),
        State.sendFlow_setSendFlow, State.setSendFlow_setSendFlow]
    · rw [State.doRto_due hr hrun hlive hdue, State.resendPkt_spent (by rw [State.sendFlow_setSendFlow]; exact hspent)]
  · simp only [State.doRto, hnone]
  case tables =>
    have hcmd := fun data act => State.regCmd_trigger hans (by decide) (by decide) 0 data act
    refine ⟨⟨s.flowRead false flow.toNat, congrArg Host.Outcome.next ?_, ?_, ?_, ?_, ?_, ?_, ?_⟩,
      ⟨s.flowRead true flow.toNat, congrArg Host.Outcome.next ?_, ?_, ?_, ?_, ?_⟩,
      fun hgood => ⟨s.flowOpen false flow.toNat, congrArg Host.Outcome.next ?_, ?_⟩,
      fun hgood => ⟨s.flowOpen true flow.toNat, congrArg Host.Outcome.next ?_, ?_⟩,
      fun rx hbad => congrArg Host.Outcome.next ?_, congrArg Host.Outcome.next ?_, congrArg Host.Outcome.next ?_⟩
    · rw [hcmd, selData_eq, if_neg (by decide), Nat.zero_mul, Nat.add_zero]
    · rw [State.flowRead_send, State.flowFill_peer _ _ _ _ _ _ _ _ (BitVec.isLt _)]
    · rw [State.flowRead_send, State.flowFill_node _ _ _ _ _ _ _ _ (BitVec.isLt _)]
    · rw [State.flowRead_send, State.flowFill_ctx _ _ _ _ _ _ _ _ (BitVec.isLt _)]
    · rw [State.flowRead_send, State.flowFill_next]
      rfl
    · rw [State.flowRead_send, State.flowFill_sel _ _ _ _ _ _ _ _ (by decide), State.selFlow, State.fld_setFld_same]
      exact Nat.mod_eq_of_lt (lt_of_lt_of_le flow.isLt (by decide))
    · rw [State.flowRead_send]
      exact State.flowFill_frame ..
    · rw [hcmd, selData_eq, if_pos rfl, Nat.zero_mul, Nat.add_zero]
    · rw [State.flowRead_recv, State.flowFill_next]
      rfl
    · rw [State.flowRead_recv, State.flowFill_mark]
      rfl
    · rw [State.flowRead_recv, State.flag, State.flowFill_sel _ _ _ _ _ _ _ _ (by decide), State.selFlow, State.setFlag,
        State.fld_setFld_of_ne _ _ _ _ (by decide), State.fld_setFld_of_ne _ _ _ _ (by decide), State.fld_setFld_same]
      rfl
    · rw [State.flowRead_recv]
      exact State.flowFill_frame ..
    · rw [hcmd, selData_eq, if_neg (by decide), Nat.one_mul, Nat.add_zero]
    · rw [State.flowOpen_send hgood, State.sendFlow_setSendFlow]
      exact ⟨rfl, rfl, rfl, rfl, BitVec.toNat_ofNat .., fun j hj => Tbl.get_put_ne _ _ _ _ _ hj, rfl⟩
    · rw [hcmd, selData_eq, if_pos rfl, Nat.one_mul]
    · rw [State.flowOpen_recv hgood, State.recvFlow_setRecvFlow]
      exact ⟨rfl, rfl, rfl, rfl, fun j hj => Tbl.get_put_ne _ _ _ _ _ hj, rfl⟩
    · rw [hcmd, State.flowOpen_refused hbad]
    · rw [hcmd, State.flowClose, if_neg (by decide)]
    · rw [hcmd, State.flowClose, if_pos rfl]

end Sys2Proof.Machine
end

section
/-! PROOFS. Reduction groups and dispatch groups (R391-R415). -/

namespace Sys2Proof.Machine

/-! ### Arming (R393, R465) -/

theorem State.armGroup_good {s : State} {g : Nat} (hoff : s.armed g = false) (hgood : s.armBad g = false) : s.armGroup g =
    ((if s.flag .COL_GRP_PROXY_EN g then s.setFld .COL_GRP_STATUS_ROUND g (s.fld .COL_GRP_PROXY_ROUND_SET g) else s).setGroup g
      { Group.reset with start := (if s.flag .COL_GRP_PROXY_EN g then
        s.setFld .COL_GRP_STATUS_ROUND g (s.fld .COL_GRP_PROXY_ROUND_SET g) else s).round g }).setFlag .COL_GRP_CFG0_ARM g
          true := by
  rw [State.armGroup, if_neg (by simp [hoff]), if_neg (by simp [hgood])]

theorem State.armBad_of_few {s : State} {g : Nat} (h : s.ranks g < 2) : s.armBad g = true := by
  simp only [State.armBad, h, decide_true, Bool.true_or]

theorem State.colRaise_setFlag (s : State) (f : Fld) (i : Nat) (b : Bool) (cls g rank idx : Nat)
    (hf : f ∉ [Fld.COL_GRP_CFG0_CTX, .COL_GRP_CFG0_AXIS]) : (s.setFlag f i b).colRaise cls g rank idx =
    (s.setFlag f i b).raiseCtx cls (s.groupCtx g) (s.colUnit g) (colDetail g rank idx) := by
  simp only [List.mem_cons, List.not_mem_nil, or_false, not_or] at hf
  simp only [State.colRaise, State.groupCtx, State.colUnit, State.groupTile, State.setFlag, State.fld_setFld_of_ne _ _ _ _ hf.1,
    State.fld_setFld_of_ne _ _ _ _ hf.2]

theorem State.auditChange_same (s : State) (o : Origin) (r : Reg) (i data : Nat) : s.auditChange s o r i data = s :=
  if_pos rfl

/-! ### Egress queues of a group (R394, R395) -/

theorem State.setItems_regs (s : State) (t q : Nat) (l : List EItem) : (s.setItems t q l).regs = s.regs := rfl

theorem State.takeBytes_regs (s : State) (t q n : Nat) : (s.takeBytes t q n).regs = s.regs := rfl

/-- 4 KiB stand at the front of a collective queue whose group has room for a contribution. -/
theorem State.doChunkEnter_chunk {s : State} {t q g : Nat} (hg : s.colGroup t q 1 = some g)
    (hlen : 4096 ≤ (itemBytes (s.colItems t q)).length) (hroom : (s.group g).contrib.length < 64) (resid : Nat) :
    s.doChunkEnter t q resid = (s.takeBytes t q 4096).pushChunk g (s.elemAt t q / 1024)
      ((itemBytes (s.colItems t q)).take 4096) resid := by
  simp only [State.doChunkEnter, hg, if_pos hlen, if_neg (Nat.not_le.mpr hroom)]

/-! ### Packets of a group (R397, R405, R414) -/

theorem flowType_col {t : Nat} (h : t ∈ [10, 11, 12, 13]) : flowType t = true := by
  simp only [List.mem_cons, List.not_mem_nil, or_false] at h
  rcases h with rfl | rfl | rfl | rfl <;> rfl

/-- A good collective packet that comes is delivered to its flow here, or waits for its way on. -/
theorem State.arrive_col {s s1 : State} {p : Fin 8} {type : Nat} {hd : BitVec 256} {pl : List Byte} {control : Bool} {q : Pkt}
    (h : s.comes p type hd pl control q) (hs1 : s1 = s.taken p hd pl control q) (ht : type ∈ [10, 11, 12, 13]) (resid : Nat) :
    (q.dst.toNat = s.selfNode → s.arrive p type hd pl resid =
      (s1.freeUnits p (bufIndex q.vc q.lane) q.units).flowArrive p q resid) ∧
    (q.dst.toNat ≠ s.selfNode → s.arrive p type hd pl resid = s1.enqueuePkt p q) := by
  have hself : s1.selfNode = s.selfNode := by
    rw [hs1]
    rfl
  rw [State.arrive_eq, State.checkPkt_of_comes h, ← hs1]
  refine ⟨fun hhere => ?_, fun haway => arrival_away (fun e => haway (e.trans hself))⟩
  rw [arrival_here (hhere.trans hself.symm), eject_flow (by rw [h.type]; exact flowType_col ht), State.freePkt]

theorem State.land_col {q : Pkt} (h : q.type ∈ [10, 11, 12, 13]) (s : State) (port resid : Nat) :
    s.land port q resid = s.colDeliver q resid := by
  simp only [List.mem_cons, List.not_mem_nil, or_false] at h
  rcases h with h | h | h | h <;> simp only [State.land, h]

/-- A packet of a reduction is relayed, held for its round, or taken. -/
theorem State.land_reduce {s s1 : State} {q : Pkt} (h : q.type = 10 ∨ q.type = 11 ∨ q.type = 12) {g : Nat}
    (hg : s.groupOfPkt q = some g) (hs1 : s1 = s.count 3 (if q.type = 12 then 0 else 1)) (port resid : Nat) :
    s.land port q resid = s1.colReduce g q resid := by
  rw [State.land_col (by simp only [List.mem_cons]; tauto), hs1]
  rcases h with h | h | h <;> simp only [State.colDeliver, hg, h] <;> rfl

/-! ### Chains and rounds (R397-R403) -/

theorem State.colRun_round {s : State} {g : Nat} (harm : s.armed g = true) (hop : s.groupOp g ≠ 3) (hdone : s.roundDone g = true)
    (resid fuel : Nat) : s.colRun g resid (fuel + 1) = ((s.endRound g).takeLater g).colRun g resid fuel := by
  rw [State.colRun, if_pos harm, if_pos ⟨hop, hdone⟩]

theorem State.colRun_work {s : State} {g : Nat} (harm : s.armed g = true) (hno : s.groupOp g = 3 ∨ s.roundDone g = false) {w : Work}
    (hw : s.nextWork g = some w) (resid fuel : Nat) :
    s.colRun g resid (fuel + 1) = (s.doWork g w resid).colRun g (if w.adds then 0 else resid) fuel := by
  have hround : ¬ (s.groupOp g ≠ 3 ∧ s.roundDone g = true) := by
    rintro ⟨h1, h2⟩
    rcases hno with e | e
    · exact h1 e
    · rw [e] at h2
      cases h2
  rw [State.colRun, if_pos harm, if_neg hround, hw]

theorem State.colRun_rest {s : State} {g : Nat} (harm : s.armed g = true) (hno : s.groupOp g = 3 ∨ s.roundDone g = false)
    (hw : s.nextWork g = none) (resid fuel : Nat) : s.colRun g resid (fuel + 1) = s := by
  have hround : ¬ (s.groupOp g ≠ 3 ∧ s.roundDone g = true) := by
    rintro ⟨h1, h2⟩
    rcases hno with e | e
    · exact h1 e
    · rw [e] at h2
      cases h2
  rw [State.colRun, if_pos harm, if_neg hround, hw]

theorem State.choosePlan_chosen {s : State} {g : Nat} (h : (s.group g).plan = s.round g + 1) : s.choosePlan g = s := if_pos h

theorem State.choosePlan_new {s : State} {g : Nat} (h : (s.group g).plan ≠ s.round g + 1) : s.choosePlan g =
    if s.flag .FAB_AXIS_LINE (s.fld .COL_GRP_CFG0_AXIS g) && !(s.flag .COL_GRP_STATUS_LINE_PLAN g) then
      ((s.setGroup g { s.group g with plan := s.round g + 1 }).setFlag .COL_GRP_STATUS_LINE_PLAN g true).colRaise 0x76 g 0 0
    else (s.setGroup g { s.group g with plan := s.round g + 1 }).setFlag .COL_GRP_STATUS_LINE_PLAN g
      (s.flag .FAB_AXIS_LINE (s.fld .COL_GRP_CFG0_AXIS g)) := if_neg h

/-- The state behind n counted mismatches of one addition. -/
def State.mismatches (s : State) (g rank idx n : Nat) : State :=
  (List.range n).foldl (fun s _ =>
    ((s.satAdd .COL_CNT_RESIDUE 0 1).setFlag .COL_GRP_STATUS_RESIDUE g true).colRaise 0x72 g rank idx) s

theorem State.residue_few (s : State) (g rank idx : Nat) {n : Nat} (h : n ≤ 3) : s.residue g rank idx n = s.mismatches g rank idx n := by
  rw [State.residue, if_pos h, Nat.min_eq_left h, State.mismatches]

theorem State.residue_many (s : State) (g rank idx : Nat) : s.residue g rank idx 4 =
    ((((s.mismatches g rank idx 3).setGroup g Group.reset).setFlag .COL_GRP_CFG0_ARM g false).setFlag .COL_GRP_STATUS_FAILED g
      true).colRaise 0x73 g rank idx := by
  rw [State.residue, if_neg (by decide)]
  rfl

theorem State.mismatches_armed (s : State) (g rank idx n j : Nat) : (s.mismatches g rank idx n).armed j = s.armed j := by
  refine List.foldlRecOn (motive := fun t : State => t.armed j = s.armed j) _ _ rfl (fun t ht _ _ => ?_)
  rw [State.armed, State.colRaise, (State.raiseCtx_reports _ _ _ _ _).flag _ _ (by decide)]
  simp only [State.setFlag, State.satAdd, State.flag_setFld_of_ne, ne_eq, reduceCtorEq, not_false_eq_true]
  exact ht

/-- Settles O45: arming, chunks, packets, rounds, plans and residues of reduction groups. -/
theorem groupsReduce : Obligations.GroupsReduce := by
  intro s
  refine ⟨fun o gr g hg hans => ?arm, fun g => State.armBad_of_few, fun sh n q resid t ht => ?chunk,
    fun p hd pl resid q control type s1 hcomes hs1 x hx htype => ?packet, fun port resid q htype hnone => ?stray,
    fun port resid q htype g hg s1 hs1 => ?reduce, fun g resid fuel harm => ⟨fun hop hdone =>
    State.colRun_round harm hop hdone resid fuel, fun w hno hw => State.colRun_work harm hno hw resid fuel, fun hno hw =>
    State.colRun_rest harm hno hw resid fuel⟩, fun g => ?round, fun g => ?later, fun g s1 hs1 => ?plan,
    fun g c p hexact v hv => ?sum, fun g rank idx k hk => ?few, fun g rank idx => ?many⟩
  case arm =>
    subst hg
    have hcmd := fun data act => State.regCmd_change hans (by decide) (by decide) gr.toNat data act
    refine ⟨fun hoff hgood hown => congrArg Host.Outcome.next ?_, fun hoff hgood hproxy =>
      ⟨_, congrArg Host.Outcome.next (hcmd _ _), ?_⟩, fun hoff hbad => congrArg Host.Outcome.next ?_,
      fun hon => congrArg Host.Outcome.next ?_, congrArg Host.Outcome.next ?_⟩
    · rw [hcmd, State.armGroup_good hoff hgood, hown]
      rfl
    · rw [State.armGroup_good hoff hgood, if_pos hproxy]
      have hround : (s.setFld .COL_GRP_STATUS_ROUND gr.toNat (s.fld .COL_GRP_PROXY_ROUND_SET gr.toNat)).round gr.toNat =
          s.fld .COL_GRP_PROXY_ROUND_SET gr.toNat % 2 ^ 32 := State.fld_setFld_same ..
      have hround' : ∀ x : Group, (((s.setFld .COL_GRP_STATUS_ROUND gr.toNat (s.fld .COL_GRP_PROXY_ROUND_SET gr.toNat)).setGroup
          gr.toNat x).setFlag .COL_GRP_CFG0_ARM gr.toNat true).round gr.toNat =
          s.fld .COL_GRP_PROXY_ROUND_SET gr.toNat % 2 ^ 32 := by
        intro x
        exact (State.fld_setFld_of_ne _ _ _ _ (by decide)).trans hround
      refine ⟨?_, hround' _, ?_, ?_, rfl⟩
      · rw [State.armed, State.flag, State.setFlag, State.fld_setFld_same]
        rfl
      · rw [hround', hround]
        exact congrArg Group.start (Tbl.get_put_same ..)
      · exact congrArg Group.contrib (Tbl.get_put_same ..)
    · rw [hcmd, State.armGroup, if_neg (by simp [hoff]), if_pos hbad, State.colRaise_setFlag _ _ _ _ _ _ _ _ (by decide)]
      rfl
    · rw [hcmd, State.armGroup, if_pos hon, State.auditChange_same]
    · rw [hcmd, State.disarmGroup]
  case chunk =>
    subst ht
    refine ⟨fun hnone => congrArg Host.Outcome.next ?_, fun g c b hg hb hc => ⟨fun hshort hbusy =>
      congrArg Host.Outcome.next ?_, fun hshort hrest hend => congrArg Host.Outcome.next ?_, fun hlong hfull =>
      congrArg Host.Outcome.next ?_, fun hlong hroom s1 hs1 => ?_⟩⟩
    · simp only [State.doChunkEnter, hnone]
    · subst hb
      simp only [State.doChunkEnter, hg, if_neg (Nat.not_le.mpr hshort), hbusy, Bool.false_and, Bool.false_eq_true, if_false]
    · subst hb hc
      have hne : (itemBytes (s.colItems (tix sh n) q.toNat)).isEmpty = false := by simpa using hrest
      simp only [State.doChunkEnter, hg, if_neg (Nat.not_le.mpr hshort), hend, hne, Bool.not_false, Bool.and_self, if_true,
        State.pushErr, State.elemAt]
    · subst hb
      simp only [State.doChunkEnter, hg, if_pos hlong, if_pos hfull]
    · subst hb
      have hact : s.doChunkEnter (tix sh n) q.toNat resid = s1.pushChunk g c
          ((itemBytes (s.colItems (tix sh n) q.toNat)).take 4096) resid := by
        rw [State.doChunkEnter_chunk hg hlong hroom, ← hs1, hc, State.elemAt]
      have hregs : ∀ (f : Fld) (j : Nat), s1.fld f j = s.fld f j := by
        intro f j
        rw [hs1, State.fld, State.takeBytes_regs, State.fld]
      have herr : ∀ r, s1.pushErr g r c = (s1.setFlag .COL_GRP_STATUS_PUSH_ERR g true).raiseCtx 0x71
          (s.fld .COL_GRP_CFG0_CTX g) ⟨6, s.groupTile g⟩ (colDetail g r c) := by
        intro r
        rw [State.pushErr, State.colRaise_setFlag _ _ _ _ _ _ _ _ (by decide), State.groupCtx, State.colUnit, State.groupTile,
          hregs, hregs, State.groupTile]
      refine ⟨fun hout => congrArg Host.Outcome.next ?_, fun r k hin hr hk => ⟨fun hearly => congrArg Host.Outcome.next ?_,
        fun hnew => congrArg Host.Outcome.next ?_⟩⟩
      · rw [hact, State.pushChunk, hregs]
        split
        · exact herr 0
        · rename_i hin
          rw [hout.resolve_left hin]
          exact herr 0
      · rw [hact, State.pushChunk, hregs, if_neg (by omega), hr]
        rw [hk] at hearly
        simp only [if_pos hearly, State.pushErr]
      · rw [hact, State.pushChunk, hregs, if_neg (by omega), hr]
        rw [hk] at hnew ⊢
        simp only [if_neg (Nat.not_lt.mpr hnew)]
  case packet =>
    have hact : type ∈ [10, 11, 12, 13] ∧ exec x.1 s = .next (s.arrive p type hd pl x.2.2) := by
      simp only [List.mem_cons, List.not_mem_nil, or_false] at hx
      rcases hx with rfl | rfl | rfl <;> (subst htype; exact ⟨by simp, rfl⟩)
    obtain ⟨hhere, haway⟩ := State.arrive_col hcomes hs1 hact.1 x.2.2
    rw [hact.2]
    exact ⟨fun h => congrArg Host.Outcome.next (hhere h), fun h => congrArg Host.Outcome.next (haway h)⟩
  case stray =>
    rw [State.land_col (by simpa using htype)]
    simp only [State.colDeliver, hnone, State.colUnit]
  case reduce =>
    rw [State.land_reduce htype hg hs1]
    refine ⟨fun hout => ?_, fun hin hlater => ?_, fun hin hnow => ?_⟩
    · rw [State.colReduce, if_pos (by simpa using hout), State.relay]
    · rw [State.colReduce, if_neg (by simpa using hin), if_pos hlater]
    · rw [State.colReduce, if_neg (by simpa using hin), if_neg (by simp [hnow])]
  case round => rw [State.endRound]
  case later =>
    refine ⟨fun hall => if_pos ?_, fun ⟨p, hp, hnow⟩ => if_neg ?_⟩
    · simpa using hall
    · intro hnone
      rw [List.isEmpty_iff, List.filter_eq_nil_iff] at hnone
      exact hnone p hp (by simp [hnow])
  case plan =>
    subst hs1
    refine ⟨State.choosePlan_chosen, fun hnew => ⟨fun hline hfirst => ?_, fun hring => ?_⟩⟩
    · rw [State.choosePlan_new hnew, if_pos (by simp [hline, hfirst])]
    · rw [State.choosePlan_new hnew, if_neg (by simp [hring]), hring]
  case sum =>
    subst hv
    have hzero : s.residue g c.rank c.idx 0 = s := State.residue_few s g c.rank c.idx (Nat.zero_le 3)
    simp only [State.doWork, hzero, State.ready?, State.finish, hexact, Bool.false_eq_true, if_false, Option.getD_some,
      if_neg (show ¬ 4 ≤ 0 by decide)]
  case few => rw [State.residue_few s g rank idx hk, State.mismatches_armed]
  case many =>
    rw [State.residue_many, State.colRaise, State.armed]
    refine ⟨?_, ?_⟩
    · rw [(State.raiseCtx_reports _ _ _ _ _).flag _ _ (by decide), State.setFlag, State.flag_setFld_of_ne _ _ _ _ (by decide),
        State.flag, State.setFlag, State.fld_setFld_same]
      rfl
    · rw [(State.raiseCtx_reports _ _ _ _ _).flag _ _ (by decide), State.flag, State.setFlag, State.fld_setFld_same]
      rfl

end Sys2Proof.Machine
end

section
/-! PROOFS. The dispatch of rows to ranks (R406-R409). -/

namespace Sys2Proof.Machine

/-! ### Rows (R406, R407) -/

/-- A whole record with its row stands at the front of a dispatch queue. -/
theorem State.doRoute_row {s : State} {t q g : Nat} (hg : s.colGroup t q 2 = some g)
    (hlen : s.entryBytes g ≤ (itemBytes (s.colItems t q)).length) : s.doRoute t q =
      (s.setItems t q ((s.colItems t q).drop (s.entryBytes g))).routeRow g (descLane (s.desc t q)) (t * 32 + q + 1)
        ((itemBytes (s.colItems t q)).take 32) (((itemBytes (s.colItems t q)).take (s.entryBytes g)).drop 32) := by
  simp only [State.doRoute, hg, if_pos hlen]

/-- What a rest at the front of a dispatch queue does. -/
theorem State.doRoute_rest {s : State} {t q g : Nat} (hg : s.colGroup t q 2 = some g)
    (hlen : (itemBytes (s.colItems t q)).length < s.entryBytes g) (hne : itemBytes (s.colItems t q) ≠ []) : s.doRoute t q =
      if (itemBytes (s.colItems t q)).length < (s.colItems t q).length ∨ s.endWaits t = true then
        (s.setItems t q ((s.colItems t q).drop (itemBytes (s.colItems t q)).length)).pushErr g 0 0
      else s := by
  have hb : (itemBytes (s.colItems t q)).isEmpty = false := by simpa using hne
  have hl : (s.colItems t q).isEmpty = false := by
    rw [Bool.eq_false_iff]
    intro h
    rw [List.isEmpty_iff.mp h] at hne
    exact hne rfl
  simp only [State.doRoute, hg, if_neg (Nat.not_le.mpr hlen), hb, hl, Bool.not_false, Bool.true_and, Bool.or_eq_true,
    decide_eq_true_eq, Bool.false_eq_true, if_false]

theorem State.routeRow_bad {s : State} {g lane owner : Nat} {r : List PByte} (row : List PByte)
    (h : s.recordBad g (vals r) = true ∨ Tbl.get owner (s.group g).laneQ lane ≠ owner) : s.routeRow g lane owner r row =
      s.pushErr g (bitsOf (leNat ((vals r).take 8)) 55 50)
        (s.entryOf g lane (bitsOf (leNat ((vals r).take 8)) 55 50) (leNat ((vals r).take 8))) := by
  have hbad : (Tbl.get owner (s.group g).laneQ lane != owner || s.recordBad g (vals r)) = true := by
    rcases h with h | h <;> simp [h]
  simp only [State.routeRow, hbad, if_true]

theorem State.group_setGroup (s : State) (g : Nat) (x : Group) : (s.setGroup g x).group g = x := by
  simp [State.group, State.setGroup]

theorem State.setGroup_setGroup (s : State) (g : Nat) (x y : Group) : (s.setGroup g x).setGroup g y = s.setGroup g y := by
  simp only [State.setGroup, Tbl.put_put]

/-- A good record of the queue that serves its lane: its row is dropped, or counted and placed. -/
theorem State.routeRow_good {s : State} {g lane owner : Nat} {r : List PByte} (row : List PByte)
    (hgood : s.recordBad g (vals r) = false) (hown : Tbl.get owner (s.group g).laneQ lane = owner) {w d e : Nat}
    (hw : w = leNat ((vals r).take 8)) (hd : d = bitsOf w 55 50) (he : e = s.entryOf g lane d w) {x : Group}
    (hx : x = { s.group g with laneQ := Tbl.put (s.group g).laneQ lane owner }) : s.routeRow g lane owner r row =
      if s.rowOver g lane d w then (s.setGroup g x).rowDrop g lane d e
      else (s.setGroup g { x with laneCnt := Tbl.put x.laneCnt (lane * 64 + d) (x.placed lane d + 1) }).placeRow g d e
        (s.entryHeader g lane w ++ row) := by
  subst hx he hd hw
  simp only [State.routeRow, hgood, hown, bne_self_eq_false, Bool.or_self, Bool.false_eq_true, if_false, State.group_setGroup,
    State.setGroup_setGroup]

/-! ### The end of a lane's micro-batch (R409) -/

theorem State.doLaneEnd_signal {s : State} {t q g : Nat} (hg : s.colGroup t q 2 = some g) {vid : BitVec 16} {v : Word}
    {rest : List EItem} (hl : s.colItems t q = .signal vid v :: rest) {s1 : State}
    (hs1 : s1 = (List.range (s.ranks g)).foldl (fun u d => u.laneTell g (descLane (s.desc t q)) vid.toNat v.toNat d)
      (s.setItems t q rest)) :
    s.doLaneEnd t q = s1.setGroup g ((s1.group g).laneClear (descLane (s.desc t q))) := by
  subst hs1
  simp only [State.doLaneEnd, hg, hl]

theorem State.doLaneEnd_none {s : State} {t q : Nat} (hg : s.colGroup t q 2 = none) : s.doLaneEnd t q = s := by
  simp only [State.doLaneEnd, hg]

/-- A key of a lane that is not listed reads as nothing. -/
theorem Tbl.get_filter_lane (t : Table Nat) {lane d : Nat} (h : d < 64) :
    Tbl.get 0 (t.filter (fun p => p.1 / 64 != lane)) (lane * 64 + d) = 0 := by
  induction t with
  | nil => rfl
  | cons p t ih =>
    obtain ⟨k, v⟩ := p
    rw [List.filter_cons]
    split
    · rename_i hk
      have hne : lane * 64 + d ≠ k := by
        rintro rfl
        rw [Nat.mul_comm, Nat.mul_add_div (by decide), Nat.div_eq_of_lt h] at hk
        simp at hk
      rw [Tbl.get, if_neg hne]
      exact ih
    · exact ih

/-- Settles O46: rows, their places and drops, and the end of a lane. -/
theorem dispatchRoutesRows : Obligations.DispatchRoutesRows := by
  intro s
  refine ⟨fun p hd pl q control s1 hcomes hs1 => ?packet, fun port q g htype hg => ?row, fun sh n qq t q ht hq => ?queue,
    fun g d e entry => ⟨fun hin => if_pos (by simpa using hin), fun hout => if_neg (by simpa using hout)⟩,
    fun g lane d e s1 hs1 => ?drop, fun g lane vid v d off b hoff hb => ?tell, fun x lane d hd => ⟨Tbl.get_filter_lane _ hd,
    Tbl.get_filter_lane _ hd⟩, fun g lane d w hw => if_pos hw, fun g lane d w hw => if_neg (by simp [hw])⟩
  case packet =>
    obtain ⟨hhere, haway⟩ := State.arrive_col hcomes hs1 (by decide) 0
    exact ⟨fun h => congrArg Host.Outcome.next (hhere h), fun h => congrArg Host.Outcome.next (haway h)⟩
  case row =>
    rw [State.land_col (by simp [htype])]
    simp only [State.colDeliver, hg, htype, if_true]
    rfl
  case queue =>
    subst ht hq
    refine ⟨fun hnone => ⟨congrArg Host.Outcome.next ?_, congrArg Host.Outcome.next (State.doLaneEnd_none hnone)⟩,
      fun g b hg hb hshort hne => ?_, fun g lane w d e b s1 hg hb hlen hlane hs1 hw hd he => ?_,
      fun g vid v rest hg hl lane s1 hlane hs1 => congrArg Host.Outcome.next ?_⟩
    · simp only [State.doRoute, hnone]
    · subst hb
      refine ⟨fun hcut => congrArg Host.Outcome.next ?_, fun hall hbusy => congrArg Host.Outcome.next ?_⟩
      · rw [State.doRoute_rest hg hshort hne, if_pos hcut, State.pushErr]
      · rw [State.doRoute_rest hg hshort hne, if_neg (by simp [hbusy, hall])]
    · subst hb
      have hact := State.doRoute_row hg hlen
      rw [← hs1, ← hlane] at hact
      refine ⟨fun hbad => congrArg Host.Outcome.next ?_, fun hgood hown x hx => ⟨fun hover => congrArg Host.Outcome.next ?_,
        fun hfits => congrArg Host.Outcome.next ?_⟩⟩
      · rw [hact, State.routeRow_bad _ hbad, ← hw, ← hd, ← he, State.pushErr]
      · rw [hact, State.routeRow_good _ hgood hown hw hd he hx, if_pos hover]
      · rw [hact, State.routeRow_good _ hgood hown hw hd he hx, if_neg (by simp [hfits])]
    · subst hlane
      exact State.doLaneEnd_signal hg hl hs1
  case drop =>
    subst hs1
    exact ⟨fun hfirst => if_neg (by simp [hfirst]), fun hsaid => if_pos hsaid⟩
  case tell =>
    subst hoff hb
    refine ⟨fun hin => if_pos (by simpa using hin), fun f hout hf => ?_⟩
    subst hf
    exact if_neg (by simpa using hout)

end Sys2Proof.Machine
end

section
/-! PROOFS. The modes and the core clock (R426-R430, R445-R447, R495-R502). -/

namespace Sys2Proof.Machine

/-! ### The modes (R427, R445, R446) -/

theorem State.flag_setFlag_same (s : State) {f : Fld} (hf : 1 ≤ f.width) (i : Nat) (b : Bool) : (s.setFlag f i b).flag f i = b := by
  have h2 : 2 ^ 1 ≤ 2 ^ f.width := Nat.pow_le_pow_right (by decide) hf
  cases b <;> simp [State.flag, State.setFlag, State.fld_setFld_same, Nat.mod_eq_of_lt (show 1 < 2 ^ f.width by omega)]

/-- A Tiller in a program keeps the modes as they are. -/
theorem State.modeFree_of_runs {s : State} {t : Nat} (h4 : 4 ≤ s.tstate t) (h6 : s.tstate t ≤ 6) (ht : t < 768) :
    s.modeFree = false := by
  have hruns : s.tillersRun = true := by
    rw [State.tillersRun, List.any_eq_true]
    exact ⟨t, List.mem_range.mpr ht, by simp [h4, h6]⟩
  rw [State.modeFree, hruns, Bool.not_true, Bool.and_false]

/-- What the bits of a write of the modes say. -/
theorem modeWord_bits (st po : Bool) {v : Nat} (hv : v = (if st then 1 else 0) + (if po then 2 else 0)) :
    bitAt v 0 = st ∧ bitAt v 1 = po ∧ bitAt v 2 = false := by
  subst hv
  cases st <;> cases po <;> decide

/-- A write that names the modes. -/
theorem State.detWrite_modes {s : State} {o : Origin} {st po : Bool} {v : Nat} (ha : s.answers o .MGT_DET_CTRL)
    (hv : v = (if st then 1 else 0) + (if po then 2 else 0)) : s.detWrite o v =
      s.auditOf (if s.modeFree then s.setModes st po else s.modeRefuse v) s.modeFree (Origin.audit o) .MGT_DET_CTRL 0 v := by
  obtain ⟨h0, h1, h2⟩ := modeWord_bits st po hv
  rw [State.detWrite, State.access_of_answers ha]
  simp only [h0, h1, h2, Bool.false_and, Bool.not_false, if_true, Bool.not_true, Bool.or_false, Bool.false_eq_true, if_false]
  rfl

/-- The low two bits of MGT_DET_CTRL are the modes. -/
theorem State.regVal_detCtrl (s : State) (hst : s.fld .MGT_DET_CTRL_STRICT 0 ≤ 1) (hpo : s.fld .MGT_DET_CTRL_PORTABLE 0 ≤ 1) :
    s.regVal .MGT_DET_CTRL 0 = s.fld .MGT_DET_CTRL_STRICT 0 + 2 * s.fld .MGT_DET_CTRL_PORTABLE 0 := by
  have h : s.regVal .MGT_DET_CTRL 0 =
      s.fld .MGT_DET_CTRL_PORTABLE 0 % 2 ^ 1 * 2 ^ 1 + s.fld .MGT_DET_CTRL_STRICT 0 % 2 ^ 1 * 2 ^ 0 := by
    simp [State.regVal, Reg.flds, Fld.info, Fld.width, State.view]
  rw [h]
  omega

/-- EVT_CLR with the modes as they stand. -/
theorem State.detWrite_evtClr {s : State} {o : Origin} (ha : s.answers o .MGT_DET_CTRL) (hst : s.fld .MGT_DET_CTRL_STRICT 0 ≤ 1)
    (hpo : s.fld .MGT_DET_CTRL_PORTABLE 0 ≤ 1) {v : Nat}
    (hv : v = 4 + s.fld .MGT_DET_CTRL_STRICT 0 + 2 * s.fld .MGT_DET_CTRL_PORTABLE 0) :
    s.detWrite o v = s.auditOf s.evtClear true (Origin.audit o) .MGT_DET_CTRL 0 v := by
  have hold := s.regVal_detCtrl hst hpo
  have h2 : bitAt v 2 = true := by
    have h : v / 2 ^ 2 % 2 = 1 := by omega
    rw [bitAt, h]
    rfl
  have hsame : (v % 4 == s.regVal .MGT_DET_CTRL 0 % 4) = true := by
    rw [hold, beq_iff_eq]
    omega
  rw [State.detWrite, State.access_of_answers ha]
  simp only [h2, hsame, Bool.and_self, Bool.not_true, Bool.not_false, Bool.or_true, Bool.false_eq_true, if_false, if_true]
  rfl

/-- The modes that a write gives, before STRICT takes the clock to its plan. -/
def State.modesNamed (s : State) (st po : Bool) : State :=
  (s.setFlag .MGT_DET_CTRL_STRICT 0 st).setFlag .MGT_DET_CTRL_PORTABLE 0 po

theorem State.modesNamed_fld (s : State) (st po : Bool) {f : Fld} (h1 : f ≠ .MGT_DET_CTRL_STRICT) (h2 : f ≠ .MGT_DET_CTRL_PORTABLE)
    (i : Nat) : (s.modesNamed st po).fld f i = s.fld f i :=
  (State.fld_setFld_of_ne _ _ _ _ h2.symm).trans (State.fld_setFld_of_ne _ _ _ _ h1.symm)

/-- The modes with what STRICT does to the clock. -/
def State.modesClocked (s : State) (st po : Bool) : State :=
  if st = true ∧ s.strict = false then (s.modesNamed st po).holdPlan else s.modesNamed st po

theorem State.setModes_eq (s : State) (st po : Bool) : s.setModes st po =
    (fun s2 : State => if po then s2 else s2.setFlag .MGT_DET_STATUS_PORTABLE_HELD 0 false)
      (if st then s.modesClocked st po else (s.modesClocked st po).setFlag .MGT_DET_STATUS_STRICT_HELD 0 false) := by
  cases st <;> cases hs : s.strict <;> simp only [State.setModes, State.modesClocked, State.modesNamed, hs] <;> rfl

theorem State.modesClocked_outside (s : State) (st po : Bool) (h : st = false ∨ s.strict = true ∨ s.fld .PWR_STATUS_START_STEP 0 < 8) :
    s.modesClocked st po = s.modesNamed st po := by
  rw [State.modesClocked]
  rcases h with h | h | h
  · exact if_neg (fun hc => by simp [hc.1] at h)
  · exact if_neg (fun hc => by simp [hc.2] at h)
  · rw [State.holdPlan, s.modesNamed_fld st po (by decide) (by decide), if_neg (Nat.not_le.mpr h), ite_self]

/-- STRICT begins: the clock plan is asked for. -/
theorem State.modesClocked_strict (s : State) (po : Bool) (hs : s.strict = false) (h8 : 8 ≤ s.fld .PWR_STATUS_START_STEP 0)
    {f : Nat} (hf : f = max 600 (s.fld .PWR_CLK_PLAN_FREQ_REQ_MHZ 0 - 25 * s.fld .PWR_STRETCH_LAST 0)) :
    s.modesClocked true po = { s.modesNamed true po with power := { s.power with
      thermLow := false
      freqNext := if s.fld .PWR_CLK_PLAN_FREQ_NOW_MHZ 0 = f then none else some f } } := by
  have hplan : (s.modesNamed true po).planFreq ((s.modesNamed true po).fld .PWR_STRETCH_LAST 0) = f := by
    rw [hf, State.planFreq, s.modesNamed_fld true po (by decide) (by decide), s.modesNamed_fld true po (by decide) (by decide)]
  have hnow := s.modesNamed_fld true po (f := .PWR_CLK_PLAN_FREQ_NOW_MHZ) (by decide) (by decide) 0
  rw [State.modesClocked, if_pos ⟨rfl, hs⟩, State.holdPlan, s.modesNamed_fld true po (by decide) (by decide), if_pos h8, hplan,
    ← hnow]
  rfl

theorem State.modesClocked_regs (s : State) (st po : Bool) : (s.modesClocked st po).regs = (s.modesNamed st po).regs := by
  simp only [State.modesClocked, State.holdPlan]
  split
  · split <;> rfl
  · rfl

theorem State.setModes_outside (s : State) (st po : Bool) :
    s.setModes st po = { s.modesClocked st po with regs := (s.setModes st po).regs } := by
  rw [State.setModes_eq]
  cases st <;> cases po <;> rfl

/-- The registers after a write of the modes: the modes, and no held bit of a mode that ends. -/
def State.modesHeld (s : State) (st po : Bool) : State :=
  (fun s2 : State => if po then s2 else s2.setFlag .MGT_DET_STATUS_PORTABLE_HELD 0 false)
    (if st then s.modesNamed st po else (s.modesNamed st po).setFlag .MGT_DET_STATUS_STRICT_HELD 0 false)

/-- A flag is written into the registers alone. -/
theorem setFlag_regs_congr {a b : State} (h : a.regs = b.regs) (f : Fld) (i : Nat) (v : Bool) :
    (a.setFlag f i v).regs = (b.setFlag f i v).regs := by
  simp only [State.setFlag, State.setFld, h]

theorem State.setModes_fld (s : State) (st po : Bool) (f : Fld) (i : Nat) :
    (s.setModes st po).fld f i = (s.modesHeld st po).fld f i := by
  have h := s.modesClocked_regs st po
  have hregs : (s.setModes st po).regs = (s.modesHeld st po).regs := by
    rw [State.setModes_eq]
    cases st <;> cases po
    · exact setFlag_regs_congr (setFlag_regs_congr h _ _ _) _ _ _
    · exact setFlag_regs_congr h _ _ _
    · exact setFlag_regs_congr h _ _ _
    · exact h
  simp only [State.fld, hregs]

/-- The modes of a write, with what it leaves. -/
theorem State.modesHeld_flags (s : State) (st po : Bool) : (s.modesHeld st po).flag .MGT_DET_CTRL_STRICT 0 = st ∧
    (s.modesHeld st po).flag .MGT_DET_CTRL_PORTABLE 0 = po ∧
    (st = false → (s.modesHeld st po).flag .MGT_DET_STATUS_STRICT_HELD 0 = false) ∧
    (st = true → (s.modesHeld st po).fld .MGT_DET_STATUS_STRICT_HELD 0 = s.fld .MGT_DET_STATUS_STRICT_HELD 0) ∧
    (po = false → (s.modesHeld st po).flag .MGT_DET_STATUS_PORTABLE_HELD 0 = false) := by
  cases st <;> cases po <;>
    simp [State.modesHeld, State.modesNamed, State.setFlag, State.flag, State.fld_setFld_same, Fld.width, Fld.info]

theorem State.modesHeld_sameRegs (s : State) (st po : Bool) : s.sameRegs (s.modesHeld st po) [(.MGT_DET_CTRL_STRICT, 0),
    (.MGT_DET_CTRL_PORTABLE, 0), (.MGT_DET_STATUS_STRICT_HELD, 0), (.MGT_DET_STATUS_PORTABLE_HELD, 0)] := by
  have hset := fun (t : State) (f : Fld) (b : Bool) => t.sameRegs_setFlag (l := [(.MGT_DET_CTRL_STRICT, 0),
    (.MGT_DET_CTRL_PORTABLE, 0), (.MGT_DET_STATUS_STRICT_HELD, 0), (.MGT_DET_STATUS_PORTABLE_HELD, 0)]) (f := f) (i := 0) b
  have hn := (hset s .MGT_DET_CTRL_STRICT st (by simp)).trans (hset _ .MGT_DET_CTRL_PORTABLE po (by simp))
  cases st <;> cases po
  · exact (hn.trans (hset _ .MGT_DET_STATUS_STRICT_HELD _ (by simp))).trans (hset _ .MGT_DET_STATUS_PORTABLE_HELD _ (by simp))
  · exact hn.trans (hset _ .MGT_DET_STATUS_STRICT_HELD _ (by simp))
  · exact hn.trans (hset _ .MGT_DET_STATUS_PORTABLE_HELD _ (by simp))
  · exact hn

/-! ### Changes of ck_core (R495-R498) -/

/-- Outputs that no output changes, sent one after another. -/
theorem foldl_emit (g : State → Nat → Output) (hg : ∀ (s : State) (o : Output) k, g (s.emit o) k = g s k) (l : List Nat) (s : State) :
    l.foldl (fun t k => t.emit (g t k)) s = { s with out := (l.map (g s)).reverse ++ s.out } := by
  induction l generalizing s with
  | nil => rfl
  | cons k l ih =>
    have hgs : g (s.emit (g s k)) = g s := funext (hg s (g s k))
    rw [List.foldl_cons, ih, hgs, List.map_cons, List.reverse_cons, List.append_assoc]
    rfl

theorem State.changeClock_same {s : State} {f : Nat} (h : s.fld .PWR_CLK_PLAN_FREQ_NOW_MHZ 0 = f) :
    s.changeClock f = { s with power := { s.power with freqNext := none } } := if_pos h

/-- ck_core stands at its new frequency. -/
def State.clockAt (s : State) (f : Nat) : State :=
  ({ s with power := { s.power with freqNext := none, vOffset := [], slackSince := [], clockHold := s.now + 500 } } : State).setFld
    .PWR_CLK_PLAN_FREQ_NOW_MHZ 0 f

theorem State.changeClock_new {s : State} {f : Nat} (h : s.fld .PWR_CLK_PLAN_FREQ_NOW_MHZ 0 ≠ f) : s.changeClock f =
    { s.clockAt f with out := ((List.range 12).map (fun k => Output.rail k ((s.clockAt f).railNow k))).reverse ++ s.out } := by
  rw [State.changeClock, if_neg h]
  exact foldl_emit (fun s k => Output.rail k (s.railNow k)) (fun _ _ _ => rfl) _ _

theorem State.changeClock_fld (s : State) (f : Nat) {g : Fld} (hg : g ≠ .PWR_CLK_PLAN_FREQ_NOW_MHZ) (i : Nat) :
    (s.changeClock f).fld g i = s.fld g i := by
  by_cases h : s.fld .PWR_CLK_PLAN_FREQ_NOW_MHZ 0 = f
  · rw [State.changeClock_same h]
    rfl
  · rw [State.changeClock_new h]
    exact State.fld_setFld_of_ne _ _ _ _ hg.symm

theorem State.clockAt_rail (s : State) {f : Nat} (hf : f < 2 ^ Fld.width .PWR_CLK_PLAN_FREQ_NOW_MHZ) (k : Nat) :
    (s.clockAt f).railNow k = vid24 f := by
  rw [State.railNow, State.clockAt, State.fld_setFld_same, Nat.mod_eq_of_lt hf]
  exact add_zero _

/-! ### The step stretch (R502) -/

theorem State.beginStretch_none {s : State} {k : Nat} (round : Nat) (h : k = 0 ∨ s.strict = false) : s.beginStretch k round = s := by
  refine if_neg ?_
  rintro ⟨hk, hs⟩
  rcases h with h | h
  · exact hk h
  · rw [h] at hs
    exact Bool.false_ne_true hs

theorem State.endStretch_strict (s : State) : s.endStretch.strict = s.strict := by
  rw [State.endStretch]
  split
  · exact State.flag_congr ((raiseNo_reports _ _ _ _).fld _ 0 (by decide))
  · rfl

/-! ### The fold order of a Sheaf (R91, R430) -/

theorem State.mem_foldOrder (s : State) (sh n : Nat) : n ∈ s.foldOrder sh ↔ n < 64 ∧ Tbl.get false s.absent (sh * 64 + n) = false ∧
    (s.flag .MGT_DET_CTRL_PORTABLE 0 = true ∨ s.physOf sh n < 68) := by
  cases hp : s.flag .MGT_DET_CTRL_PORTABLE 0 <;> simp [State.foldOrder, hp]
  tauto

/-- Lists in the order of the numbers that name them join to a list in that order. -/
theorem pairwise_flatMap_key {β : Type} (key : β → Nat) (f : Nat → List β) (hf : ∀ p x, x ∈ f p → key x = p) (l : List Nat)
    (hl : l.Pairwise (· ≤ ·)) : (l.flatMap f).Pairwise (fun a b => key a ≤ key b) := by
  induction l with
  | nil => exact List.Pairwise.nil
  | cons p l ih =>
    obtain ⟨hle, htl⟩ := List.pairwise_cons.mp hl
    rw [List.flatMap_cons, List.pairwise_append]
    refine ⟨List.pairwise_of_forall_mem_list (fun a ha b hb => ?_), ih htl, fun a ha b hb => ?_⟩
    · exact le_of_eq ((hf p a ha).trans (hf p b hb).symm)
    · obtain ⟨q, hq, hbq⟩ := List.mem_flatMap.mp hb
      rw [hf p a ha, hf q b hbq]
      exact hle q hq

theorem State.foldOrder_portable {s : State} (hp : s.flag .MGT_DET_CTRL_PORTABLE 0 = true) (sh : Nat) :
    (s.foldOrder sh).Pairwise (· < ·) := by
  simp only [State.foldOrder, hp, if_true]
  exact List.pairwise_lt_range.filter _

theorem State.foldOrder_physical {s : State} (hp : s.flag .MGT_DET_CTRL_PORTABLE 0 = false) (sh : Nat) :
    (s.foldOrder sh).Pairwise (fun a b => s.physOf sh a ≤ s.physOf sh b) := by
  simp only [State.foldOrder, hp, Bool.false_eq_true, if_false]
  refine pairwise_flatMap_key (s.physOf sh) _ (fun p x hx => ?_) _ (List.pairwise_lt_range.imp Nat.le_of_lt)
  exact beq_iff_eq.mp (List.mem_filter.mp hx).2

theorem foldPartials_absent {parts : Nat → Option Nat} {n : Nat} (h : parts n = none) (l : List Nat) :
    foldPartials parts (l ++ [n]) = foldPartials parts l := by
  simp [foldPartials, List.filterMap_append, h]

theorem foldPartials_first {parts : Nat → Option Nat} {n x : Nat} (h : parts n = some x) {l : List Nat}
    (hl : foldPartials parts l = none) : foldPartials parts (l ++ [n]) = some x := by
  rw [foldPartials] at hl
  simp [foldPartials, List.filterMap_append, h, hl]

theorem foldPartials_next {parts : Nat → Option Nat} {n x a : Nat} (h : parts n = some x) {l : List Nat}
    (hl : foldPartials parts l = some a) : foldPartials parts (l ++ [n]) = some (addFp32 a x) := by
  rw [foldPartials] at hl
  simp [foldPartials, List.filterMap_append, h, hl]

/-- Settles O47: the modes, the clock, the stretch and the fold by the branches of their rules. -/
theorem modesAndClockChange : Obligations.ModesAndClockChange := by
  unfold Obligations.ModesAndClockChange
  intro s
  refine ⟨fun o st po v ha hv => ⟨fun hfree => ?_, fun hfree => congrArg Host.Outcome.next ?_, fun hst hpo => ?_⟩,
    fun t h4 h6 ht => State.modeFree_of_runs h4 h6 ht, fun hn => congrArg Host.Outcome.next (by simp only [State.doClockChange, hn]),
    fun f hf => ⟨fun hr => congrArg Host.Outcome.next (by simp only [State.doClockChange, hf, hr, if_true]),
      fun hr => congrArg Host.Outcome.next (by simp only [State.doClockChange, hf, hr, Bool.false_eq_true, if_false])⟩,
    fun f u hu hf => ?_, fun hn => congrArg Host.Outcome.next (by simp only [State.doStretch, hn]),
    fun t k round rest hst => ⟨fun hrun hle s1 hs1 => ?_, fun hlt => congrArg Host.Outcome.next ?_⟩,
    fun hn => by simp only [State.endStretch, hn], fun t round hon => ?_, s.mem_foldOrder,
    fun sh => ⟨fun hp => State.foldOrder_portable hp sh, fun hp => State.foldOrder_physical hp sh⟩, fun sh parts => rfl,
    fun parts l n => ⟨rfl, fun h => foldPartials_absent h l, fun x hx => ⟨foldPartials_first hx, fun a ha => foldPartials_next hx ha⟩⟩⟩
  · obtain ⟨hs1, hp1, hs0, hs2, hp0⟩ := s.modesHeld_flags st po
    have hout := s.setModes_outside st po
    refine ⟨s.setModes st po, congrArg Host.Outcome.next ?_, ?_, ?_, fun h => ?_, fun h => ?_, fun h => ?_, fun f i hfi => ?_,
      fun h => ?_, fun f hst hstrict h8 hf => ?_⟩
    · show s.detWrite o _ = _
      rw [← hv, State.detWrite_modes ha hv, hfree, if_pos rfl]
    · exact (State.flag_congr (s.setModes_fld st po _ 0)).trans hs1
    · exact (State.flag_congr (s.setModes_fld st po _ 0)).trans hp1
    · exact (State.flag_congr (s.setModes_fld st po _ 0)).trans (hs0 h)
    · exact (s.setModes_fld st po _ 0).trans (hs2 h)
    · exact (State.flag_congr (s.setModes_fld st po _ 0)).trans (hp0 h)
    · exact (s.setModes_fld st po f i).trans (s.modesHeld_sameRegs st po f i hfi)
    · rw [s.modesClocked_outside st po h] at hout
      exact hout
    · subst hst
      rw [s.modesClocked_strict po hstrict h8 hf] at hout
      exact hout
  · show s.detWrite o _ = _
    rw [← hv, State.detWrite_modes ha hv, hfree]
    rfl
  · refine ⟨s.evtClear, congrArg Host.Outcome.next (State.detWrite_evtClr ha hst hpo rfl), fun f hf => ?_, ?_, ?_, ?_, rfl⟩
    · simp only [List.mem_cons, List.not_mem_nil, or_false] at hf
      rcases hf with rfl | rfl | rfl | rfl <;> simp [State.evtClear, State.fld_setFld_same]
    · simp [State.evtClear, State.fld_setFld_same, Fld.width, Fld.info]
      omega
    · simp [State.evtClear, State.fld_setFld_same, Fld.width, Fld.info]
      omega
    · simp [State.evtClear]
  · subst hu
    by_cases h : s.fld .PWR_CLK_PLAN_FREQ_NOW_MHZ 0 = f
    · rw [State.changeClock_same h]
      exact ⟨h, rfl, rfl, rfl, State.sameRegs_of_regs rfl _, fun hne => absurd h hne⟩
    · rw [State.changeClock_new h]
      refine ⟨(State.fld_setFld_same _ _ _ _).trans (Nat.mod_eq_of_lt hf), rfl, rfl, rfl, ?_, fun _ => ⟨rfl, rfl, fun k hk => ?_⟩⟩
      · exact State.sameRegs_setFld _ f (List.mem_singleton.mpr rfl)
      · refine List.mem_append_left _ (List.mem_reverse.mpr (List.mem_map.mpr ⟨k, List.mem_range.mpr hk, ?_⟩))
        rw [s.clockAt_rail hf]
  · have hsteps : s.doStretch = s1.beginStretch k round := by
      have hp : (({ s with power := { s.power with stretchAt := rest } } : State).setFld .PWR_STRETCH_LAST 0 k).planFreq k =
          max 600 (s.fld .PWR_CLK_PLAN_FREQ_REQ_MHZ 0 - 25 * k) := by
        rw [State.planFreq, State.fld_setFld_of_ne _ _ _ _ (by decide)]
        rfl
      rw [hs1, ← hp]
      simp only [State.doStretch, hst, hrun, hle, decide_true, Bool.and_self, if_true]
    have hstrict : s1.strict = s.strict := by
      rw [hs1, State.endStretch_strict, State.strict, State.flag, State.changeClock_fld _ _ (by decide),
        State.fld_setFld_of_ne _ _ _ _ (by decide)]
      rfl
    refine ⟨fun h => congrArg Host.Outcome.next ?_, fun hk hs => congrArg Host.Outcome.next ?_⟩
    · rw [hsteps, State.beginStretch_none round (hstrict ▸ h)]
    · rw [hsteps]
      exact if_pos ⟨hk, hstrict.trans hs⟩
  · simp only [State.doStretch, hst, Nat.not_le.mpr hlt, decide_false, Bool.and_false, Bool.false_eq_true, if_false]
  · simp only [State.endStretch, hon, State.timeRecord, Nat.zero_add]
    rfl

end Sys2Proof.Machine
end

section
/-! PROOFS. Samples and the counters of a Tiller (R524-R527, R543). -/

namespace Sys2Proof.Machine

/-! ### The header of a sample (R521, R525) -/

/-- Every term of a sum is a multiple, so the sum is one. -/
theorem dvd_sum_map {m : Nat} (f : Nat → Nat) (h : ∀ k, m ∣ f k) (l : List Nat) : m ∣ (l.map f).sum :=
  List.dvd_sum (fun x hx => by
    obtain ⟨k, -, rfl⟩ := List.mem_map.mp hx
    exact h k)

theorem pow128_dvd (x : Nat) {k : Nat} (h : 128 ≤ k) : 2 ^ 128 ∣ x * 2 ^ k := Dvd.dvd.mul_left (Nat.pow_dvd_pow 2 h) x

theorem countBody_dvd (inc : Nat → Nat) : 2 ^ 128 ∣ countBody inc := by
  rw [countBody]
  exact dvd_add (dvd_add (dvd_sum_map _ (fun k => pow128_dvd _ (by omega)) _) (dvd_sum_map _ (fun k => pow128_dvd _ (by omega)) _))
    (pow128_dvd _ (by omega))

/-- A record reads its header behind what stands above the first 16 bytes. -/
theorem header_of_above (mtime source : Nat) (hs : source < 256) {b : Nat} (hb : 2 ^ 128 ∣ b) :
    (telHeader mtime 1 source 0 + b) % 2 ^ 64 = mtime % 2 ^ 64 ∧
      (telHeader mtime 1 source 0 + b) / 2 ^ 64 % 2 ^ 16 = 1 + source * 2 ^ 8 := by
  obtain ⟨c, rfl⟩ := hb
  rw [telHeader]
  omega

theorem State.sheafSample_above (s : State) (sh : Nat) : ∃ b, 2 ^ 128 ∣ b ∧ s.sheafSample sh = telHeader s.now 1 sh 0 + b := by
  refine ⟨_, ?_, by rw [State.sheafSample, Nat.add_assoc, Nat.add_assoc]⟩
  exact dvd_add (pow128_dvd _ le_rfl) (dvd_add (countBody_dvd _) (pow128_dvd _ (by omega)))

theorem State.moduleSample_above (s : State) : ∃ b, 2 ^ 128 ∣ b ∧ s.moduleSample = telHeader s.now 1 12 0 + b := by
  refine ⟨_, ?_, by rw [State.moduleSample, Nat.add_assoc, Nat.add_assoc, Nat.add_assoc]⟩
  have hsum := fun (f : Nat → Nat) (a : Nat) (ha : 128 ≤ 8 * a) =>
    dvd_sum_map (fun k => f k * 2 ^ (8 * (a + 8 * k))) (fun k => pow128_dvd _ (by omega)) (List.range 8)
  exact dvd_add (hsum _ _ (by decide)) (dvd_add (hsum _ _ (by decide)) (dvd_add (hsum _ _ (by decide)) (pow128_dvd _ (by omega))))

/-! ### When a source writes (R524) -/

theorem State.samples_iff (s : State) (source : Nat) : s.samples source = true ↔ 1 ≤ s.fld .PWR_STATUS_STATE 0 ∧
    s.fld .PWR_STATUS_STATE 0 ≤ 3 ∧ s.flag .OBS_SAMPLE_EN 0 = true ∧ bitAt (s.fld .OBS_SAMPLE_SOURCES 0) source = true ∧
    s.now % max 1000 (min 1000000000 (s.fld .OBS_SAMPLE_PERIOD_NS 0)) = 0 := by
  simp only [State.samples, State.samplePeriod, Bool.and_eq_true, decide_eq_true_eq, beq_iff_eq, and_assoc]

theorem State.takeSample_of {s : State} {source : Nat} (h : s.samples source = true) : s.takeSample source =
    s.telPut source (if source = 12 then s.moduleSample else s.sheafSample source) := if_pos h

theorem State.takeSample_not {s : State} {source : Nat} (h : ¬ s.samples source = true) : s.takeSample source = s := if_neg h

/-! ### The counters of a Tiller (R543) -/

/-- Keys taken out one after another: another key reads as before. -/
theorem Tbl.get_foldl_del_ne {α : Type} (d : α) (key : Nat → Nat) (j : Nat) (l : List Nat) (h : ∀ k ∈ l, j ≠ key k) (t : Table α) :
    Tbl.get d (l.foldl (fun c k => Tbl.del (key k) c) t) j = Tbl.get d t j :=
  List.foldlRecOn (motive := fun c => Tbl.get d c j = Tbl.get d t j) l _ rfl
    (fun c hc k hk => (Tbl.get_del_ne d c (key k) j (h k hk)).trans hc)

/-- A key taken out stays out. -/
theorem Tbl.get_foldl_del_out {α : Type} (d : α) (key : Nat → Nat) {j : Nat} (l : List Nat) {t : Table α} (h : Tbl.get d t j = d) :
    Tbl.get d (l.foldl (fun c k => Tbl.del (key k) c) t) j = d := by
  refine List.foldlRecOn (motive := fun c => Tbl.get d c j = d) l _ h (fun c hc k _ => ?_)
  by_cases hk : j = key k
  · rw [hk]
    exact Tbl.get_del_same d c _
  · exact (Tbl.get_del_ne d c (key k) j hk).trans hc

/-- Keys taken out one after another: each reads as the default. -/
theorem Tbl.get_foldl_del_mem {α : Type} (d : α) (key : Nat → Nat) {k : Nat} (l : List Nat) (hk : k ∈ l) (t : Table α) :
    Tbl.get d (l.foldl (fun c k => Tbl.del (key k) c) t) (key k) = d := by
  induction l generalizing t with
  | nil => cases hk
  | cons a l ih =>
    rcases List.mem_cons.mp hk with rfl | hmem
    · exact Tbl.get_foldl_del_out d key l (Tbl.get_del_same d t _)
    · exact ih hmem _

/-- The counters without those of Tiller t. -/
def State.cntWithout (s : State) (t : Nat) : Table Nat := (List.range 16).foldl (fun c k => Tbl.del (cycKey (16 * t + k)) c) s.obs.cnt

theorem State.clearTilObs_eq (s : State) (t : Nat) : s.clearTilObs t =
    ((({ s with obs := { s.obs with cnt := s.cntWithout t } } : State).setFld .TIL_OBS_MAC_MACS t 0).setFld
      .TIL_OBS_INST_INSTR t 0).setFld .TIL_OBS_BANK_CYCLES t 0 := by
  simp only [State.clearTilObs, State.cntWithout]

theorem State.clearTilObs_cnt (s : State) (t : Nat) : (s.clearTilObs t).obs.cnt = s.cntWithout t := by
  rw [State.clearTilObs_eq]
  generalize s.cntWithout t = c
  rfl

theorem State.clearTilObs_cycles (s : State) (t : Nat) {k : Nat} (hk : k < 16) :
    Tbl.get 0 (s.clearTilObs t).obs.cnt (cycKey (16 * t + k)) = 0 := by
  rw [State.clearTilObs_cnt, State.cntWithout]
  exact Tbl.get_foldl_del_mem 0 (fun k => cycKey (16 * t + k)) _ (List.mem_range.mpr hk) _

theorem State.clearTilObs_others (s : State) {t t' : Nat} (ht : t' ≠ t) {k : Nat} (hk : k < 16) :
    Tbl.get 0 (s.clearTilObs t).obs.cnt (cycKey (16 * t' + k)) = Tbl.get 0 s.obs.cnt (cycKey (16 * t' + k)) := by
  rw [State.clearTilObs_cnt, State.cntWithout]
  refine Tbl.get_foldl_del_ne 0 (fun k => cycKey (16 * t + k)) _ _ (fun j hj => ?_) _
  have hj := List.mem_range.mp hj
  simp only [cycKey]
  omega

/-- Settles O48: a sample by its condition and its header, CLR by the counters that it takes out. -/
theorem samplesAreWritten : Obligations.SamplesAreWritten := by
  unfold Obligations.SamplesAreWritten
  intro s
  refine ⟨fun src h1 h3 hen hsrc => ⟨fun hp => ?_, fun hp => congrArg Host.Outcome.next (State.takeSample_not fun h => ?_)⟩,
    fun hen src => congrArg Host.Outcome.next (State.takeSample_not fun h => ?_), ⟨?_, ?_, fun sh => ?_⟩,
    fun k => ⟨rfl, Nat.sub_self _⟩, fun sh n t ht ha => ⟨s.clearTilObs t, congrArg Host.Outcome.next ?_, ?_, ?_, ?_,
      fun k hk => s.clearTilObs_cycles t hk, fun t' k ht' hk => s.clearTilObs_others ht' hk, ?_, ?_⟩⟩
  · have hs := (s.samples_iff src).mpr ⟨h1, h3, hen, hsrc, hp⟩
    refine ⟨fun h12 => congrArg Host.Outcome.next ?_, fun h12 => congrArg Host.Outcome.next ?_⟩
    · rw [State.takeSample_of hs, if_pos h12, h12]
    · rw [State.takeSample_of hs, if_neg h12]
  · obtain ⟨-, -, -, -, h0⟩ := (s.samples_iff src).mp h
    exact hp h0
  · obtain ⟨-, -, h1, -, -⟩ := (s.samples_iff src).mp h
    rw [hen] at h1
    exact Bool.false_ne_true h1
  · obtain ⟨b, hb, he⟩ := s.moduleSample_above
    rw [he]
    exact (header_of_above s.now 12 (by decide) hb).1
  · obtain ⟨b, hb, he⟩ := s.moduleSample_above
    rw [he]
    exact (header_of_above s.now 12 (by decide) hb).2
  · obtain ⟨b, hb, he⟩ := s.sheafSample_above sh
    rw [he]
    exact header_of_above s.now sh (by omega) hb
  · rw [State.access_of_answers ha, ← ht]
  · simp [State.clearTilObs_eq, State.fld_setFld_same]
  · simp [State.clearTilObs_eq, State.fld_setFld_same]
  · simp [State.clearTilObs_eq, State.fld_setFld_same]
  · rw [State.clearTilObs_eq]
    generalize s.cntWithout t = c
    simp only [State.setFld]
  · rw [State.clearTilObs_eq]
    generalize s.cntWithout t = c
    have hc : s.sameRegs { s with obs := { s.obs with cnt := c } } [(.TIL_OBS_MAC_MACS, t), (.TIL_OBS_INST_INSTR, t),
      (.TIL_OBS_BANK_CYCLES, t)] := State.sameRegs_of_regs rfl _
    exact ((hc.trans (State.sameRegs_setFld _ 0 (by simp))).trans
      (State.sameRegs_setFld _ 0 (by simp))).trans (State.sameRegs_setFld _ 0 (by simp))

end Sys2Proof.Machine
end

section
/-! PROOFS. Spares, mappings and fences (R28, R29, R320, R431, R451-R454). -/

namespace Sys2Proof.Machine

/-! ### A failed wait leaves the fences as they are -/

/-- Neither a fault nor a record, nor a wait that ends, changes which Sheafs are fenced. -/
def FenceKept (sh : Nat) (s t : State) : Prop := t.fld .MGT_DET_DUMAP_HI_FENCED sh = s.fld .MGT_DET_DUMAP_HI_FENCED sh

namespace FenceKept

variable {sh : Nat} {s t u : State}

theorem refl (sh : Nat) (s : State) : FenceKept sh s s := rfl

theorem trans (h : FenceKept sh s t) (k : FenceKept sh t u) : FenceKept sh s u := Eq.trans k h

theorem of_regs (h : t.regs = s.regs) : FenceKept sh s t := by
  unfold FenceKept
  simp only [State.fld, h]

theorem of_reports (h : Reports s t) : FenceKept sh s t := h.fld _ sh (by decide)

theorem setFld (s : State) {f : Fld} (i v : Nat) (hf : f ≠ .MGT_DET_DUMAP_HI_FENCED) : FenceKept sh s (s.setFld f i v) :=
  State.fld_setFld_of_ne _ _ _ _ hf

theorem setRing (s : State) (r : Nat) (x : Ring) : FenceKept sh s (s.setRing r x) := .of_regs rfl

/-- Steps that each keep the fences. -/
theorem foldl {α : Type} {f : State → α → State} (hf : ∀ v x, FenceKept sh v (f v x)) (l : List α) (s : State) :
    FenceKept sh s (l.foldl f s) :=
  List.foldlRecOn (motive := fun v => FenceKept sh s v) l f (refl sh s) (fun v hv x _ => hv.trans (hf v x))

end FenceKept

theorem State.faultTiller_fences (sh : Nat) (s : State) (t cls : Nat) : FenceKept sh s (s.faultTiller t cls) :=
  s.faultTiller_fld cls (.inr (by decide))

theorem State.commandFault_fences (sh : Nat) (s : State) (r pos cls : Nat) : FenceKept sh s (s.commandFault r pos cls) := by
  unfold State.commandFault
  dsimp only
  split
  · exact .refl sh s
  · refine (FenceKept.foldl (fun v p => ?_) _ s).trans ((FenceKept.setRing _ _ _).trans
      (.of_reports (State.reportFault_reports ..)))
    split
    · split
      · exact v.faultTiller_fences sh _ _
      · exact .refl sh v
    · exact .refl sh v

theorem State.progFault_fences (sh : Nat) (s : State) (t cls pc detail : Nat) : FenceKept sh s (s.progFault t cls pc detail) := by
  have htil : FenceKept sh s (s.tillerFault t cls pc detail) :=
    s.tillerFault_fld t cls pc detail sh (by decide) (by decide) (by decide)
  unfold State.progFault
  dsimp only
  split
  · exact htil.trans (State.commandFault_fences ..)
  · exact htil

theorem State.markReady_fences (sh : Nat) (s : State) (r : Nat) : FenceKept sh s (s.markReady r) := by
  unfold State.markReady
  dsimp only
  split
  · exact .of_regs rfl
  · exact .refl sh s

theorem State.evalHead_fences (sh : Nat) (s : State) (r : Nat) : FenceKept sh s (s.evalHead r) :=
  .trans (.of_regs rfl) (State.markReady_fences ..)

theorem State.headFault_fences (sh : Nat) (s : State) (r cls : Nat) : FenceKept sh s (s.headFault r cls) := by
  have hstop : FenceKept sh s (s.stopHead r cls) := .of_regs rfl
  unfold State.headFault
  dsimp only
  split
  · exact hstop.trans (.of_reports (State.reportFault_reports ..))
  · exact hstop.trans (.of_reports (State.raiseCtx_reports ..))

theorem State.disarm_fences (sh : Nat) (s : State) (c : Nat) : FenceKept sh s (s.disarm c) :=
  .trans (.of_regs rfl) (.setFld _ _ _ (by decide))

theorem State.fireNotify_fences (sh : Nat) (s : State) (c : Nat) : FenceKept sh s (s.fireNotify c) :=
  .trans (State.disarm_fences sh s c) (.of_regs rfl)

theorem State.nextPc_fences (sh : Nat) (s : State) (t pc : Nat) : FenceKept sh s (s.nextPc t pc) :=
  s.nextPc_sameRegs t pc _ _ (by simp)

theorem State.setTstate_fences (sh : Nat) (s : State) (t v : Nat) : FenceKept sh s (s.setTstate t v) := .setFld _ _ _ (by decide)

theorem State.wakeTiller_fences (sh : Nat) (s : State) (t vid thresh value : Nat) :
    FenceKept sh s (s.wakeTiller t vid thresh value) := by
  have htil (x : Tiller) : FenceKept sh s (s.setTil t x) := .of_regs rfl
  unfold State.wakeTiller
  exact (((htil _).trans (State.setTstate_fences sh _ t 4)).trans (State.nextPc_fences sh _ t _)).trans
    (.of_reports (State.trace_reports ..))

theorem State.failTillerOn_fences (sh : Nat) (s : State) (pid cls t : Nat) : FenceKept sh s (s.failTillerOn pid cls t) := by
  unfold State.failTillerOn
  split
  · split
    · exact .refl sh s
    · split
      · unfold State.tillerSatisfied
        split
        · split
          · exact State.wakeTiller_fences ..
          · exact .refl sh s
        · exact .refl sh s
      · exact State.progFault_fences ..
  · exact .refl sh s

theorem State.failHeadOn_fences (sh : Nat) (s : State) (pid cls r : Nat) : FenceKept sh s (s.failHeadOn pid cls r) := by
  unfold State.failHeadOn
  split
  · exact .trans (.of_reports (State.raiseCtx_reports ..)) (State.headFault_fences ..)
  · split
    · exact State.evalHead_fences ..
    · exact .refl sh s

theorem State.failNotifyOn_fences (sh : Nat) (s : State) (pid cls c : Nat) : FenceKept sh s (s.failNotifyOn pid cls c) := by
  unfold State.failNotifyOn
  split
  · split
    · exact .refl sh s
    · split
      · exact State.fireNotify_fences ..
      · exact (State.disarm_fences sh s c).trans (.of_reports (State.raiseCtx_reports ..))
  · exact .refl sh s

theorem State.failWaits_fences (sh : Nat) (s : State) (pid cls : Nat) : FenceKept sh s (s.failWaits pid cls) :=
  ((FenceKept.foldl (fun v (p : Nat × Tiller) => v.failTillerOn_fences sh pid cls p.1) s.tillers s).trans
    (FenceKept.foldl (fun v (p : Nat × Ring) => v.failHeadOn_fences sh pid cls p.1) _ _)).trans
      (FenceKept.foldl (fun v (p : Nat × Context) => v.failNotifyOn_fences sh pid cls p.1) _ _)

theorem State.dumapChanged_fences (sh : Nat) (s : State) (k p : Nat) : FenceKept sh s (s.dumapChanged k p) := by
  have hcnt : FenceKept sh s (s.satAdd .MGT_DET_EVT_DUMAP_CHANGES 0 1) := .setFld _ _ _ (by decide)
  unfold State.dumapChanged
  dsimp only
  split
  · exact hcnt
  · exact hcnt.trans ((FenceKept.setFld _ _ _ (by decide)).trans (.of_reports (State.raiseNo_reports ..)))

/-! ### Fences (R454) -/

theorem State.fenceSheaf_again {s : State} {sh : Nat} (h : s.flag .MGT_DET_DUMAP_HI_FENCED sh = true) : s.fenceSheaf sh = s :=
  if_pos h

/-- The Sheaf is marked, and the map of disabled units changes. -/
def State.fenceMarked (s : State) (sh : Nat) : State :=
  (((s.setFlag .SHF_SPARE_FENCE sh true).setFlag .MGT_DET_DUMAP_HI_FENCED sh true).raiseNo 0x96 ⟨8, 0⟩ sh).dumapChanged sh 0xFF

theorem State.fenceSheaf_new {s : State} {sh : Nat} (h : s.flag .MGT_DET_DUMAP_HI_FENCED sh = false) :
    ∃ l : List Nat, (∀ p ∈ l, p / 4096 = sh) ∧ s.fenceSheaf sh = l.foldl (fun s p => s.failWaits p 0x21) (s.fenceMarked sh) := by
  refine ⟨((s.fenceMarked sh).glumes.map (·.1)).filter (fun p => p / 4096 == sh), fun p hp => ?_, ?_⟩
  · exact beq_iff_eq.mp (List.mem_filter.mp hp).2
  · rw [State.fenceSheaf, if_neg (by rw [h]; exact Bool.false_ne_true)]
    rfl

theorem State.fenceSheaf_fenced (s : State) (sh : Nat) : (s.fenceSheaf sh).flag .MGT_DET_DUMAP_HI_FENCED sh = true := by
  cases h : s.flag .MGT_DET_DUMAP_HI_FENCED sh
  · obtain ⟨l, -, he⟩ := State.fenceSheaf_new h
    have hset : (((s.setFlag .SHF_SPARE_FENCE sh true).setFlag .MGT_DET_DUMAP_HI_FENCED sh true)).flag
        .MGT_DET_DUMAP_HI_FENCED sh = true := State.flag_setFlag_same _ (by decide) _ _
    have hmark : FenceKept sh ((s.setFlag .SHF_SPARE_FENCE sh true).setFlag .MGT_DET_DUMAP_HI_FENCED sh true) (s.fenceMarked sh) :=
      (FenceKept.of_reports (State.raiseNo_reports _ 0x96 ⟨8, 0⟩ sh)).trans (State.dumapChanged_fences sh _ sh 0xFF)
    have hk := hmark.trans (FenceKept.foldl (fun v p => v.failWaits_fences sh p 0x21) l _)
    rw [he]
    exact (State.flag_congr hk).trans hset
  · rw [State.fenceSheaf_again h]
    exact h

/-! ### Spares and mappings (R452) -/

theorem State.freeSpare_spec {s : State} {sh p : Nat} (h : s.freeSpare sh = some p) : 64 ≤ p ∧ p ≤ 67 ∧
    Tbl.get false s.used (sh * 68 + p) = false ∧ ∀ q, 64 ≤ q → q < p → Tbl.get false s.used (sh * 68 + q) = true := by
  obtain ⟨hfree, lower, upper, hlist, hlower⟩ := List.find?_eq_some_iff_append.mp h
  have hsorted : (lower ++ p :: upper).Pairwise (· < ·) := hlist ▸ (by decide : [64, 65, 66, 67].Pairwise (· < ·))
  have hmem : ∀ q ∈ [64, 65, 66, 67], 64 ≤ q ∧ q ≤ 67 := by decide
  obtain ⟨h64, h67⟩ := hmem p (hlist ▸ by simp)
  refine ⟨h64, h67, by simpa using hfree, fun q hq hlt => ?_⟩
  have hin : q ∈ lower ++ p :: upper := by
    rw [← hlist]
    have hcases : q = 64 ∨ q = 65 ∨ q = 66 ∨ q = 67 := by omega
    simpa using hcases
  rcases List.mem_append.mp hin with hl | hu
  · simpa using hlower q hl
  · have hle : p ≤ q := by
      rcases List.mem_cons.mp hu with rfl | hu
      · exact le_rfl
      · exact le_of_lt ((List.pairwise_cons.mp (List.pairwise_append.mp hsorted).2.1).1 q hu)
    omega

theorem State.mapSpare_refused {s : State} {sh : Nat} (n : Nat) (h : s.sheafStates sh 2 6 = true ∨ s.flag .SHF_SPARE_BUSY sh = true) :
    s.mapSpare sh n = s := if_pos (Bool.or_eq_true_iff.mpr h)

/-- A mapping is in progress. -/
def State.mapBegun (s : State) (sh n : Nat) : State :=
  ({ s with power := { s.power with mapping := Tbl.put s.power.mapping sh n } } : State).setFlag .SHF_SPARE_BUSY sh true

theorem State.mapSpare_taken {s : State} {sh : Nat} (n : Nat) (h1 : s.sheafStates sh 2 6 = false)
    (h2 : s.flag .SHF_SPARE_BUSY sh = false) : s.mapSpare sh n = s.mapBegun sh n :=
  if_neg (by rw [h1, h2]; exact Bool.false_ne_true)

/-- The STATEs of a Sheaf's Tillers stand while another field takes a value. -/
theorem State.sheafStates_setFld (s : State) {f : Fld} (i v sh lo hi : Nat) (hf : f ≠ .TIL_PROG_STATUS_STATE) :
    (s.setFld f i v).sheafStates sh lo hi = s.sheafStates sh lo hi := by
  have h (n : Nat) : (s.setFld f i v).tstate n = s.tstate n := State.fld_setFld_of_ne _ _ _ _ hf
  simp only [State.sheafStates, h]

theorem State.mapDone_busy {s : State} {sh : Nat} (h : s.flag .SHF_SPARE_BUSY sh = true) :
    s.mapDone sh = (s.setFlag .SHF_SPARE_BUSY sh false).replaceTiller sh (Tbl.get 0 s.power.mapping sh) := if_pos h

/-- The state of a mapping before its record: the number has its new physical Tiller. -/
def State.spareTaken (s : State) (sh n p : Nat) : State :=
  { s.freshTiller (sh * 64 + n) with
    phys := Tbl.put s.phys (sh * 64 + n) p
    used := Tbl.set false s.used (sh * 68 + p) true
    absent := Tbl.set false s.absent (sh * 64 + n) false }

theorem State.tillerMapped_eq (s : State) (sh n p : Nat) : s.tillerMapped sh n p =
    ((s.spareTaken sh n p).raiseNo 0x94 ⟨8, 0⟩ (sh + n * 2 ^ 8 + p * 2 ^ 16)).dumapChanged sh p := rfl

/-- What a change of the map and a record leave: the numbers of the Tillers. -/
theorem State.dumapChanged_numbers (s : State) (sh p : Nat) : (s.dumapChanged sh p).phys = s.phys ∧
    (s.dumapChanged sh p).used = s.used ∧ (s.dumapChanged sh p).absent = s.absent := by
  unfold State.dumapChanged
  dsimp only
  split
  · exact ⟨rfl, rfl, rfl⟩
  · have h := (State.raiseNo_reports ((s.satAdd .MGT_DET_EVT_DUMAP_CHANGES 0 1).setFlag .MGT_DET_STATUS_DUMAP_CHG 0 true) 0x84 mgtUnit
      (sh + p * 2 ^ 8)).outside
    exact ⟨by rw [h]; rfl, by rw [h]; rfl, by rw [h]; rfl⟩

theorem State.tillerMapped_numbers (s : State) (sh n p : Nat) : (s.tillerMapped sh n p).phys = Tbl.put s.phys (sh * 64 + n) p ∧
    (s.tillerMapped sh n p).used = Tbl.set false s.used (sh * 68 + p) true ∧
    (s.tillerMapped sh n p).absent = Tbl.set false s.absent (sh * 64 + n) false := by
  have hr := (State.raiseNo_reports (s.spareTaken sh n p) 0x94 ⟨8, 0⟩ (sh + n * 2 ^ 8 + p * 2 ^ 16)).outside
  obtain ⟨hp, hu, ha⟩ := State.dumapChanged_numbers ((s.spareTaken sh n p).raiseNo 0x94 ⟨8, 0⟩ (sh + n * 2 ^ 8 + p * 2 ^ 16)) sh p
  rw [State.tillerMapped_eq]
  exact ⟨hp.trans (by rw [hr]; rfl), hu.trans (by rw [hr]; rfl), ha.trans (by rw [hr]; rfl)⟩

/-- The state of an absent number before its record. -/
def State.numberGone (s : State) (sh n : Nat) : State :=
  { s.freshTiller (sh * 64 + n) with absent := Tbl.set false s.absent (sh * 64 + n) true }

theorem State.tillerAbsent_eq (s : State) (sh n : Nat) :
    s.tillerAbsent sh n = (s.numberGone sh n).raiseNo 0x95 ⟨8, 0⟩ (sh + n * 2 ^ 8) := rfl

theorem State.tillerAbsent_absent (s : State) (sh n : Nat) : Tbl.get false (s.tillerAbsent sh n).absent (sh * 64 + n) = true := by
  have hr := (State.raiseNo_reports (s.numberGone sh n) 0x95 ⟨8, 0⟩ (sh + n * 2 ^ 8)).outside
  have ha : (s.tillerAbsent sh n).absent = Tbl.set false s.absent (sh * 64 + n) true := by
    rw [State.tillerAbsent_eq, hr]
    rfl
  rw [ha]
  exact Tbl.get_set_same ..

/-- Entries written one after another: a key whose entries all name one value has it. -/
theorem Tbl.get_foldl_entries {α : Type} (d v : α) (k : Nat) (l : List (Nat × α)) (hmem : (k, v) ∈ l)
    (hall : ∀ q ∈ l, q.1 = k → q.2 = v) (t : Table α) : Tbl.get d (l.foldl (fun t p => Tbl.put t p.1 p.2) t) k = v := by
  induction l using List.reverseRecOn with
  | nil => cases hmem
  | append_singleton l q ih =>
    rw [List.foldl_append, List.foldl_cons, List.foldl_nil]
    by_cases hq : q.1 = k
    · rw [← hall q (by simp) hq, hq]
      exact Tbl.get_put_same ..
    · rw [Tbl.get_put_ne _ _ _ _ _ (Ne.symm hq)]
      refine ih ?_ (fun x hx => hall x (List.mem_append_left _ hx))
      rcases List.mem_append.mp hmem with h | h
      · exact h
      · exact absurd (by rw [← List.mem_singleton.mp h]) hq

theorem State.fuseSheaf_phys (s : State) {sh n p : Nat} (hn : n < 64) (hmem : (sh * 64 + n, p) ∈ s.phys)
    (hall : ∀ q ∈ s.phys, q.1 = sh * 64 + n → q.2 = p) (d : Nat) : Tbl.get d (s.fuseSheaf sh).power.fusedPhys (sh * 64 + n) = p := by
  refine Tbl.get_foldl_entries d p _ _ (List.mem_filter.mpr ⟨hmem, ?_⟩) (fun q hq => hall q (List.mem_filter.mp hq).1) _
  simp only [Bool.and_eq_true, decide_eq_true_eq]
  omega

/-! ### RENUMBER (R453) -/

theorem State.byPhysical_mem {s : State} {sh n : Nat} (h : n ∈ s.byPhysical sh) : n < 64 := by
  obtain ⟨p, -, hp⟩ := List.mem_filterMap.mp h
  exact List.mem_range.mp (List.mem_of_find?_eq_some hp)

theorem State.byPhysical_length (s : State) (sh : Nat) : (s.byPhysical sh).length ≤ 64 := by
  have hnodup : (s.byPhysical sh).Nodup := by
    refine List.nodup_range.filterMap (fun p q n hp hq => ?_)
    have hp := List.find?_some hp
    have hq := List.find?_some hq
    simp only [Bool.and_eq_true, beq_iff_eq] at hp hq
    exact hp.2.symm.trans hq.2
  have hsub : s.byPhysical sh ⊆ List.range 64 := fun n hn => List.mem_range.mpr (State.byPhysical_mem hn)
  simpa using (hnodup.subperm hsub).length_le

/-- The numbers of a Sheaf after RENUMBER, written one after another. -/
def State.numbered (sh : Nat) (ps : List Nat) (k : Nat) (s : State) (n : Nat) : State :=
  { s with
    phys := Tbl.put s.phys (sh * 64 + n) (ps.getD n n)
    absent := Tbl.set false s.absent (sh * 64 + n) (decide (k ≤ n)) }

theorem State.renumber_eq {s : State} {sh : Nat} (h : s.sheafStates sh 2 7 = false) : s.renumber sh =
    (List.range 64).foldl (State.numbered sh ((s.byPhysical sh).map (s.physOf sh)) (s.byPhysical sh).length)
      (s.moveTillers (newIndex (s.byPhysical sh) sh)) := if_neg (by rw [h]; exact Bool.false_ne_true)

theorem State.foldl_numbered (sh : Nat) (ps : List Nat) (k : Nat) (l : List Nat) (s : State) :
    l.foldl (State.numbered sh ps k) s = { s with
      phys := (l.foldl (State.numbered sh ps k) s).phys
      absent := (l.foldl (State.numbered sh ps k) s).absent } := by
  induction l using List.reverseRecOn with
  | nil => rfl
  | append_singleton l n ih =>
    rw [List.foldl_append, List.foldl_cons, List.foldl_nil]
    generalize l.foldl (State.numbered sh ps k) s = u at ih
    rw [ih]
    rfl

theorem State.foldl_numbered_mem (sh : Nat) (ps : List Nat) (k : Nat) (l : List Nat) (s : State) {n : Nat} (hn : n ∈ l) :
    (l.foldl (State.numbered sh ps k) s).physOf sh n = ps.getD n n ∧
      Tbl.get false (l.foldl (State.numbered sh ps k) s).absent (sh * 64 + n) = decide (k ≤ n) := by
  induction l using List.reverseRecOn with
  | nil => cases hn
  | append_singleton l j ih =>
    rw [List.foldl_append, List.foldl_cons, List.foldl_nil]
    by_cases hj : n = j
    · subst hj
      exact ⟨Tbl.get_put_same .., Tbl.get_set_same ..⟩
    · have hkey : sh * 64 + n ≠ sh * 64 + j := by omega
      obtain ⟨hp, ha⟩ := ih (by simpa [hj] using hn)
      exact ⟨(Tbl.get_put_ne _ _ _ _ _ hkey).trans hp, (Tbl.get_set_ne _ _ _ _ _ _ hkey).trans ha⟩

theorem State.foldl_numbered_other (sh : Nat) (ps : List Nat) (k : Nat) (l : List Nat) (s : State) {t : Nat}
    (ht : ∀ n ∈ l, t ≠ sh * 64 + n) :
    Tbl.get false (l.foldl (State.numbered sh ps k) s).absent t = Tbl.get false s.absent t :=
  List.foldlRecOn (motive := fun u : State => Tbl.get false u.absent t = Tbl.get false s.absent t) l _ rfl
    (fun _ hu n hn => (Tbl.get_set_ne _ _ _ _ _ _ (ht n hn)).trans hu)

/-- Settles O49: lanes, spares, mappings and fences by the branches of their rules. -/
theorem sparesAndFences : Obligations.SparesAndFences := by
  unfold Obligations.SparesAndFences
  intro s o sh
  refine ⟨fun d lane hrun => ?_, fun hrun d lane => congrArg Host.Outcome.next ?_, fun a b => rfl, fun ha => ?_,
    fun hb => congrArg Host.Outcome.next ?_, fun hb n s1 hn hs1 => ?_, fun p hp => State.freeSpare_spec hp, State.fenceSheaf_again,
    State.fenceSheaf_new, s.fenceSheaf_fenced sh⟩
  · have hx : exec (.d2dLaneRepair d lane) s = .next (s.laneRepair d lane.val) := congrArg Host.Outcome.next (if_pos hrun)
    refine ⟨fun hlt => hx.trans (congrArg Host.Outcome.next (if_pos hlt)), fun hle => ?_⟩
    have hlost : s.laneRepair d lane.val = s.connectionLost d := if_neg (Nat.not_lt.mpr hle)
    rw [hx, hlost]
    refine ⟨fun a b hd => ?_, fun m hd => ?_, fun p m hd => ?_⟩ <;> rw [hd] <;> rfl
  · rw [hrun]
    rfl
  · have htrig : (Reg.audited .SHF_SPARE = true) ∧ (Reg.triggers .SHF_SPARE = true) := by decide
    have hcmd (bit n : Nat) (act : State → State) : s.spareCmd o sh bit n act =
        s.auditOf (act (s.setFld .SHF_SPARE_N sh n)) true (Origin.audit o) .SHF_SPARE sh (2 ^ bit + n * 2 ^ 53) :=
      State.regCmd_trigger ha htrig.1 htrig.2 _ _ _
    have hstates (n lo hi : Nat) : (s.setFld .SHF_SPARE_N sh n).sheafStates sh lo hi = s.sheafStates sh lo hi :=
      State.sheafStates_setFld s _ _ _ _ _ (by decide)
    have hbusy (n : Nat) : (s.setFld .SHF_SPARE_N sh n).flag .SHF_SPARE_BUSY sh = s.flag .SHF_SPARE_BUSY sh :=
      State.flag_setFld_of_ne _ _ _ _ (by decide)
    refine ⟨fun n => ⟨fun hst hb => ?_, fun h => congrArg Host.Outcome.next ((hcmd 63 n _).trans ?_)⟩, fun hp => ?_,
      fun hp => congrArg Host.Outcome.next (State.rwpCmd_absent ha hp _ _ _), fun s1 hs1 => ⟨fun hst => ?_, fun hst => ?_, ?_⟩⟩
    · have htaken := State.mapSpare_taken n ((hstates n 2 6).trans hst) ((hbusy n).trans hb)
      refine ⟨(s.setFld .SHF_SPARE_N sh n).mapBegun sh n, congrArg Host.Outcome.next ((hcmd 63 n _).trans (by rw [htaken])),
        State.flag_setFlag_same _ (by decide) _ _, ?_, Tbl.get_put_same .., rfl⟩
      rw [State.mapBegun, State.setFlag, State.fld_setFld_of_ne _ _ _ _ (by decide)]
      exact (State.fld_setFld_same _ _ _ _).trans (Nat.mod_eq_of_lt n.isLt)
    · rw [State.mapSpare_refused n (by rw [hstates, hbusy]; exact h)]
    · exact ⟨_, congrArg Host.Outcome.next (State.rwpCmd_present ha hp _ _ _), fun n p hm hall => s.fuseSheaf_phys n.isLt hm hall 99, rfl⟩
    · refine congrArg Host.Outcome.next ((hcmd 61 _ _).trans ?_)
      rw [← hs1, State.renumber, if_pos hst]
    · have hby : s1.byPhysical sh = s.byPhysical sh := by rw [hs1]; rfl
      have hphys : s1.physOf sh = s.physOf sh := by rw [hs1]; rfl
      have hlen := s.byPhysical_length sh
      have he := State.renumber_eq hst
      rw [hby, hphys] at he
      refine ⟨s1.renumber sh, congrArg Host.Outcome.next ((hcmd 61 _ _).trans (by rw [← hs1])), fun n hn => ?_, fun n hle hn => ?_,
        fun t ht => ?_, ?_, ?_⟩
      · obtain ⟨hp, ha⟩ := State.foldl_numbered_mem sh ((s.byPhysical sh).map (s.physOf sh)) (s.byPhysical sh).length (List.range 64)
          (s1.moveTillers (newIndex (s.byPhysical sh) sh)) (List.mem_range.mpr (show n < 64 by omega))
        rw [he]
        refine ⟨hp.trans ?_, ha.trans (decide_eq_false (Nat.not_le.mpr hn))⟩
        rw [List.getD_eq_getElem _ _ (by rwa [List.length_map]), List.getElem_map, List.getD_eq_getElem _ _ hn]
      · rw [he]
        exact (State.foldl_numbered_mem _ _ _ _ _ (List.mem_range.mpr hn)).2.trans (decide_eq_true hle)
      · rw [he, State.foldl_numbered_other _ _ _ _ _ (fun n hn => by have := List.mem_range.mp hn; omega), hs1]
        rfl
      · rw [he, State.foldl_numbered, hs1]
        rfl
      · rw [he, State.foldl_numbered, hs1]
        rfl
    · exact congrArg Host.Outcome.next ((hcmd 60 _ _).trans (by rw [← hs1]))
  · exact if_neg (by rw [hb]; exact Bool.false_ne_true)
  · subst hn hs1
    refine ⟨fun p hp => ?_, fun hnone => ?_⟩
    · obtain ⟨hphys, hused, habsent⟩ := State.tillerMapped_numbers (s.setFlag .SHF_SPARE_BUSY sh false) sh
        (Tbl.get 0 s.power.mapping sh) p
      refine ⟨congrArg Host.Outcome.next ?_, ?_, ?_, ?_, ⟨_, State.tillerMapped_eq ..⟩⟩
      · rw [State.mapDone_busy hb, State.replaceTiller, hp]
      · rw [State.physOf, hphys, Tbl.get_put_same]
      · rw [hused, Tbl.get_set_same]
      · rw [habsent, Tbl.get_set_same]
    · refine ⟨congrArg Host.Outcome.next ?_, State.tillerAbsent_absent .., ⟨_, State.tillerAbsent_eq ..⟩⟩
      rw [State.mapDone_busy hb, State.replaceTiller, hnone]

end Sys2Proof.Machine
end

section
/-! PROOFS. The mirror, takeover, the log's replay and margins (R259, R455-R473). -/

namespace Sys2Proof.Machine

/-! ### A field written in full (R20) -/

/-- The written bits of a field under a full mask are all its bits. -/
theorem fullMask_field {lo w : Nat} (h : lo + w ≤ 64) : (2 ^ 64 - 1) / 2 ^ lo % 2 ^ w = 2 ^ w - 1 := by
  have hw : 2 ^ 64 = 2 ^ lo * 2 ^ (64 - lo) := by rw [← Nat.pow_add]; congr 1; omega
  have hq : (2 ^ 64 - 1) / 2 ^ lo = 2 ^ (64 - lo) - 1 := by
    have hpos : 0 < 2 ^ lo := Nat.two_pow_pos lo
    have hpos' : 0 < 2 ^ (64 - lo) := Nat.two_pow_pos _
    rw [hw, Nat.div_eq_iff hpos, Nat.sub_mul]
    have : 2 ^ lo ≤ 2 ^ (64 - lo) * 2 ^ lo := Nat.le_mul_of_pos_left _ hpos'
    rw [Nat.mul_comm (2 ^ lo)]
    omega
  have hsplit : 2 ^ (64 - lo) = 2 ^ w * 2 ^ (64 - lo - w) := by rw [← Nat.pow_add]; congr 1; omega
  have hpos : 0 < 2 ^ (64 - lo - w) := Nat.two_pow_pos _
  have hpw : 0 < 2 ^ w := Nat.two_pow_pos w
  obtain ⟨c, hc⟩ : ∃ c, 2 ^ (64 - lo - w) = c + 1 := ⟨_, (Nat.succ_pred_eq_of_pos hpos).symm⟩
  have hsum : 2 ^ w * (c + 1) - 1 = 2 ^ w - 1 + 2 ^ w * c := by rw [Nat.mul_add]; omega
  rw [hq, hsplit, hc, hsum, Nat.add_mul_mod_self_left, Nat.mod_eq_of_lt (by omega)]

/-- A value replaces the old one in every written bit. -/
theorem newBits_full (old v w : Nat) (hv : v < 2 ^ w) :
    ((old ^^^ (old &&& (2 ^ w - 1))) ||| (v &&& (2 ^ w - 1))) % 2 ^ w = v := by
  rw [Nat.and_two_pow_sub_one_eq_mod, Nat.and_two_pow_sub_one_eq_mod, Nat.mod_eq_of_lt hv]
  apply Nat.eq_of_testBit_eq
  intro b
  by_cases hb : b < w
  · simp [Nat.testBit_mod_two_pow, hb]
  · have hvb : v.testBit b = false := Nat.testBit_lt_two_pow (Nat.lt_of_lt_of_le hv (Nat.pow_le_pow_right (by decide) (by omega)))
    simp [Nat.testBit_mod_two_pow, hb, hvb]

theorem State.writeFld_full (s : State) {f : Fld} (hrw : f.info.access = .RW) (hlo : f.info.lo + f.width ≤ 64) (i v : Nat) :
    s.writeFld f i (2 ^ 64 - 1) v = s.setFld f i (v / 2 ^ f.info.lo) := by
  have hbits := newBits_full (s.fld f i) (v / 2 ^ f.info.lo % 2 ^ f.width) f.width (Nat.mod_lt _ (Nat.two_pow_pos _))
  rw [State.writeFld, hrw, fullMask_field hlo]
  dsimp only
  rw [← State.setFld_mod, hbits, State.setFld_mod]

/-! ### The mirror (R459-R461) -/

theorem State.mirrorCtrl_enabled {s : State} (h : s.flag .HBM_MIR_CTRL_ENABLE 0 = true) (v : Nat) :
    s.mirrorCtrl fullMask v = s.setFld .HBM_MIR_CTRL_ENABLE 0 (bitsOf v 63 63) := by
  have hfull := s.writeFld_full (f := .HBM_MIR_CTRL_ENABLE) (by decide) (by decide) 0 v
  rw [State.mirrorCtrl, if_pos h, fullMask, hfull, ← State.setFld_mod]
  rfl

/-- The mirror begins: every block is dirty. -/
def State.mirrorBegun (s : State) : State :=
  { s.syncValue.1 with mirror := { s.syncValue.1.mirror with dirty := [], allDirty := true, lastSync := s.syncValue.2, sync := none } }

theorem State.mirrorCtrl_disabled {s : State} (h : s.flag .HBM_MIR_CTRL_ENABLE 0 = false) (v : Nat) : s.mirrorCtrl fullMask v =
    if (s.writeReg .HBM_MIR_CTRL 0 fullMask v).flag .HBM_MIR_CTRL_ENABLE 0 = true then
      (s.writeReg .HBM_MIR_CTRL 0 fullMask v).mirrorBegun
    else s.writeReg .HBM_MIR_CTRL 0 fullMask v := if_neg (by rw [h]; exact Bool.false_ne_true)

theorem State.doSync_starts {s : State} (hr : s.ready = true) (hen : s.flag .HBM_MIR_CTRL_ENABLE 0 = true)
    (hsync : s.mirror.sync = none) : s.doSync =
      if s.mirror.lastSync < s.syncValue.2 then
        s.dirtyBlocks.foldl (fun s b => s.sendBlock b) { s.syncValue.1 with mirror := { s.syncValue.1.mirror with
          dirty := []
          allDirty := false
          lastSync := s.mirror.lastSync + 1
          sync := some (s.fld .HBM_MIR_STATUS_GEN 0 + 1) } }
      else s.syncValue.1 := by
  simp only [State.doSync, hr, hen, hsync, Option.isNone_none, Bool.and_self, if_true]

theorem State.doSyncDone_eq {s : State} (hrun : s.linksRun = true) (hsync : s.mirror.sync ≠ none) : s.doSyncDone =
    if (s.sendFlow (s.fld .HBM_MIR_CTRL_FLOW 0)).queue.isEmpty = true ∧ (s.sendFlow (s.fld .HBM_MIR_CTRL_FLOW 0)).retain.isEmpty = true then
      ((({ s with mirror := { s.mirror with sync := none } } : State).wrapAdd .HBM_MIR_STATUS_GEN 0 1).sendSignal 14
        (s.fld .HBM_MIR_CTRL_CTX 0) (s.fld .HBM_MIR_CTRL_DONE_VID 0) 1)
    else s := by
  have hs : s.mirror.sync.isSome = true := Option.isSome_iff_ne_none.mpr hsync
  simp only [State.doSyncDone, hrun, hs, Bool.true_and, Bool.and_eq_true]
  rfl

/-- A block whose bytes have all come is discarded on a holed page, and written otherwise. -/
theorem State.doCommit_whole {s : State} {blk : Nat} (hrun : s.linksRun = true) (hen : s.flag .HBM_MIR_REGION_ENABLE 0 = true)
    (hlen : 65536 ≤ (Tbl.get (0, []) s.mirror.rx blk).2.length) {base : Nat}
    (hbase : base = s.fld .HBM_MIR_REGION_BASE_PG 0 * 2 ^ 21 + blk * 65536) {s1 : State} (hs1 : s1 = (s.memWriteCells (roleAcc .mirror 0 5)
      ((Tbl.get (0, []) s.mirror.rx blk).2.map (fun p => (base + p.1, p.2)))).wrote base 65536) {s2 : State}
    (hs2 : s2 = s1.useFree.memWrite (roleAcc .mirror 0 5) (s.tagBase + 4 * blk) (clean (leBytes 4 (Config.syncNumber s1.fresh % 2 ^ 32)))) :
    s.doCommit blk = if s.accClass (roleAcc .mirror 0 5) base = 0x40 then
        (({ s with mirror := { s.mirror with rx := Tbl.del blk s.mirror.rx } } : State).setFlag .HBM_MIR_STATUS_DISCARD 0
          true).raiseNo 0x93 (linkUnit 5) blk
      else { s2 with mirror := { s2.mirror with rx := Tbl.del blk s2.mirror.rx } } := by
  subst hbase hs2 hs1
  simp only [State.doCommit, hrun, hen, hlen, decide_true, Bool.and_self, if_true]

theorem State.doCommit_part {s : State} {blk : Nat} (hlen : (Tbl.get (0, []) s.mirror.rx blk).2.length < 65536) :
    s.doCommit blk = s := by
  simp only [State.doCommit, Nat.not_le.mpr hlen, decide_false, Bool.and_false, Bool.false_eq_true, if_false]

/-! ### Takeover (R463) -/

theorem State.doNeighbourLost_eq {s : State} (hrun : s.linksRun = true) (h5 : s.portState 5 = 5) (hb : s.flag .MGT_PEER_BUSY 0 = false)
    (hn : s.fld .MGT_PEER_NODE 0 = s.minusZ) : s.doNeighbourLost =
      if s.fld .LNK_PEER_BYPASS 5 ≠ 0 ∧ s.fld .MGT_PEER_RESULT 0 ≠ 0 then s.raiseNo 0x90 (linkUnit 5) s.minusZ else s := by
  simp only [State.doNeighbourLost, hrun, h5, hb, hn, beq_self_eq_true, Bool.not_false, Bool.and_true, Bool.true_and, Bool.and_eq_true,
    bne_iff_ne]

/-! ### The log's replay (R468) -/

theorem State.logReplay_refused {s : State} {f : Nat} (h : s.flag .HBM_LOG_REPLAY_BUSY 0 = true ∨ (s.sendFlow f).opened = false) :
    s.logReplay f = s.setFld .HBM_LOG_REPLAY_FLOW 0 f := by
  have hc : (s.flag .HBM_LOG_REPLAY_BUSY 0 || !(s.sendFlow f).opened) = true := by
    rcases h with h | h <;> simp [h]
  simp only [State.logReplay, hc, if_true]

/-- A replay sends the records up to the first that is missing. -/
theorem State.logReplay_taken {s : State} {f : Nat} (hb : s.flag .HBM_LOG_REPLAY_BUSY 0 = false) (ho : (s.sendFlow f).opened = true)
    {l good : List LogRec} (hl : l = s.logRecs.filter (fun r => r.pkt.sflow.toNat == f)) (hgood : good = l.takeWhile s.recReadable)
    {s2 : State} (hs2 : s2 = (s.setFld .HBM_LOG_REPLAY_FLOW 0 f).setSendFlow f { s.sendFlow f with
      replayQ := (s.sendFlow f).replayQ ++ good.map (·.pkt) }) : s.logReplay f =
      if good.length < l.length ∨ s.logOvf = true then
        (s2.setFlag .HBM_LOG_REPLAY_FAIL 0 true).raiseCtx 0x92 (s.fld .HBM_LOG_CTRL_CTX 0) (linkUnit 0)
          (f + ((l.drop good.length).head?.map (·.mb)).getD (s.sendFlow f).sigs * 2 ^ 32)
      else s2.setFlag .HBM_LOG_REPLAY_BUSY 0 true := by
  subst hs2 hgood hl
  simp only [State.logReplay, hb, ho, Bool.not_true, Bool.or_self, Bool.false_eq_true, if_false, Bool.or_eq_true, decide_eq_true_eq]

theorem State.doReplayDone_busy {s : State} (hb : s.flag .HBM_LOG_REPLAY_BUSY 0 = true) : s.doReplayDone =
    if (s.sendFlow (s.fld .HBM_LOG_REPLAY_FLOW 0)).replayQ.isEmpty = true then s.setFlag .HBM_LOG_REPLAY_BUSY 0 false else s := by
  simp only [State.doReplayDone, hb, Bool.true_and]

/-! ### SKIP (R467) -/

theorem State.flowSkip_open {s : State} {f : Nat} (ho : (s.sendFlow f).opened = true) (skip : Nat) : s.flowSkip f skip =
    ((s.setFld .FAB_FLOW_SKIP_FLOW 0 f).setFld .FAB_FLOW_SKIP_SKIP 0 skip).setSendFlow f { s.sendFlow f with skip := skip } :=
  if_pos ho

theorem State.flowSkip_closed {s : State} {f : Nat} (ho : (s.sendFlow f).opened = false) (skip : Nat) : s.flowSkip f skip =
    (s.setFld .FAB_FLOW_SKIP_FLOW 0 f).setFld .FAB_FLOW_SKIP_SKIP 0 skip := if_neg (by rw [ho]; exact Bool.false_ne_true)

theorem State.flowSkip_regs (s : State) (f skip : Nat) :
    (s.flowSkip f skip).regs = ((s.setFld .FAB_FLOW_SKIP_FLOW 0 f).setFld .FAB_FLOW_SKIP_SKIP 0 skip).regs := by
  cases ho : (s.sendFlow f).opened
  · rw [State.flowSkip_closed ho]
  · rw [State.flowSkip_open ho]
    rfl

theorem State.flowSkip_outside (s : State) (f skip : Nat) :
    s.flowSkip f skip = { s with regs := (s.flowSkip f skip).regs, sendFlows := (s.flowSkip f skip).sendFlows } := by
  cases ho : (s.sendFlow f).opened
  · rw [State.flowSkip_closed ho]
    rfl
  · rw [State.flowSkip_open ho]
    rfl

/-! ### Margins (R472, R473) -/

theorem State.doMargins_eq {s : State} (hrun : s.linksRun = true) (hen : s.flag .HLT_MARGIN_CFG_EN 0 = true) (l : List MarginReading)
    {s1 : State} (hs1 : s1 = { s with power := { s.power with marginAt := some s.now } }) : s.doMargins l =
      if s.marginDue = true then l.foldl (fun s r => s.marginOne r) (s1.marginWorst l) else s := by
  subst hs1
  simp only [State.doMargins, hrun, hen, Bool.and_self, Bool.true_and]
  rfl

theorem State.marginDue_since {s : State} {t : Nat} (h : s.power.marginAt = some t) :
    s.marginDue = decide (t + s.fld .HLT_MARGIN_CFG_PERIOD_S 0 * 10 ^ 9 ≤ s.now) := by
  simp only [State.marginDue, h]
  norm_num

/-- A reading against its two bounds. -/
theorem State.marginCheck_cases (s : State) (warn limit : Fld) (i v detail : Nat) {w l : Nat} (hle : l ≤ w) {s1 : State}
    (hs1 : s1 = (s.setFlag warn i true).raiseNo 0x98 ⟨8, 0⟩ detail) :
    (w ≤ v → s.marginCheck warn limit i v w l detail = s) ∧
    (l ≤ v → v < w → s.marginCheck warn limit i v w l detail = s1) ∧
    (v < l → s.marginCheck warn limit i v w l detail = (s1.setFlag limit i true).raiseNo 0x99 ⟨8, 0⟩ detail) := by
  subst hs1
  refine ⟨fun h => ?_, fun h1 h2 => ?_, fun h => ?_⟩
  · simp only [State.marginCheck, if_neg (show ¬ v < w by omega), if_neg (show ¬ v < l by omega)]
  · simp only [State.marginCheck, if_pos h2, if_neg (show ¬ v < l by omega)]
    rfl
  · simp only [State.marginCheck, if_pos (show v < w by omega), if_pos h]
    rfl

/-- Settles O50: the mirror, the flows and the margins by the branches of their rules. -/
theorem mirrorsAndTakeover : Obligations.MirrorsAndTakeover := by
  unfold Obligations.MirrorsAndTakeover
  intro s o
  refine ⟨fun v ha => ⟨fun hen => congrArg Host.Outcome.next ?_, fun hen s1 hs1 => ⟨fun h1 => congrArg Host.Outcome.next ?_,
      fun h1 => ?_⟩⟩, fun hr hen hsync => ⟨fun hlt => congrArg Host.Outcome.next ?_, fun hle => congrArg Host.Outcome.next ?_⟩,
    fun hen => congrArg Host.Outcome.next ?_, fun hrun hsync x hx => ⟨fun hq ht => congrArg Host.Outcome.next ?_,
      fun h => congrArg Host.Outcome.next ?_⟩, fun blk cells base hcells hbase hrun hen => ?_,
    fun hrun h5 hb hn => ⟨fun h1 h2 => congrArg Host.Outcome.next ?_, fun h => congrArg Host.Outcome.next ?_⟩,
    fun flow f hf => ⟨fun ha => congrArg Host.Outcome.next ?_, fun skip ha => ?_, fun ha s1 hs1 => ?_⟩,
    fun hb => ⟨fun he => congrArg Host.Outcome.next ?_, fun hne => congrArg Host.Outcome.next ?_⟩,
    fun l s1 hrun hen hs1 => ?_, fun hen l => congrArg Host.Outcome.next ?_,
    fun warn limit i v w l detail s1 hle hs1 => s.marginCheck_cases warn limit i v detail hle hs1, fun sh n ps => rfl,
    fun sh mv => rfl, fun p c db s1 hs1 => by rw [hs1]; rfl⟩
  · rw [State.regCmd_change ha (by decide) (by decide), State.mirrorCtrl_enabled hen]
  · rw [State.regCmd_change ha (by decide) (by decide), State.mirrorCtrl_disabled hen, if_neg (by rw [fullMask, ← hs1, h1]; exact Bool.false_ne_true),
      hs1]
    rfl
  · refine ⟨s1.mirrorBegun, congrArg Host.Outcome.next ?_, rfl, rfl, rfl⟩
    rw [State.regCmd_change ha (by decide) (by decide), State.mirrorCtrl_disabled hen, if_pos (by rw [fullMask, ← hs1, h1]), hs1]
    rfl
  · rw [State.doSync_starts hr hen hsync, if_pos hlt]
  · rw [State.doSync_starts hr hen hsync, if_neg (Nat.not_lt.mpr hle)]
  · simp only [State.doSync, hen, Bool.and_false, Bool.false_and, Bool.false_eq_true, if_false]
  · subst hx
    rw [State.doSyncDone_eq hrun hsync, if_pos ⟨List.isEmpty_iff.mpr hq, List.isEmpty_iff.mpr ht⟩]
  · subst hx
    refine (State.doSyncDone_eq hrun hsync).trans (if_neg ?_)
    rintro ⟨hq, ht⟩
    exact h.elim (fun h => h (List.isEmpty_iff.mp hq)) (fun h => h (List.isEmpty_iff.mp ht))
  · subst hcells
    obtain ⟨s0, hs0⟩ : ∃ s0, s0 = (s.memWriteCells (roleAcc .mirror 0 5)
      ((Tbl.get (0, []) s.mirror.rx blk).2.map (fun p => (base + p.1, p.2)))).wrote base 65536 := ⟨_, rfl⟩
    refine ⟨fun hlen hcls s1 hs1 => ⟨leBytes 4 (Config.syncNumber s0.fresh % 2 ^ 32), leBytes_length _ _, _, rfl,
        congrArg Host.Outcome.next ?_⟩,
      fun hlen hcls => congrArg Host.Outcome.next ?_, fun hlen => congrArg Host.Outcome.next (State.doCommit_part hlen)⟩
    · rw [State.doCommit_whole hrun hen hlen hbase hs0 rfl, if_neg hcls, hs1, ← hs0]
    · rw [State.doCommit_whole hrun hen hlen hbase hs0 rfl, if_pos hcls]
  · rw [State.doNeighbourLost_eq hrun h5 hb hn, if_pos ⟨h1, h2⟩]
  · refine (State.doNeighbourLost_eq hrun h5 hb hn).trans (if_neg ?_)
    rintro ⟨h1, h2⟩
    exact h.elim h1 h2
  · subst hf
    rw [State.regCmd_trigger ha (by decide) (by decide)]
    rfl
  · subst hf
    refine ⟨s.flowSkip flow.toNat skip.toNat, congrArg Host.Outcome.next (State.regCmd_trigger ha (by decide) (by decide) _ _ _),
      fun ho => ?_, fun ho => ?_, fun j hj => ?_, ?_, s.flowSkip_outside _ _⟩
    · rw [State.flowSkip_open ho]
      exact State.sendFlow_setSendFlow ..
    · rw [State.flowSkip_closed ho]
      rfl
    · cases ho : (s.sendFlow flow.toNat).opened
      · rw [State.flowSkip_closed ho]
        rfl
      · rw [State.flowSkip_open ho]
        exact Tbl.get_put_ne _ _ _ _ _ hj
    · have hregs := s.flowSkip_regs flow.toNat skip.toNat
      simp only [State.fld, hregs]
      exact (State.fld_setFld_same _ .FAB_FLOW_SKIP_SKIP 0 skip.toNat).trans (Nat.mod_eq_of_lt skip.isLt)
  · subst hf
    refine ⟨fun h => congrArg Host.Outcome.next ?_, fun l hb ho hl => ⟨fun hall hovf => congrArg Host.Outcome.next ?_,
      fun a b r hsplit ha' hr => congrArg Host.Outcome.next ?_⟩⟩
    · rw [State.regCmd_trigger ha (by decide) (by decide), State.logReplay_refused h, ← hs1]
    · have hgood : l = l.takeWhile s.recReadable := (List.takeWhile_eq_self_iff.mpr hall).symm
      rw [State.regCmd_trigger ha (by decide) (by decide), State.logReplay_taken hb ho hl hgood rfl,
        if_neg (by rw [hovf]; simp), ← hs1]
    · have hgood : a = l.takeWhile s.recReadable := by
        rw [hsplit, List.takeWhile_append_of_pos ha', List.takeWhile_cons_of_neg (by rw [hr]; exact Bool.false_ne_true),
          List.append_nil]
      have hlen : a.length < l.length := by rw [hsplit]; simp
      have hnext : ((l.drop a.length).head?.map (·.mb)).getD (s.sendFlow flow.toNat).sigs = r.mb := by
        rw [hsplit, List.drop_left]
        rfl
      rw [State.regCmd_trigger ha (by decide) (by decide), State.logReplay_taken hb ho hl hgood rfl, if_pos (Or.inl hlen), hnext,
        ← hs1]
  · rw [State.doReplayDone_busy hb, if_pos (List.isEmpty_iff.mpr he)]
  · exact (State.doReplayDone_busy hb).trans (if_neg (fun he => hne (List.isEmpty_iff.mp he)))
  · have heq := State.doMargins_eq hrun hen l hs1
    refine ⟨fun hn => congrArg Host.Outcome.next (heq.trans (if_pos ?_)), fun t ht => ⟨fun hle => congrArg Host.Outcome.next
      (heq.trans (if_pos ?_)), fun hlt => congrArg Host.Outcome.next (heq.trans (if_neg ?_))⟩⟩
    · simp only [State.marginDue, hn]
    · rw [State.marginDue_since ht]
      exact decide_eq_true hle
    · rw [State.marginDue_since ht, decide_eq_true_eq]
      omega
  · simp only [State.doMargins, hen, Bool.and_false, Bool.false_and, Bool.false_eq_true, if_false]

end Sys2Proof.Machine
end

section
/-! PROOFS. Supplies and main power (R482-R492, R503, R554, R559, R568). -/

namespace Sys2Proof.Machine

/-! ### Tables of which a part is kept -/

theorem Tbl.get_filter_key {α : Type} (d : α) (P : Nat → Bool) (t : Table α) (k : Nat) :
    Tbl.get d (t.filter (fun p => P p.1)) k = if P k = true then Tbl.get d t k else d := by
  induction t with
  | nil => simp
  | cons p t ih =>
    obtain ⟨j, v⟩ := p
    by_cases hj : P j = true
    · rw [List.filter_cons_of_pos (by exact hj)]
      by_cases hk : k = j
      · subst hk
        simp [Tbl.get, hj]
      · simp only [Tbl.get, if_neg hk, ih]
    · rw [List.filter_cons_of_neg (by exact hj), ih]
      by_cases hk : k = j
      · subst hk
        rw [if_neg hj, if_neg hj]
      · simp only [Tbl.get, if_neg hk]

/-! ### The switches and the ports let go (R346, R347) -/

/-- Outputs and switches are all that the release of the switches changes. -/
theorem State.releaseSwitches_outside (s : State) : s.releaseSwitches = { s with
    out := s.releaseSwitches.out
    power := { s.power with switches := s.releaseSwitches.power.switches } } := by
  unfold State.releaseSwitches
  refine List.foldlRecOn (motive := fun u : State => u = { s with
    out := u.out
    power := { s.power with switches := u.power.switches } }) _ _ rfl (fun u hu a _ => ?_)
  unfold State.driveSwitch
  split
  · exact hu
  · rw [hu]
    rfl

theorem State.driveSwitch_off_ne (s : State) {a b : Nat} (h : s.power.switches.getLsbD b = false) :
    (s.driveSwitch a false).power.switches.getLsbD b = false := by
  unfold State.driveSwitch
  split
  · exact h
  · simp [h]

theorem State.releaseSwitches_switches (s : State) : s.releaseSwitches.power.switches = 0 := by
  have hstay (l : List Nat) (u : State) (b : Nat) (h : u.power.switches.getLsbD b = false) :
      (l.foldl (fun s a => s.driveSwitch a false) u).power.switches.getLsbD b = false :=
    List.foldlRecOn (motive := fun v : State => v.power.switches.getLsbD b = false) l _ h
      (fun v hv a _ => v.driveSwitch_off_ne hv)
  have hbit (l : List Nat) (u : State) (b : Nat) (hb : b < 4) (hmem : b ∈ l) :
      (l.foldl (fun s a => s.driveSwitch a false) u).power.switches.getLsbD b = false := by
    induction l generalizing u with
    | nil => cases hmem
    | cons a l ih =>
      rcases List.mem_cons.mp hmem with rfl | h
      · exact hstay l _ b (u.driveSwitch_bit hb false)
      · exact ih _ h
  apply BitVec.eq_of_getLsbD_eq
  intro b hb
  rw [State.releaseSwitches, hbit _ _ b hb (List.mem_range.mpr hb)]
  simp

theorem State.releaseSwitches_sends (s : State) {x : Output} (h : x ∈ s.out) : x ∈ s.releaseSwitches.out := by
  unfold State.releaseSwitches
  refine List.foldlRecOn (motive := fun u : State => x ∈ u.out) _ _ h (fun u hu a _ => ?_)
  unfold State.driveSwitch
  split
  · exact hu
  · exact List.mem_cons_of_mem _ hu

/-- Outputs and ports are all that LEAVING changes. -/
theorem State.leaveAll_outside (s : State) : s.leaveAll = { s with out := s.leaveAll.out, ports := s.leaveAll.ports } := by
  unfold State.leaveAll
  refine List.foldlRecOn (motive := fun u : State => u = { s with out := u.out, ports := u.ports }) _ _ rfl (fun u hu p _ => ?_)
  rw [hu]
  rfl

/-- The flags of a link-control flit: LEAVING is its second bit. -/
theorem State.lcfBytes_leaving (s : State) (p type : Nat) (urgent : Bool) (pause : Option Nat)
    (h : (s.port p).leaving.isSome = true) : lcfField (s.lcfBytes p type urgent pause) 1 1 1 = 1 := by
  obtain ⟨b, tail, hcons⟩ : ∃ b tail, s.lcfBytes p type urgent pause = b :: BitVec.ofNat 8 ((if urgent then 1 else 0) +
      (if (s.port p).leaving.isSome then 2 else 0) + (if s.strict then 4 else 0) + (if (s.port p).rxD.nak then 8 else 0) +
      (if (s.port p).rxC.nak then 16 else 0) + (if pause.isSome then 32 else 0)) :: tail := ⟨_, _, rfl⟩
  have hbit (x y z : Nat) (hx : x < 256) (hy : y / 2 % 2 = 1) : bitsOf (x + 256 * (y + 256 * z)) (8 * 1 + 1) (8 * 1 + 1) = 1 := by
    rw [bitsOf]
    norm_num
    omega
  rw [lcfField, hcons, leNat, leNat]
  refine hbit _ _ _ b.isLt ?_
  rw [BitVec.toNat_ofNat, h, if_pos rfl]
  split_ifs <;> rfl

/-- What LEAVING sends on each port that carries a stream. -/
theorem State.leave_sends (s : State) (p : Nat) : ∃ b : List Byte, Output.lcf p true b ∈ (s.leave p).out ∧ lcfField b 1 1 1 = 1 := by
  refine ⟨_, List.mem_cons_self, State.lcfBytes_leaving _ _ _ _ _ ?_⟩
  simp [State.port, State.setPort]

theorem State.leaveAll_sends (s : State) {p : Nat} (hp : p < 8) (h4 : 4 ≤ s.portState p) (h5 : s.portState p ≤ 5) :
    ∃ b : List Byte, Output.lcf p true b ∈ s.leaveAll.out ∧ lcfField b 1 1 1 = 1 := by
  have hkeep (l : List Nat) (u : State) (x : Output) (hx : x ∈ u.out) : x ∈ (l.foldl State.leave u).out :=
    List.foldlRecOn (motive := fun v : State => x ∈ v.out) l _ hx (fun v hv _ _ => List.mem_cons_of_mem _ hv)
  have hsent (l : List Nat) (u : State) (hmem : p ∈ l) :
      ∃ b : List Byte, Output.lcf p true b ∈ (l.foldl State.leave u).out ∧ lcfField b 1 1 1 = 1 := by
    induction l generalizing u with
    | nil => cases hmem
    | cons a l ih =>
      rcases List.mem_cons.mp hmem with rfl | h
      · obtain ⟨b, hb, hf⟩ := u.leave_sends p
        exact ⟨b, hkeep l _ _ hb, hf⟩
      · exact ih _ h
  refine hsent _ s (List.mem_filter.mpr ⟨List.mem_range.mpr hp, ?_⟩)
  simp [h4, h5]

/-! ### The reset of the main domain (R491) -/

/-- The release of the switches leaves memory, the lists and the log as they are. -/
theorem State.resetMain_parts (s : State) : s.resetMain.retired = s.retired ∧ s.resetMain.audit = s.audit ∧ s.resetMain.flash = s.flash ∧
    s.resetMain.mem = s.mem.filter (fun p => outside p.1) ∧
    s.resetMain.regs = s.regs.filter (fun p => keptCodes.contains (p.1 % 1024)) ∧
    s.resetMain.power = { s.power.mainReset with switches := 0 } := by
  have h := s.releaseSwitches_outside
  have hpower : s.resetMain.power = { s.power.mainReset with switches := 0 } := by
    rw [State.resetMain]
    dsimp only
    rw [h]
    rfl
  refine ⟨?_, ?_, ?_, ?_, ?_, hpower⟩ <;> (rw [State.resetMain]; dsimp only; rw [h])

theorem State.resetMain_fld (s : State) (f : Fld) (i : Nat) (hf : f.ctorIdx < 1024) :
    s.resetMain.fld f i = if keptCodes.contains f.ctorIdx = true then s.fld f i else (BitVec.ofNat 64 f.info.reset).toNat := by
  obtain ⟨-, -, -, -, hregs, -⟩ := s.resetMain_parts
  have hkey : fkey f i % 1024 = f.ctorIdx := by
    rw [fkey]
    omega
  rw [State.fld, hregs, Tbl.get_filter_key _ (fun k => keptCodes.contains (k % 1024)), hkey]
  split <;> rfl

theorem State.resetMain_peek (s : State) (a : Nat) : s.resetMain.peek a = if 0x400000000000 ≤ a then s.peek a else 0 := by
  obtain ⟨-, -, -, hmem, -, -⟩ := s.resetMain_parts
  rw [State.peek, hmem, Tbl.get_filter_key _ outside, outside]
  simp only [decide_eq_true_eq]
  rfl

theorem State.mainOff_fld (s : State) (f : Fld) (i : Nat) : s.mainOff.fld f i = s.resetMain.fld f i := rfl

/-- What main off leaves. -/
theorem State.mainOff_parts (s : State) : s.mainOff.retired = s.retired ∧ s.mainOff.audit = s.audit ∧ s.mainOff.flash = s.flash ∧
    s.mainOff.power = { s.power.mainReset with switches := 0 } := by
  obtain ⟨hret, haud, hfl, -, -, hpow⟩ := s.resetMain_parts
  exact ⟨hret, haud, hfl, hpow⟩

/-- A field that no reset keeps is at its reset value. -/
theorem State.mainOff_reset (s : State) {f : Fld} (i : Nat) (hf : f.ctorIdx < 1024) (hk : keptCodes.contains f.ctorIdx = false) :
    s.mainOff.fld f i = (BitVec.ofNat 64 f.info.reset).toNat := by
  rw [State.mainOff_fld, State.resetMain_fld s f i hf, hk, if_neg Bool.false_ne_true]

/-! ### A start of the part (R488, R559, R560) -/

/-- The fields of the firmware and of its allow list. -/
def firmwareFlds : List Fld :=
  [.SEC_ALLOW_VENDOR, .SEC_ALLOW_DEVICE, .SEC_ALLOW_MIN_FW, .SEC_ALLOW_VALID, .SEC_STATUS_ALLOW_COUNT, .SEC_STATUS_ALLOW_LOADED,
    .MGT_FW_SLOT, .MGT_FW_RUN_VER, .MGT_FW_TRIAL, .MGT_FW_STAGE]

/-- t differs from s in the firmware's fields only. -/
structure Firmware (s t : State) : Prop where
  outside : t = { s with regs := t.regs }
  fld : ∀ (g : Fld) (j : Nat), g ∉ firmwareFlds → t.fld g j = s.fld g j

namespace Firmware

theorem refl (s : State) : Firmware s s := ⟨rfl, fun _ _ _ => rfl⟩

theorem trans {s t u : State} (h : Firmware s t) (k : Firmware t u) : Firmware s u :=
  ⟨k.outside.trans (by rw [h.outside]), fun g j hg => (k.fld g j hg).trans (h.fld g j hg)⟩

theorem setFld (s : State) {f : Fld} (i v : Nat) (hf : f ∈ firmwareFlds) : Firmware s (s.setFld f i v) :=
  ⟨rfl, fun _ _ hg => State.fld_setFld_of_ne _ _ _ _ (fun e => hg (e ▸ hf))⟩

end Firmware

theorem State.fillAllow_firmware (s : State) (k e : Nat) : Firmware s (s.fillAllow k e) :=
  (((Firmware.setFld s k _ (by decide)).trans (.setFld _ k _ (by decide))).trans (.setFld _ k _ (by decide))).trans
    (.setFld _ k _ (by decide))

theorem State.loadAllow_firmware (s : State) : Firmware s s.loadAllow := by
  have hfold (l : List Nat) : Firmware s
      (l.foldl (fun t k => t.fillAllow k (Config.allowEntry (s.fld .MGT_FW_RUN_VER 0) k).toNat) s) :=
    List.foldlRecOn (motive := fun u : State => Firmware s u) l _ (.refl s) (fun u hu k _ => hu.trans (u.fillAllow_firmware k _))
  unfold State.loadAllow
  exact ((hfold _).trans (.setFld _ 0 _ (by decide))).trans (.setFld _ 0 _ (by decide))

theorem State.loadAllow_loaded (s : State) : s.loadAllow.flag .SEC_STATUS_ALLOW_LOADED 0 = true :=
  State.flag_setFlag_same _ (by decide) _ _

theorem State.startFirmware_loaded (s : State) : s.startFirmware.flag .SEC_STATUS_ALLOW_LOADED 0 = true := by
  unfold State.startFirmware
  split
  · exact State.loadAllow_loaded _
  · exact State.loadAllow_loaded _

/-- A start of the firmware changes its fields, and takes the activation. -/
theorem State.startFirmware_firmware (s : State) : Firmware { s with power := { s.power with activated := false } } s.startFirmware := by
  unfold State.startFirmware
  split
  next h =>
    have hset (u : State) (v w : Nat) : Firmware u ((((u.setFld .MGT_FW_SLOT 0 w).setFld .MGT_FW_RUN_VER 0 v).setFlag
        .MGT_FW_TRIAL 0 true).setFld .MGT_FW_STAGE 0 0) :=
      (((Firmware.setFld u 0 w (by decide)).trans (.setFld _ 0 v (by decide))).trans (.setFld _ 0 _ (by decide))).trans
        (.setFld _ 0 0 (by decide))
    exact (hset _ _ _).trans (State.loadAllow_firmware _)
  next h =>
    have hs : ({ s with power := { s.power with activated := false } } : State) = s := by
      rw [← Bool.eq_false_iff.mpr h]
    rw [hs]
    exact State.loadAllow_firmware s

/-- Debug is locked at a start; only the log changes besides. -/
theorem State.relock_locked (s : State) : s.relock.flag .MGT_DEBUG_UNLOCKED 0 = false := by
  cases h : s.flag .MGT_DEBUG_UNLOCKED 0
  · rw [State.relock, h, if_neg Bool.false_ne_true]
    exact h
  · rw [State.relock, h, if_pos rfl]
    exact (State.flag_congr ((State.audit!_reports _ true _ 0 0xFFFFFFFF 0 0 0).fld _ 0 (by decide))).trans
      (State.flag_setFlag_same _ (by decide) _ _)

theorem State.relock_power (s : State) : s.relock.power = s.power := by
  unfold State.relock
  split
  · rw [(State.audit!_reports (s.setFlag .MGT_DEBUG_UNLOCKED 0 false) true ⟨5, mgtUnit.kind * 4096 + mgtUnit.idx⟩ 0 0xFFFFFFFF 0 0 0).outside]
    rfl
  · rfl

theorem State.relock_of_locked {s : State} (h : s.flag .MGT_DEBUG_UNLOCKED 0 = false) : s.relock = s :=
  if_neg (by rw [h]; exact Bool.false_ne_true)

/-- The part before its firmware starts, when main power is released. -/
def State.powered (s : State) : State :=
  { (if s.relock.power.thermtrip then s.relock.emit (.thermtrip false) else s.relock) with
    power := { s.power with thermtrip := false, boots := s.power.boots + 1 } }

theorem State.releaseMain_eq (s : State) : s.releaseMain = s.powered.startFirmware.setFld .PWR_STATUS_STATE 0 1 := by
  have h : s.powered = { (if s.relock.power.thermtrip then s.relock.emit (.thermtrip false) else s.relock) with
      power := { (if s.relock.power.thermtrip then s.relock.emit (.thermtrip false) else s.relock).power with
        thermtrip := false
        boots := (if s.relock.power.thermtrip then s.relock.emit (.thermtrip false) else s.relock).power.boots + 1 } } := by
    have hp : (if s.relock.power.thermtrip then s.relock.emit (.thermtrip false) else s.relock).power = s.power := by
      split
      · exact s.relock_power
      · exact s.relock_power
    rw [hp]
    rfl
  rw [h]
  rfl

theorem State.powered_regs (s : State) : s.powered.regs = s.relock.regs := by
  unfold State.powered
  split <;> rfl

theorem State.powered_mem (s : State) : s.powered.mem = s.relock.mem := by
  unfold State.powered
  split <;> rfl

/-- What the release of main power leaves for the start of the part. -/
theorem State.releaseMain_facts (s : State) : s.releaseMain.fld .PWR_STATUS_STATE 0 = 1 ∧ s.releaseMain.power.thermtrip = false ∧
    s.releaseMain.power.boots = s.power.boots + 1 ∧ s.releaseMain.flag .SEC_STATUS_ALLOW_LOADED 0 = true ∧
    s.releaseMain.flag .MGT_DEBUG_UNLOCKED 0 = false ∧ (s.flag .MGT_DEBUG_UNLOCKED 0 = false → s.releaseMain.mem = s.mem) := by
  have hf := s.powered.startFirmware_firmware
  have hpower : s.releaseMain.power = { s.power with thermtrip := false, boots := s.power.boots + 1, activated := false } := by
    rw [State.releaseMain_eq, State.setFld_power, hf.outside]
    rfl
  refine ⟨?_, by rw [hpower], by rw [hpower], ?_, ?_, fun h => ?_⟩
  · rw [State.releaseMain_eq]
    exact State.fld_setFld_same _ _ _ _
  · rw [State.releaseMain_eq, State.flag_setFld_of_ne _ _ _ _ (by decide)]
    exact State.startFirmware_loaded _
  · rw [State.releaseMain_eq, State.flag_setFld_of_ne _ _ _ _ (by decide)]
    have hfld := hf.fld .MGT_DEBUG_UNLOCKED 0 (by decide)
    refine (State.flag_congr (hfld.trans ?_)).trans s.relock_locked
    have hregs := s.powered_regs
    simp only [State.fld, hregs]
  · rw [State.releaseMain_eq, State.setFld_mem, hf.outside]
    exact s.powered_mem.trans (by rw [State.relock_of_locked h])

theorem State.mayRelease_iff (s : State) : s.mayRelease = true ↔ s.power.auxGood = true ∧ s.power.vinGood = true ∧
    s.power.seated = true ∧ s.fld .PWR_STATUS_STATE 0 = 0 ∧
      (s.power.thermtrip = true → ∀ p ∈ s.power.temps, sensorLevel p.1 p.2 = 0) := by
  cases ht : s.power.thermtrip <;> simp [State.mayRelease, ht, and_assoc]

/-! ### Shutdown (R487) -/

theorem State.shutdown_eq {s : State} (h : s.fld .PWR_STATUS_STATE 0 ≠ 0) (cause : Nat) : s.shutdown cause =
    (((s.setFld .PWR_STATUS_STATE 0 7).leaveAll.releaseSwitches).raiseNo 0x03 ⟨8, 0⟩ cause).mainOff := if_neg h

/-! ### The end of the hold-up (R554) -/

theorem State.auditFlush_power (s : State) : s.auditFlush.power = s.power := by
  have hfold (first : Nat) (l : List Nat) : (l.foldl (fun s k => s.flashOne (first + k)) s).power = s.power :=
    List.foldlRecOn (motive := fun u : State => u.power = s.power) l _ rfl (fun _ hu _ _ => hu)
  unfold State.auditFlush
  dsimp only
  split
  · rw [(State.raiseNo_reports _ _ _ _).outside]
    exact hfold _ _
  · exact hfold _ _

/-- A fused field, or one in flash, stands through the end of the hold-up; any other is reset. -/
theorem State.doHoldup_fld {s : State} (ha : s.power.auxGood = false) (hv : s.power.vinGood = false) (f : Fld) (i : Nat)
    (hf : f.ctorIdx < 1024) : s.doHoldup.fld f i =
      if (fusedFlds.map (·.ctorIdx)).contains f.ctorIdx = true then s.auditFlush.mainOff.fld f i
      else (BitVec.ofNat 64 f.info.reset).toNat := by
  have hregs : s.doHoldup.regs = s.auditFlush.mainOff.regs.filter (fun p => (fusedFlds.map (·.ctorIdx)).contains (p.1 % 1024)) := by
    rw [State.doHoldup, ha, hv]
    rfl
  have hkey : fkey f i % 1024 = f.ctorIdx := by
    rw [fkey]
    omega
  rw [State.fld, hregs, Tbl.get_filter_key _ (fun k => (fusedFlds.map (·.ctorIdx)).contains (k % 1024)), hkey]
  split <;> rfl

theorem State.doHoldup_kept {s : State} (ha : s.power.auxGood = false) (hv : s.power.vinGood = false) {f : Fld} (i : Nat)
    (hf : f.ctorIdx < 1024) (hfused : (fusedFlds.map (·.ctorIdx)).contains f.ctorIdx = true)
    (hkept : keptCodes.contains f.ctorIdx = true) : s.doHoldup.fld f i = s.auditFlush.fld f i := by
  rw [State.doHoldup_fld ha hv f i hf, if_pos hfused, State.mainOff_fld, State.resetMain_fld _ f i hf, if_pos hkept]

/-- Settles O51: main power by the rules of its supplies, and a shutdown by the steps that it takes. -/
theorem suppliesRuleMain : Obligations.SuppliesRuleMain := by
  unfold Obligations.SuppliesRuleMain
  intro s
  have hkept : keptCodes.contains Fld.MGT_FW_SLOT.ctorIdx = true ∧ keptCodes.contains Fld.LNK_CHFUSE_TX_FUSED.ctorIdx = true ∧
      keptCodes.contains Fld.PWR_STATUS_STATE.ctorIdx = false ∧ keptCodes.contains Fld.PWR_STATUS_READY.ctorIdx = false := by
    decide +kernel
  obtain ⟨hslot, hfuse, hstate, hready⟩ := hkept
  refine ⟨fun s1 hs1 => ⟨fun hm ha => congrArg Host.Outcome.next ?_, fun h => congrArg Host.Outcome.next ?_⟩, s.mayRelease_iff.mp,
    s.releaseMain_facts, fun o ha => ⟨fun hm => congrArg Host.Outcome.next ?_, fun hm => congrArg Host.Outcome.next ?_,
      congrArg Host.Outcome.next ?_⟩, fun cause => ⟨fun h => if_pos h, fun h => ⟨_, State.shutdown_eq h cause, ?_, ?_, ?_, ?_,
        fun p hp h4 h5 => ?_⟩⟩, ⟨?_, ?_, rfl, rfl, rfl, ?_, fun a ha => ?_, fun a ha => ?_, fun f i hf hk => ?_,
      s.mainOff_parts.1, s.mainOff_parts.2.1, s.mainOff_parts.2.2.1⟩, ⟨_, rfl, rfl⟩, ⟨_, rfl, rfl⟩,
    fun h => congrArg Host.Outcome.next (if_pos h), fun h => congrArg Host.Outcome.next (if_neg h), ⟨_, rfl,
      congrArg Host.Outcome.next ?_⟩, fun addr => ⟨fun h => congrArg Host.Outcome.next ?_, fun h =>
        ⟨{ s with power := { s.power with auxGood := true, straps := addr } }, congrArg Host.Outcome.next ?_, rfl, rfl, rfl⟩⟩, fun h => congrArg Host.Outcome.next ?_, fun h s1 hs1 => ⟨fun hv => congrArg Host.Outcome.next ?_,
      fun hv => congrArg Host.Outcome.next ?_⟩, fun h => congrArg Host.Outcome.next ?_, fun h => congrArg Host.Outcome.next ?_,
    fun h => congrArg Host.Outcome.next ?_, fun ha hv => ⟨s.doHoldup, rfl, ?_, ?_, ?_, ?_, ?_, ?_, ?_⟩⟩
  · have hauto : s1.flag .PWR_CFG_AUTO_ON 0 = true := by rw [hs1]; exact ha
    rw [State.doMainRelease, ← hs1, hm, hauto]
    rfl
  · have hauto : s1.flag .PWR_CFG_AUTO_ON 0 = s.flag .PWR_CFG_AUTO_ON 0 := by rw [hs1]; rfl
    rw [State.doMainRelease, ← hs1, hauto]
    rcases h with h | h
    · rw [h, Bool.false_and, if_neg Bool.false_ne_true]
    · rw [h, Bool.and_false, if_neg Bool.false_ne_true]
  · rw [State.regCmd_trigger ha (by decide) (by decide), if_pos hm]
  · rw [State.regCmd_trigger ha (by decide) (by decide), if_neg (by rw [hm]; exact Bool.false_ne_true)]
  · rw [State.regCmd_trigger ha (by decide) (by decide)]
  · have hregs : (s.setFld .PWR_STATUS_STATE 0 7).leaveAll.releaseSwitches.regs = (s.setFld .PWR_STATUS_STATE 0 7).regs := by
      rw [State.releaseSwitches_outside, State.leaveAll_outside]
    simp only [State.fld, hregs]
    exact State.fld_setFld_same s .PWR_STATUS_STATE 0 7
  · exact State.releaseSwitches_switches _
  · rw [State.releaseSwitches_outside, State.leaveAll_outside]
    rfl
  · rw [State.releaseSwitches_outside, State.leaveAll_outside]
    rfl
  · have hstates : (s.setFld .PWR_STATUS_STATE 0 7).portState p = s.portState p := State.fld_setFld_of_ne _ _ _ _ (by decide)
    obtain ⟨b, hb, hf⟩ := (s.setFld .PWR_STATUS_STATE 0 7).leaveAll_sends hp (hstates ▸ h4) (hstates ▸ h5)
    exact ⟨b, State.releaseSwitches_sends _ hb, hf⟩
  · exact s.mainOff_reset 0 (by decide) hstate
  · exact (State.flag_congr (s := State.reset) (s.mainOff_reset 0 (by decide) hready)).trans (by decide)
  · rw [s.mainOff_parts.2.2.2]
    rfl
  · exact (s.resetMain_peek a).trans (if_neg (Nat.not_le.mpr ha))
  · exact (s.resetMain_peek a).trans (if_pos ha)
  · exact (s.resetMain_fld f i hf).trans (if_pos hk)
  · have hst : (s.raiseNo 0x01 ⟨8, 0⟩ 2).fld .PWR_STATUS_STATE 0 = s.fld .PWR_STATUS_STATE 0 :=
      (State.raiseNo_reports _ _ _ _).fld _ 0 (by decide)
    rw [State.doOvervoltage]
    dsimp only
    rw [show mgtUnit = ⟨8, 0⟩ from rfl, hst]
  · exact if_pos h
  · exact if_neg (by rw [h]; exact Bool.false_ne_true)
  · exact if_neg (by rw [h]; exact Bool.false_ne_true)
  · rw [State.doAuxLost, if_pos h, ← hs1]
    exact if_pos hv
  · rw [State.doAuxLost, if_pos h, ← hs1]
    exact if_neg (by rw [hv]; exact Bool.false_ne_true)
  · exact if_pos h
  · exact if_neg (by rw [h]; exact Bool.false_ne_true)
  · exact if_pos (Bool.or_eq_true_iff.mpr h)
  · rw [State.doHoldup, ha, hv]
    rfl
  · rw [State.doHoldup, ha, hv]
    exact (s.auditFlush.mainOff_parts).2.2.1
  · exact State.doHoldup_kept ha hv 0 (by decide) (by decide) hslot
  · exact State.doHoldup_kept ha hv 0 (by decide) (by decide) hfuse
  · rw [State.doHoldup_fld ha hv _ 0 (by decide), if_neg (by decide)]
    rfl
  · have hp := (s.auditFlush.mainOff_parts).2.2.2
    rw [s.auditFlush_power] at hp
    have hphys : s.auditFlush.mainOff.power.fusedPhys = s.power.fusedPhys := by rw [hp]; rfl
    rw [State.doHoldup, ha, hv]
    exact hphys
  · rw [State.doHoldup, ha, hv]
    rfl

end Sys2Proof.Machine
end

section
/-! PROOFS. Resets and the steps of start-up (R488-R492). -/

namespace Sys2Proof.Machine

/-! ### A module reset (R491) -/

/-- The main domain is reset, and one more start is counted. -/
def State.restarted (s : State) : State :=
  { s.relock.leaveAll.resetMain with power := { s.relock.leaveAll.resetMain.power with
      boots := s.relock.leaveAll.resetMain.power.boots + 1 } }

theorem State.moduleReset_eq {s : State} (h : s.fld .PWR_STATUS_STATE 0 ≠ 0) : s.moduleReset =
    (s.restarted.startFirmware.setFld .PWR_STATUS_STATE 0 1).setFld .PWR_STATUS_START_STEP 0 1 := if_neg h

/-- Behind the firmware's fields a module reset leaves what the reset of the main domain left. -/
theorem State.moduleReset_outside {s : State} (h : s.fld .PWR_STATUS_STATE 0 ≠ 0) : s.moduleReset =
    { s.relock.leaveAll.resetMain with regs := s.moduleReset.regs, power := s.moduleReset.power } := by
  rw [State.moduleReset_eq h, State.setFld, State.setFld, s.restarted.startFirmware_firmware.outside]
  rfl

theorem State.moduleReset_fld {s : State} (h : s.fld .PWR_STATUS_STATE 0 ≠ 0) {f : Fld} (i : Nat) (hf : f ∉ firmwareFlds)
    (h1 : .PWR_STATUS_STATE ≠ f) (h2 : .PWR_STATUS_START_STEP ≠ f) : s.moduleReset.fld f i = s.relock.leaveAll.resetMain.fld f i := by
  rw [State.moduleReset_eq h, State.fld_setFld_of_ne _ _ _ _ h2, State.fld_setFld_of_ne _ _ _ _ h1]
  exact s.restarted.startFirmware_firmware.fld f i hf

theorem State.moduleReset_boots {s : State} (h : s.fld .PWR_STATUS_STATE 0 ≠ 0) : s.moduleReset.power.boots = s.power.boots + 1 := by
  have hpow : s.relock.leaveAll.power = s.power := by
    rw [State.leaveAll_outside]
    exact s.relock_power
  obtain ⟨-, -, -, -, -, hreset⟩ := s.relock.leaveAll.resetMain_parts
  rw [State.moduleReset_eq h, State.setFld_power, State.setFld_power, s.restarted.startFirmware_firmware.outside]
  show s.relock.leaveAll.resetMain.power.boots + 1 = _
  rw [hreset, hpow]
  rfl

theorem State.moduleReset_audit {s : State} (h : s.fld .PWR_STATUS_STATE 0 ≠ 0) : s.moduleReset.audit = s.relock.audit := by
  obtain ⟨-, haud, -⟩ := s.relock.leaveAll.resetMain_parts
  rw [State.moduleReset_outside h]
  exact haud.trans (by rw [State.leaveAll_outside])

theorem State.moduleReset_retired {s : State} (h : s.fld .PWR_STATUS_STATE 0 ≠ 0) : s.moduleReset.retired = s.relock.retired := by
  obtain ⟨hret, -⟩ := s.relock.leaveAll.resetMain_parts
  rw [State.moduleReset_outside h]
  exact hret.trans (by rw [State.leaveAll_outside])

/-! ### PERST_N (R492) -/

theorem State.hostTrains_of {s : State} (hp : s.power.perst = false) (hr : s.power.refclk = true)
    (h3 : 3 ≤ s.fld .PWR_STATUS_START_STEP 0) : s.hostTrains =
      ({ s with power := { s.power with hostUp := true } } : State).setFlag .CMD_CFG_CXL 0 s.power.cxl := by
  refine if_pos ?_
  rw [hp, hr, decide_eq_true h3]
  rfl

theorem State.hostTrains_not {s : State} (h : s.power.refclk = false ∨ s.fld .PWR_STATUS_START_STEP 0 < 3) : s.hostTrains = s := by
  refine if_neg ?_
  rcases h with h | h
  · rw [h, Bool.and_false, Bool.false_and]
    exact Bool.false_ne_true
  · rw [decide_eq_false (Nat.not_le.mpr h), Bool.and_false]
    exact Bool.false_ne_true

/-! ### The steps of start-up (R488) -/

theorem State.startStep_fails {s : State} {k : Nat} (hk : k = s.fld .PWR_STATUS_START_STEP 0 + 1) (h3 : k ≤ 3)
    {found : List StartFault} (hf : StartFault.stepFails ∈ found) (guests : List GuestInfo) : s.startStep found guests = s.startOff k := by
  subst hk
  exact if_pos ⟨h3, List.contains_iff_mem.mpr hf⟩

theorem State.startOff_eq (s : State) (k : Nat) : s.startOff k = { (s.raiseNo 0x00 ⟨8, 0⟩ k).mainOff with
    power := { (s.raiseNo 0x00 ⟨8, 0⟩ k).mainOff.power with startFails := (s.raiseNo 0x00 ⟨8, 0⟩ k).mainOff.power.startFails + 1 } } := by
  rw [State.startOff, State.startRaise, Nat.zero_mul, Nat.add_zero]
  rfl

/-- Steps 4 to 9 end with their number in START_STEP. -/
theorem State.startStep_passes {s : State} {k : Nat} (hk : k = s.fld .PWR_STATUS_START_STEP 0 + 1) (h4 : 4 ≤ k) (h9 : k ≤ 9)
    (found : List StartFault) (guests : List GuestInfo) :
    ∃ v : State, s.startStep found guests = v.setFld .PWR_STATUS_START_STEP 0 k := by
  have hcases : k = 4 ∨ k = 5 ∨ k = 6 ∨ k = 7 ∨ k = 8 ∨ k = 9 := by omega
  have hlate : ¬ (k ≤ 3 ∧ found.contains StartFault.stepFails = true) := fun h => by omega
  rcases hcases with rfl | rfl | rfl | rfl | rfl | rfl <;>
    exact ⟨_, by simp only [State.startStep, ← hk]; exact if_neg hlate⟩

theorem State.startStep_idle {s : State} {k : Nat} (hk : k = s.fld .PWR_STATUS_START_STEP 0 + 1) (h : k = 5 ∨ k = 6 ∨ k = 9)
    (guests : List GuestInfo) : s.startStep [] guests = s.setFld .PWR_STATUS_START_STEP 0 k := by
  rcases h with rfl | rfl | rfl <;> (simp only [State.startStep, ← hk]; rfl)

theorem State.startStep_plan {s : State} (hk : 8 = s.fld .PWR_STATUS_START_STEP 0 + 1) (guests : List GuestInfo) :
    s.startStep [] guests = (s.startPlan []).setFld .PWR_STATUS_START_STEP 0 8 := by
  simp only [State.startStep, ← hk]
  rfl

theorem State.startStep_fuses {s : State} (hk : 4 = s.fld .PWR_STATUS_START_STEP 0 + 1) (guests : List GuestInfo) :
    s.startStep [] guests = ({ s with phys := s.power.fusedPhys, used := s.power.fusedUsed, absent := [] } : State).setFld
      .PWR_STATUS_START_STEP 0 4 := by
  simp only [State.startStep, ← hk]
  rfl

theorem State.changeClock_settime (s : State) (f : Nat) : (s.changeClock f).power.settime = s.power.settime := by
  by_cases h : s.fld .PWR_CLK_PLAN_FREQ_NOW_MHZ 0 = f
  · rw [State.changeClock_same h]
  · rw [State.changeClock_new h]
    rfl

theorem State.startPlan_clear (s : State) : s.startPlan [] =
    if s.power.settime then s.changeClock (s.planFreq 0)
    else ((s.changeClock (s.planFreq 0)).setFlag .MGT_AUDIT_STAT_MTIME_UNSET 0 true).raiseNo 0x0E ⟨8, 0⟩ 0 := by
  have h := s.changeClock_settime (s.planFreq 0)
  simp only [State.startPlan, List.contains_nil, Bool.false_eq_true, if_false, h]
  rfl

/-- Step 10, READY. -/
theorem State.startStep_ready {s : State} (hk : 10 = s.fld .PWR_STATUS_START_STEP 0 + 1) (found : List StartFault)
    (guests : List GuestInfo) : ∃ v : State, s.startStep found guests = v.becomeReady ∧ (found = [] → v = s.startPorts []) := by
  have hlate : ¬ (10 ≤ 3 ∧ found.contains StartFault.stepFails = true) := fun h => by omega
  refine ⟨(if found.contains .stepFails then s.startRaise 10 0 else s).startPorts found, ?_, fun h => by rw [h]; rfl⟩
  simp only [State.startStep, ← hk]
  exact if_neg hlate

theorem State.becomeReady_facts (s : State) : s.becomeReady.fld .PWR_STATUS_STATE 0 = 2 ∧ s.becomeReady.flag .PWR_STATUS_READY 0 = true ∧
    s.becomeReady.fld .PWR_STATUS_START_STEP 0 = 10 := by
  refine ⟨?_, ?_, State.fld_setFld_same _ _ _ _⟩
  · rw [State.becomeReady, State.fld_setFld_of_ne _ _ _ _ (by decide), State.setFlag, State.fld_setFld_of_ne _ _ _ _ (by decide)]
    exact State.fld_setFld_same _ _ _ _
  · rw [State.becomeReady, State.flag_setFld_of_ne _ _ _ _ (by decide)]
    exact State.flag_setFlag_same _ (by decide) _ _

/-- The switches are driven, and nothing else happens, when no port fails. -/
theorem State.startPorts_clear (s : State) : (s.startPorts []).mem = s.mem ∧ (s.startPorts []).tillers = s.tillers ∧
    (s.startPorts []).ports = s.ports := by
  have hdrive (u : State) (a : Nat) (on : Bool) : (u.driveSwitch a on).mem = u.mem ∧ (u.driveSwitch a on).tillers = u.tillers ∧
      (u.driveSwitch a on).ports = u.ports := by
    unfold State.driveSwitch
    split
    · exact ⟨rfl, rfl, rfl⟩
    · exact ⟨rfl, rfl, rfl⟩
  have he : s.startPorts [] = (List.range 4).foldl (fun s a => s.driveSwitch a (s.axisLocal a)) s := by
    rw [State.startPorts]
    exact List.foldl_nil
  rw [he]
  refine List.foldlRecOn (motive := fun u : State => u.mem = s.mem ∧ u.tillers = s.tillers ∧ u.ports = s.ports) (List.range 4) _
    ⟨rfl, rfl, rfl⟩ (fun u hu a _ => ?_)
  obtain ⟨hm, ht, hp⟩ := hdrive u a (u.axisLocal a)
  exact ⟨hm.trans hu.1, ht.trans hu.2.1, hp.trans hu.2.2⟩

/-! ### Step 3 (R488) -/

theorem State.startFar_fld (s : State) {f : Fld} (i : Nat) (h1 : .FAR_STATUS_RATE ≠ f) (h2 : .FAR_STATUS_CAP_GIB ≠ f) :
    s.startFar.fld f i = s.fld f i := by
  unfold State.startFar
  dsimp only
  rw [State.fld_setFld_of_ne _ _ _ _ h2]
  exact State.fld_setFld_of_ne _ _ _ _ h1

theorem State.hostTrains_fld (s : State) {f : Fld} (i : Nat) (h : .CMD_CFG_CXL ≠ f) : s.hostTrains.fld f i = s.fld f i := by
  unfold State.hostTrains
  split
  · exact State.fld_setFld_of_ne _ _ _ _ h
  · rfl

theorem State.hostTrains_rest (s : State) : s.hostTrains.mem = s.mem ∧ s.hostTrains.power.refclk = s.power.refclk ∧
    s.hostTrains.power.rackref = s.power.rackref := by
  unfold State.hostTrains
  split
  · exact ⟨rfl, rfl, rfl⟩
  · exact ⟨rfl, rfl, rfl⟩

/-- The clocks stand at 600 MHz, before the rails follow. -/
def State.clocksLocked (s : State) : State :=
  (({ s with power := { s.power with refclk := true, rackref := true } } : State).setFld .PWR_CLK_PLAN_FREQ_NOW_MHZ 0 600).setFld
    .PWR_STATUS_START_STEP 0 3

theorem State.startClocks_eq {s : State} {found : List StartFault} (h : StartFault.refclkAbsent ∉ found) : s.startClocks found =
    ({ s.clocksLocked with out := ((List.range 12).map (fun k => Output.rail k (s.clocksLocked.railNow k))).reverse ++
        s.clocksLocked.out } : State).startFar.hostTrains := by
  have hf : found.contains StartFault.refclkAbsent = false := by
    rw [Bool.eq_false_iff]
    exact fun hc => h (List.contains_iff_mem.mp hc)
  have hrails := foldl_emit (fun s k => Output.rail k (s.railNow k)) (fun _ _ _ => rfl) (List.range 12) s.clocksLocked
  rw [State.startClocks, hf, ← hrails]
  rfl

theorem State.startClocks_facts {s : State} {found : List StartFault} (h : StartFault.refclkAbsent ∉ found) :
    (s.startClocks found).fld .PWR_STATUS_START_STEP 0 = 3 ∧ (s.startClocks found).fld .PWR_CLK_PLAN_FREQ_NOW_MHZ 0 = 600 ∧
      (s.startClocks found).power.refclk = true ∧ (s.startClocks found).power.rackref = true ∧ (s.startClocks found).mem = s.mem := by
  have he := State.startClocks_eq (s := s) h
  generalize hu : ({ s.clocksLocked with out := ((List.range 12).map (fun k => Output.rail k (s.clocksLocked.railNow k))).reverse ++
        s.clocksLocked.out } : State) = u at he
  have hfld (f : Fld) (i : Nat) : u.fld f i = s.clocksLocked.fld f i := by rw [← hu]; rfl
  obtain ⟨hmem, href, hrack⟩ := u.startFar.hostTrains_rest
  rw [he]
  refine ⟨?_, ?_, href.trans (by rw [← hu]; rfl), hrack.trans (by rw [← hu]; rfl), hmem.trans (by rw [← hu]; rfl)⟩
  · rw [State.hostTrains_fld _ _ (by decide), State.startFar_fld _ _ (by decide) (by decide), hfld, State.clocksLocked,
      State.fld_setFld_same]
    rfl
  · rw [State.hostTrains_fld _ _ (by decide), State.startFar_fld _ _ (by decide) (by decide), hfld, State.clocksLocked,
      State.fld_setFld_of_ne _ _ _ _ (by decide), State.fld_setFld_same]
    rfl

/-- Settles O52: the resets by what they leave, start-up by its steps. -/
theorem resetsAndStartUp : Obligations.ResetsAndStartUp := by
  unfold Obligations.ResetsAndStartUp
  intro s
  have hkept : keptCodes.contains Fld.PWR_STATUS_READY.ctorIdx = false ∧ keptCodes.contains Fld.PWR_STATUS_STATE.ctorIdx = false ∧
      keptCodes.contains Fld.MGT_DEBUG_UNLOCKED.ctorIdx = true := by decide +kernel
  obtain ⟨hready, hstate, hdebug⟩ := hkept
  refine ⟨fun o ha => ⟨fun h => congrArg Host.Outcome.next ?off, fun h => ?reset⟩, fun s2 hs2 => congrArg Host.Outcome.next ?perst,
    fun cxl bar2 base size s1 hs1 => ?release, fun found guests => ⟨fun h => congrArg Host.Outcome.next (if_neg h), fun h k hk => ?_⟩⟩
  case off =>
    rw [State.regCmd_trigger ha (by decide) (by decide), State.moduleReset, if_pos h]
  case reset =>
    have hout := State.moduleReset_outside h
    refine ⟨s.moduleReset, congrArg Host.Outcome.next (State.regCmd_trigger ha (by decide) (by decide) _ _ _), ?_, ?_, ?_, ?_, ?_, ?_,
      fun a hlt => ?_, State.moduleReset_boots h, fun hl => ⟨?_, ?_⟩, fun hu => ⟨?_, ?_⟩⟩
    · rw [State.moduleReset_eq h, State.fld_setFld_of_ne _ _ _ _ (by decide)]
      exact State.fld_setFld_same _ _ _ _
    · rw [State.moduleReset_eq h]
      exact State.fld_setFld_same _ _ _ _
    · have hfld := State.moduleReset_fld h (f := .PWR_STATUS_READY) 0 (by decide) (by decide) (by decide)
      rw [State.resetMain_fld _ _ 0 (by decide), hready, if_neg Bool.false_ne_true] at hfld
      exact (State.flag_congr (s := State.reset) hfld).trans (by decide)
    · rw [hout]
      rfl
    · rw [hout]
      rfl
    · rw [hout]
      rfl
    · rw [hout]
      exact (s.relock.leaveAll.resetMain_peek a).trans (if_neg (Nat.not_le.mpr hlt))
    · rw [State.moduleReset_audit h, State.relock_of_locked hl]
    · rw [State.moduleReset_retired h, State.relock_of_locked hl]
    · have hfld := State.moduleReset_fld h (f := .MGT_DEBUG_UNLOCKED) 0 (by decide) (by decide) (by decide)
      rw [State.resetMain_fld _ _ 0 (by decide), hdebug, if_pos rfl] at hfld
      refine (State.flag_congr (hfld.trans ?_)).trans s.relock_locked
      rw [State.leaveAll_outside]
      rfl
    · rw [State.moduleReset_audit h, State.relock, hu, if_pos rfl]
      rfl
  case perst =>
    rw [hs2]
    rfl
  case release =>
    have hchooses : s.hostChooses cxl bar2 base.toNat size.toNat = s1 := by
      rw [hs1]
      cases bar2 <;> rfl
    refine ⟨fun hr h3 => congrArg Host.Outcome.next ?_, fun h => congrArg Host.Outcome.next ?_⟩
    · rw [hchooses, State.hostTrains_of (by rw [hs1]) (by rw [hs1]; exact hr) (by rw [hs1]; exact h3)]
      rw [hs1]
    · rw [hchooses, State.hostTrains_not (by rw [hs1]; exact h)]
  · have hx : exec (.startupStep found guests) s = .next (s.startStep found guests) := congrArg Host.Outcome.next (if_pos h)
    refine ⟨fun h3 hf => ⟨hx.trans (congrArg Host.Outcome.next (State.startStep_fails hk h3 hf guests)), ⟨_, rfl, s.startOff_eq k⟩, ?_, ?_⟩,
      fun hk1 hf => hx.trans (congrArg Host.Outcome.next ?_), fun hk2 hf => hx.trans (congrArg Host.Outcome.next ?_),
      fun hk3 hf href => ⟨_, hx, ?_⟩, fun hk4 => ?_, fun h5 h9 => ?_, fun hk8 hf => ?_, fun hk10 => ?_⟩
    · rw [State.startOff_eq]
      exact State.mainOff_reset _ 0 (by decide) hstate
    · rw [State.startOff_eq]
      show (s.raiseNo 0x00 ⟨8, 0⟩ k).mainOff.power.startFails + 1 = _
      rw [(s.raiseNo 0x00 ⟨8, 0⟩ k).mainOff_parts.2.2.2, (s.raiseNo_reports 0x00 ⟨8, 0⟩ k).outside]
      rfl
    · have h1 : 1 = s.fld .PWR_STATUS_START_STEP 0 + 1 := hk1 ▸ hk
      simp only [State.startStep, ← h1]
      exact if_neg (fun hc => hf (List.contains_iff_mem.mp hc.2))
    · have h2 : 2 = s.fld .PWR_STATUS_START_STEP 0 + 1 := hk2 ▸ hk
      simp only [State.startStep, ← h2]
      exact if_neg (fun hc => hf (List.contains_iff_mem.mp hc.2))
    · have h3 : 3 = s.fld .PWR_STATUS_START_STEP 0 + 1 := hk3 ▸ hk
      have he : s.startStep found guests = s.startClocks found := by
        simp only [State.startStep, ← h3]
        exact if_neg (fun hc => hf (List.contains_iff_mem.mp hc.2))
      rw [he]
      exact State.startClocks_facts href
    · have h4 : 4 = s.fld .PWR_STATUS_START_STEP 0 + 1 := hk4 ▸ hk
      obtain ⟨v, hv⟩ := State.startStep_passes h4 (by decide) (by decide) found guests
      refine ⟨_, hx, by rw [hv, State.fld_setFld_same]; rfl, fun hf => ?_⟩
      rw [hf, State.startStep_fuses h4]
      exact ⟨rfl, rfl, rfl⟩
    · obtain ⟨v, hv⟩ := State.startStep_passes hk (by omega) h9 found guests
      refine ⟨_, hx, ?_, fun hf hcase => by rw [hf, State.startStep_idle hk hcase]⟩
      rw [hv, State.fld_setFld_same]
      exact Nat.mod_eq_of_lt (lt_of_le_of_lt h9 (by decide))
    · rw [← hf, hx, hf, State.startStep_plan (hk8 ▸ hk), State.startPlan_clear]
    · obtain ⟨v, hv, hclear⟩ := State.startStep_ready (hk10 ▸ hk) found guests
      obtain ⟨hst, hr, hstep⟩ := v.becomeReady_facts
      refine ⟨v.becomeReady, hx.trans (congrArg Host.Outcome.next hv), hst, hr, hstep, rfl, fun hf => ?_⟩
      obtain ⟨hm, ht, hp⟩ := s.startPorts_clear
      rw [hclear hf]
      exact ⟨hm, ht, hp⟩

end Sys2Proof.Machine
end

section
/-! PROOFS. Holds and time (R428, R484-R487, R493, R494). -/

namespace Sys2Proof.Machine

/-! ### Holds (R484-R486) -/

theorem State.doHold_taken {s : State} (hr : s.flag .PWR_STATUS_READY 0 = true)
    (hst : s.fld .PWR_STATUS_STATE 0 = 2 ∨ s.fld .PWR_STATUS_STATE 0 = 3) (hn : s.power.holdAt = none) : s.doHold =
      ({ s with power := { s.power with holdAt := some s.now } } : State).setFld .PWR_STATUS_STATE 0 3 := by
  refine if_pos ?_
  rw [hr, hn]
  rcases hst with h | h <;> rw [h] <;> rfl

theorem State.doHold_none {s : State} (h : s.flag .PWR_STATUS_READY 0 = false ∨ s.power.holdAt ≠ none) : s.doHold = s := by
  refine if_neg ?_
  rcases h with h | h
  · rw [h, Bool.false_and, Bool.false_and]
    exact Bool.false_ne_true
  · rw [Option.isNone_eq_false_iff.mpr (Option.isSome_iff_ne_none.mpr h), Bool.and_false]
    exact Bool.false_ne_true

theorem State.endHold_last {s : State} (hh : s.power.holdAt = none) (ht : s.power.thermAt = none) (h3 : s.fld .PWR_STATUS_STATE 0 = 3) :
    s.endHold = s.setFld .PWR_STATUS_STATE 0 2 := by
  refine if_pos ?_
  rw [hh, ht, h3]
  rfl

theorem State.endHold_other {s : State} (ht : s.power.thermAt ≠ none) : s.endHold = s := by
  refine if_neg ?_
  rw [Option.isNone_eq_false_iff.mpr (Option.isSome_iff_ne_none.mpr ht), Bool.and_false, Bool.false_and]
  exact Bool.false_ne_true

/-- The end of a hold changes STATE alone. -/
theorem State.endHold_rest (s : State) : s.endHold.power = s.power ∧ s.endHold.strict = s.strict := by
  unfold State.endHold
  split
  · exact ⟨rfl, State.flag_setFld_of_ne _ _ _ _ (by decide)⟩
  · exact ⟨rfl, rfl⟩

theorem State.holdEvent_plain {s : State} (h : s.strict = false) (cause dur : Nat) : s.holdEvent cause dur = s :=
  if_neg (by rw [h]; exact Bool.false_ne_true)

theorem State.holdEvent_strict {s : State} (h : s.strict = true) (cause dur : Nat) : s.holdEvent cause dur =
    ((s.satAdd .MGT_DET_EVT_HOLDS 0 1).setFlag .MGT_DET_STATUS_STRETCH_SEEN 0 true).raiseNo 0x82 ⟨8, 0⟩
      (cause + dur % 2 ^ 56 * 2 ^ 8 + s.barRound (s.fld .PWR_STRETCH_SLOT 0) % 2 ^ 32 * 2 ^ 64) := if_pos h

/-- The part runs on after a hold, with its record. -/
def State.resumed (s : State) (t lowest : Nat) : State :=
  ((({ s with power := { s.power with holdAt := none } } : State).endHold).setFlag .PWR_STATUS_HOLD_SEEN 0 true).raiseNo 0x02 ⟨8, 0⟩
    ((s.now - t) % 2 ^ 64 + lowest * 2 ^ 64)

theorem State.doResumeHold_eq {s : State} {t : Nat} (h : s.power.holdAt = some t) (lowest : Nat) :
    s.doResumeHold lowest = (s.resumed t lowest).holdEvent 1 (s.now - t) := by
  simp only [State.doResumeHold, h]
  rfl

theorem State.resumed_strict (s : State) (t lowest : Nat) : (s.resumed t lowest).strict = s.strict := by
  refine (State.flag_congr ((State.raiseNo_reports _ _ _ _).fld _ 0 (by decide))).trans ?_
  rw [State.setFlag, State.flag_setFld_of_ne _ _ _ _ (by decide)]
  exact (State.endHold_rest _).2

theorem State.doHoldLimit_eq {s : State} {t : Nat} (h : s.power.holdAt = some t) : s.doHoldLimit =
    if s.fld .PWR_CFG_HOLD_MAX_MS 0 * 1000000 ≤ s.now - t then s.shutdown 1 else s := by
  simp only [State.doHoldLimit, h]

/-! ### RACKREF and MTIME (R493, R494) -/

theorem State.doHoldoverExit_not {s : State} (h : s.flag .PWR_STATUS_HOLDOVER 0 = false ∨ s.power.slew ≠ some s.now) :
    s.doHoldoverExit = s := by
  refine if_neg ?_
  rcases h with h | h
  · rw [h, Bool.false_and, Bool.false_and]
    exact Bool.false_ne_true
  · rw [Bool.and_eq_true, beq_iff_eq]
    exact fun hc => h hc.2

/-- Settles O53: holds, holdover and MTIME by the branches of their rules. -/
theorem holdsAndTime : Obligations.HoldsAndTime := by
  unfold Obligations.HoldsAndTime
  intro s
  refine ⟨fun hr hst hn => congrArg Host.Outcome.next (State.doHold_taken hr hst hn), fun h => congrArg Host.Outcome.next (State.doHold_none h),
    fun lowest => ⟨fun hn => congrArg Host.Outcome.next ?_, fun t s1 ht hs hs1 => ⟨fun hn h3 => congrArg Host.Outcome.next ?_,
      fun hn => congrArg Host.Outcome.next ?_⟩, fun t ht hs => ?_⟩, fun hn => congrArg Host.Outcome.next ?_,
    fun t ht => ⟨fun hle => congrArg Host.Outcome.next ?_, fun hlt => congrArg Host.Outcome.next ?_⟩,
    fun h0 hh => congrArg Host.Outcome.next ?_, fun hh => ⟨congrArg Host.Outcome.next ?_, fun n => congrArg Host.Outcome.next ?_,
      fun hr hsl => congrArg Host.Outcome.next ?_, fun hsl => congrArg Host.Outcome.next (State.doHoldoverExit_not (.inr hsl))⟩,
    fun hh => ⟨congrArg Host.Outcome.next (State.doHoldoverExit_not (.inl hh)), fun n => congrArg Host.Outcome.next ?_⟩,
    fun o v ha => ⟨fun hr => congrArg Host.Outcome.next ?_, fun hr => congrArg Host.Outcome.next ?_⟩,
    fun cause dur => ⟨fun h => State.holdEvent_plain h cause dur, fun h => State.holdEvent_strict h cause dur⟩⟩
  · simp only [State.doResumeHold, hn]
  · rw [State.doResumeHold_eq ht, State.holdEvent_plain ((s.resumed_strict t _).trans hs), State.resumed, ← hs1,
      State.endHold_last (by rw [hs1]) (by rw [hs1]; exact hn) (by rw [hs1]; exact h3)]
  · rw [State.doResumeHold_eq ht, State.holdEvent_plain ((s.resumed_strict t _).trans hs), State.resumed, ← hs1,
      State.endHold_other (by rw [hs1]; exact hn)]
  · refine ⟨s.resumed t lowest.toNat, _, congrArg Host.Outcome.next (State.doResumeHold_eq ht _), rfl,
      (s.resumed_strict t _).trans hs, State.flag_setFlag_same _ (by decide) _ _, ?_⟩
    rw [State.setFlag, State.setFld_power, (State.endHold_rest _).1]
  · simp only [State.doHoldLimit, hn]
  · rw [State.doHoldLimit_eq ht, if_pos hle]
  · rw [State.doHoldLimit_eq ht, if_neg (Nat.not_le.mpr hlt)]
  · rw [State.doHoldover, hh, if_pos (by simpa using h0)]
    rfl
  · rw [State.doHoldover, hh, Bool.not_true, Bool.and_false, if_neg Bool.false_ne_true]
  · rw [State.doRackref, if_pos hh]
  · rw [State.doHoldoverExit, hh, hr, hsl, if_pos (by simp)]
  · rw [State.doRackref, hh, if_neg Bool.false_ne_true]
  · rw [State.regCmd_trigger ha (by decide) (by decide), State.takeMtime, hr, if_neg Bool.false_ne_true]
  · rw [State.regCmd_trigger ha (by decide) (by decide), State.takeMtime, if_pos hr]

end Sys2Proof.Machine
end

section
/-! PROOFS. The clock plan, voltage, power, heat and lasers (R495, R498-R504). -/

namespace Sys2Proof.Machine

/-! ### The clock plan (R495) -/

theorem State.planWrite_refused {s : State} (hs : s.strict = true) (hf : s.modeFree = false) (mhz : Nat) :
    s.planWrite mhz = (s.setFlag .PWR_STATUS_CLAMPED 0 true).raiseNo 0x04 ⟨8, 0⟩ 3 := by
  rw [State.planWrite, hs, hf]
  rfl

theorem State.planWrite_taken {s : State} (h : s.strict = false ∨ s.modeFree = true) {mhz r v : Nat} (hr : r = mhz / 25 * 25)
    (hv : v = min (s.fld .PWR_CLK_PLAN_FMAX_MHZ 0) (max 600 r)) {s2 : State}
    (hs2 : s2 = if v = r then s.setFld .PWR_CLK_PLAN_FREQ_REQ_MHZ 0 v
      else ((s.setFld .PWR_CLK_PLAN_FREQ_REQ_MHZ 0 v).setFlag .PWR_STATUS_CLAMPED 0 true).raiseNo 0x04 ⟨8, 0⟩ 0) :
    s.planWrite mhz = if 8 ≤ s.fld .PWR_STATUS_START_STEP 0 then s2.askClock (s2.planFreq (s.fld .PWR_STRETCH_LAST 0)) else s2 := by
  have hfree : (s.strict && !s.modeFree) = false := by
    rcases h with h | h <;> simp [h]
  subst hs2 hv hr
  simp only [State.planWrite, hfree, Bool.false_eq_true, if_false]
  rfl

/-! ### The voltage-margin loop (R498) -/

theorem State.doVloop_fast {s : State} (hrun : s.linksRun = true) (hen : s.flag .PWR_CFG_VLOOP_EN 0 = true) {sh ps : Nat}
    (h : ps < 12) : s.doVloop sh ps = (s.setSince sh none).setOffset sh 0 := by
  simp only [State.doVloop, hrun, hen, Bool.and_self, if_true, if_pos h]

theorem State.doVloop_low {s : State} (hrun : s.linksRun = true) (hen : s.flag .PWR_CFG_VLOOP_EN 0 = true) {sh ps : Nat}
    (h12 : 12 ≤ ps) (h : ps < 18) :
    s.doVloop sh ps = (s.setSince sh none).setOffset sh (min 0 (Tbl.get 0 s.power.vOffset sh + 10)) := by
  simp only [State.doVloop, hrun, hen, Bool.and_self, if_true, if_neg (Nat.not_lt.mpr h12), if_pos h]

theorem State.doVloop_target {s : State} (hrun : s.linksRun = true) (hen : s.flag .PWR_CFG_VLOOP_EN 0 = true) {sh ps : Nat}
    (h18 : 18 ≤ ps) (h : ps ≤ s.targetSlack sh) : s.doVloop sh ps = s.setSince sh none := by
  simp only [State.doVloop, hrun, hen, Bool.and_self, if_true, if_neg (show ¬ ps < 12 by omega), if_neg (Nat.not_lt.mpr h18), if_pos h]

/-- A rail above its target since t. -/
theorem State.doVloop_since {s : State} (hrun : s.linksRun = true) (hen : s.flag .PWR_CFG_VLOOP_EN 0 = true) {sh ps t : Nat}
    (h18 : 18 ≤ ps) (hps : s.targetSlack sh < ps) (ht : s.power.slackSince.find? (fun p => p.1 == sh) = some (sh, t)) :
    s.doVloop sh ps = if t + 1000000 ≤ s.now then
        if s.marginLow sh ps = true ∨ Tbl.get 0 s.power.vOffset sh ≤ -60 then s.setSince sh (some s.now)
        else (s.setSince sh (some s.now)).setOffset sh (max (-60) (Tbl.get 0 s.power.vOffset sh - 5))
      else s := by
  simp only [State.doVloop, hrun, hen, Bool.and_self, if_true, if_neg (show ¬ ps < 12 by omega), if_neg (Nat.not_lt.mpr h18),
    if_neg (Nat.not_le.mpr hps), ht]

theorem State.doVloop_above {s : State} (hrun : s.linksRun = true) (hen : s.flag .PWR_CFG_VLOOP_EN 0 = true) {sh ps : Nat}
    (h18 : 18 ≤ ps) (hps : s.targetSlack sh < ps) (ht : s.power.slackSince.find? (fun p => p.1 == sh) = none) :
    s.doVloop sh ps = s.setSince sh (some s.now) := by
  simp only [State.doVloop, hrun, hen, Bool.and_self, if_true, if_neg (show ¬ ps < 12 by omega), if_neg (Nat.not_lt.mpr h18),
    if_neg (Nat.not_le.mpr hps), ht]

theorem State.marginLow_iff (s : State) (sh ps : Nat) : s.marginLow sh ps = true ↔ ps * 1000 < 40 * Config.railFactor sh ∨
    (s.flag .HLT_MARGIN_CFG_EN 0 = true ∧ s.fld .HLT_MARGIN_SHF_V_MV sh < 40) := by
  simp only [State.marginLow, Bool.or_eq_true, Bool.and_eq_true, decide_eq_true_eq]

theorem State.setOffset_facts (s : State) (sh : Nat) (v : Int) :
    Tbl.get 0 (s.setOffset sh v).power.vOffset sh = v ∧ (s.setOffset sh v).regs = s.regs := by
  have hget : Tbl.get 0 (Tbl.set 0 s.power.vOffset sh v) sh = v := Tbl.get_set_same ..
  unfold State.setOffset
  dsimp only
  split
  · exact ⟨hget, rfl⟩
  · exact ⟨hget, rfl⟩

/-! ### The power cap (R499) -/

theorem State.doPowerCheck_eq {s : State} (hrun : s.linksRun = true) (a b : Nat) : s.doPowerCheck a b =
    if 2860 < b then ((s.setFld .PWR_STATUS_POWER_W 0 a).capCheck a).emergencyOn else (s.setFld .PWR_STATUS_POWER_W 0 a).capCheck a :=
  if_pos hrun

theorem State.capCheck_plain {s : State} (hs : s.strict = false) {avg : Nat} (h : max 1200 (s.fld .PWR_CAP_CAP_W 0) < avg) :
    s.capCheck avg = s.askClock (max 600 (s.freqAim - 25)) := by
  simp only [State.capCheck, hs, Bool.false_eq_true, if_false, if_pos h]

theorem State.capCheck_strict {s : State} (hs : s.strict = true) {avg n : Nat}
    (hn : n = if max 1200 (s.fld .PWR_CAP_CAP_W 0) < avg then s.power.capOver + 1 else 0) : s.capCheck avg =
      if n = 100 then (({ s with power := { s.power with capOver := n } } : State).satAdd .PWR_CAP_EXCURSIONS 0 1).overridden 1
      else { s with power := { s.power with capOver := n } } := by
  subst hn
  simp only [State.capCheck, hs, if_true]

/-! ### Thermal limits (R500-R503) -/

theorem State.thermalOne_same {s : State} {code t : Nat}
    (h : sensorLevel code (Tbl.get 0 s.power.temps code) = sensorLevel code t) :
    s.thermalOne code t = { s with power := { s.power with temps := Tbl.put s.power.temps code t } } := if_pos h

theorem State.thermalOne_crossed {s : State} {code t : Nat}
    (h : sensorLevel code (Tbl.get 0 s.power.temps code) ≠ sensorLevel code t) {s1 : State}
    (hs1 : s1 = ({ s with power := { s.power with temps := Tbl.put s.power.temps code t } } : State).raiseNo 0x05 ⟨8, 0⟩
      (code + sensorLevel code t * 2 ^ 16 + t % 2 ^ 32 * 2 ^ 32)) : s.thermalOne code t =
      if 160 ≤ code ∧ 2 ≤ sensorLevel code t ∧ sensorLevel code (Tbl.get 0 s.power.temps code) < 2 then s1.sendPause (code - 160)
      else s1 := by
  subst hs1
  exact if_neg h

theorem State.trip_eq (s : State) : s.trip = { ((s.emit (.thermtrip true)).raiseNo 0x03 ⟨8, 0⟩ 2).mainOff with
    power := { ((s.emit (.thermtrip true)).raiseNo 0x03 ⟨8, 0⟩ 2).mainOff.power with thermtrip := true } } := rfl

/-- Settles O54: clock, voltage, power, heat and lasers by the branches of their rules. -/
theorem clockVoltageAndHeat : Obligations.ClockVoltageAndHeat := by
  unfold Obligations.ClockVoltageAndHeat
  intro s
  have hstate : keptCodes.contains Fld.PWR_STATUS_STATE.ctorIdx = false := by decide +kernel
  refine ⟨fun o mhz r v ha hr hv => ⟨fun hs hf => congrArg Host.Outcome.next ?_, fun h s2 hs2 => ?_⟩, fun sh ps hrun hen => ?_,
    fun hen sh ps => congrArg Host.Outcome.next ?_, fun sh v => s.setOffset_facts sh v, fun a b s1 hrun hs1 => ?_,
    fun hrun a b => congrArg Host.Outcome.next ?_, fun l s1 hs1 => ?_, ⟨_, rfl, s.trip_eq⟩, ⟨rfl, ?_, rfl⟩,
    fun code t h => State.thermalOne_same h, fun code t s1 h hs1 => ⟨fun hc => ?_, fun h1 h2 h3 => ?_⟩,
    fun p c v s1 hrun hg hv hs1 => ?_, fun hrun p c b => congrArg Host.Outcome.next ?_⟩
  · rw [State.regCmd_change ha (by decide) (by decide), State.planWrite_refused hs hf]
  · have he := State.planWrite_taken h hr hv hs2
    refine ⟨fun hlt => congrArg Host.Outcome.next ?_, fun hle => congrArg Host.Outcome.next ?_⟩
    · rw [State.regCmd_change ha (by decide) (by decide), he, if_neg (Nat.not_le.mpr hlt)]
    · rw [State.regCmd_change ha (by decide) (by decide), he, if_pos hle]
  · refine ⟨fun h => congrArg Host.Outcome.next (State.doVloop_fast hrun hen h),
      fun h12 h => congrArg Host.Outcome.next (State.doVloop_low hrun hen h12 h),
      fun h18 h => congrArg Host.Outcome.next (State.doVloop_target hrun hen h18 h), fun t h18 hps ht => ?_,
      fun h18 hps ht => congrArg Host.Outcome.next (State.doVloop_above hrun hen h18 hps ht)⟩
    have he := State.doVloop_since hrun hen h18 hps ht
    refine ⟨fun hlt => congrArg Host.Outcome.next (he.trans (if_neg (Nat.not_le.mpr hlt))), fun hle h => congrArg Host.Outcome.next ?_,
      fun hle h1 h2 h3 => congrArg Host.Outcome.next ?_⟩
    · refine (he.trans (if_pos hle)).trans (if_pos ?_)
      rw [State.marginLow_iff, or_assoc]
      exact h
    · refine (he.trans (if_pos hle)).trans (if_neg ?_)
      rw [State.marginLow_iff, or_assoc]
      rintro (h | ⟨hen', hv⟩ | h)
      · omega
      · rcases h2 with h2 | h2
        · rw [h2] at hen'
          exact Bool.false_ne_true hen'
        · omega
      · omega
  · refine if_neg ?_
    rw [hen, Bool.and_false]
    exact Bool.false_ne_true
  · have he := State.doPowerCheck_eq hrun a.toNat b.toNat
    rw [← hs1] at he
    have hcap : s1.fld .PWR_CAP_CAP_W 0 = s.fld .PWR_CAP_CAP_W 0 := hs1 ▸ State.fld_setFld_of_ne _ _ _ _ (by decide)
    have hstr : s1.strict = s.strict := hs1 ▸ State.flag_setFld_of_ne _ _ _ _ (by decide)
    have hfreq : s1.fld .PWR_CLK_PLAN_FREQ_NOW_MHZ 0 = s.fld .PWR_CLK_PLAN_FREQ_NOW_MHZ 0 :=
      hs1 ▸ State.fld_setFld_of_ne _ _ _ _ (by decide)
    have haim : s1.freqAim = s.freqAim := by
      rw [State.freqAim, State.freqAim, hfreq, hs1, State.setFld_power]
    have hover : s1.power.capOver = s.power.capOver := by rw [hs1, State.setFld_power]
    refine ⟨fun hs ha => ?_, fun hs ha hb => congrArg Host.Outcome.next ?_, fun hs ha hb ho => congrArg Host.Outcome.next ?_⟩
    · have hc : s1.capCheck a.toNat = s1.askClock (max 600 (s.freqAim - 25)) := by
        rw [← haim]
        exact State.capCheck_plain (hstr.trans hs) (by rw [hcap]; exact ha)
      refine ⟨fun hb => congrArg Host.Outcome.next ?_, fun hb => congrArg Host.Outcome.next ?_⟩
      · rw [he, if_neg (Nat.not_lt.mpr hb), hc]
      · rw [he, if_pos hb, hc]
    · have hc := State.capCheck_strict (hstr.trans hs) (avg := a.toNat) (n := 0) (by rw [hcap, if_neg (Nat.not_lt.mpr ha)])
      rw [he, if_neg (Nat.not_lt.mpr hb), hc]
      rfl
    · have hc := State.capCheck_strict (hstr.trans hs) (avg := a.toNat) (n := 100) (by rw [hcap, if_pos ha, hover, ho])
      rw [he, if_neg (Nat.not_lt.mpr hb), hc, if_pos rfl]
      rfl
  · exact if_neg (by rw [hrun]; exact Bool.false_ne_true)
  · have he : s.doThermal l = if s.fld .PWR_STATUS_STATE 0 ≠ 0 ∧ 3 ≤ s1.topLevel then s1.trip
        else if s.linksRun then (if s1.hotNow then s1.emergencyOn else s1.emergencyOff).thermalHold else s1 := by
      rw [hs1]
      rfl
    refine ⟨fun h hrun => congrArg Host.Outcome.next ?_, fun h0 h3 => congrArg Host.Outcome.next (he.trans (if_pos ⟨h0, h3⟩)),
      fun hrun h3 hh => congrArg Host.Outcome.next ?_, fun hrun h3 hh => congrArg Host.Outcome.next ?_⟩
    · have hno : ¬ (s.fld .PWR_STATUS_STATE 0 ≠ 0 ∧ 3 ≤ s1.topLevel) := fun hc => by omega
      rw [he, if_neg hno, hrun, if_neg Bool.false_ne_true]
    · have hno : ¬ (s.fld .PWR_STATUS_STATE 0 ≠ 0 ∧ 3 ≤ s1.topLevel) := fun hc => by omega
      rw [he, if_neg hno, if_pos hrun, if_pos hh]
    · have hno : ¬ (s.fld .PWR_STATUS_STATE 0 ≠ 0 ∧ 3 ≤ s1.topLevel) := fun hc => by omega
      rw [he, if_neg hno, if_pos hrun, hh, if_neg Bool.false_ne_true]
  · rw [State.trip_eq]
    exact State.mainOff_reset _ 0 (by decide) hstate
  · exact (State.thermalOne_crossed h hs1).trans (if_neg (fun hc => by omega))
  · exact (State.thermalOne_crossed (by omega) hs1).trans (if_pos ⟨h1, h2, h3⟩)
  · have hrun1 : s1.linksRun = true := by
      have hst : s1.fld .PWR_STATUS_STATE 0 = s.fld .PWR_STATUS_STATE 0 := hs1 ▸ State.fld_setFld_of_ne _ _ _ _ (by decide)
      rw [State.linksRun, hst]
      exact hrun
    have hg1 : s1.flag .LNK_GUEST_ADMITTED p = true := (hs1 ▸ State.flag_setFld_of_ne _ _ _ _ (by decide) :
      s1.flag .LNK_GUEST_ADMITTED p = s.flag .LNK_GUEST_ADMITTED p).trans hg
    have he (b : Bool) : s.doLaser p c b = if b then s1 else s1.doLaserFail p c := by
      rw [State.doLaser, hrun, hg, hs1, hv]
      rfl
    refine ⟨congrArg Host.Outcome.next (he true), congrArg Host.Outcome.next ((he false).trans ?_)⟩
    rw [if_neg Bool.false_ne_true, State.doLaserFail, hrun1, hg1]
    rfl
  · refine if_neg ?_
    rw [hrun, Bool.false_and]
    exact Bool.false_ne_true

end Sys2Proof.Machine
end

section
/-! PROOFS. Dormant and ageing (R505-R507). -/

namespace Sys2Proof.Machine

/-! ### Dormant (R505, R506) -/

theorem State.wakeUp_dormant {s : State} (h : s.fld .PWR_STATUS_STATE 0 = 4) (cause : Nat) : s.wakeUp cause =
    ((s.setFld .PWR_STATUS_STATE 0 2).setFlag .PWR_STATUS_READY 0 true).setFld .PWR_DORMANT_CAUSE 0 cause := if_pos h

theorem State.wakeUp_awake {s : State} (h : s.fld .PWR_STATUS_STATE 0 ≠ 4) (cause : Nat) : s.wakeUp cause = s := if_neg h

theorem State.mayEnter_needs {s : State} (h : s.mayEnter = true) : s.ready = true ∧ (∀ p < 8, s.flag .LNK_CFG_ENABLE p = false) ∧
    s.drained = true ∧ ∀ t < 768, s.tstate t < 2 ∨ 6 < s.tstate t := by
  simp only [State.mayEnter, Bool.and_eq_true, List.all_eq_true, List.mem_range, Bool.not_eq_true', Bool.and_eq_false_iff,
    decide_eq_false_iff_not] at h
  obtain ⟨⟨⟨⟨⟨hready, hports⟩, hdrained⟩, htillers⟩, -⟩, -⟩ := h
  exact ⟨hready, hports, hdrained, fun t ht => by have := htillers t ht; omega⟩

theorem State.doWakeCause_wakes {s : State} {cause : Nat} (h5 : cause ≤ 4)
    (h4 : cause = 4 → s.fld .PWR_WAKE_AT_MTIME 0 ≠ 0 ∧ s.fld .PWR_WAKE_AT_MTIME 0 ≤ s.now) : s.doWakeCause cause = s.wakeUp cause := by
  have hno : ¬ (cause = 4 ∧ (s.fld .PWR_WAKE_AT_MTIME 0 = 0 ∨ s.now < s.fld .PWR_WAKE_AT_MTIME 0)) := by
    rintro ⟨hc, h⟩
    obtain ⟨h0, hle⟩ := h4 hc
    omega
  rw [State.doWakeCause]
  simp only [if_neg hno, if_neg (show ¬ cause = 5 by omega), if_pos h5]

theorem State.doWakeCause_early {s : State} (h : s.fld .PWR_WAKE_AT_MTIME 0 = 0 ∨ s.now < s.fld .PWR_WAKE_AT_MTIME 0) :
    s.doWakeCause 4 = s := if_pos ⟨rfl, h⟩

theorem State.doWakeCause_awake {s : State} (h : s.fld .PWR_STATUS_STATE 0 ≠ 4) {cause : Nat} (h5 : cause ≠ 5) :
    s.doWakeCause cause = s := by
  rw [State.doWakeCause]
  simp only [if_neg h5, State.wakeUp_awake h, ite_self]

theorem State.entered_dormant {s : State} (h : s.fld .PWR_STATUS_STATE 0 = 5) : s.entered =
    (((List.range 8).filter (fun p => (s.port p).leaving.isSome)).foldl State.leaveDone s).setFld .PWR_STATUS_STATE 0 4 := if_pos h

/-! ### Ageing (R507) -/

theorem Power.itemAge_addAge (p : Power) (kind unit v : Nat) :
    (p.addAge kind unit v).itemAge kind unit = ((kind, unit, v) :: p.itemAge kind unit).take 90 := by
  have hnew : ∀ r ∈ ((kind, unit, v) :: p.itemAge kind unit).take 90, (r.1 == kind && r.2.1 == unit) = true := by
    intro r hr
    rcases List.mem_cons.mp (List.mem_of_mem_take hr) with rfl | hr
    · simp
    · exact (List.mem_filter.mp hr).2
  have hold : ∀ r ∈ p.age.filter (fun r => !(r.1 == kind && r.2.1 == unit)), ¬ (r.1 == kind && r.2.1 == unit) = true := by
    intro r hr hc
    have h := (List.mem_filter.mp hr).2
    rw [hc] at h
    exact Bool.false_ne_true h
  show (((kind, unit, v) :: p.itemAge kind unit).take 90 ++ p.age.filter (fun r => !(r.1 == kind && r.2.1 == unit))).filter
    (fun r => r.1 == kind && r.2.1 == unit) = _
  rw [List.filter_append, List.filter_eq_self.mpr hnew, List.filter_eq_nil_iff.mpr hold, List.append_nil]

/-- A prediction is at most 255 months. -/
theorem Power.shortest_le (p : Power) : p.shortest.1 ≤ 255 := by
  unfold Power.shortest
  refine List.foldlRecOn (motive := fun b : Nat × Nat × Nat => b.1 ≤ 255) _ _ le_rfl (fun b hb i _ => ?_)
  dsimp only
  split
  · exact Nat.min_le_left _ _
  · exact hb

/-- The prediction after a daily record. -/
def State.predicted (s : State) (kind unit v : Nat) : State :=
  ((({ s with power := s.power.addAge kind unit v } : State).setFld .HLT_EOL_MONTHS 0 (s.power.addAge kind unit v).shortest.1).setFld
    .HLT_EOL_KIND 0 (s.power.addAge kind unit v).shortest.2.1).setFld .HLT_EOL_UNIT 0 (s.power.addAge kind unit v).shortest.2.2

theorem State.doAgeing_eq {s : State} {kind : Nat} (h1 : 1 ≤ kind) (h5 : kind ≤ 5) (unit v : Nat) {b : Nat × Nat × Nat}
    (hb : b = (s.power.addAge kind unit v).shortest) : s.doAgeing kind unit v =
      if b.1 ≤ s.fld .HLT_EOL_WARN_MONTHS 0 ∧ s.fld .HLT_EOL_WARN_MONTHS 0 < s.fld .HLT_EOL_MONTHS 0 then
        ((s.predicted kind unit v).setFlag .HLT_EOL_WARN 0 true).raiseNo 0x07 ⟨8, 0⟩ (1 + b.2.1 * 2 ^ 8 + b.2.2 * 2 ^ 16 + b.1 * 2 ^ 32)
      else s.predicted kind unit v := by
  subst hb
  exact if_pos ⟨h1, h5⟩

/-- Settles O55: Dormant and ageing by the branches of their rules. -/
theorem dormantAndAgeing : Obligations.DormantAndAgeing := by
  unfold Obligations.DormantAndAgeing
  intro s
  refine ⟨fun o ha => ⟨fun hm => congrArg Host.Outcome.next ?_, fun hm => congrArg Host.Outcome.next ?_,
      fun h => congrArg Host.Outcome.next ?_, fun h => congrArg Host.Outcome.next ?_⟩, State.mayEnter_needs,
    fun h => ⟨congrArg Host.Outcome.next (State.entered_dormant h), fun hp => congrArg Host.Outcome.next ?_⟩,
    fun h => congrArg Host.Outcome.next (if_neg h), fun h => ⟨fun c hc => congrArg Host.Outcome.next ?_,
      fun h0 hle => congrArg Host.Outcome.next ?_, fun hw => congrArg Host.Outcome.next (State.doWakeCause_early hw)⟩,
    fun h c hc => congrArg Host.Outcome.next (State.doWakeCause_awake h ?_), congrArg Host.Outcome.next rfl,
    fun kind unit v b h1 h5 hb => ?_, fun kind unit v h => congrArg Host.Outcome.next (if_neg (by omega)), fun p kind unit v => ?_⟩
  · rw [State.regCmd_trigger ha (by decide) (by decide), State.enterDormant, if_pos hm]
  · rw [State.regCmd_trigger ha (by decide) (by decide), State.enterDormant, hm, if_neg Bool.false_ne_true]
  · rw [State.regCmd_trigger ha (by decide) (by decide), State.wakeUp_dormant h]
  · rw [State.regCmd_trigger ha (by decide) (by decide), State.wakeUp_awake h]
  · have hnone : (List.range 8).filter (fun p => (s.port p).leaving.isSome) = [] :=
      List.filter_eq_nil_iff.mpr (fun p hpm => by simp [hp p (List.mem_range.mp hpm)])
    rw [State.entered_dormant h, hnone]
    rfl
  · rw [State.doWakeCause_wakes (by omega) (by omega), State.wakeUp_dormant h]
  · exact (State.doWakeCause_wakes (cause := 4) le_rfl (fun _ => ⟨h0, hle⟩)).trans (State.wakeUp_dormant h 4)
  · exact fun he => hc (BitVec.eq_of_toNat_eq he)
  · have he := State.doAgeing_eq h1 h5 unit.toNat v hb
    refine ⟨s.predicted kind.toNat unit.toNat v, rfl, ?_, ?_, rfl, fun h => congrArg Host.Outcome.next (he.trans (if_neg (by omega))),
      fun h2 h3 => congrArg Host.Outcome.next (he.trans (if_pos ⟨h2, h3⟩))⟩
    · rw [State.predicted, State.fld_setFld_of_ne _ _ _ _ (by decide), State.fld_setFld_of_ne _ _ _ _ (by decide), State.fld_setFld_same, ← hb]
      exact Nat.mod_eq_of_lt (lt_of_le_of_lt (hb ▸ Power.shortest_le _) (by decide))
    · rw [State.predicted, State.fld_setFld_same, ← hb]
      rfl
  · rw [Power.itemAge_addAge]
    exact ⟨rfl, List.length_take_le _ _⟩

end Sys2Proof.Machine
end

section
/-! PROOFS. What a record that is not audited leaves of the audit log, and its flush (R551, R554). -/

namespace Sys2Proof.Machine

/-! ### Writing a record does not reach the audit log

A record that is not audited itself leaves the count of the entries that wait for flash. -/

/-- The count of the entries that wait for flash stands. -/
def Unaudited (s t : State) : Prop := t.fld .MGT_AUDIT_STAT_UNFLUSHED 0 = s.fld .MGT_AUDIT_STAT_UNFLUSHED 0

namespace Unaudited

theorem refl (s : State) : Unaudited s s := rfl

theorem trans {s t u : State} (h : Unaudited s t) (k : Unaudited t u) : Unaudited s u := Eq.trans k h

theorem of_regs {s t : State} (h : t.regs = s.regs) : Unaudited s t := by
  unfold Unaudited
  simp only [State.fld, h]

theorem setFld (s : State) {f : Fld} (hf : f ≠ .MGT_AUDIT_STAT_UNFLUSHED) (i v : Nat) : Unaudited s (s.setFld f i v) :=
  State.fld_setFld_of_ne _ _ _ _ hf

theorem setBit (s : State) {f : Fld} (hf : f ≠ .MGT_AUDIT_STAT_UNFLUSHED) (i k : Nat) : Unaudited s (s.setBit f i k) :=
  setFld s hf i _

theorem setFlag (s : State) {f : Fld} (hf : f ≠ .MGT_AUDIT_STAT_UNFLUSHED) (i : Nat) (b : Bool) : Unaudited s (s.setFlag f i b) :=
  setFld s hf i _

theorem foldl {α : Type} {f : State → α → State} (hf : ∀ s x, Unaudited s (f s x)) (l : List α) (s : State) :
    Unaudited s (l.foldl f s) :=
  List.foldlRecOn (motive := fun t => Unaudited s t) l f (refl s) (fun t ht x _ => ht.trans (hf t x))

theorem gather {α : Type} {f : State → α → State × List ErrRec} (hf : ∀ s x, Unaudited s (f s x).1) (l : List α) (s : State) :
    Unaudited s (gather f s l).1 :=
  List.foldlRecOn (motive := fun p : State × List ErrRec => Unaudited s p.1) l _ (refl s) (fun p hp x _ => hp.trans (hf p.1 x))

end Unaudited

/-! ### Memory events -/

theorem State.stopMark_unaudited (s : State) (cls : Nat) : Unaudited s (s.stopMark cls) := by
  unfold State.stopMark
  split
  · exact .setFld s (by decide) _ _
  · exact .refl s

theorem State.rowCe_unaudited (s : State) (w : Accessor) (a : Nat) (wr scrub : Bool) :
    Unaudited s (s.rowCe w a wr scrub).1 := by
  unfold State.rowCe
  dsimp only
  have hrows (rows : List RowCe) : Unaudited s { s with rows := rows } := .of_regs rfl
  split
  · split
    · exact .trans (.trans (hrows _) (.setBit _ (by decide) 0 _)) (.of_regs rfl)
    · exact .trans (hrows _) (.setBit _ (by decide) 0 _)
  · exact hrows _

theorem State.wordLost_unaudited (s : State) (w : Accessor) (a : Nat) (wr scrub : Bool) :
    Unaudited s (s.wordLost w a wr scrub).1 := by
  unfold State.wordLost
  dsimp only
  have h : Unaudited s ((s.setEcc (s.wordKey a) .clean).setPoison (s.wordKey a) true) := .of_regs rfl
  split
  · exact h.trans (.setFld _ (by decide) _ _)
  · exact h.trans (.setFld _ (by decide) _ _)
  · exact h

theorem State.wordFixed_unaudited (s : State) (w : Accessor) (a : Nat) (wr scrub : Bool) :
    Unaudited s (s.wordFixed w a wr scrub).1 := by
  unfold State.wordFixed
  dsimp only
  have hecc : Unaudited s (s.setEcc (s.wordKey a) .clean) := .of_regs rfl
  split
  · exact hecc.trans (State.rowCe_unaudited ..)
  all_goals exact .of_regs rfl

theorem State.farPoison_unaudited (s : State) (w : Accessor) (a : Nat) : Unaudited s (s.farPoison w a).1 := by
  unfold State.farPoison
  split
  · exact .setFld s (by decide) _ _
  · exact .refl s

theorem State.checkWord_unaudited (s : State) (w : Accessor) (a : Nat) (wr : Bool) :
    Unaudited s (s.checkWord w a wr).1 := by
  unfold State.checkWord
  split
  · split
    · exact s.farPoison_unaudited w a
    · exact .refl s
  · exact s.wordFixed_unaudited w a wr false
  · exact s.wordLost_unaudited w a wr false

/-! ### Reading and writing memory -/

theorem State.poke_unaudited (s : State) (a : Nat) (b : Byte) : Unaudited s (s.poke a b) := .of_regs rfl

theorem State.countRead_unaudited (s : State) (a n : Nat) : Unaudited s (s.countRead a n) := by
  unfold State.countRead
  split <;> exact .of_regs rfl

theorem State.markDirty_unaudited (s : State) (a n : Nat) : Unaudited s (s.markDirty a n) := by
  unfold State.markDirty
  split <;> exact .of_regs rfl

theorem State.wrote_unaudited (s : State) (a n : Nat) : Unaudited s (s.wrote a n) := by
  unfold State.wrote
  split
  · exact (s.markDirty_unaudited a n).trans (.of_regs rfl)
  all_goals exact .of_regs rfl

theorem State.readBytes_unaudited (s : State) (w : Accessor) (a n : Nat) : Unaudited s (s.readBytes w a n).1 := by
  unfold State.readBytes
  dsimp only
  have hcheck := Unaudited.gather (fun s x => State.checkWord_unaudited s w x false)
    ((s.wordStarts a n).filter (fun x => s.accClass w x == 0)) s
  have huse (t : State) (c : Bool) : Unaudited t (if c then t else t.useFree) := by
    split <;> exact .of_regs rfl
  refine .trans (.trans hcheck ?_) (huse _ _)
  refine .trans ?_ (State.countRead_unaudited _ a n)
  split
  · exact .refl _
  · exact State.stopMark_unaudited _ _

theorem State.writeWord_unaudited (s : State) (w : Accessor) (x cover : Nat) (bad : Bool) :
    Unaudited s (s.writeWord w x cover bad).1 := by
  unfold State.writeWord
  dsimp only
  have hread : Unaudited s (if s.poisoned x then (s, []) else s.checkWord w x true).1 := by
    split
    · exact .refl s
    · exact s.checkWord_unaudited w x true
  split
  · exact .of_regs rfl
  · split
    · exact hread.trans (.of_regs rfl)
    · exact hread

theorem State.writeCells_unaudited (s : State) (w : Accessor) (cells : List (Nat × PByte)) :
    Unaudited s (s.writeCells w cells).1 := by
  unfold State.writeCells
  dsimp only
  have hpoke (l : List (Nat × PByte)) (t : State) : Unaudited t (l.foldl (fun st p => st.poke p.1 p.2.val) t) :=
    .foldl (fun t p => t.poke_unaudited p.1 p.2.val) l t
  split
  case' h_2 => refine .trans ?_ (State.stopMark_unaudited _ _)
  all_goals
    refine .trans (.gather (fun t k => ?_) _ s) (hpoke _ _)
    split
    · exact .refl t
    · exact State.writeWord_unaudited ..

theorem State.writeBytes_unaudited (s : State) (w : Accessor) (a : Nat) (bytes : List PByte) :
    Unaudited s (s.writeBytes w a bytes).1 :=
  (State.writeCells_unaudited ..).trans (State.wrote_unaudited ..)

/-! ### Translation -/

theorem State.walkReads_unaudited (s : State) (h : Option HostErr) (c cva : Nat) (u : UnitRef) :
    Unaudited s (s.walkReads h c cva u).1 := by
  unfold State.walkReads
  split
  · exact .refl s
  · exact .gather (fun t ea => t.readBytes_unaudited _ ea 8) _ s

theorem State.frozen_unaudited (s : State) (c cva acc : Nat) (u : UnitRef) : Unaudited s (s.frozen c cva acc u) :=
  have hheld : Unaudited s (s.holdWalk c cva acc u) := .of_regs rfl
  hheld.trans (.setFlag _ (by decide) c true)

theorem State.xlat_unaudited (s : State) (h : Option HostErr) (k c cva acc : Nat) (u : UnitRef) :
    Unaudited s (s.xlat h k c cva acc u).1 := by
  unfold State.xlat
  dsimp only
  split
  · split
    · exact s.frozen_unaudited c cva acc u
    · exact .of_regs rfl
  · split
    · exact .of_regs rfl
    · have hreads := s.walkReads_unaudited h c cva u
      split
      · exact hreads.trans (State.frozen_unaudited _ c cva acc u)
      · exact hreads.trans (.of_regs rfl)

/-! ### The error queue -/

theorem State.setVector_unaudited (s : State) (c v : Nat) : Unaudited s (s.setVector c v) := .of_regs rfl

theorem State.setVectors_unaudited (s : State) (vecs : List (Nat × Nat)) : Unaudited s (s.setVectors vecs) := by
  unfold State.setVectors
  exact .foldl (fun t v => t.setVector_unaudited v.1 v.2) vecs s

theorem State.slotWrite_unaudited (s : State) (c k dev : Nat) (body : BitVec 256) (vecs : List (Nat × Nat)) :
    Unaudited s (s.slotWrite errorQueue c k dev body vecs).1 := by
  unfold State.slotWrite
  dsimp only
  split
  · exact (s.stopMark_unaudited _).trans (.setFld _ (by decide) _ _)
  · exact ((State.writeBytes_unaudited ..).trans (.setFld _ (by decide) _ _)).trans (State.setVectors_unaudited ..)

theorem State.queueWrite_unaudited (s : State) (c k : Nat) (body : BitVec 256) (vecs : List (Nat × Nat)) :
    Unaudited s (s.queueWrite errorQueue c k body vecs).1 := by
  unfold State.queueWrite
  dsimp only
  have hx := s.xlat_unaudited none k c (s.fld errorQueue.base c * 64 + 32 * (s.fld errorQueue.prod c %
    queueEntries (s.fld errorQueue.size c))) 1 (writerUnit k)
  split
  · exact .setFld s (by decide) _ _
  · split
    · exact .of_regs rfl
    · split
      next e =>
        rw [e] at hx
        exact hx.trans (State.slotWrite_unaudited ..)
      next e =>
        rw [e] at hx
        exact hx.trans (.of_regs rfl)

theorem State.mirrorRecord_unaudited (s : State) (c : Nat) (body : BitVec 256) :
    Unaudited s (s.mirrorRecord c body).1 := by
  unfold State.mirrorRecord
  split
  · exact State.queueWrite_unaudited ..
  · exact .refl s

theorem State.lostRecord_unaudited (s : State) (c : Nat) : Unaudited s (s.lostRecord errorQueue c).1 := by
  unfold State.lostRecord
  dsimp only
  split
  · exact .refl s
  · exact ((Unaudited.setFld s (by decide) _ _).trans (State.queueWrite_unaudited ..)).trans
      (State.mirrorRecord_unaudited ..)

theorem State.queuePut_unaudited (s : State) (c k : Nat) (body : BitVec 256) (vecs : List (Nat × Nat)) :
    Unaudited s (s.queuePut errorQueue c k body vecs).1 :=
  (s.lostRecord_unaudited c).trans (State.queueWrite_unaudited ..)

/-! ### Raising -/

theorem State.post_unaudited (s : State) (r : ErrRec) (n mtime : Nat) : Unaudited s (s.post r n mtime).1 := by
  unfold State.post
  dsimp only
  have hvectors (l : List Nat) (t : State) : Unaudited t (l.foldl (fun t v => t.setVector 0 v) t) :=
    .foldl (fun t v => t.setVector_unaudited 0 v) l t
  have hput := s.queuePut_unaudited (r.ctx.getD 0) portCache (r.bits n mtime) (recordVectors r)
  refine .trans ?_ (hvectors _ _)
  split
  · dsimp only
    exact hput.trans (State.queuePut_unaudited _ 0 portCache (r.bits n mtime) [])
  · exact hput

theorem State.postAll_unaudited (depth : Nat) (s : State) (r : ErrRec) (n mtime : Nat) :
    Unaudited s (s.postAll depth r n mtime) := by
  induction depth generalizing s r n mtime with
  | zero => exact .setFld s (by decide) _ _
  | succ depth ih => exact (s.post_unaudited r n mtime).trans (.foldl (fun t e => ih t e 1 t.now) _ _)

theorem State.record_unaudited (s : State) (r : ErrRec) : Unaudited s (s.record r) := by
  unfold State.record
  split
  · exact .of_regs rfl
  · exact s.postAll_unaudited 6 r 1 s.now

/-- The record of a class that is not audited. -/
theorem State.raiseNo_unaudited (s : State) {cls : Nat} (h : auditedClass cls = false) (u : UnitRef) (detail : Nat) :
    Unaudited s (s.raiseNo cls u detail) := by
  simp only [State.raiseNo, State.raise, h, Bool.false_eq_true, if_false]
  exact State.record_unaudited _ _

/-! ### The flush (R554) -/

theorem State.flashAll_flashed (first : Nat) (s : State) (n : Nat) :
    ((List.range n).foldl (fun s k => s.flashOne (first + k)) s).flashed = s.flashed + n := by
  induction n with
  | zero => rfl
  | succ n ih =>
    rw [List.range_succ, List.foldl_append, List.foldl_cons, List.foldl_nil]
    show ((List.range n).foldl (fun s k => s.flashOne (first + k)) s).flashed + 1 = _
    rw [ih, Nat.add_assoc]

/-- The entries that wait, copied to flash. -/
def State.flashedAll (s : State) : State :=
  ((List.range (s.fld .MGT_AUDIT_STAT_UNFLUSHED 0)).foldl (fun t k =>
    t.flashOne (s.fld .MGT_AUDIT_SEQ_NEXT 0 - s.fld .MGT_AUDIT_STAT_UNFLUSHED 0 + k)) s).setFld .MGT_AUDIT_STAT_UNFLUSHED 0 0

theorem State.auditFlush_eq (s : State) : s.auditFlush =
    if (s.flashed - 1) / 1048576 < (s.flashedAll.flashed - 1) / 1048576 then
      (s.flashedAll.setFlag .MGT_AUDIT_STAT_WRAP 0 true).raiseNo 0x0C ⟨8, 0⟩ 0
    else s.flashedAll := rfl

theorem State.flashedAll_unflushed (s : State) : s.flashedAll.fld .MGT_AUDIT_STAT_UNFLUSHED 0 = 0 :=
  (State.fld_setFld_same _ _ _ _).trans (Nat.zero_mod _)

theorem State.auditFlush_unflushed (s : State) : s.auditFlush.fld .MGT_AUDIT_STAT_UNFLUSHED 0 = 0 := by
  rw [State.auditFlush_eq]
  split
  · have h : Unaudited s.flashedAll ((s.flashedAll.setFlag .MGT_AUDIT_STAT_WRAP 0 true).raiseNo 0x0C ⟨8, 0⟩ 0) :=
      (Unaudited.setFlag s.flashedAll (by decide) 0 true).trans (State.raiseNo_unaudited _ (by decide) ⟨8, 0⟩ 0)
    exact Eq.trans h s.flashedAll_unflushed
  · exact s.flashedAll_unflushed

theorem State.auditFlush_flashed (s : State) : s.auditFlush.flashed = s.flashed + s.fld .MGT_AUDIT_STAT_UNFLUSHED 0 := by
  have hall : s.flashedAll.flashed = s.flashed + s.fld .MGT_AUDIT_STAT_UNFLUSHED 0 := State.flashAll_flashed _ _ _
  rw [State.auditFlush_eq]
  split
  · rw [(State.raiseNo_reports _ _ _ _).outside]
    exact hall
  · exact hall

end Sys2Proof.Machine
end

section
/-! PROOFS. Rack time and neighbours, presence, firmware and debug (R547-R550, R556-R560). -/

namespace Sys2Proof.Machine

theorem State.mgt_on {s : State} (h : s.power.auxGood = true ∨ s.power.vinGood = true) (act : State → State) : s.mgt act = act s :=
  if_pos (Bool.or_eq_true_iff.mpr h)

/-! ### Rack time (R547, R549) -/

theorem State.settime_eq {s : State} (hr : s.flag .PWR_STATUS_READY 0 = false) (v : Word) :
    s.settime v = { s with power := { s.power with mtimeSet := some (1001, v), settime := true } } := by
  rw [State.settime, State.takeMtime, hr]
  rfl

theorem State.doSettimeBroadcast_taken {s : State} (h : s.power.auxGood = true ∨ s.power.vinGood = true) {body : List Byte} {v : Word}
    (hv : settimeValue 0x01 0x00 body = some v) (hr : s.flag .PWR_STATUS_READY 0 = false) :
    s.doSettimeBroadcast .i3c body = s.settime v := by
  rw [State.doSettimeBroadcast, State.mgt_on h]
  simp only [hv, hr, Bool.not_false, decide_true, Bool.and_self, if_true]

theorem State.doSettimeBroadcast_ignored {s : State} (h : s.power.auxGood = true ∨ s.power.vinGood = true) {tr : Transport}
    {body : List Byte} (hno : settimeValue 0x01 0x00 body = none ∨ tr ≠ .i3c ∨ s.flag .PWR_STATUS_READY 0 = true) :
    s.doSettimeBroadcast tr body = s := by
  rw [State.doSettimeBroadcast, State.mgt_on h]
  split
  next v hv =>
    rcases hno with hn | hn | hn
    · rw [hn] at hv
      cases hv
    · rw [decide_eq_false hn, Bool.false_and, if_neg Bool.false_ne_true]
    · rw [hn, Bool.not_true, Bool.and_false, if_neg Bool.false_ne_true]
  next => rfl

theorem State.doSettimeDirected_i3c {s : State} (h : s.power.auxGood = true ∨ s.power.vinGood = true) {body : List Byte} {v : Word}
    (hv : settimeValue 0x02 0x01 body = some v) : s.doSettimeDirected .i3c body =
      if s.flag .PWR_STATUS_READY 0 then s.emit (.mctp [0x82, 0x02]) else (s.settime v).emit (.mctp [0x82, 0x00]) := by
  rw [State.doSettimeDirected, State.mgt_on h]
  simp only [hv, ne_eq, not_true_eq_false, if_false]

theorem State.doSettimeDirected_bad {s : State} (h : s.power.auxGood = true ∨ s.power.vinGood = true) {body : List Byte}
    (hv : settimeValue 0x02 0x01 body = none) : s.doSettimeDirected .i3c body = s.emit (.mctp [0x82, 0x01]) := by
  rw [State.doSettimeDirected, State.mgt_on h]
  simp only [hv, ne_eq, not_true_eq_false, if_false]

theorem State.doSettimeDirected_other {s : State} (h : s.power.auxGood = true ∨ s.power.vinGood = true) {tr : Transport}
    (htr : tr ≠ .i3c) (body : List Byte) : s.doSettimeDirected tr body = s := by
  rw [State.doSettimeDirected, State.mgt_on h]
  exact if_pos htr

/-! ### Neighbours (R548, R549) -/

theorem State.doPeerResponse_eq {s : State} (h : s.power.auxGood = true ∨ s.power.vinGood = true) (body : List Byte) :
    s.doPeerResponse body = if body.length = 5 ∧ (body.getD 0 0).toNat = 0x83 ∧ (body.getD 4 0).toNat ≤ 1 ∧
        s.flag .MGT_PEER_BUSY 0 = true ∧ leNat ((body.drop 1).take 3) = s.fld .MGT_PEER_NODE 0 then
      s.peerResult (body.getD 4 0).toNat
    else s := by
  rw [State.doPeerResponse, State.mgt_on h]

/-- The parts of an answer of the rack manager. -/
theorem peerAnswer_parts {node st : Nat} (hst : st ≤ 1) (hn : node < 2 ^ 24) {body : List Byte}
    (hb : body = [0x83] ++ leBytes 3 node ++ leBytes 1 st) : body.length = 5 ∧ (body.getD 0 0).toNat = 0x83 ∧
      (body.getD 4 0).toNat = st ∧ leNat ((body.drop 1).take 3) = node := by
  subst hb
  refine ⟨rfl, rfl, ?_, ?_⟩
  · show (BitVec.ofNat 8 st).toNat = st
    rw [BitVec.toNat_ofNat]
    omega
  · show leNat (leBytes 3 node) = node
    rw [leNat_leBytes]
    omega

/-- Settles O56: rack time, neighbours and views by the branches of their rules. -/
theorem rackTimeAndViews : Obligations.RackTimeAndViews := by
  unfold Obligations.RackTimeAndViews
  intro s h
  refine ⟨fun body v s1 hv hr hs1 => congrArg Host.Outcome.next ?_, fun tr body hno => congrArg Host.Outcome.next
      (State.doSettimeBroadcast_ignored h hno), fun body v hv => ⟨fun hr => congrArg Host.Outcome.next ?_,
      fun hr => congrArg Host.Outcome.next ?_⟩, fun body hv => congrArg Host.Outcome.next (State.doSettimeDirected_bad h hv),
    fun tr body htr => congrArg Host.Outcome.next (State.doSettimeDirected_other h htr body), fun o node ha => ⟨s.askPeer node.toNat,
      congrArg Host.Outcome.next (State.regCmd_trigger ha (by decide) (by decide) _ _ _), ?_, ?_, rfl, rfl, rfl⟩,
    fun body st hst hb hn hbody => congrArg Host.Outcome.next ?_, fun body hno => congrArg Host.Outcome.next ?_,
    fun hb => ⟨fun hle => congrArg Host.Outcome.next ?_, fun hlt => congrArg Host.Outcome.next ?_⟩,
    fun views => ⟨_, rfl, _, rfl, congrArg Host.Outcome.next (State.mgt_on h _)⟩, fun v a b => rfl, fun sh hst p => ⟨rfl, rfl, rfl⟩⟩
  · rw [State.doSettimeBroadcast_taken h hv hr, State.settime_eq hr, hs1]
  · rw [State.doSettimeDirected_i3c h hv, hr, if_neg Bool.false_ne_true, State.settime_eq hr]
  · rw [State.doSettimeDirected_i3c h hv, if_pos hr]
  · show ((s.setFld .MGT_PEER_NODE 0 node.toNat).setFlag .MGT_PEER_BUSY 0 true).fld .MGT_PEER_NODE 0 = _
    rw [State.setFlag, State.fld_setFld_of_ne _ _ _ _ (by decide), State.fld_setFld_same]
    exact Nat.mod_eq_of_lt node.isLt
  · exact State.flag_setFlag_same (s.setFld .MGT_PEER_NODE 0 node.toNat) (by decide) 0 true
  · obtain ⟨hlen, h0, h4, hnode⟩ := peerAnswer_parts hst hn hbody
    rw [State.doPeerResponse_eq h, if_pos ⟨hlen, h0, by omega, hb, hnode⟩, h4]
    rfl
  · rw [State.doPeerResponse_eq h]
    refine if_neg ?_
    rintro ⟨hlen, -, -, hbusy, -⟩
    rcases hno with hno | hno
    · exact hno hlen
    · rw [hno] at hbusy
      exact Bool.false_ne_true hbusy
  · rw [State.mgt_on h, State.doPeerTimeout, hb, decide_eq_true hle]
    rfl
  · rw [State.mgt_on h, State.doPeerTimeout, hb, decide_eq_false (Nat.not_le.mpr hlt)]
    rfl

/-! ### Presence (R556) -/

theorem State.presenceCloses_eq {s : State} {t : Nat} (ht : s.power.presenceAt = some t) (ho : s.flag .MGT_PRESENCE_OPEN 0 = true) :
    s.presenceCloses = if t + 60000000000 ≤ s.power.clock then
        ((({ s with power := { s.power with presenceAt := none } } : State).setFlag .MGT_PRESENCE_OPEN 0 false).raiseNo 0x09
          ⟨8, 0⟩ 1).auditEvent ⟨5, 8 * 4096⟩ 0x09 0 1
      else s := by
  simp only [State.presenceCloses, ht, ho, Bool.true_and, decide_eq_true_eq]
  rfl

/-! ### Writes that presence guards (R20, R556-R560) -/

theorem State.rwpTry_absent {s : State} {o : Origin} {r : Reg} (ha : s.answers o r) (hp : s.flag .MGT_PRESENCE_OPEN 0 = false)
    (data : Nat) (may : State → Bool) (act refuse : State → State) :
    s.rwpTry o r data may act refuse = s.auditOf s false (Origin.audit o) r 0 data := by
  rw [State.rwpTry, State.access_of_answers ha]
  dsimp only
  rw [hp]
  rfl

theorem State.rwpTry_present {s : State} {o : Origin} {r : Reg} (ha : s.answers o r) (hp : s.flag .MGT_PRESENCE_OPEN 0 = true)
    (data : Nat) (may : State → Bool) (act refuse : State → State) : s.rwpTry o r data may act refuse =
      if may s then s.auditOf (act s) true (Origin.presence o) r 0 data
      else s.auditOf (refuse s) false (Origin.audit o) r 0 data := by
  rw [State.rwpTry, State.access_of_answers ha]
  dsimp only
  rw [hp]
  rfl

/-! ### Firmware (R558, R559) -/

/-- The slot that does not run holds a version. -/
def State.staged (s : State) (version : Nat) : State :=
  ({ s with power := { s.power with activated := false, slotVer := s.power.slotVer.set (1 - s.fld .MGT_FW_SLOT 0) version } } :
    State).setFld .MGT_FW_VER_STAGED_VER 0 version

theorem State.transferFw_done (s : State) (version : Nat) (ok : Bool) : s.transferFw version true ok =
    if (!(s.flag .SEC_STATUS_KEY_FUSED 0) || !ok) = true then
      ((s.staged version).setFld .MGT_FW_STAGE 0 3).raiseNo 0x0B ⟨8, 0⟩ (0 + version * 2 ^ 32)
    else if version < s.fld .MGT_FW_VER_MIN_VER 0 then
      ((s.staged version).setFld .MGT_FW_STAGE 0 3).raiseNo 0x0B ⟨8, 0⟩ (1 + version * 2 ^ 32)
    else (s.staged version).setFld .MGT_FW_STAGE 0 2 := rfl

theorem State.revertFw_none {s : State} (h : s.revertCause = none) : s.revertFw = s := by
  simp only [State.revertFw, h]

theorem State.revertFw_some {s : State} {c v : Nat} (h : s.revertCause = some c)
    (hv : v = s.power.slotVer.getD (1 - s.fld .MGT_FW_SLOT 0) 0) {s1 : State}
    (hs1 : s1 = (((s.setFld .MGT_FW_SLOT 0 (1 - s.fld .MGT_FW_SLOT 0)).setFld .MGT_FW_RUN_VER 0 v).setFlag .MGT_FW_TRIAL 0
      false).raiseNo 0x0A ⟨8, 0⟩ (c + s.fld .MGT_FW_RUN_VER 0 % 2 ^ 28 * 2 ^ 8 + v % 2 ^ 28 * 2 ^ 36)) :
    s.revertFw = ({ s1 with power := { s1.power with startFails := 0 } } : State).moduleReset := by
  have hslot : s.otherSlot = 1 - s.fld .MGT_FW_SLOT 0 := rfl
  have hunit : mgtUnit = ⟨8, 0⟩ := rfl
  simp only [State.revertFw, h, hslot, hunit, ← hv, ← hs1]

theorem State.revertCause_unconfirmed {s : State} (ht : s.flag .MGT_FW_TRIAL 0 = true)
    (hv : s.fld .MGT_FW_VER_MIN_VER 0 ≤ s.power.slotVer.getD (1 - s.fld .MGT_FW_SLOT 0) 0)
    (hr : s.flag .PWR_STATUS_READY 0 = true) (hle : s.power.readyAt + 600000000000 ≤ s.now) : s.revertCause = some 0 := by
  have hver : ¬ s.power.slotVer.getD s.otherSlot 0 < s.fld .MGT_FW_VER_MIN_VER 0 := Nat.not_lt.mpr hv
  rw [State.revertCause, ht, hr, decide_eq_false hver, decide_eq_true hle]
  rfl

/-- Settles O57: presence, firmware and debug by the branches of their rules. -/
theorem presenceFirmwareAndDebug : Obligations.PresenceFirmwareAndDebug := by
  unfold Obligations.PresenceFirmwareAndDebug
  intro s h
  refine ⟨⟨congrArg Host.Outcome.next (State.mgt_on h _), s.auditFlush_unflushed, s.auditFlush_flashed, s.auditFlush_power⟩,
    fun s1 hs1 => ⟨fun hp => congrArg Host.Outcome.next ?_, fun hp => congrArg Host.Outcome.next ?_⟩,
    fun hn => congrArg Host.Outcome.next ?_, fun t ht ho => ⟨fun hle => congrArg Host.Outcome.next ?_,
      fun hlt => congrArg Host.Outcome.next ?_⟩, fun v ok s1 hs1 => ⟨congrArg Host.Outcome.next ?_, fun s2 hs2 => ?transfer⟩,
    fun o => ⟨fun ha => ?firmware, fun ha => ?version, fun ha => ?debug⟩, fun hn => congrArg Host.Outcome.next ?_,
    fun c v s1 hc hv hs1 => congrArg Host.Outcome.next ?_, State.revertCause_unconfirmed⟩
  · rw [State.mgt_on h, State.presenceOpens, hp, hs1]
    rfl
  · rw [State.mgt_on h, State.presenceOpens, hp, hs1]
    rfl
  · rw [State.mgt_on h]
    simp only [State.presenceCloses, hn]
  · rw [State.mgt_on h, State.presenceCloses_eq ht ho, if_pos hle]
  · rw [State.mgt_on h, State.presenceCloses_eq ht ho, if_neg (Nat.not_le.mpr hlt)]
  · rw [State.mgt_on h, hs1]
    rfl
  case transfer =>
    have he (b : Bool) := s.transferFw_done v.toNat b
    have hst : s.staged v.toNat = s2 := by
      rw [hs2, hs1]
      rfl
    rw [hst] at he
    refine ⟨fun hk hle => congrArg Host.Outcome.next ?_, fun hk hlt => congrArg Host.Outcome.next ?_,
      fun hbad => congrArg Host.Outcome.next ?_⟩
    · rw [State.mgt_on h, he, hk, if_neg (by decide), if_neg (Nat.not_lt.mpr hle)]
    · rw [State.mgt_on h, he, hk, if_neg (by decide), if_pos hlt]
    · have hb : (!(s.flag .SEC_STATUS_KEY_FUSED 0) || !ok) = true := by
        rcases hbad with hb | hb <;> simp [hb]
      rw [State.mgt_on h, he, if_pos hb, Nat.zero_add]
  case firmware =>
    refine ⟨fun hp => congrArg Host.Outcome.next (State.rwpTry_absent ha hp _ _ _ _), fun hp ht hst => congrArg Host.Outcome.next ?_,
      fun hp ht => congrArg Host.Outcome.next ?_, fun ht => congrArg Host.Outcome.next ?_, fun ht => congrArg Host.Outcome.next ?_⟩
    · have hmay : s.mayActivate = true := by
        rw [State.mayActivate, ht, hst]
        rfl
      rw [State.activateCmd, State.rwpTry_present ha hp, if_pos hmay]
      rfl
    · have hmay : ¬ s.mayActivate = true := by
        rw [State.mayActivate, ht]
        exact Bool.false_ne_true
      rw [State.activateCmd, State.rwpTry_present ha hp, if_neg hmay, if_pos ht]
      rfl
    · rw [State.regCmd_trigger ha (by decide) (by decide), State.doConfirm, if_pos ht]
    · rw [State.regCmd_trigger ha (by decide) (by decide), State.doConfirm, ht, if_neg Bool.false_ne_true]
  case version =>
    refine ⟨fun hp ht => congrArg Host.Outcome.next ?_, fun hno => congrArg Host.Outcome.next ?_⟩
    · rw [State.raiseCmd, State.rwpTry_present ha hp, ht]
      rfl
    · cases hp : s.flag .MGT_PRESENCE_OPEN 0
      · exact State.rwpTry_absent ha hp _ _ _ _
      · have ht : s.flag .MGT_FW_TRIAL 0 = true := hno.resolve_left (by rw [hp]; exact Bool.noConfusion)
        rw [State.raiseCmd, State.rwpTry_present ha hp, ht]
        rfl
  case debug =>
    refine ⟨fun hp => congrArg Host.Outcome.next (State.rwpCmd_present ha hp _ _ _),
      fun hp => congrArg Host.Outcome.next (State.rwpCmd_absent ha hp _ _ _), congrArg Host.Outcome.next ?_⟩
    rw [State.regCmd_trigger ha (by decide) (by decide)]
    rfl
  · rw [State.mgt_on h, State.revertFw_none hn]
  · rw [State.mgt_on h, State.revertFw_some hc hv hs1]

end Sys2Proof.Machine
end

section
/-! PROOFS. Register accesses, the TAP, and the host's writes to HBM (R15-R20, R270-R274, R490, R546, R560). -/

namespace Sys2Proof.Machine

/-! ### Where an access of a width goes (R15, R17) -/

/-- A VF reaches no register of PF BAR0. -/
theorem State.answers_not_vf {s : State} {o : Origin} {r : Reg} (h : s.answers o r) (c : BitVec 12) : o ≠ .vf c := by
  rintro rfl
  exact Bool.false_ne_true h.2

/-- A write of 4 or 8 aligned bytes to a register of PF BAR0. -/
theorem State.regWrite_reg {s : State} {o : Origin} {r : Reg} {off width i : Nat} (ha : s.answers o r)
    (hw : width = 4 ∨ width = 8) (hal : off % width = 0) (hp : s.barPlace (off / 8 * 8) = some (.reg r i))
    (hwin : pfWindow off = false) (v : Nat) : s.regWrite o off width v =
      s.halfPut o r i (decide (width = 8)) (decide (off % 8 = 4)) (v % 2 ^ (8 * width)) := by
  have hopen : ∀ t : State, (false && !(t.winOpen 0 (Place.reg r i).isMsix)) ≠ true := fun t => Bool.false_ne_true
  rw [State.regWrite, if_pos ⟨hw, hal⟩]
  cases o with
  | vf c => exact absurd rfl (State.answers_not_vf ha c)
  | pf => simp only [hp, hwin, if_neg (hopen _)]; exact State.access_of_answers ha _
  | mgmt e => simp only [hp, hwin, if_neg (hopen _)]; exact State.access_of_answers ha _
  | jtag => simp only [hp, hwin, if_neg (hopen _)]; exact State.access_of_answers ha _

theorem State.regWrite_unaligned {s : State} {off width : Nat} (h : ¬((width = 4 ∨ width = 8) ∧ off % width = 0)) (o : Origin)
    (v : Nat) : s.regWrite o off width v = s := if_neg h

/-- The upper half of a register: its place is that of the whole register. -/
theorem upperHalf {off : Nat} (h : off % 8 = 0) : (off + 4) / 8 * 8 = off ∧ (off + 4) % 4 = 0 ∧ (off + 4) % 8 = 4 := by omega

theorem pfWindow_upperHalf {off : Nat} (h : off % 8 = 0) (hw : pfWindow off = false) : pfWindow (off + 4) = false := by
  simp only [pfWindow, Bool.and_eq_false_iff, decide_eq_false_iff_not] at hw ⊢
  omega

theorem add_four_toNat {off : BitVec 26} (h : off.toNat % 8 = 0) : (off + 4).toNat = off.toNat + 4 := by
  have hlt := off.isLt
  rw [BitVec.toNat_add]
  show (off.toNat + 4) % 2 ^ 26 = _
  omega

/-- The written bits of the upper half. -/
theorem fullMask_upper : fullMask - (2 ^ 32 - 1) = 2 ^ 64 - 2 ^ 32 := by norm_num [fullMask]

/-- A whole write of an aligned register. -/
theorem State.regWrite_whole {s : State} {o : Origin} {r : Reg} {off i : Nat} (ha : s.answers o r) (hal : off % 8 = 0)
    (hp : s.barPlace off = some (.reg r i)) (hwin : pfWindow off = false) (v : Word) : s.regWrite o off 8 v.toNat =
      (if r.latches then s.latch r i v.toNat else s).regPut o r i fullMask v.toNat := by
  have hpl : s.barPlace (off / 8 * 8) = some (.reg r i) := by rwa [Nat.div_mul_cancel (Nat.dvd_of_mod_eq_zero hal)]
  have hv : v.toNat % 2 ^ (8 * 8) = v.toNat := Nat.mod_eq_of_lt v.isLt
  rw [State.regWrite_reg ha (.inr rfl) hal hpl hwin, hv, State.halfPut, if_pos (decide_eq_true rfl)]

/-- A write of the lower half. -/
theorem State.regWrite_lower {s : State} {o : Origin} {r : Reg} {off i : Nat} (ha : s.answers o r) (hal : off % 8 = 0)
    (hp : s.barPlace off = some (.reg r i)) (hwin : pfWindow off = false) (v : Nat) : s.regWrite o off 4 v =
      if r.latches then s.latch r i (v % 2 ^ 32) else s.regPut o r i (2 ^ 32 - 1) (v % 2 ^ 32) := by
  have hpl : s.barPlace (off / 8 * 8) = some (.reg r i) := by rwa [Nat.div_mul_cancel (Nat.dvd_of_mod_eq_zero hal)]
  have hlow : decide (off % 8 = 4) = false := decide_eq_false (by omega)
  have hwide : decide (4 = 8) = false := decide_eq_false (by omega)
  have h32 : 8 * 4 = 32 := by omega
  rw [State.regWrite_reg ha (.inl rfl) (by omega) hpl hwin, hlow, hwide, h32]
  generalize v % 2 ^ 32 = w
  simp only [State.halfPut, if_neg Bool.false_ne_true]

/-- A write of the upper half. -/
theorem State.regWrite_upper {s : State} {o : Origin} {r : Reg} {off i : Nat} (ha : s.answers o r) (hal : off % 8 = 0)
    (hp : s.barPlace off = some (.reg r i)) (hwin : pfWindow off = false) (v : Nat) : s.regWrite o (off + 4) 4 v =
      if r.latches then s.regPut o r i fullMask (v % 2 ^ 32 * 2 ^ 32 + (Tbl.get 0 s.held (latchKey r i)).toNat)
      else s.regPut o r i (2 ^ 64 - 2 ^ 32) (v % 2 ^ 32 * 2 ^ 32) := by
  obtain ⟨hdiv, hmod, hhigh⟩ := upperHalf hal
  have hwide : decide (4 = 8) = false := decide_eq_false (by omega)
  have h32 : 8 * 4 = 32 := by omega
  rw [State.regWrite_reg ha (.inl rfl) hmod (by rw [hdiv]; exact hp) (pfWindow_upperHalf hal hwin), decide_eq_true hhigh,
    hwide, h32, State.halfPut, if_neg Bool.false_ne_true, if_pos rfl, if_pos rfl, fullMask_upper]

theorem State.latchedWrite_latch {s : State} {o : Origin} {r : Reg} {off i : Nat} (ha : s.answers o r) (hal : off % 8 = 0)
    (hp : s.barPlace off = some (.reg r i)) (hwin : pfWindow off = false) (hl : r.latches = true) (w : BitVec 32) :
    s.latchedWrite o off w.toNat = s.latch r i w.toNat := by
  have hplace : s.placeOf o off = some (.reg r i) := by
    cases o with
    | vf c => exact absurd rfl (State.answers_not_vf ha c)
    | pf => exact hp
    | mgmt e => exact hp
    | jtag => exact hp
  have hw : w.toNat % 2 ^ 32 = w.toNat := Nat.mod_eq_of_lt w.isLt
  simp only [State.latchedWrite, hplace, hl, hal, beq_self_eq_true, Bool.and_self, if_true, State.regWrite_lower ha hal hp hwin, hw]

/-! ### A VF's window (R274, R298) -/

theorem State.hostWakes_vf {s : State} (h4 : s.fld .PWR_STATUS_STATE 0 ≠ 4) (c : BitVec 12) (r : Reg) : s.hostWakes (.vf c) r = s := by
  show (if s.power.hostUp = true then s.wakeUp 1 else s) = s
  rw [State.wakeUp_awake h4, ite_self]

/-- The window of an enabled context that is not in reset takes a VF's write. -/
theorem State.regWrite_vf_open {s : State} {c : BitVec 12} {off : Nat} {p : Place} (hal : off % 8 = 0) (hlt : off < 0x10000)
    (hp : s.winPlace c.toNat off = some p) (hc : c ≠ 0) (hport : s.hostPort = true) (h4 : s.fld .PWR_STATUS_STATE 0 ≠ 4)
    (hopen : s.winOpen c.toNat p.isMsix = true) (v : Word) :
    s.regWrite (.vf c) off 8 v.toNat = s.placePut (.vf c) p true false v.toNat := by
  have hv : v.toNat % 2 ^ (8 * 8) = v.toNat := Nat.mod_eq_of_lt v.isLt
  have hhigh : decide (off % 8 = 4) = false := decide_eq_false (by omega)
  rw [State.regWrite, if_pos ⟨.inr rfl, hal⟩]
  simp only [hv, hhigh, Nat.div_mul_cancel (Nat.dvd_of_mod_eq_zero hal), State.hostWakes_vf h4, hp, hport, hopen, bne_iff_ne.mpr hc,
    decide_eq_true hlt, Bool.and_self, if_true, decide_true]

/-- The window of a disabled context takes no write: the part only wakes from Dormant. -/
theorem State.regWrite_vf_disabled {s : State} {c : BitVec 12} {off : Nat} (hal : off % 8 = 0)
    (h : (s.hostWakes (.vf c) .CMD_CFG).flag .CTX_CFG_ENABLE c.toNat = false) (v : Nat) :
    s.regWrite (.vf c) off 8 v = s.hostWakes (.vf c) .CMD_CFG := by
  rw [State.regWrite, if_pos ⟨.inr rfl, hal⟩]
  simp only [State.winOpen, h, Bool.false_and, Bool.and_false, if_neg Bool.false_ne_true]
  cases (s.hostWakes (.vf c) .CMD_CFG).winPlace c.toNat (off / 8 * 8) <;> rfl

/-- A write of a VF whose context is disabled, while the part is not Dormant. -/
theorem State.regWrite_vf_awake {s : State} {c : BitVec 12} (h4 : s.fld .PWR_STATUS_STATE 0 ≠ 4)
    (hen : s.flag .CTX_CFG_ENABLE c.toNat = false) (off v : Nat) : s.regWrite (.vf c) off 8 v = s := by
  by_cases hal : off % 8 = 0
  · rw [State.regWrite_vf_disabled hal (by rw [State.hostWakes_vf h4]; exact hen), State.hostWakes_vf h4]
  · exact State.regWrite_unaligned (fun h => hal h.2) _ _

theorem State.flag_wakeUp {s : State} {f : Fld} {i : Nat} (hs : f ≠ .PWR_STATUS_STATE) (hr : f ≠ .PWR_STATUS_READY)
    (hc : f ≠ .PWR_DORMANT_CAUSE) (cause : Nat) : (s.wakeUp cause).flag f i = s.flag f i := by
  unfold State.wakeUp
  split
  · rw [State.flag_setFld_of_ne _ _ _ _ hc.symm, State.setFlag, State.flag_setFld_of_ne _ _ _ _ hr.symm,
      State.flag_setFld_of_ne _ _ _ _ hs.symm]
  · rfl

/-- A write of a VF whose context is disabled wakes a Dormant part and does nothing more. -/
theorem State.regWrite_vf_wakes {s : State} {c : BitVec 12} (hup : s.power.hostUp = true)
    (hen : s.flag .CTX_CFG_ENABLE c.toNat = false) {off : Nat} (hal : off % 8 = 0) (v : Nat) :
    s.regWrite (.vf c) off 8 v = s.wakeUp 1 := by
  have hwake : s.hostWakes (.vf c) .CMD_CFG = s.wakeUp 1 := if_pos hup
  rw [State.regWrite_vf_disabled hal, hwake]
  rw [hwake, State.flag_wakeUp (by decide) (by decide) (by decide), hen]

/-! ### A field takes a write as its access type says (R20) -/

theorem bitAt_eq_testBit (x k : Nat) : bitAt x k = x.testBit k := by
  rw [Nat.testBit_eq_decide_div_mod_eq]
  rfl

/-- Bit b of the written ones of a field whose bits are all written. -/
theorem testBit_written (v lo w b : Nat) (hb : b < w) :
    (v / 2 ^ lo % 2 ^ w &&& (2 ^ w - 1)).testBit b = v.testBit (lo + b) := by
  simp [Nat.testBit_mod_two_pow, Nat.testBit_div_two_pow, hb, Nat.add_comm]

theorem State.writeFld_w1c {s : State} {f : Fld} (ha : f.info.access = .W1C) (hlo : f.info.lo + f.width ≤ 64) (i v b : Nat)
    (hb : b < f.width) : bitAt ((s.writeFld f i (2 ^ 64 - 1) v).fld f i) b =
      (bitAt (s.fld f i) b && !(bitAt v (f.info.lo + b))) := by
  rw [State.writeFld, ha, fullMask_field hlo]
  dsimp only
  rw [State.fld_setFld_same]
  simp only [bitAt_eq_testBit, Nat.testBit_mod_two_pow, Nat.testBit_xor, Nat.testBit_and (s.fld f i), testBit_written v _ _ b hb,
    hb, decide_true, Bool.true_and]
  cases (s.fld f i).testBit b <;> cases v.testBit (f.info.lo + b) <;> rfl

theorem State.writeFld_w1s {s : State} {f : Fld} (ha : f.info.access = .W1S) (hlo : f.info.lo + f.width ≤ 64) (i v b : Nat)
    (hb : b < f.width) : bitAt ((s.writeFld f i (2 ^ 64 - 1) v).fld f i) b = (bitAt (s.fld f i) b || bitAt v (f.info.lo + b)) := by
  rw [State.writeFld, ha, fullMask_field hlo]
  dsimp only
  rw [State.fld_setFld_same]
  simp only [bitAt_eq_testBit, Nat.testBit_mod_two_pow, Nat.testBit_or, testBit_written v _ _ b hb, hb, decide_true, Bool.true_and]

theorem State.writeFld_rw {s : State} {f : Fld} (ha : f.info.access = .RW) (hlo : f.info.lo + f.width ≤ 64) (i v : Nat) :
    (s.writeFld f i (2 ^ 64 - 1) v).fld f i = v / 2 ^ f.info.lo % 2 ^ f.width := by
  rw [State.writeFld_full s ha hlo, State.fld_setFld_same]

theorem State.writeFld_ro {s : State} {f : Fld} (ha : f.info.access = .RO) (i mask v : Nat) : s.writeFld f i mask v = s := by
  rw [State.writeFld, ha]

/-- A write of a field leaves every other field as it was. -/
theorem State.fld_writeFld_ne {s : State} {f g : Fld} {i j : Nat} (h : (g, j) ≠ (f, i)) (mask v : Nat) :
    (s.writeFld f i mask v).fld g j = s.fld g j := by
  have hne : ¬(f = g ∧ i = j) := by rintro ⟨rfl, rfl⟩; exact h rfl
  unfold State.writeFld
  cases f.info.access
  case RW => exact State.fld_setFld_ne _ _ _ _ _ _ hne
  case W1C => exact State.fld_setFld_ne _ _ _ _ _ _ hne
  case W1S => exact State.fld_setFld_ne _ _ _ _ _ _ hne
  all_goals rfl

/-! ### Effecters and the TAP (R545, R546, R560) -/

theorem State.answers_effecter {s : State} {r : Reg} (hr : r.effecter = true)
    (h : s.power.auxGood = true ∨ s.power.vinGood = true) (e : BitVec 8) : s.answers (.mgmt e) r :=
  ⟨rfl, Bool.and_eq_true_iff.mpr ⟨hr, Bool.or_eq_true_iff.mpr h⟩⟩

/-- IDCODE holds the part number in its bits 27 to 12. -/
theorem idcode_part (w : Word) : bitsOf (idcode w).toNat 27 12 = 0xAE12 := by
  have h1 : bitsOf w.toNat 3 0 < 16 := Nat.mod_lt _ (by norm_num)
  have h2 : bitsOf w.toNat 14 4 < 2048 := Nat.mod_lt _ (by norm_num)
  rw [idcode, BitVec.toNat_ofNat, bitsOf]
  norm_num
  omega

/-! ### What a read gives (R15, R17, R19, R274) -/

theorem State.regRead_unaligned {s : State} {off width : Nat} (h : ¬((width = 4 ∨ width = 8) ∧ off % width = 0)) (o : Origin) :
    s.regRead o off width = none := if_neg h

theorem State.placeVal_reg {r : Reg} (hr : r ≠ .GLM_CTX_VALUE) (s : State) (i : Nat) : s.placeVal (.reg r i) = s.regVal r i := by
  unfold State.placeVal
  split
  next h => exact absurd (Place.reg.inj h).1 hr
  next h => cases h; rfl
  all_goals next h => cases h

/-- A read of 4 or 8 aligned bytes from PF BAR0. -/
theorem State.regRead_bar {s : State} {o : Origin} {off width : Nat} (hw : width = 4 ∨ width = 8) (hal : off % width = 0)
    (hvf : ∀ c, o ≠ .vf c) (ha : s.answers o (judged off (s.barPlace (off / 8 * 8)))) (hwin : pfWindow off = false) :
    s.regRead o off width = some (s.placeRead off width (s.barPlace (off / 8 * 8))) := by
  obtain ⟨hwake, hreach⟩ := ha
  unfold State.regRead
  rw [if_pos ⟨hw, hal⟩]
  cases o with
  | vf c => exact absurd rfl (hvf c)
  | pf => simp only [hwake, hreach, hwin, Bool.not_true, Bool.false_and, if_neg Bool.false_ne_true]
  | mgmt e => simp only [hwake, hreach, hwin, Bool.not_true, Bool.false_and, if_neg Bool.false_ne_true]
  | jtag => simp only [hwake, hreach, hwin, Bool.not_true, Bool.false_and, if_neg Bool.false_ne_true]

/-- A whole read of a register at an aligned offset. -/
theorem State.placeRead_whole {s : State} {r : Reg} {off : Nat} (hr : r ≠ .GLM_CTX_VALUE) (hal : off % 8 = 0) (i : Nat) :
    s.placeRead off 8 (some (.reg r i)) = s.regVal r i % 2 ^ 64 := by
  simp only [State.placeRead, State.placeVal_reg hr, hal, Nat.mul_zero, Nat.pow_zero, Nat.div_one, Nat.reduceMul]

theorem State.placeRead_lower {s : State} {r : Reg} {off : Nat} (hr : r ≠ .GLM_CTX_VALUE) (hal : off % 8 = 0) (i : Nat) :
    s.placeRead off 4 (some (.reg r i)) = s.regVal r i % 2 ^ 32 := by
  simp only [State.placeRead, State.placeVal_reg hr, hal, Nat.mul_zero, Nat.pow_zero, Nat.div_one, Nat.reduceMul]

theorem State.placeRead_upper {s : State} {r : Reg} {off : Nat} (hr : r ≠ .GLM_CTX_VALUE) (hal : off % 8 = 4) (i : Nat) :
    s.placeRead off 4 (some (.reg r i)) = s.regVal r i / 2 ^ 32 % 2 ^ 32 := by
  simp only [State.placeRead, State.placeVal_reg hr, hal, Nat.reduceMul]

/-- A VF's read while the part is not Dormant. -/
theorem State.regRead_vf {s : State} {off : Nat} (hport : s.hostPort = true) (h4 : s.fld .PWR_STATUS_STATE 0 ≠ 4) (hal : off % 8 = 0)
    (c : BitVec 12) : s.regRead (.vf c) off 8 =
      if decide (off < 0x10000) && s.flag .CTX_CFG_ENABLE c.toNat then some (s.placeRead off 8 (s.winPlace c.toNat off))
      else some 0 := by
  rw [State.regRead, if_pos ⟨.inr rfl, hal⟩]
  simp only [State.hostWakes_vf h4, hport, Bool.not_true, if_neg Bool.false_ne_true, State.windowReads, Bool.true_and,
    Nat.div_mul_cancel (Nat.dvd_of_mod_eq_zero hal)]

/-! ### The host's writes to HBM (R270, R271) -/

theorem State.hostWrite_taken {s : State} (hport : s.hostPort = true) (h4 : s.fld .PWR_STATUS_STATE 0 ≠ 4) {cxl : Bool} {a : Nat}
    {bytes : List PByte} (hr : s.hostRange cxl a bytes.length = true) :
    s.hostWrite cxl a bytes = (s.memWrite hostAcc a bytes).count 4 bytes.length := by
  simp only [State.hostWrite, State.wakeUp_awake h4, ite_self, hport, hr, Bool.and_self, Bool.not_true, if_neg Bool.false_ne_true]

theorem State.hostWrite_refused {s : State} (h4 : s.fld .PWR_STATUS_STATE 0 ≠ 4) {cxl : Bool} {a : Nat} {bytes : List PByte}
    (hr : s.hostRange cxl a bytes.length = false) : s.hostWrite cxl a bytes = s.emit .unsupported := by
  simp only [State.hostWrite, State.wakeUp_awake h4, ite_self, hr, Bool.and_false, Bool.not_false, if_true]

/-- Without the host port a write is unsupported. -/
theorem State.hostWrite_down {s : State} (hup : s.power.hostUp = false) (cxl : Bool) (a : Nat) (bytes : List PByte) :
    s.hostWrite cxl a bytes = s.emit .unsupported := by
  simp only [State.hostWrite, State.hostPort, hup, Bool.false_and, Bool.not_false, if_true, if_neg Bool.false_ne_true]

theorem State.hostRange_cxl {s : State} {a n : Nat} : s.hostRange true a n = true ↔ s.flag .CMD_CFG_CXL 0 = true ∧
    s.power.hdmBase ≤ a ∧ a + n ≤ s.power.hdmBase + s.power.hdmSize ∧ a + n ≤ 576 * 2 ^ 30 := by
  simp only [State.hostRange, if_true, Bool.and_eq_true, decide_eq_true_eq, and_assoc]

theorem State.hostRange_bar2 {s : State} {a n : Nat} : s.hostRange false a n = decide (a + n ≤ 2 ^ s.power.bar2 * 2 ^ 30) :=
  if_neg Bool.false_ne_true

/-! ### The clauses of the obligation -/

/-- What a write does at a register's offset that answers. -/
theorem State.registerWrite_register (s : State) (o : Origin) (off : BitVec 26) (v : Word) (r : Reg) (i : Nat) (ha : s.answers o r)
    (hal : off.toNat % 8 = 0) (hp : s.barPlace off.toNat = some (.reg r i)) (hwin : pfWindow off.toNat = false) :
    exec (.registerWrite o off 8 v) s = .next ((if r.latches then s.latch r i v.toNat else s).regPut o r i (2 ^ 64 - 1)
      v.toNat) ∧
    (r.latches = false → exec (.registerWrite o off 4 v) s = .next (s.regPut o r i (2 ^ 32 - 1) (v.toNat % 2 ^ 32)) ∧
      exec (.registerWrite o (off + 4) 4 v) s = .next (s.regPut o r i (2 ^ 64 - 2 ^ 32) (v.toNat % 2 ^ 32 * 2 ^ 32))) ∧
    (r.latches = true → ∀ w : BitVec 32,
      exec (.latchedLowerWrite o off w) s = .next (s.latch r i w.toNat) ∧
      exec (.registerWrite o (off + 4) 4 v) s = .next (s.regPut o r i (2 ^ 64 - 1) (v.toNat % 2 ^ 32 * 2 ^ 32 +
        (Tbl.get 0 s.held (latchKey r i)).toNat))) := by
  have hupper := State.regWrite_upper ha hal hp hwin v.toNat
  rw [← add_four_toNat hal] at hupper
  refine ⟨congrArg Host.Outcome.next (State.regWrite_whole ha hal hp hwin v), fun hl => ⟨?_, ?_⟩, fun hl w => ⟨?_, ?_⟩⟩
  · exact congrArg Host.Outcome.next ((State.regWrite_lower ha hal hp hwin v.toNat).trans (if_neg (ne_true_of_eq_false hl)))
  · exact congrArg Host.Outcome.next (hupper.trans (if_neg (ne_true_of_eq_false hl)))
  · exact congrArg Host.Outcome.next (State.latchedWrite_latch ha hal hp hwin hl w)
  · exact congrArg Host.Outcome.next (hupper.trans (if_pos hl))

/-- What the TAP's instructions do while aux or 48 V stands. -/
theorem State.jtagInstruction_acts {s : State} (h : s.power.auxGood = true ∨ s.power.vinGood = true) {ir : JtagIr}
    (hp : ∀ code, ir ≠ .priv code) : exec (.jtagInstruction ir) s = .next (s.doJtag ir) := by
  have hexec : exec (.jtagInstruction ir) s = .next (s.mgt (fun s => s.doJtag ir)) := by
    cases ir
    case priv code => exact absurd rfl (hp code)
    all_goals rfl
  rw [hexec, State.mgt_on h]

theorem State.jtagDrive_off {s : State} (h : s.fld .PWR_STATUS_STATE 0 = 0) (n : Nat) : s.jtagDrive n = s.setJtag n := by
  rw [State.jtagDrive, if_pos h]

theorem State.jtagDrive_on {s : State} (h : s.fld .PWR_STATUS_STATE 0 ≠ 0) (n : Nat) : s.jtagDrive n = s.setJtag 0 := by
  rw [State.jtagDrive, if_neg h]

/-- Settles O60: each clause by where the access goes (its register, a VF's window, or no place), and a field by its access type. -/
theorem registersTakeWrites : Obligations.RegistersTakeWrites := by
  intro s
  refine ⟨State.registerWrite_register s, ?_, ?_, ?_, ?_, ?_, ?_, ?_, ?_, ?_, ?_, ?_, ?_, ?_⟩
  · exact fun o off width v h => congrArg Host.Outcome.next (State.regWrite_unaligned h o v.toNat)
  · intro c off v p hp hal hlt hc hport h4 hen hrst
    have hopen : s.winOpen c.toNat p.isMsix = true := by
      rw [State.winOpen, hen, bne_iff_ne.mpr hrst, Bool.or_true, Bool.and_self]
    exact congrArg Host.Outcome.next (State.regWrite_vf_open hal hlt hp hc hport h4 hopen v)
  · exact fun c off v hen => ⟨fun h4 => congrArg Host.Outcome.next (State.regWrite_vf_awake h4 hen _ _),
      fun _ hup hal => congrArg Host.Outcome.next (State.regWrite_vf_wakes hup hen hal _)⟩
  · rintro f i v u rfl - - hlo
    exact ⟨fun ha => State.writeFld_rw ha hlo i v, fun ha => State.writeFld_ro ha i _ v,
      fun ha b hb => State.writeFld_w1c ha hlo i v b hb, fun ha b hb => State.writeFld_w1s ha hlo i v b hb,
      fun g j h => State.fld_writeFld_ne h _ v⟩
  · exact fun _ _ _ => rfl
  · exact fun e r hr h => State.answers_effecter hr h e
  · intro h
    refine ⟨State.jtagInstruction_acts h nofun, State.jtagInstruction_acts h nofun, fun h0 => ⟨?_, ?_⟩, fun h0 => ⟨?_, ?_⟩, ?_, ?_⟩
    · exact (State.jtagInstruction_acts (ir := .extest) h nofun).trans (congrArg Host.Outcome.next (State.jtagDrive_off h0 3))
    · exact (State.jtagInstruction_acts (ir := .clamp) h nofun).trans (congrArg Host.Outcome.next (State.jtagDrive_off h0 4))
    · exact (State.jtagInstruction_acts (ir := .extest) h nofun).trans (congrArg Host.Outcome.next (State.jtagDrive_on h0 3))
    · exact (State.jtagInstruction_acts (ir := .clamp) h nofun).trans (congrArg Host.Outcome.next (State.jtagDrive_on h0 4))
    · exact ⟨idcode s.freeWord, idcode_part s.freeWord, _, State.jtagInstruction_acts h nofun, rfl, rfl, rfl⟩
    · intro off v
      have hacts := State.jtagInstruction_acts (ir := .regAccess off v) h nofun
      exact ⟨fun hl => hacts.trans (congrArg Host.Outcome.next (if_neg (ne_true_of_eq_false hl))),
        fun hu => hacts.trans (congrArg Host.Outcome.next (if_pos hu))⟩
  · exact fun o off width h => State.regRead_unaligned h o
  · intro o off r i ha hr hal hp hwin hvf
    have hlow : s.barPlace (off / 8 * 8) = some (.reg r i) := by rwa [Nat.div_mul_cancel (Nat.dvd_of_mod_eq_zero hal)]
    obtain ⟨hdiv, hmod, hhigh⟩ := upperHalf hal
    have hupp : s.barPlace ((off + 4) / 8 * 8) = some (.reg r i) := by rwa [hdiv]
    refine ⟨?_, ?_, ?_⟩
    · rw [State.regRead_bar (.inr rfl) hal hvf (by rw [hlow]; exact ha) hwin, hlow, State.placeRead_whole hr hal]
    · rw [State.regRead_bar (.inl rfl) (by omega) hvf (by rw [hlow]; exact ha) hwin, hlow, State.placeRead_lower hr hal]
    · rw [State.regRead_bar (.inl rfl) hmod hvf (by rw [hupp]; exact ha) (pfWindow_upperHalf hal hwin), hupp,
        State.placeRead_upper hr hhigh]
  · intro o off hvf hp hal hwin ha
    have hnone : s.barPlace (off / 8 * 8) = none := by rwa [Nat.div_mul_cancel (Nat.dvd_of_mod_eq_zero hal)]
    rw [State.regRead_bar (.inr rfl) hal hvf (by rw [hnone]; exact ha) hwin, hnone, State.placeRead]
  · intro c off hport h4 hal
    rw [State.regRead_vf hport h4 hal]
    refine ⟨fun h => ?_, fun r i hlt hen hp hr => ?_⟩
    · rcases h with hge | hen | hp
      · rw [decide_eq_false (by omega), Bool.false_and, if_neg Bool.false_ne_true]
      · rw [hen, Bool.and_false, if_neg Bool.false_ne_true]
      · rw [hp, State.placeRead, ite_self]
    · rw [decide_eq_true hlt, hen, Bool.and_self, if_pos rfl, hp, State.placeRead_whole hr hal]
  · intro a bytes hup hready h4
    have hport : s.hostPort = true := by rw [State.hostPort, hup, hready, Bool.and_self]
    refine ⟨fun hle => ?_, fun hgt => ?_, fun hcxl hlo hhi hmax => ?_, fun hout => ?_⟩
    · exact congrArg Host.Outcome.next (State.hostWrite_taken hport h4 (State.hostRange_bar2.trans (decide_eq_true hle)))
    · exact congrArg Host.Outcome.next (State.hostWrite_refused h4 (State.hostRange_bar2.trans (decide_eq_false (by omega))))
    · exact congrArg Host.Outcome.next (State.hostWrite_taken hport h4 (State.hostRange_cxl.mpr ⟨hcxl, hlo, hhi, hmax⟩))
    · have hno : s.hostRange true a.toNat bytes.length = false := by
        rw [← Bool.not_eq_true, State.hostRange_cxl]
        rintro ⟨hcxl, hlo, hhi, hmax⟩
        rcases hout with h | h | h | h
        · exact Bool.false_ne_true (h.symm.trans hcxl)
        all_goals omega
      exact congrArg Host.Outcome.next (State.hostWrite_refused h4 hno)
  · exact fun cxl a bytes hup => congrArg Host.Outcome.next (State.hostWrite_down hup cxl a.toNat bytes)

end Sys2Proof.Machine
end
